-- ==== Sys2Proof/Word.lean ====
section
/-! DEFINITION. The plain data the whole model is written with: bytes and words, sparse maps kept as
sorted association lists, and the operand records that the commands of the opcode table carry. -/
namespace Sys2Proof

abbrev Byte := BitVec 8
abbrev W16 := BitVec 16
abbrev W32 := BitVec 32
abbrev W64 := BitVec 64
/-- A 64 B line or sector, byte 0 in the low bits. -/
abbrev Line := BitVec 512

/-- A map with Nat keys as a list of pairs, keys strictly rising (`SMap.set` keeps them so). An unlisted key
holds the default that the reader names. -/
abbrev SMap (α : Type) := List (Nat × α)

namespace SMap

/-- The value at a key, or the default where the key is unlisted. -/
def get {α : Type} (d : α) : SMap α → Nat → α
  | [], _ => d
  | (k, v) :: m, i => if k = i then v else get d m i

/-- Put a value at a key: replace the pair, or insert it where its key belongs. -/
def set {α : Type} : SMap α → Nat → α → SMap α
  | [], i, v => [(i, v)]
  | (k, w) :: m, i, v =>
    if i < k then (i, v) :: (k, w) :: m
    else if i = k then (i, v) :: m
    else (k, w) :: set m i v

/-- Take a key out. -/
def del {α : Type} : SMap α → Nat → SMap α
  | [], _ => []
  | (k, w) :: m, i => if k = i then m else (k, w) :: del m i

/-- The value at a key, if the key is listed. -/
def find {α : Type} : SMap α → Nat → Option α
  | [], _ => none
  | (k, v) :: m, i => if k = i then some v else find m i

/-- Change the value at a key, reading the default where it is unlisted. -/
def upd {α : Type} (d : α) (m : SMap α) (i : Nat) (f : α → α) : SMap α :=
  m.set i (f (m.get d i))

end SMap

/-- Replace the element at an index of a list; an index past its end changes nothing. -/
def listSet {α : Type} : List α → Nat → α → List α
  | [], _, _ => []
  | _ :: xs, 0, v => v :: xs
  | x :: xs, n + 1, v => x :: listSet xs n v

/-- The element at an index, or a default past the end. -/
def listGet {α : Type} (d : α) : List α → Nat → α
  | [], _ => d
  | x :: _, 0 => x
  | _ :: xs, n + 1 => listGet d xs n

/-- The first natural number below the bound that satisfies the test. -/
def firstBelow (n : Nat) (p : Nat → Bool) : Option Nat :=
  (List.range n).find? p

/-- Replace bits [lo + w − 1 : lo] of a word by the low bits of a value. -/
def setField {n : Nat} (x : BitVec n) (lo w : Nat) (v : BitVec w) : BitVec n :=
  let mask := ((BitVec.allOnes w).setWidth n) <<< lo
  (x &&& ~~~mask) ||| ((v.setWidth n) <<< lo)

/-- Bits [lo + w − 1 : lo] of a word. -/
abbrev field {n : Nat} (x : BitVec n) (lo w : Nat) : BitVec w := x.extractLsb' lo w

/-- One bit of a word as a Bool. -/
abbrev bit {n : Nat} (x : BitVec n) (i : Nat) : Bool := x.getLsbD i

/-- A Bool as one bit. -/
abbrev b1 (b : Bool) : BitVec 1 := BitVec.ofBool b

/-- Add one to a counter that saturates at all ones. -/
def satInc {n : Nat} (x : BitVec n) : BitVec n :=
  if x = BitVec.allOnes n then x else x + 1

/-- Add an amount to a counter that saturates at all ones. -/
def satAdd {n : Nat} (x : BitVec n) (k : Nat) : BitVec n :=
  BitVec.ofNat n (min (x.toNat + k) (2 ^ n - 1))

/-- Little-endian bytes of a natural number. -/
def leBytes : Nat → Nat → List Byte
  | 0, _ => []
  | n + 1, v => BitVec.ofNat 8 v :: leBytes n (v / 256)

/-- The natural number that little-endian bytes spell. -/
def leNat : List Byte → Nat
  | [] => 0
  | b :: bs => b.toNat + 256 * leNat bs

/-- `n` bytes of a byte list from offset `o`, read little-endian; bytes past the end read zero. -/
def leAt (bs : List Byte) (o n : Nat) : Nat :=
  leNat ((bs.drop o).take n)

/-- The paths by which CSR space is reached (R777). -/
inductive AccessPath where
  | pf | vf (v : Fin 16) | steward | jtag
deriving DecidableEq, Repr

/-- A number for each access path, for its LO latches (R781). -/
def AccessPath.num : AccessPath → Nat
  | .pf => 0 | .vf v => v.val + 1 | .steward => 17 | .jtag => 18

/-- A state in which the host holds a line of the window (R604). -/
inductive SnoopState where
  | m | e | s
deriving DecidableEq, Repr

/-- The snoops that the host sends to the device's cache: SnpData, SnpInv and SnpCur (R608). -/
inductive SnoopKind where
  | data | inv | cur
deriving DecidableEq, Repr

/-- How a CXL.cache request is answered (R606). -/
inductive GoKind where
  | go | err | errWritePull
deriving DecidableEq, Repr

/-- A kernel-queue command as its SQE gives it (R564–R566): the queue, the command identifier and the arguments.
Queue 1,024 is the steward's own (R569). -/
structure KCmd where
  q : Fin 1025
  cid : W16
  a0 : W64 := 0
  a1 : W64 := 0
  a2 : W64 := 0
  a3 : W64 := 0
  a4 : W64 := 0
  a5 : W64 := 0
  a6 : W64 := 0
deriving DecidableEq, Repr

/-- What a check of R660 finds (R663, R664): the unit, and what of it. -/
inductive Check where
  | coreSequencer (core : Fin 1200) | coreResidue (core : Fin 1200)
  | clusterSequencer (c : Fin 100) | dispatcher (c : Fin 100)
  | coreStore (core : Fin 1200) | cistern (c : Fin 100)
  | updateUnit (stack : Fin 12) (unit : Fin 8)
  /-- A residue mismatch in a lookup unit, or in the cistern pooler of a cluster, for the n-th fragment that it works on. -/
  | lookupUnit (stack : Fin 12) (unit : Fin 32) (n : Nat) | pooler (c : Fin 100) (n : Nat)
  /-- An uncorrectable dirty line in a basin-directory cache, by set; or a tag-cache line, by flat place ÷ 64. -/
  | directory (stack : Fin 12) (set : Nat) | tagLine (stack : Fin 12) (line : Nat)
  /-- An uncorrectable dirty line of the host line cache, by HPA ÷ 64. -/
  | hostLine (line : Nat)
  /-- An uncorrectable page-buffer word of the n-th I/O in flight. -/
  | pageWord (n : Nat)
  | codebook (stack : Fin 12)
  | astCopy | astBoth
  /-- A mesh or bridge link of a compute die failed. -/
  | link (die : Fin 4) | integrityUnit | crossbar
  /-- A reader other than the owning context finds an uncorrectable word, at a DA of a core store or cistern (R831). -/
  | readByOther (da : Nat)
  /-- A correctable error: in a core store, a cistern, or a pair's memories (R664). -/
  | corrCore (core : Fin 1200) | corrCluster (c : Fin 100) | corrPair (n : Fin 8)
deriving DecidableEq, Repr

/-- A digest key or digest: 128 bits. -/
abbrev D128 := BitVec 128

/-- An item of the mirror stream (R641, R646). Registrations are what the initial full copy sends of commands that ended
before it began. -/
inductive MirrorItem where
  /-- A mirrored command: opcode, arguments, status and result as the active saw them, and its data. -/
  | command (opc : Nat) (args : List W64) (status : Nat) (result : W64) (data : List Byte)
  /-- An update record with its batch's optimizer fields LR, MU, BETA2, EPS, C1, C2 (R350). -/
  | update (table row kind : Nat) (zst : Bool) (opt : List W32) (src : Nat) (payload : List Byte)
  /-- A result record: the new row bytes and the new state. -/
  | result (table row : Nat) (bytes state : List Byte)
  | copyRow (table row : Nat) (bytes state : List Byte)
  /-- A page-group copy of a TIER 3 table: its first row, and its rows. -/
  | copyPage (table first : Nat) (rows : List (List Byte))
  | granule (da : Nat) (bytes : List Byte)
  | model (i part : Nat) (desc : List Byte)
  | program (i : Nat) (image : List Byte)
  | codebook (i : Nat) (record : List Byte)
  /-- A table: its stored descriptor, its maps, its published half and its state arrays. -/
  | table (t : Nat) (desc maps : List Byte) (half : Bool) (states : List Nat)
deriving DecidableEq, Repr

/-- A digest snapshot (R378). -/
structure Snapshot where
  epoch : Nat
  time : Nat
  total : D128
  broken : List Nat
  d : List (Nat × D128)
deriving DecidableEq, Repr

/-- COMMIT(n) (R641): item count of the epoch, its flags, and the active's snapshot in a digest epoch. -/
structure Commit where
  n : Nat
  items : Nat
  full : Bool := false
  swap : Bool := false
  snap : Option Snapshot := none
deriving DecidableEq, Repr

/-- Roles (R636), encoded in PL_STS.ROLE as R654 gives. -/
inductive Role where
  | solo | active | standbyIncomplete | standby | split
deriving DecidableEq, Repr

/-- The rails that R826 tells apart: those that MAIN_EN enables, the HBM's, the HBM PHY's, and the ports'. -/
inductive Rail where
  | main | hbm | hphy | pser
deriving DecidableEq, Repr

/-- A lane that training finds failing (R140): its stack, channel, pseudo-channel and number. -/
structure BadLane where
  stack : Fin 12
  ch : Fin 32
  pc : Fin 2
  lane : Fin 36
deriving DecidableEq, Repr

end Sys2Proof
end

