-- ==== Sys2Proof/Syntax.lean ====
section
/-! DEFINITION. The commands of the block: one constructor per row of spec/opcode_table.json, in the table's order,
with the operands the row's rule gives it. -/
namespace Sys2Proof


/-- A command sent to the block. -/
inductive Instr where
  /-- POR (R692). The hub domain powers up, and a cold reset starts the start-up sequence. -/
  | por (boot : BitVec 3) (clk : BitVec 2) (pair test : Bool)
  /-- PERST_N_ASSERT (R692). PERST_N goes low, and the part enters a device reset held while the pin stays low. -/
  | perstNAssert
  /-- PERST_N_DEASSERT (R713). PERST_N rises, and a held start-up restarts at step 1. -/
  | perstNDeassert
  /-- JTAG_RESET (R692). A JTAG reset instruction in a test start-up causes a device reset. -/
  | jtagReset
  /-- STEWARD_RESET_REQUEST (R692). The steward requests a device reset, for example after a lifecycle change. -/
  | stewardResetRequest
  /-- BOOT_IMAGE_RECEIVED (R703). A boot image finishes arriving from SPI flash, host load, the peer or the sideband, and is checked. -/
  | bootImageReceived (src : Fin 4) (data : List Byte) (readError : Bool)
  /-- BOOT_IMAGE_ABSENT_TIMEOUT (R705). An image whose transfer began is absent for 10 s and is rejected with reason 6. -/
  | bootImageAbsentTimeout
  /-- RSTC_HLOAD_GO (R720). A write of GO in RSTC_HLOAD_LEN starts a host load of a boot image. -/
  | rstcHloadGo (p : AccessPath) (v : W32)
  /-- HBM_TRAINING_COMPLETE (R140). Channel training finishes with the recorded lane repairs applied, and failing channels are retired before the zero-fill. -/
  | hbmTrainingComplete (bad : List BadLane)
  /-- ZERO_FILL_COMPLETE (R118). Every sector of every channel in use has been written as zero with a valid codeword. -/
  | zeroFillComplete
  /-- STARTUP_READY (R702). The ports have trained, and the part declares READY and serves every BAR. -/
  | startupReady
  /-- STARTUP_TIMEOUT (R710). The start-up timer expires before READY, and the part resets with code 8 or halts after three restarts. -/
  | startupTimeout
  /-- THERMAL_TRIP (R823). A junction reaches 115 °C, and the part asserts THERMTRIP_N, drives QF_PDN_OUT low and holds a device reset. -/
  | thermalTrip
  /-- THERMAL_REARM (R712). The junction has stayed below the re-arm threshold for 1 s, and the held start-up begins. -/
  | thermalRearm
  /-- VBAK_LOSS (R711). VBAK is lost, and the backup contents are lost and the counters restart. -/
  | vbakLoss
  /-- VDD_CORE_UNDERVOLT (R826). VDD_CORE stays below 0.50 V for 10 µs, and the hub and compute domains are held in reset until a POR. -/
  | vddCoreUndervolt
  /-- RAIL_FAULT (R826). An HBM, PHY, port or main rail leaves tolerance or its regulator reports a fault. -/
  | railFault (rail : Rail) (latched : Bool) (addr page : Byte) (status : W16)
  /-- AUX_RAIL_LOSS (R826). An auxiliary rail leaves tolerance, and the aux domain goes through POR. -/
  | auxRailLoss
  /-- AUX_RAIL_RETURN (R740). The auxiliary rail returns, the aux domain starts and the part is in D3cold. -/
  | auxRailReturn
  /-- MAIN_RAILS_RETURN (R816). The main rails return while MAIN_EN is high, and the hub main domain leaves reset. -/
  | mainRailsReturn
  /-- PM_ALERT (R826). PM_ALERT_N is asserted, and the regulator's STATUS_WORD is read and recorded. -/
  | pmAlert (addr page : Byte) (status : W16) (answered : Bool)
  /-- BLOCK_IDLE_ACK (R709). A block acknowledges its idle request, and reset is asserted, released and the block initialises. -/
  | blockIdleAck (block : Fin 49)
  /-- RSTC_IDLE_TIMEOUT_EXPIRY (R709). A block's idle request is not acknowledged within RSTC_IDLE_TIMEOUT, and recovery climbs a rung. -/
  | rstcIdleTimeoutExpiry (block : Fin 49)
  /-- DIE_RELEASE (R245). A compute die leaves its reset, and its dispatchers and stack controllers are reloaded before service. -/
  | dieRelease (die : Fin 4)
  /-- REF_CLOCK_LOSS (R58). The reference clock is lost, and the time base enters holdover with a fault record. -/
  | refClockLoss
  /-- PLL_RELOCK (R58). The PLL relocks after the reference returns, and HOLDOVER clears without a step in time. -/
  | pllRelock
  /-- HUB_TIME_STEP (R63). A write to HUB_TIME_STEP adds a forward step to device time, at once or at a pair step time. -/
  | hubTimeStep (p : AccessPath) (v : W32)
  /-- PAIR_STEP_TIME (R63). A part's device time reaches the step time T, and the pending step is applied to all replicas. -/
  | pairStepTime
  /-- TIME_MESSAGE_SEND (R61). Every 10 µs a part sends a time message over the Quefy link. -/
  | timeMessageSend
  /-- TIME_MESSAGE (R61). A time message arrives, and the standby corrects offset and frequency and may set PAIR_LOCK. -/
  | timeMessage (peerTime : W64) (oneWay : W32) (step : Option (W32 × W64)) (lock : Bool)
  /-- PAIR_LOCK_LOSS (R62). The offset exceeds 50 ns or no message arrives for 1 ms, and the standby clears PAIR_LOCK. -/
  | pairLockLoss
  /-- LO_READ_LATCH (R781). A read of a LO register latches its HI register for that access path. -/
  | loReadLatch (p : AccessPath) (off : BitVec 26) (size : Fin 4)
  /-- PACE_SAMPLE (R73). Every 1 µs each pace monitor counts handshakes, and PWR_PACE_MIN is updated. -/
  | paceSample (die : Fin 5) (monitors : List W16)
  /-- AGEING_UPDATE (R74). Hourly the steward normalises pace samples, predicts end of life and updates PWR_AGE and the health report. -/
  | ageingUpdate (die : Fin 5) (pace : W16) (temp : BitVec 11) (days : Nat)
  /-- PWR_PACE_MIN_WRITE (R76). Any write to PWR_PACE_MIN sets MIN to 0xFFFF. -/
  | pwrPaceMinWrite (p : AccessPath) (die : Fin 5)
  /-- P_STATE_REQUEST (R739). A write of PWR_CTL.PREQ requests a P-state, and the steward ramps VDD_CORE through adjacent P-states. -/
  | pStateRequest (p : AccessPath) (v : W32)
  /-- RAMP_COMPLETE (R50). A VDD_CORE ramp ends, RAMP clears and the figures of the new P-state apply. -/
  | rampComplete
  /-- POWER_CAP_SAMPLE (R739). Every 1 ms the steward samples board power and lowers or raises the P-state under capping. -/
  | powerCapSample (power : W16)
  /-- D0_IDLE_REQUEST (R740). A write of PWR_CTL.IDLE gates or restores the clusters, or is refused. -/
  | d0IdleRequest (p : AccessPath) (v : W32)
  /-- PMCSR_D3HOT (R740). The PF's PowerState is written to D3hot, and the part drains and enters D3hot. -/
  | pmcsrD3hot
  /-- PMCSR_D0 (R740). The PF's PowerState is written to D0 from D3hot, and the dies are powered and the HBM retrained. -/
  | pmcsrD0
  /-- HBM_READ_REQUEST (R124). A channel scheduler accepts a read request and queues it for a granule slot. -/
  | hbmReadRequest (stack : Fin 12) (ch : Fin 32) (pc : Fin 2) (addr : BitVec 30) (sectors : Fin 256) (demand : Bool)
  /-- HBM_WRITE_REQUEST (R124). A channel scheduler accepts a write request into its write buffer. -/
  | hbmWriteRequest (stack : Fin 12) (ch : Fin 32) (pc : Fin 2) (addr : BitVec 30) (data : List Byte) (poison : Bool)
  /-- HBM_READ_COMPLETE (R129). A read's sectors arrive and are decoded as good, corrected or uncorrectable. -/
  | hbmReadComplete (stack : Fin 12) (ch : Fin 32) (pc : Fin 2) (errors : List (Nat × Nat × Byte)) (ode : BitVec 12)
  /-- SECTOR_REREAD_COMPLETE (R129). The reread of an uncorrectable sector completes, and the sector is corrected or poisoned. -/
  | sectorRereadComplete (stack : Fin 12) (ch : Fin 32) (pc : Fin 2) (errors : List (Nat × Nat × Byte)) (ode : BitVec 12)
  /-- DRIFT_LOCK_LOSS (R132). The drift tracker reports loss of lock on a lane. -/
  | driftLockLoss (stack : Fin 12) (ch : Fin 32) (pc : Fin 2) (lane : Fin 36)
  /-- DRIFT_TRACKING_SLOT (R142). Every 1 ms each pseudo-channel takes a 400 ns drift-tracking slot. -/
  | driftTrackingSlot (stack : Fin 12) (ch : Fin 32) (pc : Fin 2)
  /-- DRAM_REFRESH (R142). The scheduler issues per-bank refresh and refresh management when due. -/
  | dramRefresh (stack : Fin 12) (ch : Fin 32)
  /-- CALIBRATION_WINDOW (R135). A channel's calibration window opens with a lane switch pending, maps spares, checks them and enters SWEEP. -/
  | calibrationWindow (stack : Fin 12) (ch : Fin 32) (checkA checkB : Bool)
  /-- SWEEP_COMPLETE (R136). The sweep of a channel has rewritten every sector, and the channel returns to HEALTHY. -/
  | sweepComplete (stack : Fin 12) (ch : Fin 32)
  /-- EVACUATION_BLOCK_COPIED (R137). The last granule of an evacuated block is copied, and its redirect is installed. -/
  | evacuationBlockCopied (stack : Fin 12) (ch : Fin 32) (pc : Fin 2) (block : Byte) (toPc : Fin 64) (toBlock : Byte)
  /-- EVACUATION_COMPLETE (R137). Evacuation of a RETIRING channel ends, and it becomes RETIRED or stays short of reserve. -/
  | evacuationComplete (stack : Fin 12) (ch : Fin 32)
  /-- PATROL_SCRUB_READ (R141). Patrol scrub reads and decodes the next sector at its even rate. -/
  | patrolScrubRead (stack : Fin 12) (ch : Fin 32) (errors : List (Nat × Nat × Byte)) (ode : BitVec 12)
  /-- HUB_REGION_A_WRITE (R122). A write to HUB_REGION_A enables a region with the checks of R120, disables it, or is discarded. -/
  | hubRegionAWrite (p : AccessPath) (n : Fin 64) (v : W32)
  /-- CBK_INSTALL (R165). The command installs a codebook record if it is valid and unused. -/
  | cbkInstall (c : KCmd)
  /-- CBK_CLEAR (R165). The command clears a codebook's VALID if its use counts are zero. -/
  | cbkClear (c : KCmd)
  /-- CBK_READ (R165). The command copies a codebook record out to a DA. -/
  | cbkRead (c : KCmd)
  /-- CENSUS (R167). The command counts symbols over a range, and may write counts, install a codebook and recode blocks. -/
  | census (c : KCmd)
  /-- TBL_CREATE (R210). The command checks a descriptor image, copies its maps and sets the table LOADING. -/
  | tblCreate (c : KCmd)
  /-- TBL_LOAD (R211). The command writes rows of a LOADING table from a source into the home tier. -/
  | tblLoad (c : KCmd)
  /-- TBL_SEAL (R212). The command checks state, pins default and fallback rows, sweeps digests and sets SERVING. -/
  | tblSeal (c : KCmd)
  /-- TBL_RETIRE (R213). The command frees a LOADING table or starts draining a SERVING table. -/
  | tblRetire (c : KCmd)
  /-- TBL_DRAIN_DONE (R213). A DRAINING table has no entries of its model and nothing in flight, and is cleaned up and set FREE. -/
  | tblDrainDone (t : Fin 262144)
  /-- TBL_RETIRE_TIMEOUT (R213). A DRAINING table does not drain within GLOBAL_TIMEOUT and returns to SERVING with TBL_BUSY. -/
  | tblRetireTimeout (t : Fin 262144)
  /-- TBL_CTRZ (R208). The command zeroes a table's counter record. -/
  | tblCtrz (c : KCmd)
  /-- TBL_FLIP (R367). The command requests a flip of a PUB table's published half. -/
  | tblFlip (c : KCmd)
  /-- HUB_TDA_LO_WRITE (R216). A write to HUB_TDA_LO enables and zeroes the table store, or clears it when every table is FREE. -/
  | hubTdaLoWrite (p : AccessPath) (v : W32)
  /-- HUB_BD_CTL_WRITE (R253). A write to HUB_BD_CTL enables the basin directory with its checks, or is ignored. -/
  | hubBdCtlWrite (p : AccessPath) (v : W32)
  /-- BSN_FILL (R238). The planner command adds hot copies of the listed rows. -/
  | bsnFill (c : KCmd)
  /-- BSN_DROP (R240). The planner command removes hot copies of the listed rows. -/
  | bsnDrop (c : KCmd)
  /-- BSN_DROP_SETTLED (R240). Every read issued to the dropped slots has completed, and the CQE is posted. -/
  | bsnDropSettled (n : Nat)
  /-- FTN_ADD (R242). The planner command makes the listed rows fountain rows in all twelve stacks. -/
  | ftnAdd (c : KCmd)
  /-- FTN_DROP (R244). The planner command returns fountain rows to their ordinary places after a marker round. -/
  | ftnDrop (c : KCmd)
  /-- BKT_MOVE (R247). The planner command migrates a bucket to another stack and frame. -/
  | bktMove (c : KCmd)
  /-- BKT_MOVE_COPY_DONE (R247). The copy of a moving bucket's entries ends, and the bucket map flips to the new stack. -/
  | bktMoveCopyDone (bucket : Fin 4096)
  /-- HEAT_ON (R230). The command allocates and zeroes a heat sketch for a table. -/
  | heatOn (c : KCmd)
  /-- HEAT_OFF (R230). The command frees a table's heat sketch. -/
  | heatOff (c : KCmd)
  /-- HEAT_READ (R235). The command writes each listed row's heat estimate. -/
  | heatRead (c : KCmd)
  /-- HEAT_SAMPLE (R231). A sampled key reaches the sketch's stack, which increments its counters. -/
  | heatSample (n : Nat)
  /-- DECAY_TICK (R233). Every DECAY_MS the hub halves every sketch counter and load counter and clears the recent-miss filters. -/
  | decayTick
  /-- FILL_ROW_ARRIVAL (R238). A row read for a fill arrives and is written to its slot, or the fill retries or is abandoned. -/
  | fillRowArrival (n : Nat)
  /-- MARKER_ROUND_COMPLETE (R245). Markers from every dispatcher in service have arrived, and the waiting flip, drop or move continues. -/
  | markerRoundComplete (kind : Fin 3) (n : Nat)
  /-- STACK_ROW_REQUEST (R228). A row request reaches a stack controller, which probes the directory and reads, forwards or misses. -/
  | stackRowRequest (stack : Fin 12) (n : Nat)
  /-- RSV_DECLARE (R269). The command declares a reservoir range of host memory. -/
  | rsvDeclare (c : KCmd)
  /-- RSV_RELEASE (R269). The command releases a declared reservoir range. -/
  | rsvRelease (c : KCmd)
  /-- RESERVOIR_READ_RESPONSE (R273). A reservoir line read returns good, poisoned or failed, and the row goes to its owning lookup unit or cannot arrive. -/
  | reservoirReadResponse (n : Nat) (outcome : Fin 3)
  /-- AQ_FORMAT (R280). The command formats up to eight drives as an aquifer set and writes their labels. -/
  | aqFormat (c : KCmd)
  /-- AQ_MOUNT (R282). The command reads the labels, replays the logs and mounts the aquifer set. -/
  | aqMount (c : KCmd) (failed : Byte)
  /-- AQ_SYNC (R296). The command writes every tail to flash, flushes the members and writes a sync mark. -/
  | aqSync (c : KCmd)
  /-- AQ_EXT_CREATE (R283). The command allocates an extent and returns its handle. -/
  | aqExtCreate (c : KCmd)
  /-- AQ_EXT_FREE (R283). The command frees an extent not named by a table. -/
  | aqExtFree (c : KCmd)
  /-- AQ_ADOPT (R300). The command makes a blank drive the replacement for a lost ordinal. -/
  | aqAdopt (c : KCmd)
  /-- AQ_SLOT_OFF (R300). The command takes a slot off safely and sets it SAFE. -/
  | aqSlotOff (c : KCmd)
  /-- NVME_COMPLETION (R279). An NVMe command completes, and its rows are delivered or cannot arrive, with one retry for other errors. -/
  | nvmeCompletion (n : Nat) (status : W16)
  /-- NVME_IO_TIMEOUT (R279). An I/O exceeds IO_TMO and is aborted. -/
  | nvmeIoTimeout (n : Nat)
  /-- NVME_CONTROLLER_RESET (R279). An I/O exceeds twice IO_TMO, the drive's controller is reset and its I/Os cannot arrive. -/
  | nvmeControllerReset (slot : Fin 8)
  /-- AQ_DRIVE_INSERT (R300). Presence detect on an empty slot starts training of a drive. -/
  | aqDriveInsert (slot : Fin 8) (serial : Nat) (lbas : BitVec 48) (awun : BitVec 8)
  /-- AQ_DRIVE_IDENTIFIED (R300). An inserted drive trains and is identified, and its label decides its slot state. -/
  | aqDriveIdentified (slot : Fin 8) (speed : BitVec 2) (width : BitVec 5) (supported : Bool)
  /-- AQ_SURPRISE_REMOVAL (R300). A drive is removed unannounced or containment triggers, and its I/Os and pages cannot arrive. -/
  | aqSurpriseRemoval (slot : Fin 8) (present : Bool)
  /-- AQ_LINK_LOSS (R300). A trained aquifer link is lost with the drive present, handled as surprise removal with one retrain. -/
  | aqLinkLoss (slot : Fin 8) (retrained : Bool)
  /-- NVME_ASYNC_EVENT (R298). A drive's asynchronous event makes the steward read its SMART/Health log. -/
  | nvmeAsyncEvent (slot : Fin 8) (pct spare crit : Byte) (days : Nat)
  /-- SMART_POLL (R298). Every 10 min the steward reads each member's SMART log and updates AQ_WEAR and AQ_EOL. -/
  | smartPoll (slot : Fin 8) (pct spare crit : Byte) (days : Nat)
  /-- TAIL_WRITE (R291). A full log tail is written to flash and index entries move to the flash place. -/
  | tailWrite (ordinal : Fin 8)
  /-- TAIL_TIMER_EXPIRY (R291). TAIL_US has passed since a tail's first record, and the tail is written to flash. -/
  | tailTimerExpiry (ordinal : Fin 8)
  /-- COMPACTION (R293). The engine merges a log segment's records into their home page groups and deallocates the segment. -/
  | compaction (ordinal : Fin 8)
  /-- LATE_TIME (R304). A lookup list's late time takes effect, and its waiting rows are settled under LATE_POL. -/
  | lateTime (n : Nat)
  /-- LKUP (R437). The core hands a lookup list header to its dispatcher. -/
  | lkup (core : Fin 1200) (w : BitVec 56)
  /-- DISPATCHER_BAG (R327). The dispatcher processes a bag, translating its IDs and sending fragments and far requests as credits allow. -/
  | dispatcherBag (cluster : Fin 100) (n : Nat)
  /-- LU_ROW_ARRIVAL (R330). A row reaches its owning lookup unit and is pooled, defaulted or settled. -/
  | luRowArrival (stack : Fin 12) (n : Nat)
  /-- PARTIAL_ARRIVAL (R336). A partial reaches the merge engine and is absorbed into its bag's merge slot. -/
  | partialArrival (core : Fin 1200) (n : Nat)
  /-- UPD_BATCH (R351). The SQE submits an update batch, which is checked at acceptance. -/
  | updBatch (c : KCmd)
  /-- UPDATE_RECORD (R356). An update unit takes an update record, reads the old row and state, journals, writes and folds the digest. -/
  | updateRecord (n : Nat)
  /-- UPDATE_READ_COMPLETE (R355). An old-row read for an update, from flash or a far place, completes and the update continues. -/
  | updateReadComplete (n : Nat)
  /-- JOURNAL_SPACE_FREED (R372). Journal records become releasable, and a unit waiting with JFULL resumes. -/
  | journalSpaceFreed (stack : Fin 12)
  /-- BATCH_COMPLETE (R353). Every applied record of a batch is visible, RESULT is written and the CQE posted or the handle completed. -/
  | batchComplete (n : Nat)
  /-- FLIP_HOLD_DRAINED (R367). Every record accepted before a flip is applied, and the hub flips the published half and broadcasts it. -/
  | flipHoldDrained (n : Nat)
  /-- EPOCH_TIMER (R369). EPOCH_US has passed with AUTO set, and the open update epoch closes. -/
  | epochTimer
  /-- UPD_EPOCH (R369). The command closes the open update epoch. -/
  | updEpoch (c : KCmd)
  /-- EPOCH_MARKER_REACHED (R369). An update unit reaches its epoch marker and saves its digest partials. -/
  | epochMarkerReached (unit : Fin 96)
  /-- DGST_REBUILD (R379). The command holds a model's updates, re-sweeps its tables and replaces its digest. -/
  | dgstRebuild (c : KCmd)
  /-- HUB_UPD_CTL_WRITE (R382). A write to HUB_UPD_CTL sets epoch length, AUTO and E, with E barred while digested tables serve. -/
  | hubUpdCtlWrite (p : AccessPath) (v : W32)
  /-- HUB_DGS_WRITE (R384). A write to HUB_DGS restarts the snapshot ring, or is ignored. -/
  | hubDgsWrite (p : AccessPath) (v : W32)
  /-- UU_JNL_WRITE (R387). A write to UU_JNL sets a stack's journal area, or is ignored. -/
  | uuJnlWrite (p : AccessPath) (stack : Fin 12) (v : W32)
  /-- NOP (R417). The core bundle slot does nothing. -/
  | coreNop (core : Fin 1200) (v : Bool)
  /-- END (R419). The core stream ends once every earlier instruction has completed. -/
  | coreEnd (core : Fin 1200) (w : BitVec 56)
  /-- HOLD (R419). The comma of a core stream stops fetch until every earlier instruction completes. -/
  | hold (core : Fin 1200) (w : BitVec 56)
  /-- SOP (R426). A scalar register operation. -/
  | sop (core : Fin 1200) (w : BitVec 56)
  /-- SOPI (R426). A scalar operation with an immediate. -/
  | sopi (core : Fin 1200) (w : BitVec 56)
  /-- SLI (R425). Loads an immediate into a scalar register. -/
  | sli (core : Fin 1200) (w : BitVec 56)
  /-- BR (R425). A conditional branch of the core stream. -/
  | br (core : Fin 1200) (w : BitVec 56)
  /-- LDS_S (R425). Loads 8 B from the core store to a scalar register. -/
  | ldsS (core : Fin 1200) (w : BitVec 56)
  /-- STS_S (R425). Stores 8 B from a scalar register to the core store. -/
  | stsS (core : Fin 1200) (w : BitVec 56)
  /-- WSTG (R427). Queues a weight tile for staging into the staging slot. -/
  | wstg (core : Fin 1200) (w : BitVec 56)
  /-- WSTG_STAGING_COMPLETE (R394). A tile finishes staging once its slot was free. -/
  | wstgStagingComplete (core : Fin 1200)
  /-- MMA (R430). Checks a matrix operation and queues it for the array. -/
  | mma (core : Fin 1200) (w : BitVec 56)
  /-- MMA_START (R450). An MMA leaves the queue, crests if asked and streams its rows. -/
  | mmaStart (core : Fin 1200)
  /-- MMA_COMPLETE (R450). An MMA's last terms reach the accumulator file and FIN outputs are written. -/
  | mmaComplete (core : Fin 1200)
  /-- PULL (R436). Starts a block-list transfer from DAs into the core store. -/
  | pull (core : Fin 1200) (w : BitVec 56)
  /-- PUSH (R436). Starts a block-list transfer from the core store to DAs. -/
  | push (core : Fin 1200) (w : BitVec 56)
  /-- TRANSFER_BLOCK (R493). A transfer engine checks and moves the next block of a list as channel rules allow. -/
  | transferBlock (core : Fin 1200) (ch : Fin 16)
  /-- TRANSFER_COMPLETE (R493). Every line of a transfer is performed and its completion counter is incremented. -/
  | transferComplete (core : Fin 1200) (ch : Fin 16)
  /-- CWT_WAIT (R438). Holds issue until a completion counter reaches a target. -/
  | cwtWait (core : Fin 1200) (w : BitVec 56)
  /-- CWT_READ (R436). Reads a completion counter into a scalar register. -/
  | cwtRead (core : Fin 1200) (w : BitVec 56)
  /-- SLW (R500). Waits on the local sluice semaphore and subtracts the count. -/
  | slw (core : Fin 1200) (w : BitVec 56)
  /-- SLS (R500). Sends a count to the peer's sluice semaphore after earlier instructions complete. -/
  | sls (core : Fin 1200) (w : BitVec 56)
  /-- SLUICE_SIGNAL_ARRIVAL (R500). A sluice signal arrives at the peer, which adds it and may wake its SLW. -/
  | sluiceSignalArrival (n : Nat)
  /-- FNC_A (R506). An acquire fence. -/
  | fncA (core : Fin 1200) (w : BitVec 56)
  /-- FNC_R (R506). A release fence. -/
  | fncR (core : Fin 1200) (w : BitVec 56)
  /-- FNC_F (R506). A full fence that holds later bundles. -/
  | fncF (core : Fin 1200) (w : BitVec 56)
  /-- BAR (R510). A core arrives at a barrier. -/
  | bar (core : Fin 1200) (w : BitVec 56)
  /-- BARRIER_RELEASE (R512). All participants have arrived and are released after the barrier network delay. -/
  | barrierRelease (part bid : Fin 16) (peer : Bool)
  /-- DGST (R440). Computes a tensor digest of core-store lines. -/
  | dgst (core : Fin 1200) (w : BitVec 56)
  /-- VOP (R433). A vector arithmetic operation on active lanes. -/
  | vop (core : Fin 1200) (w : BitVec 56)
  /-- VCMP (R433). A vector compare into a predicate. -/
  | vcmp (core : Fin 1200) (w : BitVec 56)
  /-- VSEL (R433). A vector select by predicate. -/
  | vsel (core : Fin 1200) (w : BitVec 56)
  /-- VRED (R433). A vector reduction over registers or lanes. -/
  | vred (core : Fin 1200) (w : BitVec 56)
  /-- VBC (R433). Broadcasts a scalar or the lane index into a vector. -/
  | vbc (core : Fin 1200) (w : BitVec 56)
  /-- PLOG (R433). Predicate logic. -/
  | plog (core : Fin 1200) (w : BitVec 56)
  /-- LDS (R435). Loads 64 elements from the core store, widened to binary32. -/
  | lds (core : Fin 1200) (w : BitVec 56)
  /-- STS (R435). Converts and stores 64 lanes to the core store. -/
  | sts (core : Fin 1200) (w : BitVec 56)
  /-- FETCH_LINE (R416). The cluster sequencer fetches a stream line into the fetch buffer when room allows. -/
  | fetchLine (core : Fin 1200)
  /-- CORE_DEFERRED_EXCEPTION (R444). An engine raises a deferred exception for an issued instruction. -/
  | coreDeferredException (core : Fin 1200)
  /-- TASK_REG (R460). The command registers a task program in all eight pairs. -/
  | taskReg (c : KCmd)
  /-- TASK_UNREG (R460). The command removes a task program. -/
  | taskUnreg (c : KCmd)
  /-- TASK_RUN (R461). The SQE starts a launched or standing task. -/
  | taskRun (c : KCmd)
  /-- TASK_PLACE (R461). A waiting TASK_RUN is placed on an eligible pair once one has room, and the task starts. -/
  | taskPlace (q : Fin 1025)
  /-- TASK_STOP (R481). The command ends a standing task when it next waits. -/
  | taskStop (c : KCmd)
  /-- TASK_QUANTUM (R458). A task has run 2,048 handshakes without waiting, and the pair switches task. -/
  | taskQuantum (pair : Fin 8)
  /-- CC_NOP (R469). The all-zero control-core word. -/
  | ccNop (pair : Fin 8)
  /-- ALU (R469). A control-core register operation. -/
  | alu (pair : Fin 8) (w : BitVec 26)
  /-- ADDI (R469). Adds a sign-extended immediate. -/
  | addi (pair : Fin 8) (w : BitVec 26)
  /-- ANDI (R469). ANDs a zero-extended immediate. -/
  | andi (pair : Fin 8) (w : BitVec 26)
  /-- ORI (R469). ORs a zero-extended immediate. -/
  | ori (pair : Fin 8) (w : BitVec 26)
  /-- XORI (R469). XORs a zero-extended immediate. -/
  | xori (pair : Fin 8) (w : BitVec 26)
  /-- SHI (R469). Shifts by an immediate. -/
  | shi (pair : Fin 8) (w : BitVec 26)
  /-- MOVI (R469). Loads a sign-extended immediate. -/
  | movi (pair : Fin 8) (w : BitVec 26)
  /-- MOVK (R469). Inserts a 16-bit immediate into a register. -/
  | movk (pair : Fin 8) (w : BitVec 26)
  /-- LD (R469). Loads 8 B from the task frame. -/
  | ld (pair : Fin 8) (w : BitVec 26)
  /-- LW (R469). Loads 4 B from the task frame. -/
  | lw (pair : Fin 8) (w : BitVec 26)
  /-- ST (R469). Stores 8 B to the task frame. -/
  | st (pair : Fin 8) (w : BitVec 26)
  /-- SW (R469). Stores 4 B to the task frame. -/
  | sw (pair : Fin 8) (w : BitVec 26)
  /-- BEQ (R469). Branches when equal. -/
  | beq (pair : Fin 8) (w : BitVec 26)
  /-- BNE (R469). Branches when not equal. -/
  | bne (pair : Fin 8) (w : BitVec 26)
  /-- BLT (R469). Branches when less, signed. -/
  | blt (pair : Fin 8) (w : BitVec 26)
  /-- BGE (R469). Branches when greater or equal, signed. -/
  | bge (pair : Fin 8) (w : BitVec 26)
  /-- BLTU (R469). Branches when less, unsigned. -/
  | bltu (pair : Fin 8) (w : BitVec 26)
  /-- BGEU (R469). Branches when greater or equal, unsigned. -/
  | bgeu (pair : Fin 8) (w : BitVec 26)
  /-- JAL (R469). Jumps and links. -/
  | jal (pair : Fin 8) (w : BitVec 26)
  /-- JR (R469). Jumps to a register. -/
  | jr (pair : Fin 8) (w : BitVec 26)
  /-- TIME (R469). Reads device time into a register. -/
  | ccTime (pair : Fin 8) (w : BitVec 26)
  /-- SLEEP (R469). Waits until device time reaches a value. -/
  | sleep (pair : Fin 8) (w : BitVec 26)
  /-- SLEEP_EXPIRY (R64). The device time a SLEEP waits for is reached and the task becomes ready. -/
  | sleepExpiry (pair : Fin 8) (slot : Fin 32)
  /-- WAITQ (R470). A task waits for an entry on its bound sources. -/
  | waitq (pair : Fin 8) (w : BitVec 26)
  /-- WAITQ_DELIVERY (R466). An entry from a bound source is accepted by a waiting task, copied to its frame and a token is owed. -/
  | waitqDelivery (pair : Fin 8) (slot : Fin 32) (sel : Fin 4) (k : Nat) (raw : Line) (ok : Bool)
  /-- ISSUE (R472). Hands a work list to the cluster sequencers and returns a handle. -/
  | issue (pair : Fin 8) (w : BitVec 26)
  /-- WAITI (R474). Waits on or polls a work-list or update handle. -/
  | waiti (pair : Fin 8) (w : BitVec 26)
  /-- POST (R475). Posts the completion owed for a token. -/
  | post (pair : Fin 8) (w : BitVec 26)
  /-- DMOV (R476). Moves lines between the task frame and a DA. -/
  | dmov (pair : Fin 8) (w : BitVec 26)
  /-- UPD (R477). Submits an update batch from a task. -/
  | upd (pair : Fin 8) (w : BitVec 26)
  /-- SEQ_CREATE (R534). Creates an Active Sequence Table entry, or reports full or refusal. -/
  | seqCreate (pair : Fin 8) (w : BitVec 26)
  /-- SEQ_READ (R478). Copies an Active Sequence Table entry to the frame. -/
  | seqRead (pair : Fin 8) (w : BitVec 26)
  /-- SEQ_RETIRE (R536). Releases an Active Sequence Table entry, or marks it CANCEL while it runs. -/
  | seqRetire (pair : Fin 8) (w : BitVec 26)
  /-- FAULT (R469). Ends the task with exception TASK_FAULT. -/
  | ccFault (pair : Fin 8) (w : BitVec 26)
  /-- TASK_END (R481). Ends the task normally and completes any owed tokens with TASK_NOPOST. -/
  | taskEnd (pair : Fin 8) (w : BitVec 26)
  /-- LOCKSTEP_MISMATCH (R483). A control-core pair disagrees with itself, stops and its work is settled by another pair. -/
  | lockstepMismatch (pair : Fin 8) (memory : Bool) (lead check : W64)
  /-- PAIR_RESYNC_COMPLETE (R483). A mismatching pair finishes its reset and self-test and returns to service or is charged. -/
  | pairResyncComplete (pair : Fin 8) (pass : Bool)
  /-- WORKLIST_ARRIVAL (R473). A work-list entry reaches a cluster sequencer's queue. -/
  | worklistArrival (wl : Nat) (j : Nat)
  /-- STREAM_START (R473). A waiting entry's cores are free, and the cluster sequencer starts its streams with their arguments. -/
  | streamStart (cluster : Fin 100) (n : Nat)
  /-- STREAM_COMPLETE (R419). A core reports its stream complete to the cluster sequencer. -/
  | streamComplete (core : Fin 1200)
  /-- PART_START (R523). The command checks a partition's configuration and sets it RUNNING. -/
  | partStart (c : KCmd)
  /-- PART_STOP (R524). The command closes admission and drains or aborts a partition. -/
  | partStop (c : KCmd)
  /-- PART_STOP_TIMEOUT (R524). A stopping partition still has entries after GLOBAL_TIMEOUT, which are freed and its context torn down. -/
  | partStopTimeout (p : Fin 16)
  /-- PART_STOPPED (R521). A STOPPING partition has no entry in use and no work list in flight and becomes STOPPED. -/
  | partStopped (p : Fin 16)
  /-- PART_SNAP (R514). The command takes a consistent snapshot of a partition, halts it or resumes it. -/
  | partSnap (c : KCmd)
  /-- SNAPSHOT_GATHER_DEADLINE (R514). 3,400 ns after a snapshot began, outstanding gathers are recorded as pending. -/
  | snapshotGatherDeadline (p : Fin 16)
  /-- SNAPSHOT_COMPLETE (R514). The second barrier confirms nothing is in flight, and the snapshot is complete. -/
  | snapshotComplete (p : Fin 16)
  /-- MDL_REG (R527). The command registers a model descriptor with admission closed. -/
  | mdlReg (c : KCmd)
  /-- MDL_ADMIT (R527). The command opens or closes admission for a model. -/
  | mdlAdmit (c : KCmd)
  /-- MDL_UNREG (R527). The command unregisters a model and clears its cache tags. -/
  | mdlUnreg (c : KCmd)
  /-- STEP_FORM (R544). The step builder forms a step for the chosen model and writes its batch table. -/
  | stepForm (p : Fin 16)
  /-- STEP_WAIT_TIMEOUT (R544). The oldest waiting entry has waited WAIT_NS, and a step may be formed. -/
  | stepWaitTimeout (p : Fin 16)
  /-- SB_WORKLIST_COMPLETE (R546). A step-builder work list completes, its entries advance under R533 and the batch slot frees. -/
  | sbWorklistComplete (p : Fin 16) (n : Nat)
  /-- SWITCH_COMPLETE (R530). The slowest cluster finishes its load, CTX changes and the work list's streams start. -/
  | switchComplete (p : Fin 16)
  /-- TEARDOWN_COMPLETE (R547). Teardown steps finish, torn work lists complete and TEARDOWN clears. -/
  | teardownComplete (p : Fin 16)
  /-- SQ_DB (R563). Host software writes a new SQ tail to a doorbell. -/
  | sqDb (q : Fin 1024) (v : W32)
  /-- CQ_DB (R563). Host software writes a new CQ head to a doorbell. -/
  | cqDb (q : Fin 1024) (v : W32)
  /-- SQE_FETCH (R567). The front end fetches an SQE, checks it and starts it in order. -/
  | sqeFetch (q : Fin 1024) (raw : Line) (ok : Bool)
  /-- SQE_NOP (R566). The NOP command completes, as a queue barrier when FENCE is set. -/
  | sqeNop (c : KCmd)
  /-- CQE_HOLD_RELEASE (R573). A CQ gains room and a held CQE is written. -/
  | cqeHoldRelease (q : Fin 1024)
  /-- CQE_HOLD_TIMEOUT (R573). A CQE held for GLOBAL_TIMEOUT is dropped and CQ_LOST set. -/
  | cqeHoldTimeout (q : Fin 1024)
  /-- CQ_COALESCE_TIMEOUT (R573). COAL_US after the first unsignalled CQE, the queue's MSI-X vector is raised. -/
  | cqCoalesceTimeout (q : Fin 1024)
  /-- SQ_CFG_WRITE (R585). A write to SQ_CFG enables a queue with its checks or clears EN to drain it. -/
  | sqCfgWrite (p : AccessPath) (q : Fin 1024) (v : W32) (vfOn : Bool)
  /-- QUEUE_DRAINED (R562). A DRAINING queue has nothing in flight and no completion owed and becomes DISABLED. -/
  | queueDrained (q : Fin 1024)
  /-- TOKEN_TIMEOUT (R575). An owed completion reaches GLOBAL_TIMEOUT, the CQE is posted in hardware and the token expires. -/
  | tokenTimeout (pair : Fin 8) (n : Nat)
  /-- TASK_TIMEOUT (R575). A launched task reaches GLOBAL_TIMEOUT and is ended with TIMEOUT. -/
  | taskTimeout (pair : Fin 8) (slot : Fin 32)
  /-- TASK_RUN_HEAD_TIMEOUT (R575). A TASK_RUN held at its queue head reaches GLOBAL_TIMEOUT and is not run. -/
  | taskRunHeadTimeout (q : Fin 1024)
  /-- CORE_WAIT_TIMEOUT (R575). A core instruction makes no progress for GLOBAL_TIMEOUT and its context is torn down. -/
  | coreWaitTimeout (core : Fin 1200)
  /-- TASK_WAIT_TIMEOUT (R575). A task waiting in WAITI, ISSUE, UPD or POST reaches GLOBAL_TIMEOUT and is ended. -/
  | taskWaitTimeout (pair : Fin 8) (slot : Fin 32)
  /-- GLOBAL_TIMEOUT_HI_WRITE (R794). A write to GLOBAL_TIMEOUT_HI applies the held LO and HI as the new timeout. -/
  | globalTimeoutHiWrite (p : AccessPath) (v : W32)
  /-- HOST_LINK_UP (R592). The host link trains and CXL protocols become active or CXL.io runs alone. -/
  | hostLinkUp (speed : BitVec 2) (width : BitVec 5) (cxl : Bool)
  /-- HOST_LINK_DOWN (R620). The host link goes down, the host line cache is emptied and reservoir reads cannot arrive. -/
  | hostLinkDown
  /-- PF_FLR (R620). A PF function-level reset is handled as a device reset request. -/
  | pfFlr
  /-- VF_FLR (R584). A VF function-level reset disables the VF's queues and spout groups. -/
  | vfFlr (vf : Fin 16)
  /-- HDM_DECODER_COMMIT (R598). Host software commits an HDM decoder, which succeeds or fails with Commit Error. -/
  | hdmDecoderCommit (dec : Fin 2) (commit : Bool) (size : Nat) (oneWay : Bool)
  /-- APERTURE_ACCESS (R599). A host access to the aperture reaches basin DA under the page's bias or is rejected. -/
  | apertureAccess (off : BitVec 32) (write : Bool) (data : List Byte) (poison : Bool)
  /-- WINDOW_HOST_ACCESS (R604). A host request to the line-coherent window is served and tracked in the snoop filter. -/
  | windowHostAccess (line : BitVec 24) (write : Option Line) (poison : Bool) (keep : Option SnoopState)
  /-- SPOUT_HEADER_WRITE (R612). A host header write reaches a slot, making it PENDING or setting LATCH. -/
  | spoutHeaderWrite (slot : Fin 4096) (line : Line) (vf : Bool)
  /-- HOST_SNOOP (R608). A host snoop to a host line cache line is answered and the line's state changes. -/
  | hostSnoop (hpa : BitVec 46) (kind : SnoopKind)
  /-- CXL_CACHE_GO (R606). A CXL.cache request receives its GO or an error response. -/
  | cxlCacheGo (n : Nat) (resp : GoKind)
  /-- GO_WRITEPULL (R607). The host's GO_WritePull for an eviction arrives, and data or Bogus data is sent. -/
  | goWritepull (hpa : BitVec 46) (drop : Bool)
  /-- BISNP_RESPONSE (R604). The host answers a back-invalidate snoop, and the waiting device access proceeds. -/
  | bisnpResponse (n : Nat) (data : Option Line)
  /-- BICONFLICT (R616). The host sends BIConflict for a line under back-invalidate, answered after the device access. -/
  | biconflict (line : BitVec 24)
  /-- HLC_WRITEBACK_TIMER (R605). A dirty host line cache line reaches WB_US and is evicted with DirtyEvict. -/
  | hlcWritebackTimer (hpa : BitVec 46)
  /-- HC_HLC_FLUSH (R626). A write of FLUSH evicts every dirty host line cache line. -/
  | hcHlcFlush (p : AccessPath) (v : W32)
  /-- HC_APT_WRITE (R600). A write to HC_APT enables, disables or moves the aperture with its checks. -/
  | hcAptWrite (p : AccessPath) (v : W32)
  /-- HC_BFLIP_GO (R602). A write of GO starts a bias flip of an aperture page. -/
  | hcBflipGo (p : AccessPath) (v : W32)
  /-- BIAS_FLIP_COMPLETE (R602). A flip to device-owned receives every GO for its CLFlushes and clears the bias bit. -/
  | biasFlipComplete
  /-- HC_LCW_WRITE (R603). A write to HC_LCW enables the window with its checks, or clears it where allowed. -/
  | hcLcwWrite (p : AccessPath) (v : W32)
  /-- SP_GRP_A_WRITE (R609). A write to SP_GRP_A enables a spout group with its checks, or clears it. -/
  | spGrpAWrite (p : AccessPath) (g : Fin 64) (v : W32)
  /-- IDE_INTEGRITY_FAILURE (R619). An IDE check fails, the streams go Insecure and the link is handled as down. -/
  | ideIntegrityFailure
  /-- IDE_KEY_REFRESH (R619). A key refresh through IDE_KM is accepted without loss of traffic. -/
  | ideKeyRefresh
  /-- PAIR_ACTIVE (R638). PL_CMD makes the part ACTIVE after comparing fingerprints with the peer. -/
  | pairActive (p : AccessPath)
  /-- PAIR_STANDBY (R638). PL_CMD makes the part STANDBY-INCOMPLETE after comparing fingerprints. -/
  | pairStandby (p : AccessPath)
  /-- COPY (R646). PL_CMD starts the initial full copy to the standby. -/
  | copy (p : AccessPath) (peer : List Nat)
  /-- SOLO (R638). PL_CMD makes the part leave the pair and become SOLO. -/
  | solo (p : AccessPath)
  /-- PROMOTE (R647). PL_CMD promotes a standby to SOLO at its last committed epoch. -/
  | promote (p : AccessPath)
  /-- SWAP (R650). PL_CMD exchanges the roles of active and standby at an epoch close. -/
  | swap (p : AccessPath)
  /-- RETRAIN (R638). PL_CMD retrains the link on all 16 lanes with no loss. -/
  | retrain (p : AccessPath) (lanes : W16)
  /-- QUEFY_LINK_UP (R637). The Quefy link finishes training and the parts exchange roles. -/
  | quefyLinkUp (lanes : W16) (peer : Role) (peerSide : Bool) (peerEpoch : Nat) (peerHolds : Bool)
  /-- QUEFY_LANE_FAILURE (R633). A lane fails, both ends retrain on the rest and replay unacknowledged flits. -/
  | quefyLaneFailure (lane : Fin 16) (retrained peerDown : Bool)
  /-- FLIT_CRC_FAILURE (R632). A flit fails its CRC and is replayed from the retry buffer. -/
  | flitCrcFailure
  /-- QUEFY_LINK_LOSS (R633). No flit arrives for LOSS_US or a retrain fails, and the link is down and the parts split. -/
  | quefyLinkLoss (silence peerDown : Bool)
  /-- QF_PRSNT_CHANGE (R648). The pair cable is seated or removed, and removal splits the pair. -/
  | qfPrsntChange (seated : Bool)
  /-- PEER_DOWN_SEEN (R635). QF_PDN_IN has been low for 10 µs with the cable present, and the part sees its peer down. -/
  | peerDownSeen
  /-- MIRROR_ITEM (R644). The standby receives a mirror stream item into its receive buffer. -/
  | mirrorItem (n : Nat) (item : MirrorItem)
  /-- COMMIT_RECEIVED (R644). An epoch is fully received, applied in order and acknowledged by the standby. -/
  | commitReceived (c : Commit)
  /-- ACK_RECEIVED (R643). The active receives ACK for an epoch and frees its transmit buffer. -/
  | ackReceived (n : Nat)
  /-- COMPARE_RESULT_RECEIVED (R645). The active receives the comparison result and sets PL_VER or starts disagreement handling. -/
  | compareResultReceived (epoch : Nat) (agree : Bool) (bad unver : List Nat)
  /-- VERIFY_SWEEP_COMPLETE (R672). A verify sweep finishes and the part's consistency verdict is sent to the peer. -/
  | verifySweepComplete
  /-- VERDICT_EXCHANGE (R673). The peers' verdicts are both known and expulsion follows as the verdicts require. -/
  | verdictExchange (consistent : Bool)
  /-- EXPEL (R677). INT_CMD expels the part, stopping admission and partitions and writing the taint record. -/
  | expel (p : AccessPath)
  /-- ROLLBACK (R679). INT_CMD returns tables to an earlier epoch by undoing journal records. -/
  | rollback (p : AccessPath)
  /-- INT_VER_WRITE (R674). Host software records a verified epoch, accepted only under R674. -/
  | intVerWrite (p : AccessPath) (v : W64)
  /-- PATROL_TEST (R669). A periodic known-answer test runs on a unit and passes or makes it SUSPECT or RETIRED. -/
  | patrolTest (kind : Fin 5) (u : Nat) (pass : Bool)
  /-- SUSPECT_CLEAR (R668). A SUSPECT unit passes 72 h with no charged fault and returns to IN SERVICE. -/
  | suspectClear (kind : Fin 5) (u : Nat)
  /-- HUB_INJ_WRITE (R805). A write to HUB_INJ arms or disarms an error injection. -/
  | hubInjWrite (p : AccessPath) (v : W32)
  /-- HUB_IRQ_WRITE (R795). A write to HUB_IRQ_STS, EN or VEC may send the PF vector when enabled bits remain set. -/
  | hubIrqWrite (p : AccessPath) (reg : Fin 3) (v : W32)
  /-- CC_PAIR_CFG_WRITE (R457). A write to CC_PAIR_CFG sets a pair's partitions or is ignored. -/
  | ccPairCfgWrite (p : AccessPath) (pair : Fin 8) (v : W32)
  /-- PART_BAR_WRITE (R515). A write to PART_BAR sets a barrier's cluster set or is ignored. -/
  | partBarWrite (p : AccessPath) (part : Fin 16) (bar : Fin 16) (word : Fin 4) (v : W32)
  /-- CSR_WRITE (R783). A write to any register without a row of its own takes effect under its access code and field rules. -/
  | csrWrite (p : AccessPath) (off : BitVec 26) (size : Fin 4) (v : W64) (vfOn : Bool)
  /-- GET_VERSION (R725). SPDM GET_VERSION request. -/
  | getVersion (doe : Bool) (req : List Byte)
  /-- GET_CAPABILITIES (R725). SPDM GET_CAPABILITIES request. -/
  | getCapabilities (doe : Bool) (req : List Byte)
  /-- NEGOTIATE_ALGORITHMS (R725). SPDM NEGOTIATE_ALGORITHMS request. -/
  | negotiateAlgorithms (doe : Bool) (req : List Byte)
  /-- GET_DIGESTS (R725). SPDM GET_DIGESTS request. -/
  | getDigests (doe : Bool) (req : List Byte)
  /-- GET_CERTIFICATE (R725). SPDM GET_CERTIFICATE request for slot 0. -/
  | getCertificate (doe : Bool) (slot : Byte) (req : List Byte)
  /-- CHALLENGE (R725). SPDM CHALLENGE request. -/
  | challenge (doe : Bool) (slot : Byte) (req : List Byte)
  /-- GET_MEASUREMENTS (R726). SPDM GET_MEASUREMENTS returns signed measurement blocks. -/
  | getMeasurements (doe : Bool) (req : List Byte)
  /-- KEY_EXCHANGE (R725). SPDM KEY_EXCHANGE opens a session, or fails Busy beyond four. -/
  | keyExchange (doe : Bool) (session : W32) (req : List Byte)
  /-- FINISH (R725). SPDM FINISH completes session set-up. -/
  | finish (session : W32) (verified : Bool) (req : List Byte)
  /-- END_SESSION (R725). SPDM END_SESSION closes a session. -/
  | endSession (session : W32) (req : List Byte)
  /-- KEY_UPDATE (R725). SPDM KEY_UPDATE refreshes session keys. -/
  | keyUpdate (session : W32) (req : List Byte)
  /-- HEARTBEAT (R725). SPDM HEARTBEAT keeps a session alive. -/
  | heartbeat (session : W32) (req : List Byte)
  /-- SPDM_UNSUPPORTED (R725). Any other SPDM request is answered as unsupported. -/
  | spdmUnsupported (doe : Bool)
  /-- LC_PROVISION (R729). The owner command writes root hash, SVN and debug policy and resets into OPEN. -/
  | lcProvision (session : Option W32) (payload : List Byte)
  /-- LC_SEAL (R729). The owner command moves OPEN to SEALED through a reset. -/
  | lcSeal (session : Option W32) (payload : List Byte)
  /-- LC_RETIRE (R730). The owner command retires the part, erases the fleet key and blows the retirement fuse. -/
  | lcRetire (session : Option W32) (payload : List Byte)
  /-- DBG_REQ (R733). The owner command grants a debug level where no token is needed. -/
  | dbgReq (session : Option W32) (payload : List Byte)
  /-- DBG_AUTH (R732). The owner command grants a debug level from a checked token. -/
  | dbgAuth (session : Option W32) (payload : List Byte)
  /-- DBG_REVOKE (R733). The owner command returns the debug level to NONE. -/
  | dbgRevoke (session : Option W32) (payload : List Byte)
  /-- FK_SET (R731). The owner command installs the fleet key. -/
  | fkSet (session : Option W32) (payload : List Byte)
  /-- FK_CLEAR (R731). The owner command clears the fleet key. -/
  | fkClear (session : Option W32) (payload : List Byte)
  /-- NONCE_GET (R727). The owner command returns the start-up nonce. -/
  | nonceGet (payload : List Byte)
  /-- SEC_AUTH (R733). A debug token delivered by the JTAG instruction SEC_AUTH. -/
  | secAuth (token : List Byte)
  /-- SEC_DBG_REVOKE (R745). A write of 1 to SEC_DBG.REVOKE returns the debug level to NONE. -/
  | secDbgRevoke (p : AccessPath) (v : W32)
  /-- DEBUG_HALT (R734). Under HALT a debugger halts or resumes a partition, pair or the steward. -/
  | debugHalt (block : Fin 49) (halt : Bool)
  /-- DEBUG_STEP (R734). Under HALT a debugger single-steps a bundle of a halted core. -/
  | debugStep (core : Fin 1200)
  /-- DEBUG_DA_ACCESS (R736). Under HALT a debugger reads or writes a DA, and a write breaks every digest. -/
  | debugDaAccess (da : BitVec 52) (write : Option (List Byte)) (n : Fin 257)
  /-- LL_CAUSE (R757). Lifeline command returning reset cause and start-up status. -/
  | llCause
  /-- LL_COUNTERS (R757). Lifeline command returning the reset counters. -/
  | llCounters
  /-- LL_FR (R757). Lifeline command returning one of the last 16 fault records. -/
  | llFr (n : Byte)
  /-- LL_RESET (R757). Lifeline command that begins a device reset. -/
  | llReset (arm : Byte)
  /-- LL_POWER_OFF (R756). Lifeline command that resets the part and turns the main rails off. -/
  | llPowerOff (arm : Byte)
  /-- LL_POWER_ON (R756). Lifeline command that enables the main rails from D3cold. -/
  | llPowerOn
  /-- LL_STATUS (R757). Lifeline command returning steward, service, LED, power and thermal status. -/
  | llStatus
  /-- LL_IDENTIFY (R757). Lifeline command setting or clearing LOCATE. -/
  | llIdentify (on : Byte)
  /-- OPT_READ (R762). Service command returning bytes of the option copy in use. -/
  | optRead (off len : W16)
  /-- OPT_STAGE (R762). Service command writing bytes into the option staging image. -/
  | optStage (off : W16) (data : List Byte)
  /-- OPT_COMMIT (R762). Service command writing the staging image to the unused option copy. -/
  | optCommit
  /-- OPT_DISCARD (R762). Service command dropping the staging image. -/
  | optDiscard
  /-- REPORT (R763). Service command returning the health report. -/
  | report
  /-- SET_ENDPOINT_ID (R759). MCTP control message assigning the part's EID. -/
  | setEndpointId (eid : Byte)
  /-- PLDM_BASE_COMMAND (R760). A PLDM Base request. -/
  | pldmBaseCommand (code : Byte) (req : List Byte)
  /-- GET_SENSOR_READING (R761). A PLDM request for a numeric sensor. -/
  | getSensorReading (id : W16)
  /-- GET_STATE_SENSOR_READINGS (R761). A PLDM request for state sensors. -/
  | getStateSensorReadings (id : W16)
  /-- SET_EVENT_RECEIVER (R760). A PLDM request setting the event receiver. -/
  | setEventReceiver (eid : Byte)
  /-- PLDM_FRU_READ (R760). A PLDM FRU Data read. -/
  | pldmFruRead
  /-- PLDM_FIRMWARE_UPDATE (R760). A PLDM firmware update writes and checks image B, then A. -/
  | pldmFirmwareUpdate (image : List Byte) (cut : Option Nat)
  /-- TELEMETRY_SAMPLE (R751). Every PERIOD_MS the steward samples sensors and sends PLDM events. -/
  | telemetrySample (temps : List W16) (vdd : W16)
  /-- STEWARD_BUSY_WINDOW (R752). Each 100 ms window ends and the shed level rises or falls. -/
  | stewardBusyWindow (busy : BitVec 7)
  /-- STEWARD_WATCHDOG (R753). The steward misses three check-ins or mismatches and is restarted or halted. -/
  | stewardWatchdog
  /-- HUB_STW_KICK (R770). A write of KICK restarts a HALTED steward once. -/
  | hubStwKick (p : AccessPath) (v : W32)
  /-- ATTN_SHORT_PRESS (R764). A short press of ATTN_BTN starts a drain or is refused. -/
  | attnShortPress
  /-- ATTN_HOLD (R766). A 4 s hold of ATTN_BTN cancels a drain. -/
  | attnHold (released : Bool)
  /-- DRAIN_PARTITIONS_STOPPED (R765). Every partition is stopped and admission closed, and the drain completes to DRAINED. -/
  | drainPartitionsStopped
  /-- DRAIN_ABANDON_TIMEOUT (R765). Partitions do not stop within 60 s and the drain is abandoned. -/
  | drainAbandonTimeout
  /-- HOST_DRAINED_WRITE (R771). A write of HUB_SVC_CTL.DRAINED under HOSTDRAIN makes the drain DRAINED. -/
  | hostDrainedWrite (p : AccessPath) (v : W32)
  /-- PAIR_PEER_WINDOW_EXPIRY (R638). PAIR_ACTIVE or PAIR_STANDBY fails with RES PEER when the peer does not issue the other command within 100 ms. -/
  | pairPeerWindowExpiry
  /-- PEER_PAIR_COMMAND_RECEIVED (R638). The peer's pairing command arrives over the Quefy link and completes the waiting PAIR_ACTIVE or PAIR_STANDBY with the fingerprint comparison. -/
  | peerPairCommandReceived (standby : Bool) (fp : List Nat)
  /-- TABLE_STORE_READY (R216). The zeroing of the table store started by setting HUB_TDA_LO.EN finishes and RDY becomes 1, so table commands are accepted. -/
  | tableStoreReady
  /-- ENTRY_BECOMES_URGENT (R544). Device time reaches DEADLINE less STEP_NS of a waiting entry, which becomes urgent and may trigger a step and a model change. -/
  | entryBecomesUrgent (p : Fin 16)
  /-- BUS_MASTER_ENABLE_WRITE (R617). A function's Bus Master Enable is set or cleared, stopping or resuming its queue fetches, held CQEs, pending MSI-X and, for the PF, CXL.cache requests. -/
  | busMasterEnableWrite (fn : Fin 17) (on : Bool)
  /-- VF_POWER_STATE_WRITE (R740). A VF's PMCSR PowerState is written, and in D3hot its BARs answer Unsupported Request and its MSI-X messages stay pending. -/
  | vfPowerStateWrite (vf : Fin 16) (d3hot : Bool)
  /-- IDE_KM_KEY_PROGRAM (R619). IDE_KM messages over DOE program keys and make the Link IDE or CXL.cachemem IDE stream secure, ending any IDE hold. -/
  | ideKmKeyProgram (io cm : Bool)
  /-- CXL_IO_COMPLETION_TIMEOUT (R583). A CXL.io read such as an SQE fetch or host-load read gets no completion within the completion timeout and fails. -/
  | cxlIoCompletionTimeout (q : Fin 1025)
  /-- FAR_ROW_REQUEST (R286). A far row request reaches host coupling or the aquifer engine, which probes the log index and issues or joins a reservoir read or NVMe Read. -/
  | farRowRequest (n : Nat)
  /-- PAIR_LOAD_REQUEST (R703). A READY part is asked by its booting peer for its boot image and sends its own accepted image over the Quefy link. -/
  | pairLoadRequest
  /-- DYNAMIC_ADDRESS_ASSIGNMENT (R758). An I3C controller assigns the part a dynamic address and the sideband leaves SMBus mode for I3C mode. -/
  | dynamicAddressAssignment (addr : BitVec 7)
  /-- SIDEBAND_BUS_RESET (R758). An I3C bus reset returns the sideband to SMBus mode at static address 0x4A. -/
  | sidebandBusReset
  /-- SMBUS_ARP (R758). An SMBus ARP command from the bus owner is answered with the part's UDID or assigns its address. -/
  | smbusArp (assign : Option (BitVec 7))
  /-- JTAG_TEST_INSTRUCTION (R708). In test start-up a JTAG instruction runs built-in self-test, HBM training or boundary scan. -/
  | jtagTestInstruction
  /-- AQ_DRIVE_REMOVE_SAFE (R300). A drive in SAFE is removed, presence drops, PDC is set and the slot becomes EMPTY. -/
  | aqDriveRemoveSafe (slot : Fin 8)
  /-- ATTN_BLIP_EXPIRY (R765). The 2 s BLIP of a refused press, or the 10 s BLIP of an abandoned drain, ends and LED_ATTN returns to its next condition. -/
  | attnBlipExpiry
  /-- TIME_BASE_PLL_LOCK (R702). At start-up step 3 the time base PLL locks and the hub main domain is released. -/
  | timeBasePllLock
  /-- CHECK_FAILURE (R663). A core-sequencer, cluster-sequencer, dispatcher, residue or update-unit mismatch, or an uncorrectable SRAM, cache or link error, is detected and recovered on its rung. -/
  | checkFailure (c : Check)
deriving DecidableEq, Repr

end Sys2Proof
end

