-- ==== Sys2Proof/Config.lean ====
section
/-! DEFINITION. What the model takes as fixed but unknown: the values the spec leaves open, as constants without a
body, so that no proof can see which value one has. -/
namespace Sys2Proof

/-- The n-th free value, of a width: every open value of a run is one of these, drawn with the model's own counter
(`State.freeCtr`). Assumption log entry 1. -/
opaque Config.freeValue (w : Nat) (n : Nat) : BitVec w

/-- The word that names the n-th handle of a task (R471). The spec gives a handle no value. -/
opaque Config.handleWord (n : Nat) : BitVec 64

/-- The STATE byte of an Active Sequence Table entry (R532) for the n-th state of R533, which the spec does not encode. -/
opaque Config.astState (n : Nat) : BitVec 8

/-- ECDSA P-384 verification with SHA-384: the public key X and Y, the signature r and s, and the message (R705, R732).
The model computes no elliptic curve. -/
opaque Config.ecdsaVerify (key sig message : List Byte) : Bool

/-- The part's own identity, fixed at manufacture (R723, R724, R726): the DeviceID public key, and the SHA-384 of hub ROM. -/
opaque Config.deviceKey : List Byte
opaque Config.romDigest : List Byte

/-- An SPDM answer's bytes, a certificate's and a signature's among them, for a request code, a request and a measurement
of the part (R725). The message formats are the DMTF's. -/
opaque Config.spdmAnswer (code : Nat) (request state : List Byte) : List Byte

end Sys2Proof
end

