-- ==== Sys2Proof/Machine/State.lean ====
section
/-! DEFINITION. The state of the block as plain data, one record per chapter of the spec, every field with its
reset value; the reasons a step can stop; and `State.reset`. Access goes through Machine/Ops.lean. -/
namespace Sys2Proof.Machine
open Sys2Proof

/-- Why a step stops with a fault. No command of the opcode table raises one: every event the spec reports is a
change of state (a fault record, a status, an error bit). SAFE. -/
inductive Fault where
  /-- Reserved for a state that no rule covers; no meaning raises it. Safe. -/
  | unspecified (what : String)
deriving DecidableEq, Repr

/-- Why a command has no meaning here. -/
inductive Refusal where
  /-- An arm of `exec` whose meaning is not written yet. Safe: it claims nothing. -/
  | notModelled (mnemonic : String)
deriving DecidableEq, Repr

/-- A message that leaves the part: what an observer outside sees, in the order it leaves. -/
inductive OutMsg where
  /-- A write to host memory at a bus address, for a function (CQE, fault record mirror). R573, R582. -/
  | hostWrite (fn : Nat) (addr : Nat) (data : List Byte)
  /-- A CXL.io read of host memory, for a function: a bus address and a length. R703. -/
  | hostRead (fn : Nat) (addr : Nat) (n : Nat)
  /-- An MSI-X message of a function. R573, R582, R795. -/
  | msix (fn : Nat) (vec : Nat)
  /-- A CXL.cache request or data message to the host, by its name, for a host physical address. R606–R608. -/
  | cxlCache (what : String) (hpa : Nat) (data : List Byte)
  /-- A CXL.mem back-invalidate message, by its name, for a window or aperture line. R604, R616. -/
  | cxlMem (what : String) (da : Nat) (data : List Byte)
  /-- A completion of a host access: its data bytes, and whether it is poisoned or rejected. -/
  | hostReply (what : String) (data : List Byte)
  /-- An NVMe command to an aquifer slot. -/
  | nvme (slot : Nat) (what : String) (lba : Nat) (count : Nat)
  /-- A message to the peer over the Quefy link. -/
  | quefy (what : String) (arg : Nat) (data : List Byte)
  /-- A response on the sideband, lifeline, SPDM or service interface: a name, a status, and bytes. -/
  | sideband (what : String) (status : Nat) (data : List Byte)
  /-- A PLDM event message. R761. -/
  | event (what : String) (arg : Nat)
deriving DecidableEq, Repr

/-! ### 02 Time and pace -/

/-- The device time base (R54–R68). -/
structure TimeBase where
  /-- Device time in ns, of which software sees the low 64 bits (R54). Starts at 0 (R56). -/
  now : Nat := 0
  holdover : Bool := false
  refLost : Bool := false
  pairLock : Bool := false
  stepRej : Bool := false
  /-- HUB_TIME_STS.OFFSET, signed (R68). -/
  offset : W16 := 0
  /-- The reference clock is present at the pin, and the PLL is locked (R58, R702 step 3). -/
  refPresent : Bool := true
  pllLocked : Bool := false
  /-- A pending pair step: its ns, and the step time T (R63). -/
  stepPend : Option (Nat × Nat) := none
  /-- Time following on a standby: started, successive messages within 50 ns, the last message's time, and since
  when the offset has exceeded 50 ns (R61, R62). -/
  following : Bool := false
  goodMsgs : Nat := 0
  lastMsg : Nat := 0
  badSince : Option Nat := none
  /-- When the last time message was sent (R61). -/
  lastSent : Nat := 0
  /-- Slew applied on the standby, in ppm, signed (R61). -/
  slewPpm : Int := 0
  /-- Nanoseconds counted toward the next slewed one. -/
  slewAcc : Nat := 0
  /-- On an active, whether the standby holds PAIR_LOCK, as its messages say (R63). -/
  peerLock : Bool := false
deriving DecidableEq, Repr

/-- The pace registers of one die (R76, R77). -/
structure Pace where
  cur : W16 := 0
  min : W16 := 0xFFFF
  norm : W16 := 0
  eolMonths : W16 := 0xFFFF
  /-- Sticky conditions of R75 behind HUB_AGE_SUM (R803). -/
  warn : Bool := false
  floor : Bool := false
deriving DecidableEq, Repr

/-! ### 03 The anchored accumulator -/

/-- An accumulator record (R90). -/
structure Acc where
  sec0 : Int := 0
  sec1 : Int := 0
  sec2 : Int := 0
  lsb : Int := 0
  empty : Bool := true
  nz0 : Bool := false
  nz1 : Bool := false
  nz2 : Bool := false
  stk : Bool := false
  nan : Bool := false
  pinf : Bool := false
  ninf : Bool := false
  inv : Bool := false
  aov : Bool := false
  mode : Nat := 0
  count : Nat := 0
deriving DecidableEq, Repr

/-! ### 04 HBM and regions -/

/-- One region: HUB_REGION_A, HUB_REGION_B and HUB_REGION_C (R146, R147, R180). -/
structure Region where
  en : Bool := false
  placed : Bool := false
  gran16 : Bool := false
  comp : Bool := false
  stack : BitVec 4 := 0
  firstBlock : BitVec 8 := 0
  nblocksM1 : BitVec 8 := 0
  err : Bool := false
  base : BitVec 12 := 0
  defCbk : BitVec 12 := 0
  defV : Bool := false
deriving DecidableEq, Repr

/-- The states of a channel, encoded in MC_CH_STS.STATE as R150 gives. -/
inductive ChState where
  | healthy | degraded | sweep | retiring | retired | failed
deriving DecidableEq, Repr

/-- A lane of a channel: pseudo-channel and lane number 0 to 35 (R115). -/
structure Lane where
  pc : Nat
  lane : Nat
deriving DecidableEq, Repr

/-- A read waiting in a pseudo-channel's read queue (R124): its first byte address, its sectors, whether it is the
reread of R129, and the flat sectors written since the scheduler accepted it. -/
structure HbmRead where
  pc : Nat
  addr : Nat
  sectors : Nat
  demand : Bool
  reread : Bool := false
  written : List Nat := []
deriving DecidableEq, Repr

/-- One channel of a stack (R124, R132–R142, R150, R151). -/
structure Channel where
  st : ChState := .healthy
  spares : Nat := 2
  la : Option Lane := none
  lb : Option Lane := none
  calPend : Bool := false
  corr : BitVec 12 := 0
  uncorr : BitVec 8 := 0
  ode : BitVec 12 := 0
  /-- Per pseudo-channel, the lanes corrected in each of the last 64 codewords, latest first (R132). -/
  hist0 : List (List Nat) := []
  hist1 : List (List Nat) := []
  /-- Lanes whose spares are in place and whose sectors are still being swept (R136). -/
  sweeping : List Lane := []
  reads : List HbmRead := []
  /-- Granules in the write buffers, per pseudo-channel, oldest first, and drain mode (R124, R125). -/
  wbuf0 : List Nat := []
  wbuf1 : List Nat := []
  drain0 : Bool := false
  drain1 : Bool := false
  /-- Refreshes and drift-tracking slots taken (R142). -/
  refreshes : Nat := 0
  lastDrift0 : Nat := 0
  lastDrift1 : Nat := 0
  /-- Patrol scrub position: pseudo-channel byte address of the next sector, pc 1 after pc 0 (R141). -/
  scrubPos : Nat := 0
deriving DecidableEq, Repr

/-- The per-stack memory controller registers (R148, R149). -/
structure McRegs where
  scrubHours : BitVec 8 := 0x18
  calPeriod : BitVec 8 := 0x64
  resvBlocks : BitVec 4 := 0x9
  evacRate : BitVec 4 := 0x8
  werr : Bool := false
  /-- Channels retired at training, each of which takes nine further blocks (R140). -/
  trainRetired : Nat := 0
deriving DecidableEq, Repr

/-- All memory that holds bytes at an address, and what protects it. -/
structure Memory where
  /-- Bytes at flat places: HBM cells at ((stack × 32 + channel) × 2 + pc) × 2^30 + byte address (below
  0xC0_0000_0000); cisterns and core stores at their device addresses; host memory at 2^48 + HPA. An unlisted
  place reads 0 (R118). -/
  cells : List Host.Cell := []
  /-- Poisoned sectors and lines, by flat place ÷ 64, rising (R130, R131). -/
  poison : List Nat := []
  /-- Redirected 4 MiB blocks: (pseudo-channel index × 256 + block) to the same numbering (R137, R140). -/
  redirect : SMap Nat := []
deriving DecidableEq, Repr

/-! ### 05 Exponent coding -/

/-- A codebook record (R160): its class, VALID, and the code length of each symbol. -/
structure Codebook where
  cls : BitVec 4 := 0
  valid : Bool := false
  lens : List Nat := []
deriving DecidableEq, Repr

/-- The exponent coder of one stack (R160, R164, R181–R185). -/
structure CxStack where
  rawOnBusy : Bool := false
  decode : BitVec 12 := 0
  stale : BitVec 12 := 0
  tagpois : BitVec 8 := 0
  rawBig : W16 := 0
  rawBusy : W16 := 0
  misses : W32 := 0
  /-- Use counts (R164). -/
  use : SMap W32 := []
  /-- Tag sectors in the tag cache, latest used first, by flat place ÷ 64 (R156). -/
  tagCache : List Nat := []
deriving DecidableEq, Repr

/-! ### 06 Embedding tables -/

/-- The table store registers (R216, R217). -/
structure Tda where
  en : Bool := false
  err : Bool := false
  rdy : Bool := false
  baseLo : BitVec 8 := 0
  baseHi : BitVec 20 := 0
  size : BitVec 12 := 0
  /-- Tables that are not FREE, by index, rising: the device's own list of what the store holds. -/
  live : List Nat := []
deriving DecidableEq, Repr

/-- A TBL_RETIRE whose table drains (R213): the queue, the command, its acceptance and start times. -/
structure Drain where
  q : Nat
  cid : W16
  tAcc : Nat
  due : Nat
deriving DecidableEq, Repr

/-! ### 07 Basin directory -/

/-- A bucket's place (R220, R257). -/
structure Bucket where
  stack : BitVec 4 := 0
  frame : BitVec 10 := 0
  mig : Bool := false
  oldStack : BitVec 4 := 0
  oldFrame : BitVec 10 := 0
  v : Bool := false
  /-- HUB_BKT_LOAD's units of 1,024 rows, and the rows beyond them (R234). -/
  load : W32 := 0
  loadRem : Nat := 0
deriving DecidableEq, Repr

/-- A directory entry (R222). -/
structure DirEntry where
  row : Nat
  table : Nat
  fountain : Bool := false
  filling : Bool := false
  refill : Bool := false
  pinned : Bool := false
  slot : Nat := 0
  tries : Nat := 0
deriving DecidableEq, Repr

/-- The basin registers of one stack (R259–R264). -/
structure BdStack where
  cfgErr : Bool := false
  nframes : BitVec 10 := 0
  heatMib : BitVec 4 := 4
  dirBase : BitVec 24 := 0
  ftnBase : BitVec 24 := 0
  ftnSize : BitVec 8 := 1
  load : W32 := 0
  loadRem : Nat := 0
  setPois : BitVec 12 := 0
  full : BitVec 12 := 0
  abandon : BitVec 8 := 0
  rload : SMap W32 := []
  rloadRem : SMap Nat := []
  /-- Directory entries by place: set number × 4 + way, sets counted from the start of the area ÷ 64. -/
  dir : SMap DirEntry := []
  /-- Displacements made (R224). -/
  displaced : Nat := 0
  /-- Recent-miss filter: bit positions set (R288). -/
  recent : List Nat := []
  /-- Promotion tokens in millionths, and the time they were counted to (R288). -/
  prmTokens : Nat := 0
  prmAt : Nat := 0
  /-- BD_PRM_RING and BD_PRM_IDX (R312, R313). -/
  prmBase : BitVec 24 := 0
  prmSize : BitVec 8 := 1
  prmPi : W16 := 0
  prmCi : W16 := 0
  /-- Slots that promotions gave back to the pool (R289). -/
  prmBack : List Nat := []
deriving DecidableEq, Repr

/-- A heat sketch (R230): its stack, and its nonzero counters by row × 65,536 + column. -/
structure Sketch where
  stack : Nat
  ctr : SMap W16 := []
deriving DecidableEq, Repr

/-- A fill in progress (R238): a BSN_FILL entry (with its command) or a promotion (R289). -/
structure Fill where
  table : Nat
  row : Nat
  stack : Nat
  /-- The command it belongs to; none for a promotion, whose pool slot is then `slot`. -/
  cmd : Option Nat := none
  slot : Nat := 0
deriving DecidableEq, Repr

/-- A planner command that waits for its entries, its reads or a marker round (R238, R240, R244). -/
structure PlanCmd where
  q : Nat
  cid : W16
  resultDa : Nat
  done : Nat := 0
  skipped : Nat := 0
  bad : Nat := 0
  full : Nat := 0
  abandoned : Nat := 0
  /-- Entries not settled. -/
  left : Nat := 0
  /-- Rows that FTN_DROP will remove once the markers of step 2 have come. -/
  rows : List (Nat × Nat) := []
  /-- Slots of dropped copies whose reads must complete first (R240). -/
  slots : List Nat := []
deriving DecidableEq, Repr

/-- A BKT_MOVE (R247). -/
structure Move where
  bucket : Nat
  src : Nat
  dst : Nat
  frame : Nat
  slots : List Nat
  q : Nat
  cid : W16
  /-- 0 queued behind another move of the same source, 1 copying, 3 waiting for markers. -/
  step : Nat := 0
  abandoned : Nat := 0
deriving DecidableEq, Repr

/-- A BSN_FILL or BSN_DROP entry of a moving bucket, held until the move ends (R249). -/
structure HeldEntry where
  plan : Nat
  fill : Bool
  table : Nat
  row : Nat
  slot : Nat
deriving DecidableEq, Repr

/-- The basin directory's hub state (R253–R258). -/
structure Basin where
  en : Bool := false
  err : Bool := false
  planner : Bool := false
  heatShift : BitVec 3 := 6
  decayMs : BitVec 10 := 0x3E8
  thresh : W16 := 0x0200
  ringBase : BitVec 24 := 0
  ringSize : BitVec 8 := 1
  ringWp : W32 := 0
  lastDecay : Nat := 0
  buckets : SMap Bucket := []
  st : SMap BdStack := []
  /-- Fountain filter counts by bit position, and the sticky ones (R226). -/
  ftnCnt : SMap Nat := []
  sticky : List Nat := []
  /-- Live fountain rows (R242), as (table, row), the latest first. -/
  ftn : List (Nat × Nat) := []
  sketches : SMap Sketch := []
  /-- IDs counted toward the next sample, per dispatcher (R231). -/
  sampleCnt : SMap Nat := []
  /-- Sampled keys on their way to their sketch's stack (R231). -/
  samples : List (Nat × Nat) := []
  fills : List Fill := []
  plans : SMap PlanCmd := []
  nextPlan : Nat := 0
  moves : List Move := []
  held : List HeldEntry := []
  /-- Pinned-zone allocations: offset, length and table (R246). -/
  pins : List (Nat × Nat × Nat) := []
deriving DecidableEq, Repr

/-! ### 08 Reservoir and aquifer -/

/-- A read source that waits for a far row (R265, R266, R287): a lookup's row request, an update record, or a fill. -/
inductive FarFor where
  | lookup (rid : Nat)
  | update (rec : Nat)
  | fill (stack : Nat)
deriving DecidableEq, Repr

/-- Where a far request stands: in the hub's queue, reading reservoir lines, joined to an NVMe I/O, or answered with
the row's bytes or with the news that it cannot arrive. -/
inductive FarStage where
  | queued
  | reservoir (da : Nat)
  | io (id : Nat)
  | arrived (bytes : List Byte)
  | failed
deriving DecidableEq, Repr

/-- A far row request in the hub (R265–R268, R286). -/
structure FarReq where
  table : Nat
  row : Nat
  who : FarFor
  stage : FarStage := .queued
deriving DecidableEq, Repr

/-- An extent record (R283). -/
structure AqExt where
  st : Nat := 0
  mask : Byte := 0
  pgn : Nat := 0
  gen : W32 := 0
  pages : Nat := 0
  homeLba : Nat := 0
  /-- Ordinals whose drive was lost and replaced by AQ_ADOPT: their pages cannot arrive (R300). -/
  lost : Byte := 0
deriving DecidableEq, Repr

/-- A drive's label (R280); its layout is private, so it is kept as a record. `members` is the mask of ordinals the
set was formatted with. -/
structure AqLabel where
  setId : W64
  ordinal : Nat
  gen : W32
  members : Byte
  exts : SMap AqExt := []
  logSegs : Nat
deriving DecidableEq, Repr

/-- A log record (R292). -/
structure LogRec where
  table : Nat
  row : Nat
  seq : Nat
  bytes : List Byte
deriving DecidableEq, Repr

/-- A log segment of a drive: its sequence number and its pages, each a list of records (R292). -/
structure LogSeg where
  seq : Nat
  pages : List (List LogRec) := []
  /-- 4 KiB pages used, a page group counting all of its pages. -/
  used : Nat := 0
deriving DecidableEq, Repr

/-- A drive: its identity and its media. It lies outside the part, and its contents survive every reset. -/
structure Drive where
  serial : Nat := 0
  /-- Capacity in 4 KiB LBAs. -/
  lbas : Nat := 0
  /-- Meets R278 for page groups of this many LBAs; 0 where it fails R278. -/
  awun : Nat := 0
  label : Option AqLabel := none
  segs : SMap LogSeg := []
  /-- Home area bytes, at LBA × 4,096 + offset; unlisted 0. -/
  home : List Host.Cell := []
deriving DecidableEq, Repr

/-- The states of an aquifer slot, encoded as R316 gives. -/
inductive AqSlotState where
  | empty | training | ident | member | blank | foreign | stale | unsupported | faulted | safe
deriving DecidableEq, Repr

/-- One aquifer slot (R316–R318). -/
structure AqSlot where
  st : AqSlotState := .empty
  prsnt : Bool := false
  pdc : Bool := false
  surprise : Bool := false
  ordinal : BitVec 3 := 0
  speed : BitVec 2 := 0
  width : BitVec 5 := 0
  roMedia : Bool := false
  pctUsed : Byte := 0
  spare : Byte := 0
  crit : Byte := 0
  weight : Byte := 0
  eol : W16 := 0xFFFF
  /-- Device time of the last SMART poll, and 80% and 100% warnings given (R298, R299). -/
  lastPoll : Nat := 0
  /-- The one retrain of R300 has been used. -/
  retrained : Bool := false
deriving DecidableEq, Repr

/-- What an NVMe I/O in flight does (R286, R291, R293). -/
inductive AqOp where
  /-- Read a home page group: extent and logical page. -/
  | readHome (ext lp : Nat)
  /-- Read a log page: segment number and page index. -/
  | readLog (seg page : Nat)
deriving DecidableEq, Repr

/-- An I/O in flight (R279). -/
structure AqIo where
  id : Nat
  slot : Nat
  op : AqOp
  lba : Nat
  issued : Nat
  retried : Bool := false
  aborted : Bool := false
deriving DecidableEq, Repr

/-- Where the newest value of a row lies (R291): a member's tail, or a segment and page of a member. -/
inductive LogPlace where
  | tail (ordinal : Nat)
  | flash (ordinal seg page : Nat)
deriving DecidableEq, Repr

/-- A log index entry (R291). -/
structure LogEntry where
  table : Nat
  row : Nat
  seq : Nat
  place : LogPlace
deriving DecidableEq, Repr

/-- A member's log tail (R291). -/
structure AqTail where
  recs : List LogRec := []
  first : Nat := 0
  /-- A record did not fit, so the tail is full. -/
  full : Bool := false
  /-- The segment it is written to. -/
  seg : Option Nat := none
deriving DecidableEq, Repr

/-- The aquifer engine (R275–R301, R314–R319). -/
structure Aquifer where
  bgShare : BitVec 7 := 0x14
  tailUs : BitVec 11 := 0xC8
  ioTmo : BitVec 8 := 0x0A
  lowSeg : BitVec 4 := 8
  tailBase : BitVec 24 := 0
  lidxBase : BitVec 24 := 0
  lidxSize : BitVec 5 := 0x16
  set : BitVec 3 := 0
  logFull : Bool := false
  lidxFull : Bool := false
  bifur : SMap Nat := []
  slots : SMap AqSlot := []
  /-- Drives in slots, and drives out of the machine by serial number. -/
  drives : SMap Drive := []
  shelf : SMap Drive := []
  /-- The mounted set: identifier, last label generation, member mask, extents. -/
  setId : W64 := 0
  gen : W32 := 0
  members : Byte := 0
  exts : SMap AqExt := []
  tails : SMap AqTail := []
  /-- The member that takes new records (R298). -/
  cur : Option Nat := none
  lidx : SMap LogEntry := []
  /-- Update sequence number, and the segment sequence number to come (R292). -/
  useq : Nat := 0
  segSeq : Nat := 0
  /-- Sequence number up to which updates survive a loss of power (R296). -/
  synced : Nat := 0
  ios : List AqIo := []
  nextIo : Nat := 0
  far : List FarReq := []
deriving DecidableEq, Repr

/-- HUB_LATE and HUB_PRM (R310, R311). -/
structure LateRegs where
  margin : SMap W16 := []
  prmMode : BitVec 2 := 0
  prmSlot : BitVec 4 := 2
  prmKps : W16 := 0x64
deriving DecidableEq, Repr

/-! ### 09 Lookup lists -/

/-- Where a row request stands: waiting in its dispatcher, at a stack, being read for a lookup unit, or far. -/
inductive RowStage where
  | dispatcher
  | stack (st : Nat)
  | reading (st : Nat) (da : Nat)
  | far
deriving DecidableEq, Repr

/-- How a request was routed (R227, R228): to the home slot, as a hot request, as a fountain request, or as a far
row. -/
inductive RowRoute where
  | home | hot | fountain | far
deriving DecidableEq, Repr

/-- A row request of a lookup list (R227, R327). -/
structure RowReq where
  rid : Nat
  list : Nat
  bag : Nat
  frag : Nat
  table : Nat
  row : Nat
  weight : W32
  /-- Slot of CAT and LASTK. -/
  slot : Nat := 0
  route : RowRoute
  stage : RowStage := .dispatcher
  /-- The stack whose owning lookup unit settles it, and the unit (R266, R328). -/
  owner : Nat
  /-- Pooled, defaulted or substituted already: a late row is discarded (R307). -/
  settled : Bool := false
  /-- The replica has been asked for once more after poison (R229). -/
  retried : Bool := false
  /-- A promotion waits for this row (R289). -/
  promote : Bool := false
  /-- The request is a kind-2 default row's, or a kind-2 fallback row's sent in place of a cistern row (R327, R329). -/
  kind2 : Bool := false
  /-- The stack whose dispatcher credit it holds, and the stack where it takes an entry of those kept for forwarded
  requests and await records (R340). -/
  credit : Option Nat := none
  entry : Option Nat := none
deriving DecidableEq, Repr

/-- One element's pooled state: V in units of 2^L, its flags, and for MAX the largest term (R336). -/
structure PoolElem where
  v : Int := 0
  inv : Bool := false
  nan : Bool := false
  pinf : Bool := false
  ninf : Bool := false
  aov : Bool := false
  stk : Bool := false
  /-- MAX: a term has been seen, and the sign and STK of the largest. -/
  seen : Bool := false
  neg : Bool := false
  maxStk : Bool := false
deriving DecidableEq, Repr

/-- A fragment being pooled in a lookup unit, or a partial on its way (R327, R331). -/
structure Frag where
  id : Nat
  list : Nat
  bag : Nat
  /-- The stack its requests go to; 12 is the cluster's cistern pooler; none for a row with a partial of its own. -/
  stack : Option Nat := none
  slot : Nat := 0
  left : Nat := 0
  np : Nat := 0
  spawn : Nat := 0
  elems : List PoolElem := []
  /-- Weights of the rows pooled so far, for their settlement where the partial is discarded (R663). -/
  wts : List W32 := []
  /-- Emitted: it waits at the core's merge engine. -/
  sent : Bool := false
deriving DecidableEq, Repr

/-- A merge slot (R336, R337). -/
structure MergeSlot where
  list : Nat
  bag : Nat
  n : Nat := 0
  elems : List PoolElem := []
  /-- Output slots of CAT and LASTK that are still empty. -/
  slots : List Nat := []
deriving DecidableEq, Repr

/-- A lookup list in flight (R320, R326, R338). -/
structure LList where
  id : Nat
  cluster : Nat
  core : Nat
  hdrDa : Nat
  part : Nat
  table : Nat
  op : Nat
  ofmt : Nat
  rm : Nat
  sat : Bool
  ctr : Nat
  k : Nat
  nbags : Nat
  ostride : Nat
  deadline : Nat
  margin : Nat
  offDa : Nat
  idDa : Nat
  wtDa : Nat
  outDa : Nat
  half : Bool := false
  next : Nat := 0
  status : Nat := 0
  subst : Nat := 0
  flags : Nat := 0
  lateDone : Bool := false
  failedCounted : Bool := false
  /-- Its context has been torn down: nothing more is written (R341). -/
  torn : Bool := false
deriving DecidableEq, Repr

/-- Lookup dispatchers, lookup units and merge engines. -/
structure Lookup where
  lists : List LList := []
  nextList : Nat := 0
  rows : List RowReq := []
  nextRow : Nat := 0
  frags : List Frag := []
  nextFrag : Nat := 0
  merges : List MergeSlot := []
  /-- CLU_LD_IDS per cluster; CSTALL and MSTALL (R344, R345). -/
  ids : SMap W32 := []
  cstall : List Nat := []
  mstall : List Nat := []
  /-- LU_ROWS per stack, and the rows beyond its units of 1,024 (R346). -/
  luRows : SMap W32 := []
  luRem : SMap Nat := []
deriving DecidableEq, Repr

/-! ### 10 Live updates and digests -/

/-- Who submitted a batch (R348): a queue's command, or a task's UPD with its handle. -/
inductive BatchOrigin where
  | queue (q : Nat) (cid : W16)
  | task (pair slot : Nat) (handle : Nat)
deriving DecidableEq, Repr

/-- An update batch being worked (R349, R352, R353). -/
structure Batch where
  origin : BatchOrigin
  part : Nat
  descDa : Nat
  table : Nat
  flip : Bool := false
  close : Bool := false
  src : Nat := 0
  count : Nat := 0
  lr : W32 := 0
  mu : W32 := 0
  beta2 : W32 := 0
  eps : W32 := 0
  c1 : W32 := 0
  c2 : W32 := 0
  /-- Where the next record starts, and how many have been taken. -/
  nextDa : Nat := 0
  taken : Nat := 0
  /-- Records that wait for a flash read or for space (R287, R372). -/
  waiting : Nat := 0
  status : Nat := 0
  /-- No further record is read. -/
  stopped : Bool := false
  applied : Nat := 0
  skipped : Nat := 0
  bad : Nat := 0
  flags : Nat := 0
  /-- Waits for its flip (R368). -/
  flipWait : Bool := false
deriving DecidableEq, Repr

/-- An update record accepted and not yet applied: its batch, row, kind, payload, and the epoch of its acceptance. -/
structure PendRec where
  id : Nat
  batch : Nat
  table : Nat
  row : Nat
  kind : Nat
  zst : Bool := false
  payload : List Byte := []
  epoch : Nat
  /-- Why it waits: 0 a flash or reservoir read, 1 journal space, 2 log space, 3 a hold, 4 an epoch marker or an earlier
  update of its row. -/
  why : Nat := 0
  /-- The old row has been read from the reservoir or flash: its bytes, or none where it cannot arrive. -/
  got : Bool := false
  old : Option (List Byte) := none
deriving DecidableEq, Repr

/-- A journal record kept in a stack's area (R370–R372). -/
structure JRec where
  epoch : Nat
  off : Nat
  len : Nat
  table : Nat := 0
  row : Nat := 0
  src : Nat := 0
deriving DecidableEq, Repr

/-- The update units of one stack: UU_JNL, UU_STS, UU_ROWS and the journal (R387–R389). -/
structure UuStack where
  base : BitVec 24 := 0
  size : BitVec 8 := 1
  werr : Bool := false
  /-- Records applied, counted singly; UU_ROWS shows it ÷ 1,024. -/
  rows : Nat := 0
  wp : Nat := 0
  kept : List JRec := []
deriving DecidableEq, Repr

/-- A flip in progress (R367): what asked for it, and whether step 3 is done. -/
structure Flip where
  table : Nat
  cmd : Option (Nat × W16) := none
  batch : Option Nat := none
  flipped : Bool := false
deriving DecidableEq, Repr

/-- A DGST_REBUILD running (R379). -/
structure Rebuild where
  model : Nat
  q : Nat
  cid : W16
deriving DecidableEq, Repr

structure UpdState where
  batches : SMap Batch := []
  nextBatch : Nat := 0
  recs : List PendRec := []
  nextRec : Nat := 0
  epochUs : W16 := 0x3E8
  e : BitVec 7 := 8
  auto : Bool := true
  err : Bool := false
  epoch : Nat := 0
  openedAt : Nat := 0
  /-- The epoch closing: its number, units whose markers are still to come, and the UPD_EPOCH
  commands that wait, with the epoch each closes. -/
  closing : Option Nat := none
  markers : List Nat := []
  closeCmds : List (Nat × Nat × W16) := []
  /-- A close was asked for while an epoch was closing: the next one closes at once. -/
  again : Bool := false
  dgsBase : BitVec 24 := 0
  dgsSize : BitVec 8 := 4
  dgsWp : W32 := 0
  /-- Snapshots in the ring (R674), by ring slot. -/
  ring : SMap Snapshot := []
  /-- Journal records of epochs below this one have been released (R372, R679). -/
  journalFrom : Nat := 0
  rebuild : Option Rebuild := none
  broken : List Nat := []
  /-- Digest partials by unit × 256 + model, units 0 to 95 (stack × 8 + n) and 96 the hub's sweeps; and those saved at
  the markers of the closing epoch (R369, R376). -/
  dig : SMap D128 := []
  saved : SMap D128 := []
  flips : List Flip := []
  /-- Published half P of each PUB table (R365). -/
  pub : SMap Bool := []
  /-- State arrays of each sealed table's shards (R359). -/
  stateMaps : SMap (List Nat) := []
deriving DecidableEq, Repr

/-! ### 11, 12, 14 Tensor cores and clusters -/

/-- A weight tile in the tile buffer (R393, R394). -/
structure Tile where
  n : Nat
  afmt : Nat
  wfmt : Nat
  img : List Byte
deriving DecidableEq, Repr

/-- Where an instruction stands in its core's program order: its number, and the numbers at the last FNC.A and FNC.R
before it (R506). -/
structure Pos where
  seq : Nat := 0
  fa : Nat := 0
  fr : Nat := 0
deriving DecidableEq, Repr

/-- A deferred exception that an engine has found and not yet raised (R444). -/
structure DeferExc where
  code : Nat
  pc : Nat
  w : W64
  addr : Nat := 0
  isDa : Bool := false
deriving DecidableEq, Repr

/-- A WSTG in the staging queue (R427): the tile's image, and the bundle that issued it. -/
structure WstgReq where
  off : Nat
  n : Nat
  afmt : Nat
  wfmt : Nat
  pc : Nat
  w : W64
  pos : Pos := {}
deriving DecidableEq, Repr

/-- The staging slot (R394, R414). -/
inductive Staging where
  | free
  | loading (r : WstgReq)
  | staged (t : Tile)
deriving DecidableEq, Repr

/-- An MMA in the MMA queue (R428–R430): its word, its parameter pair, and the formats and N of its tile. -/
structure MmaReq where
  w : BitVec 56
  sx : W64
  sx1 : W64
  tileN : Nat
  afmt : Nat
  wfmt : Nat
  pc : Nat
  pos : Pos := {}
deriving DecidableEq, Repr

/-- The MMA in the array: what it will write when it completes (R398, R450). -/
structure MmaRun where
  req : MmaReq
  writes : List (Nat × List Byte) := []
  flags : Nat := 0
  k0 : Bool := false
deriving DecidableEq, Repr

/-- A transfer in a channel (R491–R494). -/
structure Xfer where
  push : Bool
  /-- Descriptor to be read, or being followed. -/
  desc : Nat
  /-- The descriptor's bytes, once read, and the index of the entry in it. -/
  dsc : Option (List Byte) := none
  ent : Nat := 0
  /-- The entry's bytes, once read, and the repetition to move next. -/
  entry : Option (List Byte) := none
  rep : Nat := 0
  /-- Completion counter, where CEN is 1. -/
  ctr : Option Nat := none
  pc : Nat
  w : W64
  /-- Every block has been moved. -/
  moved : Bool := false
  pos : Pos := {}
  /-- DA ranges written, as (DA, bytes), whose writes may still wait for the host (R604). -/
  dests : List (Nat × Nat) := []
deriving DecidableEq, Repr

/-- CORE_EXC, CORE_EXC_PC and CORE_EXC_ADDR (R452–R454). -/
structure CoreExc where
  v : Bool := false
  code : Byte := 0
  slot : Bool := false
  defer : Bool := false
  more : Bool := false
  pc : BitVec 52 := 0
  addr : BitVec 52 := 0
  isDa : Bool := false
deriving DecidableEq, Repr

/-- A tensor core (R402, R414–R455, R516, R517). -/
structure TCore where
  /-- The context's registers (R420). -/
  s : SMap W64 := []
  v : SMap W32 := []
  p : SMap W64 := []
  ctr : SMap W32 := []
  /-- CORE_STS flags in the order of R110, and K0. -/
  flags : BitVec 6 := 0
  k0 : Bool := false
  /-- Accumulator file by column × 64 + entry; unlisted records are all zero. -/
  acc : SMap Acc := []
  /-- Entries started by START 1 that no chunk has reached since (R404), rising. -/
  bare : List Nat := []
  active : Option Tile := none
  staging : Staging := .free
  stgQ : List WstgReq := []
  /-- Tiles staged or to be staged that no issued MMA has crested, and the tile after the latest issued crest (R430). -/
  coming : List (Nat × Nat × Nat) := []
  cur : Option (Nat × Nat × Nat) := none
  mq : List MmaReq := []
  run : Option MmaRun := none
  /-- Channels by CH + 8 × PRIV (R494). -/
  xfer : SMap (List Xfer) := []
  /-- Sluice table entries and local semaphores (R499, R500). -/
  slt : SMap W32 := []
  sem : SMap W32 := []
  /-- A stream runs: the work list it belongs to. -/
  stream : Option Nat := none
  /-- Cistern offset of the bundle at issue, and where control goes after it. -/
  pc : Nat := 0
  npc : Option Nat := none
  /-- The M slot of the bundle at pc has issued; its V slot reads these s registers (R418). -/
  vNext : Bool := false
  /-- A debugger lets the halted core issue one bundle (R734). -/
  step1 : Bool := false
  sOld : SMap W64 := []
  /-- Fetch buffer: cistern offset and bytes of each bundle fetched (R416); the next line to fetch, and a HOLD or END
  fetched, which stops fetching (R419). -/
  fbuf : List (Nat × List Byte) := []
  fpc : Nat := 0
  fstop : Bool := false
  /-- END has been executed: the stream waits to be reported complete (R419). -/
  ended : Bool := false
  /-- Waiting in BAR for a barrier (R510). -/
  bar : Option Nat := none
  /-- The instruction at issue has made no progress: when its timer expires (R575). -/
  waitDue : Option Nat := none
  /-- Issue has stopped on an exception or a mismatch (R446). -/
  stopped : Bool := false
  exc : CoreExc := {}
  defq : List DeferExc := []
  /-- Program order: the next instruction's number, and those of the last FNC.A and FNC.R. -/
  nextSeq : Nat := 0
  fa : Nat := 0
  fr : Nat := 0
  /-- CORE_ACNT, CORE_BUBL, CORE_BCNT in handshakes (R415). -/
  acnt : Nat := 0
  bubl : Nat := 0
  bcnt : Nat := 0
deriving DecidableEq, Repr

/-- A work-list entry in a cluster sequencer's queue (R471, R473). -/
structure WlEntry where
  wl : Nat
  cores : BitVec 12
  stream : Nat
  step : Nat
  args : List W64
  raw : List Byte
deriving DecidableEq, Repr

/-- A cluster's own registers and its sequencer's queue (R473, R518, R519). -/
structure Cluster where
  wq : List WlEntry := []
  pcred : BitVec 11 := 0x100
  /-- CLU_BAR words as loaded: CORES and V. -/
  bars : SMap (BitVec 13) := []
deriving DecidableEq, Repr

/-- A work list in flight (R473): who issued it, and what of it is still to complete. -/
structure WorkList where
  pair : Nat
  /-- The task slot and its handle; none once the task has ended (R480). -/
  task : Option (Nat × Nat) := none
  part : Nat
  sb : Bool := false
  /-- The batch slot that ARG0 of the list names, for a step-builder list (R546). -/
  batchDa : Nat := 0
  /-- Entries that have not reached their clusters. -/
  toArrive : List (Nat × WlEntry) := []
  /-- Streams not reported complete. -/
  left : Nat := 0
  torn : Bool := false
  issuedNo : Nat := 0
deriving DecidableEq, Repr

/-- A sluice signal on its way (R500). -/
structure Signal where
  src : Nat
  dst : Nat
  sl : Nat
  cnt : Nat
deriving DecidableEq, Repr

/-- A PART_BAR (R520). -/
structure PartBar where
  cl : BitVec 100 := 0
  err : Bool := false
  pair : Bool := false
deriving DecidableEq, Repr

/-- Cores, clusters and what travels between them. -/
structure Cores where
  core : SMap TCore := []
  clu : SMap Cluster := []
  wls : SMap WorkList := []
  nextWl : Nat := 0
  signals : List Signal := []
  /-- PART_BAR by partition × 16 + barrier. -/
  bars : SMap PartBar := []
deriving DecidableEq, Repr

/-! ### 13 Control cores -/

/-- A registered task program (R459). -/
structure Prog where
  entry : Nat
  frame : Nat
  maxh : Nat
  standingOk : Bool
  restart : Bool
  code : List Byte
deriving DecidableEq, Repr

/-- Where a handle stands (R474). -/
inductive HandleSt where
  | pending | complete | torn | updErr
deriving DecidableEq, Repr

/-- What a task waits for. -/
inductive TaskWait where
  /-- Ready: its next instruction does not wait. -/
  | ready
  | sleep (until_ : Nat)
  /-- WAITQ: the selector, ANY, the frame address and the destination register. -/
  | waitq (sel : Nat) (any : Bool) (addr rd : Nat)
  /-- WAITI on a handle; it is executed again when the handle is settled. -/
  | waiti (handle : Nat)
  /-- ISSUE, held back by a full queue of one of these clusters or by the pair's work lists; it is executed again. -/
  | issue (clusters : List Nat)
  /-- UPD, held back while the front end takes no batch; it is executed again. -/
  | upd
  /-- DMOV: the writes have not all been accepted. -/
  | dmov (da n : Nat)
deriving DecidableEq, Repr

/-- A task on a pair (R456–R463). -/
structure Task where
  prog : Nat
  part : Nat
  standing : Bool
  /-- The TASK_RUN: queue, SQE and acceptance time. -/
  q : Nat
  raw : Line
  tAcc : Nat
  g : SMap W64 := []
  frame : SMap Byte := []
  pc : Nat
  sources : List (Nat × Nat) := []
  handles : SMap HandleSt := []
  nextHandle : Nat := 1
  wait : TaskWait := .ready
  /-- TASK_STOP commands that have come (R481). -/
  stop : List (Nat × W16) := []
  due : Nat := 0
  waitDue : Option Nat := none
  /-- The argument block, for a restart (R483). -/
  arg : List Byte := []
deriving DecidableEq, Repr

/-- A completion owed (R466, R467, R575, R576). A launched task's own TASK_RUN has KIND 0, INDEX 0 and `own`. -/
structure Owed where
  index : Nat
  kind : Nat
  sel : Nat
  part : Nat
  /-- The task slot that accepted it. -/
  task : Nat
  own : Bool := false
  /-- The queue whose CQ takes the completion, and the CID word. -/
  q : Nat
  id : W32
  tAcc : Nat
  due : Nat
  expired : Bool := false
deriving DecidableEq, Repr

/-- A control-core pair (R456, R487–R489). -/
structure CcPair where
  parts : W16 := 0
  err : Bool := false
  resync : Bool := false
  /-- Its idle request was not acknowledged, so it stays out of service (R709). -/
  stuck : Bool := false
  mismatch : Byte := 0
  tasks : SMap Task := []
  /-- The task that runs. -/
  run : Option Nat := none
  /-- The slot the pair last left, for the next pick (R458). -/
  last : Nat := 31
  ledger : List Owed := []
deriving DecidableEq, Repr

/-- A standing task to be placed again after a mismatch (R483 step 5). -/
structure CcState where
  pairs : SMap CcPair := []
  progs : SMap Prog := []
  /-- TASK_RUNs of restarted tasks that wait for a pair. -/
  restarts : List Task := []
deriving DecidableEq, Repr

/-! ### 15 Scheduling -/

/-- States of a partition (R521), encoded as R551 gives. -/
inductive PartState where
  | unused | stopped | running | stopping | resetting
deriving DecidableEq, Repr

/-- States of an Active Sequence Table entry (R533). -/
inductive AstState where
  | free | ready | decode | finish | run | done
deriving DecidableEq, Repr

/-- Notice statuses (R545). -/
inductive Nstat where
  | ok | torn | expired | reset | abort
deriving DecidableEq, Repr

/-- An Active Sequence Table entry (R532). -/
structure AstEntry where
  st : AstState := .free
  gen : Bool := false
  cls : Nat := 0
  model : Nat := 0
  levels : Nat := 0
  step : Nat := 0
  beams : Nat := 0
  owner : Nat := 0
  cancel : Bool := false
  nstat : Nstat := .ok
  deadline : Nat := 0
  arrive : Nat := 0
  token : W64 := 0
  inDa : Nat := 0
  outDa : Nat := 0
  histDa : Nat := 0
  hpagesM1 : Nat := 0
  ncand : Nat := 0
  /-- When it entered READY, DECODE or FINISH (R544). -/
  since : Nat := 0
deriving DecidableEq, Repr

/-- A step-builder work list in flight (R544–R546). -/
structure SbList where
  slot : Nat
  model : Nat
  kind : Nat
  entries : List Nat
  bytes : List Byte
  /-- The pair that holds it, once delivered; and whether it has been issued. -/
  pair : Option Nat := none
  issued : Bool := false
  /-- Its streams have ended, and with which notice status where it completed torn. -/
  fin : Bool := false
  nst : Nstat := .ok
  /-- Window pages of its sequences, to be staged before its streams start: cluster, slot, page DA, and whether the page
  is to be read rather than reused (R538). -/
  stage : List (Nat × Nat × Nat × Bool) := []
deriving DecidableEq, Repr

/-- A finish notice waiting for a task (R545). -/
structure Notice where
  pair : Nat
  bytes : List Byte
deriving DecidableEq, Repr

/-- A PART_STOP in progress (R524). -/
structure StopCmd where
  q : Nat
  cid : W16
  due : Nat
  abort : Bool
  /-- GLOBAL_TIMEOUT has passed: entries that name a cluster of the partition complete at once as torn. -/
  forced : Bool := false
deriving DecidableEq, Repr

/-- A consistent snapshot in progress (R514), and the PART_SNAP commands it serves. -/
structure Snap where
  cmds : List (Nat × W16) := []
  /-- The partition stays halted at the cut. -/
  halt : Bool := false
  start : Nat
  /-- Gathers recorded as pending at the deadline. -/
  pending : Option Nat := none
deriving DecidableEq, Repr

/-- A context switch in progress (R530): the incoming model, and the work list whose streams start after it. -/
structure Switch where
  model : Nat
  slot : Nat
deriving DecidableEq, Repr

/-- A partition (R521–R525, R551–R558). -/
structure Part where
  st : PartState := .unused
  teardown : Bool := false
  ctxV : Bool := false
  err : Bool := false
  ctx : Byte := 0
  astBase : BitVec 14 := 0
  astCount : BitVec 15 := 0
  waitNs : W16 := 0x1388
  depth : BitVec 3 := 2
  drop : Bool := false
  stick : Byte := 0x10
  ageUs : W16 := 0x3E8
  cl : BitVec 100 := 0
  mcSize : BitVec 7 := 0x60
  baBase : BitVec 24 := 0
  switches : W16 := 0
  teardowns : Byte := 0
  resets : Byte := 0
  prev : PartState := .unused
  stepNo : Nat := 0
  stuck : Nat := 0
  lists : List SbList := []
  nextSlot : Nat := 0
  notices : List Notice := []
  stop : Option StopCmd := none
  snap : Option Snap := none
  halted : Bool := false
  switching : Option Switch := none
  /-- When the teardown or the reset in progress began, and the clusters that had an SRAM error (R547). -/
  downAt : Nat := 0
  sramBad : List Nat := []
  /-- A PART_STOP that waits for a switch or teardown to end (R549). -/
  stopWait : Option StopCmd := none
  /-- A core exception alone caused the teardown in progress (R448). -/
  downExc : Bool := false
deriving DecidableEq, Repr

/-- A registered model (R526, R527). -/
structure Model where
  desc : List Byte
  part : Nat
  admits : Bool := false
  /-- It has a saved copy (R529): its cores' small state, accumulators and tile buffers, by core, are kept here. -/
  saved : Bool := false
  savedCores : SMap TCore := []
deriving DecidableEq, Repr

/-- A history-cache slot's tag (R538): the page's DA, if tagged, and when it was last used. -/
structure HistTag where
  da : Option Nat := none
  used : Nat := 0
deriving DecidableEq, Repr

structure Sched where
  parts : SMap Part := []
  ast : SMap AstEntry := []
  models : SMap Model := []
  /-- Model-cache tags: cluster × 128 + block to the model (R528). -/
  tags : SMap Nat := []
  /-- History-cache slots: cluster × 128 + slot (R538). -/
  hist : SMap HistTag := []
  useCtr : Nat := 0
deriving DecidableEq, Repr

/-! ### 16 Queues and fault records -/

/-- The states of a queue (R562), encoded in SQ_STS.STATE as R588 gives. -/
inductive QState where
  | disabled | enabled | error | draining
deriving DecidableEq, Repr

/-- A submission entry as fetched (R564): its bytes, and the device time of the fetch (R574). -/
structure Sqe where
  raw : Line
  tAcc : Nat
deriving DecidableEq, Repr

/-- A command in flight: its identifier, opcode and acceptance time. -/
structure InFlight where
  cid : W16
  opc : Byte
  tAcc : Nat
  /-- FENCE on a NOP: it posts only when every earlier entry has posted (R566). -/
  fence : Bool := false
  /-- Device time the entry started, for the timers of R575. -/
  raw : Line := 0
deriving DecidableEq, Repr

/-- A completion on its way to a CQ (R570), less what is filled in when it is written. -/
structure Cqe where
  result : W64 := 0
  subst : W32 := 0
  id : W32 := 0
  code : BitVec 12 := 0
  tAcc : Nat := 0
  /-- When its timer of R575 expires, once it is held. -/
  due : Nat := 0
  /-- Lines whose writes it must follow, by DA ÷ 64 (R618). -/
  waits : List Nat := []
deriving DecidableEq, Repr

/-- One queue pair (R560–R573, R585–R589). -/
structure Queue where
  kind : Bool := false
  loc : Bool := false
  sqLog : BitVec 5 := 4
  cqLog : BitVec 5 := 4
  fn : BitVec 5 := 0
  part : BitVec 4 := 0
  en : Bool := false
  err : Bool := false
  sbase : W64 := 0
  cbase : W64 := 0
  vec : BitVec 11 := 0
  ien : Bool := false
  coalN : BitVec 8 := 0
  coalUs : BitVec 8 := 0
  st : QState := .disabled
  errc : BitVec 2 := 0
  cqFull : Bool := false
  cqLost : Bool := false
  cqDberr : Bool := false
  sqHead : Nat := 0
  sqTail : Nat := 0
  cqHead : Nat := 0
  cqTail : Nat := 0
  phase : Bool := true
  infl : List InFlight := []
  /-- The fetched entry at the head that cannot start yet, and when it reached the head (R568). -/
  head : Option (Sqe × Nat) := none
  held : List Cqe := []
  /-- CQEs written since the last interrupt, and when the first of them was written (R573). -/
  coalCnt : Nat := 0
  coalFirst : Nat := 0
deriving DecidableEq, Repr

/-- A fault record (R578). CMD and STATE hold the items of R833 as bytes. -/
structure FaultRecord where
  seq : Nat
  time : Nat
  cls : Nat
  inst : Nat
  code : Nat
  rung : Nat := 0
  part : Nat := 0xFF
  supp : Bool := false
  akind : Nat := 0
  addr : Nat := 0
  /-- SQID and CID of the command the event struck, when there is one (CREF). -/
  cref : Option (Nat × Nat) := none
  boot : Nat := 0
  suppressed : Nat := 0
  cmd : List Byte := []
  cmdV : Bool := false
  state : List Byte := []
deriving DecidableEq, Repr

/-- The suppression bookkeeping of one (UNIT, CODE) (R582). -/
structure FaultSeen where
  unit : Nat
  code : Nat
  last : Nat
  count : Nat
deriving DecidableEq, Repr

/-- The fault record store (R578–R582, R590, R591). -/
structure FaultStore where
  seq : Nat := 0
  /-- Record SEQ at index SEQ mod 1,024. -/
  ring : SMap FaultRecord := []
  seen : List FaultSeen := []
  hen : Bool := false
  vec : BitVec 11 := 0
  ien : Bool := false
  hlog : BitVec 5 := 0xA
  herr : Bool := false
  hbase : W64 := 0
deriving DecidableEq, Repr

/-! ### 17 Host coupling and spout -/

/-- State of a line in the host line cache (R605). -/
inductive HlcState where
  | e | m
deriving DecidableEq, Repr

/-- A line of the host line cache (R605–R608); its data are the memory's at 2^48 + HPA. -/
structure HlcLine where
  st : HlcState := .e
  dirtySince : Nat := 0
  /-- A DirtyEvict is outstanding; superseded by a snoop (R607). -/
  evicting : Bool := false
  superseded : Bool := false
  /-- The line as host memory holds it. -/
  old : List Byte := []
deriving DecidableEq, Repr

/-- An outstanding CXL.cache request (R605, R606). -/
inductive CacheOp where
  | rdOwn | itoMWr
deriving DecidableEq, Repr

/-- A CXL.cache request awaiting its GO: the line's HPA, the model whose digest its failure breaks (R606), and for a
write the bytes it replaced, which its failure puts back. -/
structure CacheReq where
  op : CacheOp
  hpa : Nat
  model : Option Nat := none
  off : Nat := 0
  data : List Byte := []
  /-- It waits for the line's eviction to end before it is issued (R607). -/
  waits : Bool := false
deriving DecidableEq, Repr

/-- A device access that waits for a back-invalidate of its window line (R604, R616). -/
structure BiWait where
  da : Nat
  write : Bool
  data : List Byte := []
  /-- Its back-invalidate has been sent; and the host has sent BIConflict for the line (R616). -/
  sent : Bool := true
  conflict : Bool := false
deriving DecidableEq, Repr

/-- States of a spout slot (R612), encoded as R630 gives. -/
inductive SlotState where
  | idle | pending | accepted | fenced
deriving DecidableEq, Repr

structure Slot where
  st : SlotState := .idle
  rseq : W16 := 0
  latch : Bool := false
deriving DecidableEq, Repr

/-- A spout slot group (R609, R629). -/
structure SpGroup where
  en : Bool := false
  err : Bool := false
  first : BitVec 12 := 0
  count : BitVec 13 := 0
  q : BitVec 10 := 0
  /-- EN has been cleared and takes effect once no slot is ACCEPTED or FENCED (R612). -/
  closing : Bool := false
deriving DecidableEq, Repr

/-- HC_VF_CFG (R628) and the function's own PCIe state (R596, R617, R740). -/
structure Func where
  part : BitVec 4 := 0
  kq : Bool := false
  /-- Bus Master Enable. -/
  bme : Bool := false
  /-- PMCSR PowerState is D3hot. -/
  d3hot : Bool := false
deriving DecidableEq, Repr

/-- An HDM decoder (R598). -/
structure HdmDec where
  committed : Bool := false
  err : Bool := false
deriving DecidableEq, Repr

structure HostState where
  speed : BitVec 2 := 0
  width : BitVec 5 := 0
  cxl : Bool := false
  ideIo : Bool := false
  ideCm : Bool := false
  ldown : Bool := false
  /-- The link is trained. -/
  up : Bool := false
  /-- Functions 0 to 16. -/
  funcs : SMap Func := []
  aptEn : Bool := false
  aptErr : Bool := false
  aptBase : BitVec 19 := 0
  bfPage : BitVec 11 := 0
  bfDir : Bool := false
  bfBusy : Bool := false
  bfErr : Bool := false
  /-- Host-shared aperture pages, rising (R624). -/
  bias : List Nat := []
  lcwEn : Bool := false
  lcwErr : Bool := false
  lcwBase : BitVec 14 := 0
  lcwSize : BitVec 4 := 0
  wbUs : W16 := 0x14
  hlcBusy : Bool := false
  superseded : W16 := 0
  lost : Byte := 0
  aptOff : Byte := 0
  hdm0 : HdmDec := {}
  hdm1 : HdmDec := {}
  /-- Snoop filter: (window line offset ÷ 64, state), least recently used first (R604). -/
  snoop : List (Nat × SnoopState) := []
  biWait : List BiWait := []
  hlc : SMap HlcLine := []
  cacheReqs : List CacheReq := []
  groups : SMap SpGroup := []
  slots : SMap Slot := []
  /-- MSI-X messages that stay pending: function and vector (R617). -/
  msixPend : List (Nat × Nat) := []
  /-- The IDE hold of R737. -/
  ideHold : Bool := false
deriving DecidableEq, Repr

/-- A declared reservoir range (R269). -/
structure RsvRange where
  v : Bool := false
  hpa : Nat := 0
  len : Nat := 0
deriving DecidableEq, Repr

/-! ### 18 The Quefy link and pairs -/

/-- An epoch's items held for the peer (R643) or received from it (R644). -/
structure EpochBuf where
  n : Nat
  items : List MirrorItem := []
  /-- Items applied already (R644). -/
  taken : Nat := 0
  commit : Option Commit := none
deriving DecidableEq, Repr

structure PairState where
  replay : Bool := true
  auto : Bool := true
  lossUs : BitVec 8 := 0x64
  copyPct : BitVec 7 := 0x32
  op : BitVec 3 := 0
  /-- The command that runs while BUSY is 1; OP may be written meanwhile. -/
  runOp : BitVec 3 := 0
  busy : Bool := false
  res : BitVec 3 := 0
  role : Role := .solo
  side : Bool := false
  /-- The role a SPLIT part had before (R648). -/
  former : Role := .solo
  copy : Bool := false
  link : Bool := false
  /-- The parts have exchanged roles since reset (R637). -/
  met : Bool := false
  pdnSeen : Bool := false
  hold : Bool := false
  err : Bool := false
  lanes : W16 := 0
  degrades : Byte := 0
  committed : Nat := 0
  ver : Nat := 0
  promo : Nat := 0
  txbBase : BitVec 24 := 0
  txbSize : BitVec 8 := 4
  rxbBase : BitVec 24 := 0
  rxbSize : BitVec 8 := 4
  mreg : W64 := 0
  replays : W16 := 0
  splits : Byte := 0
  promos : Byte := 0
  /-- Signals (R634): QF_PRSNT_N asserted, and QF_PDN_OUT high. -/
  prsnt : Bool := false
  pdnOut : Bool := false
  /-- A PAIR_ACTIVE or PAIR_STANDBY that waits for the peer: its OP, and when it was issued (R638). -/
  waiting : Option (Nat × Nat) := none
  /-- The peer's pairing command: its OP, its fingerprint, and when it came. -/
  peerCmd : Option (Nat × List Nat × Nat) := none
  /-- The peer's role, as it was last told (R638). -/
  peerRole : Role := .solo
  /-- Epochs sent and not acknowledged (R643), and whether a SPLIT active still retains them (R648). -/
  tx : List EpochBuf := []
  retain : Bool := true
  /-- Epochs received and not applied (R644). -/
  rx : List EpochBuf := []
  /-- Granules of mirrored regions written since the last snapshot, by DA (R642). -/
  dirty : List Nat := []
  /-- COPY: the epoch that holds the last copy record, whose COMMIT carries FULL (R646). -/
  copyEpoch : Option Nat := none
  swapEpoch : Option Nat := none
  /-- Epochs closed whose COMMIT waits for the cut of R642, and the partitions whose cut is to come. -/
  cutWait : List (Nat × Option Snapshot) := []
  cutParts : List Nat := []
  /-- The mirrored command at the head of the receive buffer: it has been started, its data, and its outcome (R644). -/
  rxRun : Bool := false
  rxData : List Byte := []
  rxOut : Option (BitVec 12 × W64) := none
  /-- A promotion is under way (R647). -/
  promoting : Bool := false
deriving DecidableEq, Repr

/-! ### 19 Integrity -/

/-- What the integrity unit records at a digest snapshot (R675): its EPOCH and TIME, INT_ASN, and the answers of each
partition so far. -/
structure SnapMark where
  epoch : Nat
  time : Nat
  asn : Nat
  part : SMap Nat
deriving DecidableEq, Repr

/-- The integrity unit (R671–R690). -/
structure IntState where
  disagree : Bool := false
  expelled : Bool := false
  tainted : Bool := false
  err : Bool := false
  /-- INT_CTL (R686). -/
  verify : Bool := true
  autoRb : Bool := true
  holdj : Bool := false
  ceLimit : Byte := 0x10
  /-- INT_CMD (R687). -/
  op : BitVec 2 := 0
  busy : Bool := false
  res : BitVec 2 := 0
  ver : Nat := 0
  verLo : W32 := 0
  rb : W64 := 0
  rbOut : BitVec 52 := 0
  asn : Nat := 0
  partAns : SMap Nat := []
  marks : List SnapMark := []
  /-- Models whose verify sweep runs; every model that disagreed, and those not compared, with the EPOCH of the
  disagreeing snapshot (R672, R678). -/
  sweep : List Nat := []
  dis : List Nat := []
  unver : List Nat := []
  badEpoch : Nat := 0
  /-- The part's own verdict and the peer's (R672 step 3). -/
  verdict : Option Bool := none
  peerVerdict : Option Bool := none
  /-- A rollback runs: the epoch it closes first (R679). -/
  rbClosing : Option Nat := none
  /-- Its target V, the records undone, and those of each batch source (R680). -/
  rbTo : Nat := 0
  rbTotal : Nat := 0
  rbSrc : SMap Nat := []
  /-- A rollback waits for the promotion that an expulsion of the peer brings (R673). -/
  rbAuto : Bool := false
deriving DecidableEq, Repr

/-! ### 20 Reset, start-up and boot -/

/-- RSTC_START.STATE (R718). -/
inductive Start where
  | options | clocks | bootWait | booting | power | hbmTrain | fill | clusters | ports | ready | halted | test | retired
deriving DecidableEq, Repr

/-- Unit health (R668), encoded as R829 gives. -/
inductive Health where
  | inService | suspect | retired
deriving DecidableEq, Repr

/-- One unit's health and what is kept for it (R664, R668): the charged fault and correctable-error times. -/
structure UnitHealth where
  health : Health := .inService
  /-- Device time since which a SUSPECT unit has had no charged fault (R668). -/
  since : Nat := 0
  /-- Times of charged faults, latest first. -/
  faults : List Nat := []
  /-- Times of correctable errors, latest first (R664). -/
  ces : List Nat := []
deriving DecidableEq, Repr

/-- The backup domain (R691, R711, R715, R721, R668, R582). -/
structure Backup where
  src : BitVec 4 := 0
  multi : Bool := false
  bakLost : Bool := false
  restarts : Byte := 0
  /-- RSTC_CNT: index 0 TOTAL, else the code of R692. -/
  cnt : SMap W32 := []
  last16 : List FaultRecord := []
  /-- Health of cores, clusters, pairs, lookup units (stack × 32 + n) and update units (stack × 8 + n). -/
  core : SMap UnitHealth := []
  cluster : SMap UnitHealth := []
  pair : SMap UnitHealth := []
  lu : SMap UnitHealth := []
  uu : SMap UnitHealth := []
  /-- VBAK is within tolerance. -/
  vbak : Bool := true
deriving DecidableEq, Repr

/-- The option NVM (R698, R699): two copies and the staging image of R762; bytes by offset, unlisted 0xFF (erased). -/
structure OptNvm where
  copyA : SMap Byte := []
  copyB : SMap Byte := []
  staging : Option (SMap Byte) := none
deriving DecidableEq, Repr

/-- The option block as the loader applied it (R698–R702, R722). -/
structure OptApplied where
  aOk : Bool := false
  bOk : Bool := false
  usedB : Bool := false
  none : Bool := false
  erased : Bool := false
  lifecycle : Byte := 0xFF
  gen : W32 := 0
  /-- The bytes in force (copy A, copy B, or the defaults). -/
  image : SMap Byte := []
deriving DecidableEq, Repr

/-- The strap pins, as they stand (R696, R818). -/
structure Straps where
  boot : BitVec 3 := 0
  clk : BitVec 2 := 0
  pair : Bool := false
  test : Bool := false
deriving DecidableEq, Repr

/-- Reset and start-up (R691–R722). -/
structure ResetState where
  start : Start := .options
  tmoS : Byte := 5
  idleTmo : W32 := 0x000186A0
  rawStraps : Straps := {}
  effStraps : Straps := {}
  ovr : Bool := false
  srcUsed : BitVec 2 := 0
  img : Bool := false
  fail : Bool := false
  rej : BitVec 4 := 0
  svn : W16 := 0
  verified : Bool := false
  hloadAddr : W64 := 0
  hloadLen : BitVec 25 := 0
  hloadBusy : Bool := false
  /-- When the transfer of a boot image began (R705). -/
  xferSince : Option Nat := none
  /-- SPI image A has been rejected, so image B is next (R703). -/
  aRejected : Bool := false
  /-- The start-up timer: when it was armed, less time paused; none while paused or ended (R710). -/
  timerAt : Option Nat := none
  /-- Start-up time already used when the timer was paused in BOOT_WAIT. -/
  timerUsed : Nat := 0
  /-- Successive code 8 restarts (R710). -/
  code8 : Nat := 0
  /-- What holds the device reset: PERST_N low, a thermal trip, an undervolt (R692, R712, R826). -/
  heldPerst : Bool := false
  heldThermal : Bool := false
  heldUv : Bool := false
  /-- When the last device-level source arose, for R694. -/
  lastSrcAt : Option Nat := none
  /-- Idle requests outstanding: block code and when they time out (R709). -/
  idleReqs : SMap Nat := []
  /-- Dies in a compute-die reset (R666, R793), and the time of each die's last reset (R667). -/
  dieRst : List Nat := []
  lastDieRst : SMap Nat := []
  /-- The last partition resets, per partition (R667). -/
  lastPartRst : SMap Nat := []
deriving DecidableEq, Repr

/-! ### 21 Power states -/

/-- P-states of R47, slowest last; the codes of PWR_CTL.PREQ and PWR_STS.PSTATE are R748's and R749's. -/
inductive PState where
  | p0plus | p0 | p1 | p2
deriving DecidableEq, Repr

/-- Power states (R740), encoded in PWR_STS.DSTATE as R749 gives; D3cold and OFF have no register. -/
inductive DState where
  | d0 | d0idle | d3hot | d3cold | off
deriving DecidableEq, Repr

/-- A way down that waits for drains (R740, R765): its next step, the update epoch that must close, and when the drain of
the step is given up. -/
structure Quiesce where
  step : Nat := 0
  epoch : Nat := 0
  due : Nat := 0
deriving DecidableEq, Repr

structure PowerState where
  preq : BitVec 2 := 0
  idle : Bool := false
  capEn : Bool := true
  capW : BitVec 12 := 0x640
  pstate : PState := .p0
  /-- The P-state the steward works toward, and the adjacent one a running ramp leads to (R50, R739). -/
  target : PState := .p0
  ramp : Option PState := none
  dstate : DState := .d0
  capped : Bool := false
  refused : Bool := false
  powerW : W16 := 0
  /-- Consecutive samples over the cap, and since when board power has been below the release level (R739). -/
  overs : Nat := 0
  underSince : Option Nat := none
  /-- A transition to D3hot under way (R740). -/
  d3 : Option Quiesce := none
deriving DecidableEq, Repr

/-! ### 21 Security -/

structure SecState where
  /-- Debug level: 0 NONE, 1 OBSERVE, 2 HALT (R733), and whether a token granted it. -/
  dbg : BitVec 2 := 0
  auth : Bool := false
  dirty : Bool := false
  /-- Open SPDM sessions, by identifier (R725), and those whose FINISH has not come. -/
  sessions : List Nat := []
  halfOpen : List Nat := []
  nonce : W64 := 0
  authFail : Byte := 0
  sessFail : Byte := 0
  /-- A lifecycle change is running (R729). -/
  lcRunning : Bool := false
  /-- SHA-384 of the accepted image's header and payload, and its SVN (R705, R726). -/
  measurement : List Byte := []
  imgSvn : W32 := 0
  /-- The accepted image itself, which a READY part sends its booting peer (R703). -/
  image : List Byte := []
  /-- An Alias certificate has been issued in this start-up (R723). -/
  aliasIssued : Bool := false
  /-- What a debugger has halted (R734): partitions, pairs, the steward. -/
  haltParts : List Nat := []
  haltPairs : List Nat := []
  haltStw : Bool := false
deriving DecidableEq, Repr

/-- Identity NVM and fuses: they survive every reset (R723, R730, R731). -/
structure Identity where
  fleetKey : Option (BitVec 256) := none
  retireFuse : Bool := false
deriving DecidableEq, Repr

/-! ### 22 The steward, the sideband and service -/

/-- HUB_STW.STATE (R770), in the order of its codes. -/
inductive StwState where
  | starting | running | restarting | halted
deriving DecidableEq, Repr

/-- HUB_SVC_STS.DRAIN (R772), in the order of its codes. -/
inductive DrainState where
  | idle | draining | drained
deriving DecidableEq, Repr

/-- A drain (R765): the step it stands at, when its step 4 began, and what the steward has closed and stopped. -/
structure DrainRec where
  step : Nat := 0
  since : Nat := 0
  epoch : Nat := 0
  models : List Nat := []
  parts : List Nat := []
deriving DecidableEq, Repr

/-- The steward, its telemetry, the button and the sideband (R750–R776). -/
structure StewardState where
  st : StwState := .starting
  restarts : Byte := 0
  /-- When the last restarts began, latest first (R753). -/
  starts : List Nat := []
  /-- HUB_SVC_CTL and HUB_SVC_STS. -/
  hostDrain : Bool := false
  locate : Bool := false
  drain : DrainState := .idle
  btn : Bool := false
  refused : Bool := false
  dr : DrainRec := {}
  /-- Partitions that a cancelled drain starts again once they are STOPPED (R766). -/
  again : List Nat := []
  /-- LED_ATTN shows BLIP until this device time (R764, R765). -/
  blip : Option Nat := none
  /-- TEL_CTL and TEL_SHED, and successive windows below 60% (R752). -/
  period : BitVec 10 := 0x64
  evtEn : Bool := true
  level : BitVec 3 := 0
  busy : BitVec 7 := 0
  raises : Byte := 0
  calm : Nat := 0
  /-- Sensor readings by sensor ID (R761), and when they were last sampled. -/
  sensors : SMap W32 := []
  sampledAt : Nat := 0
  /-- The health report as last built (R763). -/
  report : List Byte := []
  /-- A unit has been retired, or a channel has been RETIRED or FAILED, since cold reset (R767). -/
  outSince : Bool := false
  /-- The sideband: I3C mode, bus address, EID and PLDM event receiver (R758–R760). -/
  i3c : Bool := false
  addr : BitVec 7 := 0x4A
  eid : Byte := 0
  evtRecv : Option Byte := none
deriving DecidableEq, Repr

/-- The SPI NOR flash (R703): boot images A and B. It lies outside the part. -/
structure SpiFlash where
  a : List Byte := []
  b : List Byte := []
deriving DecidableEq, Repr

/-! ### 23 Hub globals -/

/-- The hub registers of chapter 23 (R787–R804). -/
structure HubRegs where
  /-- HUB_ID STEP and XR, HUB_REV.ROM and HUB_SERIAL, from fuses (R787–R790). -/
  step : BitVec 4 := 0
  xr : Bool := false
  rom : W16 := 0
  serial : W64 := 0
  /-- HUB_CAP0 CLUSTERS, PAIRS and PAIR_EN, as step 8 of the last start-up set them (R791). -/
  capClusters : BitVec 7 := 0
  capPairs : BitVec 4 := 0
  capPairEn : Bool := false
  /-- GLOBAL_TIMEOUT in ns, and the held LO (R794). -/
  gto : Nat := 100000000
  gtoLo : W32 := 0x05F5E100
  irqSts : W16 := 0
  irqEn : W16 := 0
  irqVec : BitVec 11 := 0
  irqIen : Bool := false
  /-- HUB_ERR_SUM.LOCKED (R800). -/
  locked : Bool := false
  injKind : BitVec 4 := 0
  injTarget : BitVec 12 := 0
  injArm : Bool := false
  injFired : Bool := false
deriving DecidableEq, Repr

/-! ### 24 Supplies and pins -/

/-- The rails and the pins that the part drives (R812–R818), beside QF_PDN_OUT and the pair cable's pins (PairState), the
held PERST_N and thermal trip (ResetState), the button and the LEDs (StewardState). -/
structure Rails where
  /-- In tolerance: the auxiliary rails, and those that MAIN_EN enables. -/
  aux : Bool := true
  main : Bool := true
  /-- Enabled over PMBus: the HBM and HBM PHY rails, and VDD_PSER. -/
  hbm : Bool := false
  pser : Bool := false
  mainEn : Bool := true
  /-- A power-off is in force (R756, R815 step 4). -/
  powerOff : Bool := false
  /-- The VDD_CORE setpoint in mV (R47, R815). -/
  vddMv : Nat := 750
  /-- AQ_PERST_N of slots 0 to 7, high where 1. -/
  aqPerstN : Byte := 0
deriving DecidableEq, Repr

/-! ### The machine -/

/-- The whole block. -/
structure State where
  time : TimeBase := {}
  pace : SMap Pace := []
  /-- RSTC, backup domain, option NVM and what the loader applied. -/
  rst : ResetState := {}
  bak : Backup := {}
  nvm : OptNvm := {}
  opt : OptApplied := {}
  /-- Strap pins as they stand. -/
  straps : Straps := {}
  hub : HubRegs := {}
  /-- HI latches, by access path × 2^28 + CSR offset of the HI register (R781). -/
  latch : SMap W32 := []
  mem : Memory := {}
  regions : SMap Region := []
  mc : SMap McRegs := []
  /-- Channels by stack × 32 + channel. -/
  ch : SMap Channel := []
  cx : SMap CxStack := []
  /-- The master copy of the codebooks (R160). -/
  cbk : SMap Codebook := []
  host : HostState := {}
  rsv : SMap RsvRange := []
  tda : Tda := {}
  drains : SMap Drain := []
  /-- Map heap allocations of each table: offset in the store and length (R210). -/
  heap : SMap (Nat × Nat) := []
  upd : UpdState := {}
  uu : SMap UuStack := []
  int : IntState := {}
  pl : PairState := {}
  pwr : PowerState := {}
  sec : SecState := {}
  ident : Identity := {}
  stw : StewardState := {}
  spi : SpiFlash := {}
  rails : Rails := {}
  bd : Basin := {}
  aq : Aquifer := {}
  late : LateRegs := {}
  lk : Lookup := {}
  sc : Sched := {}
  co : Cores := {}
  cc : CcState := {}
  queues : SMap Queue := []
  faults : FaultStore := {}
  /-- What has left the part, oldest first. -/
  out : List OutMsg := []
  /-- The MODEL's own counter that free values are drawn with (no state of the spec's). -/
  freeCtr : Nat := 0
  /-- Commands waiting, first in, first out. -/
  pending : List Instr := []
deriving DecidableEq, Repr

/-- The machine right after reset: every field at the value its declaration gives, with nothing queued. -/
def State.reset : State := {}

abbrev Res := Host.Outcome State Fault Refusal

end Sys2Proof.Machine
end

