-- ==== Sys2Proof/Machine/Codec.lean ====
section
/-! DEFINITION. The exponent coder as pure functions of bytes (05, R157–R162, R168): symbol classes, canonical
codes, encoding and decoding of a 512 B compression block, and the census's code lengths. -/
namespace Sys2Proof.Machine
open Sys2Proof

/-- A symbol class of R157: element width in bytes, lowest bit of the symbol field, and its width in bits. -/
structure SymClass where
  width : Nat
  lo : Nat
  bits : Nat
deriving DecidableEq, Repr

/-- The classes of R157; 6 to 15 are reserved. -/
def symClass : Nat → Option SymClass
  | 0 => some ⟨4, 23, 8⟩
  | 1 => some ⟨2, 7, 8⟩
  | 2 => some ⟨2, 10, 5⟩
  | 3 => some ⟨1, 3, 4⟩
  | 4 => some ⟨1, 2, 5⟩
  | 5 => some ⟨1, 4, 4⟩
  | _ => none

/-- Symbol count of a class. -/
def SymClass.symbols (c : SymClass) : Nat := 2 ^ c.bits

/-- Elements in a 512 B block. -/
def SymClass.elems (c : SymClass) : Nat := 512 / c.width

/-- Raw bits of one element. -/
def SymClass.rawBits (c : SymClass) : Nat := 8 * c.width - c.bits

/-- Bytes of the raw section (R157). -/
def SymClass.rawBytes (c : SymClass) : Nat := c.elems * c.rawBits / 8

/-- The symbol of an element. -/
def SymClass.symbol (c : SymClass) (e : Nat) : Nat := e / 2 ^ c.lo % 2 ^ c.bits

/-- The raw bits of an element, in order from the most significant down, as a number. -/
def SymClass.raw (c : SymClass) (e : Nat) : Nat := e / 2 ^ (c.lo + c.bits) * 2 ^ c.lo + e % 2 ^ c.lo

/-- An element from its symbol and raw bits. -/
def SymClass.join (c : SymClass) (sym raw : Nat) : Nat :=
  raw / 2 ^ c.lo * 2 ^ (c.lo + c.bits) + sym * 2 ^ c.lo + raw % 2 ^ c.lo

/-- The elements of a byte list, read little-endian. -/
def elemsOf (w : Nat) : Nat → List Byte → List Nat
  | 0, _ => []
  | n + 1, bs => leNat (bs.take w) :: elemsOf w n (bs.drop w)

/-- The low `n` bits of a value, most significant first. -/
def msbBits : Nat → Nat → List Bool
  | 0, _ => []
  | n + 1, v => (v / 2 ^ n % 2 == 1) :: msbBits n v

/-- The value of bits, most significant first. -/
def ofMsbBits (bs : List Bool) : Nat :=
  bs.foldl (fun a b => 2 * a + (if b then 1 else 0)) 0

/-- Bytes of a bit stream: bit n is bit 7 − (n mod 8) of byte n ÷ 8 (R158); the last byte is filled with zeros. -/
def packBits : Nat → List Bool → List Byte
  | 0, _ => []
  | n + 1, bs =>
    let h := bs.take 8
    BitVec.ofNat 8 (ofMsbBits (h ++ List.replicate (8 - h.length) false)) :: packBits n (bs.drop 8)

/-- The bit stream of bytes (R158). -/
def unpackBits (bs : List Byte) : List Bool :=
  bs.flatMap fun b => msbBits 8 b.toNat

/-- Symbols of a codebook with their lengths, sorted by length and then by symbol (R162). -/
def sortedSymbols (lens : List Nat) : List (Nat × Nat) :=
  (List.range' 1 11).flatMap fun l =>
    ((List.range lens.length).filter fun s => listGet 0 lens s == l).map fun s => (l, s)

/-- Canonical codes (R162): (length, code, symbol) for each coded symbol. -/
def codesFrom (len code : Nat) : List (Nat × Nat) → List (Nat × Nat × Nat)
  | [] => []
  | (l, s) :: rest =>
    let c := code * 2 ^ (l - len)
    (l, c, s) :: codesFrom l (c + 1) rest

def canonicalCodes (lens : List Nat) : List (Nat × Nat × Nat) :=
  match sortedSymbols lens with
  | [] => []
  | (l, s) :: rest => (l, 0, s) :: codesFrom l 1 rest

/-- The code bits of a symbol. -/
def codeOf (codes : List (Nat × Nat × Nat)) (s : Nat) : List Bool :=
  match codes.find? (fun e => e.2.2 == s) with
  | some (l, c, _) => msbBits l c
  | none => []

/-- Match the shortest prefix that is a code (R162). -/
def matchCode (codes : List (Nat × Nat × Nat)) (bs : List Bool) : Option (Nat × List Bool) :=
  match codes.find? (fun e => decide (e.1 ≤ bs.length) && ofMsbBits (bs.take e.1) == e.2.1) with
  | some (l, _, s) => some (s, bs.drop l)
  | none => none

/-- Decode `n` symbols; none where a bit pattern matches no code or the bits run out. -/
def decodeSymbols (codes : List (Nat × Nat × Nat)) : Nat → List Bool → Option (List Nat × List Bool)
  | 0, bs => some ([], bs)
  | n + 1, bs =>
    match matchCode codes bs with
    | none => none
    | some (s, bs') =>
      match decodeSymbols codes n bs' with
      | none => none
      | some (ss, r) => some (s :: ss, r)

/-- Encode 512 bytes with codebook `idx` (R158, R159): the sector count 1 to 7 and that many sectors of bytes;
none where the codebook is not usable or the encoding exceeds 7 sectors. -/
def encodeBlock (idx : Nat) (cb : Codebook) (bs : List Byte) : Option (Nat × List Byte) :=
  match symClass cb.cls.toNat with
  | none => none
  | some c =>
    if cb.valid then
      let es := elemsOf c.width c.elems bs
      let codes := canonicalCodes cb.lens
      let sym := es.flatMap fun e => codeOf codes (c.symbol e)
      let total := 4 + c.rawBytes + (sym.length + 7) / 8
      let l := (total + 63) / 64
      if l ≤ 7 then
        some (l, leBytes 2 (idx % 4096 + 4096 * cb.cls.toNat) ++ [0, 0]
          ++ packBits c.rawBytes (es.flatMap fun e => msbBits c.rawBits (c.raw e))
          ++ packBits (64 * l - 4 - c.rawBytes) sym)
      else none
    else none

/-- Rebuild elements from symbols and the raw bit stream. -/
def joinElems (c : SymClass) : List Nat → List Bool → List Byte
  | [], _ => []
  | s :: ss, raw =>
    leBytes c.width (c.join s (ofMsbBits (raw.take c.rawBits))) ++ joinElems c ss (raw.drop c.rawBits)

/-- The codebook index in the header of an encoded block. -/
def headerCbk (bs : List Byte) : Nat := leAt bs 0 2 % 4096

/-- Decode the first `l` sectors of an encoded block (R158, R176); none where the block fails to decode. -/
def decodeBlock (cbks : SMap Codebook) (l : Nat) (bs : List Byte) : Option (List Byte) :=
  let h := leAt bs 0 2
  let cb := cbks.get {} (h % 4096)
  match symClass cb.cls.toNat with
  | none => none
  | some c =>
    if leAt bs 2 2 = 0 ∧ h / 4096 = cb.cls.toNat ∧ cb.valid = true then
      let raw := unpackBits ((bs.drop 4).take c.rawBytes)
      let sym := unpackBits ((bs.drop (4 + c.rawBytes)).take (64 * l - 4 - c.rawBytes))
      match decodeSymbols (canonicalCodes cb.lens) c.elems sym with
      | none => none
      | some (ss, rest) => if rest.all (· == false) then some (joinElems c ss raw) else none
    else none

/-- The installable records of R161. -/
def Codebook.installable (cb : Codebook) : Bool :=
  match symClass cb.cls.toNat with
  | none => false
  | some c =>
    (List.range 256).all (fun s =>
      let n := listGet 0 cb.lens s
      if s < c.symbols then decide (1 ≤ n ∧ n ≤ 11) else n == 0)
    && decide (((List.range c.symbols).map fun s => 2 ^ (11 - listGet 0 cb.lens s)).sum ≤ 2048)

/-- A codebook record's 256 bytes (R160). -/
def Codebook.bytes (cb : Codebook) : List Byte :=
  [cb.cls.setWidth 8, if cb.valid then 1 else 0] ++ List.replicate 14 0
  ++ (List.range 128).map (fun i =>
      BitVec.ofNat 8 (listGet 0 cb.lens (2 * i) + 16 * listGet 0 cb.lens (2 * i + 1)))
  ++ List.replicate 112 0

/-- The record that 256 bytes spell, and whether every reserved byte and bit is zero (R160, R161). -/
def codebookOf (bs : List Byte) : Codebook × Bool :=
  let b0 := (listGet 0 bs 0)
  let b1 := (listGet 0 bs 1)
  ({ cls := b0.setWidth 4, valid := b1.getLsbD 0,
     lens := (List.range 256).map fun s =>
       let b := (listGet 0 bs (16 + s / 2)).toNat
       if s % 2 = 0 then b % 16 else b / 16 },
   b0.toNat / 16 == 0 && b1.toNat / 2 == 0 && ((bs.drop 2).take 14).all (· == 0)
     && ((bs.drop 144).take 112).all (· == 0))

/-! Code lengths from counts (R168). -/

/-- A Huffman node: weight, key, and the leaves below it. -/
structure HuffNode where
  weight : Nat
  key : Nat
  leaves : List Nat
deriving DecidableEq, Repr

/-- Insert a node in order of (weight, key). -/
def huffInsert (x : HuffNode) : List HuffNode → List HuffNode
  | [] => [x]
  | y :: ys =>
    if x.weight < y.weight ∨ (x.weight = y.weight ∧ x.key < y.key) then x :: y :: ys
    else y :: huffInsert x ys

/-- Join the two smallest nodes until one remains; every leaf under a joined node grows one deeper. -/
def huffLoop : Nat → Nat → List HuffNode → List Nat → List Nat
  | 0, _, _, lens => lens
  | fuel + 1, key, ns, lens =>
    match ns with
    | a :: b :: rest =>
      let ls := a.leaves ++ b.leaves
      huffLoop fuel (key + 1) (huffInsert ⟨a.weight + b.weight, key, ls⟩ rest)
        (ls.foldl (fun l s => listSet l s (listGet 0 l s + 1)) lens)
    | _ => lens

/-- Lengthen codes until the Kraft sum is at most 2,048 (R168). -/
def huffLimit : Nat → Nat → List Nat → Nat × List Nat
  | 0, k, lens => (k, lens)
  | fuel + 1, k, lens =>
    if k ≤ 2048 then (k, lens)
    else
      let best := (List.range lens.length).foldl (fun (o : Option Nat) s =>
        if listGet 0 lens s < 11 then
          match o with
          | none => some s
          | some t => if listGet 0 lens t ≤ listGet 0 lens s then some s else some t
        else o) none
      match best with
      | none => (k, lens)
      | some s => huffLimit fuel (k - 2 ^ (10 - listGet 0 lens s)) (listSet lens s (listGet 0 lens s + 1))

/-- Shorten one symbol's code while slack remains (R168). -/
def huffShorten : Nat → Nat → Nat → Nat × Nat
  | 0, k, l => (k, l)
  | fuel + 1, k, l =>
    if 1 < l ∧ k + 2 ^ (11 - l) ≤ 2048 then huffShorten fuel (k + 2 ^ (11 - l)) (l - 1) else (k, l)

/-- Symbols in order of decreasing weight, ties to the smallest symbol. -/
def weightInsert (w : List Nat) (s : Nat) : List Nat → List Nat
  | [] => [s]
  | t :: ts => if listGet 0 w t < listGet 0 w s then s :: t :: ts else t :: weightInsert w s ts

/-- Code lengths for a class of `n` symbols from their counts (R168); the other symbols of the 256 get 0. -/
def deriveLens (n : Nat) (counts : List Nat) : List Nat :=
  let w := (List.range n).map fun s => listGet 0 counts s + 1
  let leaves := (List.range n).foldl (fun ns s => huffInsert ⟨listGet 0 w s, s, [s]⟩ ns) []
  let l0 := (huffLoop n n leaves (List.replicate n 0)).map (min · 11)
  let k0 := (l0.map fun l => 2 ^ (11 - l)).sum
  let (k1, l1) := huffLimit (11 * n) k0 l0
  let order := (List.range n).foldl (fun o s => weightInsert w s o) []
  let (_, l2) := order.foldl (fun (a : Nat × List Nat) s =>
    let (k, l) := huffShorten 11 a.1 (listGet 0 a.2 s)
    (k, listSet a.2 s l)) (k1, l1)
  l2 ++ List.replicate (256 - n) 0

end Sys2Proof.Machine
end

