-- ==== Sys2Proof/Machine/Mem.lean ====
section
/-! DEFINITION. Memory: its cells, poison, and the path from a device address to a place (04, R119–R131, R137–R139;
05, R153–R176; R828). Every access of every unit goes through `State.readDA` and `State.writeDA`. -/
namespace Sys2Proof.Machine
open Sys2Proof

/-! ### Cells -/

/-- The byte at a place; an unlisted place reads 0 (R118). -/
def cellGet : List Host.Cell → Nat → Byte
  | [], _ => 0
  | (k, v) :: m, a => if k = a then v else cellGet m a

/-- Write one byte, keeping places strictly rising and no zero byte listed. -/
def cellSet : List Host.Cell → Nat → Byte → List Host.Cell
  | [], a, b => if b = 0 then [] else [(a, b)]
  | (k, v) :: m, a, b =>
    if a < k then (if b = 0 then (k, v) :: m else (a, b) :: (k, v) :: m)
    else if a = k then (if b = 0 then m else (a, b) :: m)
    else (k, v) :: cellSet m a b

/-- Insert a number into a rising list without repeats. -/
def setInsert : List Nat → Nat → List Nat
  | [], a => [a]
  | k :: m, a => if a < k then a :: k :: m else if a = k then k :: m else k :: setInsert m a

/-- Places strictly rising, above a bound, and no byte equal to what an unlisted place reads as. -/
def cellsWfFrom : Option Nat → List Host.Cell → Bool
  | _, [] => true
  | lo, (k, v) :: m =>
    (match lo with | none => true | some b => decide (b < k)) && decide (v ≠ 0) && cellsWfFrom (some k) m

/-- The canonical form of memory's cells. -/
def Memory.wf (m : Memory) : Bool := cellsWfFrom none m.cells

/-- Write bytes at consecutive places. -/
def cellsWrite (m : List Host.Cell) (a : Nat) : List Byte → List Host.Cell
  | [] => m
  | b :: bs => cellsWrite (cellSet m a b) (a + 1) bs

/-- Read `n` bytes from consecutive places. -/
def cellsRead (m : List Host.Cell) (a n : Nat) : List Byte :=
  (List.range n).map fun i => cellGet m (a + i)

def Memory.writeCells (m : Memory) (a : Nat) (bs : List Byte) : Memory :=
  { m with cells := cellsWrite m.cells a bs }

def Memory.setPoison (m : Memory) (a : Nat) : Memory :=
  { m with poison := setInsert m.poison (a / 64) }

def Memory.clearPoison (m : Memory) (a : Nat) : Memory :=
  { m with poison := m.poison.filter (· != a / 64) }

def Memory.poisoned (m : Memory) (a : Nat) : Bool := m.poison.contains (a / 64)

/-! ### Places -/

/-- The end of the flat places of HBM cells: twelve stacks of 64 pseudo-channels of 1 GiB. -/
abbrev hbmEnd : Nat := 0xC000000000
/-- The reservoir window's first DA (R30). -/
abbrev rsvBase : Nat := 0x1000000000000
/-- The first cistern and core-store DAs (R30). -/
abbrev cisternBase : Nat := 0x10000000000
abbrev coreStoreBase : Nat := 0x10100000000
abbrev mib : Nat := 1048576

/-- Region n (R119). -/
def State.region (s : State) (n : Nat) : Region := s.regions.get {} n

/-- First DA of a region (R147). -/
def Region.daBase (r : Region) : Nat := r.base.toNat * 2 ^ 28

/-- Blocks of a region's DA range: a compressible region's last block is its tag block (R153). -/
def Region.dataBlocks (r : Region) : Nat := r.nblocksM1.toNat + (if r.comp then 0 else 1)

/-- Bytes of a region's DA range (R120, R153). -/
def Region.size (r : Region) : Nat :=
  r.dataBlocks * (if r.placed then 256 * mib else 3072 * mib)

/-- Interleave granule in bytes (R121). -/
def Region.granule (r : Region) : Nat := if r.gran16 then 16384 else 4096

/-- The fold of R121. -/
def pcFold (q : Nat) : Nat := (q % 64) ^^^ (q / 64 % 64) ^^^ (q / 4096 % 64) ^^^ (q / 262144 % 64)

/-- Where a DA of the region lies (R121): stack, channel × 2 + pseudo-channel, and byte in the pseudo-channel. -/
def Region.locate (r : Region) (da : Nat) : Nat × Nat × Nat :=
  let o := da - r.daBase
  let g := o / r.granule
  let off := o % r.granule
  let stack := if r.placed then r.stack.toNat else g % 12
  let q := if r.placed then g else g / 12
  (stack, pcFold q, r.firstBlock.toNat * (4 * mib) + q / 64 * r.granule + off)

/-- The flat place of a byte of a pseudo-channel, through the block redirects (R137, R140). -/
def Memory.flat (m : Memory) (stack pcx addr : Nat) : Nat :=
  let id := (stack * 64 + pcx) * 256 + addr / (4 * mib)
  m.redirect.get id id * (4 * mib) + addr % (4 * mib)

/-- The enabled region that holds a basin DA. -/
def State.regionOf (s : State) (da : Nat) : Option Nat :=
  firstBelow 64 fun n =>
    let r := s.region n
    r.en && decide (r.daBase ≤ da ∧ da < r.daBase + r.size)

/-- The channel of a flat HBM place. -/
def flatChannel (a : Nat) : Nat := a / 2 ^ 31

/-- The stack of a flat HBM place. -/
def flatStack (a : Nat) : Nat := a / 2 ^ 36

/-- Channel `c` of stack `st`, by stack × 32 + channel. -/
def State.chan (s : State) (i : Nat) : Channel := s.ch.get {} i

/-- A write to a flat sector is accepted: waiting reads and write-backs of it note that (R129, R145). -/
def State.noteWrite (s : State) (a : Nat) : State :=
  if (s.chan (flatChannel a)).reads.isEmpty then s
  else
    let c := s.chan (flatChannel a)
    let note := fun (r : HbmRead) =>
      { r with written := setInsert r.written (a / 64) }
    { s with ch := s.ch.set (flatChannel a) { c with reads := c.reads.map note } }

/-- A FAILED channel reads poison and discards writes (R139). -/
def State.flatFailed (s : State) (a : Nat) : Bool := (s.chan (flatChannel a)).st == .failed

/-- A declared reservoir range holds the HPA (R269). -/
def State.rsvHolds (s : State) (hpa : Nat) : Bool :=
  (List.range 64).any fun n =>
    let r := s.rsv.get {} n
    r.v && decide (r.hpa ≤ hpa ∧ hpa < r.hpa + r.len)

/-- What kind of place a DA names (R30, R828). -/
inductive Place where
  | basin (region : Nat)
  | cistern (cluster : Nat)
  | coreStore (core : Nat)
  | host
  | unmapped
deriving DecidableEq, Repr

def State.place (s : State) (da : Nat) : Place :=
  if da < 0xC000000000 then
    match s.regionOf da with
    | some n => .basin n
    | none => .unmapped
  else if cisternBase ≤ da ∧ da < cisternBase + 100 * (8 * mib) then .cistern ((da - cisternBase) / (8 * mib))
  else if coreStoreBase ≤ da ∧ da < coreStoreBase + 1200 * mib then .coreStore ((da - coreStoreBase) / mib)
  else if rsvBase ≤ da ∧ da < 2 * rsvBase ∧ s.rsvHolds (da - rsvBase) then .host
  else .unmapped

/-- A DA is unmapped (R828). -/
def State.unmapped (s : State) (da : Nat) : Bool := s.place da == .unmapped

/-- Some byte of a range is unmapped; ranges are checked per 64 B line, since every mapped area is made of whole
lines. -/
def State.rangeUnmapped (s : State) (da n : Nat) : Bool :=
  n != 0 && (List.range ((da + n - 1) / 64 + 1 - da / 64)).any fun i => s.unmapped ((da / 64 + i) * 64)

/-- The table store's DA range (R216, R217). -/
def State.storeBase (s : State) : Nat := s.tda.baseHi.toNat * 2 ^ 32 + s.tda.baseLo.toNat * 2 ^ 24
def State.storeSize (s : State) : Nat := s.tda.size.toNat * (16 * mib)

/-- A DA lies in the enabled table store (R187). -/
def State.inStore (s : State) (da : Nat) : Bool :=
  s.tda.en && decide (s.storeBase ≤ da ∧ da < s.storeBase + s.storeSize)

/-! ### Compression blocks (R153–R159, R173, R175, R176) -/

/-- The flat places of the block and of its tag byte, and whether the tag is the high half, for a DA of a
compressible region. -/
def State.blockPlace (s : State) (r : Region) (da : Nat) : Nat × Nat × Bool :=
  let (st, pcx, addr) := r.locate da
  let rel := addr - r.firstBlock.toNat * (4 * mib)
  let j := rel / 512
  let tagAddr := (r.firstBlock.toNat + r.nblocksM1.toNat) * (4 * mib) + j / 2
  (s.mem.flat st pcx (addr / 512 * 512), s.mem.flat st pcx tagAddr, j % 2 == 1)

/-- The tag of a block (R154). -/
def Memory.tagAt (m : Memory) (tagPlace : Nat) (hi : Bool) : Nat :=
  let b := (cellGet m.cells tagPlace).toNat
  if hi then b / 16 else b % 16

def Memory.setTag (m : Memory) (tagPlace : Nat) (hi : Bool) (t : Nat) : Memory :=
  let b := (cellGet m.cells tagPlace).toNat
  let b' := if hi then t * 16 + b % 16 else b / 16 * 16 + t
  { m with cells := cellSet m.cells tagPlace (BitVec.ofNat 8 b') }

/-- A whole 512 B block as a reader gets it (R173): none is poison. -/
def State.readBlock (s : State) (place tagPlace : Nat) (hi : Bool) : Option (List Byte) :=
  match s.mem.tagAt tagPlace hi with
  | 0 => some (List.replicate 512 0)
  | 8 => some (cellsRead s.mem.cells place 512)
  | t => if 1 ≤ t ∧ t ≤ 7 then decodeBlock s.cbk t (cellsRead s.mem.cells place (64 * t)) else none

/-- The codebook whose use count a stored block holds (R164). -/
def State.blockCbk (s : State) (place tagPlace : Nat) (hi : Bool) : Option Nat :=
  let t := s.mem.tagAt tagPlace hi
  if 1 ≤ t ∧ t ≤ 7 then some (headerCbk (cellsRead s.mem.cells place 2)) else none

/-- Change a stack's coder record. -/
def State.updCx (s : State) (st : Nat) (f : CxStack → CxStack) : State :=
  { s with cx := s.cx.upd {} st f }

/-- Move the use counts of a stack from the block's old codebook to its new one (R164). -/
def CxStack.recount (c : CxStack) (old new : Option Nat) : CxStack :=
  let u1 := match old with | some i => c.use.upd 0 i (· - 1) | none => c.use
  let u2 := match new with | some i => u1.upd 0 i (· + 1) | none => u1
  { c with use := u2 }

/-- Set a block's tag and its stored bytes, with the use counts (R159, R164). -/
def State.storeBlock (s : State) (place tagPlace : Nat) (hi : Bool) (tag : Nat) (bytes : List Byte)
    (new : Option Nat) : State :=
  let old := s.blockCbk place tagPlace hi
  let m := (s.mem.writeCells place bytes).setTag tagPlace hi tag
  let noted := (List.range (bytes.length / 64)).foldl (fun st i => st.noteWrite (place + 64 * i)) { s with mem := m }
  noted.updCx (flatStack place) (·.recount old new)

/-- Codebook i of the master copy (R160). -/
def State.codebook (s : State) (i : Nat) : Codebook := s.cbk.get {} i

/-- The codebook chosen for a write (R169): the one named, else the region's default, when VALID. -/
def State.chooseCbk (s : State) (r : Region) (named : Option Nat) : Option Nat :=
  let c := match named with
    | some i => some i
    | none => if r.defV then some r.defCbk.toNat else none
  match c with
  | some i => if (s.codebook i).valid then some i else none
  | none => none

/-- Store a whole block's new bytes (R159). -/
def State.compressBlock (s : State) (r : Region) (named : Option Nat) (place tagPlace : Nat) (hi : Bool)
    (bs : List Byte) : State :=
  if bs.all (· == 0) then s.storeBlock place tagPlace hi 0 [] none
  else
    match (s.chooseCbk r named).bind fun i => (encodeBlock i (s.codebook i) bs).map fun e => (i, e) with
    | some (i, l, enc) => s.storeBlock place tagPlace hi l enc (some i)
    | none =>
      (s.storeBlock place tagPlace hi 8 bs none).updCx (flatStack place) fun c => { c with rawBig := satInc c.rawBig }

/-- Poison a block: its tag becomes 15, its sectors stay (R175). -/
def State.poisonBlock (s : State) (place tagPlace : Nat) (hi : Bool) : State :=
  s.storeBlock place tagPlace hi 15 [] none

/-- Write bytes at an offset of a block (R170, R175): poisoned data poisons it, a whole block replaces it, and a
part of a poisoned or undecodable block is discarded. -/
def State.writeBlock (s : State) (r : Region) (named : Option Nat) (da off : Nat) (bs : List Byte) (poison : Bool) :
    State :=
  let (place, tp, hi) := s.blockPlace r da
  if s.flatFailed place then s
  else if poison then s.poisonBlock place tp hi
  else if bs.length = 512 then s.compressBlock r named place tp hi bs
  else
    match s.readBlock place tp hi with
    | none => if s.mem.tagAt tp hi = 15 then s else s.poisonBlock place tp hi
    | some old => s.compressBlock r named place tp hi (old.take off ++ bs ++ old.drop (off + bs.length))

/-! ### Reads and writes by device address -/

/-- What a read returns: its bytes, whether any of them is poisoned, and whether any is unmapped. -/
structure Rd where
  data : List Byte := []
  poison : Bool := false
  unmapped : Bool := false
deriving DecidableEq, Repr

/-- The flat place of a mapped, uncompressed DA. -/
def State.flatOf (s : State) (da : Nat) : Nat :=
  match s.place da with
  | .basin n =>
    let (st, pcx, addr) := (s.region n).locate da
    s.mem.flat st pcx addr
  | _ => da

/-- The device can reach host memory over CXL.cache now (R592, R617, R620). -/
def State.hostReach (s : State) : Bool := s.host.up && s.host.cxl && (s.host.funcs.get {} 0).bme && !s.host.ideHold

/-- The host line cache holds the line of an HPA (R605). -/
def State.hlcHeld (s : State) (hpa : Nat) : Bool :=
  match s.host.hlc.find (hpa / 64) with
  | some l => !l.superseded
  | none => false

/-- Read `n` bytes that lie within one 64 B line. -/
def State.readLine (s : State) (da n : Nat) : Rd :=
  match s.place da with
  | .unmapped => { data := List.replicate n 0, unmapped := true }
  | .basin k =>
    let r := s.region k
    if r.comp then
      let (place, tp, hi) := s.blockPlace r da
      if s.flatFailed place then { data := List.replicate n 0, poison := true }
      else
        match s.readBlock place tp hi with
        | none => { data := List.replicate n 0, poison := true }
        | some bs => { data := (bs.drop (da % 512)).take n }
    else
      let a := s.flatOf da
      { data := cellsRead s.mem.cells a n, poison := s.flatFailed a || s.mem.poisoned a }
  | .host =>
    { data := cellsRead s.mem.cells da n
      poison := s.mem.poisoned da || !(s.hostReach || s.hlcHeld (da - rsvBase)) }
  | _ => { data := cellsRead s.mem.cells da n, poison := s.mem.poisoned da }

/-- The pieces of a range cut at multiples of `g`: (start, length), at most `k` of them. -/
def pieces (g : Nat) : Nat → Nat → Nat → List (Nat × Nat)
  | 0, _, _ => []
  | k + 1, a, n =>
    if n = 0 then []
    else
      let l := min n (g - a % g)
      (a, l) :: pieces g k (a + l) (n - l)

/-- Read `n` bytes from a DA (R124, R130, R173). -/
def State.readDA (s : State) (da n : Nat) : Rd :=
  (pieces 64 (n / 64 + 2) da n).foldl (fun acc p =>
    let l := s.readLine p.1 p.2
    { data := acc.data ++ l.data, poison := acc.poison || l.poison, unmapped := acc.unmapped || l.unmapped }) {}

/-- A read that must succeed: the bytes, or none where any is unmapped or poisoned. -/
def Rd.clean (r : Rd) : Bool := !r.poison && !r.unmapped

/-- Write bytes within one 64 B line of uncompressed memory (R131). -/
def State.writeFlatLine (s0 : State) (a : Nat) (bs : List Byte) (poison : Bool) : State :=
  let s := if a < 0xC000000000 then s0.noteWrite a else s0
  if a < 0xC000000000 ∧ s.flatFailed a = true then s
  else if poison then { s with mem := s.mem.setPoison a }
  else if bs.length = 64 then { s with mem := (s.mem.writeCells a bs).clearPoison a }
  else if s.mem.poisoned a then s
  else { s with mem := s.mem.writeCells a bs }

/-- A write to a block of a cistern clears the block's model-cache tag (R528). -/
def State.clearTag (s : State) (cluster blk : Nat) : State :=
  { s with sc := { s.sc with tags := s.sc.tags.del (cluster * 128 + blk) } }

/-- A write to a mirrored region marks its granule (R642). -/
def State.noteDirty (s : State) (region da : Nat) : State :=
  if s.pl.mreg.getLsbD region && (s.pl.role == .active || s.pl.role == .split) then
    { s with pl := { s.pl with dirty := setInsert s.pl.dirty (da / 4096) } }
  else s

/-- Write bytes to a mapped DA within one 512 B block (in a compressible region) or one line (elsewhere). -/
def State.writePiece (s : State) (named : Option Nat) (da : Nat) (bs : List Byte) (poison : Bool) : State :=
  match s.place da with
  | .unmapped => s
  | .basin k =>
    let r := s.region k
    let s1 := s.noteDirty k da
    if r.comp then s1.writeBlock r named da (da % 512) bs poison
    else s1.writeFlatLine (s1.flatOf da) bs poison
  | .cistern c => (s.writeFlatLine da bs poison).clearTag c ((da - cisternBase) % (8 * mib) / 65536)
  | _ => s.writeFlatLine da bs poison

/-- The piece size of a DA: a compression block where its region is compressible, else a line. -/
def State.pieceSize (s : State) (da : Nat) : Nat :=
  match s.place da with
  | .basin k => if (s.region k).comp then 512 else 64
  | _ => 64

/-- Write bytes to a DA, naming a codebook or none (R131, R159, R169, R170); unmapped pieces are dropped, callers
having checked them. -/
def State.writeDAWith (s : State) (named : Option Nat) (da : Nat) (bs : List Byte) (poison : Bool := false) : State :=
  let g := s.pieceSize da
  (pieces g (bs.length / g + 2) da bs.length).foldl (fun st p =>
    st.writePiece named p.1 ((bs.drop (p.1 - da)).take p.2) poison) s

def State.writeDA (s : State) (da : Nat) (bs : List Byte) (poison : Bool := false) : State :=
  s.writeDAWith none da bs poison

/-- The redirect's source of a flat block (R137), or the block itself. -/
def Memory.unredirect (m : Memory) (blk : Nat) : Nat :=
  match m.redirect.find? fun kv => kv.2 == blk with
  | some kv => kv.1
  | none => blk

/-- The DA that an uncompressed flat place of an enabled region serves: R121 turned about. -/
def State.daOfFlat (s : State) (a : Nat) : Option Nat :=
  let id := s.mem.unredirect (a / (4 * mib))
  let stack := id / (256 * 64)
  let pcx := id / 256 % 64
  let addr := id % 256 * (4 * mib) + a % (4 * mib)
  (List.range 64).findSome? fun n =>
    let r := s.region n
    let first := r.firstBlock.toNat * (4 * mib)
    if r.en ∧ (!r.placed ∨ r.stack.toNat = stack) ∧ first ≤ addr ∧ addr < first + r.dataBlocks * (4 * mib) then
      let loc := (addr - first) / r.granule
      let q := loc * 64 + (pcx ^^^ (loc % 64) ^^^ (loc / 64 % 64) ^^^ (loc / 4096 % 64))
      let g := if r.placed then q else q * 12 + stack
      some (r.daBase + g * r.granule + addr % r.granule)
    else none

/-- Zero a range of uncompressed basin memory, which also clears its poison (R131, R216, R253). -/
def State.zeroRange (s : State) (da n : Nat) : State :=
  let keep := fun (a : Nat) => !(decide (a < 0xC000000000) &&
    (match s.daOfFlat a with | some d => decide (da ≤ d ∧ d < da + n) | none => false))
  { s with mem := { s.mem with
      cells := s.mem.cells.filter fun kv => keep kv.1
      poison := s.mem.poison.filter fun l => keep (64 * l) } }

/-- A write to the range would be rejected: unmapped, or into the table store (R119, R187). -/
def State.writeBarred (s : State) (da n : Nat) : Bool :=
  s.rangeUnmapped da n || (n != 0 && (List.range ((da + n - 1) / 64 + 1 - da / 64)).any fun i =>
    s.inStore ((da / 64 + i) * 64))

end Sys2Proof.Machine
end

