-- ==== Sys2Proof/Machine/Flags.lean ====
section
/-! DEFINITION. Encodings: the bits of status registers as software reads them, and the arithmetic flags. -/
namespace Sys2Proof.Machine
open Sys2Proof

/-- The arithmetic flags of R110. -/
structure ArithFlags where
  inx : Bool := false
  ovf : Bool := false
  unf : Bool := false
  inv : Bool := false
  dz : Bool := false
  aov : Bool := false
deriving DecidableEq, Repr

/-- Flags are ORed (R110, R111). -/
def ArithFlags.or (a b : ArithFlags) : ArithFlags :=
  ⟨a.inx || b.inx, a.ovf || b.ovf, a.unf || b.unf, a.inv || b.inv, a.dz || b.dz, a.aov || b.aov⟩

/-- Bits [5:0] in the order INX, OVF, UNF, INV, DZ, AOV (R110). -/
def ArithFlags.bits (a : ArithFlags) : Nat :=
  a.inx.toNat + 2 * a.ovf.toNat + 4 * a.unf.toNat + 8 * a.inv.toNat + 16 * a.dz.toNat + 32 * a.aov.toNat

def ArithFlags.ofBits (n : Nat) : ArithFlags :=
  ⟨n.testBit 0, n.testBit 1, n.testBit 2, n.testBit 3, n.testBit 4, n.testBit 5⟩

/-- A register's value from its fields: (lowest bit, value) pairs. -/
def regOf (fs : List (Nat × Nat)) : W32 :=
  BitVec.ofNat 32 ((fs.map fun f => f.2 * 2 ^ f.1).sum)

/-- Channel state codes (R150). -/
def ChState.code : ChState → Nat
  | .healthy => 0 | .degraded => 1 | .sweep => 2 | .retiring => 3 | .retired => 4 | .failed => 5

/-- MC_CH_STS (R150). -/
def Channel.sts (c : Channel) : W32 :=
  let f := fun (o : Option Lane) (lo : Nat) => match o with
    | some l => [(lo, 1), (lo + 1, l.pc), (lo + 2, l.lane)]
    | none => []
  regOf ([(0, c.st.code), (3, c.spares), (21, c.calPend.toNat)] ++ f c.la 5 ++ f c.lb 13)

/-- MC_CH_ERR (R151). -/
def Channel.errReg (c : Channel) : W32 :=
  regOf [(0, c.corr.toNat), (12, c.uncorr.toNat), (20, c.ode.toNat)]

/-- CX_ERR (R182). -/
def CxStack.errReg (c : CxStack) : W32 :=
  regOf [(0, c.decode.toNat), (12, c.stale.toNat), (24, c.tagpois.toNat)]

/-- HUB_TIME_STS (R68). -/
def TimeBase.sts (t : TimeBase) : W32 :=
  regOf [(0, t.holdover.toNat), (1, t.refLost.toNat), (2, t.pairLock.toNat), (3, t.stepRej.toNat),
    (16, t.offset.toNat)]

/-- PWR_PACE_MIN and PWR_AGE (R76, R77). -/
def Pace.minReg (p : Pace) : W32 := regOf [(0, p.cur.toNat), (16, p.min.toNat)]
def Pace.ageReg (p : Pace) : W32 := regOf [(0, p.norm.toNat), (16, p.eolMonths.toNat)]

def QState.code : QState → Nat
  | .disabled => 0 | .enabled => 1 | .error => 2 | .draining => 3

/-- SQ_STS and SQ_PTR (R588). -/
def Queue.stsReg (q : Queue) : W32 :=
  regOf [(0, q.st.code), (2, q.errc.toNat), (4, q.cqFull.toNat), (5, q.cqLost.toNat), (6, q.cqDberr.toNat),
    (7, q.infl.length)]
def Queue.ptrReg (q : Queue) : W32 := regOf [(0, q.sqHead), (16, q.cqTail)]

/-- SQ_CFG (R585) and SQ_IRQ (R587). -/
def Queue.cfgReg (q : Queue) : W32 :=
  regOf [(0, q.en.toNat), (1, q.kind.toNat), (2, q.loc.toNat), (3, q.sqLog.toNat), (8, q.cqLog.toNat),
    (13, q.fn.toNat), (18, q.part.toNat), (22, q.err.toNat)]
def Queue.irqReg (q : Queue) : W32 :=
  regOf [(0, q.vec.toNat), (11, q.ien.toNat), (12, q.coalN.toNat), (20, q.coalUs.toNat)]

def Health.code : Health → Nat
  | .inService => 0 | .suspect => 1 | .retired => 2

def Start.code : Start → Nat
  | .options => 0 | .clocks => 1 | .bootWait => 2 | .booting => 3 | .power => 4 | .hbmTrain => 5 | .fill => 6
  | .clusters => 7 | .ports => 8 | .ready => 9 | .halted => 10 | .test => 11 | .retired => 12

/-- A fault record's 256 bytes (R578). -/
def FaultRecord.bytes (f : FaultRecord) : List Byte :=
  let cref := match f.cref with | some (q, c) => q + 2 ^ 15 + 2 ^ 16 * c | none => 0
  let pad := fun (n : Nat) (b : List Byte) => b.take n ++ List.replicate (n - b.length) 0
  leBytes 8 f.seq ++ leBytes 8 f.time ++ leBytes 2 (f.cls * 4096 + f.inst) ++ leBytes 2 f.code
    ++ leBytes 1 f.rung ++ leBytes 1 f.part
    ++ leBytes 1 (f.supp.toNat + 2 * f.cmdV.toNat + 4 * (if f.akind = 0 then 0 else 1)) ++ leBytes 1 f.akind
    ++ leBytes 8 f.addr ++ leBytes 4 cref ++ leBytes 4 f.boot ++ leBytes 2 f.suppressed
    ++ List.replicate 22 0 ++ pad 64 f.cmd ++ pad 128 f.state

end Sys2Proof.Machine
end

