-- ==== Sys2Proof/Machine/Ops.lean ====
section
/-! DEFINITION. The named operations that the meanings share: free values, time, messages out, interrupts, fault
records (R578–R582), the interrupt summary (R795), and posting completions (R573). -/
namespace Sys2Proof.Machine
open Sys2Proof

/-- Draw a free value: it constrains nothing, and the counter moves on. -/
def State.drawFree (s : State) (w : Nat) : BitVec w × State :=
  (Config.freeValue w s.freeCtr, { s with freeCtr := s.freeCtr + 1 })

/-- Draw a free bit. -/
def State.drawBit (s : State) : Bool × State :=
  ((s.drawFree 1).1.getLsbD 0, (s.drawFree 1).2)

/-- Device time now (R54). -/
abbrev State.now (s : State) : Nat := s.time.now

/-- A timer armed at `t` for `d` ns has reached its duration (R64). -/
def State.elapsed (s : State) (t d : Nat) : Bool := decide (t + d ≤ s.time.now)

/-- When a GLOBAL_TIMEOUT timer armed now expires (R575); a later write of the register does not move it (R577). -/
def State.gtoDue (s : State) : Nat := s.time.now + s.hub.gto

/-- A timer that expires at `due` has expired (R64). -/
def State.gtoPassed (s : State) (due : Nat) : Bool := decide (due ≤ s.time.now)

/-- Send a message out. -/
def State.emit (s : State) (m : OutMsg) : State := { s with out := s.out ++ [m] }

/-- The PCIe state of a function (0 the PF). -/
def State.func (s : State) (f : Nat) : Func := s.host.funcs.get {} f
def State.updFunc (s : State) (f : Nat) (g : Func → Func) : State :=
  { s with host := { s.host with funcs := s.host.funcs.upd {} f g } }

/-- A function may issue requests: its Bus Master Enable is set and no IDE hold runs (R617, R737). -/
def State.busOk (s : State) (f : Nat) : Bool := (s.func f).bme && !s.host.ideHold

/-- The device may send a CXL.io request of a function now (R617, R620). -/
def State.ioReady (s : State) (f : Nat) : Bool := s.host.up && s.busOk f

/-- Send an MSI-X message, or keep it pending while the function's Bus Master Enable is clear or a VF is in D3hot
(R617, R740). -/
def State.msix (s : State) (f v : Nat) : State :=
  if s.busOk f && !(s.func f).d3hot then s.emit (.msix f v)
  else { s with host := { s.host with msixPend := s.host.msixPend ++ [(f, v)] } }

/-- Set HUB_IRQ_STS bits, and send the summary vector where the enabled set becomes nonzero (R795). -/
def State.irqEvent (s : State) (bit : Nat) : State :=
  let a0 := s.hub.irqSts &&& s.hub.irqEn
  let sts := s.hub.irqSts ||| BitVec.ofNat 16 (2 ^ bit)
  let s1 := { s with hub := { s.hub with irqSts := sts } }
  if s.hub.irqIen && a0 == 0 && (sts &&& s.hub.irqEn) != 0 then s1.msix 0 s.hub.irqVec.toNat else s1

/-- The event of a condition that becomes true (R796): it was `was`, and now holds. -/
def State.irqIf (s : State) (was : Bool) (bit : Nat) : State := if was then s else s.irqEvent bit

/-- An armed injection of a kind at a target fires: it disarms and FIRED is set (R804, R805). -/
def State.injFires (s : State) (kind target : Nat) : Bool :=
  s.hub.injArm && s.hub.injKind.toNat == kind && s.hub.injTarget.toNat == target
def State.injDone (s : State) : State := { s with hub := { s.hub with injArm := false, injFired := true } }

/-- A flit reaches a cluster over the mesh: an injected parity error is mended by its one resend (R660, R805). -/
def State.meshInject (s : State) (cluster : Nat) : State := if s.injFires 10 cluster then s.injDone else s

/-- Queue q. -/
def State.queue (s : State) (q : Nat) : Queue := s.queues.get {} q
def State.updQ (s : State) (q : Nat) (f : Queue → Queue) : State :=
  { s with queues := s.queues.upd {} q f }

/-- TOTAL of the reset counters (R711), the BOOT field of a fault record. -/
def Backup.total (b : Backup) : W32 := b.cnt.get 0 0

/-- What the mirror ring of the host needs for one record (R582, R591). -/
def State.mirrorRecord (s : State) (r : FaultRecord) : State :=
  if s.faults.hen then
    if s.ioReady 0 then
      s.emit (.hostWrite 0 (s.faults.hbase.toNat + 256 * (r.seq % 2 ^ s.faults.hlog.toNat)) r.bytes)
    else { s with faults := { s.faults with hen := false, herr := true } }
  else s

/-- Take note that a record of a (UNIT, CODE) was written (true) or suppressed (false). -/
def seenNote (unit code now : Nat) (written : Bool) : List FaultSeen → List FaultSeen
  | [] => [⟨unit, code, now, 0⟩]
  | e :: es =>
    if e.unit = unit ∧ e.code = code then
      (if written then { e with last := now, count := 0 } else { e with count := e.count + 1 }) :: es
    else e :: seenNote unit code now written es

/-- A PLDM event of the steward (R761). -/
def State.pldmEvent (s : State) (what : String) (arg : Nat) : State :=
  if s.stw.st == .running && s.stw.evtEn then s.emit (.event what arg) else s

/-- Write a fault record (R578, R582): number it, keep it, mirror it, raise its vector, and set the FAULT event; or
count it where R582 suppresses it. The caller gives UNIT, CODE, RUNG, PART, the address and the unit's items. -/
def State.fault (s : State) (f : FaultRecord) : State :=
  let unit := f.cls * 4096 + f.inst
  let prev := s.faults.seen.find? fun e => e.unit == unit && e.code == f.code
  let supp := match prev with
    | some e => f.rung == 0 && decide (s.time.now < e.last + 1000000)
    | none => false
  if supp then
    { s with faults := { s.faults with seen := seenNote unit f.code s.time.now false s.faults.seen } }
  else
    let r := { f with
      seq := s.faults.seq, time := s.time.now, supp := prev.isSome,
      suppressed := min 65535 (match prev with | some e => e.count | none => 0),
      boot := s.bak.total.toNat }
    let s1 := { s with
      faults := { s.faults with
        seq := s.faults.seq + 1,
        ring := s.faults.ring.set (r.seq % 1024) r,
        seen := seenNote unit f.code s.time.now true s.faults.seen }
      bak := { s.bak with last16 := (r :: s.bak.last16).take 16 } }
    let s2 := s1.mirrorRecord r
    let s3 := if s2.faults.ien then s2.msix 0 s2.faults.vec.toNat else s2
    let s4 := if 1 ≤ f.rung then s3.irqEvent 0 else s3
    if 1 ≤ f.rung ∨ r.code / 256 = 0x11 then s4.pldmEvent "FAULT_RECORD" r.seq else s4

/-- A record with only its unit and code. -/
def mkFault (cls inst code : Nat) : FaultRecord := { seq := 0, time := 0, cls := cls, inst := inst, code := code }

/-- A record of the submission front end (class 0, R833). -/
def State.queueFault (s : State) (q code : Nat) (cref : Option Nat := none) : State :=
  let qu := s.queue q
  s.fault { mkFault 0 q code with
    part := qu.part.toNat
    cref := cref.map fun c => (q, c)
    state := leBytes 4 qu.stsReg.toNat ++ leBytes 4 qu.ptrReg.toNat }

/-- AKIND 3 of R579: an HBM location. -/
def hbmAddr (stack ch pc addr lane : Nat) : Nat :=
  stack + 16 * ch + 512 * pc + 1024 * addr + 2 ^ 40 * lane

/-- The SEQ that the next record will take. -/
abbrev State.nextSeq (s : State) : Nat := s.faults.seq

/-! ### Completions (R570–R573) -/

/-- The window's backing DA of an offset (R603). -/
def State.windowDA (s : State) (off : Nat) : Nat := s.host.lcwBase.toNat * 2 ^ 26 + off

/-- Size of the window in bytes. -/
def State.windowSize (s : State) : Nat := (s.host.lcwSize.toNat + 1) * 2 ^ 26

/-- The line offset of a DA in the enabled window, if it lies there. -/
def State.windowLine (s : State) (da : Nat) : Option Nat :=
  let b := s.windowDA 0
  if s.host.lcwEn ∧ b ≤ da ∧ da < b + s.windowSize then some ((da - b) / 64) else none

/-- What the snoop filter records of a window line. -/
def State.snoopOf (s : State) (line : Nat) : Option SnoopState :=
  (s.host.snoop.find? fun e => e.1 == line).map Prod.snd

/-- A device access to the window must wait: an earlier one to the same line waits, or the host holds the line in a
state that R604 makes the device invalidate. -/
def State.windowHeld (s : State) (da : Nat) (write : Bool) : Bool :=
  match s.windowLine da with
  | none => false
  | some l =>
    s.host.biWait.any (fun w => w.da / 64 == da / 64) ||
    (match s.snoopOf l with
     | none => false
     | some .s => write
     | some _ => true)

/-- A record of host coupling (class 5, R833). The PCIe and CXL error status words are the host port's own and not in
the spec: free values. -/
def State.hostFault (s : State) (fn code : Nat) (addr : Nat) (hdr : List Byte := []) : State :=
  let (st, s1) := s.drawFree 96
  s1.fault { mkFault 5 fn code with
    akind := 5, addr := addr, cmd := hdr, cmdV := !hdr.isEmpty
    state := [BitVec.ofNat 8 fn, 0, 0, 0] ++ leBytes 12 st.toNat }

/-- A model's digest is broken (R379, R606). -/
def State.breakModel (s : State) : Option Nat → State
  | none => s
  | some m => { s with upd := { s.upd with broken := setInsert s.upd.broken m } }

/-- Write a piece of a reservoir line (R605–R607): merged into a held line, or asked for again once its eviction has ended; a
whole line by ItoMWr; a part by RdOwn. A write that cannot be issued fails at once. -/
def State.rsvWriteLine (s : State) (model : Option Nat) (da : Nat) (bs : List Byte) : State :=
  let hpa := da - rsvBase
  let ask := fun (op : CacheOp) (waits : Bool) =>
    if s.hostReach then
      let old := cellsRead s.mem.cells da bs.length
      let s1 := s.writeDA da bs
      let req : CacheReq := { op := op, hpa := hpa / 64 * 64, model := model, off := hpa % 64, data := old, waits := waits }
      let s2 := { s1 with host := { s1.host with cacheReqs := s1.host.cacheReqs ++ [req] } }
      if waits then s2 else s2.emit (.cxlCache (if op == .itoMWr then "ItoMWr" else "RdOwn") (hpa / 64 * 64) [])
    else (s.hostFault 0 0x1003 hpa).breakModel model
  match s.host.hlc.find (hpa / 64) with
  | some l =>
    if l.evicting then ask .rdOwn true
    else
      let s1 := s.writeDA da bs
      let l' : HlcLine := { l with st := .m, dirtySince := if l.st == .m then l.dirtySince else s.time.now }
      { s1 with host := { s1.host with hlc := s1.host.hlc.set (hpa / 64) l' } }
  | none => ask (if bs.length = 64 then .itoMWr else .rdOwn) false

/-- A device read of window lines that the host holds in M or E waits for their back-invalidates (R604): the lines are
asked for, and the read is done again later. None where nothing holds it back. -/
def State.recall (s : State) (da n : Nat) : Option State :=
  let lines := ((List.range ((da + n + 63) / 64 - da / 64)).map fun i => (da / 64 + i) * 64).filter fun a =>
    s.windowHeld a false
  let fresh := lines.filter fun a => !s.host.biWait.any fun w => w.da / 64 == a / 64
  if !s.host.lcwEn || lines.isEmpty then none
  else
    some { s with
      host := { s.host with biWait := s.host.biWait ++ fresh.map fun a => { da := a, write := false } }
      out := s.out ++ fresh.map fun a => .cxlMem "BISnpData" a [] }

/-- The DA lies in the response half of a FENCED slot, where device writes are discarded (R576). -/
def State.fencedDA (s : State) (da : Nat) : Bool :=
  match s.windowLine da with
  | some l => decide (l < 131072) && decide (16 ≤ l % 32) && (s.host.slots.get {} (l / 32)).st == .fenced
  | none => false

/-- The first line of a response half (R610). -/
def State.respFirst (s : State) (da : Nat) : Bool :=
  match s.windowLine da with
  | some l => decide (l < 131072) && l % 32 == 16
  | none => false

/-- Write one line's piece of device memory as a device agent (R604): at once, or after a back-invalidate where the
host holds the window line; reservoir lines go by CXL.cache; a FENCED slot's response half takes nothing. -/
def State.devWriteLine (s : State) (da : Nat) (bs : List Byte) : State :=
  if s.fencedDA da then s
  else if s.windowHeld da true then
    let first := !s.host.biWait.any fun (w : BiWait) => w.da / 64 == da / 64
    let s1 := { s with host := { s.host with
      biWait := s.host.biWait ++ [{ da := da, write := true, data := bs, sent := first }] } }
    if first then s1.emit (.cxlMem "BISnpInv" (da / 64 * 64) []) else s1
  else if s.place da == .host then s.rsvWriteLine none da bs
  else s.writeDA da bs

/-- Write bytes of device memory as a device agent, line by line in the order given, a response half's first line last
(R613). -/
def State.devWrite (s : State) (da : Nat) (bs : List Byte) : State :=
  let g := s.pieceSize da
  let ps := pieces g (bs.length / g + 2) da bs.length
  let first := fun (p : Nat × Nat) => s.respFirst p.1
  ((ps.filter fun p => !first p) ++ ps.filter first).foldl (fun st p =>
    st.devWriteLine p.1 ((bs.drop (p.1 - da)).take p.2)) s

/-- The 32 bytes of a CQE (R570). -/
def Cqe.bytes (c : Cqe) (sqhd : Nat) (phase : Bool) (tDone : Nat) : List Byte :=
  leBytes 8 c.result.toNat ++ leBytes 4 c.subst.toNat ++ leBytes 4 c.id.toNat ++ leBytes 2 sqhd
    ++ leBytes 2 (c.code.toNat + (if phase then 32768 else 0)) ++ leBytes 6 c.tAcc ++ leBytes 6 tDone

def Queue.sqSize (q : Queue) : Nat := 2 ^ q.sqLog.toNat
def Queue.cqSize (q : Queue) : Nat := 2 ^ q.cqLog.toNat

/-- The CQ is full (R573). -/
def Queue.full (q : Queue) : Bool := (q.cqTail + 1) % q.cqSize == q.cqHead

/-- The interrupt of a queue (R573): raise its vector and restart the coalescing count. -/
def State.signalQ (s : State) (q : Nat) : State :=
  let qu := s.queue q
  (s.updQ q fun x => { x with coalCnt := 0 }).msix qu.fn.toNat qu.vec.toNat

/-- Count a written CQE toward the queue's interrupt (R573). -/
def State.coalesce (s : State) (q : Nat) : State :=
  let qu := s.queue q
  if qu.ien then
    if qu.coalCnt + 1 ≥ qu.coalN.toNat then s.signalQ q
    else s.updQ q fun x => { x with
      coalCnt := x.coalCnt + 1, coalFirst := if x.coalCnt = 0 then s.time.now else x.coalFirst }
  else s

/-- Write a CQE at CQTAIL (R573). A write that cannot reach the host loses the CQE and puts the queue in ERROR
(R583, R620). -/
def State.writeCqe (s : State) (q : Nat) (c : Cqe) : State :=
  let qu := s.queue q
  let bytes := c.bytes qu.sqHead qu.phase (s.time.now % 2 ^ 48)
  let adv := fun (x : Queue) =>
    let t := (x.cqTail + 1) % x.cqSize
    { x with cqTail := t, phase := if t = 0 then !x.phase else x.phase }
  if qu.loc then
    ((s.devWrite (s.windowDA (qu.cbase.toNat + 32 * qu.cqTail)) bytes).updQ q adv).coalesce q
  else if s.host.up then
    ((s.emit (.hostWrite qu.fn.toNat (qu.cbase.toNat + 32 * qu.cqTail) bytes)).updQ q adv).coalesce q
  else
    (s.updQ q fun x => { x with
      st := if x.st == .enabled then .error else x.st, errc := 3 }).queueFault q 0x0B05

/-- The lines, by DA ÷ 64, of device writes that wait for a back-invalidate or for their GO (R604, R606). -/
def State.openWrites (s : State) : List Nat :=
  (s.host.biWait.filter fun (w : BiWait) => w.write).map (fun w => w.da / 64)
    ++ s.host.cacheReqs.map fun (r : CacheReq) => (rsvBase + r.hpa) / 64

/-- CQEs of this queue must be held: the CQ is full, an earlier one is held, its function may not send, or a write that
the CQE must follow is outstanding (R573, R617, R618). -/
def State.cqeHeld (s : State) (q : Nat) : Bool :=
  let qu := s.queue q
  qu.full || !qu.held.isEmpty || (!qu.loc && !s.busOk qu.fn.toNat) || !s.openWrites.isEmpty

/-- Post a completion to queue q (R573, R584): written, held, or discarded where the queue is DISABLED. -/
def State.postCqe (s : State) (q : Nat) (c : Cqe) : State :=
  let qu := s.queue q
  if qu.st == .disabled then s.queueFault q 0x0B04
  else if s.cqeHeld q then
    s.updQ q fun x => { x with held := x.held ++ [{ c with due := s.gtoDue, waits := s.openWrites }], cqFull := x.cqFull || x.full }
  else s.writeCqe q c

/-- The ID word of a command's CQE (R570). -/
def cidWord (q : Nat) (cid : W16) : W32 := BitVec.ofNat 32 (cid.toNat + 65536 * q)

/-- The command of queue q with an identifier that is in flight, if any. -/
def State.inFlight (s : State) (q : Nat) (cid : W16) : Option InFlight :=
  (s.queue q).infl.find? fun e => e.cid == cid

/-- Remove the first in-flight command with an identifier. -/
def dropInfl (cid : W16) : List InFlight → List InFlight
  | [] => []
  | e :: es => if e.cid = cid then es else e :: dropInfl cid es

/-! ### The mirror stream (R639–R643) -/

/-- Opcodes of commands that change mirrored state (R566, R639). -/
def changesMirrored (opc : Nat) : Bool :=
  [0x0C, 0x0E, 0x10, 0x11, 0x18, 0x19, 0x1A, 0x1B, 0x1D, 0x20, 0x21, 0x28, 0x29, 0x2B, 0x38, 0x39, 0x42, 0x43].contains opc

/-- Bytes an item takes in the transmit buffer. -/
def itemBytes : MirrorItem → Nat
  | .command _ a _ _ d => 32 + 8 * a.length + d.length
  | .update _ _ _ _ o _ p => 16 + 4 * o.length + p.length
  | .result _ _ b st => 16 + b.length + st.length
  | .copyRow _ _ b st => 16 + b.length + st.length
  | .copyPage _ _ rs => 16 + (rs.map List.length).sum
  | .granule _ b => 8 + b.length
  | .model _ _ b => 8 + b.length
  | .program _ b => 8 + b.length
  | .codebook _ b => 8 + b.length
  | .table _ b m _ st => 16 + b.length + m.length + 8 * st.length

/-- Bytes held in the transmit buffer (R643). -/
def PairState.txBytes (p : PairState) : Nat := (p.tx.map fun b => (b.items.map itemBytes).sum).sum

/-- The transmit buffer is full (R643). -/
def PairState.txFull (p : PairState) : Bool := decide (p.txbSize.toNat * 2 ^ 28 ≤ p.txBytes)

/-- Add an item to an epoch's items. -/
def txAdd (n : Nat) (it : MirrorItem) : List EpochBuf → List EpochBuf
  | [] => [{ n := n, items := [it] }]
  | b :: bs => if b.n = n then { b with items := b.items ++ [it] } :: bs else b :: txAdd n it bs

/-- The part's updates go into a transmit buffer: it is ACTIVE, or a former active that retains epochs (R643, R648). -/
def PairState.keeps (p : PairState) : Bool := p.role == .active || (p.role == .split && !p.side && p.retain)

/-- Send an item of the mirror stream, of epoch n (R641). A SPLIT former active only retains it, until its buffer is
full (R648). -/
def State.mirror (s : State) (n : Nat) (it : MirrorItem) : State :=
  if s.pl.role == .split then
    if s.pl.keeps then
      let p := { s.pl with tx := txAdd n it s.pl.tx }
      { s with pl := if p.txFull then { p with tx := [], retain := false } else p }
    else s
  else if s.pl.role == .active then
    ({ s with pl := { s.pl with tx := txAdd n it s.pl.tx } }).emit (.quefy "ITEM" n [])
  else s

/-- The epoch to which what is accepted now belongs (R369 step 1). -/
def UpdState.accepting (u : UpdState) : Nat := if u.closing.isSome then u.epoch + 1 else u.epoch

/-- Mirror a command that ends (R641): its arguments, outcome and data. A command that fails has no effect to send, but
for a TBL_LOAD that found poison. Epoch closes go as COMMIT, and flips when their hold begins. -/
def State.mirrorCmd (s : State) (q : Nat) (cid : W16) (code : BitVec 12) (result : W64) (data : List Byte) : State :=
  match s.inFlight q cid with
  | none => s
  | some e =>
    if changesMirrored e.opc.toNat && e.opc != 0x20 && e.opc != 0x1D && (code == 0 || code == 0x106) then
      s.mirror s.upd.accepting
        (.command e.opc.toNat ((List.range 7).map fun i => field e.raw (64 * (i + 1)) 64) code.toNat result data)
    else s

/-- A command ends: it leaves the in-flight list and its CQE is posted (R568, R573); a command of the steward's own
queue completes to the steward (R569), and a mirrored command to the pair-link controller (R644). `data` is what the mirror stream carries of it besides its arguments. -/
def State.complete (s : State) (q : Nat) (cid : W16) (code : BitVec 12) (result : W64 := 0) (data : List Byte := []) :
    State :=
  let tAcc := match s.inFlight q cid with | some e => e.tAcc | none => s.time.now
  if q = 1024 ∧ cid = 0xFFFF then { s with pl := { s.pl with rxOut := some (code, result) } }
  else if q = 1024 then s.emit (.sideband "STEWARD_CQE" code.toNat (leBytes 2 cid.toNat ++ leBytes 8 result.toNat))
  else ((s.mirrorCmd q cid code result data).updQ q fun x => { x with infl := dropInfl cid x.infl }).postCqe q
    { result := result, id := cidWord q cid, code := code, tAcc := tAcc % 2 ^ 48 }

/-- Status codes of R571. -/
abbrev stSuccess : BitVec 12 := 0x000
abbrev stSqOpcode : BitVec 12 := 0x001
abbrev stSqPriv : BitVec 12 := 0x002
abbrev stSqScope : BitVec 12 := 0x003
abbrev stSqField : BitVec 12 := 0x004
abbrev stSqFetch : BitVec 12 := 0x005
abbrev stSqAbort : BitVec 12 := 0x006
abbrev stDaUnmapped : BitVec 12 := 0x007
abbrev stDaProtected : BitVec 12 := 0x008
abbrev stInPoison : BitVec 12 := 0x009
abbrev stTimeout : BitVec 12 := 0x00A
abbrev stBatchFailed : BitVec 12 := 0x00B
abbrev stTblState : BitVec 12 := 0x100
abbrev stTblBad : BitVec 12 := 0x101
abbrev stTblNoStore : BitVec 12 := 0x102
abbrev stTblLimit : BitVec 12 := 0x103
abbrev stTblHome : BitVec 12 := 0x104
abbrev stTblNoSpace : BitVec 12 := 0x105
abbrev stTblLoadPoison : BitVec 12 := 0x106
abbrev stTblNoFountain : BitVec 12 := 0x107
abbrev stTblBusy : BitVec 12 := 0x108
abbrev stCbkBad : BitVec 12 := 0x110
abbrev stCbkInUse : BitVec 12 := 0x111
abbrev stBdPlanner : BitVec 12 := 0x120
abbrev stBdOff : BitVec 12 := 0x121
abbrev stBdNoSketch : BitVec 12 := 0x122
abbrev stBdBusy : BitVec 12 := 0x123
abbrev stBdFrame : BitVec 12 := 0x124
abbrev stBdSlots : BitVec 12 := 0x125
abbrev stRsvBad : BitVec 12 := 0x130
abbrev stRsvLimit : BitVec 12 := 0x131
abbrev stRsvInUse : BitVec 12 := 0x132
abbrev stAqState : BitVec 12 := 0x140
abbrev stAqBad : BitVec 12 := 0x141
abbrev stAqNoSpace : BitVec 12 := 0x142
abbrev stAqInUse : BitVec 12 := 0x143
abbrev stCcBad : BitVec 12 := 0x150
abbrev stCcInUse : BitVec 12 := 0x151
abbrev stCcNoSpace : BitVec 12 := 0x152
abbrev stCcArgPoison : BitVec 12 := 0x153
abbrev stCcFault : BitVec 12 := 0x154
abbrev stTaskExc : BitVec 12 := 0x155
abbrev stTaskNopost : BitVec 12 := 0x156
abbrev stPartState : BitVec 12 := 0x160
abbrev stPartBad : BitVec 12 := 0x161
abbrev stPartOverlap : BitVec 12 := 0x162
abbrev stPartNoPairs : BitVec 12 := 0x163
abbrev stMdlInUse : BitVec 12 := 0x164
abbrev stMdlLimit : BitVec 12 := 0x165
abbrev stMdlBad : BitVec 12 := 0x166
abbrev stMdlBusy : BitVec 12 := 0x167
abbrev stAstFull : BitVec 12 := 0x180

end Sys2Proof.Machine
end

