-- ==== Sys2Proof/Machine/Health.lean ====
section
/-! DEFINITION. Unit health and the repair map (R400, R668, R670, R699, R701, R829, R830). -/
namespace Sys2Proof.Machine
open Sys2Proof

/-- A byte of the option block in force (R698, R699). -/
def State.optByte (s : State) (o : Nat) : Nat := (s.opt.image.get 0xFF o).toNat

/-- A bit of a bit map in the option block. -/
def State.optBit (s : State) (o i : Nat) : Bool := (s.optByte (o + i / 8)).testBit (i % 8)

/-- The OCTETS nibble of a core as stored (R699). -/
def State.octNibble (s : State) (k : Nat) : Nat :=
  let b := s.optByte (128 + k / 2)
  if k % 2 = 0 then b % 16 else b / 16

/-- Enabled physical octets of a core: a nibble of 0 is read as 0xF (R400, R699). -/
def State.octets (s : State) (k : Nat) : Nat := if s.octNibble k = 0 then 15 else s.octNibble k

/-- Ones among the low four bits. -/
def ones4 (n : Nat) : Nat := n % 2 + n / 2 % 2 + n / 4 % 2 + n / 8 % 2

/-- Presented width of a core (R400). -/
def State.coreWidth (s : State) (k : Nat) : Nat := 8 * ones4 (s.octets k)

/-- The kinds of unit that have a health state (R668), in the order of R829. -/
inductive UnitKind where
  | core | cluster | pair | lu | uu
deriving DecidableEq, Repr

def UnitKind.code : UnitKind → Nat
  | .core => 0 | .cluster => 1 | .pair => 2 | .lu => 3 | .uu => 4

/-- The repair map excludes a unit (R830); lookup units are numbered stack × 32 + n, update units stack × 8 + n. -/
def State.excluded (s : State) : UnitKind → Nat → Bool
  | .core, k => !s.optBit 1556 k || s.octNibble k == 0
  | .cluster, c => !s.optBit 1706 c
  | .pair, n => !s.optBit 1719 n
  | .lu, i => !s.optBit (1496 + 5 * (i / 32)) (i % 32)
  | .uu, i => !s.optBit (1496 + 5 * (i / 8)) (32 + i % 8)

/-- A unit's record in the backup domain. -/
def Backup.unit (b : Backup) : UnitKind → Nat → UnitHealth
  | .core, i => b.core.get {} i
  | .cluster, i => b.cluster.get {} i
  | .pair, i => b.pair.get {} i
  | .lu, i => b.lu.get {} i
  | .uu, i => b.uu.get {} i

def Backup.setUnit (b : Backup) (k : UnitKind) (i : Nat) (h : UnitHealth) : Backup :=
  match k with
  | .core => { b with core := b.core.set i h }
  | .cluster => { b with cluster := b.cluster.set i h }
  | .pair => { b with pair := b.pair.set i h }
  | .lu => { b with lu := b.lu.set i h }
  | .uu => { b with uu := b.uu.set i h }

/-- The health state that software reads (R668, R830). -/
def State.health (s : State) (k : UnitKind) (i : Nat) : Health :=
  if s.excluded k i then .retired else (s.bak.unit k i).health

/-- A unit is in service: only a RETIRED one is not (R668). -/
def State.serving (s : State) (k : UnitKind) (i : Nat) : Bool := s.health k i != .retired

/-- Class and instance of a unit in fault records (R829). -/
def UnitKind.unitOf : UnitKind → Nat → Nat × Nat
  | .core, i => (1, i)
  | .cluster, i => (2, i)
  | .pair, i => (3, i)
  | .lu, i => (4, i / 32)
  | .uu, i => (4, i / 8)

/-- A record of a health change or a patrol failure (R829). -/
def State.healthFault (s : State) (k : UnitKind) (i code : Nat) (old new : Health) (rung : Nat := 0) : State :=
  let u := k.unitOf i
  let n := match k with | .lu => i % 32 | .uu => i % 8 | _ => 0
  s.fault { mkFault u.1 u.2 code with
    rung := rung
    state := [BitVec.ofNat 8 k.code, BitVec.ofNat 8 n, BitVec.ofNat 8 old.code, BitVec.ofNat 8 new.code] }

/-- Move a unit to a health state, with its record. -/
def State.setHealth (s : State) (k : UnitKind) (i : Nat) (new : Health) (code : Nat) (rung : Nat := 0) : State :=
  let u := s.bak.unit k i
  ({ s with
      bak := s.bak.setUnit k i { u with health := new, since := s.time.now }
      stw := { s.stw with outSince := s.stw.outSince || decide (new = Health.retired) } }).healthFault k i code u.health new rung

/-- Charge a fault to a unit, or count a failed patrol test (R668): the second one retires it, with a rung of its own
where a recovery steps up (R667). -/
def State.chargeUnit (s : State) (k : UnitKind) (i : Nat) (rung : Nat := 0) : State :=
  if s.excluded k i then s
  else
    let u := s.bak.unit k i
    let s1 := { s with bak := s.bak.setUnit k i { u with faults := (s.time.now :: u.faults).take 16 } }
    match u.health with
    | .inService => s1.setHealth k i .suspect 0x0D01
    | .suspect => s1.setHealth k i .retired 0x0D03 rung
    | .retired => s1

/-- An hour and 72 hours of device time in ns (R664, R668). -/
abbrev hourNs : Nat := 3600000000000

/-- A correctable error is counted toward its unit: beyond CE_LIMIT in the sliding hour, a fault is charged and its
errors leave the count (R664). -/
def State.countCe (s : State) (k : UnitKind) (i : Nat) : State :=
  let u := s.bak.unit k i
  let live := (s.time.now :: u.ces).filter fun t => decide (s.time.now < t + hourNs)
  if s.int.ceLimit.toNat < live.length then
    ({ s with bak := s.bak.setUnit k i { u with ces := [] } }).chargeUnit k i
  else { s with bak := s.bak.setUnit k i { u with ces := live } }

/-- Correctable errors of a unit in the current hour. -/
def State.ceCount (s : State) (k : UnitKind) (i : Nat) : Nat :=
  ((s.bak.unit k i).ces.filter fun t => decide (s.time.now < t + hourNs)).length

/-- A SUSPECT unit has passed 72 hours without a charged fault (R668): it returns to service. -/
def State.healthAge (s : State) (k : UnitKind) (i : Nat) : State :=
  let u := s.bak.unit k i
  if u.health == .suspect && s.elapsed u.since (72 * hourNs) then s.setHealth k i .inService 0x0D02 else s

end Sys2Proof.Machine
end

