-- ==== Sys2Proof/Machine/Access.lean ====
section
/-! DEFINITION. Which register accesses are served (R777, R782, R783): by path, by block and by the state of the
part. -/
namespace Sys2Proof.Machine
open Sys2Proof

/-- The parts of CSR space that R782 tells apart. -/
inductive CsrBlock where
  | rstc
  | hub
  | stack (s : Nat)
  | cluster (c : Nat)
deriving DecidableEq, Repr

/-- The compute die of a stack or a cluster (R13, R19). -/
def stackDie (st : Nat) : Nat := st / 3
def clusterDie (c : Nat) : Nat := c / 25

/-- The part is powered at least through its hub (R738). -/
def State.hubPowered (s : State) : Bool := s.pwr.dstate != .d3cold && s.pwr.dstate != .off

/-- The device reset is held (R692, R712, R826). -/
def ResetState.held (r : ResetState) : Bool := r.heldPerst || r.heldThermal || r.heldUv

/-- Blocks that ignore accesses on every path: a die in reset, gated clusters, D3hot (R782). -/
def State.blockDark (s : State) : CsrBlock → Bool
  | .stack st => s.pwr.dstate == .d3hot || s.rst.dieRst.contains (stackDie st)
  | .cluster c =>
    s.pwr.dstate == .d3hot || s.pwr.dstate == .d0idle || s.rst.dieRst.contains (clusterDie c)
  | _ => false

/-- The PF's BAR 0 serves a block (R782). -/
def State.pfServes (s : State) (b : CsrBlock) : Bool :=
  match s.rst.start with
  | .options | .clocks | .retired | .halted | .test => false
  | .ready => s.pwr.dstate != .d3hot && (!s.host.ideHold || b == .rstc)
  | _ => b == .rstc

/-- A write on a path takes effect (R777, R782, R734). A VF reaches its own queue view only, which Csr.lean serves. -/
def State.csrWritable (s : State) (p : AccessPath) (b : CsrBlock) : Bool :=
  s.hubPowered && !s.rst.held && !s.blockDark b &&
    (match p with
     | .pf => s.pfServes b
     | .vf _ => false
     | .steward => s.stw.st == .running
     | .jtag => s.sec.dbg == 2)

/-- A read on a path is served (R734: OBSERVE reads). -/
def State.csrReadable (s : State) (p : AccessPath) (b : CsrBlock) : Bool :=
  s.hubPowered && !s.rst.held && !s.blockDark b &&
    (match p with
     | .pf => s.pfServes b
     | .vf _ => false
     | .steward => s.stw.st == .running
     | .jtag => s.sec.dbg != 0)

/-- Apply a register write where the path reaches the block (R782). -/
def State.onCsr (s : State) (p : AccessPath) (b : CsrBlock) (f : State → State) : State :=
  if s.csrWritable p b then f s else s

/-- The hub main domain runs: its rails are up, no reset holds it, and start-up has released it (R691, R702, R710). -/
def State.hubRuns (s : State) : Bool :=
  s.hubPowered && !s.rst.held &&
    (match s.rst.start with
     | .options | .clocks | .halted => false
     | _ => true)

/-- A write that is carried out where the path reaches the block (R782). -/
theorem State.onCsr_of_writable {s : State} {p : AccessPath} {b : CsrBlock} (f : State → State)
    (h : s.csrWritable p b = true) : s.onCsr p b f = f s := by
  simp [State.onCsr, h]

end Sys2Proof.Machine
end

