-- ==== Sys2Proof/Machine/Ecc.lean ====
section
/-! DEFINITION. The outer code of the HBM (04, R126, R127): RS(72,66) over GF(2^8) with the field polynomial
x^8 + x^4 + x^3 + x^2 + 1, as an encoder and as a decoder of errors and erasures with 2t + e ≤ 6. -/
namespace Sys2Proof.Machine
open Sys2Proof

/-- Multiplication by α = 0x02 in the field of R126. -/
def gfDouble (a : Nat) : Nat := if a < 128 then 2 * a else (2 * a - 256) ^^^ 0x1D

/-- Field product, by the bits of the second factor. -/
def gfMulAux : Nat → Nat → Nat → Nat
  | 0, _, _ => 0
  | n + 1, a, b => (if b % 2 = 1 then a else 0) ^^^ gfMulAux n (gfDouble a) (b / 2)

def gfMul (a b : Nat) : Nat := gfMulAux 8 a b

/-- α^n. -/
def gfPow : Nat → Nat
  | 0 => 1
  | n + 1 => gfDouble (gfPow n)

/-- a^(2^8 − 2), the inverse of a nonzero a. -/
def gfInv (a : Nat) : Nat :=
  let a2 := gfMul a a
  let a4 := gfMul a2 a2
  let a8 := gfMul a4 a4
  let a16 := gfMul a8 a8
  let a32 := gfMul a16 a16
  let a64 := gfMul a32 a32
  let a128 := gfMul a64 a64
  gfMul a2 (gfMul a4 (gfMul a8 (gfMul a16 (gfMul a32 (gfMul a64 a128)))))

/-- The generator g(x) = (x − α^0)…(x − α^5) less its leading term, coefficients of x^5 down to x^0 (R126). -/
def rsGen : List Nat :=
  ((List.range 6).foldl (fun (g : List Nat) i =>
    List.zipWith (fun a b => a ^^^ b) (g ++ [0]) (0 :: g.map (gfMul (gfPow i)))) [1]).tail

/-- The six check symbols of 66 message bytes, by long division (R126: byte 0 is the coefficient of x^71). -/
def rsCheck (msg : List Nat) : List Nat :=
  msg.foldl (fun r m =>
    let f := m ^^^ listGet 0 r 0
    List.zipWith (fun a b => a ^^^ b) (r.tail ++ [0]) (rsGen.map (gfMul f))) (List.replicate 6 0)

/-- The codeword of a sector (R126): data, META, a zero byte, and the check symbols. -/
def rsEncode (data : List Byte) (poison : Bool) : List Nat :=
  let m := data.map BitVec.toNat ++ [if poison then 1 else 0, 0]
  m ++ rsCheck m

/-- Syndrome i of a word: its value at α^i. -/
def rsSyndrome (w : List Nat) (i : Nat) : Nat :=
  w.foldl (fun a b => gfMul a (gfPow i) ^^^ b) 0

/-- One elimination step over rows (augmented by their right-hand side), on column `c`. -/
def gfElim (c : Nat) (rows : List (List Nat)) : Option (List Nat × List (List Nat)) :=
  match rows.find? (fun r => listGet 0 r c != 0) with
  | none => none
  | some p =>
    let inv := gfInv (listGet 0 p c)
    let p' := p.map (gfMul inv)
    let rest := rows.erase p
    some (p', rest.map fun r => List.zipWith (fun a b => a ^^^ b) r (p'.map (gfMul (listGet 0 r c))))

/-- Solve a linear system of `n` unknowns over the field; none where it is inconsistent. -/
def gfSolve : Nat → Nat → List (List Nat) → List (List Nat) → Option (List Nat)
  | 0, n, done, rows =>
    if rows.all (fun r => listGet 0 r n == 0) then some (done.map fun r => listGet 0 r n) else none
  | k + 1, n, done, rows =>
    match gfElim (n - (k + 1)) rows with
    | none => none
    | some (p, rest) =>
      let c := n - (k + 1)
      gfSolve k n (done.map (fun r =>
        List.zipWith (fun a b => a ^^^ b) r (p.map (gfMul (listGet 0 r c)))) ++ [p]) rest

/-- Error values at the named byte positions that explain the syndromes; none where no values do. -/
def rsSolveAt (syn : List Nat) (pos : List Nat) : Option (List Nat) :=
  gfSolve pos.length pos.length [] ((List.range 6).map fun i =>
    pos.map (fun p => gfPow (i * (71 - p) % 255)) ++ [listGet 0 syn i])

/-- Sets of unknown positions to try, the smallest first. -/
def rsUnknowns (er : List Nat) (t : Nat) : List (List Nat) :=
  let free := (List.range 72).filter fun p => !er.contains p
  [] :: (if 1 ≤ t then free.map fun p => [p] else [])
    ++ (if 2 ≤ t then free.flatMap fun p => (free.filter (p < ·)).map fun q => [p, q] else [])

/-- Decode a word with erasures at `er` (R127): the corrected word and the positions whose value changed. -/
def rsDecode (er : List Nat) (w : List Nat) : Option (List Nat × List Nat) :=
  let syn := (List.range 6).map (rsSyndrome w)
  let t := min 2 ((6 - er.length) / 2)
  match (rsUnknowns er t).findSome? (fun u => (rsSolveAt syn (er ++ u)).map fun v => (er ++ u, v)) with
  | none => none
  | some (ps, vs) =>
    let fix := ps.zip vs
    some (fix.foldl (fun w pv => listSet w pv.1 (listGet 0 w pv.1 ^^^ pv.2)) w,
      (fix.filter fun pv => pv.2 != 0).map Prod.fst)

/-- The two byte positions of a codeword that travel on a lane (R126). -/
def lanePositions (lane : Nat) : List Nat := [lane, lane + 36]

end Sys2Proof.Machine
end

