-- ==== Sys2Proof/Machine/Hbm.lean ====
section
/-! DEFINITION. The HBM4 memory system (04): channel schedulers, decoding and correction, lane failure, sweep,
evacuation, scrub; and what tags do in a compressible region (05, R156, R175–R178). -/
namespace Sys2Proof.Machine
open Sys2Proof

/-- The stack record of the basin directory. -/
def State.bdStack (s : State) (st : Nat) : BdStack := s.bd.st.get {} st
def State.updBdStack (s : State) (st : Nat) (f : BdStack → BdStack) : State :=
  { s with bd := { s.bd with st := s.bd.st.upd {} st f } }

/-- BD_ERR (R263). -/
def BdStack.errReg (b : BdStack) : W32 :=
  regOf [(0, b.setPois.toNat), (12, b.full.toNat), (24, b.abandon.toNat)]

/-- The coder and the controller of a stack. -/
def State.cxStack (s : State) (st : Nat) : CxStack := s.cx.get {} st
def State.mcRegs (s : State) (st : Nat) : McRegs := s.mc.get {} st

/-- Change the channel with index stack × 32 + channel. -/
def State.updChan (s : State) (i : Nat) (f : Channel → Channel) : State := { s with ch := s.ch.upd {} i f }

/-- A record of a stack controller (class 4, R833): request kind, table, row and bag where there are any, and the
registers of the stack and of a channel. -/
def State.stackFault (s : State) (st code : Nat) (chIdx : Nat := 0) (kind : Nat := 4)
    (table : Nat := 0xFFFFFFFF) (row : Nat := 2 ^ 64 - 1) (bag : Nat := 0xFFFFFFFF)
    (akind : Nat := 0) (addr : Nat := 0) (extra : List Byte := []) (rung : Nat := 0) : State :=
  let c := s.chan (st * 32 + chIdx)
  s.fault { mkFault 4 st code with
    rung := rung, akind := akind, addr := addr, cmdV := true
    cmd := [BitVec.ofNat 8 kind, 0, 0, 0] ++ leBytes 4 table ++ leBytes 8 row ++ leBytes 4 bag
    state := leBytes 4 c.sts.toNat ++ leBytes 4 c.errReg.toNat ++ leBytes 4 (s.cxStack st).errReg.toNat
      ++ leBytes 4 (s.bdStack st).errReg.toNat ++ extra }

/-! ### Lanes and channel states (R132, R133) -/

/-- The failed lanes not yet replaced. -/
def Channel.failed (c : Channel) : List Lane := c.la.toList ++ c.lb.toList

/-- Codeword positions treated as erasures in a pseudo-channel: its failed lanes, and the lanes whose sectors are
still being swept (R127, R136). -/
def Channel.erasures (c : Channel) (pc : Nat) : List Nat :=
  ((c.failed ++ c.sweeping).filter (fun l => l.pc == pc)).flatMap fun l => lanePositions l.lane

/-- Enter a channel state, with the fault record of every transition but SWEEP to HEALTHY (R133). -/
def State.chanState (s : State) (i : Nat) (st : ChState) : State :=
  let old := (s.chan i).st
  if old == st then s
  else
    let gone := st == .retired || st == .failed
    let s0 := (s.updChan i fun c => { c with st := st }).irqEvent 12
    let s1 := { s0 with stw := { s0.stw with outSince := s0.stw.outSince || gone } }
    if old == .sweep && st == .healthy then s1
    else s1.stackFault (i / 32) 0x0503 (i % 32) (akind := 3) (addr := hbmAddr (i / 32) (i % 32) 0 0 63)

/-- Declare a lane failed (R132, R133, R145): erasure decoding begins, a record is written and the channel moves. -/
def State.laneFails (s : State) (i : Nat) (l : Lane) : State :=
  let c := s.chan i
  if c.failed.contains l || c.st == .retired || c.st == .failed then s
  else
    let put := fun (c : Channel) =>
      match c.la with
      | none => { c with la := some l }
      | some _ => match c.lb with | none => { c with lb := some l } | some _ => c
    let s1 := (s.updChan i put).stackFault (i / 32) 0x0502 (i % 32) (akind := 3)
      (addr := hbmAddr (i / 32) (i % 32) l.pc 0 l.lane)
    let n := c.failed.length
    let pend := fun (s : State) => s.updChan i fun c => { c with calPend := true }
    match c.st with
    | .healthy => if 1 ≤ c.spares then pend (s1.chanState i .degraded) else s1.chanState i .retiring
    | .degraded =>
      if 2 ≤ n then s1.chanState i .failed
      else if n + 1 ≤ c.spares then pend s1 else s1.chanState i .retiring
    | .sweep => pend (s1.chanState i .degraded)
    | .retiring => if 2 ≤ n then s1.chanState i .failed else s1
    | .retired => s1
    | .failed => s1

/-! ### Sectors (R126–R131, R175–R178) -/

/-- What a sector of a flat place is to the stack controller, by the region that holds it. -/
inductive SectorKind where
  /-- A plain sector. -/
  | plain
  /-- A data sector of a compressible region: its region, the block's flat place, the tag's place and half, and
  whether the block's stored form reaches the sector. -/
  | coded (region place tagPlace : Nat) (hi live : Bool)
  /-- A tag sector of a compressible region: the region, the stack and pseudo-channel, and the index of its first block. -/
  | tags (region stack pcx firstJ : Nat)
deriving DecidableEq, Repr

/-- Classify a pseudo-channel byte address. -/
def State.sectorKind (s : State) (stack pcx addr : Nat) : SectorKind :=
  let hit := firstBelow 64 fun n =>
    let r := s.region n
    let b := addr / (4 * mib)
    r.en && r.comp && (!r.placed || r.stack.toNat == stack) &&
      decide (r.firstBlock.toNat ≤ b ∧ b ≤ r.firstBlock.toNat + r.nblocksM1.toNat)
  match hit with
  | none => .plain
  | some n =>
    let r := s.region n
    let rel := addr - r.firstBlock.toNat * (4 * mib)
    if rel < r.nblocksM1.toNat * (4 * mib) then
      let j := rel / 512
      let tp := s.mem.flat stack pcx ((r.firstBlock.toNat + r.nblocksM1.toNat) * (4 * mib) + j / 2)
      let hi := j % 2 == 1
      let t := s.mem.tagAt tp hi
      .coded n (s.mem.flat stack pcx (addr / 512 * 512)) tp hi
        (t == 8 || (decide (1 ≤ t ∧ t ≤ 7) && decide (addr % 512 / 64 < t)))
    else
      .tags n stack pcx ((rel - r.nblocksM1.toNat * (4 * mib)) / 64 * 128)

/-- The codeword a read of a sector brings, with the errors on the way (R126). -/
def State.rawWord (s : State) (a : Nat) (errs : List (Nat × Byte)) : List Nat :=
  let w := rsEncode (cellsRead s.mem.cells (a / 64 * 64) 64) (s.mem.poisoned a)
  errs.foldl (fun w e => listSet w e.1 (listGet 0 w e.1 ^^^ e.2.toNat)) w

/-- Store a decoded codeword's data and POISON bit. -/
def State.putSector (s : State) (a : Nat) (w : List Nat) : State :=
  let bs := (w.take 64).map (BitVec.ofNat 8)
  let m := s.mem.writeCells (a / 64 * 64) bs
  { s with mem := if (listGet 0 w 64) % 2 = 1 then m.setPoison a else m.clearPoison a }

/-- Rewrite a sector as zero data, with or without POISON. -/
def State.zeroSector (s : State) (a : Nat) (poison : Bool) : State :=
  let m := s.mem.writeCells (a / 64 * 64) (List.replicate 64 0)
  { s with mem := if poison then m.setPoison a else m.clearPoison a }

/-- Poison every block a lost tag sector covers (R177): each tag becomes 15 and POISON is clear. -/
def State.loseTags (s : State) (st a chIdx : Nat) : State :=
  let s1 := { s with mem := (s.mem.writeCells (a / 64 * 64) (List.replicate 64 0xFF)).clearPoison a }
  (s1.updCx st fun c => { c with tagpois := satInc c.tagpois }).stackFault st 0x0602 chIdx (akind := 3)
    (addr := hbmAddr st chIdx 0 (a % 2 ^ 30) 63)

/-- Note the lanes corrected in one more codeword of a pseudo-channel, and declare lanes that reach 16 of 64
(R132). -/
def State.noteLanes (s : State) (i pc : Nat) (lanes : List Nat) : State :=
  let s1 := s.updChan i fun c =>
    if pc = 0 then { c with hist0 := (lanes :: c.hist0).take 64 } else { c with hist1 := (lanes :: c.hist1).take 64 }
  let h := if pc = 0 then (s1.chan i).hist0 else (s1.chan i).hist1
  lanes.foldl (fun st l =>
    if 16 ≤ (h.filter (·.contains l)).length then st.laneFails i ⟨pc, l⟩ else st) s1

/-- Outcome of decoding one sector. -/
inductive Decoded where
  | bad
  | good (s : State)
deriving DecidableEq

/-- Decode one sector read from `addr` of a pseudo-channel (R127, R129): count and write back a correction unless
the sector has been written since, and note the lanes; `bad` where it is uncorrectable. -/
def State.decodeSector (s : State) (i pc addr : Nat) (errs : List (Nat × Byte)) (written reread : Bool) : Decoded :=
  let a := s.mem.flat (i / 32) (i % 32 * 2 + pc) addr
  let er := (s.chan i).erasures pc
  match rsDecode er (s.rawWord a errs) with
  | none => .bad
  | some (w, changed) =>
    let fresh := changed.any fun p => !er.contains p
    let s1 := if fresh || reread then
        let s' := s.updChan i fun c => { c with corr := satInc c.corr }
        if written then s' else s'.putSector a w
      else s
    .good (s1.noteLanes i pc ((List.range 36).filter fun l => changed.any fun p => p % 36 == l))

/-- Count on-die ECC reports (R128). -/
def State.countOde (s : State) (i : Nat) (n : Nat) : State :=
  if n = 0 then s else s.updChan i fun c => { c with ode := satAdd c.ode n }

/-- A sector is uncorrectable on its reread (R129, R175, R177, R178). -/
def State.sectorLost (s : State) (i pc addr : Nat) (written scrub : Bool) : State :=
  let stack := i / 32
  let pcx := i % 32 * 2 + pc
  let a := s.mem.flat stack pcx addr
  let report := fun (s : State) =>
    (s.updChan i fun c => { c with uncorr := satInc c.uncorr }).stackFault stack 0x0501 (i % 32) (akind := 3)
      (addr := hbmAddr stack (i % 32) pc (addr / 64 * 64) 63)
  match s.sectorKind stack pcx addr with
  | .plain => report (if written then s else s.zeroSector a true)
  | .coded _ place tp hi live =>
    if live || !scrub then report (if written then s else s.poisonBlock place tp hi)
    else
      let s1 := if written then s else s.zeroSector a false
      s1.updCx stack fun c => { c with stale := satInc c.stale }
  | .tags .. => if written then s else s.loseTags stack a (i % 32)

/-- The errors of sector k in a command's list: (sector, codeword byte, value to XOR). -/
def errsOf (k : Nat) (l : List (Nat × Nat × Byte)) : List (Nat × Byte) :=
  (l.filter fun e => e.1 == k).map fun e => e.2

/-! ### The scheduler (R124, R125) -/

/-- Index of a channel. -/
abbrev chanIndex (stack : Fin 12) (ch : Fin 32) : Nat := stack.val * 32 + ch.val

/-- Look a block's tag sector up in the stack's tag cache (R156): a miss counts and brings the line in. The cache has 16
ways and no stated index or replacement, so once more than 16 lines have come in, whether one of them is still held is
free. -/
def State.tagLookup (s : State) (stack pcx addr : Nat) : State :=
  match s.sectorKind stack pcx addr with
  | .coded _ _ tp _ _ =>
    let line := tp / 64
    let c := s.cxStack stack
    let came := c.tagCache.contains line
    let (gone, s1) := if came && decide (16 < c.tagCache.length) then s.drawBit else (false, s)
    s1.updCx stack fun x => { x with
      misses := if came && !gone then x.misses else satInc x.misses
      tagCache := if came then x.tagCache else line :: x.tagCache }
  | _ => s

/-- Reads waiting in a pseudo-channel. -/
def Channel.readsOf (c : Channel) (pc : Nat) : Nat := (c.reads.filter fun r => r.pc == pc).length

/-- HBM_READ_REQUEST (R124): queued where the read queue has room; a full queue holds the requester back. -/
def execHbmReadRequest (stack : Fin 12) (ch : Fin 32) (pc : Fin 2) (addr : BitVec 30) (sectors : Fin 256)
    (demand : Bool) (s : State) : Res :=
  let i := chanIndex stack ch
  if (s.chan i).st == .retired || decide (512 ≤ (s.chan i).readsOf pc.val) then .next s
  else
    let s1 := s.tagLookup stack.val (ch.val * 2 + pc.val) addr.toNat
    .next (s1.updChan i fun c => { c with
      reads := c.reads ++ [{ pc := pc.val, addr := addr.toNat / 64 * 64, sectors := sectors.val + 1, demand := demand }] })

/-- Granules that a write of `n` bytes touches. -/
def granulesOf (addr n : Nat) : List Nat :=
  (List.range ((addr + n - 1) / 256 + 1 - addr / 256)).map fun k => addr / 256 + k

/-- HBM_WRITE_REQUEST (R124, R125, R131, R139): taken whole into the write buffer where it fits. A read sees it at
once; drain mode starts at 192 granules. A compressible region's block is written through its coder. -/
def execHbmWriteRequest (stack : Fin 12) (ch : Fin 32) (pc : Fin 2) (addr : BitVec 30) (data : List Byte)
    (poison : Bool) (s : State) : Res :=
  let i := chanIndex stack ch
  let pcx := ch.val * 2 + pc.val
  let c := s.chan i
  let gs := granulesOf addr.toNat data.length
  let buf := if pc.val = 0 then c.wbuf0 else c.wbuf1
  if data.isEmpty || c.st == .retired || decide (16384 < addr.toNat % 16384 + data.length)
      || decide (256 < buf.length + gs.length) then .next s
  else
    let s1 := s.tagLookup stack.val pcx addr.toNat
    let s2 := (pieces 64 (data.length / 64 + 2) addr.toNat data.length).foldl (fun st p =>
      let bs := (data.drop (p.1 - addr.toNat)).take p.2
      match st.sectorKind stack.val pcx p.1 with
      | .coded n place tp hi _ =>
        let r := st.region n
        if st.flatFailed place then st
        else if poison then st.poisonBlock place tp hi
        else
          match st.readBlock place tp hi with
          | none => st
          | some old => st.compressBlock r none place tp hi
              (old.take (p.1 % 512) ++ bs ++ old.drop (p.1 % 512 + bs.length))
      | .tags .. => st
      | .plain => st.writeFlatLine (st.mem.flat stack.val pcx p.1) bs poison) s1
    .next (s2.updChan i fun c =>
      if pc.val = 0 then
        { c with wbuf0 := c.wbuf0 ++ gs, drain0 := c.drain0 || decide (192 ≤ (c.wbuf0 ++ gs).length) }
      else
        { c with wbuf1 := c.wbuf1 ++ gs, drain1 := c.drain1 || decide (192 ≤ (c.wbuf1 ++ gs).length) })

/-- Take the oldest read of a pseudo-channel that is, or is not, a reread. -/
def takeRead (pc : Nat) (reread : Bool) : List HbmRead → Option (HbmRead × List HbmRead)
  | [] => none
  | r :: rs =>
    if r.pc = pc ∧ r.reread = reread then some (r, rs)
    else (takeRead pc reread rs).map fun x => (x.1, r :: x.2)

/-- A sector of a waiting read has been written since the read was accepted. -/
def State.sectorWritten (s : State) (i pc addr : Nat) (r : HbmRead) : Bool :=
  r.written.contains (s.mem.flat (i / 32) (i % 32 * 2 + pc) addr / 64)

/-- Errors that an armed injection adds to a demand read of a stack (R804): one symbol or three, in its first sector. Which
symbols, and how they are wrong, is free. -/
def State.injErrs (s : State) (stack : Nat) (demand : Bool) : List (Nat × Nat × Byte) × State :=
  let n := if s.injFires 5 stack then 1 else if s.injFires 6 stack then 3 else 0
  if demand && n != 0 then
    let (x, s1) := s.injDone.drawFree 32
    ((List.range n).map fun i => (0, (field x 0 8).toNat % 70 + i, field x (8 * (i + 1)) 8 ||| 1), s1)
  else ([], s)

/-- HBM_READ_COMPLETE (R129): the oldest read of a pseudo-channel arrives with errors. Each sector is decoded; an
uncorrectable one is read once more. A FAILED channel returns poison and decodes nothing (R139). -/
def execHbmReadComplete (stack : Fin 12) (ch : Fin 32) (pc : Fin 2) (errors : List (Nat × Nat × Byte))
    (ode : BitVec 12) (s : State) : Res :=
  let i := chanIndex stack ch
  match takeRead pc.val false (s.chan i).reads with
  | none => .next s
  | some (r, rest) =>
    let (inj, s0) := s.injErrs stack.val r.demand
    let s1 := s0.updChan i fun c => { c with reads := rest }
    if (s.chan i).st == .failed then .next s1
    else
      .next ((List.range r.sectors).foldl (fun st k =>
        let addr := r.addr + 64 * k
        let w := st.sectorWritten i pc.val addr r
        match st.decodeSector i pc.val addr (errsOf k (errors ++ inj)) w false with
        | .good st' => st'
        | .bad => st.updChan i fun c => { c with
            reads := { pc := pc.val, addr := addr, sectors := 1, demand := r.demand, reread := true,
                       written := r.written } :: c.reads }) (s1.countOde i ode.toNat))

/-- SECTOR_REREAD_COMPLETE (R129): a reread that decodes counts as a correction; one that does not poisons. -/
def execSectorRereadComplete (stack : Fin 12) (ch : Fin 32) (pc : Fin 2) (errors : List (Nat × Nat × Byte))
    (ode : BitVec 12) (s : State) : Res :=
  let i := chanIndex stack ch
  match takeRead pc.val true (s.chan i).reads with
  | none => .next s
  | some (r, rest) =>
    let s1 := (s.updChan i fun c => { c with reads := rest }).countOde i ode.toNat
    if (s.chan i).st == .failed then .next s1
    else
      let w := s1.sectorWritten i pc.val r.addr r
      match s1.decodeSector i pc.val r.addr (errsOf 0 errors) w true with
      | .good s2 => .next s2
      | .bad => .next (s1.sectorLost i pc.val r.addr w (!r.demand))

/-- DRIFT_LOCK_LOSS (R132): the drift tracker has lost lock on a lane, which is declared failed. -/
def execDriftLockLoss (stack : Fin 12) (ch : Fin 32) (pc : Fin 2) (lane : Fin 36) (s : State) : Res :=
  .next (s.laneFails (chanIndex stack ch) ⟨pc.val, lane.val⟩)

/-- DRIFT_TRACKING_SLOT (R142): each pseudo-channel's slot, 1 ms after its last. -/
def execDriftTrackingSlot (stack : Fin 12) (ch : Fin 32) (pc : Fin 2) (s : State) : Res :=
  let i := chanIndex stack ch
  let c := s.chan i
  if c.st == .retired || !s.elapsed (if pc.val = 0 then c.lastDrift0 else c.lastDrift1) 1000000 then .next s
  else .next (s.updChan i fun c =>
    if pc.val = 0 then { c with lastDrift0 := s.time.now } else { c with lastDrift1 := s.time.now })

/-- DRAM_REFRESH (R142): per-bank refresh and refresh management change no data. -/
def execDramRefresh (stack : Fin 12) (ch : Fin 32) (s : State) : Res :=
  let i := chanIndex stack ch
  if (s.chan i).st == .retired then .next s
  else .next (s.updChan i fun c => { c with refreshes := c.refreshes + 1 })

/-- Map one failed lane to a spare in a calibration window, with the result of its pattern check (R135). -/
def Channel.mapSpare (c : Channel) (l : Option Lane) (ok : Bool) : Channel × Option Lane :=
  match l with
  | none => (c, none)
  | some x =>
    if c.spares = 0 then (c, some x)
    else if ok then ({ c with spares := c.spares - 1, sweeping := c.sweeping ++ [x] }, none)
    else ({ c with spares := c.spares - 1 }, some x)

/-- CALIBRATION_WINDOW (R134, R135): a pending switch maps spares for the failed lanes. With every lane replaced the
channel enters SWEEP; a lane that stays failed sends it to RETIRING. -/
def execCalibrationWindow (stack : Fin 12) (ch : Fin 32) (checkA checkB : Bool) (s : State) : Res :=
  let i := chanIndex stack ch
  let c := s.chan i
  if c.calPend && c.st == .degraded then
    let (c1, la) := c.mapSpare c.la checkA
    let (c2, lb) := c1.mapSpare c.lb checkB
    let s1 := { s with ch := s.ch.set i { c2 with la := la, lb := lb, calPend := false } }
    .next (s1.chanState i (if la.isNone && lb.isNone then .sweep else .retiring))
  else .next s

/-- SWEEP_COMPLETE (R133, R136): the channel returns to HEALTHY, with no record. -/
def execSweepComplete (stack : Fin 12) (ch : Fin 32) (s : State) : Res :=
  let i := chanIndex stack ch
  if (s.chan i).st == .sweep then
    .next ((s.updChan i fun c => { c with sweeping := [] }).chanState i .healthy)
  else .next s

/-! ### Evacuation (R137, R138) -/

/-- Blocks per pseudo-channel that regions may use (R149). -/
def McRegs.usable (m : McRegs) : Nat := 256 - m.resvBlocks.toNat - 9 * m.trainRetired

/-- An enabled region holds a block of a pseudo-channel of the stack. -/
def State.blockInUse (s : State) (stack block : Nat) : Bool :=
  (List.range 64).any fun n =>
    let r := s.region n
    r.en && (!r.placed || r.stack.toNat == stack) &&
      decide (r.firstBlock.toNat ≤ block ∧ block ≤ r.firstBlock.toNat + r.nblocksM1.toNat)

/-- Number of a block: pseudo-channel index × 256 + block. -/
def blockId (stack pcx block : Nat) : Nat := (stack * 64 + pcx) * 256 + block

/-- A reserved block that evacuation may use (R137, R138): in another channel that is in use, and free. -/
def State.freeReserved (s : State) (i pcx block : Nat) : Bool :=
  let stack := i / 32
  let st := (s.chan (stack * 32 + pcx / 2)).st
  pcx / 2 != i % 32 && (st == .healthy || st == .degraded || st == .sweep) &&
    decide ((s.mcRegs stack).usable ≤ block ∧ block < 256) &&
    !(s.mem.redirect.any fun kv => kv.2 == blockId stack pcx block)

/-- Blocks of a retiring channel still to be copied: (pseudo-channel, block). -/
def State.leftInPlace (s : State) (i : Nat) : List (Nat × Nat) :=
  ([0, 1].flatMap fun pc => (List.range 256).map fun b => (pc, b)).filter fun x =>
    let id := blockId (i / 32) (i % 32 * 2 + x.1) x.2
    s.blockInUse (i / 32) x.2 && s.mem.redirect.get id id == id

/-- Copy a 4 MiB block of cells and its poison to another place (R137, R172). -/
def Memory.copyBlock (m : Memory) (src dst : Nat) : Memory :=
  let n := 4 * mib
  let inB := fun (b a : Nat) => decide (b * n ≤ a ∧ a < b * n + n)
  let clean := m.cells.filter fun kv => !inB dst kv.1
  let moved := (m.cells.filter fun kv => inB src kv.1).foldl (fun c kv => cellSet c (kv.1 - src * n + dst * n) kv.2) clean
  let pq := n / 64
  let inP := fun (b l : Nat) => decide (b * pq ≤ l ∧ l < b * pq + pq)
  let pclean := m.poison.filter fun l => !inP dst l
  { m with cells := moved
           poison := (m.poison.filter (inP src)).foldl (fun p l => setInsert p (l - src * pq + dst * pq)) pclean }

/-- EVACUATION_BLOCK_COPIED (R137): the block's redirect is installed and every later access goes to the copy. -/
def execEvacuationBlockCopied (stack : Fin 12) (ch : Fin 32) (pc : Fin 2) (block : Byte) (toPc : Fin 64)
    (toBlock : Byte) (s : State) : Res :=
  let i := chanIndex stack ch
  let src := blockId stack.val (ch.val * 2 + pc.val) block.toNat
  let dst := blockId stack.val toPc.val toBlock.toNat
  if (s.chan i).st == .retiring && (s.leftInPlace i).contains (pc.val, block.toNat)
      && s.freeReserved i toPc.val toBlock.toNat then
    let m := s.mem.copyBlock src dst
    .next { s with mem := { m with redirect := m.redirect.set src dst } }
  else .next s

/-- EVACUATION_COMPLETE (R137, R138): RETIRED when nothing is left in place; short of reserve, the channel stays
RETIRING and a record carries the count of blocks left. -/
def execEvacuationComplete (stack : Fin 12) (ch : Fin 32) (s : State) : Res :=
  let i := chanIndex stack ch
  if (s.chan i).st == .retiring then
    let left := s.leftInPlace i
    if left.isEmpty then .next (s.chanState i .retired)
    else if (List.range 64).any fun p => (List.range 256).any fun b => s.freeReserved i p b then .next s
    else .next (s.stackFault stack.val 0x0504 ch.val (akind := 3) (addr := hbmAddr stack.val ch.val 0 0 63)
      (extra := leBytes 4 left.length))
  else .next s

/-- PATROL_SCRUB_READ (R141): the next sector of the channel is read and decoded. -/
def execPatrolScrubRead (stack : Fin 12) (ch : Fin 32) (errors : List (Nat × Nat × Byte)) (ode : BitVec 12)
    (s : State) : Res :=
  let i := chanIndex stack ch
  let c := s.chan i
  if (s.mcRegs stack.val).scrubHours = 0 ∨ c.st = .retired ∨ c.st = .failed then .next s
  else
    let pc := c.scrubPos / 2 ^ 30
    let addr := c.scrubPos % 2 ^ 30
    let s1 := (s.updChan i fun c => { c with scrubPos := (c.scrubPos + 64) % 2 ^ 31 }).countOde i ode.toNat
    match s1.decodeSector i pc addr (errsOf 0 errors) false false with
    | .good s2 => .next s2
    | .bad => .next (s1.updChan i fun c => { c with
        reads := { pc := pc, addr := addr, sectors := 1, demand := false, reread := true } :: c.reads })

end Sys2Proof.Machine
end

