-- ==== Sys2Proof/Machine/Cmd.lean ====
section
/-! DEFINITION. What kernel-queue commands share: reading an input and writing an output with the statuses of R571,
and the effects of meeting a block that fails to decode (R176). -/
namespace Sys2Proof.Machine
open Sys2Proof

/-- A block of a compressible region that a unit reads or writes in part: where it does not decode, a record is
written, the failure is counted and the block is poisoned (R176). -/
def State.touchBlock (s : State) (da : Nat) : State :=
  match s.place da with
  | .basin n =>
    let r := s.region n
    if r.comp then
      let (place, tp, hi) := s.blockPlace r da
      if s.flatFailed place || (s.readBlock place tp hi).isSome || s.mem.tagAt tp hi == 15 then s
      else
        let st := flatStack place
        let ch := flatChannel place % 32
        let cb := headerCbk (cellsRead s.mem.cells place 2)
        ((s.poisonBlock place tp hi).updCx st fun c => { c with decode := satInc c.decode }).stackFault st 0x0601 ch
          (akind := 3) (addr := hbmAddr st ch (place / 2 ^ 30 % 2) (place % 2 ^ 30) 63) (extra := leBytes 4 cb)
    else s
  | _ => s

/-- Touch every block of a range (R176). -/
def State.touch (s : State) (da n : Nat) : State :=
  if (List.range 64).all fun k => !(s.region k).comp then s
  else (List.range ((da + n - 1) / 512 + 1 - da / 512)).foldl (fun st i =>
    st.touchBlock ((da / 512 + i) * 512)) s

/-- The status of reading a range that must be mapped and not poisoned (R571), if it fails. -/
def Rd.bad (r : Rd) : Option (BitVec 12) :=
  if r.unmapped then some stDaUnmapped else if r.poison then some stInPoison else none

/-- The status of writing a range, if it is rejected (R119, R187). -/
def State.outBad (s : State) (da n : Nat) : Option (BitVec 12) :=
  if s.rangeUnmapped da n then some stDaUnmapped
  else if s.writeBarred da n then some stDaProtected else none

/-- A device write with the effects of R176 on blocks it meets. -/
def State.wr (s : State) (da : Nat) (bs : List Byte) : State := (s.touch da bs.length).devWrite da bs

/-- End a kernel-queue command. -/
def State.done (s : State) (c : KCmd) (code : BitVec 12) (result : W64 := 0) (data : List Byte := []) : State :=
  s.complete c.q.val c.cid code result data

/-- A mirrored command that the pair-link controller runs (R644): its inputs come with it. -/
def fromMirror (c : KCmd) : Bool := c.q.val == 1024 && c.cid == 0xFFFF

/-- The command with an opcode's arguments as the pair-link controller runs it. -/
def mirrorKCmd (args : List W64) : KCmd :=
  let a := fun i => listGet 0 args i
  { q := 1024, cid := 0xFFFF, a0 := a 0, a1 := a 1, a2 := a 2, a3 := a 3, a4 := a 4, a5 := a 5, a6 := a 6 }

/-- Run a command's body on an input of `n` bytes, or end it with the input's status. -/
def State.withInput (s : State) (c : KCmd) (da n : Nat) (f : State → List Byte → State) : State :=
  if fromMirror c then f s (s.pl.rxData.take n) else
  match s.recall da n with
  | some s' => s'
  | none =>
    let s1 := s.touch da n
    let r := s1.readDA da n
    match r.bad with
    | some code => s1.done c code
    | none => f s1 r.data

end Sys2Proof.Machine
end

