-- ==== Sys2Proof/Machine/Num.lean ====
section
/-! DEFINITION. Number formats and deterministic arithmetic (03, R78–R111): exact values, the one rounding, the
conversions, the binary32 operations, the correctly rounded functions, and the anchored accumulator. -/
namespace Sys2Proof.Machine
open Sys2Proof

/-! ### Values -/

/-- A decoded value: NaN, an infinity, or (−1)^neg × m × 2^e, whose zeros keep their sign. -/
inductive FVal where
  | nan
  | inf (neg : Bool)
  | fin (neg : Bool) (m : Nat) (e : Int)
deriving DecidableEq, Repr

/-- A floating-point layout of R82. -/
structure FpFmt where
  ebits : Nat
  mbits : Nat
  bias : Int
  /-- An all-ones exponent field encodes infinities and NaN as in IEEE 754. -/
  ieee : Bool
  /-- E4M3: only S.1111.111 is NaN. -/
  nanTop : Bool
  /-- Largest finite value as mantissa and exponent. -/
  maxM : Nat
  maxE : Int
deriving DecidableEq, Repr

def fmt32 : FpFmt := ⟨8, 23, 127, true, false, 0xFFFFFF, 104⟩
def fmt16 : FpFmt := ⟨5, 10, 15, true, false, 0x7FF, 5⟩
def fmtBf16 : FpFmt := ⟨8, 7, 127, true, false, 0xFF, 120⟩
def fmtE4M3 : FpFmt := ⟨4, 3, 7, false, true, 14, 5⟩
def fmtE5M2 : FpFmt := ⟨5, 2, 15, true, false, 7, 13⟩
def fmtE3M2 : FpFmt := ⟨3, 2, 3, false, false, 7, 2⟩
def fmtE2M3 : FpFmt := ⟨2, 3, 1, false, false, 15, -1⟩
def fmtE2M1 : FpFmt := ⟨2, 1, 1, false, false, 3, 1⟩

/-- The floating-point formats by the codes of R79. -/
def fpFmt : Nat → Option FpFmt
  | 0 => some fmt32 | 1 => some fmt16 | 2 => some fmtBf16 | 3 => some fmtE4M3 | 4 => some fmtE5M2
  | 5 => some fmtE3M2 | 6 => some fmtE2M3 | 7 => some fmtE2M1 | _ => none

/-- Decode a floating-point code (R82, R83, R84). -/
def FpFmt.decode (f : FpFmt) (x : Nat) : FVal :=
  let m := x % 2 ^ f.mbits
  let e := x / 2 ^ f.mbits % 2 ^ f.ebits
  let neg := x / 2 ^ (f.mbits + f.ebits) % 2 == 1
  if f.ieee && e == 2 ^ f.ebits - 1 then (if m = 0 then .inf neg else .nan)
  else if f.nanTop && e == 2 ^ f.ebits - 1 && m == 2 ^ f.mbits - 1 then .nan
  else if e = 0 then .fin neg m (1 - f.bias - f.mbits)
  else .fin neg (m + 2 ^ f.mbits) (e - f.bias - f.mbits)

/-- The canonical NaN of a format that has one (R84). -/
def FpFmt.nan (f : FpFmt) : Nat :=
  if f.nanTop then 2 ^ (f.ebits + f.mbits) - 1
  else if f.mbits = 2 then 0x7F
  else (2 ^ f.ebits - 1) * 2 ^ f.mbits + 2 ^ (f.mbits - 1)

def FpFmt.hasNan (f : FpFmt) : Bool := f.ieee || f.nanTop

/-- A two's complement element. -/
def intVal (bits x : Nat) (e : Int) : FVal :=
  let x := x % 2 ^ bits
  if x < 2 ^ (bits - 1) then .fin false x e else .fin true (2 ^ bits - x) e

/-- Element bits of a format code (R79), scale aside. -/
def elemBits : Nat → Nat
  | 0x00 => 32 | 0x01 => 16 | 0x02 => 16 | 0x03 => 8 | 0x04 => 8 | 0x05 => 6 | 0x06 => 6 | 0x07 => 4
  | 0x08 => 8 | 0x09 => 4 | 0x0A => 8 | 0x0B => 8 | 0x0C => 6 | 0x0D => 6 | 0x0E => 4 | 0x0F => 8
  | 0x10 => 32 | 0x11 => 256 | _ => 0

/-- MX formats (R79). -/
def isMx (code : Nat) : Bool := decide (0x0A ≤ code ∧ code ≤ 0x0F)

/-- The element format inside an MX format; a non-MX code is its own. MXINT8 is the code 0x0F itself. -/
def mxElem : Nat → Nat
  | 0x0A => 3 | 0x0B => 4 | 0x0C => 5 | 0x0D => 6 | 0x0E => 7 | c => c

/-- Decode an element of a format code (R82, R85), an MX scale aside. -/
def decodeElem (code x : Nat) : FVal :=
  match fpFmt (mxElem code) with
  | some f => f.decode x
  | none =>
    match code with
    | 0x08 => intVal 8 x 0
    | 0x09 => intVal 4 x 0
    | 0x0F => intVal 8 x (-6)
    | _ => intVal 32 x 0

/-- An element under its block scale byte (R87). -/
def scaleElem (scale : Nat) : FVal → FVal
  | .fin n m e => if scale = 255 then .nan else .fin n m (e + scale - 127)
  | v => if scale = 255 then .nan else v

def FVal.isNan : FVal → Bool
  | .nan => true | _ => false

def FVal.isZero : FVal → Bool
  | .fin _ 0 _ => true | _ => false

def FVal.neg : FVal → FVal
  | .nan => .nan | .inf n => .inf (!n) | .fin n m e => .fin (!n) m e

def FVal.isNeg : FVal → Bool
  | .nan => false | .inf n => n | .fin n _ _ => n

def FVal.one : FVal := .fin false 1 0

/-- The signed integer m of a finite value scaled to exponent `e0` (e0 not above its own exponent). -/
def signedAt (neg : Bool) (m : Nat) (e e0 : Int) : Int :=
  let k := (m * 2 ^ (e - e0).toNat : Nat)
  if neg then -(k : Int) else k

/-- Exact sum of two finite values, as integer and exponent. -/
def exactAdd (n1 : Bool) (m1 : Nat) (e1 : Int) (n2 : Bool) (m2 : Nat) (e2 : Int) : Int × Int :=
  let e0 := min e1 e2
  (signedAt n1 m1 e1 e0 + signedAt n2 m2 e2 e0, e0)

/-- Compare two finite values exactly. -/
def exactCmp (n1 : Bool) (m1 : Nat) (e1 : Int) (n2 : Bool) (m2 : Nat) (e2 : Int) : Ordering :=
  let e0 := min e1 e2
  compare (signedAt n1 m1 e1 e0) (signedAt n2 m2 e2 e0)

/-- ⌊log₂ (num ÷ den)⌋ for nonzero num and den. -/
def ratLog2 (num den : Nat) : Int :=
  let k : Int := Int.ofNat num.log2 - Int.ofNat den.log2
  -- num / den lies in [2^(k−1), 2^(k+1)), so the exponent is k or k − 1
  if k ≥ 0 then (if num < den * 2 ^ k.toNat then k - 1 else k)
  else (if num * 2 ^ (-k).toNat < den then k - 1 else k)

/-! ### The one rounding (R101, R103, R104) -/

/-- Rounding modes of R103. -/
inductive Rm where
  | rne | rtz | rdn | rup
deriving DecidableEq, Repr

def Rm.ofCode : Nat → Rm
  | 0 => .rne | 1 => .rtz | 2 => .rdn | _ => .rup

/-- Whether a quotient q with remainder r of d is rounded up in magnitude. -/
def roundsUp (rm : Rm) (neg : Bool) (q r d : Nat) : Bool :=
  match rm with
  | .rne => decide (d < 2 * r) || (2 * r == d && q % 2 == 1)
  | .rtz => false
  | .rdn => neg && r != 0
  | .rup => !neg && r != 0

/-- num ÷ den × 2^e rounded to an integer multiple of 2^u: the multiple, and whether it is exact. -/
def roundAt (rm : Rm) (neg : Bool) (num den : Nat) (e u : Int) : Nat × Bool :=
  let s := e - u
  let n := if s ≥ 0 then num * 2 ^ s.toNat else num
  let d := if s ≥ 0 then den else den * 2 ^ (-s).toNat
  let q := n / d
  let r := n % d
  (if roundsUp rm neg q r d then q + 1 else q, r == 0)

/-- A converted value: its code in the destination and the flags raised. -/
structure Conv where
  bits : Nat
  flags : ArithFlags := {}
deriving DecidableEq, Repr

/-- The code of a finite magnitude q × 2^u of a floating-point format, q below 2^(mbits+1), u at least the least
exponent. -/
def FpFmt.encode (f : FpFmt) (neg : Bool) (q : Nat) (u : Int) : Nat :=
  let sgn := if neg then 2 ^ (f.ebits + f.mbits) else 0
  if q < 2 ^ f.mbits then sgn + q
  else sgn + (u + f.mbits + f.bias).toNat * 2 ^ f.mbits + (q - 2 ^ f.mbits)

/-- The largest finite code. -/
def FpFmt.maxCode (f : FpFmt) (neg : Bool) : Nat := f.encode neg f.maxM f.maxE

/-- The infinity of an IEEE format. -/
def FpFmt.infCode (f : FpFmt) (neg : Bool) : Nat :=
  (if neg then 2 ^ (f.ebits + f.mbits) else 0) + (2 ^ f.ebits - 1) * 2 ^ f.mbits

/-- Finite overflow (R104). -/
def FpFmt.overflow (f : FpFmt) (rm : Rm) (sat neg : Bool) : Nat :=
  if f.ieee then
    if sat then f.maxCode neg
    else
      match rm with
      | .rne => f.infCode neg
      | .rtz => f.maxCode neg
      | .rdn => if neg then f.infCode neg else f.maxCode neg
      | .rup => if neg then f.maxCode neg else f.infCode neg
  else if f.nanTop then (if sat then f.maxCode neg else f.nan)
  else f.maxCode neg

/-- Round a nonzero rational num ÷ den × 2^e of a sign into a floating-point format (R103, R104). -/
def FpFmt.round (f : FpFmt) (rm : Rm) (sat neg : Bool) (num den : Nat) (e : Int) : Conv :=
  if num = 0 then { bits := if neg then 2 ^ (f.ebits + f.mbits) else 0 }
  else
    let k := ratLog2 num den + e
    let emin := 1 - f.bias
    let u := max k emin - f.mbits
    let (q0, exact) := roundAt rm neg num den e u
    let (q, u') := if q0 = 2 ^ (f.mbits + 1) then (2 ^ f.mbits, u + 1) else (q0, u)
    let overs := decide (f.maxE < u' ∨ (u' = f.maxE ∧ f.maxM < q))
    if overs then { bits := f.overflow rm sat neg, flags := { ovf := true, inx := true } }
    else
      let (qu, _) := roundAt rm neg num den e (k - f.mbits)
      let tiny := decide (k < emin) && !(k + 1 == emin && qu == 2 ^ (f.mbits + 1))
      { bits := f.encode neg q u', flags := { inx := !exact, unf := tiny && !exact } }

/-- Round to an integer format of a width (R104). -/
def roundInt (bits : Nat) (rm : Rm) (neg : Bool) (num den : Nat) (e : Int) : Conv :=
  let (q, exact) := roundAt rm neg num den e 0
  let lim := if neg then 2 ^ (bits - 1) else 2 ^ (bits - 1) - 1
  let overs := decide (lim < q)
  let m := min q lim
  { bits := if neg then (2 ^ bits - m) % 2 ^ bits else m, flags := { ovf := overs, inx := !exact } }

/-- Widths of the integer output formats. -/
def intBits : Nat → Option Nat
  | 0x08 => some 8 | 0x09 => some 4 | 0x10 => some 32 | _ => none

/-- Convert a rational magnitude with a sign to a destination format code (R104). -/
def convRat (code : Nat) (rm : Rm) (sat neg : Bool) (num den : Nat) (e : Int) : Conv :=
  match intBits code with
  | some b => roundInt b rm neg num den e
  | none =>
    match fpFmt (mxElem code) with
    | some f => f.round rm sat neg num den e
    | none => { bits := 0 }

/-- Convert an infinity (R104). -/
def convInf (code : Nat) (sat neg : Bool) : Conv :=
  match intBits code with
  | some b => { bits := if neg then 2 ^ (b - 1) else 2 ^ (b - 1) - 1, flags := { inv := true } }
  | none =>
    match fpFmt (mxElem code) with
    | some f =>
      if f.ieee && !sat then { bits := f.infCode neg }
      else if f.nanTop && !sat then { bits := f.nan, flags := { inv := true } }
      else { bits := f.maxCode neg, flags := { ovf := true } }
    | none => { bits := 0 }

/-- Convert a NaN (R104). -/
def convNan (code : Nat) : Conv :=
  match intBits code with
  | some _ => { bits := 0, flags := { inv := true } }
  | none =>
    match fpFmt (mxElem code) with
    | some f => if f.hasNan then { bits := f.nan } else { bits := 0, flags := { inv := true } }
    | none => { bits := 0 }

/-- Convert any value (R104). -/
def convVal (code : Nat) (rm : Rm) (sat : Bool) : FVal → Conv
  | .nan => convNan code
  | .inf n => convInf code sat n
  | .fin n m e => convRat code rm sat n m 1 e

/-! ### binary32 operations (R106) -/

def dec32 (x : W32) : FVal := fmt32.decode x.toNat

/-- A binary32 result with its flags. -/
structure F32 where
  bits : W32
  flags : ArithFlags := {}
deriving DecidableEq, Repr

def nan32 : W32 := 0x7FC00000
def f32Nan : F32 := { bits := nan32 }
def f32Inv : F32 := { bits := nan32, flags := { inv := true } }
def f32Inf (neg : Bool) : F32 := { bits := BitVec.ofNat 32 (fmt32.infCode neg) }
def f32Zero (neg : Bool) : F32 := { bits := if neg then 0x80000000 else 0 }

/-- Round an exact rational to binary32. -/
def f32Rat (rm : Rm) (neg : Bool) (num den : Nat) (e : Int) : F32 :=
  let c := fmt32.round rm false neg num den e
  { bits := BitVec.ofNat 32 c.bits, flags := c.flags }

def f32Val (rm : Rm) : FVal → F32
  | .nan => f32Nan | .inf n => f32Inf n | .fin n m e => f32Rat rm n m 1 e

/-- Round an exact signed integer × 2^e; a zero takes the sign given. -/
def f32Int (rm : Rm) (zneg : Bool) (v e : Int) : F32 :=
  if v = 0 then f32Zero zneg else f32Rat rm (decide (v < 0)) v.natAbs 1 e

/-- The sign of an exactly zero sum (R106, IEEE 754). -/
def zeroSumNeg (rm : Rm) (a b : Bool) : Bool := if a = b then a else rm == .rdn

/-- Sum of two decoded values. -/
def fAddV (rm : Rm) : FVal → FVal → F32
  | .nan, _ => f32Nan
  | _, .nan => f32Nan
  | .inf a, .inf b => if a = b then f32Inf a else f32Inv
  | .inf a, _ => f32Inf a
  | _, .inf b => f32Inf b
  | .fin n1 m1 e1, .fin n2 m2 e2 =>
    let (v, e) := exactAdd n1 m1 e1 n2 m2 e2
    f32Int rm (if m1 = 0 ∧ m2 = 0 then zeroSumNeg rm n1 n2 else rm == .rdn) v e

def fAdd (rm : Rm) (a b : W32) : F32 := fAddV rm (dec32 a) (dec32 b)
def fSub (rm : Rm) (a b : W32) : F32 := fAddV rm (dec32 a) (dec32 b).neg

/-- Exact product of two values; `none` marks ∞ × 0. -/
def mulV : FVal → FVal → Option FVal
  | .nan, _ => some .nan
  | _, .nan => some .nan
  | .inf a, .inf b => some (.inf (a != b))
  | .inf a, .fin b m _ => if m = 0 then none else some (.inf (a != b))
  | .fin a m _, .inf b => if m = 0 then none else some (.inf (a != b))
  | .fin n1 m1 e1, .fin n2 m2 e2 => some (.fin (n1 != n2) (m1 * m2) (e1 + e2))

def fMul (rm : Rm) (a b : W32) : F32 :=
  match mulV (dec32 a) (dec32 b) with
  | none => f32Inv
  | some v => f32Val rm v

/-- Fused multiply-add with one rounding; ∞ × 0 is invalid whatever the addend is (R106). -/
def fFma (rm : Rm) (a b c : W32) : F32 :=
  match mulV (dec32 a) (dec32 b) with
  | none => f32Inv
  | some v => fAddV rm v (dec32 c)

/-- Division (R106, R110). -/
def fDiv (rm : Rm) (a b : W32) : F32 :=
  match dec32 a, dec32 b with
  | .nan, _ => f32Nan
  | _, .nan => f32Nan
  | .inf _, .inf _ => f32Inv
  | .inf x, .fin y _ _ => f32Inf (x != y)
  | .fin x _ _, .inf y => f32Zero (x != y)
  | .fin x m1 e1, .fin y m2 e2 =>
    if m2 = 0 then
      if m1 = 0 then f32Inv else { f32Inf (x != y) with flags := { dz := true } }
    else if m1 = 0 then f32Zero (x != y)
    else f32Rat rm (x != y) m1 m2 (e1 - e2)

def one32 : W32 := 0x3F800000
def fRecip (rm : Rm) (a : W32) : F32 := fDiv rm one32 a

/-- Square root of a positive rational m × 2^e to many bits: an integer r with r² ≤ m × 2^(e+2p), the exponent of its
unit, and whether the root is exact. -/
def sqrtParts (m : Nat) (e : Int) (p : Nat) : Nat × Int × Bool :=
  let m' := if e % 2 = 0 then m else 2 * m
  let e' := if e % 2 = 0 then e else e - 1
  let n := m' * 2 ^ (2 * p)
  let r := n.sqrt
  (r, e' / 2 - p, r * r == n)

/-- Square root (R106). -/
def fSqrt (rm : Rm) (a : W32) : F32 :=
  match dec32 a with
  | .nan => f32Nan
  | .inf n => if n then f32Inv else f32Inf false
  | .fin n m e =>
    if m = 0 then f32Zero n
    else if n then f32Inv
    else
      let (r, u, ex) := sqrtParts m e 64
      -- an inexact root lies strictly between r and r + 1 units
      if ex then f32Rat rm false r 1 u else f32Rat rm false (2 * r + 1) 1 (u - 1)

/-- Comparison outcomes (R106). -/
inductive Cmp where
  | lt | eq | gt | un
deriving DecidableEq, Repr

def fCmpV : FVal → FVal → Cmp
  | .nan, _ => .un
  | _, .nan => .un
  | .inf a, .inf b => if a = b then .eq else if a then .lt else .gt
  | .inf a, _ => if a then .lt else .gt
  | _, .inf b => if b then .gt else .lt
  | .fin n1 m1 e1, .fin n2 m2 e2 =>
    match exactCmp n1 m1 e1 n2 m2 e2 with
    | .lt => .lt | .eq => .eq | .gt => .gt

def fCmp (a b : W32) : Cmp := fCmpV (dec32 a) (dec32 b)

/-- The canonical binary32 code of a value that is one already. -/
def canon32 (a : W32) : W32 := if (dec32 a).isNan then nan32 else a

/-- Minimum: canonical NaN if either is NaN, −0 below +0 (R106). -/
def fMin (a b : W32) : W32 :=
  match fCmp a b with
  | .un => nan32
  | .lt => a
  | .gt => b
  | .eq => if bit a 31 then a else b

def fMax (a b : W32) : W32 :=
  match fCmp a b with
  | .un => nan32
  | .lt => b
  | .gt => a
  | .eq => if bit a 31 then b else a

/-! ### Correctly rounded functions (R108)

Each function is evaluated in fixed point with `fxBits` fractional bits, far beyond the precision at which any binary32
argument's result can lie next to a rounding boundary; an irrational result is then marked inexact by an odd last
bit. -/

def fxBits : Nat := 704

/-- Truncating fixed-point product of signed values. -/
def fxMul (a b : Int) : Int := a * b / (2 ^ fxBits : Nat)

/-- e^r for a small fixed-point r, by its Taylor series from the last term down. -/
def fxExpSeries (r : Int) : Nat → Nat → Int → Int → Int
  | 0, _, _, sum => sum
  | fuel + 1, n, term, sum =>
    let t := fxMul term r / (n : Int)
    fxExpSeries r fuel (n + 1) t (sum + t)

/-- Square a fixed-point value k times. -/
def fxSquare : Nat → Int → Int
  | 0, x => x
  | k + 1, x => fxSquare k (fxMul x x)

/-- e^x in fixed point, for a dyadic x = v × 2^e of magnitude below 2^8: reduce by 2^20, sum, square back. -/
def fxExp (v e : Int) : Int :=
  let s := (fxBits : Int) + e - 20
  let r := if s ≥ 0 then v * (2 ^ s.toNat : Nat) else v / (2 ^ (-s).toNat : Nat)
  let one : Int := (2 ^ fxBits : Nat)
  fxSquare 20 (fxExpSeries r 48 1 one one)

/-- 2 × atanh(z) in fixed point: the series 2 (z + z³/3 + z⁵/5 + …). -/
def fxAtanhSeries (z2 : Int) : Nat → Nat → Int → Int → Int
  | 0, _, _, sum => sum
  | fuel + 1, n, pw, sum =>
    let p := fxMul pw z2
    fxAtanhSeries z2 fuel (n + 2) p (sum + p / ((n + 2 : Nat) : Int))

/-- ln (num ÷ den) in fixed point, for a ratio from 1 to 2. -/
def fxLnRatio (num den : Nat) : Int :=
  let z : Int := (((num : Int) - (den : Int)) * (2 ^ fxBits : Nat)) / ((num + den : Nat) : Int)
  2 * fxAtanhSeries (fxMul z z) 230 1 z z

/-- ln 2 in fixed point. -/
def fxLn2 : Int := fxLnRatio 2 1

/-- Round an irrational positive fixed-point value: its unit is 2^−fxBits and the true value lies beside it. -/
def f32Fx (rm : Rm) (neg : Bool) (v : Int) : F32 :=
  f32Rat rm neg (2 * v.toNat + 1) 1 (-(fxBits : Int) - 1)

/-- A positive value far below the least subnormal, for results too small to compute in fixed point. -/
def f32Tiny (rm : Rm) (neg : Bool) : F32 := f32Rat rm neg 1 1 (-400)
/-- A value far above the largest finite one. -/
def f32Huge (rm : Rm) : F32 := f32Rat rm false 1 1 400

/-- |m × 2^e| is at least 2^k. -/
def magAtLeast (m : Nat) (e k : Int) : Bool := decide (k ≤ Int.ofNat m.log2 + e)

def fExp (rm : Rm) (a : W32) : F32 :=
  match dec32 a with
  | .nan => f32Nan
  | .inf n => if n then f32Zero false else f32Inf false
  | .fin n m e =>
    if m = 0 then { bits := one32 }
    else if magAtLeast m e 8 then (if n then f32Tiny rm false else f32Huge rm)
    else f32Fx rm false (fxExp (if n then -(m : Int) else m) e)

def fLog (rm : Rm) (a : W32) : F32 :=
  match dec32 a with
  | .nan => f32Nan
  | .inf n => if n then f32Inv else f32Inf false
  | .fin n m e =>
    if m = 0 then { f32Inf true with flags := { dz := true } }
    else if n then f32Inv
    else if a = one32 then f32Zero false
    else
      let k := m.log2
      let v := fxLnRatio m (2 ^ k) + (e + k) * fxLn2
      if v < 0 then f32Fx rm true (-v) else f32Fx rm false v

def fRsqrt (rm : Rm) (a : W32) : F32 :=
  match dec32 a with
  | .nan => f32Nan
  | .inf n => if n then f32Inv else f32Zero false
  | .fin n m e =>
    if m = 0 then { f32Inf n with flags := { dz := true } }
    else if n then f32Inv
    else
      -- 1 ÷ sqrt(x) = sqrt(x) ÷ x; the root is exact only where m × 2^e is an even power of two times a square
      let (r, u, ex) := sqrtParts m e 200
      if ex then f32Rat rm false 1 r (-u)
      else f32Rat rm false (2 * (2 ^ 600 / r) + 1) 1 (-u - 601)

/-- A quotient of fixed-point values. -/
def fxDiv (a b : Int) : Int := a * (2 ^ fxBits : Nat) / b

def fSigmoid (rm : Rm) (a : W32) : F32 :=
  match dec32 a with
  | .nan => f32Nan
  | .inf n => if n then f32Zero false else { bits := one32 }
  | .fin n m e =>
    let one : Int := (2 ^ fxBits : Nat)
    if m = 0 then { bits := 0x3F000000 }
    else if magAtLeast m e 8 then
      if n then f32Tiny rm false else f32Fx rm false (one - 2 ^ 300)
    else
      -- 1 ÷ (1 + e^−x)
      let t := fxExp (if n then (m : Int) else -(m : Int)) e
      f32Fx rm false (fxDiv one (one + t))

def fTanh (rm : Rm) (a : W32) : F32 :=
  match dec32 a with
  | .nan => f32Nan
  | .inf n => { bits := if n then 0xBF800000 else one32 }
  | .fin n m e =>
    let one : Int := (2 ^ fxBits : Nat)
    if m = 0 then f32Zero n
    else if magAtLeast m e 7 then f32Fx rm n (one - 2 ^ 300)
    else
      -- (e^2x − 1) ÷ (e^2x + 1) on the magnitude
      let t := fxExp m (e + 1)
      f32Fx rm n (fxDiv (t - one) (t + one))

/-! ### The anchored accumulator (R89–R101) -/

/-- A term of an accumulation. `inv` marks a NaN that comes from an invalid operation. -/
inductive Term where
  | nan (inv : Bool)
  | inf (neg : Bool)
  | fin (neg : Bool) (m : Nat) (e : Int)
deriving DecidableEq, Repr

/-- The term of a product of two values (R89, R97). -/
def Term.ofProduct (a b : FVal) : Term :=
  match mulV a b with
  | none => .nan true
  | some .nan => .nan false
  | some (.inf n) => .inf n
  | some (.fin n m e) => .fin n m e

def Term.ofVal : FVal → Term
  | .nan => .nan false | .inf n => .inf n | .fin n m e => .fin n m e

/-- Anchor modes (R90, R91). -/
inductive AMode where
  | exact | auto | declared
deriving DecidableEq, Repr

def AMode.code : AMode → Nat
  | .exact => 0 | .auto => 1 | .declared => 2

/-- A fresh record of a mode; `l` is L in exact and declared mode. -/
def Acc.fresh (mode : Nat) (l : Int) : Acc := { mode := mode, lsb := l }

/-- Move the window up by sections, those below it becoming sticky (R92, R99). -/
def Acc.raiseBy : Nat → Acc → Acc
  | 0, a => a
  | k + 1, a =>
    Acc.raiseBy k { a with
      sec0 := a.sec1, sec1 := a.sec2, sec2 := 0, nz0 := a.nz1, nz1 := a.nz2, nz2 := false,
      stk := a.stk || a.nz0, lsb := a.lsb + 32 }

/-- Raise the window to a higher L on the 32-bit grid; three sections empty it. -/
def Acc.raiseTo (a : Acc) (l : Int) : Acc :=
  if l ≤ a.lsb then a
  else { Acc.raiseBy (min 3 ((l - a.lsb) / 32).toNat) a with lsb := l }

/-- L of auto mode for a largest exponent E (R91). -/
def autoL (e : Int) : Int := -32 * ((95 - e) / 32)

/-- ⌊log₂ |p|⌋ of a nonzero finite term. -/
def Term.exp? : Term → Option Int
  | .fin _ m e => if m = 0 then none else some (Int.ofNat m.log2 + e)
  | _ => none

/-- The largest term exponent of a chunk (R91). -/
def chunkExp (ts : List Term) : Option Int :=
  ts.foldl (fun o t =>
    match o, t.exp? with
    | none, x => x
    | some a, none => some a
    | some a, some b => some (max a b)) none

/-- Put one term into a record whose window is fixed (R92, R96, R97). -/
def Acc.addTerm (a : Acc) : Term → Acc
  | .nan i => { a with nan := true, inv := a.inv || i }
  | .inf n => if n then { a with ninf := true } else { a with pinf := true }
  | .fin n m e =>
    if m = 0 then a
    else if a.mode = 2 ∧ a.lsb + 96 ≤ Int.ofNat m.log2 + e then { a with aov := true, empty := false }
    else
      let s := e - a.lsb
      let mag : Nat := if s ≥ 0 then m * 2 ^ s.toNat else m / 2 ^ (-s).toNat
      let lost := if s ≥ 0 then false else m % 2 ^ (-s).toNat != 0
      let sg : Int := if n then -1 else 1
      let p0 : Nat := mag % 2 ^ 32
      let p1 : Nat := mag / 2 ^ 32 % 2 ^ 32
      let p2 : Nat := mag / 2 ^ 64
      { a with
        empty := false, stk := a.stk || lost
        sec0 := a.sec0 + sg * p0, sec1 := a.sec1 + sg * p1, sec2 := a.sec2 + sg * p2
        nz0 := a.nz0 || p0 != 0, nz1 := a.nz1 || p1 != 0, nz2 := a.nz2 || p2 != 0 }

/-- Fix the window for a chunk in auto mode (R91, R92). -/
def Acc.fitChunk (a : Acc) (ts : List Term) : Acc :=
  if a.mode = 1 then
    match chunkExp ts with
    | none => a
    | some e => if a.empty then { a with lsb := autoL e } else a.raiseTo (autoL e)
  else a

/-- The COUNT limit of R98. -/
abbrev accLimit : Nat := 2 ^ 24 - 1

/-- Absorb one chunk of terms, which counts 1 (R98); none is ACC_LIMIT. -/
def Acc.addChunk (a : Acc) (ts : List Term) : Option Acc :=
  if accLimit < a.count + 1 then none
  else some { ts.foldl Acc.addTerm (a.fitChunk ts) with count := a.count + 1 }

/-- Why an accumulator operation raises an arithmetic exception (R98, R99). -/
inductive AccErr where
  | limit | mismatch
deriving DecidableEq, Repr

/-- Merge a record into another (R99). -/
def Acc.merge (a b : Acc) : Except AccErr Acc :=
  if a.mode ≠ b.mode ∨ (a.mode ≠ 1 ∧ a.lsb ≠ b.lsb)
      ∨ (a.mode = 1 ∧ ((a.empty = false ∧ a.lsb % 32 ≠ 0) ∨ (b.empty = false ∧ b.lsb % 32 ≠ 0))) then
    .error .mismatch
  else if accLimit < a.count + b.count then .error .limit
  else
    let l := if a.mode ≠ 1 then a.lsb else if a.empty then b.lsb else if b.empty then a.lsb else max a.lsb b.lsb
    let a' := if a.empty then { a with lsb := l } else a.raiseTo l
    let b' := if b.empty then { b with lsb := l } else b.raiseTo l
    .ok { a' with
      sec0 := a'.sec0 + b'.sec0, sec1 := a'.sec1 + b'.sec1, sec2 := a'.sec2 + b'.sec2,
      empty := a'.empty && b'.empty,
      nz0 := a'.nz0 || b'.nz0, nz1 := a'.nz1 || b'.nz1, nz2 := a'.nz2 || b'.nz2,
      stk := a'.stk || b'.stk, nan := a'.nan || b'.nan, pinf := a'.pinf || b'.pinf,
      ninf := a'.ninf || b'.ninf, inv := a'.inv || b'.inv, aov := a'.aov || b'.aov,
      count := a'.count + b'.count }

/-- The 256 bits of a record (R90), little-endian bytes. -/
def Acc.bytes (a : Acc) : List Byte :=
  let flags := a.empty.toNat + 2 * a.nz0.toNat + 4 * a.nz1.toNat + 8 * a.nz2.toNat + 16 * a.stk.toNat
    + 32 * a.nan.toNat + 64 * a.pinf.toNat + 128 * a.ninf.toNat + 256 * a.inv.toNat + 512 * a.aov.toNat
    + 1024 * a.mode
  leBytes 8 (a.sec0 % 2 ^ 64).toNat ++ leBytes 8 (a.sec1 % 2 ^ 64).toNat ++ leBytes 8 (a.sec2 % 2 ^ 64).toNat
    ++ leBytes 2 (a.lsb % 2 ^ 16).toNat ++ leBytes 2 flags ++ leBytes 3 a.count ++ [0]

/-- A two's complement number of a width. -/
def toSigned (bits n : Nat) : Int := if n < 2 ^ (bits - 1) then n else (n : Int) - 2 ^ bits

/-- The record that 32 bytes hold (R90). -/
def Acc.ofBytes (b : List Byte) : Acc :=
  let f := leAt b 26 2
  { sec0 := toSigned 64 (leAt b 0 8), sec1 := toSigned 64 (leAt b 8 8), sec2 := toSigned 64 (leAt b 16 8),
    lsb := toSigned 16 (leAt b 24 2), empty := f.testBit 0, nz0 := f.testBit 1, nz1 := f.testBit 2,
    nz2 := f.testBit 3, stk := f.testBit 4, nan := f.testBit 5, pinf := f.testBit 6, ninf := f.testBit 7,
    inv := f.testBit 8, aov := f.testBit 9, mode := f / 1024 % 4, count := leAt b 28 3 }

/-- The numerator of V in units of 2^L. -/
def Acc.units (a : Acc) : Int := a.sec0 + a.sec1 * 2 ^ 32 + a.sec2 * 2 ^ 64

/-- Output of V ÷ n + b in a format (R101, R102): n is 1 but for mean pooling, b the bias if there is one.
A term beyond the anchor reports AOV whichever line chooses the result (R110); no term gives b itself. -/
def Acc.output (a : Acc) (code : Nat) (rm : Rm) (sat : Bool) (n : Nat) (b : Option FVal) : Conv :=
  let bv := b.getD (.fin false 0 0)
  let conflict := a.pinf && a.ninf || (match bv with | .inf s => if s then a.pinf else a.ninf | _ => false)
  if a.nan || a.inv || bv.isNan || conflict then
    let c := convNan code
    match intBits code with
    | some _ => { c with flags := { c.flags with aov := a.aov } }
    | none => { c with flags := { inv := a.inv || conflict, aov := a.aov } }
  else if a.aov then
    { bits := (match intBits code with | some _ => 0 | none => (convNan code).bits), flags := { aov := true } }
  else if a.pinf then convInf code sat false
  else if a.ninf then convInf code sat true
  else
    match bv with
    | .inf s => convInf code sat s
    | .nan => convNan code
    | .fin bn bm be =>
      if a.count = 0 then convVal code rm sat (.fin bn bm be)
      else
        let e0 := min a.lsb be
        let v := a.units * (2 ^ (a.lsb - e0).toNat : Nat) + (n : Int) * signedAt bn bm be e0
        let c := if v = 0 then convRat code rm sat (rm == .rdn) 0 1 0
          else convRat code rm sat (decide (v < 0)) v.natAbs n e0
        { c with flags := { c.flags with inx := c.flags.inx || a.stk } }

/-! ### Rows and blocks (R86, R105) -/

/-- The exact element value e = s × x + b of a row (R86), and whether its formation is invalid. -/
def rowElem (sc bi x : FVal) : FVal × Bool :=
  match mulV sc x with
  | none => (.nan, true)
  | some .nan => (.nan, false)
  | some (.inf a) =>
    match bi with
    | .nan => (.nan, false)
    | .inf c => if a = c then (.inf a, false) else (.nan, true)
    | _ => (.inf a, false)
  | some (.fin n1 m1 e1) =>
    match bi with
    | .nan => (.nan, false)
    | .inf c => (.inf c, false)
    | .fin n2 m2 e2 =>
      let (v, e) := exactAdd n1 m1 e1 n2 m2 e2
      (.fin (decide (v < 0)) v.natAbs e, false)

/-- emax of R105 by MX format code. -/
def mxEmax : Nat → Int
  | 0x0A => 8 | 0x0B => 15 | 0x0C => 4 | 0x0D => 2 | 0x0E => 2 | _ => 0

/-- Largest magnitude exponent of a block's values, if any is nonzero. -/
def blockExp (vs : List FVal) : Option Int := chunkExp (vs.map Term.ofVal)

/-- Quantise a block into an MX format (R105): the scale byte, the element codes, and the flags. -/
def quantBlock (code : Nat) (rm : Rm) (vs : List FVal) : Nat × List Nat × ArithFlags :=
  if vs.any (fun v => match v with | .fin _ _ _ => false | _ => true) then
    (255, vs.map fun _ => 0, { inv := true })
  else
    let x : Nat := match blockExp vs with
      | none => 0
      | some k => (min 254 (max 0 (k - mxEmax code + 127))).toNat
    let cs := vs.map fun v =>
      match v with
      | .fin n m e =>
        if code = 0x0F then roundInt 8 rm n m 1 (e + 133 - x)
        else convRat code rm true n m 1 (e + 127 - x)
      | _ => { bits := 0 }
    (x, cs.map (·.bits), cs.foldl (fun f c => f.or c.flags) {})

end Sys2Proof.Machine
end

