-- ==== Sys2Proof/Machine/TableBase.lean ====
section
/-! DEFINITION. Table descriptors, row layout, row placement and index translation (06, R186–R208). -/
namespace Sys2Proof.Machine
open Sys2Proof

/-- Table states (R189). -/
abbrev tdFree : Nat := 0
abbrev tdLoading : Nat := 1
abbrev tdServing : Nat := 2
abbrev tdDraining : Nat := 3

/-- The fields of a table descriptor (R189). -/
structure TD where
  state : Nat := 0
  tier : Nat := 0
  hotset : Bool := false
  fmt : Nat := 0
  hdr : Bool := false
  xlate : Nat := 0
  w : Nat := 0
  stride : Nat := 0
  /-- N. -/
  n : Nat := 1
  xarg : Nat := 0
  rmapN : Nat := 0
  anchor : Int := 0
  cbk : Nat := 0
  cbkV : Bool := false
  missPol : Nat := 0
  latePol : Nat := 0
  rm : Nat := 0
  sat : Bool := false
  pub : Bool := false
  digest : Bool := false
  opt : Nat := 0
  model : Nat := 0
  part : Nat := 0
  nshard : Nat := 0
  shmap : Nat := 0
  defRow : Nat := 0
  defKind : Nat := 0
  fbRow : Nat := 0
  fbKind : Nat := 0
  stateBase : Nat := 0
  homeExt : Nat := 0
deriving DecidableEq, Repr

/-- Read a descriptor's fields from its 128 bytes. -/
def tdOf (b : List Byte) : TD :=
  let home := leAt b 1 1
  let fmt := leAt b 2 1
  let cbk := leAt b 30 2
  let pol := leAt b 32 1
  let wr := leAt b 33 1
  let d := leAt b 48 8
  let f := leAt b 56 8
  { state := leAt b 0 1, tier := home % 4, hotset := home.testBit 2
    fmt := fmt % 32, hdr := fmt.testBit 5, xlate := leAt b 3 1 % 4
    w := leAt b 4 2, stride := leAt b 6 2, n := leAt b 8 8 % 2 ^ 40 + 1
    xarg := leAt b 16 8, rmapN := leAt b 24 4, anchor := toSigned 16 (leAt b 28 2)
    cbk := cbk % 4096, cbkV := cbk.testBit 15
    missPol := pol % 4, latePol := pol / 4 % 4
    rm := wr % 4, sat := wr.testBit 2, pub := wr.testBit 3, digest := wr.testBit 4
    opt := leAt b 34 1, model := leAt b 35 1, part := leAt b 36 1 % 16
    nshard := leAt b 38 2, shmap := leAt b 40 8
    defRow := d % 2 ^ 40, defKind := d / 2 ^ 62, fbRow := f % 2 ^ 40, fbKind := f / 2 ^ 62
    stateBase := leAt b 64 8, homeExt := leAt b 72 8 }

/-- DA of descriptor t, and of its counter record (R186). -/
def State.tdDA (s : State) (t : Nat) : Nat := s.storeBase + 128 * t
def State.tctrDA (s : State) (t : Nat) : Nat := s.storeBase + 32 * mib + 64 * t

/-- Descriptor t: FREE where there is no store. -/
def State.td (s : State) (t : Nat) : TD :=
  if s.tda.rdy then tdOf (s.readDA (s.tdDA t) 128).data else {}

/-- Set the STATE of a table (R189), and keep the device's list of tables that are not FREE. -/
def State.setTdState (s : State) (t st : Nat) : State :=
  let s1 := s.writeDA (s.tdDA t) [BitVec.ofNat 8 st]
  { s1 with tda := { s1.tda with
      live := if st = tdFree then s1.tda.live.filter (· != t) else setInsert s1.tda.live t } }

/-- SERVING or DRAINING: the table serves lookups and updates (R213). -/
def TD.serves (d : TD) : Bool := d.state == tdServing || d.state == tdDraining

/-! ### Row layout (R191–R193) -/

/-- Stride in bytes. -/
def TD.s (d : TD) : Nat := 8 * d.stride

/-- Bytes of the row header. -/
def TD.h (d : TD) : Nat := if d.hdr then 8 else 0

/-- First byte of 6-bit group k, from the byte a group may start at (R192). -/
def groupStart : Nat → Nat → Nat
  | 0, c => if c / 64 = (c + 2) / 64 then c else (c / 64 + 1) * 64
  | k + 1, c => groupStart k ((if c / 64 = (c + 2) / 64 then c else (c / 64 + 1) * 64) + 3)

/-- Bytes up to the end of the element area. -/
def TD.elemEnd (d : TD) : Nat :=
  let b := elemBits d.fmt
  if b = 6 then groupStart (d.w / 4 - 1) d.h + 3 else d.h + (d.w * b + 7) / 8

/-- RB, the row bytes. -/
def TD.rb (d : TD) : Nat := d.elemEnd + (if isMx d.fmt then d.w / 32 else 0)

/-- First bit of element i in the row. -/
def TD.elemBit (d : TD) (i : Nat) : Nat :=
  let b := elemBits d.fmt
  if b = 6 then 8 * groupStart (i / 4) d.h + 6 * (i % 4) else 8 * d.h + i * b

/-- Code of element i of a row's bytes. -/
def TD.elemCode (d : TD) (row : List Byte) (i : Nat) : Nat :=
  let bit := d.elemBit i
  leAt row (bit / 8) 5 / 2 ^ (bit % 8) % 2 ^ elemBits d.fmt

/-- Scale byte of element i in an MX format. -/
def TD.elemScale (d : TD) (row : List Byte) (i : Nat) : Nat := leAt row (d.elemEnd + i / 32) 1

/-- The element's own value x, before the row's scale and bias. -/
def TD.elemX (d : TD) (row : List Byte) (i : Nat) : FVal :=
  if isMx d.fmt then scaleElem (d.elemScale row i) (decodeElem (mxElem d.fmt) (d.elemCode row i))
  else decodeElem d.fmt (d.elemCode row i)

/-- The row's scale and bias (R191). -/
def TD.scaleBias (d : TD) (row : List Byte) : FVal × FVal :=
  if d.hdr then (fmt16.decode (leAt row 0 2), fmt16.decode (leAt row 2 2)) else (.one, .fin false 0 0)

/-- The value of element i (R86), and whether its formation is invalid. -/
def TD.elem (d : TD) (row : List Byte) (i : Nat) : FVal × Bool :=
  rowElem (d.scaleBias row).1 (d.scaleBias row).2 (d.elemX row i)

/-- The row shows ABSENT (R191). -/
def TD.absent (d : TD) (row : List Byte) : Bool := d.hdr && (leAt row 6 1).testBit 0

/-! ### Shards and places (R194–R196) -/

/-- Entry k of a table's shard map: FIRST_ROW and BASE. -/
def State.shardEntry (s : State) (d : TD) (k : Nat) : Nat × Nat :=
  let b := (s.readDA (d.shmap + 16 * k) 16).data
  (leAt b 0 8, leAt b 8 8)

/-- The shard that holds a row: the last whose FIRST_ROW does not exceed it. -/
def State.shardOf (s : State) (d : TD) (r : Nat) : Nat :=
  (List.range d.nshard).foldl (fun k i => if (s.shardEntry d i).1 ≤ r then i else k) 0

/-- The granule of a shard's placement (R195). -/
def State.shardG (s : State) (d : TD) (base : Nat) : Nat :=
  if d.tier = 1 then
    match s.regionOf base with
    | some n => (s.region n).granule
    | none => 4096
  else if d.s ≤ 4096 then 4096 else 16384

/-- DA of the row at local index u of a placement (R195). -/
def rowAt (base g st u : Nat) : Nat := base + u / (g / st) * g + u % (g / st) * st

/-- Home DA of a row: for cistern homes the offset in a cistern; not meaningful for aquifer homes. -/
def State.rowDA (s : State) (d : TD) (r : Nat) : Nat :=
  let e := s.shardEntry d (s.shardOf d r)
  rowAt e.2 (s.shardG d e.2) d.s (r - e.1)

/-- Bytes a placement of `rows` rows takes. -/
def extentBytes (g st rows : Nat) : Nat := (rows + g / st - 1) / (g / st) * g

/-- A cistern's DA. -/
def cisternDA (cluster off : Nat) : Nat := cisternBase + cluster * (8 * mib) + off

/-! ### Index translation (R197–R202) -/

/-- The hash of R201 before scaling. -/
def mix64 (x0 : Nat) : Nat :=
  let x1 := x0 ^^^ (x0 / 2 ^ 31)
  let x2 := x1 * 0x9E6C63D0676A9A99 % 2 ^ 64
  let x3 := x2 ^^^ (x2 / 2 ^ 29)
  let x4 := x3 * 0xD6E8FEB86659FD93 % 2 ^ 64
  x4 ^^^ (x4 / 2 ^ 32)

/-- H(id, SEED, N). -/
def hashRow (id seed n : Nat) : Nat := mix64 (id ^^^ seed) * n / 2 ^ 64

/-- What an ID names. -/
inductive Xlated where
  | null
  | row (r : Nat)
  | invalid
  | missing
deriving DecidableEq, Repr

/-- Entry i of a range map (R199). -/
def State.rmapEntry (s : State) (d : TD) (i : Nat) : Nat × Nat :=
  let b := (s.readDA (d.xarg + 16 * i) 16).data
  (leAt b 0 8, leAt b 8 8)

/-- Translate an ID (R197, R198, R200). -/
def State.translate (s : State) (d : TD) (id : Nat) : Xlated :=
  if id = 2 ^ 64 - 1 then .null
  else
    match d.xlate with
    | 0 => if id < d.n then .row id else .invalid
    | 1 => .row (id % d.n)
    | 2 =>
      match (List.range d.rmapN).reverse.find? fun i => decide ((s.rmapEntry d i).1 ≤ id) with
      | none => .missing
      | some i =>
        let (f, v) := s.rmapEntry d i
        if v / 2 ^ 63 = 1 then .missing else .row (v % 2 ^ 40 + (id - f))
    | _ => .row (hashRow id d.xarg d.n)

/-! ### Counters (R207) -/

/-- Add to one 64-bit field of a table's counter record, which saturates. -/
def State.tableCount (s : State) (t fld n : Nat) : State :=
  if n = 0 then s
  else
    let a := s.tctrDA t + 8 * fld
    s.writeDA a (leBytes 8 (min (2 ^ 64 - 1) (leNat (s.readDA a 8).data + n)))

/-- OR arithmetic flags into a table's counter record. -/
def State.tableFlags (s : State) (t : Nat) (f : ArithFlags) : State :=
  let a := s.tctrDA t + 56
  s.writeDA a (leBytes 8 (leNat (s.readDA a 8).data ||| f.bits))

/-- The key of a row (R219). -/
def rowKey (t r : Nat) : Nat := mix64 ((t * 2 ^ 40 + r) % 2 ^ 64)

end Sys2Proof.Machine
end

