-- ==== Sys2Proof/Machine/Dir.lean ====
section
/-! DEFINITION. The basin directory (07, R218–R229, R234): keys, buckets, sets, probing, insertion by displacement,
the fountain filter, load counters; and the shared insertion that the aquifer's log index uses (R291). -/
namespace Sys2Proof.Machine
open Sys2Proof

/-! ### Insertion by displacement (R224) -/

/-- Lowest free way of a set of four. -/
def freeWay {α : Type} (m : SMap α) (set : Nat) : Option Nat :=
  (List.range 4).findSome? fun w => if (m.find (set * 4 + w)).isNone then some (set * 4 + w) else none

/-- Put an entry into a set, displacing way (n mod 4) where it is full, up to the 32nd displacement. `other` gives the
other candidate set of an entry that leaves a set. -/
def cuckooFrom {α : Type} (other : α → Nat → Nat) : Nat → Nat → SMap α → α → Nat → Option (SMap α)
  | 0, _, _, _, _ => none
  | k + 1, n, m, x, set =>
    match freeWay m set with
    | some w => some (m.set w x)
    | none =>
      if 32 < n then none
      else
        let w := set * 4 + n % 4
        match m.find w with
        | none => some (m.set w x)
        | some v => cuckooFrom other k (n + 1) (m.set w x) v (other v set)

/-- Insert an entry with its candidate sets c0 and c1. -/
def cuckoo {α : Type} (other : α → Nat → Nat) (m : SMap α) (x : α) (c0 c1 : Nat) : Option (SMap α) :=
  match freeWay m c0 with
  | some w => some (m.set w x)
  | none =>
    match freeWay m c1 with
    | some w => some (m.set w x)
    | none => cuckooFrom other 34 1 m x c0

/-- Two candidate sets over 2^n sets from a key (R223). -/
def candSets (n k : Nat) : Nat × Nat :=
  let c0 := k % 2 ^ n
  let c1 := k / 2 ^ n % 2 ^ n
  (c0, if c1 = c0 then c0 ^^^ 1 else c1)

/-! ### Keys and buckets -/

/-- The bucket of a row (R220). -/
def bucketOf (t r : Nat) : Nat := rowKey t r / 2 ^ 52

def State.bucket (s : State) (b : Nat) : Bucket := s.bd.buckets.get {} b
def State.updBucket (s : State) (b : Nat) (f : Bucket → Bucket) : State :=
  { s with bd := { s.bd with buckets := s.bd.buckets.upd {} b f } }

/-- Stack of a bucket: as the map says, or S(b mod 12) while the directory is off (R354). -/
def State.bucketStack (s : State) (b : Nat) : Nat :=
  if s.bd.en then (s.bucket b).stack.toNat else b % 12

/-! ### Sets and entries (R221, R222) -/

/-- First set of the frame that holds an entry: the fountain frame, or bucket frame f. -/
def frameBase (f : Option Nat) : Nat :=
  match f with
  | none => 0
  | some f => 2 ^ 19 + f * 2 ^ 17

/-- Candidate sets of a row in a frame, counted from the start of the area (R223). -/
def dirSets (t r : Nat) (f : Option Nat) : Nat × Nat :=
  let c := candSets (if f.isNone then 19 else 17) (rowKey t r)
  (frameBase f + c.1, frameBase f + c.2)

/-- The other candidate set of an entry in a set. -/
def otherSet (e : DirEntry) (set : Nat) : Nat :=
  let f := if set < 2 ^ 19 then none else some ((set - 2 ^ 19) / 2 ^ 17)
  let c := dirSets e.table e.row f
  if c.1 = set then c.2 else c.1

/-- The 16 bytes of an entry (R222). -/
def DirEntry.bytes (e : DirEntry) : List Byte :=
  leBytes 8 (e.row + 2 ^ 40 * e.table + 2 ^ 58 * (if e.fountain then 2 else 1) + 2 ^ 60 * e.filling.toNat
      + 2 ^ 61 * e.refill.toNat + 2 ^ 62 * e.pinned.toNat)
    ++ leBytes 8 (e.slot % 2 ^ 52 + 2 ^ 52 * e.tries)

/-- DA of a set of a stack's directory area. -/
def State.dirSetDA (s : State) (st set : Nat) : Nat := (s.bdStack st).dirBase.toNat * 2 ^ 28 + 64 * set

/-- Bring one set's bytes in the directory area up to its entries. -/
def State.dirFlush (s : State) (st set : Nat) : State :=
  let b := s.bdStack st
  s.writeDA (s.dirSetDA st set) ((List.range 4).flatMap fun w =>
    match b.dir.find (set * 4 + w) with
    | some e => e.bytes
    | none => List.replicate 16 0)

/-- Put, change or remove an entry at a place. -/
def State.dirPut (s : State) (st i : Nat) (e : DirEntry) : State :=
  (s.updBdStack st fun b => { b with dir := b.dir.set i e }).dirFlush st (i / 4)
def State.dirDel (s : State) (st i : Nat) : State :=
  (s.updBdStack st fun b => { b with dir := b.dir.del i }).dirFlush st (i / 4)

/-- A set whose sector reads uncorrectable is lost (R229): every key of it misses, and it is rewritten empty. -/
def State.dirCheckSet (s : State) (st set : Nat) : State :=
  let r := s.readDA (s.dirSetDA st set) 64
  if r.poison then
    let s1 := s.updBdStack st fun b => { b with
      dir := (List.range 4).foldl (fun m w => m.del (set * 4 + w)) b.dir, setPois := satInc b.setPois }
    (s1.writeDA (s.dirSetDA st set) (List.replicate 64 0)).stackFault st 0x0701 0 (kind := 8) (akind := 1)
      (addr := s.dirSetDA st set)
  else s

/-- The place of a row's entry in a frame, if it has one (R223). -/
def State.dirFind (s : State) (st t r : Nat) (f : Option Nat) : Option Nat :=
  let c := dirSets t r f
  let b := s.bdStack st
  ([c.1, c.2].flatMap fun x => (List.range 4).map fun w => x * 4 + w).find? fun i =>
    match b.dir.find i with
    | some e => e.row == r && e.table == t && e.fountain == f.isNone
    | none => false

def State.dirAt (s : State) (st i : Nat) : Option DirEntry := (s.bdStack st).dir.find i

/-- Probe a frame for a row: sets that read uncorrectable are lost first. -/
def State.dirProbe (s : State) (st t r : Nat) (f : Option Nat) : Option (Nat × DirEntry) × State :=
  let c := dirSets t r f
  let s1 := (s.dirCheckSet st c.1).dirCheckSet st c.2
  ((s1.dirFind st t r f).bind fun i => (s1.dirAt st i).map fun e => (i, e), s1)

/-- A stack's directory after its cuckoo insertion: changed sets are written to the directory area, and a failed one
counts FULL. -/
def State.dirInserted (s : State) (st : Nat) : Option (SMap DirEntry) → Bool × State
  | none => (false, s.updBdStack st fun b => { b with full := satInc b.full })
  | some m =>
    let changed := (m.filter fun kv => (s.bdStack st).dir.find kv.1 != some kv.2).map fun kv => kv.1 / 4
    let s1 := s.updBdStack st fun b => { b with dir := m }
    (true, changed.foldl (fun s set => s.dirFlush st set) s1)

/-- Insert an entry into a frame (R224): none, with FULL counted, where the 32nd displacement frees no way. -/
def State.dirInsert (s : State) (st : Nat) (f : Option Nat) (e : DirEntry) : Bool × State :=
  let c := dirSets e.table e.row f
  let s0 := (s.dirCheckSet st c.1).dirCheckSet st c.2
  s0.dirInserted st (cuckoo otherSet (s0.bdStack st).dir e c.1 c.2)

/-! ### The hot copy and fountain replicas of a row -/

/-- The stack and frame where a row's hot copy is recorded (R220); during a move the old ones (R248). -/
def State.hotHome (s : State) (t r : Nat) : Nat × Nat :=
  let b := s.bucket (bucketOf t r)
  if b.mig then (b.oldStack.toNat, b.oldFrame.toNat) else (b.stack.toNat, b.frame.toNat)

/-- Hot copies of a row: (stack, place), in the bucket's frame and, while it moves, in the frame it moves to. -/
def State.hotCopies (s : State) (t r : Nat) : List (Nat × Nat) :=
  if s.bd.en then
    let b := s.bucket (bucketOf t r)
    let mv := (s.bd.moves.filter fun m => m.bucket == bucketOf t r && m.step != 0).map fun m => (m.dst, m.frame)
    let fr := (s.hotHome t r :: (if b.mig then [(b.stack.toNat, b.frame.toNat)] else []) ++ mv).eraseDups
    fr.filterMap fun x => (s.dirFind x.1 t r (some x.2)).map fun i => (x.1, i)
  else []

/-- Fountain entries of a row: (stack, place). -/
def State.ftnCopies (s : State) (t r : Nat) : List (Nat × Nat) :=
  if s.bd.en then (List.range 12).filterMap fun st => (s.dirFind st t r none).map fun i => (st, i) else []

/-! ### The fountain filter (R226) -/

/-- The three filter positions of a row. -/
def ftnPos (t r : Nat) : List Nat :=
  let k := rowKey t r
  [k % 2 ^ 23, k / 2 ^ 23 % 2 ^ 23, k / 2 ^ 41]

/-- A filter hit: all three bits are set. -/
def State.ftnHit (s : State) (t r : Nat) : Bool :=
  (ftnPos t r).all fun p => s.bd.ftnCnt.get 0 p != 0 || s.bd.sticky.contains p

/-- Raise one position's count; past 15 it is sticky. -/
def Basin.ftnUp (b : Basin) (p : Nat) : Basin :=
  let c := b.ftnCnt.get 0 p
  if 15 ≤ c then { b with sticky := setInsert b.sticky p }
  else { b with ftnCnt := b.ftnCnt.set p (c + 1) }

/-- Lower one position's count, unless it is sticky. -/
def Basin.ftnDown (b : Basin) (p : Nat) : Basin :=
  if b.sticky.contains p then b
  else
    let c := b.ftnCnt.get 0 p
    { b with ftnCnt := if c ≤ 1 then b.ftnCnt.del p else b.ftnCnt.set p (c - 1) }

def State.ftnRaise (s : State) (t r : Nat) : State := { s with bd := (ftnPos t r).foldl Basin.ftnUp s.bd }
def State.ftnLower (s : State) (t r : Nat) : State := { s with bd := (ftnPos t r).foldl Basin.ftnDown s.bd }

/-- The fountain-row limit (R242). -/
abbrev ftnLimit : Nat := 1048576

/-- Base of a stack's fountain area, and its size. -/
def State.ftnBase (s : State) (st : Nat) : Nat := (s.bdStack st).ftnBase.toNat * 2 ^ 28
def BdStack.ftnBytes (b : BdStack) : Nat := b.ftnSize.toNat * (256 * mib)

/-! ### Load counters (R234) -/

/-- Count one row toward a unit of 1,024. -/
def loadUp (units : W32) (rem : Nat) : W32 × Nat :=
  if rem + 1 = 1024 then (satInc units, 0) else (units, rem + 1)

/-- A row is read for a lookup by a stack's lookup units, from a region and perhaps from a hot copy. -/
def State.countRow (s : State) (st da : Nat) (bucket : Option Nat) : State :=
  let reg := s.regionOf da
  let s1 := s.updBdStack st fun b =>
    let x := loadUp b.load b.loadRem
    let b1 := { b with load := x.1, loadRem := x.2 }
    match reg with
    | none => b1
    | some n =>
      let y := loadUp (b.rload.get 0 n) (b.rloadRem.get 0 n)
      { b1 with rload := b1.rload.set n y.1, rloadRem := b1.rloadRem.set n y.2 }
  match bucket with
  | none => s1
  | some k => s1.updBucket k fun b =>
      let x := loadUp b.load b.loadRem
      { b with load := x.1, loadRem := x.2 }

/-! ### Dispatchers in service (R245) -/

/-- Cluster c is in service: not RETIRED, its die not in reset. -/
def State.clusterInService (s : State) (c : Nat) : Bool :=
  s.serving .cluster c && !s.rst.dieRst.contains (clusterDie c)

/-- The dispatchers in service, of which a marker round waits for all. -/
def State.dispatchers (s : State) : List Nat := (List.range 100).filter s.clusterInService

end Sys2Proof.Machine
end

