-- ==== Sys2Proof/Machine/AqBase.lean ====
section
/-! DEFINITION. The aquifer engine's own operations (08, R275–R297): members, extents, page groups, the update log and
its index, and I/O. -/
namespace Sys2Proof.Machine
open Sys2Proof

def State.aqSlot (s : State) (n : Nat) : AqSlot := s.aq.slots.get {} n
def State.updAqSlot (s : State) (n : Nat) (f : AqSlot → AqSlot) : State :=
  { s with aq := { s.aq with slots := s.aq.slots.upd {} n f } }
def State.drive (s : State) (n : Nat) : Drive := s.aq.drives.get {} n
def State.updDrive (s : State) (n : Nat) (f : Drive → Drive) : State :=
  { s with aq := { s.aq with drives := s.aq.drives.upd {} n f } }
def State.aqExt (s : State) (i : Nat) : AqExt := s.aq.exts.get {} i

def AqSlotState.code : AqSlotState → Nat
  | .empty => 0 | .training => 1 | .ident => 2 | .member => 3 | .blank => 4 | .foreign => 5 | .stale => 6
  | .unsupported => 7 | .faulted => 8 | .safe => 9

/-- AQ_SLOT_STS (R316). -/
def AqSlot.stsReg (a : AqSlot) : W32 :=
  regOf [(0, a.st.code), (4, a.prsnt.toNat), (5, a.pdc.toNat), (6, a.surprise.toNat), (7, a.ordinal.toNat),
    (10, a.speed.toNat), (12, a.width.toNat), (17, a.roMedia.toNat)]

/-- AQ_WEAR (R317). -/
def AqSlot.wearReg (a : AqSlot) : W32 :=
  regOf [(0, a.pctUsed.toNat), (8, a.spare.toNat), (16, a.crit.toNat), (24, a.weight.toNat)]

/-- A record of the aquifer engine (class 6, R833). The command's identifier and PRPs are the engine's own. -/
def State.aqFault (s : State) (slot code : Nat) (opc lba nlb : Nat := 0) (sts : Nat := 0) : State :=
  let (x, s1) := s.drawFree 144
  let cmd := [BitVec.ofNat 8 opc, 0] ++ leBytes 2 (x.toNat % 65536) ++ leBytes 4 1 ++ List.replicate 16 0
    ++ leBytes 16 (x.toNat / 65536) ++ leBytes 8 lba ++ leBytes 2 (nlb - 1) ++ List.replicate 14 0
  s1.fault { mkFault 6 slot code with
    akind := 4, addr := slot + 256 * lba, cmd := cmd, cmdV := opc != 0
    state := List.replicate 14 0 ++ leBytes 2 (2 * sts) ++ leBytes 4 (s.aqSlot slot).stsReg.toNat }

/-- A set is mounted (R315). -/
def Aquifer.mounted (a : Aquifer) : Bool := a.set == 2 || a.set == 3

/-- The slot of a present member. -/
def State.memberSlot (s : State) (ord : Nat) : Option Nat :=
  (List.range 8).find? fun n => (s.aqSlot n).st == .member && (s.aqSlot n).ordinal.toNat == ord

/-- Ordinals of the set that are present, as AQ_STS.MEMBERS shows them. -/
def State.membersPresent (s : State) : Byte :=
  BitVec.ofNat 8 (((List.range 8).map fun o => if (s.memberSlot o).isSome then 2 ^ o else 0).sum)

/-- Set bits of a member mask, in ascending order. -/
def maskBits (m : Byte) : List Nat := (List.range 8).filter fun i => m.getLsbD i

/-- AQ_STS.SET and every extent's state follow the members present (R281, R300). -/
def State.aqSettle (s : State) : State :=
  if s.aq.mounted then
    let here := s.membersPresent
    let miss := s.aq.members &&& ~~~here
    { s with aq := { s.aq with
        set := if miss = 0 then 2 else 3
        exts := s.aq.exts.map fun kv =>
          (kv.1, if kv.2.st = 0 then kv.2
            else { kv.2 with st := if kv.2.mask &&& miss = 0 ∧ kv.2.lost = 0 then 1 else 2 }) } }
  else s

/-- Every present member's label carries the set's generation and extent table (R280). -/
def State.writeLabels (s : State) : State :=
  (List.range 8).foldl (fun st o =>
    match st.memberSlot o with
    | none => st
    | some n => st.updDrive n fun d =>
        { d with label := d.label.map fun l => { l with gen := st.aq.gen, exts := st.aq.exts } }) s

/-! ### Pages (R285) -/

/-- Rows in a page group of an extent. -/
def AqExt.rows (e : AqExt) (stride : Nat) : Nat := 4096 * e.pgn / stride

/-- Where a row lies: ordinal, first LBA of its page group, and byte in the group. -/
def AqExt.locate (e : AqExt) (stride r : Nat) : Nat × Nat × Nat :=
  let p := e.rows stride
  let lp := r / p
  let ms := maskBits e.mask
  (listGet 0 ms (lp % ms.length), e.homeLba + lp / ms.length * e.pgn, r % p * stride)

/-- The home bytes of a row, where its member is present and its page can arrive. -/
def State.aqHome (s : State) (d : TD) (r n : Nat) : Option (List Byte) :=
  let e := s.aqExt (d.homeExt % 4096)
  let (o, lba, off) := e.locate d.s r
  match s.memberSlot o with
  | some slot => if e.lost.getLsbD o then none else some (cellsRead (s.drive slot).home (lba * 4096 + off) n)
  | none => none

/-! ### The log (R291–R294) -/

/-- Bytes a record takes in a log page (R292). -/
def LogRec.size (r : LogRec) : Nat := 16 + (r.bytes.length + 7) / 8 * 8

/-- Pack records into log pages: (records, 4 KiB pages). A record that does not fit a page takes a group of its own. -/
def packPages : List LogRec → List LogRec → Nat → List (List LogRec × Nat)
  | [], cur, _ => if cur.isEmpty then [] else [(cur, 1)]
  | r :: rs, cur, used =>
    if 4032 < r.size then
      (if cur.isEmpty then [] else [(cur, 1)]) ++ ([r], (64 + r.size + 4095) / 4096) :: packPages rs [] 0
    else if used + r.size ≤ 4032 then packPages rs (cur ++ [r]) (used + r.size)
    else (if cur.isEmpty then [] else [(cur, 1)]) ++ packPages rs [r] r.size

/-- 4 KiB pages that records take. -/
def pagesOf (rs : List LogRec) : Nat := ((packPages rs [] 0).map (·.2)).sum

/-- Pages in a 64 MiB segment. -/
abbrev segPages : Nat := 16384

/-- A free segment of a drive. -/
def Drive.freeSeg (d : Drive) : Option Nat :=
  match d.label with
  | none => none
  | some l => firstBelow l.logSegs fun i => (d.segs.find i).isNone

def Drive.freeSegs (d : Drive) : Nat :=
  match d.label with
  | none => 0
  | some l => l.logSegs - d.segs.length

/-- The member that a new segment opens on (R298, R299): the lowest WEIGHT with a free segment, ties to the lowest
ordinal; read-only media gets none. -/
def State.pickMember (s : State) : Option (Nat × Nat × Nat) :=
  ((List.range 8).filterMap fun o =>
    match s.memberSlot o with
    | none => none
    | some n => if (s.aqSlot n).roMedia then none else (s.drive n).freeSeg.map fun g => (o, n, g)).foldl
    (fun best x => match best with
      | none => some x
      | some b => if (s.aqSlot x.2.1).weight < (s.aqSlot b.2.1).weight then some x else some b) none

/-- Open a new segment on the member of R298; none where no member has one. -/
def State.openSeg (s : State) : Option (Nat × Nat × Nat × State) :=
  s.pickMember.map fun x =>
    let s1 := s.updDrive x.2.1 fun d => { d with segs := d.segs.set x.2.2 { seq := s.aq.segSeq } }
    (x.1, x.2.1, x.2.2, { s1 with aq := { s1.aq with segSeq := s.aq.segSeq + 1, cur := some x.1 } })

/-- The other candidate set of a log index entry. -/
def otherLidx (n : Nat) (e : LogEntry) (set : Nat) : Nat :=
  let c := candSets n (rowKey e.table e.row)
  if c.1 = set then c.2 else c.1

/-- The place of a row's log index entry. -/
def State.lidxFind (s : State) (t r : Nat) : Option (Nat × LogEntry) :=
  let c := candSets s.aq.lidxSize.toNat (rowKey t r)
  ([c.1, c.2].flatMap fun x => (List.range 4).map fun w => x * 4 + w).findSome? fun i =>
    match s.aq.lidx.find i with
    | some e => if e.table = t ∧ e.row = r then some (i, e) else none
    | none => none

/-- Insert or replace a row's index entry; none where the index is full (R224). -/
def State.lidxPut (s : State) (e : LogEntry) : Option State :=
  match s.lidxFind e.table e.row with
  | some (i, _) => some { s with aq := { s.aq with lidx := s.aq.lidx.set i e } }
  | none =>
    let c := candSets s.aq.lidxSize.toNat (rowKey e.table e.row)
    (cuckoo (otherLidx s.aq.lidxSize.toNat) s.aq.lidx e c.1 c.2).map fun m => { s with aq := { s.aq with lidx := m } }

def State.lidxDel (s : State) (t r : Nat) : State :=
  match s.lidxFind t r with
  | some (i, _) => { s with aq := { s.aq with lidx := s.aq.lidx.del i } }
  | none => s

def State.aqTail (s : State) (o : Nat) : AqTail := s.aq.tails.get {} o

/-- The log record that an index entry names, where its member is present. -/
def State.logRec (s : State) (e : LogEntry) : Option LogRec :=
  match e.place with
  | .tail o => (s.aqTail o).recs.find? fun r => r.seq == e.seq
  | .flash o g p =>
    match s.memberSlot o with
    | none => none
    | some n =>
      match (s.drive n).segs.find g with
      | none => none
      | some sg => (listGet [] sg.pages p).find? fun r => r.seq == e.seq

/-- The newest bytes of an aquifer row, where it can arrive (R286). -/
def State.aqRow (s : State) (t : Nat) (d : TD) (r n : Nat) : Option (List Byte) :=
  if s.aq.mounted then
    match s.lidxFind t r with
    | some (_, e) => (s.logRec e).map (·.bytes)
    | none => s.aqHome d r n
  else none

/-- The ordinal whose tail takes new records, with a segment opened where none is current. -/
def State.tailHome (s : State) : Option (Nat × State) :=
  match s.aq.cur with
  | some o => if (s.memberSlot o).isSome then some (o, s) else s.openSeg.map fun x => (x.1, x.2.2.2)
  | none => s.openSeg.map fun x => (x.1, x.2.2.2)

/-- Append a record to the tail of ordinal o. -/
def State.tailAppend (s : State) (o t r : Nat) (bytes : List Byte) : Bool × State :=
  let tl := s.aqTail o
  let lr : LogRec := { table := t, row := r, seq := s.aq.useq, bytes := bytes }
  if 16 < pagesOf (tl.recs ++ [lr]) then
    (false, { s with aq := { s.aq with tails := s.aq.tails.set o { tl with full := true } } })
  else
    match s.lidxPut { table := t, row := r, seq := lr.seq, place := .tail o } with
    | none => (false, { s with aq := { s.aq with lidxFull := true } }.irqIf s.aq.lidxFull 7)
    | some s1 =>
      let tl' : AqTail := { tl with recs := tl.recs ++ [lr], first := if tl.recs.isEmpty then s.time.now else tl.first }
      (true, { s1 with aq := { s1.aq with tails := s1.aq.tails.set o tl', useq := s1.aq.useq + 1 } })

/-- Write an update of an aquifer row as a log record (R291, R294): none where it must wait, with the reason shown in
AQ_STS by the state beside it. -/
def State.aqAppend (s : State) (t r : Nat) (bytes : List Byte) : Bool × State :=
  match s.tailHome with
  | none => (false, { s with aq := { s.aq with logFull := true } }.irqIf s.aq.logFull 7)
  | some (o, s0) => s0.tailAppend o t r bytes

/-- The segment a member is writing: its listed segment with the highest sequence number that has room. -/
def Drive.curSeg (d : Drive) (need : Nat) : Option Nat :=
  (d.segs.foldl (fun b kv =>
    match b with
    | none => some kv
    | some x => if x.2.seq < kv.2.seq then some kv else some x) none).bind fun kv =>
      if kv.2.used + need ≤ segPages then some kv.1 else none

/-- Where a tail's pages go: ordinal, slot, segment, and the state with that segment open. -/
def State.tailTarget (s : State) (o need : Nat) : Option (Nat × Nat × Nat × State) :=
  match (s.memberSlot o).bind fun n =>
      if (s.aqSlot n).roMedia then none else ((s.drive n).curSeg need).map fun g => (n, g) with
  | some (n, g) => some (o, n, g, s)
  | none => s.openSeg

/-- The log index follows the records of tail o into page p of a segment. -/
def State.tailIndex (s : State) (o o' g p : Nat) (recs : List LogRec) : State :=
  recs.foldl (fun st r =>
    match st.lidxFind r.table r.row with
    | some (k, e) =>
      if e.place = .tail o ∧ e.seq = r.seq then
        { st with aq := { st.aq with lidx := st.aq.lidx.set k { e with place := .flash o' g p } } }
      else st
    | none => st) s

/-- Write the pages of tail o to a segment. -/
def State.tailPages (s : State) (o o' n g need : Nat) (pages : List (List LogRec × Nat)) : State :=
  let old := (s.drive n).segs.get { seq := 0 } g
  let p0 := old.pages.length
  let s1 := s.updDrive n fun d => { d with
    segs := d.segs.set g { old with pages := old.pages ++ pages.map (·.1), used := old.used + need } }
  let s2 := (List.range pages.length).foldl (fun st i => st.tailIndex o o' g (p0 + i) (listGet ([], 0) pages i).1) s1
  ({ s2 with aq := { s2.aq with tails := s2.aq.tails.set o {}, logFull := false } }).emit (.nvme n "Write" 0 need)

/-- Write a member's tail to flash (R291): to the current segment of the member that takes records, or to a new
segment. False where no member has a free segment. -/
def State.tailWrite (s : State) (o : Nat) : Bool × State :=
  let tl := s.aqTail o
  if tl.recs.isEmpty then (true, s)
  else
    let pages := packPages tl.recs [] 0
    let need := (pages.map (·.2)).sum
    match s.tailTarget o need with
    | none => (false, { s with aq := { s.aq with logFull := true } }.irqIf s.aq.logFull 7)
    | some (o', n, g, s1) => (true, s1.tailPages o o' n g need pages)

/-- An aquifer I/O that a far request waits for ends: each waiting request takes an outcome. -/
def State.ioEnd (s : State) (io : AqIo) (out : FarReq → FarStage) : State :=
  { s with aq := { s.aq with
      ios := s.aq.ios.filter fun x => x.id != io.id
      far := s.aq.far.map fun f => if f.stage = .io io.id then { f with stage := out f } else f } }

/-- Every I/O in flight to a slot cannot arrive. -/
def State.slotIosFail (s : State) (n : Nat) : State :=
  (s.aq.ios.filter fun x => x.slot == n).foldl (fun st x => st.ioEnd x fun _ => .failed) s

end Sys2Proof.Machine
end

