-- ==== Sys2Proof/Machine/Aquifer.lean ====
section
/-! DEFINITION. Reservoir ranges and far rows, and the aquifer's commands and events (08, R265–R301). -/
namespace Sys2Proof.Machine
open Sys2Proof

/-! ### The reservoir (R268–R273) -/

def State.rsvRange (s : State) (n : Nat) : RsvRange := s.rsv.get {} n

/-- Bytes declared in all. -/
def State.rsvTotal (s : State) : Nat :=
  ((List.range 64).map fun n => if (s.rsvRange n).v then (s.rsvRange n).len else 0).sum

/-- RSV_DECLARE (R269). -/
def execRsvDeclare (c : KCmd) (s : State) : Res :=
  let i := c.a0.toNat
  let hpa := c.a1.toNat
  let len := c.a2.toNat
  let clash := (List.range 64).any fun n =>
    let r := s.rsvRange n
    r.v && decide (hpa < r.hpa + r.len ∧ r.hpa < hpa + len)
  if hpa % (2 * mib) ≠ 0 ∨ len = 0 ∨ len % (2 * mib) ≠ 0 ∨ 2 ^ 48 < hpa + len ∨ clash = true
      ∨ (s.rsvRange i).v = true then
    .next (s.done c stRsvBad)
  else if 2 ^ 44 < s.rsvTotal + len then .next (s.done c stRsvLimit)
  else .next ({ s with rsv := s.rsv.set i { v := true, hpa := hpa, len := len } }.done c stSuccess)

/-- A shard of a table that is not FREE lies in a DA range (R188, R269). -/
def State.shardIn (s : State) (tier lo hi : Nat) : Bool :=
  s.tda.live.any fun t =>
    let d := s.td t
    d.tier == tier && (List.range d.nshard).any fun k =>
      let e := s.shardEntry d k
      let next := if k + 1 < d.nshard then (s.shardEntry d (k + 1)).1 else d.n
      decide (e.2 < hi ∧ lo < e.2 + extentBytes (s.shardG d e.2) d.s (next - e.1))

/-- Evict every dirty line of the host line cache that satisfies a test (R605). -/
def State.evictWhere (s : State) (p : Nat → Bool) : State :=
  s.host.hlc.foldl (fun st kv =>
    if p (kv.1 * 64) && kv.2.st == .m && !kv.2.evicting then
      ({ st with host := { st.host with hlc := st.host.hlc.set kv.1 { kv.2 with evicting := true } } }).emit
        (.cxlCache "DirtyEvict" (kv.1 * 64) [])
    else st) s

/-- RSV_RELEASE (R269, R605). -/
def execRsvRelease (c : KCmd) (s : State) : Res :=
  let r := s.rsvRange c.a0.toNat
  if !r.v then .next (s.done c stRsvBad)
  else if s.shardIn 2 (rsvBase + r.hpa) (rsvBase + r.hpa + r.len) then .next (s.done c stRsvInUse)
  else
    let s1 := s.evictWhere fun a => decide (r.hpa ≤ a ∧ a < r.hpa + r.len)
    .next ({ s1 with rsv := s1.rsv.set c.a0.toNat {} }.done c stSuccess)

/-! ### Far requests (R265–R268, R286) -/

/-- The n-th far request in the hub's queue, by its index in the list. -/
def nthWhere {α : Type} (p : α → Bool) : List α → Nat → Option Nat
  | [], _ => none
  | x :: xs, n =>
    if p x then (match n with | 0 => some 0 | n + 1 => (nthWhere p xs n).map (· + 1))
    else (nthWhere p xs n).map (· + 1)

/-- Set the stage of far request i. -/
def State.setFar (s : State) (i : Nat) (st : FarStage) : State :=
  { s with aq := { s.aq with far := (s.aq.far.zipIdx.map fun x => if x.2 = i then { x.1 with stage := st } else x.1) } }

/-- Bytes of a row that a read brings: both halves of a PUB table (R365). -/
def TD.span (d : TD) : Nat := if d.pub then d.s / 2 + d.rb else d.rb

/-- Start a reservoir read: served at once where every line is held (R271, R617). -/
def State.farReservoir (s : State) (i : Nat) (d : TD) (row : Nat) : State :=
  let da := s.rowDA d row
  let n := d.span
  let lines := (List.range ((da + n - 1) / 64 + 1 - da / 64)).map fun k => (da / 64 + k) * 64 - rsvBase
  if (s.aq.far.filter fun f => match f.stage with | .reservoir _ => true | _ => false).length ≥ 4096 then s
  else if lines.all s.hlcHeld then s.setFar i (.arrived (s.readDA da n).data)
  else if !s.hostReach then s.setFar i .failed
  else (lines.filter fun a => !s.hlcHeld a).foldl (fun st a => st.emit (.cxlCache "RdCurr" a []))
    (s.setFar i (.reservoir da))

/-- Join or start an NVMe Read (R268, R286): up to 64 rows share one. -/
def State.farFlash (s : State) (i slot : Nat) (op : AqOp) (lba n : Nat) : State :=
  let waiting := fun (id : Nat) => (s.aq.far.filter fun f => f.stage == .io id).length
  let rows := (s.aq.far.filter fun f => match f.stage with | .io _ => true | _ => false).length
  if 32768 ≤ rows then s
  else
    match s.aq.ios.find? fun x => x.slot == slot && x.op == op && decide (waiting x.id < 64) with
    | some x => s.setFar i (.io x.id)
    | none =>
      if 8192 ≤ s.aq.ios.length then s
      else
        let io : AqIo := { id := s.aq.nextIo, slot := slot, op := op, lba := lba, issued := s.time.now }
        (({ s with aq := { s.aq with ios := s.aq.ios ++ [io], nextIo := s.aq.nextIo + 1 } }).setFar i (.io io.id)).emit
          (.nvme slot "Read" lba n)

/-- LBA of a log page: the log area follows the label's 256 LBAs. -/
def logLba (seg page : Nat) : Nat := 256 + seg * segPages + page

/-- FAR_ROW_REQUEST (R268, R271, R286): the n-th request in the hub's queue is issued, joined, or cannot arrive. -/
def execFarRowRequest (n : Nat) (s : State) : Res :=
  match nthWhere (fun f => f.stage == .queued) s.aq.far n with
  | none => .next s
  | some i =>
    match s.aq.far[i]? with
    | none => .next s
    | some f =>
      let d := s.td f.table
      if d.tier = 2 then .next (s.farReservoir i d f.row)
      else if !s.aq.mounted then .next (s.setFar i .failed)
      else
        match s.lidxFind f.table f.row with
        | some (_, e) =>
          match e.place with
          | .tail _ =>
            match s.logRec e with
            | some r => .next (s.setFar i (.arrived r.bytes))
            | none => .next (s.setFar i .failed)
          | .flash o g p =>
            match s.memberSlot o with
            | some slot => .next (s.farFlash i slot (.readLog g p) (logLba g p) 1)
            | none => .next (s.setFar i .failed)
        | none =>
          let x := s.aqExt (d.homeExt % 4096)
          let (o, lba, _) := x.locate d.s f.row
          match s.memberSlot o with
          | some slot =>
            if x.lost.getLsbD o then .next (s.setFar i .failed)
            else .next (s.farFlash i slot (.readHome (d.homeExt % 4096) (f.row / x.rows d.s)) lba x.pgn)
          | none => .next (s.setFar i .failed)

/-- RESERVOIR_READ_RESPONSE (R273): the n-th reservoir read returns good (0), poisoned (1) or failed (2). -/
def execReservoirReadResponse (n : Nat) (outcome : Fin 3) (s : State) : Res :=
  match nthWhere (fun f => match f.stage with | .reservoir _ => true | _ => false) s.aq.far n with
  | none => .next s
  | some i =>
    match s.aq.far[i]? with
    | some { stage := .reservoir da, table := t, .. } =>
      let d := s.td t
      if outcome.val = 0 then .next (s.setFar i (.arrived (cellsRead s.mem.cells da d.span)))
      else .next ((s.setFar i .failed).fault { mkFault 5 0 0x0801 with akind := 1, addr := da })
    | _ => .next s

/-! ### NVMe I/Os (R279) -/

/-- What a far request gets when its I/O has completed: the row's bytes as they lie on the drive. -/
def State.flashBytes (s : State) (slot : Nat) (op : AqOp) (f : FarReq) : FarStage :=
  let d := s.td f.table
  match op with
  | .readHome _ _ =>
    let x := s.aqExt (d.homeExt % 4096)
    let (_, lba, off) := x.locate d.s f.row
    .arrived (cellsRead (s.drive slot).home (lba * 4096 + off) d.span)
  | .readLog g p =>
    match (s.drive slot).segs.find g with
    | none => .failed
    | some sg =>
      match (listGet [] sg.pages p).reverse.find? fun r => r.table == f.table && r.row == f.row with
      | some r => .arrived r.bytes
      | none => .failed

/-- Unrecovered Read Error: status code type 2, code 0x81 (NVM Express). -/
abbrev nvmeUre : Nat := 0x281

/-- NVME_COMPLETION (R279): the n-th I/O in flight completes with a status; 0 is success. Unrecovered Read Error
cannot arrive; any other error is retried once. -/
def execNvmeCompletion (n : Nat) (status : W16) (s : State) : Res :=
  match s.aq.ios[n]? with
  | none => .next s
  | some io =>
    if status = 0 then .next (s.ioEnd io (s.flashBytes io.slot io.op))
    else
      let s1 := s.aqFault io.slot 0x0901 2 io.lba 1 status.toNat
      if status.toNat ≠ nvmeUre ∧ io.retried = false then
        let io' : AqIo := { io with retried := true, issued := s.time.now, aborted := false }
        .next (({ s1 with aq := { s1.aq with ios := s1.aq.ios.map fun (x : AqIo) => if x.id = io.id then io' else x } }).emit
          (.nvme io.slot "Read" io.lba 1))
      else .next (s1.ioEnd io fun _ => .failed)

/-- I/O timeout in ns (R314). -/
def Aquifer.ioNs (a : Aquifer) : Nat := max 1 a.ioTmo.toNat * 1000000

/-- NVME_IO_TIMEOUT (R279): the n-th I/O, past IO_TMO, is aborted. -/
def execNvmeIoTimeout (n : Nat) (s : State) : Res :=
  match s.aq.ios[n]? with
  | none => .next s
  | some io =>
    if io.aborted || !s.elapsed io.issued s.aq.ioNs then .next s
    else
      let s1 := { s with aq := { s.aq with ios := s.aq.ios.map fun (x : AqIo) => if x.id = io.id then { x with aborted := true } else x } }
      .next ((s1.aqFault io.slot 0x0901 8 io.lba 1).emit (.nvme io.slot "Abort" io.lba 1))

/-- NVME_CONTROLLER_RESET (R279): past twice IO_TMO the drive's controller is reset, and its I/Os cannot arrive. -/
def execNvmeControllerReset (slot : Fin 8) (s : State) : Res :=
  match s.aq.ios.find? fun x => x.slot == slot.val && s.elapsed x.issued (2 * s.aq.ioNs) with
  | none => .next s
  | some io => .next (((s.slotIosFail slot.val).aqFault slot.val 0x0901 2 io.lba 1).emit
      (.nvme slot.val "ControllerReset" 0 0))

/-! ### Sets and extents (R280–R284) -/

/-- Slots of a mask. -/
def slotsOf (m : Nat) : List Nat := (List.range 8).filter fun i => m.testBit i

/-- AQ_FORMAT (R280): labels written to the drives of the mask, ordinals in slot order; the set's identifier and first
label generation are free values. -/
def execAqFormat (c : KCmd) (s : State) : Res :=
  if s.aq.mounted || s.aq.set == 1 then .next (s.done c stAqState)
  else
    let sl := slotsOf c.a0.toNat
    let frac := c.a1.toNat
    let ok := fun n => let st := (s.aqSlot n).st; st == .ident || st == .blank || st == .foreign || st == .stale
    if sl.isEmpty || decide (256 ≤ c.a0.toNat) || !(sl.all ok) || decide (frac < 1 ∨ 50 < frac) then
      .next (s.done c stAqBad)
    else
      let (sid, s1) := s.drawFree 64
      let (gen, s2) := s1.drawFree 32
      let mem := BitVec.ofNat 8 (2 ^ sl.length - 1)
      let s3 := (sl.zipIdx).foldl (fun st x =>
        let d := st.drive x.1
        let lab : AqLabel := { setId := sid, ordinal := x.2, gen := gen, members := mem,
                               logSegs := d.lbas * frac / 100 / segPages }
        ((st.updDrive x.1 fun d => { d with label := some lab, segs := [], home := [] }).updAqSlot x.1 fun a =>
          { a with st := .ident }).emit (.nvme x.1 "Format NVM" 0 0)) s2
      .next (s3.done c stSuccess)

/-- A range lies in one enabled region whose COMP is 0 (R282, R319). -/
def State.inPlainRegion (s : State) (da n : Nat) : Bool :=
  match s.regionOf da with
  | some k =>
    let r := s.region k
    !r.comp && decide (da + n ≤ r.daBase + r.size)
  | none => false

/-- End a mount that fails (R282). -/
def State.mountFail (s : State) (c : KCmd) (code : BitVec 12) : State :=
  ({ s with aq := { s.aq with set := 4, lidx := [], tails := [], exts := [], members := 0, cur := none } }).done c code

/-- Replay one record of page `pg` of segment `seg`: the later of it and what the index holds stays (R297). -/
def State.replayRec (s : State) (ord seg pg : Nat) (r : LogRec) : Option State :=
  let e : LogEntry := { table := r.table, row := r.row, seq := r.seq, place := .flash ord seg pg }
  match s.lidxFind r.table r.row with
  | some (_, old) => if old.seq ≤ r.seq then s.lidxPut e else some s
  | none => s.lidxPut e

/-- The counters of R291 go past those a segment shows. -/
def State.replaySeqs (s : State) (g : LogSeg) : State :=
  { s with aq := { s.aq with
      segSeq := max s.aq.segSeq (g.seq + 1)
      useq := g.pages.flatten.foldl (fun m r => max m (r.seq + 1)) s.aq.useq } }

/-- Replay one segment, page by page. -/
def State.replaySeg (s : State) (ord seg : Nat) (g : LogSeg) : Option State :=
  g.pages.zipIdx.foldlM (fun st pg => pg.1.foldlM (fun st r => st.replayRec ord seg pg.2 r) st) (s.replaySeqs g)

/-- Replay one member's log (R297): segments by sequence number, records in order; the newest by update sequence
number wins. None where the index fills. -/
def State.replay (s : State) (ord slot : Nat) : Option State :=
  let segs := ((s.drive slot).segs.foldl (fun acc kv =>
    acc.takeWhile (fun x => x.2.seq < kv.2.seq) ++ [kv] ++ acc.dropWhile (fun x => x.2.seq < kv.2.seq)) [])
  segs.foldlM (fun st kv => st.replaySeg ord kv.1 kv.2) s

/-- The label of a slot's drive. -/
def State.labelOf (s : State) (n : Nat) : AqLabel :=
  (s.drive n).label.getD { setId := 0, ordinal := 0, gen := 0, members := 0, logSegs := 0 }

/-- The members of a mount join: ordinals, the set's identity, and an empty log index. -/
def State.mountJoin (s : State) (mem : List Nat) (sid : W64) (top m0 : Nat) : State :=
  let s1 := mem.foldl (fun st n => st.updAqSlot n fun a => { a with
    st := .member, ordinal := BitVec.ofNat 3 (s.labelOf n).ordinal }) s
  { s1 with aq := { s1.aq with
    setId := sid, gen := BitVec.ofNat 32 top, members := (s.labelOf m0).members, exts := (s.labelOf m0).exts
    lidx := [], tails := [], cur := none, logFull := false, lidxFull := false } }

/-- Mount the candidates of one set: stale and failing ones drop out, and the members' logs are replayed (R297). -/
def State.mountSet (s : State) (c : KCmd) (cand : List Nat) (failed : Byte) (sid : W64) : State :=
  let top := cand.foldl (fun m n => max m (s.labelOf n).gen.toNat) 0
  let stale := cand.filter fun n => decide ((s.labelOf n).gen.toNat < top)
  let cur := cand.filter fun n => (s.labelOf n).gen.toNat == top
  let bad := cur.filter fun n => failed.getLsbD n
  let mem := cur.filter fun n => !failed.getLsbD n
  let s1 := stale.foldl (fun st n => (st.updAqSlot n fun a => { a with st := .stale }).aqFault n 0x0902) s
  let s2 := bad.foldl (fun st n => (st.updAqSlot n fun a => { a with st := .faulted }).aqFault n 0x0901 2) s1
  match mem with
  | [] => s2.mountFail c stAqBad
  | m0 :: _ =>
    match mem.foldlM (fun st n => st.replay (s.labelOf n).ordinal n) (s2.mountJoin mem sid top m0) with
    | none => (mem.foldl (fun st n => st.updAqSlot n fun a => { a with st := .ident, ordinal := 0 }) s2).mountFail
        c stAqNoSpace
    | some s5 => ({ s5 with aq := { s5.aq with set := 2, synced := s5.aq.useq } }.aqSettle).done c stSuccess

/-- AQ_MOUNT (R281, R282): the cases in order; `failed` names the slots whose label or log read failed. -/
def execAqMount (c : KCmd) (failed : Byte) (s : State) : Res :=
  if s.aq.mounted || s.aq.set == 1 then .next (s.done c stAqState)
  else if !(s.inPlainRegion (s.aq.tailBase.toNat * 2 ^ 28) (8 * 65536) &&
      decide (16 ≤ s.aq.lidxSize.toNat ∧ s.aq.lidxSize.toNat ≤ 28) &&
      s.inPlainRegion (s.aq.lidxBase.toNat * 2 ^ 28) (64 * 2 ^ s.aq.lidxSize.toNat)) then
    .next (s.mountFail c stAqBad)
  else
    let cand := (List.range 8).filter fun n =>
      let st := (s.aqSlot n).st
      (st == .ident || st == .stale || st == .foreign) && (s.drive n).label.isSome
    match cand with
    | [] => .next (s.mountFail c stAqBad)
    | n0 :: _ =>
      let sid := (s.labelOf n0).setId
      if cand.any fun n => (s.labelOf n).setId != sid then .next (s.mountFail c stAqBad)
      else if cand.any fun a => cand.any fun b =>
          a != b && (s.labelOf a).ordinal == (s.labelOf b).ordinal && (s.labelOf a).gen == (s.labelOf b).gen then
        .next (s.mountFail c stAqBad)
      else
        .next (s.mountSet c cand failed sid)

/-- Write every tail to flash. -/
def State.tailsOut (s : State) : Bool × State :=
  (List.range 8).foldl (fun x o => let y := x.2.tailWrite o; (x.1 && y.1, y.2)) (true, s)

/-- The sync mark: what has been written is durable (R296). -/
def State.syncMark (s : State) : State :=
  let s2 := ({ s with aq := { s.aq with gen := s.aq.gen + 1, synced := s.aq.useq } }).writeLabels
  (List.range 8).foldl (fun st o => match st.memberSlot o with
    | some n => st.emit (.nvme n "Flush" 0 0) | none => st) s2

/-- AQ_SYNC (R296): posts once every tail, flush and sync mark is durable; until a segment is free the command stays
in flight. -/
def execAqSync (c : KCmd) (s : State) : Res :=
  if !s.aq.mounted then .next (s.done c stAqState)
  else
    let (ok, s1) := s.tailsOut
    if !ok then .next s1
    else .next (s1.syncMark.done c stSuccess)

/-- First LBA past the label and log area of a drive. -/
def Drive.dataLba (d : Drive) : Nat := 256 + (match d.label with | some l => l.logSegs * segPages | none => 0)

/-- Lowest base at which `n` LBAs are free of every extent that shares a member with the mask: the base is the start of
the data area or the end of an extent. -/
def State.findLbas (s : State) (mask : Byte) (n : Nat) : Option Nat :=
  let ms := (maskBits mask).filterMap s.memberSlot
  let lo := ms.foldl (fun m x => max m (s.drive x).dataLba) 256
  let hi := ms.foldl (fun m x => min m (s.drive x).lbas) (2 ^ 48)
  let used := s.aq.exts.filterMap fun kv =>
    if kv.2.st ≠ 0 ∧ kv.2.mask &&& mask ≠ 0 then
      some (kv.2.homeLba, (kv.2.pages + (maskBits kv.2.mask).length - 1) / (maskBits kv.2.mask).length * kv.2.pgn)
    else none
  let fits := fun b => decide (lo ≤ b ∧ b + n ≤ hi) && used.all fun u => decide (b + n ≤ u.1 ∨ u.1 + u.2 ≤ b)
  (lo :: used.map fun u => u.1 + u.2).foldl (fun best b =>
    if fits b then (match best with | none => some b | some x => some (min x b)) else best) none

/-- AQ_EXT_CREATE (R283): RESULT is the extent handle. -/
def execAqExtCreate (c : KCmd) (s : State) : Res :=
  let i := c.a0.toNat
  let mask := BitVec.ofNat 8 c.a1.toNat
  let pgn := c.a2.toNat
  let pages := c.a3.toNat
  let ms := maskBits mask
  let e := s.aqExt i
  if !s.aq.mounted then .next (s.done c stAqState)
  else if e.st ≠ 0 ∨ ms = [] ∨ 256 ≤ c.a1.toNat ∨ pgn < 1 ∨ 4 < pgn ∨ pages = 0 ∨
      ms.any (fun o => match s.memberSlot o with
        | some n => decide ((s.drive n).awun < pgn) | none => true) = true then
    .next (s.done c stAqBad)
  else
    match s.findLbas mask ((pages + ms.length - 1) / ms.length * pgn) with
    | none => .next (s.done c stAqNoSpace)
    | some lba =>
      let e' : AqExt := { st := 1, mask := mask, pgn := pgn, gen := e.gen + 1, pages := pages, homeLba := lba }
      let s1 := ({ s with aq := { s.aq with exts := s.aq.exts.set i e' } }).writeLabels
      .next (s1.done c stSuccess (BitVec.ofNat 64 (e'.gen.toNat * 2 ^ 32 + i)))

/-- A table that is not FREE names an extent handle. -/
def State.extInUse (s : State) (h : Nat) : Bool :=
  s.tda.live.any fun t => (s.td t).tier == 3 && (s.td t).homeExt == h

/-- AQ_EXT_FREE (R283). -/
def execAqExtFree (c : KCmd) (s : State) : Res :=
  let h := c.a0.toNat
  let e := s.aqExt (h % 4096)
  if !s.aq.mounted then .next (s.done c stAqState)
  else if e.st = 0 ∨ h ≠ e.gen.toNat * 2 ^ 32 + h % 4096 then .next (s.done c stAqBad)
  else if s.extInUse h then .next (s.done c stAqInUse)
  else
    let s1 := ({ s with aq := { s.aq with exts := s.aq.exts.set (h % 4096) { e with st := 0, lost := 0 } } }).writeLabels
    .next (s1.done c stSuccess)

/-- AQ_ADOPT (R300): a blank drive becomes the replacement of a lost ordinal. -/
def execAqAdopt (c : KCmd) (s : State) : Res :=
  let n := c.a0.toNat
  let o := c.a1.toNat
  if !s.aq.mounted then .next (s.done c stAqState)
  else if (s.aqSlot n).st ≠ .blank ∨ s.aq.members.getLsbD o = false ∨ (s.memberSlot o).isSome = true then
    .next (s.done c stAqBad)
  else
    let segs := (List.range 8).foldl (fun m k =>
      match (s.memberSlot k).bind fun x => (s.drive x).label with | some l => max m l.logSegs | none => m) 0
    let lab : AqLabel := { setId := s.aq.setId, ordinal := o, gen := s.aq.gen, members := s.aq.members, logSegs := segs }
    let s1 := (s.updDrive n fun d => { d with label := some lab, segs := [], home := [] }).updAqSlot n fun a =>
      { a with st := .member, ordinal := BitVec.ofNat 3 o }
    let s2 := { s1 with aq := { s1.aq with exts := s1.aq.exts.map fun (kv : Nat × AqExt) =>
      (kv.1, if kv.2.mask.getLsbD o then { kv.2 with lost := kv.2.lost ||| BitVec.ofNat 8 (2 ^ o) } else kv.2) } }
    .next (s2.aqSettle.writeLabels.done c stSuccess)

/-- AQ_SLOT_OFF (R300): once its I/O has completed and its tails are out, the slot is SAFE. -/
def execAqSlotOff (c : KCmd) (s : State) : Res :=
  let n := c.a0.toNat
  let st := (s.aqSlot n).st
  if st == .empty || st == .safe then .next (s.done c stAqBad)
  else if s.aq.ios.any fun x => x.slot == n then .next s
  else
    let (ok, s1) := if st == .member then s.tailsOut else (true, s)
    if !ok then .next s1
    else
      let s2 := s1.updAqSlot n fun a => { a with st := .safe, speed := 0, width := 0 }
      .next ((s2.aqSettle.emit (.nvme n "Shutdown" 0 0)).done c stSuccess)

/-! ### Slots and drives (R275, R278, R300) -/

/-- The slot exists under AQ_BIFUR (R275). -/
def State.slotExists (s : State) (n : Nat) : Bool :=
  match s.aq.bifur.get 0 (n / 4) with
  | 1 => n % 4 == 0 || n % 4 == 2
  | 2 => true
  | _ => n % 4 == 0

/-- AQ_DRIVE_INSERT (R300, R713): a drive from the shelf, or a new one, is inserted and trains; before the ports run, its
presence is latched. -/
def execAqDriveInsert (slot : Fin 8) (serial : Nat) (lbas : BitVec 48) (awun : BitVec 8) (s : State) : Res :=
  let n := slot.val
  if s.slotExists n && (s.aqSlot n).st == .empty && (s.aq.drives.find n).isNone then
    let d := (s.aq.shelf.find serial).getD { serial := serial, lbas := lbas.toNat, awun := awun.toNat }
    let s1 := s.updDrive n fun _ => d
    let s2 := { s1 with aq := { s1.aq with shelf := s1.aq.shelf.del serial } }
    let st : AqSlotState := if s.rails.pser then .training else .empty
    let s3 := s2.updAqSlot n fun a => { a with st := st, prsnt := true, pdc := true, retrained := false }
    .next (if s.hubRuns then s3.irqIf (s.aqSlot n).pdc 6 else s2)
  else .next s

/-- AQ_DRIVE_IDENTIFIED (R278, R300): the label decides the slot's state. -/
def execAqDriveIdentified (slot : Fin 8) (speed : BitVec 2) (width : BitVec 5) (supported : Bool) (s : State) : Res :=
  let n := slot.val
  if (s.aqSlot n).st == .training then
    let d := s.drive n
    let s1 := s.updAqSlot n fun a => { a with speed := speed, width := width }
    let put := fun (s : State) (x : AqSlotState) => s.updAqSlot n fun a => { a with st := x }
    if !supported || d.awun == 0 then .next (put s1 .unsupported)
    else
      match d.label with
      | none => .next (put s1 .blank)
      | some l =>
        if !s.aq.mounted then .next (put s1 .ident)
        else if l.setId ≠ s.aq.setId then .next (put s1 .foreign)
        else if s.aq.exts.any fun kv => kv.2.st != 0 && kv.2.mask.getLsbD l.ordinal && decide (d.awun < kv.2.pgn) then
          .next (put s1 .unsupported)
        else if l.gen = s.aq.gen ∧ (s.memberSlot l.ordinal).isNone = true then
          .next ((s1.updAqSlot n fun a => { a with st := .member, ordinal := BitVec.ofNat 3 l.ordinal }).aqSettle)
        else .next ((put s1 .stale).aqFault n 0x0902)
  else .next s

/-- A member or other drive is gone without notice (R300). -/
def State.driveLost (s : State) (n : Nat) (present : Bool) : State :=
  let s1 := s.slotIosFail n
  let a0 := s.aqSlot n
  let s2 := State.irqIf (s1.updAqSlot n fun a => { a with
    st := if present then .faulted else .empty, surprise := true, speed := 0, width := 0,
    prsnt := present, pdc := a.pdc || !present }) (a0.surprise && (a0.pdc || present)) 6
  let s3 := if present then s2
    else
      let d := s2.drive n
      { s2 with aq := { s2.aq with drives := s2.aq.drives.del n, shelf := s2.aq.shelf.set d.serial d } }
  s3.aqSettle.aqFault n 0x0902

/-- AQ_SURPRISE_REMOVAL (R300): removal, or containment with the drive still present. A drive whose slot has not trained is
only gone. -/
def execAqSurpriseRemoval (slot : Fin 8) (present : Bool) (s : State) : Res :=
  let n := slot.val
  let st := (s.aqSlot n).st
  if st == .safe then .next s
  else if st != .empty then .next (s.driveLost n present)
  else
    match s.aq.drives.find n with
    | some d =>
      if present then .next s
      else
        let s1 := { s with aq := { s.aq with drives := s.aq.drives.del n, shelf := s.aq.shelf.set d.serial d } }
        .next (if s.hubRuns then
          (s1.updAqSlot n fun a => { a with prsnt := false, pdc := true }).irqIf (s.aqSlot n).pdc 6 else s1)
    | none => .next s

/-- AQ_LINK_LOSS (R300): handled as surprise removal; one retrain. -/
def execAqLinkLoss (slot : Fin 8) (retrained : Bool) (s : State) : Res :=
  let a := s.aqSlot slot.val
  if a.speed = 0 then .next s
  else
    let s1 := s.driveLost slot.val true
    if retrained && !a.retrained then
      .next (s1.updAqSlot slot.val fun a => { a with st := .training, retrained := true })
    else .next s1

/-- AQ_DRIVE_REMOVE_SAFE (R300). -/
def execAqDriveRemoveSafe (slot : Fin 8) (s : State) : Res :=
  let n := slot.val
  if (s.aqSlot n).st == .safe then
    let d := s.drive n
    let s1 := { s with aq := { s.aq with drives := s.aq.drives.del n, shelf := s.aq.shelf.set d.serial d } }
    let s2 := s1.updAqSlot n fun a => { a with st := .empty, prsnt := false, pdc := true, ordinal := 0 }
    .next (s2.irqIf (s.aqSlot n).pdc 6)
  else .next s

/-! ### The log (R291–R294) -/

/-- TAIL_WRITE (R291): a full tail goes to flash. -/
def execTailWrite (ordinal : Fin 8) (s : State) : Res :=
  if s.aq.mounted && (s.aqTail ordinal.val).full then .next (s.tailWrite ordinal.val).2 else .next s

/-- TAIL_TIMER_EXPIRY (R291): TAIL_US after the tail's first record. -/
def execTailTimerExpiry (ordinal : Fin 8) (s : State) : Res :=
  let t := s.aqTail ordinal.val
  if s.aq.mounted && !t.recs.isEmpty && s.elapsed t.first (s.aq.tailUs.toNat * 1000) then
    .next (s.tailWrite ordinal.val).2
  else .next s

/-- Merge one record's row into its home page group, where the home can be written (R293, R299). -/
def State.compactRow (s : State) (e : LogEntry) (i : Nat) : State :=
  match s.logRec e with
  | none => s
  | some r =>
    let d := s.td e.table
    let x := s.aqExt (d.homeExt % 4096)
    let (o, lba, off) := x.locate d.s e.row
    match s.memberSlot o with
    | none => s
    | some n =>
      if x.lost.getLsbD o || (s.aqSlot n).roMedia then s
      else
        let s1 := (s.updDrive n fun d => { d with home := cellsWrite d.home (lba * 4096 + off) r.bytes }).emit
          (.nvme n "Write" lba x.pgn)
        { s1 with aq := { s1.aq with lidx := s1.aq.lidx.del i } }

/-- COMPACTION (R293): a member's oldest segment is merged home; with no entry naming a record in it, it is
deallocated once no read of it is in flight. -/
def execCompaction (ordinal : Fin 8) (s : State) : Res :=
  match s.memberSlot ordinal.val with
  | none => .next s
  | some n =>
    match (s.drive n).segs.foldl (fun b kv => match b with
        | none => some kv
        | some x => if kv.2.seq < x.2.seq then some kv else some x) (none : Option (Nat × LogSeg)) with
    | none => .next s
    | some (g, _) =>
      let inSeg := fun (e : LogEntry) => match e.place with
        | .flash o g' _ => o == ordinal.val && g' == g
        | .tail _ => false
      let s1 := (s.aq.lidx.filter fun kv => inSeg kv.2).foldl (fun st kv => st.compactRow kv.2 kv.1) s
      let busy := s1.aq.ios.any fun x => x.slot == n && (match x.op with | .readLog g' _ => g' == g | _ => false)
      if s1.aq.lidx.any (fun kv => inSeg kv.2) || busy then .next s1
      else .next (({ s1.updDrive n fun d => { d with segs := d.segs.del g } with
        aq := { (s1.updDrive n fun d => { d with segs := d.segs.del g }).aq with logFull := false } }).emit
          (.nvme n "Deallocate" (logLba g 0) segPages))

end Sys2Proof.Machine
end

