-- ==== Sys2Proof/Machine/Rows.lean ====
section
/-! DEFINITION. A row in all its places: reading it, writing it everywhere (R195, R252, R355), optimizer state (R359),
hashes and digests (R373–R377), and fountain rows (R242–R246). -/
namespace Sys2Proof.Machine
open Sys2Proof

def State.part (s : State) (p : Nat) : Part := s.sc.parts.get {} p
def State.updPart (s : State) (p : Nat) (f : Part → Part) : State :=
  { s with sc := { s.sc with parts := s.sc.parts.upd {} p f } }

/-- The clusters of a partition, ascending (R521). -/
def Part.clusters (p : Part) : List Nat := (List.range 100).filter fun i => p.cl.getLsbD i

/-! ### Reading a row -/

/-- `n` bytes from a row's home, where they can be had (R303, R355, R832). -/
def State.rowHome (s : State) (t : Nat) (d : TD) (r n : Nat) : Option (List Byte) :=
  let rd := fun da => let x := s.readDA da n; if x.clean then some x.data else none
  match d.tier with
  | 0 =>
    match (s.part d.part).clusters with
    | [] => none
    | c :: _ => rd (cisternDA c (s.rowDA d r))
  | 1 => rd (s.rowDA d r)
  | 2 => rd (s.rowDA d r)
  | _ => s.aqRow t d r n

/-- The basin place that an update of a TIER 2 or 3 row reads: its fountain primary or its hot copy (R243, R355). -/
def State.basinSource (s : State) (t r : Nat) : Option Nat :=
  let prim := ((s.ftnCopies t r).find? fun x => x.1 == s.bucketStack (bucketOf t r)).bind fun x =>
    (s.dirAt x.1 x.2).bind fun e => if e.filling then none else some e.slot
  match prim with
  | some a => some a
  | none => (s.hotCopies t r).findSome? fun x => (s.dirAt x.1 x.2).bind fun e => if e.filling then none else some e.slot

/-- The old row of an update (R355). -/
def State.rowOld (s : State) (t : Nat) (d : TD) (r : Nat) : Option (List Byte) :=
  if 2 ≤ d.tier then
    match s.basinSource t r with
    | some a => let x := s.readDA a d.span; if x.clean then some x.data else none
    | none => s.rowHome t d r d.span
  else s.rowHome t d r d.span

/-! ### Writing a row -/

/-- Write with the table's codebook (R169), with the effects of R176. -/
def State.writeCbk (s : State) (d : TD) (da : Nat) (bs : List Byte) : State :=
  (s.touch da bs.length).writeDAWith (if d.cbkV then some d.cbk else none) da bs

/-- Write a row's bytes at an offset of its slot in every basin copy that is not its home (R239, R243). -/
def State.writeCopies (s : State) (t : Nat) (d : TD) (r off : Nat) (bs : List Byte) : State :=
  let home := if d.tier = 1 then some (s.rowDA d r) else none
  (s.ftnCopies t r ++ s.hotCopies t r).foldl (fun st x =>
    match st.dirAt x.1 x.2 with
    | none => st
    | some e =>
      let st1 := if some e.slot = home then st else st.writeCbk d (e.slot + off) bs
      if e.filling then st1.dirPut x.1 x.2 { e with refill := true } else st1) s

/-- Write a row's bytes to its home (R211, R252, R355). False: the write waits for log space (R294). -/
def State.writeHome (s : State) (t : Nat) (d : TD) (r off : Nat) (bs : List Byte) : Bool × State :=
  match d.tier with
  | 0 => (true, (s.part d.part).clusters.foldl (fun st c => st.writeDA (cisternDA c (s.rowDA d r + off)) bs) s)
  | 1 => (true, s.writeCbk d (s.rowDA d r + off) bs)
  | 2 =>
    let da := s.rowDA d r + off
    (true, (pieces 64 (bs.length / 64 + 2) da bs.length).foldl (fun st p =>
      st.rsvWriteLine (if d.digest then some d.model else none) p.1 ((bs.drop (p.1 - da)).take p.2)) s)
  | _ => s.aqAppend t r bs

/-- Write an updated row to its home and every copy (R355). -/
def State.writeRow (s : State) (t : Nat) (d : TD) (r off : Nat) (bs : List Byte) : Bool × State :=
  let (ok, s1) := s.writeHome t d r off bs
  if ok then (true, s1.writeCopies t d r off bs) else (false, s1)

/-! ### Optimizer state (R359) -/

/-- State bytes per row, before rounding. -/
def TD.stateLen (d : TD) : Nat :=
  match d.opt with
  | 2 => 4 * d.w
  | 3 => 4
  | 4 => 4 * d.w + 4
  | _ => 0

/-- SS. -/
def TD.ss (d : TD) : Nat := (d.stateLen + 63) / 64 * 64

/-- DA of a row's optimizer state, from the state map the front end holds. -/
def State.stateDA (s : State) (t : Nat) (d : TD) (r : Nat) : Nat :=
  let k := s.shardOf d r
  listGet 0 (s.upd.stateMaps.get [] t) k + (r - (s.shardEntry d k).1) * d.ss

/-! ### PUB halves (R365, R366) -/

/-- Published half of a table. -/
def State.half (s : State) (t : Nat) : Bool := s.upd.pub.get false t

/-- VERSION of a row image. -/
def rowVersion (bs : List Byte) : Nat := leAt bs 4 2

/-- One half of a slot's bytes. -/
def TD.halfBytes (d : TD) (slot : List Byte) (h : Bool) : List Byte :=
  if h then (slot.drop (d.s / 2)).take d.rb else slot.take d.rb

/-- How far half 1 − P is ahead of half P, modulo 2^16. -/
def TD.ahead (d : TD) (slot : List Byte) (p : Bool) : Nat :=
  (rowVersion (d.halfBytes slot (!p)) + 65536 - rowVersion (d.halfBytes slot p)) % 65536

/-- The newer half (R366): none where the VERSIONs differ by exactly 32,768. -/
def TD.newer (d : TD) (slot : List Byte) (p : Bool) : Option Bool :=
  let a := d.ahead slot p
  if a = 0 then some p else if a < 32768 then some (!p) else if a = 32768 then none else some p

/-- The row's current content: the newer half of a PUB row (half P where neither is newer). -/
def TD.content (d : TD) (slot : List Byte) (p : Bool) : List Byte :=
  if d.pub then d.halfBytes slot ((d.newer slot p).getD p) else slot.take d.rb

/-! ### Digests (R373–R377) -/

/-- Word i of the fleet key; zero until one is installed (R373). -/
def State.fkWord (s : State) (i : Nat) : Nat :=
  match s.ident.fleetKey with
  | some k => k.toNat / 2 ^ (64 * i) % 2 ^ 64
  | none => 0

/-- G(i). -/
def digG (f0 f1 i : Nat) : Nat := mix64 ((f0 + i * (f1 ||| 1)) % 2 ^ 64)

/-- K[j]. -/
def digK (f0 f1 j : Nat) : Nat := digG f0 f1 (2 * j) * 2 ^ 64 + digG f0 f1 (2 * j + 1)

/-- f(t, r). -/
def digF (f2 f3 t r : Nat) : Nat :=
  let z := (t * 2 ^ 40 + r) % 2 ^ 64
  (mix64 (z ^^^ f2) * 2 ^ 64 + mix64 (z ^^^ f3)) ||| 1

/-- 32-bit words of padded content. -/
def digWords : Nat → List Byte → List Nat
  | 0, _ => []
  | n + 1, bs => leNat (bs.take 4) :: digWords n (bs.drop 4)

/-- h(t, r, c) of R374 over words already formed, with key words F0 to F3. -/
def digHash (f0 f1 f2 f3 t r : Nat) (ws : List Nat) : Nat :=
  digF f2 f3 t r * ((ws.zipIdx.map fun x => digK f0 f1 x.2 * x.1).sum % 2 ^ 128) % 2 ^ 128

/-- Row hash of a content (R374): with HDR, bytes [5:4] count as zero. -/
def State.rowHash (s : State) (d : TD) (t r : Nat) (c : List Byte) : D128 :=
  let c1 := if d.hdr then c.take 4 ++ [0, 0] ++ c.drop 6 else c
  BitVec.ofNat 128 (digHash (s.fkWord 0) (s.fkWord 1) (s.fkWord 2) (s.fkWord 3) t r
    (digWords ((c1.length + 3) / 4) c1))

/-- Add into a partial digest: key unit × 256 + model (R376). -/
def State.digAdd (s : State) (unit model : Nat) (x : D128) : State :=
  { s with upd := { s.upd with dig := s.upd.dig.upd 0 (unit * 256 + model) (· + x) } }

/-- The hub's own partial: contributions of seal, retire and rebuild sweeps. -/
abbrev hubUnit : Nat := 96

/-- Sum of a table's row hashes as a sweep reads them, and whether a row could not be read (R377, R832). -/
def State.sweepSum (s : State) (t : Nat) (d : TD) : D128 × Bool :=
  (List.range d.n).foldl (fun x r =>
    match s.rowHome t d r d.span with
    | none => (x.1, true)
    | some b => (x.1 + s.rowHash d t r (d.content b (s.half t)), x.2)) (0, false)

/-- A seal (true) or retire (false) sweep of a digested table (R377, R379). -/
def State.sweep (s : State) (t : Nat) (d : TD) (add : Bool) : State :=
  if d.digest then
    let (x, bad) := s.sweepSum t d
    let s1 := s.digAdd hubUnit d.model (if add then x else 0 - x)
    if bad then s1.breakModel (some d.model) else s1
  else s

/-- D_m: the sum of every partial of a model (R375, R376). -/
def SMap.digSum (m : SMap D128) (model : Nat) : D128 :=
  (m.filter fun kv => kv.1 % 256 == model).foldl (fun a kv => a + kv.2) 0

/-! ### Fountain rows (R242–R246) -/

/-- Outcome of making a row a fountain row. -/
inductive FtnRes where
  | done | skipped | full | unreadable
deriving DecidableEq, Repr

/-- The stack of a TIER 1 row's home slot. -/
def State.homeStack (s : State) (d : TD) (r : Nat) : Nat := flatStack (s.flatOf (s.rowDA d r))

/-- Remove a row's entries from every fountain frame. -/
def State.ftnRemove (s : State) (t r : Nat) : State :=
  (s.ftnCopies t r).foldl (fun st x => st.dirDel x.1 x.2) s

/-- Make a row a fountain row at an offset of the fountain areas (R242). -/
def State.ftnAdd (s : State) (t : Nat) (d : TD) (r off : Nat) (pinned : Bool) : FtnRes × State :=
  let have_ := (s.ftnCopies t r).map (·.1)
  let live := s.bd.ftn.contains (t, r)
  if live && have_.length == 12 then (.skipped, s)
  else if !live && decide (ftnLimit ≤ s.bd.ftn.length) then (.full, s)
  else
    let slotOf := fun st => if d.tier = 1 ∧ s.homeStack d r = st then s.rowDA d r else s.ftnBase st + off
    let (ok, s1) := ((List.range 12).filter fun st => !have_.contains st).foldl (fun (x : Bool × State) st =>
      if x.1 then x.2.dirInsert st none
        { row := r, table := t, fountain := true, filling := true, pinned := pinned, slot := slotOf st }
      else x) (true, s)
    if !ok then (.full, s1.ftnRemove t r)
    else
      match s1.rowOld t d r with
      | none => (.unreadable, s1.ftnRemove t r)
      | some bs =>
        let home := if d.tier = 1 then some (s1.rowDA d r) else none
        let s2 := (s1.ftnCopies t r).foldl (fun st x =>
          match st.dirAt x.1 x.2 with
          | none => st
          | some e =>
            let st1 := if some e.slot = home then st else st.writeCbk d e.slot bs
            st1.dirPut x.1 x.2 { e with filling := false, refill := false }) s1
        let s3 := if live then s2 else ({ s2 with bd := { s2.bd with ftn := (t, r) :: s2.bd.ftn } }).ftnRaise t r
        (.done, (s3.hotCopies t r).foldl (fun st x => st.dirDel x.1 x.2) s3)

/-- End a fountain row: its filter counts fall, and its entries go (R244 steps 1 and 3). -/
def State.ftnEnd (s : State) (t r : Nat) : State :=
  if s.bd.ftn.contains (t, r) then
    (({ s with bd := { s.bd with ftn := s.bd.ftn.filter (· != (t, r)) } }).ftnLower t r).ftnRemove t r
  else s.ftnRemove t r

/-- Lowest pinned-zone offset for a row's bytes (R246): 64 B units, never across 16 KiB. -/
def State.pinOffset (s : State) (n : Nat) : Option Nat :=
  let len := (n + 63) / 64 * 64
  let fit := fun o => if o / 16384 = (o + len - 1) / 16384 then o else (o / 16384 + 1) * 16384
  let free := fun o => decide (o + len ≤ 64 * mib) && s.bd.pins.all fun p => decide (o + len ≤ p.1 ∨ p.1 + p.2.1 ≤ o)
  ((0 :: s.bd.pins.map fun p => p.1 + p.2.1).map fit).foldl (fun b o =>
    if free o then (match b with | none => some o | some x => some (min x o)) else b) none

/-- Pin a kind-2 default or fallback row (R246). False: no room, or the limit of R212. -/
def State.pinRow (s : State) (t : Nat) (d : TD) (r : Nat) : Bool × State :=
  if s.bd.ftn.contains (t, r) && ((s.ftnCopies t r).any fun x =>
      match s.dirAt x.1 x.2 with | some e => e.pinned | none => false) then (true, s)
  else
    match s.pinOffset d.span with
    | none => (false, s)
    | some o =>
      match s.ftnAdd t d r o true with
      | (.done, s1) => (true, { s1 with bd := { s1.bd with pins := (o, (d.span + 63) / 64 * 64, t) :: s1.bd.pins } })
      | (.skipped, s1) => (true, s1)
      | (_, s1) => (false, s1)

/-- Kind-2 rows of a table (R204). -/
def TD.kind2 (d : TD) : List Nat :=
  ((if d.defKind = 2 then [d.defRow] else []) ++ (if d.fbKind = 2 then [d.fbRow] else [])).eraseDups

/-- Remove a table's entries from every frame of every stack, its sketch and its pins (R246, R251). -/
def State.dirPurge (s : State) (t : Nat) : State :=
  let rows := (s.bd.ftn.filter fun x => x.1 == t).map (·.2)
  let s1 := rows.foldl (fun st r => st.ftnEnd t r) s
  let s2 := (List.range 12).foldl (fun st k =>
    ((st.bdStack k).dir.filter fun kv => kv.2.table == t).foldl (fun st kv => st.dirDel k kv.1) st) s1
  { s2 with bd := { s2.bd with sketches := s2.bd.sketches.del t, pins := s2.bd.pins.filter fun p => p.2.2 != t } }

end Sys2Proof.Machine
end

