-- ==== Sys2Proof/Machine/Tables.lean ====
section
/-! DEFINITION. Regions' enabling (04, R119–R122) and the table commands (06, R186–R217). -/
namespace Sys2Proof.Machine
open Sys2Proof

/-! ### HUB_REGION_A (R120, R122, R146, R153, R188, R250) -/

/-- The fields of a HUB_REGION_A write, ERR and EN aside. -/
def Region.withWord (r : Region) (v : W32) : Region :=
  { r with placed := bit v 1, gran16 := bit v 2, comp := bit v 3, stack := field v 4 4,
           firstBlock := field v 8 8, nblocksM1 := field v 16 8 }

/-- HUB_REGION_A as it reads. -/
def Region.regA (r : Region) : W32 :=
  regOf [(0, r.en.toNat), (1, r.placed.toNat), (2, r.gran16.toNat), (3, r.comp.toNat), (4, r.stack.toNat),
    (8, r.firstBlock.toNat), (16, r.nblocksM1.toNat), (24, r.err.toNat)]

/-- The stacks a region uses. -/
def Region.stacks (r : Region) : List Nat := if r.placed then [r.stack.toNat] else List.range 12

/-- The checks of R120 and R153 on setting EN of region n. -/
def State.regionOk (s : State) (n : Nat) (r : Region) : Bool :=
  (!r.comp || r.nblocksM1 != 0) && (!r.placed || decide (r.stack.toNat < 12))
    && decide (r.daBase + r.size ≤ 0xC000000000)
    && r.stacks.all (fun k => decide (r.firstBlock.toNat + r.nblocksM1.toNat < (s.mcRegs k).usable))
    && (List.range 64).all fun m =>
      let o := s.region m
      m == n || !o.en ||
        (decide (r.daBase + r.size ≤ o.daBase ∨ o.daBase + o.size ≤ r.daBase) &&
         (r.stacks.all (fun k => !o.stacks.contains k) ||
          decide (r.firstBlock.toNat + r.nblocksM1.toNat < o.firstBlock.toNat
            ∨ o.firstBlock.toNat + o.nblocksM1.toNat < r.firstBlock.toNat)))

/-- A clear of EN is ignored: the region holds the table store, rows of a table that is not FREE, or, while the basin
directory is on, a directory area, a fountain area or a live hot slot (R188, R250). -/
def State.regionPinned (s : State) (n : Nat) : Bool :=
  let r := s.region n
  let lo := r.daBase
  let hi := r.daBase + r.size
  let inR := fun a => decide (lo ≤ a ∧ a < hi)
  (s.tda.en && inR s.storeBase) || (s.tda.rdy && s.shardIn 1 lo hi)
    || (s.bd.en && (List.range 12).any fun k =>
      inR ((s.bdStack k).dirBase.toNat * 2 ^ 28) || inR (s.ftnBase k)
        || (s.bdStack k).dir.any fun kv => !kv.2.fountain && inR kv.2.slot)

/-- Drop a region's tag sectors from the tag caches (R156). -/
def State.dropTags (s : State) (r : Region) : State :=
  let blk := r.firstBlock.toNat + r.nblocksM1.toNat
  let mine := fun (l : Nat) =>
    let id := s.mem.unredirect (l * 64 / (4 * mib))
    id % 256 == blk && r.stacks.contains (id / 16384)
  { s with cx := s.cx.map fun (kv : Nat × CxStack) => (kv.1, { kv.2 with tagCache := kv.2.tagCache.filter fun l => !mine l }) }

def State.putRegion (s : State) (n : Nat) (r : Region) : State := { s with regions := s.regions.set n r }

/-- A write of HUB_REGION_A (R122, R827). -/
def State.writeRegionA (s : State) (n : Nat) (v : W32) : State :=
  let r0 := s.region n
  let r := if bit v 24 then { r0 with err := false } else r0
  if r.en then
    let err1 := r.err || decide (r.withWord v ≠ r)
    if bit v 0 then s.putRegion n { r with err := err1 }
    else if s.regionPinned n then s.putRegion n { r with err := true }
    else (s.dropTags r).putRegion n { r with en := false, err := err1 }
  else
    let r1 := r.withWord v
    if bit v 0 then
      if s.regionOk n r1 then s.putRegion n { r1 with en := true } else s.putRegion n { r1 with err := true }
    else s.putRegion n r1

/-- HUB_REGION_A_WRITE (R122). -/
def execHubRegionAWrite (p : AccessPath) (n : Fin 64) (v : W32) (s : State) : Res :=
  .next (s.onCsr p .hub (·.writeRegionA n.val v))

/-! ### The table store (R186, R216) -/

/-- HUB_TDA_LO as it reads. -/
def Tda.regLo (t : Tda) : W32 := regOf [(0, t.en.toNat), (1, t.err.toNat), (2, t.rdy.toNat), (24, t.baseLo.toNat)]

/-- A write of HUB_TDA_LO (R216, R827). -/
def State.writeTdaLo (s : State) (v : W32) : State :=
  let t0 := s.tda
  let t := if bit v 1 then { t0 with err := false } else t0
  if t.en then
    let bar := field v 24 8 != t.baseLo
    if bit v 0 then { s with tda := { t with err := t.err || bar } }
    else if t.live.isEmpty then { s with tda := { t with en := false, rdy := false, err := t.err || bar } }
    else { s with tda := { t with err := true } }
  else
    let s1 := { s with tda := { t with baseLo := field v 24 8 } }
    if bit v 0 then
      if 4 ≤ t.size.toNat ∧ s1.inPlainRegion s1.storeBase s1.storeSize = true then
        let s2 := s1.zeroRange s1.storeBase s1.storeSize
        { s2 with tda := { s2.tda with en := true, rdy := false, live := [] }, heap := [] }
      else { s1 with tda := { s1.tda with err := true } }
    else s1

/-- HUB_TDA_LO_WRITE (R216). -/
def execHubTdaLoWrite (p : AccessPath) (v : W32) (s : State) : Res := .next (s.onCsr p .hub (·.writeTdaLo v))

/-- TABLE_STORE_READY (R216): the zeroing is done. -/
def execTableStoreReady (s : State) : Res :=
  if s.tda.en then .next { s with tda := { s.tda with rdy := true } } else .next s

/-! ### TBL_CREATE (R189–R199, R210, R284, R365) -/

/-- The zero bits and the field values of a descriptor image (R189, R193). -/
def imageLegal (b : List Byte) (d : TD) : Bool :=
  let z := fun o n => (List.range n).all fun i => listGet 0 b (o + i) == 0
  let home := leAt b 1 1
  let bits := elemBits d.fmt
  decide (home < 8) && (!d.hotset || decide (2 ≤ d.tier))
    && decide (leAt b 2 1 < 64) && decide (3 ≤ d.fmt ∧ d.fmt ≤ 15) && decide (leAt b 3 1 < 4)
    && decide (4 ≤ d.w ∧ d.w ≤ 8192) && (bits != 4 || d.w % 2 == 0) && (bits != 6 || d.w % 4 == 0)
    && (!isMx d.fmt || d.w % 32 == 0)
    && decide (leAt b 8 8 < 2 ^ 40)
    && (if d.xlate = 2 then decide (2 ≤ d.rmapN ∧ d.rmapN ≤ 65537) else z 24 4 && (d.xlate == 3 || z 16 8))
    && decide (-512 ≤ d.anchor ∧ d.anchor ≤ 511)
    && leAt b 30 2 / 4096 % 8 == 0
    && decide (leAt b 32 1 < 16) && decide (d.missPol < 2) && decide (d.latePol < 3)
    && decide (leAt b 33 1 < 32) && decide (d.opt ≤ 4) && decide (leAt b 36 1 < 16) && z 37 1
    && decide (1 ≤ d.nshard ∧ d.nshard ≤ 4096) && ((d.tier != 0 && d.tier != 3) || d.nshard == 1)
    && leAt b 48 8 / 2 ^ 40 % 2 ^ 22 == 0 && d.defKind != 3 && leAt b 56 8 / 2 ^ 40 % 2 ^ 22 == 0 && d.fbKind != 3
    && (d.opt != 0 || d.stateBase == 0) && (d.tier == 3 || d.homeExt == 0) && z 96 32
    && decide (d.rb ≤ 16384) && decide (d.rb ≤ d.s) && (bits != 6 || d.s % 64 == 0)
    && (!d.pub || (d.hdr && decide (d.tier ≤ 1) && d.stride % 2 == 0 && decide (d.rb ≤ d.s / 2)
      && (bits != 6 || d.s / 2 % 64 == 0)))

/-- Entries of a 16 B-entry map: (first word, second word). -/
def mapEntries : Nat → List Byte → List (Nat × Nat)
  | 0, _ => []
  | n + 1, b => (leAt b 0 8, leAt b 8 8) :: mapEntries n (b.drop 16)

/-- Rows of each shard (R194). -/
def shardRows (n : Nat) (es : List (Nat × Nat)) : List Nat :=
  (es.zip ((es.drop 1).map (·.1) ++ [n])).map fun x => x.2 - x.1.1

/-- The shard map meets R193 to R196, the declared-memory condition of a reservoir aside. -/
def State.shardsLegal (s : State) (d : TD) (es : List (Nat × Nat)) : Bool :=
  let rows := shardRows d.n es
  (match es with | (f, _) :: _ => f == 0 | [] => false)
    && (es.zip (es.drop 1)).all (fun x => decide (x.1.1 < x.2.1))
    && es.all (fun e => decide (e.1 < d.n) && decide (e.2 < 2 ^ 52))
    && (es.zip rows).all fun x =>
      let base := x.1.2
      let g := s.shardG d base
      let n := extentBytes g d.s x.2
      decide (d.s ≤ g) && base % g == 0 &&
      (match d.tier with
       | 0 => decide (base < 2 ^ 23) && decide (base + n < 8 * mib + 1)
       | 1 => (match s.regionOf base with
         | some k => decide (base + n ≤ (s.region k).daBase + (s.region k).size)
         | none => false)
       | 2 => decide (rsvBase ≤ base ∧ base < 2 * rsvBase)
       | _ => base == 0)

/-- The range map meets R199. -/
def rmapLegal (n : Nat) (es : List (Nat × Nat)) : Bool :=
  (es.zip (es.drop 1)).all (fun x =>
    decide (x.1.1 < x.2.1) && (x.1.2 / 2 ^ 63 == 1 || decide (x.1.2 % 2 ^ 40 + (x.2.1 - x.1.1) ≤ n)))
    && (match es.getLast? with | some e => e.2 / 2 ^ 63 == 1 | none => false)
    && es.all fun e => e.2 / 2 ^ 40 % 2 ^ 23 == 0

/-- A reservoir extent lies inside declared memory. -/
def State.rsvCovers (s : State) (da n : Nat) : Bool :=
  (List.range 64).any fun k =>
    let r := s.rsvRange k
    r.v && decide (rsvBase + r.hpa ≤ da ∧ da + n ≤ rsvBase + r.hpa + r.len)

/-- The home tier is available (R210, R284). -/
def State.homeOk (s : State) (d : TD) (es : List (Nat × Nat)) : Bool :=
  match d.tier with
  | 2 => (es.zip (shardRows d.n es)).all fun x => s.rsvCovers x.1.2 (extentBytes (s.shardG d x.1.2) d.s x.2)
  | 3 =>
    let e := s.aqExt (d.homeExt % 4096)
    s.aq.mounted && d.homeExt / 2 ^ 32 == e.gen.toNat && d.homeExt / 4096 % 2 ^ 20 == 0 && e.st == 1
      && e.pgn == (if d.s ≤ 4096 then 1 else (d.s + 4095) / 4096)
      && decide ((d.n + e.rows d.s - 1) / e.rows d.s ≤ e.pages) && !s.extInUse d.homeExt
  | _ => true

/-- Lowest map-heap offset with room for `n` bytes (R186): the start of the heap or the end of an allocation. -/
def State.heapFit (s : State) (n : Nat) : Option Nat :=
  let used := s.heap.map fun kv => kv.2
  let fits := fun o => decide (o + n ≤ s.storeSize) && used.all fun u => decide (o + n ≤ u.1 ∨ u.1 + u.2 ≤ o)
  ((48 * mib) :: used.map fun u => u.1 + u.2).foldl (fun b o =>
    if fits o then (match b with | none => some o | some x => some (min x o)) else b) none

/-- Place one DA into a 128 B image at a byte offset. -/
def putAt (b : List Byte) (o : Nat) (bs : List Byte) : List Byte := b.take o ++ bs ++ b.drop (o + bs.length)

/-- Every byte of a range lies in an enabled basin region. -/
def State.rangeInBasin (s : State) (da n : Nat) : Bool :=
  (List.range ((da + n - 1) / 64 + 1 - da / 64)).all fun i => (s.regionOf ((da / 64 + i) * 64)).isSome

/-- TBL_CREATE (R210): the checks in order; on success both maps are copied, the descriptor is written LOADING, and
the counter record is zero. -/
def execTblCreate (c : KCmd) (s : State) : Res :=
  let t := c.a0.toNat
  if !s.tda.rdy then .next (s.done c stTblNoStore)
  else if (s.td t).state ≠ tdFree then .next (s.done c stTblState)
  else .next (s.withInput c c.a1.toNat 128 fun s b =>
    let d := tdOf b
    let mir := fromMirror c
    let rn := if d.xlate = 2 then d.rmapN else 0
    if !(imageLegal b d && decide (d.shmap < 2 ^ 52) && decide (d.xlate ≠ 2 ∨ d.xarg < 2 ^ 52)) then s.done c stTblBad
    else if !mir && !(s.rangeInBasin d.shmap (16 * d.nshard) && (rn == 0 || s.rangeInBasin d.xarg (16 * rn))) then
      s.done c stTblBad
    else
      let sh := if mir then { data := (s.pl.rxData.drop 128).take (16 * d.nshard) } else s.readDA d.shmap (16 * d.nshard)
      let rm := if mir then { data := (s.pl.rxData.drop (128 + 16 * d.nshard)).take (16 * rn) } else s.readDA d.xarg (16 * rn)
      if sh.poison || rm.poison then s.done c stInPoison
      else
        let es := mapEntries d.nshard sh.data
        if !(s.shardsLegal d es && (rn == 0 || rmapLegal d.n (mapEntries rn rm.data))) then s.done c stTblBad
        else if (d.missPol = 0 ∧ d.defKind = 0) ∨ (d.latePol = 1 ∧ d.fbKind = 0)
            ∨ (d.defKind = 2 ∧ d.n ≤ d.defRow) ∨ (d.fbKind = 2 ∧ d.n ≤ d.fbRow) then s.done c stTblBad
        else if 65536 ≤ (s.tda.live.filter fun u => (s.td u).model == d.model).length then s.done c stTblLimit
        else if !s.homeOk d es then s.done c stTblHome
        else
          let need := 16 * (d.nshard + rn)
          match s.heapFit need with
          | none => s.done c stTblNoSpace
          | some o =>
            let m0 := s.storeBase + o
            let s1 := (s.writeDA m0 sh.data).writeDA (m0 + 16 * d.nshard) rm.data
            let b1 := putAt b 40 (leBytes 8 m0)
            let b2 := if rn = 0 then b1 else putAt b1 16 (leBytes 8 (m0 + 16 * d.nshard))
            let s2 := (s1.writeDA (s.tdDA t) (putAt b2 0 [0])).setTdState t tdLoading
            let s3 := s2.writeDA (s.tctrDA t) (List.replicate 64 0)
            ({ s3 with heap := s3.heap.set t (o, need) }).done c stSuccess 0 (b ++ sh.data ++ rm.data))

/-! ### TBL_LOAD (R211) -/

/-- Load one row image into its home; a poisoned source poisons it. -/
def State.loadRow (s : State) (t : Nat) (d : TD) (r : Nat) (bs : List Byte) (poison : Bool) : State :=
  let put := fun (s : State) (da : Nat) =>
    if d.pub then
      -- both halves as one write: the bytes between them are kept
      let mid := (s.readDA (da + d.rb) (d.s / 2 - d.rb)).data
      (s.touch da d.span).writeDAWith none da (bs ++ mid ++ bs) poison
    else (s.touch da d.rb).writeDAWith none da bs poison
  match d.tier with
  | 0 => (s.part d.part).clusters.foldl (fun st c => put st (cisternDA c (s.rowDA d r))) s
  | 1 => put s (s.rowDA d r)
  | 2 =>
    let da := s.rowDA d r
    if poison then s.writeDAWith none da bs true
    else (pieces 64 (bs.length / 64 + 2) da bs.length).foldl (fun st p =>
      st.rsvWriteLine (if d.digest then some d.model else none) p.1 ((bs.drop (p.1 - da)).take p.2)) s
  | _ =>
    let e := s.aqExt (d.homeExt % 4096)
    let (o, lba, off) := e.locate d.s r
    match s.memberSlot o with
    | some n =>
      if poison || e.lost.getLsbD o then s
      else ((s.updDrive n fun x => { x with home := cellsWrite x.home (lba * 4096 + off) bs }).lidxDel t r).emit
        (.nvme n "Write" lba e.pgn)
    | none => s

/-- TBL_LOAD (R211). -/
def execTblLoad (c : KCmd) (s : State) : Res :=
  let t := c.a0.toNat
  let src := c.a1.toNat
  let r0 := c.a2.toNat
  let n := c.a3.toNat
  let d := s.td t
  if d.state ≠ tdLoading then .next (s.done c stTblState)
  else if d.n < r0 + n then .next (s.done c stTblBad)
  else if n ≠ 0 ∧ fromMirror c = false ∧ s.rangeUnmapped src ((n - 1) * d.s + d.rb) = true then .next (s.done c stDaUnmapped)
  else
    let sent := fun (i : Nat) =>
      let b := s.pl.rxData.drop ((d.rb + 1) * i)
      ({ data := b.take d.rb, poison := listGet 0 b d.rb != 0 } : Rd)
    let (s1, bad, rows) := (List.range n).foldl (fun (x : State × Bool × List Byte) i =>
      let s0 := if fromMirror c then x.1 else x.1.touch (src + i * d.s) d.rb
      let rd := if fromMirror c then sent i else s0.readDA (src + i * d.s) d.rb
      (s0.loadRow t d (r0 + i) rd.data rd.poison, x.2.1 || rd.poison, x.2.2 ++ rd.data ++ [if rd.poison then 1 else 0]))
      (s, false, [])
    .next (s1.done c (if bad then stTblLoadPoison else stSuccess) 0 rows)

/-! ### TBL_SEAL (R212, R246, R359, R365, R377) -/

/-- Row counts of a stored table's shards. -/
def State.tdShardRows (s : State) (d : TD) : List Nat :=
  shardRows d.n ((List.range d.nshard).map fun k => s.shardEntry d k)

/-- The state map's arrays meet R359. -/
def State.stateOk (s : State) (d : TD) (m : List Nat) : Bool :=
  (m.zip (s.tdShardRows d)).all fun x => decide (x.1 < 2 ^ 52) && (d.ss == 0 || s.inPlainRegion x.1 (x.2 * d.ss))

/-- Pin the rows of a list; none where one cannot be pinned. -/
def State.pinAll (s : State) (t : Nat) (d : TD) : List Nat → Option State
  | [] => some s
  | r :: rs => match s.pinRow t d r with | (true, s1) => s1.pinAll t d rs | (false, _) => none

/-- TBL_SEAL (R212). -/
def execTblSeal (c : KCmd) (s : State) : Res :=
  let t := c.a0.toNat
  let d := s.td t
  if d.state ≠ tdLoading then .next (s.done c stTblState)
  else
    let mr := if d.opt = 0 then {} else if fromMirror c then { data := s.pl.rxData } else s.readDA d.stateBase (8 * d.nshard)
    let m := (mapWords d.nshard mr.data)
    if d.opt ≠ 0 ∧ mr.poison = true then .next (s.done c stInPoison)
    else if d.opt ≠ 0 ∧ (mr.unmapped = true ∨ s.stateOk d m = false) then .next (s.done c stTblBad)
    else if d.kind2 ≠ [] ∧ s.bd.en = false then .next (s.done c stTblNoFountain)
    else
      match s.pinAll t d d.kind2 with
      | none => .next (s.done c stTblNoFountain)
      | some s1 =>
        let s2 := if d.opt = 0 then s1
          else { ((m.zip (s.tdShardRows d)).foldl (fun st x => st.zeroRange x.1 (x.2 * d.ss)) s1) with
            upd := { s1.upd with stateMaps := s1.upd.stateMaps.set t m } }
        let s3 := { s2 with upd := { s2.upd with pub := s2.upd.pub.set t false } }
        .next (((s3.sweep t d true).setTdState t tdServing).done c stSuccess 0 mr.data)
where
  /-- 8-byte words of a byte list. -/
  mapWords : Nat → List Byte → List Nat
    | 0, _ => []
    | n + 1, b => leAt b 0 8 :: mapWords n (b.drop 8)

/-! ### TBL_RETIRE (R213, R251) -/

/-- An entry of a model is in use (R213, R527). -/
def State.modelInUse (s : State) (m : Nat) : Bool :=
  s.sc.ast.any fun kv => kv.2.st != .free && kv.2.model == m

/-- A lookup list or an update record naming a table is in flight (R213). -/
def State.tableInFlight (s : State) (t : Nat) : Bool :=
  s.lk.lists.any (fun l => l.table == t) || s.upd.batches.any (fun kv => kv.2.table == t)
    || s.upd.recs.any fun r => r.table == t

/-- Free a table: what R213 releases. -/
def State.freeTable (s : State) (t : Nat) : State :=
  let s1 := (s.dirPurge t).setTdState t tdFree
  { s1 with heap := s1.heap.del t, upd := { s1.upd with stateMaps := s1.upd.stateMaps.del t, pub := s1.upd.pub.del t } }

/-- TBL_RETIRE (R213). -/
def execTblRetire (c : KCmd) (s : State) : Res :=
  let t := c.a0.toNat
  let d := s.td t
  if d.state = tdLoading then .next ((s.freeTable t).done c stSuccess)
  else if d.state = tdServing then
    .next ({ s.setTdState t tdDraining with
      drains := s.drains.set t { q := c.q.val, cid := c.cid, tAcc := s.time.now, due := s.gtoDue } })
  else .next (s.done c stTblState)

/-- TBL_DRAIN_DONE (R213, R251, R377). -/
def execTblDrainDone (t : Fin 262144) (s : State) : Res :=
  match s.drains.find t.val with
  | none => .next s
  | some dr =>
    let d := s.td t.val
    if d.state ≠ tdDraining ∨ s.modelInUse d.model = true ∨ s.tableInFlight t.val = true then .next s
    else
      let s1 := (s.sweep t.val d false).freeTable t.val
      .next ({ s1 with drains := s1.drains.del t.val }.complete dr.q dr.cid stSuccess)

/-- TBL_RETIRE_TIMEOUT (R213). -/
def execTblRetireTimeout (t : Fin 262144) (s : State) : Res :=
  match s.drains.find t.val with
  | none => .next s
  | some dr =>
    if s.gtoPassed dr.due then
      let s1 := s.setTdState t.val tdServing
      .next ({ s1 with drains := s1.drains.del t.val }.complete dr.q dr.cid stTblBusy)
    else .next s

/-- TBL_CTRZ (R208). -/
def execTblCtrz (c : KCmd) (s : State) : Res :=
  if !s.tda.rdy then .next (s.done c stTblNoStore)
  else .next ((s.writeDA (s.tctrDA c.a0.toNat) (List.replicate 64 0)).done c stSuccess)

end Sys2Proof.Machine
end

