-- ==== Sys2Proof/Machine/Basin.lean ====
section
/-! DEFINITION. The basin's commands and events (07, R230–R264): the directory's enabling, refresh lists, fountain
rows, bucket moves, heat sketches and decay. -/
namespace Sys2Proof.Machine
open Sys2Proof

/-! ### HUB_BD_CTL (R253) -/

/-- Bytes of a stack's directory area (R221). -/
def BdStack.dirBytes (b : BdStack) : Nat := 32 * mib + b.nframes.toNat * (8 * mib)

/-- A range lies in an enabled region placed on a stack with COMP 0; the region's granule must be 16 KiB if asked. -/
def State.placedPlain (s : State) (st da n : Nat) (g16 : Bool) : Bool :=
  match s.regionOf da with
  | none => false
  | some k =>
    let r := s.region k
    r.placed && r.stack.toNat == st && !r.comp && (!g16 || r.gran16) && decide (da + n ≤ r.daBase + r.size)

/-- The checks of setting EN, on one stack. -/
def State.bdStackOk (s : State) (st : Nat) : Bool :=
  let b := s.bdStack st
  decide (342 ≤ b.nframes.toNat) && s.placedPlain st (b.dirBase.toNat * 2 ^ 28) b.dirBytes false
    && s.placedPlain st (s.ftnBase st) b.ftnBytes true && b.ftnSize == (s.bdStack 0).ftnSize

/-- Empty directories and filters, with the buckets assigned as R220 gives. -/
def State.bdEnable (s : State) : State :=
  let s1 := (List.range 12).foldl (fun st k =>
    (st.zeroRange ((st.bdStack k).dirBase.toNat * 2 ^ 28) (st.bdStack k).dirBytes).updBdStack k fun b =>
      { b with dir := [], displaced := 0, recent := [] }) s
  { s1 with bd := { s1.bd with
      en := true, ringWp := 0, ftnCnt := [], sticky := [], ftn := [], fills := [], moves := [], held := [], pins := []
      buckets := (List.range 4096).map fun b =>
        (b, { (s.bucket b) with stack := BitVec.ofNat 4 (b % 12), frame := BitVec.ofNat 10 (b / 12), mig := false, v := true }) } }

/-- A write of HUB_BD_CTL (R253). -/
def State.writeBdCtl (s : State) (v : W32) : State :=
  let dms := field v 6 10
  let s1 := { s with bd := { s.bd with
    err := s.bd.err && !bit v 1, planner := bit v 2, heatShift := field v 3 3, decayMs := if dms = 0 then 1 else dms } }
  if bit v 0 = s1.bd.en then s1
  else if bit v 0 then
    if (List.range 12).all s1.bdStackOk then s1.bdEnable else { s1 with bd := { s1.bd with err := true } }
  else if s1.tda.live.any fun t => (s1.td t).serves then { s1 with bd := { s1.bd with err := true } }
  else { s1 with bd := { s1.bd with en := false } }

/-- HUB_BD_CTL_WRITE (R253). -/
def execHubBdCtlWrite (p : AccessPath) (v : W32) (s : State) : Res := .next (s.onCsr p .hub (·.writeBdCtl v))

/-! ### Planner commands (R235, R236) -/

/-- The command comes from the planner that HUB_BD_CTL.PLANNER names. -/
def State.fromPlanner (s : State) (c : KCmd) : Bool := (c.q.val == 1024) != s.bd.planner

/-- The entries of a refresh list: row, table and slot. -/
def refreshEntries : Nat → List Byte → List (Nat × Nat × Nat)
  | 0, _ => []
  | n + 1, b =>
    (leAt b 0 8 % 2 ^ 40, leAt b 0 8 / 2 ^ 40 % 2 ^ 18, leAt b 8 8 % 2 ^ 52) :: refreshEntries n (b.drop 16)

def State.updPlan (s : State) (id : Nat) (f : PlanCmd → PlanCmd) : State :=
  match s.bd.plans.find id with
  | none => s
  | some p => { s with bd := { s.bd with plans := s.bd.plans.set id (f p) } }

/-- A read issued to a slot has not completed (R240). -/
def State.slotRead (s : State) (slot : Nat) : Bool :=
  s.lk.rows.any fun r => match r.stage with | .reading _ da => da == slot | _ => false

/-- The five counts of a list command (R236). -/
def PlanCmd.counts (p : PlanCmd) : List Byte :=
  leBytes 4 p.done ++ leBytes 4 p.skipped ++ leBytes 4 p.bad ++ leBytes 4 p.full ++ leBytes 4 p.abandoned

/-- Finish a list command once every entry is settled, no marker round waits, and no read of a dropped slot is
outstanding: the counts are written, then the CQE is posted. -/
def State.planTry (s : State) (id : Nat) : State :=
  match s.bd.plans.find id with
  | none => s
  | some p =>
    if p.left = 0 ∧ p.rows = [] ∧ p.slots.any s.slotRead = false then
      let s1 := s.wr p.resultDa p.counts
      ({ s1 with bd := { s1.bd with plans := s1.bd.plans.del id } }).complete p.q p.cid stSuccess
    else s

/-- Run a list command: who may send it, EN, its input and its result area; then each entry in list order. -/
def State.runList (s : State) (c : KCmd) (f : Nat → State → Nat × Nat × Nat → State) : State :=
  if !s.fromPlanner c then s.done c stBdPlanner
  else if !s.bd.en then s.done c stBdOff
  else
    match s.outBad c.a2.toNat 20 with
    | some code => s.done c code
    | none =>
      s.withInput c c.a0.toNat (16 * c.a1.toNat) fun s1 b =>
        let id := s1.bd.nextPlan
        let p : PlanCmd := { q := c.q.val, cid := c.cid, resultDa := c.a2.toNat }
        let s2 := { s1 with bd := { s1.bd with plans := s1.bd.plans.set id p, nextPlan := id + 1 } }
        ((refreshEntries c.a1.toNat b).foldl (f id) s2).planTry id

/-- Two ranges share a byte. -/
def overlaps (a n b m : Nat) : Bool := decide (a < b + m ∧ b < a + n)

/-- A hot slot of `n` bytes lies where R236 lets BSN_FILL put it. -/
def State.hotSlotOk (s : State) (st slot n : Nat) : Bool :=
  match s.regionOf slot with
  | none => false
  | some k =>
    let r := s.region k
    r.placed && r.stack.toNat == st && decide ((slot - r.daBase) % r.granule + n ≤ r.granule)
      && !(s.tda.en && overlaps slot n s.storeBase s.storeSize)
      && (List.range 12).all fun j =>
        let b := s.bdStack j
        !overlaps slot n (b.dirBase.toNat * 2 ^ 28) b.dirBytes && !overlaps slot n (s.ftnBase j) b.ftnBytes

/-- The bucket is being moved (R247, R249): its copy has begun and the move has not ended. -/
def State.bucketMoving (s : State) (b : Nat) : Bool := s.bd.moves.any fun m => m.bucket == b && m.step != 0

/-! ### BSN_FILL (R238) -/

/-- Ask the home tier for the row of a fill. -/
def State.fillRead (s : State) (f : Fill) : State :=
  { s with aq := { s.aq with far := s.aq.far ++ [{ table := f.table, row := f.row, who := .fill f.stack }] } }

/-- Insert the entry of a fill and start reading the row. False where the insertion fails (R224). -/
def State.fillStart (s : State) (f : Fill) (frame slot : Nat) : Bool × State :=
  let q := s.dirInsert f.stack (some frame) { row := f.row, table := f.table, filling := true, slot := slot }
  if q.1 then (true, { q.2 with bd := { q.2.bd with fills := q.2.bd.fills ++ [f] } }) else (false, q.2)

/-- One entry of BSN_FILL, outside a move. -/
def State.bsnFillOne (s : State) (id t r slot : Nat) : State :=
  let d := s.td t
  let h := s.hotHome t r
  if !(s.hotSlotOk h.1 slot d.rb) then s.updPlan id fun p => { p with bad := p.bad + 1 }
  else if !(s.hotCopies t r).isEmpty || s.bd.ftn.contains (t, r) then
    s.updPlan id fun p => { p with skipped := p.skipped + 1 }
  else
    let f : Fill := { table := t, row := r, stack := h.1, cmd := some id, slot := slot }
    match s.fillStart f h.2 slot with
    | (false, s1) => s1.updPlan id fun p => { p with full := p.full + 1 }
    | (true, s1) => (s1.fillRead f).updPlan id fun p => { p with left := p.left + 1 }

/-- One entry of BSN_FILL (R236, R238, R249). -/
def State.bsnFillEntry (id : Nat) (s : State) (e : Nat × Nat × Nat) : State :=
  let (r, t, slot) := e
  let d := s.td t
  if !(d.state == tdServing && decide (r < d.n) && decide (2 ≤ d.tier) && d.hotset) then
    s.updPlan id fun p => { p with bad := p.bad + 1 }
  else if s.bucketMoving (bucketOf t r) then
    let s1 := s.updPlan id fun p => { p with left := p.left + 1 }
    { s1 with bd := { s1.bd with held := s1.bd.held ++ [{ plan := id, fill := true, table := t, row := r, slot := slot }] } }
  else s.bsnFillOne id t r slot

/-- BSN_FILL (R238). -/
def execBsnFill (c : KCmd) (s : State) : Res := .next (s.runList c State.bsnFillEntry)

/-- A fill ends: its command counts the outcome, or its promotion's slot goes back to the pool. -/
def State.fillEnd (s : State) (f : Fill) (ok : Bool) : State :=
  let s1 := { s with bd := { s.bd with fills := s.bd.fills.filter (· != f) } }
  match f.cmd with
  | none => s1
  | some id =>
    (s1.updPlan id fun p =>
      { p with left := p.left - 1, done := p.done + ok.toNat, abandoned := p.abandoned + (!ok).toNat }).planTry id

/-- Take a fill's entry out; a promotion's slot goes back to its pool (R289). -/
def State.fillDrop (s : State) (f : Fill) (place : Nat) : State :=
  let s1 := s.dirDel f.stack place
  match f.cmd with
  | some _ => s1
  | none => s1.updBdStack f.stack fun b => { b with prmBack := b.prmBack ++ [f.slot] }

/-- The row of a fill has arrived, or cannot arrive (R238 step 3, R289). -/
def State.fillArrive (s : State) (f : Fill) (row : Option (List Byte)) : State :=
  match (s.hotCopies f.table f.row).find? fun x => x.1 == f.stack with
  | none => s.fillEnd f true
  | some (_, i) =>
    match s.dirAt f.stack i, row with
    | none, _ => s.fillEnd f true
    | some _, none => (s.fillDrop f i).fillEnd f false
    | some e, some bs =>
      let s1 := s.writeCbk (s.td f.table) e.slot bs
      if !e.refill then (s1.dirPut f.stack i { e with filling := false }).fillEnd f true
      else if e.tries = 3 then
        ((s1.fillDrop f i).updBdStack f.stack fun b => { b with abandon := satInc b.abandon }).fillEnd f false
      else (s1.dirPut f.stack i { e with refill := false, tries := e.tries + 1 }).fillRead f

/-- FILL_ROW_ARRIVAL (R238): the n-th row read for a fill that has arrived or failed. -/
def execFillRowArrival (n : Nat) (s : State) : Res :=
  match nthWhere (fun f => match f.who, f.stage with
    | .fill _, .arrived _ => true | .fill _, .failed => true | _, _ => false) s.aq.far n with
  | none => .next s
  | some i =>
    match s.aq.far[i]? with
    | none => .next s
    | some q =>
      let s1 := { s with aq := { s.aq with far := s.aq.far.eraseIdx i } }
      match s1.bd.fills.find? fun f => f.table == q.table && f.row == q.row && q.who == .fill f.stack with
      | none => .next s1
      | some f => .next (s1.fillArrive f (match q.stage with | .arrived b => some b | _ => none))

/-! ### BSN_DROP (R240) -/

/-- Remove a row's hot copies: new probes miss, and the command waits for the reads already issued. -/
def State.bsnDropOne (s : State) (id t r : Nat) : State :=
  let cs := s.hotCopies t r
  if cs.isEmpty then s.updPlan id fun p => { p with skipped := p.skipped + 1 }
  else
    let slots := cs.filterMap fun x => (s.dirAt x.1 x.2).map (·.slot)
    (cs.foldl (fun st x => st.dirDel x.1 x.2) s).updPlan id fun p =>
      { p with done := p.done + 1, slots := p.slots ++ slots }

/-- One entry of BSN_DROP (R236, R240, R249). -/
def State.bsnDropEntry (id : Nat) (s : State) (e : Nat × Nat × Nat) : State :=
  let (r, t, slot) := e
  let d := s.td t
  if !(d.state == tdServing && decide (r < d.n)) then s.updPlan id fun p => { p with bad := p.bad + 1 }
  else if s.bucketMoving (bucketOf t r) then
    let s1 := s.updPlan id fun p => { p with left := p.left + 1 }
    { s1 with bd := { s1.bd with held := s1.bd.held ++ [{ plan := id, fill := false, table := t, row := r, slot := slot }] } }
  else s.bsnDropOne id t r

/-- BSN_DROP (R240). -/
def execBsnDrop (c : KCmd) (s : State) : Res := .next (s.runList c State.bsnDropEntry)

/-- BSN_DROP_SETTLED (R240): the n-th list command that waits for reads of dropped slots, once they have completed. -/
def execBsnDropSettled (n : Nat) (s : State) : Res :=
  match (s.bd.plans.filter fun kv => !kv.2.slots.isEmpty)[n]? with
  | none => .next s
  | some kv => .next (s.planTry kv.1)

/-! ### FTN_ADD and FTN_DROP (R242, R244) -/

/-- One entry of FTN_ADD (R236, R242). -/
def State.ftnAddEntry (id : Nat) (s : State) (e : Nat × Nat × Nat) : State :=
  let (r, t, off) := e
  let d := s.td t
  let fit := decide (64 * mib ≤ off) && decide (off + d.rb ≤ (s.bdStack 0).ftnBytes)
    && decide (off % 16384 + d.rb ≤ 16384)
  if !(d.state == tdServing && decide (r < d.n) && fit) then s.updPlan id fun p => { p with bad := p.bad + 1 }
  else
    let slots := (s.hotCopies t r).filterMap fun x => (s.dirAt x.1 x.2).map (·.slot)
    match s.ftnAdd t d r off false with
    | (.done, s1) => s1.updPlan id fun p => { p with done := p.done + 1, slots := p.slots ++ slots }
    | (.skipped, s1) => s1.updPlan id fun p => { p with skipped := p.skipped + 1 }
    | (.full, s1) => s1.updPlan id fun p => { p with full := p.full + 1 }
    | (.unreadable, s1) => s1.updPlan id fun p => { p with abandoned := p.abandoned + 1 }

/-- FTN_ADD (R242). -/
def execFtnAdd (c : KCmd) (s : State) : Res := .next (s.runList c State.ftnAddEntry)

/-- A row is held as a pinned fountain row (R246). -/
def State.isPinned (s : State) (t r : Nat) : Bool :=
  (s.ftnCopies t r).any fun x => match s.dirAt x.1 x.2 with | some e => e.pinned | none => false

/-- One entry of FTN_DROP, step 1 of R244: the filter counts fall; the entries go after the markers. -/
def State.ftnDropEntry (id : Nat) (s : State) (e : Nat × Nat × Nat) : State :=
  let (r, t, _) := e
  let d := s.td t
  if !(d.state == tdServing && decide (r < d.n)) then s.updPlan id fun p => { p with bad := p.bad + 1 }
  else if !(s.bd.ftn.contains (t, r)) || s.isPinned t r then s.updPlan id fun p => { p with skipped := p.skipped + 1 }
  else
    (({ s with bd := { s.bd with ftn := s.bd.ftn.filter (· != (t, r)) } }).ftnLower t r).updPlan id fun p =>
      { p with done := p.done + 1, rows := p.rows ++ [(t, r)] }

/-- FTN_DROP (R244). -/
def execFtnDrop (c : KCmd) (s : State) : Res := .next (s.runList c State.ftnDropEntry)

/-- The markers of FTN_DROP have come: no fountain request of its rows sent before waits at a stack (R244 step 2). -/
def State.ftnDropReady (s : State) (p : PlanCmd) : Bool :=
  !s.lk.rows.any fun q => p.rows.contains (q.table, q.row) && q.route == .fountain &&
    (match q.stage with | .stack _ => true | .reading _ _ => true | _ => false)

/-- Step 3 of FTN_DROP for the n-th command that waits for markers. -/
def State.ftnDropMarkers (s : State) (n : Nat) : State :=
  match (s.bd.plans.filter fun kv => !kv.2.rows.isEmpty)[n]? with
  | none => s
  | some (id, p) =>
    if s.ftnDropReady p then
      ((p.rows.foldl (fun st x => st.ftnRemove x.1 x.2) s).updPlan id fun p => { p with rows := [] }).planTry id
    else s

/-! ### BKT_MOVE (R247–R249) -/

/-- Entries of a bucket's frame in a stack: (place, entry). -/
def State.frameEntries (s : State) (st frame : Nat) : List (Nat × DirEntry) :=
  (s.bdStack st).dir.filter fun kv => decide (frameBase (some frame) ≤ kv.1 / 4 ∧ kv.1 / 4 < frameBase (some frame) + 2 ^ 17)

/-- A frame of a stack is free: the map names it for no bucket, and no move goes to it (R221). -/
def State.frameFree (s : State) (st frame : Nat) : Bool :=
  (List.range 4096).all (fun b =>
    let x := s.bucket b
    !(x.stack.toNat == st && x.frame.toNat == frame) && !(x.mig && x.oldStack.toNat == st && x.oldFrame.toNat == frame))
  && s.bd.moves.all fun m => !(m.dst == st && m.frame == frame)

/-- DAs of a slot list, 8 B each (assumption log entry 35). -/
def slotList : Nat → List Byte → List Nat
  | 0, _ => []
  | n + 1, b => leAt b 0 8 % 2 ^ 52 :: slotList n (b.drop 8)

/-- BKT_MOVE (R247): the checks, then the move waits its turn among those out of its stack. -/
def execBktMove (c : KCmd) (s : State) : Res :=
  let b := c.a0.toNat
  let dst := c.a1.toNat
  let fr := c.a2.toNat
  if !s.fromPlanner c then .next (s.done c stBdPlanner)
  else if !s.bd.en then .next (s.done c stBdOff)
  else if s.bd.moves.any fun m => m.bucket == b then .next (s.done c stBdBusy)
  else
    let src := (s.bucket b).stack.toNat
    if dst = src ∨ (s.bdStack dst).nframes.toNat ≤ fr ∨ s.frameFree dst fr = false then .next (s.done c stBdFrame)
    else if c.a4.toNat < (s.frameEntries src (s.bucket b).frame.toNat).length then .next (s.done c stBdSlots)
    else
      .next (s.withInput c c.a3.toNat (8 * c.a4.toNat) fun s1 bs =>
        let busy := s1.bd.moves.any fun m => m.src == src
        let m : Move := { bucket := b, src := src, dst := dst, frame := fr, slots := slotList c.a4.toNat bs,
                          q := c.q.val, cid := c.cid, step := if busy then 0 else 1 }
        { s1 with bd := { s1.bd with moves := s1.bd.moves ++ [m] } })

/-- Copy one live entry of a moving bucket (R247 step 1, R249): a poisoned source, or an entry that the new frame has
no room for, is removed and not copied. -/
def State.moveCopy (x : State × Move) (kv : Nat × DirEntry) : State × Move :=
  let (s, m) := x
  let e := kv.2
  let d := s.td e.table
  match m.slots with
  | [] => (s.dirDel m.src kv.1, { m with abandoned := m.abandoned + 1 })
  | slot :: rest =>
    let s0 := s.touch e.slot d.rb
    let rd := s0.readDA e.slot d.rb
    if !rd.clean then
      (((s0.stackFault m.src 0x0702 0 (kind := 3) (table := e.table) (row := e.row) (akind := 1) (addr := e.slot)).dirDel
        m.src kv.1), { m with abandoned := m.abandoned + 1 })
    else
      match (s0.writeCbk d slot rd.data).dirInsert m.dst (some m.frame) { e with slot := slot } with
      | (true, s1) => (s1, { m with slots := rest })
      | (false, s1) => (s1.dirDel m.src kv.1, { m with abandoned := m.abandoned + 1 })

def State.setMove (s : State) (m : Move) : State :=
  { s with bd := { s.bd with moves := s.bd.moves.map fun x => if x.bucket = m.bucket then m else x } }

/-- BKT_MOVE_COPY_DONE (R247): the entries are copied, once no fill of the bucket is unsettled, and the map flips. -/
def execBktMoveCopyDone (bucket : Fin 4096) (s : State) : Res :=
  match s.bd.moves.find? fun m => m.bucket == bucket.val && m.step == 1 with
  | none => .next s
  | some m =>
    let old := s.bucket bucket.val
    let es := s.frameEntries m.src old.frame.toNat
    if es.any fun kv => kv.2.filling then .next s
    else
      let (s1, m1) := es.foldl State.moveCopy (s, m)
      .next ((s1.setMove { m1 with step := 3 }).updBucket bucket.val fun x => { x with
        stack := BitVec.ofNat 4 m.dst, frame := BitVec.ofNat 10 m.frame, mig := true
        oldStack := old.stack, oldFrame := old.frame })

/-- The markers of a move have come: no hot request of the bucket waits or reads at the old stack (R247 step 3). -/
def State.moveReady (s : State) (m : Move) : Bool :=
  !s.lk.rows.any fun q => bucketOf q.table q.row == m.bucket && q.route == .hot &&
    (match q.stage with | .stack st => st == m.src | .reading st _ => st == m.src | _ => false)

/-- Apply an entry that a move has held (R249). -/
def State.applyHeld (s : State) (h : HeldEntry) : State :=
  let s1 := s.updPlan h.plan fun p => { p with left := p.left - 1 }
  ((if h.fill then s1.bsnFillOne h.plan h.table h.row h.slot else s1.bsnDropOne h.plan h.table h.row)).planTry h.plan

/-- Step 4 of the n-th move that waits for markers: the old frame is freed, held entries apply, the CQE is posted, and
the next move out of the stack begins (R247, R249). -/
def State.moveMarkers (s : State) (n : Nat) : State :=
  match (s.bd.moves.filter fun m => m.step == 3)[n]? with
  | none => s
  | some m =>
    if s.moveReady m then
      let old := s.bucket m.bucket
      let s1 := (s.frameEntries m.src old.oldFrame.toNat).foldl (fun st kv => st.dirDel m.src kv.1) s
      let s2 := s1.updBucket m.bucket fun x => { x with mig := false }
      let rest := s2.bd.moves.filter fun x => x.bucket != m.bucket
      let next := (rest.find? fun x => x.src == m.src && x.step == 0).map (·.bucket)
      let mine := s2.bd.held.filter fun h => bucketOf h.table h.row == m.bucket
      let s3 := { s2 with bd := { s2.bd with
        moves := rest.map fun x => if some x.bucket = next then { x with step := 1 } else x
        held := s2.bd.held.filter fun h => bucketOf h.table h.row != m.bucket } }
      (mine.foldl State.applyHeld s3).complete m.q m.cid stSuccess
    else s

/-! ### Heat (R230–R235) -/

/-- Sketches a stack has room for: two in each MiB of its heat partition. -/
def BdStack.sketchRoom (b : BdStack) : Nat := 2 * b.heatMib.toNat

/-- Sketches held in a stack. -/
def State.sketchesAt (s : State) (st : Nat) : Nat := (s.bd.sketches.filter fun kv => kv.2.stack == st).length

/-- HEAT_ON (R230). -/
def execHeatOn (c : KCmd) (s : State) : Res :=
  let t := c.a0.toNat
  if !s.fromPlanner c then .next (s.done c stBdPlanner)
  else
    let s0 := { s with bd := { s.bd with sketches := s.bd.sketches.del t } }
    match (t % 12 :: List.range 12).find? fun st => decide (s0.sketchesAt st < (s0.bdStack st).sketchRoom) with
    | none => .next (s.done c stBdNoSketch)
    | some st =>
      .next ({ s0 with bd := { s0.bd with sketches := s0.bd.sketches.set t { stack := st } } }.done c stSuccess)

/-- HEAT_OFF (R230). -/
def execHeatOff (c : KCmd) (s : State) : Res :=
  if !s.fromPlanner c then .next (s.done c stBdPlanner)
  else .next ({ s with bd := { s.bd with sketches := s.bd.sketches.del c.a0.toNat } }.done c stSuccess)

/-- The four counters of a row in a sketch. -/
def sketchCols (t r : Nat) : List Nat :=
  (List.range 4).map fun i => i * 65536 + rowKey t r / 2 ^ (16 * i) % 65536

/-- A row's estimate: the least of its four counters. -/
def Sketch.estimate (k : Sketch) (t r : Nat) : Nat :=
  ((sketchCols t r).map fun i => (k.ctr.get 0 i).toNat).foldl min 65535

/-- A row's estimate, 0xFFFF for a table without a sketch (R235). -/
def State.heat (s : State) (t r : Nat) : Nat :=
  match s.bd.sketches.find t with
  | none => 65535
  | some k => k.estimate t r

/-- HEAT_READ (R235). -/
def execHeatRead (c : KCmd) (s : State) : Res :=
  match s.outBad c.a2.toNat (2 * c.a1.toNat) with
  | some code => .next (s.done c code)
  | none =>
    .next (s.withInput c c.a0.toNat (16 * c.a1.toNat) fun s1 b =>
      (s1.wr c.a2.toNat ((refreshEntries c.a1.toNat b).flatMap fun e => leBytes 2 (s1.heat e.2.1 e.1))).done c stSuccess)

/-- Append a record to the candidate ring (R232). -/
def State.candidate (s : State) (t r est : Nat) : State :=
  let n := s.bd.ringWp.toNat % (s.bd.ringSize.toNat * 65536)
  let rec16 := leBytes 8 (r + 2 ^ 40 * t) ++ leBytes 2 est ++ leBytes 6 (s.time.now % 2 ^ 48)
  let s1 := s.writeDA (s.bd.ringBase.toNat * 2 ^ 28 + 16 * n) rec16
  { s1 with bd := { s1.bd with ringWp := s1.bd.ringWp + 1 } }

/-- HEAT_SAMPLE (R231, R232): the n-th sampled key on its way reaches its sketch. -/
def execHeatSample (n : Nat) (s : State) : Res :=
  match s.bd.samples[n]? with
  | none => .next s
  | some (t, r) =>
    let s1 := { s with bd := { s.bd with samples := s.bd.samples.eraseIdx n } }
    match s1.bd.sketches.find t with
    | none => .next s1
    | some k =>
      let k1 := { k with ctr := (sketchCols t r).foldl (fun m i => m.upd 0 i satInc) k.ctr }
      let s2 := { s1 with bd := { s1.bd with sketches := s1.bd.sketches.set t k1 } }
      let th := s.bd.thresh.toNat
      if th ≠ 0 ∧ k.estimate t r + 1 = th ∧ k1.estimate t r = th then .next (s2.candidate t r th) else .next s2

/-- Halve a stack's load counters and clear its recent-miss filter (R233, R288). -/
def BdStack.decay (b : BdStack) : BdStack :=
  { b with load := b.load >>> 1, rload := b.rload.map fun (kv : Nat × W32) => (kv.1, kv.2 >>> 1), recent := [] }

/-- DECAY_TICK (R233): DECAY_MS of device time has passed since the last tick. -/
def execDecayTick (s : State) : Res :=
  if s.elapsed s.bd.lastDecay (s.bd.decayMs.toNat * 1000000) then
    .next { s with bd := { s.bd with
      lastDecay := s.time.now
      st := s.bd.st.map fun kv => (kv.1, kv.2.decay)
      buckets := s.bd.buckets.map fun (kv : Nat × Bucket) => (kv.1, { kv.2 with load := kv.2.load >>> 1 })
      sketches := s.bd.sketches.map fun (kv : Nat × Sketch) =>
        (kv.1, { kv.2 with ctr := kv.2.ctr.map fun (c : Nat × W16) => (c.1, c.2 >>> 1) }) } }
  else .next s

end Sys2Proof.Machine
end

