-- ==== Sys2Proof/Machine/Coding.lean ====
section
/-! DEFINITION. The codebook and census commands (05, R160–R168). -/
namespace Sys2Proof.Machine
open Sys2Proof

/-- Some stack's use count of a codebook is not 0 (R164). -/
def State.cbkInUse (s : State) (i : Nat) : Bool :=
  (List.range 12).any fun st => (s.cxStack st).use.get 0 i != 0

/-- Install a checked record in every store and the master copy (R165). -/
def State.installCbk (s : State) (i : Nat) (cb : Codebook) : State :=
  { s with cbk := s.cbk.set i { cb with valid := true } }

/-- CBK_INSTALL (R161, R165). -/
def execCbkInstall (c : KCmd) (s : State) : Res :=
  .next (s.withInput c c.a1.toNat 256 fun s bs =>
    let (cb, zeros) := codebookOf bs
    if !(zeros && cb.installable) then s.done c stCbkBad
    else if s.cbkInUse c.a0.toNat then s.done c stCbkInUse
    else (s.installCbk c.a0.toNat cb).done c stSuccess 0 bs)

/-- CBK_CLEAR (R165). -/
def execCbkClear (c : KCmd) (s : State) : Res :=
  if s.cbkInUse c.a0.toNat then .next (s.done c stCbkInUse)
  else .next ({ s with cbk := s.cbk.upd {} c.a0.toNat fun cb => { cb with valid := false } }.done c stSuccess)

/-- CBK_READ (R165). -/
def execCbkRead (c : KCmd) (s : State) : Res :=
  match s.outBad c.a1.toNat 256 with
  | some code => .next (s.done c code)
  | none => .next ((s.wr c.a1.toNat (s.codebook c.a0.toNat).bytes).done c stSuccess)

/-! ### The census pass (R166–R168) -/

/-- Add one block's symbols to the counts, each of which saturates at 64 bits (R167 step 2). -/
def countBlock (cl : SymClass) (bs : List Byte) (counts : List Nat) : List Nat :=
  (elemsOf cl.width cl.elems bs).foldl (fun cs e =>
    let k := cl.symbol e
    listSet cs k (min (2 ^ 64 - 1) (listGet 0 cs k + 1))) counts

/-- A 512 B block as the census reads it: none where its tag is 0 or 15, or where it is poisoned. -/
def State.censusBlock (s : State) (da : Nat) : Option (List Byte) :=
  match s.place da with
  | .basin n =>
    let skip := (s.region n).comp && (let (_, tp, hi) := s.blockPlace (s.region n) da; s.mem.tagAt tp hi == 0)
    let r := s.readDA da 512
    if skip || r.poison then none else some r.data
  | _ => none

/-- Symbol counts over `k` blocks from a DA. -/
def State.census (s : State) (cl : SymClass) (da k : Nat) : List Nat :=
  (List.range k).foldl (fun cs i =>
    match s.censusBlock (da + 512 * i) with
    | some bs => countBlock cl bs cs
    | none => cs) (List.replicate 256 0)

/-- Re-encode one block with the target codebook where its region is compressible and its tag is 1 to 8 (R167
step 5). -/
def State.recodeBlock (s : State) (cbk da : Nat) : State :=
  match s.place da with
  | .basin n =>
    let r := s.region n
    if r.comp then
      let (place, tp, hi) := s.blockPlace r da
      let t := s.mem.tagAt tp hi
      if 1 ≤ t ∧ t ≤ 8 ∧ s.flatFailed place = false then
        match s.readBlock place tp hi with
        | some bs => s.compressBlock r (some cbk) place tp hi bs
        | none => s.touchBlock da
      else s
    else s
  | _ => s

/-- Every byte of a range lies in an enabled region (R167 step 1). -/
def State.rangeInRegions (s : State) (da k : Nat) : Bool :=
  (List.range k).all fun i => (s.regionOf (da + 512 * i)).isSome

/-- CENSUS (R166, R167): the steps in order; the first that fails ends the command with its status. -/
def execCensus (c : KCmd) (s : State) : Res :=
  .next (s.withInput c c.a0.toNat 64 fun s d =>
    let base := leAt d 0 8 % 2 ^ 52
    let len := leAt d 8 8
    let cbk := leAt d 16 2
    let flags := leAt d 19 1
    let out := leAt d 24 8
    let install := flags.testBit 0
    let recode := flags.testBit 1
    let countsOut := flags.testBit 2
    let shape := base % 512 == 0 && len != 0 && len % 512 == 0 && decide (cbk < 4096) && decide (flags < 8)
      && leAt d 20 4 == 0 && (d.drop 32).all (· == 0)
    if !shape then s.done c stCbkBad
    else if !s.rangeInRegions base (len / 512) then s.done c stDaUnmapped
    else
      match symClass (leAt d 18 1) with
      | none => s.done c stCbkBad
      | some cl =>
        let target := s.codebook cbk
        if recode && !install && !(target.valid && target.cls.toNat == leAt d 18 1) then s.done c stCbkBad
        else
          let s1 := s.touch base len
          let counts := s1.census cl base (len / 512)
          match (if countsOut then s1.outBad out 2048 else none) with
          | some code => s1.done c code
          | none =>
            let s2 := if countsOut then s1.wr out (counts.flatMap (leBytes 8)) else s1
            if install && s2.cbkInUse cbk then s2.done c stCbkInUse
            else
              let s3 := if install then
                  s2.installCbk cbk { cls := BitVec.ofNat 4 (leAt d 18 1), lens := deriveLens cl.symbols counts }
                else s2
              let s4 := if recode then
                  (List.range (len / 512)).foldl (fun st i => st.recodeBlock cbk (base + 512 * i)) s3
                else s3
              s4.done c stSuccess 0 (d ++ (if install then (s3.codebook cbk).bytes else [])))

end Sys2Proof.Machine
end

