-- ==== Sys2Proof/Machine/CoreBase.lean ====
section
/-! DEFINITION. Cores and clusters by number, their stores' addresses, and completion counters (R30, R402, R421,
R521). -/
namespace Sys2Proof.Machine
open Sys2Proof

/-- Core k: core k mod 12 of cluster k ÷ 12. -/
def State.tcore (s : State) (k : Nat) : TCore := s.co.core.get {} k
def State.updCore (s : State) (k : Nat) (f : TCore → TCore) : State :=
  { s with co := { s.co with core := s.co.core.upd {} k f } }

def coreCluster (k : Nat) : Nat := k / 12

/-- DA of a core-store offset (R30). -/
def coreStoreDA (k off : Nat) : Nat := coreStoreBase + k * mib + off

def State.cluster (s : State) (c : Nat) : Cluster := s.co.clu.get {} c
def State.updCluster (s : State) (c : Nat) (f : Cluster → Cluster) : State :=
  { s with co := { s.co with clu := s.co.clu.upd {} c f } }

/-- A partition holds its clusters while it is RUNNING, STOPPING or RESETTING (R522). -/
def PartState.holds : PartState → Bool
  | .running | .stopping | .resetting => true
  | _ => false

/-- The partition that holds a cluster. -/
def State.partOf (s : State) (c : Nat) : Option Nat :=
  firstBelow 16 fun p => (s.part p).st.holds && (s.part p).cl.getLsbD c

/-- A completion counter increments, modulo 2^32 (R421). -/
def State.bumpCtr (s : State) (k i : Nat) : State :=
  s.updCore k fun c => { c with ctr := c.ctr.upd 0 i (· + 1) }

/-- A counter value reaches a target (R421). -/
def ctrReached (c t : W32) : Bool := decide ((c - t).toNat < 2 ^ 31)

end Sys2Proof.Machine
end

