-- ==== Sys2Proof/Machine/Lookup.lean ====
section
/-! DEFINITION. Lookup lists (09, R320–R347; 08, R265–R268, R286–R290, R302–R308; 07, R227–R229): the dispatcher, the
stack controllers' row requests, the lookup units, partials and the merge engine. -/
namespace Sys2Proof.Machine
open Sys2Proof

/-! ### The parts of a list -/

def State.list? (s : State) (id : Nat) : Option LList := s.lk.lists.find? fun l => l.id == id
def State.updList (s : State) (id : Nat) (f : LList → LList) : State :=
  { s with lk := { s.lk with lists := s.lk.lists.map fun (l : LList) => if l.id = id then f l else l } }
def State.frag? (s : State) (id : Nat) : Option Frag := s.lk.frags.find? fun f => f.id == id
def State.updFrag (s : State) (id : Nat) (f : Frag → Frag) : State :=
  { s with lk := { s.lk with frags := s.lk.frags.map fun (x : Frag) => if x.id = id then f x else x } }
def State.updRow (s : State) (rid : Nat) (f : RowReq → RowReq) : State :=
  { s with lk := { s.lk with rows := s.lk.rows.map fun (x : RowReq) => if x.rid = rid then f x else x } }
def State.dropRow (s : State) (rid : Nat) : State :=
  { s with lk := { s.lk with rows := s.lk.rows.filter fun (x : RowReq) => x.rid != rid } }

/-- A slotted operation: CAT or LASTK (R323). -/
def LList.slotted (l : LList) : Bool := l.op == 4 || l.op == 5

/-- Bytes of one output element (R324). -/
def outElemBytes (ofmt : Nat) : Nat := if ofmt = 0x11 then 32 else (elemBits ofmt + 7) / 8

/-- Bytes of one bag's output (R323, R324). -/
def LList.outBytes (l : LList) (d : TD) : Nat := (if l.slotted then l.k else 1) * d.w * outElemBytes l.ofmt

/-- The list still writes outputs: it has not failed and its context stands (R339, R341). -/
def LList.live (l : LList) : Bool := l.status == 0 && !l.torn

/-! ### Pooling (R330, R333, R336) -/

/-- L of a table's pooled sums (R205). -/
def TD.anchorL (d : TD) : Int := d.anchor - 95

/-- How a truncated value with STK stands beside one without it (R336). -/
def stkRank (stk neg : Bool) : Int := if stk then (if neg then -1 else 1) else 0

/-- MAX: keep the larger of two terms, by truncated value, then by STK and sign (R336). -/
def PoolElem.keepMax (a : PoolElem) (v : Int) (stk neg : Bool) : PoolElem :=
  if a.seen && (decide (v < a.v) || (v == a.v && decide (stkRank stk neg ≤ stkRank a.maxStk a.neg))) then a
  else { a with v := v, seen := true, maxStk := stk, neg := neg }

/-- Put one term into an element's pooled state (R92, R96, R97, R330 step 5). -/
def PoolElem.add (l : Int) (max : Bool) (e : PoolElem) (t : Term) : PoolElem :=
  let a := (Acc.fresh 2 l).addTerm t
  let e1 := { e with nan := e.nan || a.nan, pinf := e.pinf || a.pinf, ninf := e.ninf || a.ninf,
                     inv := e.inv || a.inv, aov := e.aov || a.aov }
  if max then
    match t with
    | .fin n _ _ => if a.aov then e1 else e1.keepMax a.units a.stk n
    | _ => e1
  else { e1 with v := e1.v + a.units, stk := e1.stk || a.stk }

/-- Absorb another element's state (R336). -/
def PoolElem.absorb (max : Bool) (e x : PoolElem) : PoolElem :=
  let e1 := { e with nan := e.nan || x.nan, pinf := e.pinf || x.pinf, ninf := e.ninf || x.ninf,
                     inv := e.inv || x.inv, aov := e.aov || x.aov }
  if max then (if x.seen then e1.keepMax x.v x.maxStk x.neg else e1)
  else { e1 with v := e1.v + x.v, stk := e1.stk || x.stk }

/-- Terms of a row under a weight (R86, R89, R330 steps 3 and 4); none is the zero row (R203). -/
def TD.terms (d : TD) (w : W32) (row : Option (List Byte)) : List Term :=
  match row with
  | none => List.replicate d.w (.fin false 0 0)
  | some b => (List.range d.w).map fun i =>
      let (e, inv) := d.elem b i
      if inv then .nan true else Term.ofProduct (dec32 w) e

/-- Add terms, element by element; an empty list of states stands for all-zero ones. -/
def poolTerms (l : Int) (max : Bool) (es : List PoolElem) (ts : List Term) : List PoolElem :=
  ts.zipIdx.map fun x => (listGet {} es x.2).add l max x.1

def absorbAll (max : Bool) (es xs : List PoolElem) : List PoolElem :=
  if xs.isEmpty then es else xs.zipIdx.map fun x => (listGet {} es x.2).absorb max x.1

/-- The record of an element's pooled state, for its output (R101, R334). -/
def PoolElem.acc (e : PoolElem) (l : Int) (max : Bool) (n : Nat) : Acc :=
  { mode := 2, lsb := l, sec0 := e.v, empty := n == 0, stk := if max then e.maxStk else e.stk,
    nan := e.nan, pinf := e.pinf, ninf := e.ninf, inv := e.inv, aov := e.aov, count := n }

/-- The 32 bytes and flags of an accumulator-record output (R334). -/
def PoolElem.record (e : PoolElem) (l : Int) (n : Nat) : List Byte × ArithFlags :=
  let s0 := e.v % 2 ^ 32
  let s1 := e.v / 2 ^ 32 % 2 ^ 32
  let s2 := e.v / 2 ^ 64
  ({ (e.acc l false n) with sec0 := s0, sec1 := s1, sec2 := s2, nz0 := s0 != 0, nz1 := s1 != 0, nz2 := s2 != 0 }.bytes,
    { inx := e.stk, inv := e.inv || (e.pinf && e.ninf), aov := e.aov })

/-- One output element (R333): its bytes and flags. -/
def LList.outElem (l : LList) (d : TD) (n : Nat) (e : PoolElem) : List Byte × ArithFlags :=
  if l.ofmt = 0x11 then e.record d.anchorL n
  else
    let sz := outElemBytes l.ofmt
    if n = 0 then (leBytes sz 0, {})
    else
      let c := (e.acc d.anchorL (l.op == 3) n).output l.ofmt (Rm.ofCode l.rm) l.sat (if l.op = 2 then n else 1) none
      (leBytes sz c.bits, c.flags)

/-- A run of output elements: bytes and flags. -/
def LList.outElems (l : LList) (d : TD) (n : Nat) (es : List PoolElem) : List Byte × ArithFlags :=
  (List.range d.w).foldl (fun x i =>
    let y := l.outElem d n (listGet {} es i)
    (x.1 ++ y.1, x.2.or y.2)) ([], {})

/-! ### Settling -/

/-- Add the flags of an output to the list and its table (R207, R333). -/
def State.listFlags (s : State) (l : LList) (f : ArithFlags) : State :=
  (s.updList l.id fun x => { x with flags := x.flags ||| f.bits }).tableFlags l.table f

/-- A row settles: its fragment has one row fewer, and its partial leaves once none is left (R331). A promoting row
stays to fill its slot (R289). -/
def State.rowSettle (s : State) (q : RowReq) (keep : Bool := false) : State :=
  let s1 := if keep then s.updRow q.rid fun x => { x with settled := true } else s.dropRow q.rid
  s1.updFrag q.frag fun f => { f with left := f.left - 1, sent := f.left ≤ 1 }

/-- Keep a row on record after it is settled: a far row or a read that is still to come back (R240, R307). -/
def RowReq.keeps (q : RowReq) : Bool :=
  match q.stage with | .reading _ _ => true | .far => true | _ => false

/-- Record a list's failure (R306, R339): the first status stays; rows not sent yet are dropped. -/
def State.listFail (s : State) (id st : Nat) : State :=
  match s.list? id with
  | none => s
  | some l =>
    let count := st == 1 && !l.failedCounted
    let s1 := if count then s.tableCount l.table 6 1 else s
    let s2 := s1.updList id fun x =>
      { x with status := if x.status = 0 then st else x.status, failedCounted := x.failedCounted || st == 1 }
    (s2.lk.rows.filter fun q => q.list == id && q.stage == .dispatcher && !q.settled).foldl (fun s q => s.rowSettle q) s2

/-- RESULT of a list (R338). -/
def LList.result (l : LList) : Nat := l.status + 2 ^ 8 * min l.subst (2 ^ 24 - 1) + 2 ^ 32 * l.flags

/-- A list whose bags are all complete or settled completes (R337): RESULT, then the counter. A torn list ends without
either (R341). -/
def State.listTry (s : State) (id : Nat) : State :=
  match s.list? id with
  | none => s
  | some l =>
    if (!l.live || l.next == l.nbags) && !(s.lk.frags.any fun f => f.list == id) then
      let s1 := { s with lk := { s.lk with
        lists := s.lk.lists.filter fun (x : LList) => x.id != id
        merges := s.lk.merges.filter fun (m : MergeSlot) => m.list != id } }
      if l.torn then s1
      else (s1.writeDA (l.hdrDa + 56) (leBytes 8 l.result)).bumpCtr l.core l.ctr
    else s

/-- Write output bytes of a list: a rejected write fails it (R187, R341). -/
def State.outWrite (s : State) (l : LList) (da : Nat) (bs : List Byte) : State :=
  if s.writeBarred da bs.length then s.listFail l.id 4 else s.wr da bs

/-- DA of a bag's output. -/
def LList.bagOut (l : LList) (bag : Nat) : Nat := l.outDa + bag * l.ostride

/-- A bag whose partials have all been absorbed is written and its slot freed (R333, R337). -/
def State.bagTry (s : State) (id bag : Nat) : State :=
  match s.list? id with
  | none => s
  | some l =>
    if s.lk.frags.any fun f => f.list == id && f.bag == bag then s
    else
      match s.lk.merges.find? fun m => m.list == id && m.bag == bag with
      | none => s
      | some m =>
        let s1 := { s with lk := { s.lk with
          merges := s.lk.merges.filter fun (x : MergeSlot) => !(x.list == id && x.bag == bag) } }
        if !l.live then s1
        else
          let d := s.td l.table
          if l.slotted then
            let sz := d.w * outElemBytes l.ofmt
            m.slots.foldl (fun st j =>
              match st.list? id with
              | some l' => if l'.live then st.outWrite l' (l.bagOut bag + j * sz) (List.replicate sz 0) else st
              | none => st) s1
          else
            let (bs, f) := l.outElems d m.n m.elems
            (s1.listFlags l f).outWrite l (l.bagOut bag) bs

/-- Pool a row, or the zero row, into its fragment, and settle it (R330 steps 3 to 5). -/
def State.rowPool (s : State) (q : RowReq) (l : LList) (d : TD) (row : Option (List Byte)) : State :=
  let s1 := s.updFrag q.frag fun f =>
    { f with np := f.np + 1, wts := f.wts ++ [q.weight]
             elems := poolTerms d.anchorL (l.op == 3) f.elems (d.terms q.weight row) }
  let x := loadUp (s.lk.luRows.get 0 q.owner) (s.lk.luRem.get 0 q.owner)
  let s2 := { s1 with lk := { s1.lk with luRows := s1.lk.luRows.set q.owner x.1, luRem := s1.lk.luRem.set q.owner x.2 } }
  s2.rowSettle q

/-- The bytes a lookup pools of a row as read: the list's half of a PUB row (R366). -/
def LList.rowBytes (l : LList) (d : TD) (b : List Byte) : List Byte :=
  if d.pub then d.halfBytes b l.half else b.take d.rb

/-- A kind-2 row from the stack's own fountain replica; none where it is missing, poisoned or ABSENT (R203, R305). -/
def State.ownReplica (s : State) (l : LList) (d : TD) (st r : Nat) : Option (List Byte) :=
  ((s.dirFind st l.table r none).bind fun i => s.dirAt st i).bind fun e =>
    if e.filling then none
    else
      let x := s.readDA e.slot d.span
      let b := l.rowBytes d x.data
      if x.clean && !d.absent b then some b else none

/-- Substitute a row (R305). -/
def State.substitute (s : State) (q : RowReq) (l : LList) (d : TD) : State :=
  let s1 := (s.tableCount l.table 5 1).updList l.id fun x => { x with subst := x.subst + 1 }
  let row := if d.fbKind = 2 then s.ownReplica l d q.owner d.fbRow else none
  let s2 := s1.updFrag q.frag fun f =>
    { f with np := f.np + 1, wts := f.wts ++ [q.weight]
             elems := poolTerms d.anchorL (l.op == 3) f.elems (d.terms q.weight row) }
  s2.rowSettle q q.keeps

/-- A row cannot arrive (R203, R304, R305). -/
def State.cannotArrive (s : State) (q : RowReq) (l : LList) (d : TD) : State :=
  if q.kind2 then s.rowPool q l d none
  else if d.latePol = 1 ∨ (d.latePol = 0 ∧ d.fbKind ≠ 0) then s.substitute { q with stage := .dispatcher } l d
  else (s.listFail l.id 1).rowSettle q

/-- A row's bytes are at its lookup unit (R203, R330). -/
def State.rowArrived (s : State) (q : RowReq) (l : LList) (d : TD) (b : List Byte) : State :=
  if !d.absent b then s.rowPool q l d (some b)
  else if q.kind2 then s.rowPool q l d none
  else
    let s1 := s.tableCount l.table 1 1
    if d.missPol = 0 then
      (s1.tableCount l.table 3 1).rowPool q l d (if d.defKind = 2 then s.ownReplica l d q.owner d.defRow else none)
    else (s1.tableCount l.table 4 1).rowSettle q

/-! ### Issue (R320–R322) -/

/-- A range lies wholly in one of the places of R322: the core's store, its cluster's cistern, or one basin region. -/
def State.listPlace (s : State) (core da n : Nat) : Bool :=
  let inside := fun (b sz : Nat) => decide (b ≤ da ∧ da + n ≤ b + sz)
  inside (coreStoreDA core 0) mib || inside (cisternDA (coreCluster core) 0) (8 * mib) ||
    (match s.regionOf da with
     | none => false
     | some k => decide (da + n ≤ (s.region k).daBase + (s.region k).size))

/-- The place that holds a DA, as its first byte and its size. -/
def State.placeRange (s : State) (da : Nat) : Nat × Nat :=
  match s.place da with
  | .coreStore k => (coreStoreDA k 0, mib)
  | .cistern c => (cisternDA c 0, 8 * mib)
  | .basin k => ((s.region k).daBase, (s.region k).size)
  | _ => (0, 0)

/-- The list that a header's 64 bytes describe. -/
def listOf (core da part : Nat) (h : List Byte) : LList :=
  let mode := leAt h 6 1
  { id := 0, cluster := coreCluster core, core := core, hdrDa := da, part := part
    table := leAt h 0 4, op := leAt h 4 1, ofmt := leAt h 5 1, rm := mode % 4, sat := mode.testBit 2, ctr := mode / 8 % 8
    k := leAt h 7 1, nbags := leAt h 8 4, ostride := leAt h 12 4, deadline := leAt h 16 8, margin := 0
    offDa := leAt h 24 8, idDa := leAt h 32 8, wtDa := leAt h 40 8, outDa := leAt h 48 8 }

/-- Output formats legal for an operation (R323). -/
def ofmtLegal (op ofmt : Nat) : Bool :=
  [0x00, 0x01, 0x02, 0x03, 0x04, 0x08, 0x10].contains ofmt || (ofmt == 0x11 && decide (op ≤ 1))

/-- The checks of R322 at issue, after the table's: a status, or 0. -/
def State.listCheck (s : State) (l : LList) (h : List Byte) : Nat :=
  let d := s.td l.table
  let slotted := l.op == 4 || l.op == 5
  let fieldsOk := decide (l.op ≤ 5) && ofmtLegal l.op l.ofmt && decide (leAt h 6 1 < 64)
    && (if slotted then decide (1 ≤ l.k) else l.k == 0)
    && decide (1 ≤ l.nbags ∧ l.nbags ≤ 2 ^ 20) && l.ostride % 64 == 0 && decide (l.outBytes d ≤ l.ostride)
    && [l.offDa, l.idDa, l.wtDa, l.outDa].all (fun a => decide (a < 2 ^ 52))
    && (l.op == 1 || l.wtDa == 0)
    && l.offDa % 4 == 0 && l.idDa % 8 == 0 && l.wtDa % 4 == 0 && l.outDa % 64 == 0
  let ranges := [(l.offDa, 4 * (l.nbags + 1)), (l.idDa, 1), (l.outDa, l.nbags * l.ostride)]
    ++ (if l.op = 1 then [(l.wtDa, 1)] else [])
  if !fieldsOk then 3
  else if ranges.any fun r => s.rangeUnmapped r.1 r.2 then 4
  else if ranges.all fun r => s.listPlace l.core r.1 r.2 then 0 else 3

/-- Issue a list whose header has been read (R214, R322, R326, R366): a list that fails at issue completes at once. -/
def State.listIssue (s : State) (core da : Nat) (h : List Byte) : State :=
  let part := (s.partOf (coreCluster core)).getD 16
  let l0 := listOf core da part h
  let l0 := { l0 with id := s.lk.nextList, margin := (s.late.margin.get 0x07D0 part).toNat }
  let t := l0.table
  let d := s.td t
  let bad := decide (2 ^ 18 ≤ t)
  let unusable := !bad && (!d.serves || d.part != part)
  let st := if bad then 3 else if unusable then 2 else s.listCheck l0 h
  let passed := l0.deadline != 0 && decide (l0.deadline - l0.margin ≤ s.time.now)
  let l := { l0 with half := s.half t, status := st, lateDone := passed }
  ({ s with lk := { s.lk with lists := s.lk.lists ++ [l], nextList := s.lk.nextList + 1 } }).listTry l.id

/-! ### The dispatcher (R326–R329) -/

/-- The landing stack of a cluster: ordinal (k mod 3) of its die (R227, R266). -/
def landing (c : Nat) : Nat := c / 25 * 3 + c % 25 % 3

/-- Where a row request goes (R227), for a table whose home is not a cistern. -/
def State.routeRow (s : State) (c t : Nat) (d : TD) (r : Nat) : RowRoute × Nat :=
  if !s.bd.en then (if d.tier = 1 then (.home, s.homeStack d r) else (.far, landing c))
  else if s.ftnHit t r then (.fountain, landing c)
  else if d.tier = 1 then (.home, s.homeStack d r)
  else if d.hotset then (.hot, (s.bucket (bucketOf t r)).stack.toNat)
  else (.far, landing c)

/-- Add a fragment; the new one's number is `s.lk.nextFrag`. -/
def State.newFrag (s : State) (f : Frag) : State :=
  { s with lk := { s.lk with frags := s.lk.frags ++ [{ f with id := s.lk.nextFrag }], nextFrag := s.lk.nextFrag + 1 } }

/-- Put a row request into a fragment of its bag: the one that goes to its stack, or one of its own (R267, R327). -/
def State.addRow (s : State) (l : LList) (bag slot r : Nat) (w : W32) (route : RowRoute) (owner : Nat) (kind2 : Bool) :
    State :=
  let own := l.slotted || kind2 || route == .far
  let old := if own then none
    else (s.lk.frags.find? fun f => f.list == l.id && f.bag == bag && f.stack == some owner).map (·.id)
  let fid := old.getD s.lk.nextFrag
  let s1 := match old with
    | some i => s.updFrag i fun f => { f with left := f.left + 1 }
    | none => s.newFrag { id := 0, list := l.id, bag := bag, slot := slot, left := 1,
                          stack := if own then none else some owner }
  let q : RowReq := { rid := s.lk.nextRow, list := l.id, bag := bag, frag := fid, table := l.table, row := r, weight := w,
                      slot := slot, route := route, owner := owner, kind2 := kind2 }
  { s1 with lk := { s1.lk with rows := s1.lk.rows ++ [q], nextRow := s1.lk.nextRow + 1 } }

/-- A partial that the dispatcher's cistern pooler emits (R329): a row of the cluster's copy, or a zero row of a slotted
bag. -/
def State.addPooled (s : State) (l : LList) (d : TD) (bag slot : Nat) (w : W32) (row : Option (List Byte)) : State :=
  let old := if l.slotted then none
    else (s.lk.frags.find? fun f => f.list == l.id && f.bag == bag && f.stack == some 12).map (·.id)
  let s1 := match old with
    | some _ => s
    | none => s.newFrag { id := 0, list := l.id, bag := bag, slot := slot, sent := true,
                          stack := if l.slotted then none else some 12 }
  s1.updFrag (old.getD s.lk.nextFrag) fun f =>
    { f with np := f.np + 1, wts := f.wts ++ [w], elems := poolTerms d.anchorL (l.op == 3) f.elems (d.terms w row) }

/-- An invalid or missing ID (R203, R327). -/
def State.missID (s : State) (l : LList) (d : TD) (bag slot : Nat) (w : W32) (fld : Nat) : State :=
  let s1 := s.tableCount l.table fld 1
  if d.missPol = 0 then
    let s2 := s1.tableCount l.table 3 1
    if d.defKind = 2 then s2.addRow l bag slot d.defRow w .fountain (landing l.cluster) true
    else s2.addPooled l d bag slot w none
  else s1.tableCount l.table 4 1

/-- A row of a cistern-home table, from the cluster's own copy (R329). -/
def State.cisternRow (s0 : State) (l : LList) (d : TD) (bag slot r : Nat) (w : W32) : State :=
  let da := cisternDA l.cluster (s0.rowDA d r)
  let s := s0.touch da d.span
  let x := s.readDA da d.span
  let b := l.rowBytes d x.data
  if x.clean then (if d.absent b then s.missID l d bag slot w 1 else s.addPooled l d bag slot w (some b))
  else if d.latePol = 1 ∨ (d.latePol = 0 ∧ d.fbKind ≠ 0) then
    let s1 := (s.tableCount l.table 5 1).updList l.id fun y => { y with subst := y.subst + 1 }
    if d.fbKind = 2 then s1.addRow l bag slot d.fbRow w .fountain (landing l.cluster) true
    else s1.addPooled l d bag slot w none
  else s.listFail l.id 1

/-- Count an ID toward its dispatcher's next heat sample (R231). -/
def State.heatCount (s : State) (c t : Nat) (row : Option Nat) : State :=
  if (s.bd.sketches.find t).isNone then s
  else
    let n := s.bd.sampleCnt.get 0 c + 1
    if n < 2 ^ s.bd.heatShift.toNat then { s with bd := { s.bd with sampleCnt := s.bd.sampleCnt.set c n } }
    else { s with bd := { s.bd with
      sampleCnt := s.bd.sampleCnt.set c 0
      samples := match row with | some r => s.bd.samples ++ [(t, r)] | none => s.bd.samples } }

/-- One ID of a bag: translate, classify and route (R198, R202, R327). -/
def State.oneID (s : State) (l : LList) (d : TD) (bag slot id : Nat) (w : W32) : State :=
  let x := s.translate d id
  if x == .null then s
  else
    let row := match x with | .row r => some r | _ => none
    let s1 := { (s.tableCount l.table 0 1) with lk := { s.lk with ids := s.lk.ids.upd 0 l.cluster satInc } }
    let s2 := if d.tier = 0 then s1 else s1.heatCount l.cluster l.table row
    match x with
    | .row r =>
      if d.tier = 0 then s2.cisternRow l d bag slot r w
      else
        let (rt, own) := s2.routeRow l.cluster l.table d r
        s2.addRow l bag slot r w rt own false
    | .invalid => s2.missID l d bag slot w 2
    | _ => s2.missID l d bag slot w 1

/-- Unsettled rows that hold a dispatcher's credits to a stack (R340). -/
def State.creditsUsed (s : State) (c st : Nat) : Nat :=
  (s.lk.rows.filter fun q => q.credit == some st && !q.settled &&
    (match s.list? q.list with | some l => l.cluster == c | none => false)).length

/-- Entries of a stack taken by forwarded requests and await records (R340). -/
def State.entriesUsed (s : State) (st : Nat) : Nat :=
  (s.lk.rows.filter fun q => q.entry == some st && !q.settled).length

/-- Gather entries in use in a stack (R347). -/
def State.gatherUsed (s : State) (st : Nat) : Nat :=
  (s.lk.rows.filter fun q => (q.entry == some st || q.credit == some st) && !q.settled).length

/-- Room for one more far request in the hub (R340). -/
def State.farRoom (s : State) : Bool := decide (s.aq.far.length < 65536)

/-- Send a far request for a row (R266, R327). -/
def State.sendFar (s : State) (q : RowReq) : State :=
  { s with aq := { s.aq with far := s.aq.far ++ [{ table := q.table, row := q.row, who := .lookup q.rid }] } }

/-- Send what waits in a cluster's dispatcher as far as credits and limits allow (R340). -/
def State.dispatchSend (s : State) (c : Nat) : State :=
  let mine := fun (st : State) (q : RowReq) => q.stage == .dispatcher && !q.settled &&
    (match st.list? q.list with | some l => l.cluster == c | none => false)
  let s1 := (s.lk.rows.filter (mine s)).foldl (fun st q =>
    if q.route == .far then
      if st.farRoom && decide (st.entriesUsed q.owner < 384) then
        (st.updRow q.rid fun x => { x with stage := .far, entry := some q.owner }).sendFar q
      else st
    else if st.creditsUsed c q.owner < 160 then
      st.updRow q.rid fun x => { x with stage := .stack q.owner, credit := some q.owner }
    else st) s
  let wait := s1.lk.rows.any fun q => mine s1 q && q.route != .far
  { s1 with lk := { s1.lk with cstall := if wait then setInsert s1.lk.cstall c else s1.lk.cstall.filter (· != c) } }

/-- Bytes of a merge slot (R340). -/
def LList.mergeBytes (l : LList) (d : TD) : Nat := if l.slotted then 64 else (64 + 17 * d.w + 63) / 64 * 64

/-- Merge buffer in use in a core (R340). -/
def State.mergeUsed (s : State) (core : Nat) : Nat :=
  ((s.lk.merges.filterMap fun m => s.list? m.list).map fun l => if l.core = core then l.mergeBytes (s.td l.table) else 0).sum

/-- The slot of the ID at a position of a slotted bag of m IDs (R323). -/
def LList.slotOf (l : LList) (m j : Nat) : Option Nat :=
  if l.op = 4 then (if j < l.k then some j else none)
  else if l.op = 5 then (if m ≤ j + l.k then some (j + l.k - m) else none)
  else some 0

/-- Apply LATE_POL to rows of a list whose late time has taken effect (R304, R307). -/
def State.lateRows (s : State) (id : Nat) : State :=
  match s.list? id with
  | none => s
  | some l =>
    let d := s.td l.table
    let rows := s.lk.rows.filter fun q => q.list == id && !q.settled && !q.kind2
    if rows.isEmpty then s
    else if d.latePol = 1 then
      rows.foldl (fun st q => match st.list? id with | some l' => st.substitute q l' d | none => st) s
    else if d.latePol = 2 then
      rows.foldl (fun st q => if st.lk.rows.any (fun x => x.rid == q.rid && !x.settled) then st.rowSettle q q.keeps else st)
        (s.listFail id 1)
    else s

/-- Process the next bag of a list (R321, R322, R326, R327). -/
def State.bag (s : State) (l : LList) : State :=
  let b := l.next
  let d := s.td l.table
  let ro := s.readDA (l.offDa + 4 * b) 8
  let o0 := leAt ro.data 0 4
  let o1 := leAt ro.data 4 4
  let m := o1 - o0
  let idA := l.idDa + 8 * o0
  let wtA := l.wtDa + 4 * o0
  let ip := s.placeRange l.idDa
  let wp := s.placeRange l.wtDa
  let inside := fun (p : Nat × Nat) (a n : Nat) => decide (p.1 ≤ a ∧ a + n ≤ p.1 + p.2)
  let s0 := (s.touch idA (8 * m)).touch wtA (if l.op = 1 then 4 * m else 0)
  let ri := s0.readDA idA (8 * m)
  let rw := if l.op = 1 then s0.readDA wtA (4 * m) else {}
  if ro.unmapped then s.listFail l.id 4
  else if ro.poison then s.listFail l.id 5
  else if (b = 0 ∧ o0 ≠ 0) ∨ o1 < o0 ∨ 65535 < m then s.listFail l.id 3
  else if ri.unmapped || rw.unmapped then s0.listFail l.id 4
  else if !(m == 0 || (inside ip idA (8 * m) && (l.op != 1 || inside wp wtA (4 * m)))) then s0.listFail l.id 3
  else if ri.poison || rw.poison then s0.listFail l.id 5
  else
    let ms : MergeSlot := { list := l.id, bag := b, slots := if l.slotted then List.range l.k else [] }
    let s1 := { (s0.updList l.id fun x => { x with next := b + 1 }) with lk.merges := s0.lk.merges ++ [ms] }
    let s2 := (List.range m).foldl (fun st j =>
      match l.slotOf m j with
      | none => st
      | some k =>
        let w : W32 := if l.op = 1 then BitVec.ofNat 32 (leAt rw.data (4 * j) 4) else one32
        st.oneID l d b k (leAt ri.data (8 * j) 8) w) s1
    let s3 := if l.lateDone then s2.lateRows l.id else s2
    s3.bagTry l.id b

/-- The lists of a cluster that have bags left, in the order of their issue. -/
def State.openLists (s : State) (c : Nat) : List LList :=
  s.lk.lists.filter fun l => l.cluster == c && l.live && decide (l.next < l.nbags)

/-- DISPATCHER_BAG (R327, R340): the dispatcher sends what waits in it; once nothing waits, it opens the next bag of its
n-th list with bags left, when a merge slot is free. -/
def execDispatcherBag (cluster : Fin 100) (n : Nat) (s : State) : Res :=
  let c := cluster.val
  let s1 := s.dispatchSend c
  if s1.lk.rows.any fun q => q.stage == .dispatcher && !q.settled &&
      (match s1.list? q.list with | some l => l.cluster == c | none => false) then .next s1
  else
    match (s1.openLists c)[n]? with
    | none => .next s1
    | some l =>
      if 262144 < s1.mergeUsed l.core + l.mergeBytes (s1.td l.table) then
        .next { s1 with lk := { s1.lk with mstall := setInsert s1.lk.mstall c } }
      else
        let s2 := { s1 with lk := { s1.lk with mstall := s1.lk.mstall.filter (· != c) } }
        .next (((s2.bag l).listTry l.id).dispatchSend c)

/-! ### Stack controllers (R228, R288–R290) -/

/-- Move a row into a partial of its own, as a hot miss does (R267, R331). -/
def State.spawnFrag (s : State) (q : RowReq) : State :=
  match s.frag? q.frag with
  | none => s
  | some f =>
    if f.stack.isNone then s
    else
      let fid := s.lk.nextFrag
      let s1 := (s.newFrag { id := 0, list := q.list, bag := q.bag, slot := q.slot, left := 1 }).updRow q.rid fun x =>
        { x with frag := fid }
      s1.updFrag f.id fun x => { x with left := x.left - 1, spawn := x.spawn + 1, sent := x.left ≤ 1 }

/-- Forward a request to another stack (R228 step 3); it waits where that stack has no entry free. -/
def State.forwardTo (s : State) (q : RowReq) (st : Nat) (rt : RowRoute) : State :=
  if 384 ≤ s.entriesUsed st then s
  else (s.spawnFrag q).updRow q.rid fun x => { x with stage := .stack st, owner := st, route := rt, entry := some st }

/-- Forward a request through the hub to the home tier (R228 step 3, R266). -/
def State.forwardFar (s : State) (q : RowReq) (promote : Bool) : State :=
  ((s.spawnFrag q).updRow q.rid fun x =>
    { x with stage := .far, route := .far, promote := promote, entry := if x.credit == some x.owner then x.entry else some x.owner }
    ).sendFar q

/-- A promotion's token: MAX_KPS thousand a second, up to one millisecond's worth held (R288). -/
def BdStack.tokens (b : BdStack) (kps now : Nat) : Nat := min (b.prmTokens + (now - b.prmAt) * kps) (max 1 kps * 1000000)

/-- Take the next slot of a stack's promotion pool for a row (R290). -/
def State.poolTake (s : State) (st t r : Nat) : Option (Nat × State) :=
  let b := s.bdStack st
  match b.prmBack with
  | a :: rest => some (a, s.updBdStack st fun x => { x with prmBack := rest })
  | [] =>
    if b.prmPi = b.prmCi then none
    else
      let ea := b.prmBase.toNat * 2 ^ 28 + 16 * b.prmCi.toNat
      let e := (s.readDA ea 16).data
      let s1 := s.writeDA ea (leBytes 8 (r + 2 ^ 40 * t + 2 ^ 62))
      some (leAt e 8 8 % 2 ^ 52, s1.updBdStack st fun x =>
        { x with prmCi := BitVec.ofNat 16 ((x.prmCi.toNat + 1) % (x.prmSize.toNat * 4096)) })

/-- The bit of the recent-miss filter that a row sets (R288). -/
def recentBit (t r : Nat) : Nat := rowKey t r / 2 ^ 32 % 2 ^ 20

/-- A promotion's fill has started, and takes its token, or it has not, and its slot goes back to the pool. -/
def State.promoted (st slot tokens now : Nat) (p : Bool × State) : Bool × State :=
  if p.1 then (true, p.2.updBdStack st fun x => { x with prmTokens := tokens, prmAt := now })
  else (false, p.2.updBdStack st fun x => { x with prmBack := x.prmBack ++ [slot] })

/-- Promote a hot miss where R288 lets it: true with the entry inserted. -/
def State.promote (s : State) (st t : Nat) (d : TD) (r frame : Nat) : Bool × State :=
  let b := s.bdStack st
  let seen := b.recent.contains (recentBit t r)
  let s1 := s.updBdStack st fun x => { x with recent := setInsert x.recent (recentBit t r) }
  let kps := s.late.prmKps.toNat
  let tok := b.tokens kps s.time.now
  let want := d.hotset && decide (d.rb ≤ 64 * 2 ^ s.late.prmSlot.toNat)
    && (s.late.prmMode == 1 || (s.late.prmMode == 2 && seen)) && decide (1000000 ≤ tok)
    && (s.hotCopies t r).isEmpty && !s.bucketMoving (bucketOf t r)
  if !want then (false, s1)
  else
    match s1.poolTake st t r with
    | none => (false, s1)
    | some (slot, s2) =>
      State.promoted st slot (tok - 1000000) s.time.now
        (s2.fillStart { table := t, row := r, stack := st, slot := slot } frame slot)

/-- A hit: the row is read from a slot, and the load counters count it (R228, R234). -/
def State.rowRead (s : State) (q : RowReq) (st da : Nat) : State :=
  (s.countRow st da (if q.route == .hot then some (bucketOf q.table q.row) else none)).updRow q.rid fun x =>
    { x with stage := .reading st da }

/-- A fountain miss (R228 step 3). -/
def State.fountainMiss (s : State) (q : RowReq) : State :=
  let d := s.td q.table
  if d.tier = 1 then s.forwardTo q (s.homeStack d q.row) .home
  else if 2 ≤ d.tier ∧ d.hotset = true ∧ s.bd.en = true then
    s.forwardTo q (s.bucket (bucketOf q.table q.row)).stack.toNat .hot
  else if 2 ≤ d.tier then (if s.farRoom then s.forwardFar q false else s)
  else
    match s.list? q.list with
    | some l => s.cannotArrive q l d
    | none => s.dropRow q.rid

/-- A fountain replica's row, or its miss, after the directory probe. -/
def State.fountainRow (q : RowReq) (st : Nat) (p : Option (Nat × DirEntry) × State) : State :=
  match p.1 with
  | some (_, e) => if e.filling then p.2.fountainMiss q else p.2.rowRead q st e.slot
  | none => p.2.fountainMiss q

/-- A hot row, or a far request for it, after the directory probe; a row still filling is asked of the far side. -/
def State.hotRow (q : RowReq) (st frame : Nat) (d : TD) (p : Option (Nat × DirEntry) × State) : State :=
  match p.1 with
  | some (_, e) =>
    if !e.filling then p.2.rowRead q st e.slot
    else if p.2.farRoom then p.2.forwardFar q false else p.2
  | none =>
    if p.2.farRoom then
      let r := p.2.promote st q.table d q.row frame
      r.2.forwardFar q r.1
    else p.2

/-- STACK_ROW_REQUEST (R228): the n-th row request at a stack controller. -/
def execStackRowRequest (stack : Fin 12) (n : Nat) (s : State) : Res :=
  let st := stack.val
  match (s.lk.rows.filter fun q => q.stage == .stack st && !s.rst.dieRst.contains (stackDie st))[n]? with
  | none => .next s
  | some q =>
    let d := s.td q.table
    match q.route with
    | .home => .next (s.rowRead q st (s.rowDA d q.row))
    | .fountain => .next (State.fountainRow q st (s.dirProbe st q.table q.row none))
    | _ =>
      let b := s.bucket (bucketOf q.table q.row)
      let holder := b.stack.toNat
      if !s.bd.en then (if s.farRoom then .next (s.forwardFar q false) else .next s)
      else if b.mig ∧ st = holder then .next s
      else if st ≠ holder then .next (s.forwardTo q holder .hot)
      else .next (State.hotRow q st b.frame.toNat d (s.dirProbe st q.table q.row (some b.frame.toNat)))

/-! ### Lookup units (R229, R330) -/

/-- The far request that a row awaits, by its index in the hub. -/
def State.farOf (s : State) (rid : Nat) : Option (Nat × FarReq) :=
  (s.aq.far.zipIdx.find? fun x => x.1.who == .lookup rid).map fun x => (x.2, x.1)

/-- A row is at its lookup unit, or is known not to arrive there. -/
def State.rowReady (s : State) (st : Nat) (q : RowReq) : Bool :=
  match q.stage with
  | .reading k _ => k == st
  | .far => q.owner == st && (match s.farOf q.rid with
      | some (_, f) => (match f.stage with | .arrived _ => true | .failed => true | _ => false)
      | none => false)
  | _ => false

/-- A read from a slot comes back poisoned (R229, R330). -/
def State.slotPoisoned (s : State) (st : Nat) (q : RowReq) (l : LList) (d : TD) (da : Nat) : State :=
  let rec0702 := fun (x : State) => x.stackFault st 0x0702 0 (kind := 0) (table := q.table) (row := q.row) (bag := q.bag)
    (akind := 1) (addr := da)
  match q.route with
  | .hot =>
    let s1 := rec0702 s
    let s2 := match (s1.hotCopies q.table q.row).find? fun x => x.1 == st with
      | some (_, i) => s1.dirDel st i
      | none => s1
    s2.forwardFar q false
  | .fountain =>
    let s1 := rec0702 s
    if q.retried then s1.cannotArrive q l d
    else s1.updRow q.rid fun x =>
      { x with stage := .stack ((st + 1) % 12), owner := (st + 1) % 12, entry := some ((st + 1) % 12), retried := true }
  | _ => s.cannotArrive q l d

/-- LU_ROW_ARRIVAL (R330): the n-th row that is at a lookup unit of a stack, or is known not to arrive. -/
def execLuRowArrival (stack : Fin 12) (n : Nat) (s : State) : Res :=
  let st := stack.val
  match (s.lk.rows.filter fun q => s.rowReady st q && !s.rst.dieRst.contains (stackDie st))[n]? with
  | none => .next s
  | some q =>
    let d := s.td q.table
    match q.stage with
    | .reading _ da =>
      match s.list? q.list with
      | none => .next (s.dropRow q.rid)
      | some l =>
        if q.settled then .next (s.dropRow q.rid)
        else
          let s1 := s.touch da d.span
          let x := s1.readDA da d.span
          if x.unmapped then
            .next (((s1.stackFault st 0x0703 0 (kind := 0) (table := q.table) (row := q.row) (bag := q.bag) (akind := 1)
              (addr := da)).cannotArrive q l d).listTry l.id)
          else if x.poison then .next ((s1.slotPoisoned st q l d da).listTry l.id)
          else .next ((s1.rowArrived q l d (l.rowBytes d x.data)).listTry l.id)
    | _ =>
      match s.farOf q.rid with
      | none => .next s
      | some (i, f) =>
        let s1 := { s with aq := { s.aq with far := s.aq.far.eraseIdx i } }
        let got := match f.stage with | .arrived b => some b | _ => none
        let s2 := if q.promote then
            match s1.bd.fills.find? fun x => x.table == q.table && x.row == q.row && x.cmd.isNone with
            | some x => s1.fillArrive x got
            | none => s1
          else s1
        match s2.list? q.list with
        | none => .next (s2.dropRow q.rid)
        | some l =>
          if q.settled then .next (s2.dropRow q.rid)
          else
            match got with
            | some b => .next ((s2.rowArrived q l d (l.rowBytes d b)).listTry l.id)
            | none => .next ((s2.cannotArrive q l d).listTry l.id)

/-- LATE_TIME (R302, R304): the n-th list whose late time has passed and has not taken effect yet. -/
def execLateTime (n : Nat) (s : State) : Res :=
  match (s.lk.lists.filter fun l => l.deadline != 0 && !l.lateDone && decide (l.deadline - l.margin ≤ s.time.now))[n]? with
  | none => .next s
  | some l => .next (((s.updList l.id fun x => { x with lateDone := true }).lateRows l.id).listTry l.id)

/-! ### The merge engine (R336, R337) -/

/-- Absorb a partial (R336). -/
def State.absorb (s : State) (l : LList) (f : Frag) : State :=
  let d := s.td l.table
  if !l.live then s
  else if l.slotted then
    if f.np = 0 then s
    else
      let (bs, fl) := l.outElems d 1 f.elems
      let s1 := { s with lk := { s.lk with merges := s.lk.merges.map fun (m : MergeSlot) =>
        if m.list = f.list ∧ m.bag = f.bag then { m with slots := m.slots.filter (· != f.slot) } else m } }
      (s1.listFlags l fl).outWrite l (l.bagOut f.bag + f.slot * (d.w * outElemBytes l.ofmt)) bs
  else
    { s with lk := { s.lk with merges := s.lk.merges.map fun (m : MergeSlot) =>
      if m.list = f.list ∧ m.bag = f.bag then
        { m with n := m.n + f.np, elems := absorbAll (l.op == 3) m.elems f.elems } else m } }

/-! ### Teardown (R341) -/

/-- The lists of some clusters lose their context: nothing more of them is written, and rows not sent are dropped. -/
def State.tearLists (s : State) (cl : Nat → Bool) : State :=
  (s.lk.lists.filter fun l => cl l.cluster && !l.torn).foldl (fun st l =>
    let s1 := st.updList l.id fun x => { x with torn := true }
    ((s1.lk.rows.filter fun q => q.list == l.id && q.stage == .dispatcher && !q.settled).foldl (fun s q => s.rowSettle q)
      s1).listTry l.id) s

/-- Every list of some clusters ends at once: their reset takes out the dispatchers, their counts and what they sent (R245,
R345, R548). -/
def State.cutLists (s : State) (cl : Nat → Bool) : State :=
  let gone := fun (id : Nat) => match s.list? id with | some l => cl l.cluster | none => false
  let lk : Lookup := { s.lk with
    lists := s.lk.lists.filter fun (l : LList) => !cl l.cluster
    rows := (s.lk.rows.filter fun (q : RowReq) => !(gone q.list && q.stage == .dispatcher)).map fun (q : RowReq) =>
      if gone q.list then { q with settled := true } else q
    frags := s.lk.frags.filter fun (f : Frag) => !gone f.list
    merges := s.lk.merges.filter fun (m : MergeSlot) => !gone m.list
    cstall := s.lk.cstall.filter fun (c : Nat) => !cl c
    mstall := s.lk.mstall.filter fun (c : Nat) => !cl c
    ids := s.lk.ids.filter fun (kv : Nat × W32) => !cl kv.1 }
  { s with lk := lk, bd := { s.bd with sampleCnt := s.bd.sampleCnt.filter fun (kv : Nat × Nat) => !cl kv.1 } }

end Sys2Proof.Machine
end

