-- ==== Sys2Proof/Machine/TimePace.lean ====
section
/-! DEFINITION. Device time and pace (02): the meanings of the time base, time following, the pace monitors and
ageing. -/
namespace Sys2Proof.Machine
open Sys2Proof

/-- The pace record of a die. -/
def State.dieRec (s : State) (d : Nat) : Pace := s.pace.get {} d

/-- A fault record of class 8 (R580, R833). -/
def State.timeFault (s : State) (die code : Nat) (rung : Nat := 0) : State :=
  let p := s.dieRec die
  s.fault { mkFault 8 die code with
    rung := rung
    state := leBytes 4 s.time.sts.toNat ++ leBytes 4 p.minReg.toNat ++ leBytes 4 p.ageReg.toNat }

/-- Device time steps forward (R57): timers armed before keep their armed times. -/
def State.stepTime (s : State) (ns : Nat) : State := { s with time := { s.time with now := s.time.now + ns } }

/-- REF_CLOCK_LOSS (R58): holdover begins, REF_LOST is set, and a fault record is written. -/
def execRefClockLoss (s : State) : Res :=
  if s.time.refPresent then
    let s1 := { s with time := { s.time with refPresent := false, holdover := true, refLost := true } }
    let s2 := s1.timeFault 4 0x0A01
    .next (if s.time.refLost then s2 else s2.irqEvent 9)
  else .next s

/-- PLL_RELOCK (R58): holdover ends with no step in time. -/
def execPllRelock (s : State) : Res :=
  if s.time.holdover then .next { s with time := { s.time with refPresent := true, holdover := false } }
  else .next s

/-- Add a forward step on this part, now or at the step time of R63. -/
def State.applyTimeStep (s : State) (v : Nat) : State :=
  if v = 0 then s
  else if s.time.pairLock then { s with time := { s.time with stepRej := true } }
  else if s.pl.role == .active && s.pl.link && s.time.peerLock then
    match s.time.stepPend with
    | some (n, t) => { s with time := { s.time with stepPend := some (n + v, t) } }
    | none => { s with time := { s.time with stepPend := some (v, s.time.now + 20000) } }
  else s.stepTime v

/-- HUB_TIME_STEP (R63, R67). -/
def execHubTimeStep (p : AccessPath) (v : W32) (s : State) : Res :=
  .next (s.onCsr p .hub (·.applyTimeStep v.toNat))

/-- PAIR_STEP_TIME (R63): the pending step is applied once device time reaches T. -/
def execPairStepTime (s : State) : Res :=
  match s.time.stepPend with
  | some (v, t) =>
    if t ≤ s.time.now then .next ({ s with time := { s.time with stepPend := none } }.stepTime v) else .next s
  | none => .next s

/-- The part has a pair role. -/
def rolePaired : Role → Bool
  | .solo => false | .split => false | _ => true

def roleStandby : Role → Bool
  | .standby => true | .standbyIncomplete => true | _ => false

/-- TIME_MESSAGE_SEND (R61): every 10 µs, with the pending step and T (R63). -/
def execTimeMessageSend (s : State) : Res :=
  if rolePaired s.pl.role && s.pl.link && s.elapsed s.time.lastSent 10000 then
    let d := match s.time.stepPend with
      | some (v, t) => leBytes 8 v ++ leBytes 8 t
      | none => []
    .next ({ s with time := { s.time with lastSent := s.time.now } }.emit (.quefy "TIME" s.time.now d))
  else .next s

/-- Clear PAIR_LOCK and report it (R62). -/
def State.losePairLock (s : State) : State :=
  if s.time.pairLock then
    ({ s with time := { s.time with pairLock := false, goodMsgs := 0 } }.timeFault 4 0x0A02).irqEvent 9
  else s

/-- A 16-bit saturated signed offset (R68). -/
def offsetField (o : Int) : W16 := BitVec.ofInt 16 (max (-32767) (min 32767 o))

/-- Take an offset estimate into the lock bookkeeping of R62. -/
def TimeBase.note (t : TimeBase) (o : Int) : TimeBase :=
  let good := o.natAbs ≤ 50
  let n := if good then t.goodMsgs + 1 else 0
  { t with
    offset := offsetField o, lastMsg := t.now, goodMsgs := n, pairLock := t.pairLock || decide (10 ≤ n)
    badSince := if good then none else (match t.badSince with | some b => some b | none => some t.now)
    slewPpm := if o = 0 then 0 else if o > 0 then -1000 else 1000 }

/-- The standby takes a time message (R61, R62): the first one steps a time that is behind forward; later ones slew. -/
def State.followTime (s : State) (active : Nat) : State :=
  let o : Int := (s.time.now : Int) - (active : Int)
  if !s.time.following && decide (o < 0) then
    let t := { s.time with now := active, following := true }
    { s with time := t.note 0 }
  else { s with time := ({ s.time with following := true }).note o }

/-- TIME_MESSAGE (R61–R63): the peer's device time at arrival (its time plus half the measured round trip), a pending
step with its T if the message carries one, and whether the sender holds PAIR_LOCK. -/
def execTimeMessage (peerTime : W64) (oneWay : W32) (step : Option (W32 × W64)) (lock : Bool) (s : State) : Res :=
  if roleStandby s.pl.role then
    match step with
    | none => .next (s.followTime (peerTime.toNat + oneWay.toNat))
    | some (v, t) =>
      if t.toNat ≤ s.time.now ∧ s.time.stepPend = none then
        -- the step was not received by this part's own T
        let s1 := s.losePairLock
        .next ({ s1 with time := { s1.time with following := false } }.followTime (peerTime.toNat + oneWay.toNat))
      else
        let s1 := s.followTime (peerTime.toNat + oneWay.toNat)
        .next { s1 with time := { s1.time with stepPend := some (v.toNat, t.toNat) } }
  else if s.pl.role == .active then
    .next { s with time := { s.time with peerLock := lock, lastMsg := s.time.now } }
  else .next s

/-- PAIR_LOCK_LOSS (R62): the offset has exceeded 50 ns, or no message has come, for 1 ms. -/
def execPairLockLoss (s : State) : Res :=
  let bad := match s.time.badSince with
    | some b => s.elapsed b 1000000
    | none => false
  if s.time.pairLock && (bad || s.elapsed s.time.lastMsg 1000000) then .next s.losePairLock else .next s

/-- PACE_SAMPLE (R73, R76): a die's reported pace is the lowest of its monitors; no monitors, no sample. -/
def execPaceSample (die : Fin 5) (monitors : List W16) (s : State) : Res :=
  match monitors with
  | [] => .next s
  | m :: ms =>
    let cur := ms.foldl (fun a b => if b.ult a then b else a) m
    .next { s with pace := s.pace.upd {} die.val fun p =>
      { p with cur := cur, min := if cur.ult p.min then cur else p.min } }

/-- The temperature factor of R48 in millionths, for a junction temperature in tenths of a degree. -/
def tempFactor (t : Int) : Int :=
  if t ≤ 600 then 1080000 - 175 * (t - 400)
  else if t ≤ 850 then 1045000 - 180 * (t - 600)
  else if t ≤ 950 then 1000000 - 380 * (t - 850)
  else 962000 - 410 * (t - 950)

/-- PWR_PACE_MIN: any write sets MIN to 0xFFFF. -/
def State.writePaceMin (s : State) (d : Nat) : State := { s with pace := s.pace.upd {} d fun x => { x with min := 0xFFFF } }

/-- PWR_PACE_MIN_WRITE (R76). -/
def execPwrPaceMinWrite (p : AccessPath) (die : Fin 5) (s : State) : Res :=
  .next (s.onCsr p .hub (·.writePaceMin die.val))

/-- HUB_AGE_SUM (R803). -/
def State.ageSum (s : State) : W32 :=
  BitVec.ofNat 32 ((List.range 5).map fun d =>
    let p := s.dieRec d
    (if p.eolMonths.toNat < 6 then 2 ^ d else 0) + (if p.warn then 2 ^ (5 + d) else 0)
      + (if p.floor then 2 ^ (10 + d) else 0)).sum

end Sys2Proof.Machine
end

