-- ==== Sys2Proof/Machine/Start.lean ====
section
/-! DEFINITION. How a start-up begins: the option loader (R698–R702), the reset counters (R694, R695, R711), and what
each device-level reset clears (R692, R693). -/
namespace Sys2Proof.Machine
open Sys2Proof

/-! ### The option loader -/

/-- The 4 KiB of an option copy; an unlisted byte is erased. -/
def optBytes (m : SMap Byte) : List Byte := (List.range 4096).map fun i => m.get 0xFF i

def optErased (m : SMap Byte) : Bool := m.all fun kv => kv.2 == 0xFF

/-- A copy is valid when its CRC is correct (R698, R699). The CRC of an erased copy is not. -/
def optValid (m : SMap Byte) : Bool :=
  if optErased m then false
  else let b := optBytes m; crc32c (b.take 4092) == leAt b 4092 4

def optGen (m : SMap Byte) : Nat := leNat ((List.range 4).map fun i => m.get 0xFF (4 + i))

/-- LIFECYCLE as applied: an unknown value is taken as RETIRED (R699). -/
def lifecycleOf (b : Byte) : Byte := if b = 0xFF ∨ b = 0xA5 ∨ b = 0x5A then b else 0

/-- What the loader applies of the two copies (R698, R700). -/
def OptNvm.load (n : OptNvm) : OptApplied :=
  let a := optValid n.copyA
  let b := optValid n.copyB
  let useB := b && (!a || decide (optGen n.copyA < optGen n.copyB))
  let img := if useB then n.copyB else n.copyA
  let erased := optErased n.copyA && optErased n.copyB
  if a || b then
    { aOk := a, bOk := b, usedB := useB, lifecycle := lifecycleOf (img.get 0xFF 8),
      gen := BitVec.ofNat 32 (optGen img), image := img }
  else { none := true, erased := erased, lifecycle := if erased then 0xFF else 0 }

/-- Lifecycle codes of R744. -/
def State.lc (s : State) : Nat :=
  if s.opt.lifecycle = 0xFF then 0 else if s.opt.lifecycle = 0xA5 then 1 else if s.opt.lifecycle = 0x5A then 2 else 3

/-- SEALED or RETIRED (R701, R777). -/
def State.locked (s : State) : Bool := decide (2 ≤ s.lc)

/-- Units that the applied map names become IN SERVICE in the backup domain, the map carrying their exclusion; so do
a replaced cluster and its cores (R701, R830). -/
def State.clearMapped (s : State) : State :=
  let spare := fun (c : Nat) => !s.opt.none && s.optByte (96 + c / 25) == c % 25
  let fix := fun (k : UnitKind) (rep : Nat → Bool) (m : SMap UnitHealth) =>
    m.map fun (kv : Nat × UnitHealth) =>
      if s.excluded k kv.1 || rep kv.1 then (kv.1, { kv.2 with health := .inService }) else kv
  { s with bak := { s.bak with
      core := fix .core (fun k => spare (k / 12)) s.bak.core
      cluster := fix .cluster spare s.bak.cluster
      pair := fix .pair (fun _ => false) s.bak.pair
      lu := fix .lu (fun _ => false) s.bak.lu
      uu := fix .uu (fun _ => false) s.bak.uu } }

/-- DEF_PART (R699). -/
def State.defPart (s : State) : Nat := let b := s.optByte 11; if b = 2 ∨ b = 4 then b else 1

/-- The default layout (R702 step 2). -/
def State.layOut (s : State) : State :=
  let n := s.defPart
  let part := fun (p : Nat) =>
    let cl : Nat := ((List.range (100 / n)).map fun i => 2 ^ (100 / n * p + i)).sum
    { ({} : Part) with
      cl := BitVec.ofNat 100 cl, astBase := BitVec.ofNat 14 (16384 / n * p), astCount := BitVec.ofNat 15 (16384 / n) }
  let pair := fun (i : Nat) => { ({} : CcPair) with
    parts := BitVec.ofNat 16 (2 ^ (i / (8 / n))), mismatch := (s.cc.pairs.get {} i).mismatch }
  { s with
    sc := { s.sc with parts := (List.range n).map fun p => (p, part p) }
    cc := { s.cc with pairs := (List.range 8).map fun i => (i, pair i) } }

/-- The effective straps (R696, R697, R708): overrides apply in test and recovery start-up only. -/
def State.applyStraps (s : State) : State :=
  let raw := s.straps
  let test := raw.test && !s.locked
  let special := test || decide (3 ≤ raw.boot.toNat)
  let v := fun (o : Nat) => special && !s.opt.none && 128 ≤ s.optByte o
  let boot0 : BitVec 3 := if v 13 then BitVec.ofNat 3 (s.optByte 13) else raw.boot
  let eff : Straps := {
    boot := if 3 ≤ boot0.toNat then 3 else boot0
    clk := if v 14 then BitVec.ofNat 2 (s.optByte 14) else raw.clk
    pair := if v 15 then (s.optByte 15).testBit 0 else raw.pair
    test := test }
  let s1 := { s with rst := { s.rst with
    rawStraps := raw, effStraps := eff, ovr := v 13 || v 14 || v 15 } }
  if 4 ≤ boot0.toNat ∨ (raw.test = true ∧ s.locked = true) then s1.timeFault 4 0x0F03 else s1

/-- AQ_BIFUR of the option block (R275, R699). -/
def State.applyBifur (s : State) : State :=
  let f := fun (i : Nat) => let v := s.optByte 12 / 4 ^ i % 4; if v = 3 then 0 else v
  { s with aq := { s.aq with bifur := [(0, f 0), (1, f 1)] } }

/-- Steps 1 and 2 of a start-up (R702): the backup contents are checked, the straps sampled, and the option block
applied. -/
def State.bootStart (s0 : State) : State :=
  let s := { s0 with rst := { s0.rst with start := .options, timerAt := some s0.time.now, timerUsed := 0 } }
  let s1 := if s.bak.vbak then s
    else State.timeFault { s with bak := { s.bak with vbak := true, bakLost := true } } 4 0x0F08
  let o := s1.nvm.load
  let s2 := { s1 with opt := o }
  let s3 := if o.none then s2.timeFault 4 0x0F02 else if !o.aOk || !o.bOk then s2.timeFault 4 0x0F01 else s2
  let s4 := s3.applyStraps.applyBifur.clearMapped.layOut
  { s4 with rst := { s4.rst with start := .clocks } }

/-! ### What a reset clears (R693) -/

/-- The part's own memory is lost; the host's is not in the part. -/
def Memory.hostOnly (m : Memory) : Memory :=
  { cells := m.cells.filter fun kv => rsvBase ≤ kv.1, poison := m.poison.filter fun l => rsvBase ≤ 64 * l }

/-- What every device-level reset leaves: what is outside the part or not volatile, the backup domain, the drives, and
the model's own fields. -/
def State.coldKept (s : State) : State :=
  { State.reset with
    bak := s.bak, nvm := s.nvm, straps := s.straps, ident := s.ident, spi := s.spi
    rails := { s.rails with hbm := false, pser := false, vddMv := 750, aqPerstN := 0 }
    stw := { State.reset.stw with btn := s.stw.btn, eid := s.stw.eid }
    hub := { State.reset.hub with step := s.hub.step, xr := s.hub.xr, rom := s.hub.rom, serial := s.hub.serial }
    mem := s.mem.hostOnly
    aq := { State.reset.aq with drives := s.aq.drives, shelf := s.aq.shelf }
    pl := { State.reset.pl with prsnt := s.pl.prsnt }
    rst := { State.reset.rst with
      heldPerst := s.rst.heldPerst, heldThermal := s.rst.heldThermal, heldUv := s.rst.heldUv }
    pace := s.pace.map fun (kv : Nat × Pace) => (kv.1, { kv.2 with cur := 0, min := 0xFFFF })
    out := s.out, freeCtr := s.freeCtr, pending := s.pending }

/-- A device reset keeps more: device time, RWS fields and the fault record store; a PF function-level reset leaves the
host link trained (R692). -/
def State.deviceKept (s : State) (flr : Bool) : State :=
  let c := s.coldKept
  let h : HostState := { c.host with
    width := s.host.width, cxl := s.host.cxl, ideIo := s.host.ideIo, ideCm := s.host.ideCm, up := s.host.up }
  { c with
    time := { s.time with stepPend := none, following := false, pairLock := false, slewPpm := 0, slewAcc := 0 }
    faults := s.faults
    pace := s.pace.map fun (kv : Nat × Pace) => (kv.1, { kv.2 with cur := 0 })
    host := if flr then h else c.host
    rst := { c.rst with tmoS := s.rst.tmoS, code8 := s.rst.code8, lastSrcAt := s.rst.lastSrcAt }
    pl := { c.pl with degrades := s.pl.degrades, promo := s.pl.promo }
    int := { c.int with tainted := s.int.tainted }
    rails := s.rails
    stw := { c.stw with restarts := s.stw.restarts, outSince := s.stw.outSince }
    cc := { c.cc with pairs := s.cc.pairs.map fun (kv : Nat × CcPair) => (kv.1, { mismatch := kv.2.mismatch }) } }

/-- A start-up runs (R695). -/
def Start.running : Start → Bool
  | .ready | .halted | .test | .retired => false
  | _ => true

/-- The order in which RSTC_CAUSE.SRC prefers coinciding sources (R694). -/
def srcRank (code : Nat) : Nat := [1, 5, 2, 3, 6, 4, 7, 8, 9].findIdx (· == code)

/-- Count a source that begins a start-up of its own (R694, R695, R711). -/
def State.countFresh (s : State) (code : Nat) : State :=
  let b := s.bak
  let again := s.rst.start.running && s.rst.lastSrcAt.isSome
  { s with
    bak := { b with
      cnt := (b.cnt.upd 0 code satInc).upd 0 0 satInc, multi := false, src := BitVec.ofNat 4 code
      restarts := if again then satInc b.restarts else 1 }
    rst := { s.rst with lastSrcAt := some s.time.now } }

/-- Count a device-level source (R694, R695, R711): one within 1 µs of another, or in a reset that is held, joins it. -/
def State.countSource (s : State) (code : Nat) : State :=
  let b := s.bak
  let near := match s.rst.lastSrcAt with | some t => decide (s.time.now < t + 1000) | none => false
  if s.rst.held || near then
    { s with bak := { b with
        cnt := b.cnt.upd 0 code satInc, multi := true
        src := if srcRank code < srcRank b.src.toNat then BitVec.ofNat 4 code else b.src } }
  else s.countFresh code

/-- HALTED is left by PERST_N, a sideband reset request or a power cycle (R710); a thermal trip holds the part in any
state (R742). -/
def State.haltBars (s : State) (code : Nat) : Bool :=
  s.rst.start == .halted && !(code == 1 || code == 2 || code == 3 || code == 5)

/-- A device-level reset by a code of R692 other than 1; `cls` and `inst` name the unit whose fault caused it (R829), and
`hold` says what holds it. While it is held, start-up waits. -/
def State.deviceReset (s0 : State) (code : Nat) (cls : Nat := 8) (inst : Nat := 4) (hold : ResetState → ResetState := id) :
    State :=
  if s0.haltBars code then s0
  else
    let s := s0.countSource code
    let s1 := if s0.rst.held then s else s.fault { mkFault cls inst 0x0C04 with rung := 4 }
    let s2 := s1.deviceKept (code == 4)
    let s3 := { s2 with rst := hold { s2.rst with code8 := if code = 2 ∨ code = 3 then 0 else s2.rst.code8 } }
    if s3.rst.held then s3 else s3.bootStart

/-- POR (R692 code 1): device time restarts at 0, and everything volatile is reset. PERST_N low holds it (R826). -/
def State.coldReset (s0 : State) : State :=
  let s1 := (s0.countFresh 1).coldKept
  let s2 := { s1 with rst := { s1.rst with heldThermal := false, heldUv := false, lastSrcAt := some 0 } }
  if s2.rst.held then s2 else s2.bootStart

end Sys2Proof.Machine
end

