-- ==== Sys2Proof/Machine/Update.lean ====
section
/-! DEFINITION. Computing and applying one update (10, R354–R362, R370–R372, R376): the update unit's arithmetic, its
journal, and its writes. -/
namespace Sys2Proof.Machine
open Sys2Proof

/-! ### Arithmetic (R357–R361) -/

/-- Values with the flags raised in forming them. -/
structure Vals where
  v : List W32
  fl : ArithFlags := {}
deriving DecidableEq, Repr

/-- Gather results element by element. -/
def Vals.of (xs : List F32) : Vals := { v := xs.map (·.bits), fl := xs.foldl (fun f x => f.or x.flags) {} }

/-- The old elements as binary32 (R357). -/
def TD.oldElems (d : TD) (row : List Byte) : Vals :=
  Vals.of ((List.range d.w).map fun i =>
    let (e, inv) := d.elem row i
    let x := f32Val .rne e
    { x with flags := { x.flags with inv := x.flags.inv || inv } })

/-- binary32 words of a payload or a state. -/
def words32 : Nat → List Byte → List W32
  | 0, _ => []
  | n + 1, b => BitVec.ofNat 32 (leAt b 0 4) :: words32 n (b.drop 4)

def wordBytes (ws : List W32) : List Byte := ws.flatMap fun w => leBytes 4 w.toNat

/-- The mean square of a gradient (R360). -/
def meanSquare (g : List W32) : F32 :=
  let a := ((Acc.fresh 1 0).addChunk (g.map fun x => Term.ofProduct (dec32 x) (dec32 x))).getD (Acc.fresh 1 0)
  let c := a.output 0x00 .rne false 1 none
  let w := f32Rat .rne false g.length 1 0
  let q := fDiv .rne (BitVec.ofNat 32 c.bits) w.bits
  { q with flags := q.flags.or c.flags }

/-- A step of the optimizer (R360): new elements, new state and flags. `o` holds LR, MU, BETA2, EPS, C1, C2. -/
def stepRow (opt : Nat) (o : List W32) (g e st : List W32) : Vals × List W32 :=
  let lr := listGet 0 o 0
  let nlr := lr ^^^ 0x80000000
  let mu := listGet 0 o 1
  let beta2 := listGet 0 o 2
  let eps := listGet 0 o 3
  let c1 := listGet 0 o 4
  let c2 := listGet 0 o 5
  let n := g.length
  match opt with
  | 1 => (Vals.of ((List.range n).map fun i => fFma .rne nlr (listGet 0 g i) (listGet 0 e i)), [])
  | 2 =>
    let u := Vals.of ((List.range n).map fun i => fFma .rne mu (listGet 0 st i) (listGet 0 g i))
    let x := Vals.of ((List.range n).map fun i => fFma .rne nlr (listGet 0 u.v i) (listGet 0 e i))
    ({ x with fl := x.fl.or u.fl }, u.v)
  | 3 =>
    let ms := meanSquare g
    let a := fAdd .rne (listGet 0 st 0) ms.bits
    let r := fSqrt .rne a.bits
    let d := fAdd .rne r.bits eps
    let p := Vals.of (g.map fun x => fMul .rne lr x)
    let q := Vals.of (p.v.map fun x => fDiv .rne x d.bits)
    let x := Vals.of ((List.range n).map fun i => fSub .rne (listGet 0 e i) (listGet 0 q.v i))
    ({ x with fl := ((((x.fl.or q.fl).or p.fl).or d.flags).or r.flags).or (a.flags.or ms.flags) }, [a.bits])
  | _ =>
    let ms := meanSquare g
    let a := fSub .rne one32 mu
    let c := fSub .rne one32 beta2
    let ag := Vals.of (g.map fun x => fMul .rne a.bits x)
    let m := Vals.of ((List.range n).map fun i => fFma .rne mu (listGet 0 st i) (listGet 0 ag.v i))
    let cm := fMul .rne c.bits ms.bits
    let v := fFma .rne beta2 (listGet 0 st n) cm.bits
    let vc := fMul .rne v.bits c2
    let r := fSqrt .rne vc.bits
    let d := fAdd .rne r.bits eps
    let mc := Vals.of (m.v.map fun x => fMul .rne x c1)
    let p := Vals.of (mc.v.map fun x => fMul .rne lr x)
    let q := Vals.of (p.v.map fun x => fDiv .rne x d.bits)
    let x := Vals.of ((List.range n).map fun i => fSub .rne (listGet 0 e i) (listGet 0 q.v i))
    let fl := [q.fl, p.fl, mc.fl, d.flags, r.flags, vc.flags, v.flags, cm.flags, m.fl, ag.fl, c.flags, a.flags, ms.flags]
    ({ x with fl := fl.foldl ArithFlags.or x.fl }, m.v ++ [v.bits])

/-- Put a bit field of a byte string, little-endian. -/
def putBits (b : List Byte) (lo w v : Nat) : List Byte :=
  let n := leNat b
  leBytes b.length (n - n / 2 ^ lo % 2 ^ w * 2 ^ lo + v % 2 ^ w * 2 ^ lo)

/-- Requantise new elements into a row (R361): its new bytes, the skipped ones zero (R192), and the flags. -/
def TD.requant (d : TD) (row : List Byte) (es : List W32) : List Byte × ArithFlags :=
  let (sc, bi) := d.scaleBias row
  let s32 := (f32Val .rne sc).bits
  let b32 := (f32Val .rne bi).bits
  let ys := if d.hdr then
      let a := Vals.of (es.map fun e => fSub .rne e b32)
      let y := Vals.of (a.v.map fun x => fDiv .rne x s32)
      { y with fl := y.fl.or a.fl }
    else { v := es }
  let rm := Rm.ofCode d.rm
  let base := row.take d.h ++ List.replicate (d.rb - d.h) 0
  if isMx d.fmt then
    (List.range (d.w / 32)).foldl (fun x k =>
      let (sb, cs, f) := quantBlock d.fmt rm (((ys.v.drop (32 * k)).take 32).map dec32)
      let b := putAt x.1 (d.elemEnd + k) [BitVec.ofNat 8 sb]
      (cs.zipIdx.foldl (fun b c => putBits b (d.elemBit (32 * k + c.2)) (elemBits d.fmt) c.1) b, x.2.or f)) (base, ys.fl)
  else
    ys.v.zipIdx.foldl (fun x y =>
      let c := convVal d.fmt rm d.sat (dec32 y.1)
      (putBits x.1 (d.elemBit y.2) (elemBits d.fmt) c.bits, x.2.or c.flags)) (base, ys.fl)

/-- An update as an update unit takes it (R350): its row, kind and payload, the batch's optimizer fields and source,
and its epoch. -/
structure UpdReq where
  table : Nat
  row : Nat
  kind : Nat
  zst : Bool := false
  payload : List Byte := []
  opt : List W32 := []
  src : Nat := 0
  epoch : Nat
deriving DecidableEq, Repr

/-- The new row, new state and flags of an update (R356, R358): `old` is none where the old row read poisoned. -/
def UpdReq.compute (q : UpdReq) (d : TD) (old : Option (List Byte)) (st : List W32) :
    List Byte × List W32 × ArithFlags :=
  let row := old.getD (List.replicate d.rb 0)
  let ver := (rowVersion row + 1) % 65536
  let stamp := fun (b : List Byte) => if d.hdr then putAt b 4 (leBytes 2 ver) else b
  match q.kind with
  | 0 => (stamp (q.payload.take d.rb), (if q.zst then st.map fun _ => 0 else st), {})
  | 3 => (stamp (putBits row 48 1 1), st, {})
  | k =>
    let e := d.oldElems row
    let g := words32 d.w q.payload
    let (x, st') := if k = 1 then
        (Vals.of ((List.range d.w).map fun i => fAdd .rne (listGet 0 e.v i) (listGet 0 g i)), st)
      else stepRow d.opt q.opt g e.v st
    let (b, f) := d.requant row x.v
    (stamp b, st', (f.or x.fl).or e.fl)

/-! ### Where an update is applied (R354, R670) -/

/-- The update stack of a row. -/
def State.updStack (s : State) (t : Nat) (d : TD) (r : Nat) : Nat :=
  let b := bucketOf t r
  if d.tier = 1 then s.homeStack d r
  else if d.tier = 0 || !s.bd.en then b % 12
  else (s.hotHome t r).1

/-- An update unit of a stack is in service. -/
def State.uuServes (s : State) (st u : Nat) : Bool := s.serving .uu (st * 8 + u)

/-- The update unit of a row, as stack × 8 + unit: the next in-service one where it is RETIRED. -/
def State.updUnit (s : State) (t : Nat) (d : TD) (r : Nat) : Nat :=
  let st := s.updStack t d r
  let u0 := rowKey t r / 2 ^ 48 % 8
  st * 8 + (((List.range 8).map fun i => (u0 + i) % 8).find? (s.uuServes st)).getD u0

/-! ### The journal (R370–R372) -/

def State.uuStack (s : State) (st : Nat) : UuStack := s.uu.get {} st
def State.updUu (s : State) (st : Nat) (f : UuStack → UuStack) : State := { s with uu := s.uu.upd {} st f }

def UuStack.bytes (u : UuStack) : Nat := u.size.toNat * (64 * mib)

/-- Where the next record of a length goes; none while it would overwrite a kept record. -/
def UuStack.fit (u : UuStack) (len : Nat) : Option Nat :=
  let off := if u.bytes < u.wp + len then 0 else u.wp
  if u.bytes < len ∨ (u.kept.any fun j => overlaps off len j.off j.len) = true then none else some off

/-- A record's bytes (R371). -/
def journalBytes (q : UpdReq) (d : TD) (old : Option (List Byte)) (half : Bool) (st : List Byte) : List Byte :=
  let id := q.row + 2 ^ 40 * q.table + 2 ^ 58 * q.kind + 2 ^ 60 * old.isNone.toNat + 2 ^ 61 * half.toNat
  let body := old.getD (List.replicate d.rb 0) ++ st
  leBytes 8 id ++ leBytes 8 q.epoch ++ leBytes 1 q.src ++ [0] ++ leBytes 2 d.rb ++ leBytes 2 st.length
    ++ List.replicate 10 0 ++ body ++ List.replicate ((32 - body.length % 32) % 32) 0

/-- Append a record to a stack's journal (R370). -/
def State.journal (s : State) (st off : Nat) (q : UpdReq) (bs : List Byte) : State :=
  let u := s.uuStack st
  let j : JRec := { epoch := q.epoch, off := off, len := bs.length, table := q.table, row := q.row, src := q.src }
  (s.writeDA (u.base.toNat * 2 ^ 28 + off) bs).updUu st fun x =>
    { x with wp := off + bs.length, kept := x.kept ++ [j] }

/-! ### Applying an update (R351, R355, R356, R366, R376) -/

/-- What became of an update. -/
inductive UpdOut where
  | waits (why : Nat)
  | bad
  | skipped
  | applied (fl : ArithFlags)
deriving DecidableEq, Repr

/-- The record of a poisoned old row or state (R351): its model's digest is broken where the row is the cause. -/
def State.updPoison (s : State) (t r st : Nat) : State :=
  s.stackFault st 0x0802 0 (kind := 1) (table := t) (row := r)

/-- A model's digest is broken where its table is digested (R379). -/
def State.breakTable (s : State) (d : TD) : State := if d.digest then s.breakModel (some d.model) else s

/-- Half of a PUB row that an update reads and writes (R366): none where the record counts BAD. -/
def State.updHalf (s : State) (t : Nat) (d : TD) (slot : Option (List Byte)) : Option (Bool × Option (List Byte)) :=
  let p := s.half t
  if !d.pub then some (false, slot.map fun b => b.take d.rb)
  else
    match slot with
    | none => some (!p, none)
    | some b =>
      match d.newer b p with
      | none => none
      | some h => if h != p && d.ahead b p == 32767 then none else some (!p, some (d.halfBytes b h))

/-- The row of an update is in place: its state, digest, poison, count and mirrored result follow (R356, R376). -/
def State.applied (s : State) (q : UpdReq) (d : TD) (st unit sda : Nat) (old : Option (List Byte)) (reads sbad : Bool)
    (row : List Byte) (ws : List W32) : State :=
  let t := q.table
  let r := q.row
  let s2 := if !reads then s
    else if q.kind = 0 then s.writeDA sda (List.replicate d.ss 0) else s.writeDA sda (wordBytes ws)
  let s3 := if d.digest then
      s2.digAdd unit d.model (s2.rowHash d t r row - (match old with | some o => s2.rowHash d t r o | none => 0))
    else s2
  let s4 := if old.isNone then (s3.updPoison t r st).breakTable d else s3
  let s5 := if sbad then s4.updPoison t r st else s4
  let s6 := s5.updUu (unit / 8) fun u => { u with rows := u.rows + 1 }
  if s6.pl.replay then s6
  else s6.mirror q.epoch (.result t r
    (if d.pub then (s6.rowHome t d r d.span).getD row else row)
    (if !reads then [] else if q.kind = 0 then List.replicate d.stateLen 0 else wordBytes ws))

/-- Compute an update, journal it at `off`, and write its row. -/
def State.applyRow (s : State) (q : UpdReq) (half : Bool) (old : Option (List Byte)) (reads sbad : Bool)
    (stOld js : List Byte) (off : Nat) : UpdOut × State :=
  let d := s.td q.table
  let unit := s.updUnit q.table d q.row
  let res := q.compute d old (words32 (stOld.length / 4) stOld)
  let w := (s.journal (unit / 8) off q js).writeRow q.table d q.row (if half then d.s / 2 else 0) res.1
  if !w.1 then (.waits 2, { s with aq := w.2.aq })
  else (.applied res.2.2, w.2.applied q d (s.updStack q.table d q.row) unit (s.stateDA q.table d q.row) old reads sbad
    res.1 res.2.1)

/-- Apply one update (R356): `slot` is the old slot's bytes, none where it read poisoned. A wait changes nothing but
what shows it. -/
def State.applyUpdate (s : State) (q : UpdReq) (slot : Option (List Byte)) : UpdOut × State :=
  let t := q.table
  let r := q.row
  let d := s.td t
  let st := s.updStack t d r
  let unit := s.updUnit t d r
  match s.updHalf t d slot with
  | none => (.bad, s)
  | some (half, old) =>
    if old.isNone && q.kind != 0 then (.bad, (s.updPoison t r st).breakTable d)
    else if q.kind != 0 && d.absent (old.getD []) then (.skipped, s)
    else
      let reads := decide (2 ≤ d.opt) && (q.kind == 2 || (q.kind == 0 && q.zst))
      let sda := s.stateDA t d r
      let rs := if reads then s.readDA sda d.stateLen else {}
      let sbad := reads && !rs.clean
      if sbad && q.kind == 2 then (.bad, s.updPoison t r st)
      else
        let stOld := if sbad then List.replicate d.stateLen 0 else rs.data
        let js := journalBytes q d old half stOld
        match (s.uuStack (unit / 8)).fit js.length with
        | none => (.waits 1, s)
        | some off => s.applyRow q half old reads sbad stOld js off

end Sys2Proof.Machine
end

