-- ==== Sys2Proof/Machine/Updates.lean ====
section
/-! DEFINITION. Update batches, flips, epochs, digest snapshots and rebuilds (10, R348–R389), and the marker rounds of
R245. -/
namespace Sys2Proof.Machine
open Sys2Proof

/-! ### Epochs and snapshots (R369, R372, R378) -/

/-- A range of n bytes lies in an enabled region with COMP 0. -/
def State.plainRange (s : State) (da n : Nat) : Bool := s.inPlainRegion da n

/-- A record of the integrity unit (class 9). -/
def State.intFault (s : State) (code : Nat) (cmd st : List Byte := []) (rung : Nat := 0) : State :=
  s.fault { mkFault 9 0 code with rung := rung, cmd := cmd, cmdV := !cmd.isEmpty, state := st }

/-- A 256-bit mask of models, as 32 bytes. -/
def modelMask (ms : List Nat) : List Byte := leBytes 32 ((ms.eraseDups.map fun m => 2 ^ m).sum)

/-- The 4,160 bytes of a snapshot (R378). -/
def snapBytes (x : Snapshot) : List Byte :=
  leBytes 8 x.epoch ++ leBytes 8 x.time ++ leBytes 16 x.total.toNat ++ modelMask x.broken
    ++ (List.range 256).flatMap fun m => leBytes 16 ((x.d.find? fun kv => kv.1 == m).map (·.2.toNat) |>.getD 0)

/-- The snapshot that the saved partials form. -/
def State.snapshot (s : State) (epoch : Nat) : Snapshot :=
  let ms := (s.upd.saved.map fun kv => kv.1 % 256).eraseDups
  let ds := (ms.map fun m => (m, SMap.digSum s.upd.saved m)).filter fun kv => kv.2 != 0
  { epoch := epoch, time := s.time.now, total := ds.foldl (fun a kv => a + kv.2) 0, broken := s.upd.broken, d := ds }

/-- Write a snapshot to the ring and hand it to the integrity unit (R378, R675). -/
def State.putSnapshot (s : State) (x : Snapshot) : State :=
  let slot := s.upd.dgsWp.toNat % s.upd.dgsSize.toNat
  let da := s.upd.dgsBase.toNat * 2 ^ 28 + slot * 8192
  let ok := s.plainRange da 8192
  let s1 := if ok then
      let s0 := s.writeDA da (snapBytes x)
      { s0 with upd := { s0.upd with ring := s0.upd.ring.set slot x } }
    else s.intFault 0x0D0A
  let mark : SnapMark := { epoch := x.epoch, time := x.time, asn := s.int.asn, part := s.int.partAns }
  { s1 with
    upd := { s1.upd with dgsWp := s1.upd.dgsWp + 1 }
    int := { s1.int with marks := s1.int.marks ++ [mark] } }

/-- Release the journal records that a close lets go (R372, R676). -/
def State.journalRelease (s : State) (n : Nat) : State :=
  let keep := fun (j : JRec) => decide (n < j.epoch + s.upd.e.toNat + 1)
    || ((s.int.disagree || s.int.holdj) && decide (s.int.ver ≤ j.epoch))
  let upto := if s.int.disagree || s.int.holdj then min (n - s.upd.e.toNat) s.int.ver else n - s.upd.e.toNat
  { s with
    uu := s.uu.map fun (kv : Nat × UuStack) => (kv.1, { kv.2 with kept := kv.2.kept.filter keep })
    upd := { s.upd with journalFrom := max s.upd.journalFrom upto } }

/-- COMMIT(n) (R641, R642, R646, R650): the epoch's granules and its COMMIT close its items. -/
def State.sendCommit (s : State) (n : Nat) (snap : Option Snapshot) : State :=
  if s.pl.keeps then
    let s1 := (s.pl.dirty.foldl (fun st g => st.mirror n (.granule (4096 * g) (st.readDA (4096 * g) 4096).data)) s)
    let items := (s1.pl.tx.filter fun b => b.n == n).flatMap (·.items)
    let c : Commit := { n := n, items := items.length, full := s1.pl.copyEpoch == some n,
                        swap := s1.pl.swapEpoch == some n, snap := snap }
    let tx := if s1.pl.tx.any fun b => b.n == n
      then s1.pl.tx.map fun (b : EpochBuf) => if b.n = n then { b with commit := some c } else b
      else s1.pl.tx ++ [{ n := n, commit := some c }]
    let s2 := { s1 with pl := { s1.pl with tx := if s1.pl.keeps then tx else s1.pl.tx, dirty := [] } }
    if s2.pl.role == .active then s2.emit (.quefy "COMMIT" n []) else s2
  else s

/-- The epoch copy of R642: an active with mirrored regions takes a consistent snapshot of every RUNNING partition, and
COMMIT follows their cuts. -/
def State.cut (s : State) (n : Nat) (snap : Option Snapshot) : State :=
  let ps := (List.range 16).filter fun p => (s.part p).st == .running
  if s.pl.role == .active && s.pl.mreg != 0 && !(ps.isEmpty && s.pl.cutWait.isEmpty) then
    let join := fun (x : Part) => { x with snap := match x.snap with
      | some y => some y
      | none => some { start := s.time.now } }
    let s1 := ps.foldl (fun (st : State) p => st.updPart p join) s
    { s1 with pl := { s1.pl with
        cutWait := s1.pl.cutWait ++ [(n, snap)], cutParts := ps.foldl (fun l p => setInsert l p) s1.pl.cutParts } }
  else s.sendCommit n snap

/-- A partition's cut has been made: once all have, the COMMITs that wait for them go. -/
def State.cutDone (s : State) (p : Nat) : State :=
  let ps := s.pl.cutParts.filter (· != p)
  if ps.isEmpty && !s.pl.cutWait.isEmpty then
    s.pl.cutWait.foldl (fun (st : State) (x : Nat × Option Snapshot) => st.sendCommit x.1 x.2)
      { s with pl := { s.pl with cutParts := [], cutWait := [] } }
  else { s with pl := { s.pl with cutParts := ps } }

/-- Begin to close the open epoch (R369 steps 1 and 2). -/
def State.closeStart (s : State) : State :=
  { s with upd := { s.upd with
    closing := some s.upd.epoch, markers := List.range 96, openedAt := s.time.now
    saved := s.upd.dig.filter fun kv => kv.1 / 256 == hubUnit } }

/-- Ask for a close: the open epoch, or the next one where a close is under way. -/
def State.closeEpoch (s : State) (cmd : Option (Nat × W16)) : State :=
  let n := s.upd.accepting
  let s1 := match cmd with
    | some (q, cid) => { s with upd := { s.upd with closeCmds := s.upd.closeCmds ++ [(n, q, cid)] } }
    | none => s
  if s.upd.closing.isSome then { s1 with upd := { s1.upd with again := true } } else s1.closeStart

/-- Step 4 of R369: epoch n is closed. -/
def State.epochClosed (s : State) (n : Nat) : State :=
  let s1 := { s with upd := { s.upd with closing := none, epoch := n + 1 } }
  let s2 := s1.journalRelease n
  let (snap, s3) := if (n + 1) % s.upd.e.toNat = 0 then
      let x := s2.snapshot (n + 1)
      (some x, s2.putSnapshot x)
    else (none, s2)
  let mine := s3.upd.closeCmds.filter fun x => x.1 == n
  let s4 := { s3 with upd := { s3.upd with closeCmds := s3.upd.closeCmds.filter fun x => x.1 != n } }
  let s5 := mine.foldl (fun st x => st.complete x.2.1 x.2.2 stSuccess (BitVec.ofNat 64 n)) s4
  let s6 := s5.cut n snap
  if s6.upd.again then ({ s6 with upd := { s6.upd with again := false } }).closeStart else s6

/-- EPOCH_TIMER (R369): EPOCH_US has passed since the open epoch opened. A standby closes epochs as it applies them. -/
def State.epochTimer (s : State) : State :=
  if s.upd.auto && s.upd.closing.isNone && s.elapsed s.upd.openedAt (s.upd.epochUs.toNat * 1000)
      && s.pl.role != .standby && s.pl.role != .standbyIncomplete then s.closeEpoch none
  else s

def execEpochTimer (s : State) : Res := .next s.epochTimer

/-- UPD_EPOCH (R369). -/
def execUpdEpoch (c : KCmd) (s : State) : Res :=
  if s.upd.closeCmds.any fun x => x.2.1 == c.q.val && x.2.2 == c.cid then .next s
  else .next (s.closeEpoch (some (c.q.val, c.cid)))

/-- A unit has records of an epoch still to apply. -/
def State.unitBusy (s : State) (unit n : Nat) : Bool :=
  s.upd.recs.any fun x => decide (x.epoch ≤ n) && s.updUnit x.table (s.td x.table) x.row == unit

/-- EPOCH_MARKER_REACHED (R369 step 3): update unit `unit` (stack × 8 + unit) reaches its marker. -/
def execEpochMarkerReached (unit : Fin 96) (s : State) : Res :=
  match s.upd.closing with
  | none => .next s
  | some n =>
    if s.upd.markers.contains unit.val && !s.unitBusy unit.val n then
      let mine := s.upd.dig.filter fun kv => kv.1 / 256 == unit.val
      let s1 := { s with upd := { s.upd with
        markers := s.upd.markers.filter (· != unit.val)
        saved := mine.foldl (fun (m : SMap D128) (kv : Nat × D128) => m.set kv.1 kv.2) s.upd.saved } }
      .next (if s1.upd.markers.isEmpty then s1.epochClosed n else s1)
    else .next s

/-! ### Batches (R348–R353) -/

/-- RESULT of a batch (R352). -/
def Batch.result (b : Batch) : Nat :=
  b.status + 2 ^ 8 * min b.applied (2 ^ 24 - 1) + 2 ^ 32 * min b.skipped 4095 + 2 ^ 44 * min b.bad 4095
    + 2 ^ 56 * b.flags

/-- Set a handle of a task, where the task still holds it. -/
def State.setHandle (s : State) (pair slot h : Nat) (st : HandleSt) : State :=
  let p := s.cc.pairs.get {} pair
  match p.tasks.find slot with
  | none => s
  | some t =>
    match t.handles.find h with
    | none => s
    | some _ =>
      { s with cc := { s.cc with pairs := s.cc.pairs.set pair { p with
        tasks := p.tasks.set slot { t with handles := t.handles.set h st } } } }

/-- Write RESULT, and post the CQE or complete the task's wait (R353). -/
def State.batchReport (s : State) (b : Batch) : State :=
  let s1 := s.devWrite (b.descDa + 56) (leBytes 8 b.result)
  match b.origin with
  | .queue q cid => s1.complete q cid (if b.status = 0 then stSuccess else stBatchFailed) (BitVec.ofNat 64 b.result)
  | .task p sl h => s1.setHandle p sl h (if b.status = 0 then .complete else .updErr)

/-- The batch that a descriptor's 64 bytes describe. -/
def batchOf (origin : BatchOrigin) (part da : Nat) (h : List Byte) : Batch :=
  let w := fun (o : Nat) => BitVec.ofNat 32 (leAt h o 4)
  { origin := origin, part := part, descDa := da, table := leAt h 0 4 % 2 ^ 18
    flip := (leAt h 4 1).testBit 0, close := (leAt h 4 1).testBit 1, src := leAt h 5 1, count := leAt h 8 4
    nextDa := leAt h 16 8, lr := w 24, mu := w 28, beta2 := w 32, eps := w 36, c1 := w 40, c2 := w 44 }

/-- Accept a batch whose descriptor has been read (R351). A batch that is refused reports at once. -/
def State.batchAccept (s : State) (origin : BatchOrigin) (part da : Nat) (h : List Byte) : State :=
  let b := batchOf origin part da h
  let d := s.td b.table
  let unusable := !d.serves || d.part != part || s.pl.role == .standby || s.pl.role == .standbyIncomplete
  let bad := decide (2 ^ 18 ≤ leAt h 0 4) || decide (4 ≤ leAt h 4 1) || leAt h 6 2 != 0 || leAt h 12 4 != 0
    || leAt h 48 8 != 0 || decide (2 ^ 52 ≤ b.nextDa) || b.nextDa % 8 != 0 || b.count == 0
    || decide (2 ^ 24 < b.count) || (b.flip && !d.pub)
  if unusable then s.batchReport { b with status := 1 }
  else if bad then s.batchReport { b with status := 2 }
  else { s with upd := { s.upd with
    batches := s.upd.batches.set s.upd.nextBatch b, nextBatch := s.upd.nextBatch + 1 } }

/-- A SWAP runs (R650). -/
def PairState.swapping (p : PairState) : Bool := p.busy && p.op == 6

/-- A SWAP closes its epoch once the batches accepted before it are done. -/
def State.swapGo (s : State) : State :=
  if s.pl.swapping && s.pl.swapEpoch.isNone && s.upd.batches.isEmpty then
    State.closeEpoch { s with pl := { s.pl with swapEpoch := some s.upd.accepting } } none
  else s

/-- The front end takes no new batch now: the transmit buffer is full (R643), a SWAP holds batches (R650), or a rollback
runs (R679). -/
def State.batchesHeld (s : State) : Bool :=
  (s.pl.role == .active && s.pl.txFull) || s.pl.swapping || s.int.rbClosing.isSome

/-- UPD_BATCH (R348, R351). It waits at its queue while the front end takes none. -/
def execUpdBatch (c : KCmd) (s : State) : Res :=
  if s.batchesHeld then
    let h := s.pl.role == .active && s.pl.txFull
    .next (State.irqIf { s with pl := { s.pl with hold := h } } (s.pl.hold || !h) 15)
  else if c.a0.toNat % 64 ≠ 0 then .next (s.done c stSqField)
  else .next (s.withInput c c.a0.toNat 64 fun s1 h =>
    s1.batchAccept (.queue c.q.val c.cid) (s1.queue c.q.val).part.toNat c.a0.toNat h)

/-! ### Records (R350, R351, R356) -/

/-- Updates of a table are held: by a flip, a rebuild, or a verify sweep (R367, R379, R672). -/
def State.updHeld (s : State) (t : Nat) : Bool :=
  let m := (s.td t).model
  s.upd.flips.any (fun f => f.table == t) || (match s.upd.rebuild with | some r => r.model == m | none => false)
    || s.int.sweep.contains m

def State.updBatch (s : State) (id : Nat) (f : Batch → Batch) : State :=
  match s.upd.batches.find id with
  | none => s
  | some b => { s with upd := { s.upd with batches := s.upd.batches.set id (f b) } }

def State.setRec (s : State) (x : PendRec) : State :=
  { s with upd := { s.upd with recs := s.upd.recs.map fun (y : PendRec) => if y.id = x.id then x else y } }

/-- A batch's optimizer fields in the order of R350. -/
def Batch.opt (b : Batch) : List W32 := [b.lr, b.mu, b.beta2, b.eps, b.c1, b.c2]

/-- The record's unit has not reached the marker that stands before it (R369 step 2). -/
def State.markerWaits (s : State) (x : PendRec) : Bool :=
  match s.upd.closing with
  | some n => decide (n < x.epoch) && s.upd.markers.contains (s.updUnit x.table (s.td x.table) x.row)
  | none => false

/-- Rows that a record is for: one, or for a copy record (kind 4) of a TIER 3 table those of a page group (R646). -/
def State.recRows (s : State) (y : PendRec) : Nat :=
  let d := s.td y.table
  if y.kind = 4 ∧ d.tier = 3 then min ((s.aqExt (d.homeExt % 4096)).rows d.s) (d.n - y.row) else 1

/-- An earlier update of the row, or of a row of the record's page group, waits (R353, R356, R646). -/
def State.rowBusy (s : State) (x : PendRec) : Bool :=
  s.upd.recs.any fun y => decide (y.id < x.id) && y.table == x.table
    && decide (y.row < x.row + s.recRows x ∧ x.row < y.row + s.recRows y)

/-- A row's state bytes for the mirror stream. -/
def State.rowState (s : State) (t : Nat) (d : TD) (r : Nat) : List Byte :=
  if d.opt ≤ 1 ∨ d.serves = false then [] else (s.readDA (s.stateDA t d r) d.stateLen).data

/-- A copy record or page-group copy as it is sent (R646); bytes that cannot be had are left out. -/
def State.copyItem (s : State) (x : PendRec) : MirrorItem :=
  let d := s.td x.table
  if d.tier = 3 then
    .copyPage x.table x.row ((List.range (s.recRows x)).map fun i => (s.rowHome x.table d (x.row + i) d.rb).getD [])
  else
    .copyRow x.table x.row ((if x.got then x.old else s.rowOld x.table d x.row).getD []) (s.rowState x.table d x.row)

/-- The place of a copy in the stream, before its bytes are known. -/
def State.copyMark (s : State) (t r : Nat) : MirrorItem := if (s.td t).tier = 3 then .copyPage t r [] else .copyRow t r [] []

/-- Put an item in the place of the first equal to a mark. -/
def fillItem (mark it : MirrorItem) : List MirrorItem → List MirrorItem
  | [] => []
  | x :: xs => if x = mark then it :: xs else x :: fillItem mark it xs

/-- A copy record reaches the head of its unit's queue (R646): it takes its place in the stream. -/
def State.copyReached (s : State) (x : PendRec) : State :=
  let it := s.copyItem x
  let mark := s.copyMark x.table x.row
  let fill := fun (b : EpochBuf) => if b.n = x.epoch then { b with items := fillItem mark it b.items } else b
  { s with
    pl := { s.pl with tx := s.pl.tx.map fill }
    upd := { s.upd with recs := s.upd.recs.filter fun (y : PendRec) => y.id != x.id } }

/-- A copy record is placed behind the updates that its rows' unit has accepted. -/
def State.copyPlace (s : State) (t r : Nat) : State :=
  let n := s.upd.accepting
  let x : PendRec := { id := s.upd.nextRec, batch := s.upd.nextBatch, table := t, row := r, kind := 4, epoch := n, why := 4 }
  let s1 := s.mirror n (s.copyMark t r)
  let s2 := { s1 with upd := { s1.upd with nextRec := s1.upd.nextRec + 1, nextBatch := s1.upd.nextBatch + 1 } }
  if s2.rowBusy x || s2.markerWaits x then { s2 with upd := { s2.upd with recs := s2.upd.recs ++ [x] } } else s2.copyReached x


/-- The old row must come from the reservoir or from flash (R355). -/
def State.farOld (s : State) (x : PendRec) : Bool :=
  decide (2 ≤ (s.td x.table).tier) && (s.basinSource x.table x.row).isNone

/-- UU_STS.JFULL of a stack (R388): an update waits for journal space. -/
def State.jfull (s : State) (st : Nat) : Bool :=
  s.upd.recs.any fun (x : PendRec) => x.why == 1 && s.updStack x.table (s.td x.table) x.row == st

/-- UU_STS.HOLD of a stack (R388): a flip, a rebuild or a sweep holds records at its units. -/
def State.uuHold (s : State) (st : Nat) : Bool :=
  s.upd.recs.any fun (x : PendRec) => x.why == 3 && s.updStack x.table (s.td x.table) x.row == st

/-- An update unit works on a waiting record: it is applied, or waits on. -/
def State.stepRec (s : State) (id : Nat) : State :=
  match s.upd.recs.find? fun x => x.id == id with
  | none => s
  | some x =>
    if x.why = 3 then (if s.updHeld x.table then s else s.setRec { x with why := 4 })
    else if s.rowBusy x || s.markerWaits x || s.rst.dieRst.contains (stackDie (s.updStack x.table (s.td x.table) x.row)) then
      s.setRec { x with why := 4 }
    else if x.kind = 4 then s.copyReached x
    else if s.farOld x && !x.got then
      if x.why = 0 then s
      else
        let s1 := s.setRec { x with why := 0 }
        { s1 with aq := { s1.aq with far := s1.aq.far ++ [{ table := x.table, row := x.row, who := .update x.id }] } }
    else
      let d := s.td x.table
      let b := s.upd.batches.get { origin := .task 8 0 0, part := 0, descDa := 0, table := 0 } x.batch
      let q : UpdReq := { table := x.table, row := x.row, kind := x.kind, zst := x.zst && d.opt != 0, payload := x.payload,
                          opt := b.opt, src := b.src, epoch := x.epoch }
      let slot := if x.got then x.old else s.rowOld x.table d x.row
      let (out, s1) := s.applyUpdate q slot
      let drop := fun (st : State) => { st with upd := { st.upd with recs := st.upd.recs.filter fun (y : PendRec) => y.id != id } }
      match out with
      | .waits w => (s1.setRec { x with why := w }).irqIf (w != 1 || s.jfull (s.updStack x.table d x.row)) 8
      | .bad => (drop s1).updBatch x.batch fun b => { b with bad := b.bad + 1 }
      | .skipped => (drop s1).updBatch x.batch fun b => { b with skipped := b.skipped + 1 }
      | .applied f => (drop s1).updBatch x.batch fun b => { b with applied := b.applied + 1, flags := b.flags ||| f.bits }

/-- Bytes of a record's payload (R350). -/
def TD.payload (d : TD) (kind : Nat) : Nat :=
  match kind with | 0 => (d.rb + 7) / 8 * 8 | 3 => 0 | _ => 4 * d.w

/-- A range lies in enabled basin regions or declared reservoir ranges, where a batch's records may lie (R351). -/
def State.recordPlace (s : State) (da n : Nat) : Bool :=
  (List.range ((da + n - 1) / 64 + 1 - da / 64)).all fun i =>
    match s.place ((da / 64 + i) * 64) with | .basin _ => true | .host => true | _ => false

/-- A batch stops before its next record (R351). -/
def State.batchStop (s : State) (id st : Nat) : State := s.updBatch id fun b => { b with status := st, stopped := true }

/-- The fault record of a record that reads poisoned: the unit is what submitted the batch. -/
def State.batchFault (s : State) (b : Batch) : State :=
  match b.origin with
  | .queue q cid => s.queueFault q 0x0802 (some cid.toNat)
  | .task p _ _ => s.fault (mkFault 3 p 0x0802)

/-- The front end reads the next record of a batch and hands it to its update unit (R350, R351). -/
def State.takeRecord (s : State) (id : Nat) (b : Batch) : State :=
  let d := s.td b.table
  if !s.recordPlace b.nextDa 8 then s.batchStop id 3
  else
    let s0 := s.touch b.nextDa 8
    let rh := s0.readDA b.nextDa 8
    if rh.poison then (s0.batchFault b).batchStop id 4
    else
      let h := leAt rh.data 0 8
      let kind := h / 2 ^ 40 % 4
      let zst := h.testBit 42
      let n := d.payload kind
      if !(n == 0 || s0.recordPlace (b.nextDa + 8) n) then s0.batchStop id 3
      else
        let s1 := s0.touch (b.nextDa + 8) n
        let rp := s1.readDA (b.nextDa + 8) n
        if rp.poison then (s1.batchFault b).batchStop id 4
        else
          let r := h % 2 ^ 40
          let s2 := s1.updBatch id fun x => { x with taken := x.taken + 1, nextDa := x.nextDa + 8 + n }
          if d.n ≤ r ∨ 2 ^ 43 ≤ h ∨ (zst = true ∧ kind ≠ 0) ∨ (kind = 2 ∧ d.opt = 0) ∨ (kind = 3 ∧ d.hdr = false) then
            s2.updBatch id fun x => { x with bad := x.bad + 1 }
          else
            let e := s2.upd.accepting
            let x : PendRec := { id := s2.upd.nextRec, batch := id, table := b.table, row := r, kind := kind, zst := zst,
                                 payload := rp.data, epoch := e, why := if s2.updHeld b.table then 3 else 4 }
            let s3 := if s2.pl.replay
              then s2.mirror e (.update b.table r kind zst b.opt b.src rp.data) else s2
            ({ s3 with upd := { s3.upd with recs := s3.upd.recs ++ [x], nextRec := s3.upd.nextRec + 1 } }).stepRec x.id

/-- UPDATE_RECORD (R356). n = 0: the front end takes the next record of the first accepted batch that has one left.
n + 1: the update unit of the n-th waiting record takes it up again. -/
def execUpdateRecord (n : Nat) (s : State) : Res :=
  match n with
  | 0 =>
    if s.int.rbClosing.isSome then .next s else
    match s.upd.batches.find? fun kv => !kv.2.stopped && decide (kv.2.taken < kv.2.count) with
    | none => .next s
    | some kv =>
      let d := s.td kv.2.table
      match s.recall kv.2.nextDa (8 + max (max (d.payload 0) (d.payload 1)) (d.payload 2)) with
      | some s' => .next s'
      | none => .next (s.takeRecord kv.1 kv.2)
  | k + 1 =>
    match s.upd.recs[k]? with
    | none => .next s
    | some x => .next (s.stepRec x.id)

/-- UPDATE_READ_COMPLETE (R355): the n-th old row read from far that has arrived, or cannot arrive (R832). -/
def execUpdateReadComplete (n : Nat) (s : State) : Res :=
  match nthWhere (fun f => match f.who, f.stage with
    | .update _, .arrived _ => true | .update _, .failed => true | _, _ => false) s.aq.far n with
  | none => .next s
  | some i =>
    match s.aq.far[i]? with
    | none => .next s
    | some f =>
      let s1 := { s with aq := { s.aq with far := s.aq.far.eraseIdx i } }
      match s1.upd.recs.find? fun x => f.who == .update x.id with
      | none => .next s1
      | some x =>
        .next ((s1.setRec { x with got := true, why := 4, old := match f.stage with | .arrived b => some b | _ => none }).stepRec
          x.id)

/-- JOURNAL_SPACE_FREED (R372): the units of a stack that wait for journal space take their records up again. -/
def execJournalSpaceFreed (stack : Fin 12) (s : State) : Res :=
  .next ((s.upd.recs.filter fun x => x.why == 1 && s.updUnit x.table (s.td x.table) x.row / 8 == stack.val).foldl
    (fun st x => st.stepRec x.id) s)

/-! ### Completion and flips (R353, R367) -/

/-- Every record of a batch has been settled. -/
def State.batchDrained (s : State) (id : Nat) (b : Batch) : Bool :=
  (b.stopped || b.taken == b.count) && !(s.upd.recs.any fun x => x.batch == id)

/-- A flip begins: from here the table's records are held, so the mirror stream places it here (R367, R641). -/
def State.flipBegin (s : State) (f : Flip) : State :=
  ({ s with upd := { s.upd with flips := s.upd.flips ++ [f] } }).mirror s.upd.accepting
    (.command 0x1D [BitVec.ofNat 64 f.table] 0 0 [])

/-- BATCH_COMPLETE (R353, R349, R368): the n-th batch whose records are all settled. Its flip comes first; then it
reports, and a CLOSE closes the epoch. -/
def execBatchComplete (n : Nat) (s : State) : Res :=
  match (s.upd.batches.filter fun kv => s.batchDrained kv.1 kv.2)[n]? with
  | none => .next s
  | some (id, b) =>
    if b.flip then
      if b.flipWait || s.upd.flips.any (fun f => f.table == b.table) || s.int.rbClosing.isSome then .next s
      else
        let s1 := s.updBatch id fun x => { x with flipWait := true }
        .next (s1.flipBegin { table := b.table, batch := some id })
    else
      let s1 := ({ s with upd := { s.upd with batches := s.upd.batches.del id } }).batchReport b
      .next (if b.close then s1.closeEpoch none else s1).swapGo

/-- TBL_FLIP (R367). It waits behind another flip of the table, and behind a rollback (R682). -/
def execTblFlip (c : KCmd) (s : State) : Res :=
  let t := c.a0.toNat
  let d := s.td t
  if !d.serves then .next (s.done c stTblState)
  else if !d.pub then .next (s.done c stTblBad)
  else if s.upd.flips.any (fun f => f.table == t) || s.int.rbClosing.isSome then .next s
  else .next (s.flipBegin { table := t, cmd := some (c.q.val, c.cid) })

/-- FLIP_HOLD_DRAINED (R367 steps 2 and 3): the n-th flip whose earlier records are all applied. -/
def execFlipHoldDrained (n : Nat) (s : State) : Res :=
  match (s.upd.flips.filter fun f => !f.flipped)[n]? with
  | none => .next s
  | some f =>
    if s.upd.recs.any (fun x => x.table == f.table && x.why != 3) then .next s
    else .next { s with upd := { s.upd with
      pub := s.upd.pub.set f.table (!s.half f.table)
      flips := s.upd.flips.map fun (g : Flip) => if g = f then { g with flipped := true } else g } }

/-- Release the records that nothing holds any more. -/
def State.releaseHeld (s : State) : State :=
  let free := fun (x : PendRec) => if x.why == 3 && !s.updHeld x.table then { x with why := 4 } else x
  { s with upd := { s.upd with recs := s.upd.recs.map free } }

/-- Step 5 of the n-th flip that waits for markers: no list that latched the old half is in flight. -/
def State.flipMarkers (s : State) (n : Nat) : State :=
  match (s.upd.flips.filter fun f => f.flipped)[n]? with
  | none => s
  | some f =>
    if s.lk.lists.any (fun l => l.table == f.table && l.half != s.half f.table) then s
    else
      let s1 := { s with upd := { s.upd with flips := s.upd.flips.filter (· != f) } }
      let s2 := match f.batch with | some id => s1.updBatch id fun b => { b with flip := false } | none => s1
      let s3 := match f.cmd with | some (q, cid) => s2.complete q cid stSuccess | none => s2
      s3.releaseHeld

/-- MARKER_ROUND_COMPLETE (R245): the markers of the n-th waiting FTN_DROP (kind 0), bucket move (kind 1) or flip
(kind 2) have come from every dispatcher in service. -/
def execMarkerRoundComplete (kind : Fin 3) (n : Nat) (s : State) : Res :=
  match kind.val with
  | 0 => .next (s.ftnDropMarkers n)
  | 1 => .next (s.moveMarkers n)
  | _ => .next (s.flipMarkers n)

/-! ### Rebuilds and sweeps (R379, R672) -/

/-- Tables of a model that its digest covers. -/
def State.digestTables (s : State) (m : Nat) : List Nat :=
  s.tda.live.filter fun t => let d := s.td t; d.digest && d.model == m && d.serves

/-- Σ h over a model's tables, and whether a row could not be read. -/
def State.sweepModel (s : State) (m : Nat) : D128 × Bool :=
  (s.digestTables m).foldl (fun x t =>
    let y := s.sweepSum t (s.td t)
    (x.1 + y.1, x.2 || y.2)) (0, false)

/-- DGST_REBUILD (R379): the model's updates are held; once those accepted before are applied, its tables are swept and
D_m replaced. It waits while another rebuild or a rollback runs. -/
def execDgstRebuild (c : KCmd) (s : State) : Res :=
  let m := c.a0.toNat
  let me : Rebuild := { model := m, q := c.q.val, cid := c.cid }
  let s1 := if s.upd.rebuild.isNone && !s.int.rbClosing.isSome then { s with upd := { s.upd with rebuild := some me } } else s
  if s1.upd.rebuild = some me then
    if s1.upd.recs.any (fun x => (s1.td x.table).model == m && x.why != 3) then .next s1
    else
      let (sum, bad) := s1.sweepModel m
      let s2 := s1.digAdd hubUnit m (sum - SMap.digSum s1.upd.dig m)
      let s3 := { s2 with upd := { s2.upd with
        rebuild := none, broken := if bad then setInsert s2.upd.broken m else s2.upd.broken.filter (· != m) } }
      .next (s3.releaseHeld.done c stSuccess)
  else .next s1

/-! ### Registers (R382, R384, R387) -/

/-- Some table with DIGEST = 1 satisfies a test. -/
def State.digestedTable (s : State) (f : TD → Bool) : Bool := s.tda.live.any fun t => let d := s.td t; d.digest && f d

/-- A write of HUB_UPD_CTL (R382, R827). -/
def State.writeUpdCtl (s : State) (v : W32) : State :=
  let us := if field v 0 16 = 0 then 1 else field v 0 16
  let e0 := field v 16 7
  let e : BitVec 7 := if e0 = 0 then 1 else if 64 < e0.toNat then 64 else e0
  let barred := s.digestedTable TD.serves && e != s.upd.e
  let err := (s.upd.err && !bit v 24) || barred
  ({ s with upd := { s.upd with
    epochUs := us, auto := bit v 23, e := if barred then s.upd.e else e, err := err } }).epochTimer

/-- HUB_UPD_CTL_WRITE (R382). -/
def execHubUpdCtlWrite (p : AccessPath) (v : W32) (s : State) : Res := .next (s.onCsr p .hub (·.writeUpdCtl v))

/-- A write of HUB_DGS (R384, R827). -/
def State.writeDgs (s : State) (v : W32) : State :=
  let size : Byte := if field v 24 8 = 0 then 1 else field v 24 8
  if s.digestedTable fun _ => true then
    { s with upd := { s.upd with err := s.upd.err || field v 0 24 != s.upd.dgsBase || size != s.upd.dgsSize } }
  else { s with upd := { s.upd with dgsBase := field v 0 24, dgsSize := size, ring := [] } }

/-- HUB_DGS_WRITE (R384). -/
def execHubDgsWrite (p : AccessPath) (v : W32) (s : State) : Res := .next (s.onCsr p .hub (·.writeDgs v))

/-- A write of UU_JNL takes effect (R387). -/
def State.jnlWritable (s : State) (st : Nat) : Bool :=
  s.tda.live.all fun t =>
    let d := s.td t
    !d.serves || (d.opt == 0 && !(List.range d.n).any fun r => s.updStack t d r == st)

/-- A write of UU_JNL (R387, R827). -/
def State.writeJnl (s : State) (st : Nat) (v : W32) : State :=
  let size : Byte := if field v 24 8 = 0 then 1 else field v 24 8
  let u := s.uuStack st
  if s.jnlWritable st then
    let s1 := s.updUu st fun x => { x with base := field v 0 24, size := size, wp := 0, kept := [] }
    if u.kept.isEmpty then s1 else { s1 with upd := { s1.upd with journalFrom := s1.upd.accepting } }
  else s.updUu st fun x => { x with werr := x.werr || field v 0 24 != u.base || size != u.size }

/-- UU_JNL_WRITE (R387). -/
def execUuJnlWrite (p : AccessPath) (stack : Fin 12) (v : W32) (s : State) : Res :=
  .next (s.onCsr p (.stack stack.val) (·.writeJnl stack.val v))

end Sys2Proof.Machine
end

