-- ==== Sys2Proof/Machine/Recover.lean ====
section
/-! DEFINITION. What partitions, their sequences and their work lists go through when something ends: notices (R545),
completion of work lists (R473, R546), context teardown (R547), partition reset (R548), compute-die reset (R666) and the
escalation ladder (R665–R667). -/
namespace Sys2Proof.Machine
open Sys2Proof

/-! ### Active Sequence Table entries (R532, R533, R545) -/

def State.astE (s : State) (i : Nat) : AstEntry := s.sc.ast.get {} i
def State.updAst (s : State) (i : Nat) (f : AstEntry → AstEntry) : State :=
  { s with sc := { s.sc with ast := s.sc.ast.upd {} i f } }

/-- Entries of a partition, by index from 0. -/
def Part.owns (p : Part) (i : Nat) : Bool := decide (i < p.astCount.toNat)
def Part.entry (p : Part) (i : Nat) : Nat := p.astBase.toNat + i

def AstState.waiting : AstState → Bool
  | .ready | .decode | .finish => true
  | _ => false

def Nstat.code : Nstat → Nat
  | .ok => 0 | .torn => 1 | .expired => 2 | .reset => 3 | .abort => 4

/-- The entries of a partition that are not FREE, by index from 0. -/
def State.used (s : State) (p : Nat) : List Nat :=
  (s.sc.ast.filter fun kv => (s.part p).astBase.toNat ≤ kv.1
    && kv.1 < (s.part p).astBase.toNat + (s.part p).astCount.toNat && kv.2.st != .free).map fun (kv : Nat × AstEntry) =>
      kv.1 - (s.part p).astBase.toNat

/-- A finish notice (R545). -/
def noticeBytes (i now : Nat) (n : Nstat) : List Byte :=
  [0, 0, BitVec.ofNat 8 n.code, 0] ++ leBytes 2 i ++ [0, 0] ++ leBytes 8 now ++ List.replicate 48 0

/-- Entry i of partition p goes into DONE, or to FREE where it is cancelled (R533). -/
def State.astDone (s : State) (p i : Nat) (n : Nstat) : State :=
  let e := s.astE ((s.part p).entry i)
  if e.cancel then s.updAst ((s.part p).entry i) fun _ => {}
  else
    (s.updAst ((s.part p).entry i) fun x => { x with st := .done, nstat := n }).updPart p fun x =>
      { x with notices := x.notices ++ [{ pair := e.owner, bytes := noticeBytes i s.time.now n }] }

/-! ### Step-builder lists (R544–R546) -/

/-- DA of a batch slot (R544, R557). -/
def Part.slotDA (p : Part) (k : Nat) : Nat := p.baBase.toNat * 65536 + 16384 * k

/-- STOP of a beam record (R540); a record that cannot be read gives a free value. -/
def State.stopBit (s : State) (da : Nat) : Bool × State :=
  let r := s.readDA da 8
  if r.clean then ((leNat r.data).testBit 0, s) else s.drawBit

/-- One entry of a completed step-builder list (R533). -/
def State.sbEntry (s : State) (p kind : Nat) (n : Nstat) (i : Nat) : State :=
  let a := (s.part p).entry i
  let e := s.astE a
  if e.st != .run then s
  else if n != .ok || kind != 1 || e.cancel then s.astDone p i n
  else
    let (stop, s1) := s.stopBit e.outDa
    let last := stop || e.step + 1 == e.levels
    s1.updAst a fun x => { x with step := x.step + 1, st := if last then .finish else .decode, since := s.time.now }

/-- A step-builder list completes: its entries advance in record order, and its slot is free (R546). -/
def State.sbFinish (s : State) (p : Nat) (l : SbList) (n : Nstat) : State :=
  let s1 := s.updPart p fun x => { x with lists := x.lists.filter fun (y : SbList) => y.slot != l.slot }
  l.entries.foldl (fun st i => st.sbEntry p l.kind n i) s1

/-! ### Work lists (R473, R474) -/

/-- Cores of an entry, by core index. -/
def WlEntry.list (e : WlEntry) (cluster : Nat) : List Nat :=
  ((List.range 12).filter fun c => e.cores.getLsbD c).map fun c => 12 * cluster + c

/-- The report of a work list's completion: to the task's handle, and to the step builder (R473, R546). -/
def State.wlReport (s : State) (w : WorkList) (n : Nstat) : State :=
  let s1 := match w.task with
    | some (sl, h) => s.setHandle w.pair sl h (if n == .ok then .complete else .torn)
    | none => s
  let mark := fun (p : Part) (l : SbList) =>
    if l.issued && !l.fin && p.slotDA l.slot == w.batchDa then { l with fin := true, nst := n } else l
  if w.sb then s1.updPart w.part fun p => { p with lists := p.lists.map (mark p) } else s1

/-- Take `k` streams off a work list; when none is left, it completes. -/
def State.wlLess (s : State) (id k : Nat) (torn : Bool) : State :=
  match s.co.wls.find id with
  | none => s
  | some w =>
    let w1 := { w with left := w.left - k, torn := w.torn || torn }
    if w1.left = 0 ∧ w1.toArrive.isEmpty then
      ({ s with co := { s.co with wls := s.co.wls.del id } }).wlReport w1 (if w1.torn then .torn else .ok)
    else { s with co := { s.co with wls := s.co.wls.set id w1 } }

/-- A work list completes at once as torn: what of it waits or runs anywhere is gone. -/
def State.wlTear (s : State) (id : Nat) (n : Nstat) : State :=
  match s.co.wls.find id with
  | none => s
  | some w =>
    let clu := s.co.clu.map fun (kv : Nat × Cluster) =>
      (kv.1, { kv.2 with wq := kv.2.wq.filter fun (e : WlEntry) => e.wl != id })
    let core := s.co.core.map fun (kv : Nat × TCore) =>
      (kv.1, if kv.2.stream = some id then { kv.2 with stream := none } else kv.2)
    ({ s with co := { s.co with wls := s.co.wls.del id, clu := clu, core := core } }).wlReport w n

/-- A core runs a stream. -/
def State.streams (s : State) (p : Nat) : List Nat :=
  (s.co.core.filter fun kv => kv.2.stream.isSome && (s.part p).cl.getLsbD (coreCluster kv.1)).map Prod.fst

/-- Work lists with a started stream in the partition. -/
def State.startedLists (s : State) (p : Nat) : List Nat :=
  (s.streams p).foldl (fun l k => match (s.tcore k).stream with | some w => setInsert l w | none => l) []

/-! ### Cores at a teardown or reset -/

/-- New-context values (R420); the recorded exception and the counters of R415 stay (R452). -/
def TCore.newContext (c : TCore) : TCore :=
  { ({} : TCore) with exc := c.exc, acnt := c.acnt, bubl := c.bubl, bcnt := c.bcnt, stream := c.stream }

/-- What a core does stops: outputs not written are lost, and transfers stop at a block boundary (R547 step 1). -/
def TCore.halt (c : TCore) : TCore :=
  { c with
    stopped := true, mq := [], run := none, stgQ := [], xfer := [], defq := [], bar := none, waitDue := none
    staging := match c.staging with | .loading _ => .free | x => x }

/-- Change every listed core of a partition's clusters. -/
def State.mapCores (s : State) (cl : Nat → Bool) (f : TCore → TCore) : State :=
  let one := fun (kv : Nat × TCore) => if cl (coreCluster kv.1) then (kv.1, f kv.2) else kv
  { s with co := { s.co with core := s.co.core.map one } }

/-- Signals to some clusters' cores are discarded (R515). -/
def State.dropSignals (s : State) (cl : Nat → Bool) : State :=
  { s with co := { s.co with signals := s.co.signals.filter fun (g : Signal) => !cl (coreCluster g.dst) } }

/-- The history cache of some clusters is cleared (R538). -/
def State.dropHist (s : State) (cl : Nat → Bool) : State :=
  let again := fun (x : Nat × Nat × Nat × Bool) => if cl x.1 then (x.1, x.2.1, x.2.2.1, true) else x
  let list := fun (l : SbList) => { l with stage := l.stage.map again }
  let one := fun (kv : Nat × Part) => (kv.1, { kv.2 with lists := kv.2.lists.map list })
  { s with sc := { s.sc with
      hist := s.sc.hist.filter fun (kv : Nat × HistTag) => !cl (kv.1 / 128)
      parts := s.sc.parts.map one } }

def State.clearTags (s : State) (cl : Nat → Bool) : State :=
  { s with sc := { s.sc with tags := s.sc.tags.filter fun (kv : Nat × Nat) => !cl (kv.1 / 128) } }

/-- The running context of a partition loses any saved copy (R529, R547). -/
def State.unsave (s : State) (m : Nat) : State :=
  match s.sc.models.find m with
  | some x => { s with sc := { s.sc with models := s.sc.models.set m { x with saved := false, savedCores := [] } } }
  | none => s

/-! ### Resets of clusters -/

/-- Clusters are reset: cores, sequencers, dispatchers, stores and tags (R548 step 3). -/
def State.clearClusters (s : State) (cl : Nat → Bool) : State :=
  let gone := fun (a : Nat) =>
    (decide (cisternBase ≤ a ∧ a < cisternBase + 100 * (8 * mib)) && cl ((a - cisternBase) / (8 * mib)))
    || (decide (coreStoreBase ≤ a ∧ a < coreStoreBase + 1200 * mib) && cl ((a - coreStoreBase) / mib / 12))
  let s1 := ((s.cutLists cl).dropSignals cl).clearTags cl |>.dropHist cl
  { s1 with
    mem := { s1.mem with
      cells := s1.mem.cells.filter fun kv => !gone kv.1
      poison := s1.mem.poison.filter fun l => !gone (64 * l) }
    co := { s1.co with
      core := s1.co.core.filter fun (kv : Nat × TCore) => !cl (coreCluster kv.1)
      clu := s1.co.clu.filter fun (kv : Nat × Cluster) => !cl kv.1 } }

/-- A map's entry, changed where its key is among some. -/
def entryIf {α : Type} (p : Nat → Bool) (f : α → α) (kv : Nat × α) : Nat × α := if p kv.1 then (kv.1, f kv.2) else kv

/-- The stack blocks of some stacks are reset with their die (R693, R783, R785): counters, error bits and MC_CTL return to
their reset values, and caches and sketches are empty. What says where a directory, fountain area, pool ring and journal
lie stays, since the die serves their rows again (R666), and so do the use counts (R160). Assumption log entry 134. -/
def State.clearStacks (s : State) (gone : Nat → Bool) : State :=
  { s with
    mc := s.mc.map (entryIf gone fun r => { trainRetired := r.trainRetired })
    ch := s.ch.map fun (kv : Nat × Channel) => if gone (kv.1 / 32) then (kv.1, { kv.2 with corr := 0, uncorr := 0, ode := 0 }) else kv
    cx := s.cx.map (entryIf gone fun x => { use := x.use })
    uu := s.uu.map (entryIf gone fun u => { u with werr := false, rows := 0 })
    lk := { s.lk with
      luRows := s.lk.luRows.filter fun (kv : Nat × W32) => !gone kv.1
      luRem := s.lk.luRem.filter fun (kv : Nat × Nat) => !gone kv.1 }
    bd := { s.bd with
      st := s.bd.st.map (entryIf gone fun b => { b with
        cfgErr := false, load := 0, loadRem := 0, setPois := 0, full := 0, abandon := 0, rload := [], rloadRem := [], recent := [] })
      sketches := s.bd.sketches.map fun (kv : Nat × Sketch) => if gone kv.2.stack then (kv.1, { kv.2 with ctr := [] }) else kv } }

/-- Block numbers of idle requests (R709): partitions 0 to 15, dies from 16, pairs from 32, the steward 48. -/
abbrev blkDie (d : Nat) : Nat := 16 + d
abbrev blkPair (n : Nat) : Nat := 32 + n
abbrev blkSteward : Nat := 48

/-- RSTC_IDLE_TIMEOUT in ns: values below 1,000 read back as 1,000 (R717). -/
def ResetState.idleNs (r : ResetState) : Nat := max 1000 r.idleTmo.toNat

/-- An idle request is sent, with the timeout in force (R709, R717). -/
def State.idleRequest (s : State) (b : Nat) : State :=
  { s with rst := { s.rst with idleReqs := s.rst.idleReqs.set b (s.time.now + s.rst.idleNs) } }
def State.idleEnd (s : State) (b : Nat) : State :=
  { s with rst := { s.rst with idleReqs := s.rst.idleReqs.del b } }

/-- Count a block reset (R711). -/
def State.countBlock (s : State) (code : Nat) : State :=
  { s with bak := { s.bak with cnt := s.bak.cnt.upd 0 code satInc } }

/-- The record of a recovery begun (R829). -/
def State.recovery (s : State) (rung p cls inst : Nat) : State :=
  s.fault { mkFault cls inst (0x0C00 + rung) with rung := rung, part := p }

/-- Every work list in flight of a partition completes as torn, and its entries follow with a status (R548 step 4). -/
def State.tearAll (s : State) (p : Nat) (n : Nstat) : State :=
  let s1 := (s.co.wls.filter fun kv => kv.2.part == p).foldl (fun st kv => st.wlTear kv.1 n) s
  (s1.part p).lists.foldl (fun st l => st.sbFinish p l n) s1

/-- A partition enters RESETTING; a reset under way goes on with its first entry state. -/
def State.enterReset (s : State) (p : Nat) : State :=
  let pt := s.part p
  let s1 := s.updPart p fun x => { x with
    st := .resetting, prev := if pt.st == .resetting then pt.prev else pt.st
    teardown := false, switching := none, halted := false, downAt := s.time.now }
  (s1.mapCores (fun c => pt.cl.getLsbD c) TCore.halt).irqEvent 5

/-- Partitions that hold a cluster of a die. -/
def State.partsOnDie (s : State) (d : Nat) : List Nat :=
  (List.range 16).filter fun p =>
    (s.part p).st.holds && (List.range 25).any fun k => (s.part p).cl.getLsbD (25 * d + k)

def State.diesOf (s : State) (p : Nat) : List Nat :=
  (List.range 4).filter fun d => (List.range 25).any fun k => (s.part p).cl.getLsbD (25 * d + k)

/-- A compute-die reset begins (R666): every partition on the die enters RESETTING. A second one of a die within 10 s is
a device reset, and a fault on a die held in its reset is absorbed (R667). -/
def State.dieReset (s : State) (d : Nat) (cls : Nat := 8) (inst : Nat := 9) : State :=
  let again := match s.rst.lastDieRst.find d with
    | some t => decide (s.time.now < t + 10000000000)
    | none => false
  if s.rst.dieRst.contains d || (s.rst.idleReqs.find (blkDie d)).isSome then s
  else if again then s.deviceReset 6
  else
    let ps := s.partsOnDie d
    let inst' := if inst = 9 then d else inst
    let s1 := (s.recovery 3 0xFF cls inst').countBlock 10
    let s2 := ps.foldl (fun st p => ((st.enterReset p).idleEnd p).tearAll p .reset) s1
    let s3 := { s2 with rst := { s2.rst with lastDieRst := s2.rst.lastDieRst.set d s.time.now } }
    s3.idleRequest (blkDie d)

/-- A partition reset begins (R548); a fault in a partition that is being reset climbs to its dies (R667). -/
def State.partReset (s : State) (p : Nat) (cls : Nat := 8) (inst : Nat := 9) : State :=
  let pt := s.part p
  if pt.st == .resetting then (s.diesOf p).foldl (fun st d => st.dieReset d) s
  else
    let inst' := if inst = 9 then (s.diesOf p).headD 4 else inst
    let s1 := ((s.recovery 2 p cls inst').countBlock 11).updPart p fun x => { x with resets := satInc x.resets }
    (s1.enterReset p).idleRequest p

/-- A context teardown begins (R547 steps 1 and 2): streams stop, signals are discarded, and lookup lists lose their
context. A second fault during one is a partition reset. -/
def State.teardown (s : State) (p : Nat) (cls inst : Nat) (exc : Bool := false) : State :=
  let pt := s.part p
  let mine := fun (c : Nat) => pt.cl.getLsbD c
  if !pt.st.holds then s
  else if pt.st == .resetting || pt.teardown then s.partReset p cls inst
  else
    let s0 := if pt.switching.isSome && pt.ctxV then s.unsave pt.ctx.toNat else s
    let s1 := (s0.recovery 1 p cls inst).updPart p fun x => { x with
      teardown := true, teardowns := satInc x.teardowns, downAt := s.time.now, downExc := exc
      switching := none }
    ((s1.mapCores mine TCore.halt).dropSignals mine).tearLists mine

/-- A fault of a unit in a cluster: the context it belongs to is torn down; with no partition there is none. -/
def State.tearCluster (s : State) (c : Nat) (cls inst : Nat) : State :=
  match s.partOf c with
  | some p => s.teardown p cls inst
  | none => s

/-- Steps 1 and 2 of a teardown are done: no list of its context is left in the dispatchers and lookup units (R547). -/
def State.teardownReady (s : State) (p : Nat) : Bool :=
  (s.part p).teardown && !s.lk.lists.any (fun l => (s.part p).cl.getLsbD l.cluster)

/-- PART_STOP takes hold (R524): admission closes, and ABORT ends waiting entries and the context. -/
def State.stopNow (s : State) (p : Nat) (c : StopCmd) : State :=
  let s1 := s.updPart p fun x => { x with st := .stopping, stop := some c, stopWait := none }
  if c.abort then
    let s2 := (s1.used p).foldl (fun st i =>
      if (st.astE ((st.part p).entry i)).st.waiting then st.astDone p i .abort else st) s1
    if (s2.part p).ctxV || !(s2.streams p).isEmpty then s2.teardown p 0 c.q else s2
  else s1

/-- A PART_STOP that waited for a switch or a teardown takes effect (R549). -/
def State.stopResume (s : State) (p : Nat) : State :=
  match (s.part p).stopWait with
  | some c => if (s.part p).st == .running then s.stopNow p c else s.updPart p fun x => { x with stopWait := none }
  | none => s

/-- The rest of a teardown (R547 steps 3 to 5); where a stop has been forced, every work list of the partition ends with it
(R524). -/
def State.teardownEnd (s : State) (p : Nat) : State :=
  let pt := s.part p
  let mine := fun (c : Nat) => pt.cl.getLsbD c
  let forced := match pt.stop with | some c => c.forced | none => false
  let all := (s.co.wls.filter fun (kv : Nat × WorkList) => kv.2.part == p).map Prod.fst
  let lists := if forced then all else s.startedLists p
  let ctxLists := pt.lists.filter fun (l : SbList) => forced || (pt.ctxV && l.model == pt.ctx.toNat)
  let daOf := fun (l : SbList) => pt.slotDA l.slot
  let sbIds := (s.co.wls.filter fun kv => kv.2.part == p && kv.2.sb && (ctxLists.any fun l => l.issued && daOf l == kv.2.batchDa)).map
    Prod.fst
  let s1 := if pt.ctxV then s.unsave pt.ctx.toNat else s
  let s2 := ((s1.dropHist mine).clearTags fun c => pt.sramBad.contains c).mapCores mine TCore.newContext
  let noBars := fun (kv : Nat × Cluster) => if mine kv.1 then (kv.1, { kv.2 with bars := [] }) else kv
  let s3 := { s2 with co := { s2.co with clu := s2.co.clu.map noBars } }
  let s4 := (lists ++ sbIds).foldl (fun st id => st.wlTear id .torn) s3
  let torn := (s4.part p).lists.filter fun (l : SbList) => l.fin && l.nst == .torn
  let s5 := (torn ++ ctxLists).foldl (fun st l =>
    if (st.part p).lists.any (fun (x : SbList) => x.slot == l.slot) then st.sbFinish p l .torn else st) s4
  (s5.updPart p fun x => { x with
    teardown := false, ctxV := false, ctx := 0, sramBad := [], downExc := false, stuck := 0 }).stopResume p

/-- A partition reset ends (R548 steps 3 to 5). -/
def State.partResetEnd (s : State) (p : Nat) : State :=
  let pt := s.part p
  let mine := fun (c : Nat) => pt.cl.getLsbD c
  let s1 := if pt.ctxV then s.unsave pt.ctx.toNat else s
  let s2 := ((s1.tearAll p .reset).clearClusters mine).idleEnd p
  (s2.updPart p fun x => { x with
    st := pt.prev, teardown := false, ctxV := false, ctx := 0, sramBad := [], downExc := false, stuck := 0 }).stopResume p

/-- An uncorrectable word of a core store or cistern (R39, R547, R663). -/
def State.sramFault (s : State) (c : Nat) (core : Option Nat) : State :=
  let s0 := match s.partOf c with
    | some p => s.updPart p fun x => { x with sramBad := setInsert x.sramBad c }
    | none => s
  let part := (s.partOf c).getD 0xFF
  match core with
  | some k =>
    ((s0.fault { mkFault 1 k 0x0401 with rung := 1, part := part }).chargeUnit .core k).tearCluster c 1 k
  | none => ((s0.fault { mkFault 2 c 0x0402 with rung := 1, part := part }).chargeUnit .cluster c).tearCluster c 2 c

end Sys2Proof.Machine
end

