-- ==== Sys2Proof/Machine/Operands.lean ====
section
/-! DEFINITION. Core instructions: their fields, how they form addresses, how a bundle issues, the order in which they
reach memory, and exceptions (R417–R423, R441–R448, R506). -/
namespace Sys2Proof.Machine
open Sys2Proof

/-! ### Fields -/

/-- Bits [hi:lo] of an instruction word, as a number. -/
def bits (w : BitVec 56) (hi lo : Nat) : Nat := w.toNat / 2 ^ lo % 2 ^ (hi + 1 - lo)

/-- The mask of a list of (hi, lo) fields. -/
def fieldMask (fs : List (Nat × Nat)) : Nat := (fs.map fun f => 2 ^ (f.1 + 1) - 2 ^ f.2).sum

/-- Every bit outside the named fields is zero (R417). -/
def onlyFields (w : BitVec 56) (fs : List (Nat × Nat)) : Bool := w &&& ~~~(BitVec.ofNat 56 (fieldMask fs)) == 0

/-- A two's complement field. -/
def sbits (w : BitVec 56) (hi lo : Nat) : Int := toSigned (hi + 1 - lo) (bits w hi lo)

/-! ### Registers (R420) -/

/-- s0 reads as zero. -/
def TCore.sreg (c : TCore) (i : Nat) : W64 := if i = 0 then 0 else c.s.get 0 i
def TCore.setS (c : TCore) (i : Nat) (v : W64) : TCore := if i = 0 then c else { c with s := c.s.set i v }
/-- The s registers as the V slot of a bundle reads them (R418). -/
def TCore.sregV (c : TCore) (i : Nat) : W64 := if i = 0 then 0 else c.sOld.get 0 i
/-- p0 reads as all ones. -/
def TCore.preg (c : TCore) (i : Nat) : W64 := if i = 0 then BitVec.allOnes 64 else c.p.get 0 i
def TCore.setP (c : TCore) (i : Nat) (v : W64) : TCore := if i = 0 then c else { c with p := c.p.set i v }
/-- Lane i of register r. -/
def TCore.vlane (c : TCore) (r i : Nat) : W32 := c.v.get 0 (64 * r + i)
def TCore.setV (c : TCore) (r i : Nat) (x : W32) : TCore := { c with v := c.v.set (64 * r + i) x }
/-- CORE_STS flags are sticky (R409). -/
def TCore.orFlags (c : TCore) (f : ArithFlags) : TCore := { c with flags := c.flags ||| BitVec.ofNat 6 f.bits }

/-! ### Outcomes of an instruction -/

/-- What executing an instruction gives: a new state, a wait that holds issue, or a precise exception with its
address. -/
inductive CoreOut where
  | ok (s : State)
  | wait
  | raise (code : Nat) (addr : Nat)
deriving Repr

/-! ### Exceptions (R444–R448) -/

/-- CORE_STS (R414). -/
def TCore.stsReg (c : TCore) : W32 :=
  regOf [(0, c.flags.toNat), (6, c.k0.toNat),
    (8, match c.staging with | .free => 0 | .loading _ => 1 | .staged _ => 2), (10, c.run.isSome.toNat)]

/-- CORE_EXC (R452). -/
def CoreExc.reg (e : CoreExc) : W32 :=
  regOf [(0, e.code.toNat), (8, e.v.toNat), (9, e.slot.toNat), (10, e.defer.toNat), (11, e.more.toNat)]

/-- DA of a bundle (R453). -/
def bundleDA (k pc : Nat) : Nat := cisternDA (coreCluster k) pc

/-- The 16 bytes of a bundle as fetched or as they stand, with the word at issue in its slot. -/
def State.bundleBytes (s : State) (k pc : Nat) (slot : Bool) (w : W64) : List Byte :=
  let c := s.tcore k
  let b := match c.fbuf.find? fun e => e.1 == pc with
    | some e => e.2
    | none => cellsRead s.mem.cells (bundleDA k pc) 16
  if slot then b.take 8 ++ leBytes 8 w.toNat else leBytes 8 w.toNat ++ b.drop 8

/-- The record of an exception or a mismatch of a core (R446, R580, R833). -/
def State.coreFault (s : State) (k code rung pc : Nat) (slot : Bool) (w : W64) (addr : Option (Nat × Bool)) : State :=
  let c := s.tcore k
  let p := s.partOf (coreCluster k)
  let model := match p with
    | some p => if (s.part p).ctxV then (s.part p).ctx.toNat else 0xFF
    | none => 0xFF
  s.fault { mkFault 1 k code with
    rung := rung, part := p.getD 0xFF
    akind := match addr with | none => 0 | some a => if a.2 then 1 else 2
    addr := match addr with | none => 0 | some a => a.1
    cmdV := true
    cmd := leBytes 8 (bundleDA k pc) ++ s.bundleBytes k pc slot w ++ leBytes 4 c.exc.reg.toNat
    state := leBytes 4 c.stsReg.toNat ++ ((List.range 8).flatMap fun i => leBytes 4 (c.ctr.get 0 i).toNat)
      ++ leBytes 1 model ++ [0, 0, 0] ++ leBytes 8 (bundleDA k c.pc) }

/-- A core raises an exception (R446): issue stops, it is recorded, and the context is torn down. A further one sets
MORE; one during a teardown for another cause is only recorded (R448). -/
def State.coreExc (s : State) (k code : Nat) (slot defer : Bool) (pc : Nat) (w : W64) (addr : Option (Nat × Bool)) :
    State :=
  let c := s.tcore k
  if c.exc.v then s.updCore k fun x => { x with exc := { x.exc with more := true }, stopped := true }
  else
    let a := addr.getD (0, false)
    let s1 := s.updCore k fun x => { x with
      stopped := true, waitDue := none
      exc := { v := true, code := BitVec.ofNat 8 code, slot := slot, defer := defer, pc := BitVec.ofNat 52 (bundleDA k pc)
               addr := BitVec.ofNat 52 a.1, isDa := a.2 } }
    match s.partOf (coreCluster k) with
    | none => s1.coreFault k (0x0100 + code) 0 pc slot w addr
    | some p =>
      let pt := s.part p
      if pt.st == .resetting || (pt.teardown && !pt.downExc) then s1
      else
        let s2 := s1.coreFault k (0x0100 + code) 1 pc slot w addr
        if pt.teardown then s2 else s2.teardown p 1 k true

/-- An engine finds a deferred exception; it is raised at CORE_DEFERRED_EXCEPTION. -/
def State.deferExc (s : State) (k : Nat) (e : DeferExc) : State :=
  s.updCore k fun c => { c with defq := c.defq ++ [e] }

/-- A mismatch of a core sequencer (0x0301) or a residue mismatch (0x0304) in a core (R411, R663). -/
def State.coreMismatch (s : State) (k code : Nat) : State :=
  let c := s.tcore k
  let rung := if (s.partOf (coreCluster k)).isSome then 1 else 0
  let s1 := (s.coreFault k code rung c.pc false 0 none).chargeUnit .core k
  (s1.updCore k fun x => { x with stopped := true }).tearCluster (coreCluster k) 1 k

/-! ### Program order within a core (R442, R506) -/

/-- Where an instruction issued now stands. -/
def TCore.here (c : TCore) : Pos := { seq := c.nextSeq, fa := c.fa, fr := c.fr }

/-- Two ranges of core-store bytes share a line. -/
def rangesMeet (a b : Nat × Nat) : Bool :=
  a.2 != 0 && b.2 != 0 && decide (a.1 / 64 ≤ (b.1 + b.2 - 1) / 64 ∧ b.1 / 64 ≤ (a.1 + a.2 - 1) / 64)

def rangesAny (xs ys : List (Nat × Nat)) : Bool := xs.any fun a => ys.any fun b => rangesMeet a b

/-- What an instruction in flight still reads and writes of its core store. -/
structure Touch where
  pos : Pos
  reads : List (Nat × Nat) := []
  writes : List (Nat × Nat) := []
deriving Repr

/-! Parameters of an MMA (R428, R429). -/

def MmaReq.m (q : MmaReq) : Nat := bits q.w 55 50 + 1
def MmaReq.n (q : MmaReq) : Nat := bits q.w 49 45 + 1
def MmaReq.k (q : MmaReq) : Nat := bits q.w 44 37
def MmaReq.j0 (q : MmaReq) : Nat := bits q.w 36 31
def MmaReq.start (q : MmaReq) : Nat := bits q.w 30 29
def MmaReq.fin (q : MmaReq) : Bool := bits q.w 28 28 == 1
def MmaReq.crest (q : MmaReq) : Bool := bits q.w 27 27 == 1
def MmaReq.amode (q : MmaReq) : Nat := bits q.w 26 25
def MmaReq.abase (q : MmaReq) : Nat := (field q.sx 0 20).toNat
def MmaReq.astride (q : MmaReq) : Nat := (field q.sx 20 14).toNat
def MmaReq.ascale (q : MmaReq) : Nat := (field q.sx 34 20).toNat
def MmaReq.danchor (q : MmaReq) : Int := toSigned 10 (field q.sx 54 10).toNat
def MmaReq.obase (q : MmaReq) : Nat := (field q.sx1 0 20).toNat
def MmaReq.ostride (q : MmaReq) : Nat := (field q.sx1 20 14).toNat
def MmaReq.bias (q : MmaReq) : Nat := (field q.sx1 34 20).toNat
def MmaReq.biasV (q : MmaReq) : Bool := bit q.sx1 54
def MmaReq.ofmt (q : MmaReq) : Nat := (field q.sx1 55 5).toNat
def MmaReq.rm (q : MmaReq) : Rm := Rm.ofCode (field q.sx1 60 2).toNat
def MmaReq.sat (q : MmaReq) : Bool := bit q.sx1 62

/-- K_t, r and c of a legal format pair (R391). -/
def pairShape (a w : Nat) : Option (Nat × Nat × Nat) :=
  let four := fun (x : Nat) => x == 7 || x == 9 || x == 14
  let narrow := fun (x : Nat) => decide (3 ≤ x ∧ x ≤ 15)
  let half := fun (x : Nat) => x == 1 || x == 2
  if four a && four w then some (128, 1, 1)
  else if narrow a && narrow w then some (64, 1, 1)
  else if half a && half w then some (64, 2, 2)
  else none

def MmaReq.shape (q : MmaReq) : Nat × Nat × Nat := (pairShape q.afmt q.wfmt).getD (64, 1, 1)

/-- Offset of activation row m, and of output or absorb row m. -/
def MmaReq.aRow (q : MmaReq) (m : Nat) : Nat := q.abase + 64 * m * q.astride
def MmaReq.oRow (q : MmaReq) (m : Nat) : Nat := q.obase + 64 * m * q.ostride

def MmaReq.aRows (q : MmaReq) : List (Nat × Nat) := (List.range q.m).map fun m => (q.aRow m, 64 * q.shape.2.1)
def MmaReq.scales (q : MmaReq) : List (Nat × Nat) :=
  if isMx q.afmt then [(q.ascale, q.m * (q.shape.1 / 32))] else []
def MmaReq.biases (q : MmaReq) : List (Nat × Nat) := if q.fin && q.biasV then [(q.bias, 4 * q.n)] else []
def MmaReq.absorbs (q : MmaReq) : List (Nat × Nat) :=
  if q.start = 2 then (List.range q.m).map fun m => (q.oRow m, 32 * q.n) else []
def MmaReq.outs (q : MmaReq) : List (Nat × Nat) :=
  if q.fin then (List.range q.m).map fun m => (q.oRow m, q.n * outElemBytes q.ofmt) else []

def MmaReq.touch (q : MmaReq) : Touch :=
  { pos := q.pos, reads := q.aRows ++ q.scales ++ q.biases ++ q.absorbs, writes := q.outs }

/-- Lines of a tile image (R393). -/
def tileLines (n afmt wfmt : Nat) : Nat :=
  match pairShape afmt wfmt with
  | none => 0
  | some (kt, _, c) => n * c + (if isMx wfmt then (n * kt + 2047) / 2048 else 0)

def WstgReq.touch (r : WstgReq) : Touch := { pos := r.pos, reads := [(r.off, 64 * tileLines r.n r.afmt r.wfmt)] }

/-! Descriptors and entries of a block list (R491, R492). -/

structure BlockDesc where
  nblk : Nat
  chain : Bool
  blk : Nat
  next : Nat
deriving Repr

def descOf (b : List Byte) : BlockDesc :=
  { nblk := leAt b 0 2 % 4096 + 1, chain := (leAt b 2 1).testBit 0
    blk := leAt b 8 4 % 2 ^ 20 / 32 * 32, next := leAt b 12 4 % 2 ^ 20 / 64 * 64 }

structure BlockEntry where
  da : Nat
  csoff : Nat
  lines : Nat
  reps : Nat
  dstride : Int
  cstride : Int
  comma : Bool
  bcast : Bool
  bid : Nat
deriving Repr

def entryOf (b : List Byte) : BlockEntry :=
  let f := leAt b 24 1
  { da := leAt b 0 8 % 2 ^ 52 / 64 * 64, csoff := leAt b 8 4 % 2 ^ 20 / 64 * 64
    lines := leAt b 12 2 % 1024 + 1, reps := leAt b 14 2 + 1
    dstride := toSigned 32 (leAt b 16 4), cstride := toSigned 32 (leAt b 20 4)
    comma := f.testBit 0, bcast := f.testBit 1, bid := f / 4 % 16 }

/-- DA of repetition i, as a 52-bit number, and its core-store offset. -/
def BlockEntry.daAt (e : BlockEntry) (i : Nat) : Nat := (((e.da : Int) + 64 * i * e.dstride) % 2 ^ 52).toNat
def BlockEntry.csAt (e : BlockEntry) (i : Nat) : Nat := (((e.csoff : Int) + 64 * i * e.cstride) % 2 ^ 20).toNat

/-- The core-store ranges of one block: it continues at offset 0 past the end of the store (R492). -/
def csRanges (off n : Nat) : List (Nat × Nat) :=
  if off + n ≤ mib then [(off, n)] else [(off, mib - off), (0, n - (mib - off))]

/-- A DA range's part in a core's own store. -/
def ownRange (k da n : Nat) : List (Nat × Nat) :=
  let b := coreStoreDA k 0
  let lo := max da b
  let hi := min (da + n) (b + mib)
  if lo < hi then [(lo - b, hi - lo)] else []

/-- Ranges that blocks i … of an entry touch: in the core's store at CSOFF, and in it by DA. -/
def BlockEntry.ranges (e : BlockEntry) (k i : Nat) : List (Nat × Nat) × List (Nat × Nat) :=
  ((List.range (e.reps - i)).flatMap fun j => csRanges (e.csAt (i + j)) (64 * e.lines),
   (List.range (e.reps - i)).flatMap fun j => ownRange k (e.daAt (i + j)) (64 * e.lines))

/-- Raw bytes of a core's store. -/
def State.csRaw (s : State) (k off n : Nat) : List Byte := cellsRead s.mem.cells (coreStoreDA k off) n

/-- What the rest of a descriptor chain touches: lines of lists read, ranges at CSOFF, ranges by DA. A core store holds
16,384 places for descriptors, so a longer chain repeats itself. -/
def State.chainRanges (s : State) (k : Nat) : Nat → Nat → Nat → List (Nat × Nat) × List (Nat × Nat) × List (Nat × Nat)
  | 0, _, _ => ([], [], [])
  | fuel + 1, d, e0 =>
    let desc := descOf (s.csRaw k d 64)
    let es := (List.range (desc.nblk - e0)).map fun j => entryOf (s.csRaw k ((desc.blk + 32 * (e0 + j)) % mib) 32)
    let rest := if desc.chain then s.chainRanges k fuel desc.next 0 else ([], [], [])
    ((d, 64) :: csRanges (desc.blk + 32 * e0) (32 * (desc.nblk - e0)) ++ rest.1,
     (es.flatMap fun e => (e.ranges k 0).1) ++ rest.2.1,
     (es.flatMap fun e => (e.ranges k 0).2) ++ rest.2.2)

/-- What a transfer still touches. -/
def State.xferTouch (s : State) (k : Nat) (x : Xfer) : Touch :=
  if x.moved then { pos := x.pos }
  else
    let cur := match x.entry with
      | some b => (entryOf b).ranges k x.rep
      | none => ([], [])
    let (l, c, d) := match x.dsc with
      | none => s.chainRanges k 16384 x.desc 0
      | some b =>
        let ds := descOf b
        let e0 := x.ent + (if x.entry.isSome then 1 else 0)
        let es := (List.range (ds.nblk - e0)).map fun j => entryOf (s.csRaw k ((ds.blk + 32 * (e0 + j)) % mib) 32)
        let rest := if ds.chain then s.chainRanges k 16384 ds.next 0 else ([], [], [])
        (csRanges ((ds.blk + 32 * e0) % mib) (32 * (ds.nblk - e0)) ++ rest.1,
         (es.flatMap fun e => (e.ranges k 0).1) ++ rest.2.1, (es.flatMap fun e => (e.ranges k 0).2) ++ rest.2.2)
    if x.push then { pos := x.pos, reads := l ++ cur.1 ++ c, writes := cur.2 ++ d }
    else { pos := x.pos, reads := l ++ cur.2 ++ d, writes := cur.1 ++ c }

/-- Transfers of a core, in every channel. -/
def TCore.xfers (c : TCore) : List Xfer := c.xfer.flatMap fun kv => kv.2

/-- Everything a core has in flight (R442). -/
def State.inFlightTouch (s : State) (k : Nat) : List Touch :=
  let c := s.tcore k
  (c.mq.map MmaReq.touch)
    ++ (match c.run with | some r => [{ pos := r.req.pos, writes := r.req.outs }] | none => [])
    ++ (c.stgQ.map WstgReq.touch)
    ++ (match c.staging with | .loading r => [r.touch] | _ => [])
    ++ (c.xfers.map (s.xferTouch k))

/-- An access at a place in program order must wait: for a line that an earlier instruction has not finished with, or for
a fence after an earlier access (R442, R506). -/
def State.coreHeld (s : State) (k : Nat) (pos : Pos) (reads writes : List (Nat × Nat)) (anyWrite : Bool) : Bool :=
  (s.inFlightTouch k).any fun t =>
    decide (t.pos.seq < pos.seq) &&
      (rangesAny writes t.reads || rangesAny writes t.writes || rangesAny reads t.writes
        || (decide (t.pos.seq < pos.fa) && !t.reads.isEmpty) || (anyWrite && decide (t.pos.seq < pos.fr)))

/-- The writes of a transfer have been performed: none waits for the host (R493, R604, R606). -/
def State.performed (s : State) (dests : List (Nat × Nat)) : Bool :=
  !dests.any fun d =>
    s.host.biWait.any (fun w => w.write && decide (d.1 / 64 ≤ w.da / 64 ∧ w.da < d.1 + d.2))
    || s.host.cacheReqs.any (fun r => decide (d.1 / 64 * 64 ≤ rsvBase + r.hpa ∧ rsvBase + r.hpa < d.1 + d.2))

/-- Every earlier memory access of a core is performed (R506). -/
def State.accessesDone (s : State) (k : Nat) : Bool :=
  let c := s.tcore k
  c.mq.isEmpty && c.run.isNone && c.stgQ.isEmpty && (match c.staging with | .loading _ => false | _ => true)
    && c.xfers.isEmpty && c.defq.isEmpty

/-- Every earlier instruction of a core has completed, its lookups among them (R419, R443). -/
def State.coreDone (s : State) (k : Nat) : Bool :=
  s.accessesDone k && !s.lk.lists.any fun l => l.core == k

/-! ### Issue (R416–R419) -/

/-- The core may issue: nothing has stopped it, and its partition runs. -/
def State.coreRuns (s : State) (k : Nat) : Bool :=
  let c := s.tcore k
  let cl := coreCluster k
  !c.stopped && !c.exc.v && c.bar.isNone && decide (c.pc < 8 * mib) && !s.rst.dieRst.contains (clusterDie cl)
    && s.pwr.dstate == .d0 &&
    match s.partOf cl with
    | none => true
    | some p =>
      let pt := s.part p
      pt.st != .resetting && !pt.teardown && (c.vNext || c.step1 || (pt.snap.isNone && !pt.halted)) && pt.switching.isNone

/-- The bundle at issue is done with: control goes on, and a target outside the cistern is a FETCH exception (R444). -/
def State.closeBundle (s : State) (k : Nat) : State :=
  let c := s.tcore k
  let pc := c.npc.getD (c.pc + 16)
  let s1 := s.updCore k fun x => { x with
    pc := pc, npc := none, vNext := false, sOld := []
    fbuf := if c.npc.isSome && !(c.fbuf.any fun e => e.1 == pc) then [] else c.fbuf.filter fun e => e.1 != c.pc
    fpc := if c.npc.isSome && !(c.fbuf.any fun e => e.1 == pc) then pc else c.fpc
    fstop := if c.npc.isSome && !(c.fbuf.any fun e => e.1 == pc) then false else c.fstop }
  if pc < 8 * mib then s1
  else s1.deferExc k { code := 0x0C, pc := c.pc, w := 0, addr := (cisternDA (coreCluster k) pc) % 2 ^ 52, isDa := true }

/-- One more instruction has issued. -/
def TCore.issued (c : TCore) : TCore := { c with nextSeq := c.nextSeq + 1, waitDue := none }

/-- A whole word from its opcode and its low bits. -/
def wordOf (opc : Nat) (w : BitVec 56) : W64 := BitVec.ofNat 64 (opc * 2 ^ 56 + w.toNat)

/-- No progress at issue: the wait's start is kept for GLOBAL_TIMEOUT (R575). -/
def State.coreWait (s : State) (k : Nat) : State :=
  s.updCore k fun c => { c with waitDue := some (c.waitDue.getD s.gtoDue) }

/-- Issue an M-slot instruction: the bundle before it is closed, a sequencer comparison may find an injected mismatch
(R805), and the instruction takes effect, waits or raises. -/
def State.mSlot (s : State) (k opc : Nat) (w : BitVec 56) (fields : List (Nat × Nat)) (body : State → CoreOut) : Res :=
  if !s.coreRuns k || (s.tcore k).ended then .next s
  else
    let s1 := if (s.tcore k).vNext then s.closeBundle k else s
    if !s1.coreRuns k then .next s1
    else if s1.injFires 8 k then .next (s1.injDone.coreMismatch k 0x0301)
    else if (s1.tcore k).fbuf.any fun e => e.1 == (s1.tcore k).pc && e.2.isEmpty then
      .next (s1.coreExc k 0x0C false true (s1.tcore k).pc (wordOf opc w) (some (bundleDA k (s1.tcore k).pc, true)))
    else
      match (if onlyFields w fields then body s1 else .raise 1 0) with
      | .ok s2 => .next (s2.updCore k fun c => { c.issued with vNext := true, step1 := false, sOld := (s1.tcore k).s })
      | .wait => .next (s1.coreWait k)
      | .raise code addr =>
        .next (s1.coreExc k code false false (s1.tcore k).pc (wordOf opc w)
          (if code = 4 ∨ code = 5 then some (addr, false) else none))

/-- Issue a V-slot instruction: it ends its bundle. With no M slot issued for the bundle, that slot was a NOP. -/
def State.vSlot (s : State) (k opc : Nat) (w : BitVec 56) (fields : List (Nat × Nat)) (body : State → CoreOut) : Res :=
  if !s.coreRuns k || ((s.tcore k).ended && !(s.tcore k).vNext) then .next s
  else
    let s1 := if (s.tcore k).vNext then s else s.updCore k fun c => { c with sOld := c.s }
    match (if onlyFields w fields then body s1 else .raise 1 0) with
    | .ok s2 =>
      .next ((s2.updCore k fun c => { c.issued with step1 := c.step1 && c.vNext }).closeBundle k)
    | .wait => .next (s.coreWait k)
    | .raise code addr =>
      .next (s1.coreExc k code true false (s1.tcore k).pc (wordOf opc w)
        (if code = 4 ∨ code = 5 then some (addr, false) else none))

/-! ### Core-store accesses (R422) -/

/-- Register + IMM20 as a 64-bit sum. -/
def csAddr (base : W64) (imm : Int) : Nat := (base + BitVec.ofInt 64 imm).toNat

/-- ALIGN, then CS_RANGE, for an offset and a size. -/
def csCheck (off n align : Nat) : Option (Nat × Nat) :=
  if off % align ≠ 0 then some (4, off) else if mib < off + n then some (5, off) else none

/-- Read core-store bytes for an instruction: an injected error strikes here; none is an uncorrectable word (R663,
R805), and poison is the caller's. -/
def State.csRead (s : State) (k off n : Nat) : Option Rd × State :=
  if s.injFires 2 k then (none, s.injDone.sramFault (coreCluster k) (some k))
  else
    let s1 := if s.injFires 1 k then s.injDone.countCe .core k else s
    (some (s1.readDA (coreStoreDA k off) n), s1)

/-- Write core-store bytes. -/
def State.csWrite (s : State) (k off : Nat) (bs : List Byte) : State := s.writeDA (coreStoreDA k off) bs

/-- A read by an instruction at issue: its bytes go on, poison is DATA_POISON, deferred (R444). -/
def State.withCs (s : State) (k off n opc : Nat) (w : BitVec 56) (f : State → List Byte → State) : CoreOut :=
  match s.csRead k off n with
  | (none, s1) => .ok s1
  | (some r, s1) =>
    if r.poison then .ok (s1.deferExc k { code := 9, pc := (s1.tcore k).pc, w := wordOf opc w, addr := off })
    else .ok (f s1 r.data)

end Sys2Proof.Machine
end

