-- ==== Sys2Proof/Machine/CoreControl.lean ====
section
/-! DEFINITION. The M slot's control, scalar, counter, lookup, synchronisation and digest instructions (R419,
R425, R426, R436–R443, R499–R511), and the events of the fetch buffer, sluices, barriers and exceptions. -/
namespace Sys2Proof.Machine
open Sys2Proof

/-! ### Scalar operations (R426) -/

/-- Operation SUB of SOP, SOPI and the control cores' ALU; none where the value is reserved. -/
def aluOp (sub : Nat) (a b : W64) : Option W64 :=
  let sh := b.toNat % 64
  match sub with
  | 0 => some (a + b)
  | 1 => some (a - b)
  | 2 => some (a * b)
  | 3 => some (a &&& b)
  | 4 => some (a ||| b)
  | 5 => some (a ^^^ b)
  | 6 => some (a <<< sh)
  | 7 => some (a >>> sh)
  | 8 => some (a.sshiftRight sh)
  | 9 => some (if a.toInt < b.toInt then 1 else 0)
  | 10 => some (if a.toNat < b.toNat then 1 else 0)
  | _ => none

/-- A condition of BR and of the control cores' branches: 1 EQ, 2 NE, 3 LT, 4 GE, 5 LTU, 6 GEU. -/
def condHolds (cond : Nat) (a b : W64) : Bool :=
  match cond with
  | 0 => true
  | 1 => a == b
  | 2 => a != b
  | 3 => decide (a.toInt < b.toInt)
  | 4 => decide (b.toInt ≤ a.toInt)
  | 5 => decide (a.toNat < b.toNat)
  | _ => decide (b.toNat ≤ a.toNat)

/-- A 32-bit immediate, sign-extended. -/
def imm32 (w : BitVec 56) : W64 := BitVec.ofInt 64 (sbits w 31 0)

/-- Set an s register of the issuing core. -/
def State.putS (s : State) (k i : Nat) (v : W64) : State := s.updCore k fun c => c.setS i v

/-- NOP or VNOP (R417): the all-zero word of a slot. -/
def execCoreNop (core : Fin 1200) (v : Bool) (s : State) : Res :=
  if v then s.vSlot core.val 0 0 [] fun s => .ok s else s.mSlot core.val 0 0 [] fun s => .ok s

/-- END (R419): the stream ends once every earlier instruction has completed. -/
def execCoreEnd (core : Fin 1200) (w : BitVec 56) (s : State) : Res :=
  s.mSlot core.val 0x01 w [] fun s =>
    if s.coreDone core.val then .ok (s.updCore core.val fun c => { c with ended := true }) else .wait

/-- HOLD (R419): fetching goes on once every earlier instruction has completed. -/
def execHold (core : Fin 1200) (w : BitVec 56) (s : State) : Res :=
  s.mSlot core.val 0x02 w [] fun s =>
    if s.coreDone core.val then .ok (s.updCore core.val fun c => { c with fstop := false }) else .wait

/-- SOP (R425, R426). -/
def execSop (core : Fin 1200) (w : BitVec 56) (s : State) : Res :=
  s.mSlot core.val 0x08 w [(55, 51), (50, 46), (45, 41), (40, 37)] fun s =>
    let c := s.tcore core.val
    match aluOp (bits w 40 37) (c.sreg (bits w 50 46)) (c.sreg (bits w 45 41)) with
    | none => .raise 1 0
    | some v => .ok (s.putS core.val (bits w 55 51) v)

/-- SOPI (R425, R426). -/
def execSopi (core : Fin 1200) (w : BitVec 56) (s : State) : Res :=
  s.mSlot core.val 0x09 w [(55, 51), (50, 46), (40, 37), (31, 0)] fun s =>
    match aluOp (bits w 40 37) ((s.tcore core.val).sreg (bits w 50 46)) (imm32 w) with
    | none => .raise 1 0
    | some v => .ok (s.putS core.val (bits w 55 51) v)

/-- SLI (R425). -/
def execSli (core : Fin 1200) (w : BitVec 56) (s : State) : Res :=
  s.mSlot core.val 0x0A w [(55, 51), (48, 48), (31, 0)] fun s =>
    let d := bits w 55 51
    let old := (s.tcore core.val).sreg d
    .ok (s.putS core.val d
      (if bits w 48 48 = 1 then setField old 32 32 (BitVec.ofNat 32 (bits w 31 0)) else imm32 w))

/-- BR (R425): the target is this bundle's address + 16 × OFF. -/
def execBr (core : Fin 1200) (w : BitVec 56) (s : State) : Res :=
  s.mSlot core.val 0x0B w [(55, 53), (50, 46), (45, 41), (23, 0)] fun s =>
    let c := s.tcore core.val
    let cond := bits w 55 53
    if cond = 7 ∨ (cond = 0 ∧ bits w 50 41 ≠ 0) then .raise 1 0
    else if condHolds cond (c.sreg (bits w 50 46)) (c.sreg (bits w 45 41)) then
      let t := (((c.pc : Int) + 16 * sbits w 23 0) % 2 ^ 52).toNat
      .ok (s.updCore core.val fun c => { c with npc := some t })
    else .ok s

/-- LDS.S (R425): 8 bytes into an s register. -/
def execLdsS (core : Fin 1200) (w : BitVec 56) (s : State) : Res :=
  let k := core.val
  s.mSlot k 0x0C w [(55, 51), (50, 46), (19, 0)] fun s =>
    let c := s.tcore k
    let off := csAddr (c.sreg (bits w 50 46)) (sbits w 19 0)
    match csCheck off 8 8 with
    | some e => .raise e.1 e.2
    | none =>
      if s.coreHeld k c.here [(off, 8)] [] false then .wait
      else s.withCs k off 8 0x0C w fun s b => s.putS k (bits w 55 51) (BitVec.ofNat 64 (leNat b))

/-- STS.S (R425): 8 bytes from an s register. -/
def execStsS (core : Fin 1200) (w : BitVec 56) (s : State) : Res :=
  let k := core.val
  s.mSlot k 0x0D w [(55, 51), (50, 46), (19, 0)] fun s =>
    let c := s.tcore k
    let off := csAddr (c.sreg (bits w 50 46)) (sbits w 19 0)
    match csCheck off 8 8 with
    | some e => .raise e.1 e.2
    | none =>
      if s.coreHeld k c.here [] [(off, 8)] true then .wait
      else .ok (s.csWrite k off (leBytes 8 (c.sreg (bits w 55 51)).toNat))

/-! ### Counters and lookups (R436–R438) -/

/-- CWT wait (R438): issue is held until the counter reaches the target. -/
def execCwtWait (core : Fin 1200) (w : BitVec 56) (s : State) : Res :=
  if bits w 52 52 = 1 then .next s
  else s.mSlot core.val 0x1B w [(55, 53), (52, 52), (50, 46)] fun s =>
    let c := s.tcore core.val
    if ctrReached (c.ctr.get 0 (bits w 55 53)) ((c.sreg (bits w 50 46)).setWidth 32) then .ok s else .wait

/-- CWT read (R436). -/
def execCwtRead (core : Fin 1200) (w : BitVec 56) (s : State) : Res :=
  if bits w 52 52 = 0 then .next s
  else s.mSlot core.val 0x1B w [(55, 53), (52, 52), (45, 41)] fun s =>
    let c := s.tcore core.val
    .ok (s.putS core.val (bits w 45 41) ((c.ctr.get 0 (bits w 55 53)).setWidth 64))

/-- LKUP (R437): hand the list to the dispatcher; it waits at the limits of R340, and a header that reads poisoned
starts nothing. -/
def execLkup (core : Fin 1200) (w : BitVec 56) (s : State) : Res :=
  let k := core.val
  s.mSlot k 0x1A w [(55, 51)] fun s =>
    let c := s.tcore k
    let off := (c.sreg (bits w 55 51)).toNat
    match csCheck off 64 64 with
    | some e => .raise e.1 e.2
    | none =>
      if s.coreHeld k c.here [(off, 64)] [] false then .wait
      else if 16 ≤ (s.lk.lists.filter fun l => l.core == k).length
          ∨ 64 ≤ (s.lk.lists.filter fun l => l.cluster == coreCluster k).length then .wait
      else s.withCs k off 64 0x1A w fun s b => s.listIssue k (coreStoreDA k off) b

/-! ### Sluices and barriers (R499, R500, R510, R511) -/

/-- Sluice entry n of a core, if it is configured: its local side and its peer core and sluice. -/
def TCore.sluice (c : TCore) (n : Nat) : Option (Nat × Nat × Nat) :=
  let e := c.slt.get 0 n
  if bit e 0 then some ((field e 1 1).toNat, (field e 2 11).toNat, (field e 13 6).toNat) else none

/-- SLW (R439, R500): wait on the local semaphore and subtract the count. -/
def execSlw (core : Fin 1200) (w : BitVec 56) (s : State) : Res :=
  let k := core.val
  s.mSlot k 0x20 w [(55, 50), (49, 49), (48, 41)] fun s =>
    let c := s.tcore k
    let n := bits w 55 50
    let cnt := bits w 48 41
    if cnt = 0 then .raise 2 0
    else
      match c.sluice n with
      | none => .raise 0x0D 0
      | some (side, _, _) =>
        if side ≠ bits w 49 49 then .raise 0x0D 0
        else if (c.sem.get 0 n).toNat < cnt then .wait
        else .ok (s.updCore k fun c => { c with sem := c.sem.upd 0 n (· - BitVec.ofNat 32 cnt) })

/-- SLS (R443, R500): after every earlier instruction, the count goes to the peer's semaphore. -/
def execSls (core : Fin 1200) (w : BitVec 56) (s : State) : Res :=
  let k := core.val
  s.mSlot k 0x21 w [(55, 50), (49, 49), (48, 41)] fun s =>
    let cnt := bits w 48 41
    if cnt = 0 then .raise 2 0
    else
      match (s.tcore k).sluice (bits w 55 50) with
      | none => .raise 0x0D 0
      | some (side, peer, sl) =>
        if side = bits w 49 49 then .raise 0x0D 0
        else if s.coreDone k then
          .ok { s with co := { s.co with signals := s.co.signals ++ [{ src := k, dst := peer, sl := sl, cnt := cnt }] } }
        else .wait

/-- SLUICE_SIGNAL_ARRIVAL (R500): the n-th signal on its way arrives, unless an earlier one from its core to its sluice is
still on its way; a context being torn down discards it (R515). -/
def execSluiceSignalArrival (n : Nat) (s : State) : Res :=
  match s.co.signals[n]? with
  | none => .next s
  | some g =>
    if (s.co.signals.take n).any fun h => h.src == g.src && h.dst == g.dst && h.sl == g.sl then .next s
    else
      let s1 := { s with co := { s.co with signals := s.co.signals.eraseIdx n } }
      let down : Bool := match s1.partOf (coreCluster g.dst) with
        | some p => (s1.part p).teardown || (s1.part p).st == .resetting
        | none => false
      .next (if down then s1
        else s1.updCore g.dst fun c => { c with sem := c.sem.upd 0 g.sl (· + BitVec.ofNat 32 g.cnt) })

/-- BAR (R510, R511): once every earlier instruction has completed, the core has arrived and waits. -/
def execBar (core : Fin 1200) (w : BitVec 56) (s : State) : Res :=
  let k := core.val
  s.mSlot k 0x23 w [(55, 52)] fun s =>
    let b := (s.cluster (coreCluster k)).bars.get 0 (bits w 55 52)
    if !(bit b 12 && b.getLsbD (k % 12)) then .raise 0x0D 0
    else if s.coreDone k then
      .ok (s.updCore k fun c => { c with bar := some (bits w 55 52), waitDue := some s.gtoDue })
    else .wait

/-- Participants of a barrier (R510). -/
def State.barCores (s : State) (p b : Nat) : List Nat :=
  let m := (s.co.bars.get {} (p * 16 + b)).cl
  ((List.range 100).filter fun c => m.getLsbD c).flatMap fun c =>
    let x := (s.cluster c).bars.get 0 b
    if bit x 12 then ((List.range 12).filter fun i => x.getLsbD i).map fun i => 12 * c + i else []

/-- BARRIER_RELEASE (R510, R512): every participant has executed BAR, and with PAIR the peer's have too. -/
def execBarrierRelease (part : Fin 16) (bid : Fin 16) (peer : Bool) (s : State) : Res :=
  let ks := s.barCores part.val bid.val
  let pb := s.co.bars.get {} (part.val * 16 + bid.val)
  if !ks.isEmpty && (ks.all fun k => (s.tcore k).bar == some bid.val)
      && (!pb.pair || (peer && s.pl.link && s.pl.role != .solo)) then
    .next (ks.foldl (fun st k => st.updCore k fun c => { c with bar := none, waitDue := none }) s)
  else .next s

/-! ### Fences (R439, R443, R506) -/

/-- FNC.A: later accesses wait for earlier reads; issue does not stop. -/
def execFncA (core : Fin 1200) (w : BitVec 56) (s : State) : Res :=
  if bits w 55 54 = 1 ∨ bits w 55 54 = 2 then .next s
  else s.mSlot core.val 0x22 w [(55, 54)] fun s =>
    if bits w 55 54 = 3 then .raise 1 0 else .ok (s.updCore core.val fun c => { c with fa := c.nextSeq })

/-- FNC.R: later writes wait for every earlier access. -/
def execFncR (core : Fin 1200) (w : BitVec 56) (s : State) : Res :=
  if bits w 55 54 = 0 ∨ bits w 55 54 = 2 then .next s
  else s.mSlot core.val 0x22 w [(55, 54)] fun s =>
    if bits w 55 54 = 3 then .raise 1 0 else .ok (s.updCore core.val fun c => { c with fr := c.nextSeq })

/-- FNC.F: no later bundle issues before every earlier access is performed. -/
def execFncF (core : Fin 1200) (w : BitVec 56) (s : State) : Res :=
  if bits w 55 54 = 0 ∨ bits w 55 54 = 1 then .next s
  else s.mSlot core.val 0x22 w [(55, 54)] fun s =>
    if bits w 55 54 = 3 then .raise 1 0 else if s.accessesDone core.val then .ok s else .wait

/-! ### DGST (R439, R440) -/

/-- A tensor digest of bytes under a tag. -/
def State.tensorDigest (s : State) (zero : Bool) (tag : W64) (b : List Byte) : Nat :=
  let f := fun (i : Nat) => if zero then 0 else s.fkWord i
  digHash (f 0) (f 1) (f 2) (f 3) 0 tag.toNat (digWords (b.length / 4) b)

/-- DGST. -/
def execDgst (core : Fin 1200) (w : BitVec 56) (s : State) : Res :=
  let k := core.val
  s.mSlot k 0x28 w [(55, 51), (50, 46), (45, 41), (40, 33), (32, 32), (31, 31)] fun s =>
    let c := s.tcore k
    let src := (c.sreg (bits w 55 51)).toNat
    let dst := (c.sreg (bits w 45 41)).toNat
    let n := 64 * (bits w 40 33 + 1)
    let acc := bits w 32 32 == 1
    if src % 64 ≠ 0 then .raise 4 src
    else if dst % 16 ≠ 0 then .raise 4 dst
    else if mib < src + n then .raise 5 src
    else if mib < dst + 16 then .raise 5 dst
    else if s.coreHeld k c.here ((src, n) :: (if acc then [(dst, 16)] else [])) [(dst, 16)] true then .wait
    else
      match s.csRead k src n with
      | (none, s1) => .ok s1
      | (some r, s1) =>
        let o := s1.readDA (coreStoreDA k dst) 16
        if r.poison || (acc && o.poison) then
          .ok (s1.deferExc k { code := 9, pc := c.pc, w := wordOf 0x28 w, addr := if r.poison then src else dst })
        else
          let d := s1.tensorDigest (bits w 31 31 == 1) (c.sreg (bits w 50 46)) r.data
          .ok (s1.csWrite k dst (leBytes 16 ((d + (if acc then leNat o.data else 0)) % 2 ^ 128)))

/-! ### Fetch and deferred exceptions (R416, R419, R444) -/

/-- The bundles of a fetched line from an offset on: fetching stops after a HOLD or an END. -/
def fetchLine : Nat → Nat → List Byte → List (Nat × List Byte) × Bool
  | 0, _, _ => ([], false)
  | n + 1, pc, bs =>
    let op := leAt bs 7 1
    if op = 1 ∨ op = 2 then ([(pc, bs.take 16)], true)
    else
      let (l, stop) := fetchLine n (pc + 16) (bs.drop 16)
      ((pc, bs.take 16) :: l, stop)

/-- FETCH_LINE (R416, R419): the next line of the stream enters the fetch buffer of 64 bundles when it has room. A line
that reads poisoned is kept without its bytes, and raises FETCH when it is reached. -/
def execFetchLine (core : Fin 1200) (s : State) : Res :=
  let k := core.val
  let cl := coreCluster k
  let c := s.tcore k
  if c.fstop || c.stopped || c.stream.isNone || decide (60 < c.fbuf.length) || decide (8 * mib ≤ c.fpc) then .next s
  else if s.injFires 4 cl then .next (s.injDone.sramFault cl none)
  else
    let s1 := if s.injFires 3 cl then s.injDone.countCe .cluster cl else s
    let n := (64 - c.fpc % 64) / 16
    let r := s1.readDA (cisternDA cl c.fpc) (16 * n)
    if r.poison then .next (s1.updCore k fun c => { c with fbuf := c.fbuf ++ [(c.fpc, [])], fstop := true })
    else
      let (l, stop) := fetchLine n c.fpc r.data
      .next (s1.updCore k fun c => { c with fbuf := c.fbuf ++ l, fstop := stop, fpc := c.fpc + 16 * l.length })

/-- CORE_DEFERRED_EXCEPTION (R444, R446): the first deferred exception that an engine of the core has found is raised. -/
def execCoreDeferredException (core : Fin 1200) (s : State) : Res :=
  match (s.tcore core.val).defq with
  | [] => .next s
  | e :: rest =>
    let s1 := s.updCore core.val fun c => { c with defq := rest }
    .next (s1.coreExc core.val e.code (bit e.w 63) true e.pc e.w
      (if e.addr = 0 ∧ e.isDa = false ∧ e.code ≠ 9 then none else some (e.addr, e.isDa)))

/-! ### The merge engine (R336) -/

/-- PARTIAL_ARRIVAL (R336): the n-th partial on its way to a core reaches its merge engine. An injected residue error strikes
an addition there (R805). -/
def execPartialArrival (core : Fin 1200) (n : Nat) (s : State) : Res :=
  match (s.lk.frags.filter fun f => f.sent &&
      (match s.list? f.list with | some l => l.core == core.val | none => false))[n]? with
  | none => .next s
  | some f =>
    let s1 := { s with lk := { s.lk with frags := s.lk.frags.filter fun (x : Frag) => x.id != f.id } }
    match s1.list? f.list with
    | none => .next s1
    | some l =>
      if l.live && !l.slotted && s1.injFires 7 core.val then .next (s1.injDone.coreMismatch core.val 0x0304)
      else .next ((((s1.meshInject l.cluster).absorb l f).bagTry f.list f.bag).listTry f.list)

end Sys2Proof.Machine
end

