-- ==== Sys2Proof/Machine/Sched.lean ====
section
/-! DEFINITION. Partitions, models, the model cache, context switches, the step builder and snapshots (R514, R521–R549),
and the cluster sequencers' work-list entries (R473). -/
namespace Sys2Proof.Machine
open Sys2Proof

/-! ### Model descriptors (R526) -/

/-- A model descriptor. -/
structure MDesc where
  part : Nat
  rank : Bool
  gen : Bool
  acc : Bool
  maxRows : Nat
  maxSeq : Nat
  hwin : Nat
  cores : BitVec 12
  stepNs : Nat
  stream : Nat
  fstream : Nat
  wtOff : Nat
  wtLen : Nat
  wtDa : Nat
  lcsOff : Nat
  lcsLen : Nat
  lciOff : Nat
  lciLen : Nat
  hcOff : Nat
  hcLen : Nat
  saveDa : Nat
  ctxDa : Nat
deriving Repr

def mdescOf (b : List Byte) : MDesc :=
  { part := leAt b 0 1 % 16, rank := (leAt b 1 1).testBit 0, gen := (leAt b 1 1).testBit 1, acc := (leAt b 1 1).testBit 2
    maxRows := leAt b 2 2, maxSeq := leAt b 4 1, hwin := leAt b 5 1, cores := BitVec.ofNat 12 (leAt b 6 2)
    stepNs := leAt b 8 4, stream := leAt b 12 4, fstream := leAt b 16 4, wtOff := leAt b 20 4, wtLen := leAt b 24 4
    wtDa := leAt b 28 8, lcsOff := leAt b 36 4, lcsLen := leAt b 40 4, lciOff := leAt b 44 4, lciLen := leAt b 48 4
    hcOff := leAt b 52 4, hcLen := leAt b 56 4, saveDa := leAt b 60 8, ctxDa := leAt b 68 8 }

/-- Bytes of a core's live state in a save area: its range, and 72 KiB where the accumulators are live. -/
def MDesc.coreLive (d : MDesc) : Nat := d.lcsLen + (if d.acc then 73728 else 0)

/-- S_max, and the size of one cluster's save area. -/
def MDesc.sMax (d : MDesc) : Nat := 12 * d.coreLive + d.lciLen
def MDesc.saveSize (d : MDesc) : Nat := (4096 + d.sMax + 65535) / 65536 * 65536

def State.mdesc (s : State) (m : Nat) : Option MDesc := (s.sc.models.find m).map fun x => mdescOf x.desc

/-- A range lies in the enabled regions. -/
def State.inRegions (s : State) (da n : Nat) : Bool :=
  n != 0 && !s.rangeUnmapped da n && (s.regionOf da).isSome && (s.regionOf (da + n - 1)).isSome

/-- The descriptor meets R526 for the partition as it stands. -/
def State.mdescOk (s : State) (b : List Byte) (d : MDesc) : Bool :=
  let pt := s.part d.part
  let cache := 65536 * pt.mcSize.toNat
  let n := max 1 pt.clusters.length
  let blk := fun (x : Nat) => x % 65536 == 0
  let inWt := fun (x : Nat) => x % 16 == 0 && decide (d.wtOff ≤ x ∧ x < d.wtOff + d.wtLen)
  let above := fun (off len : Nat) => len == 0 || decide (cache ≤ off ∧ off + len ≤ 8 * mib)
  leAt b 0 1 / 16 == 0 && leAt b 1 1 / 8 == 0 && (d.rank || d.gen)
    && decide (1 ≤ d.maxRows ∧ d.maxRows ≤ 4096) && d.maxSeq != 0 && decide (d.hwin ≤ 16)
    && d.cores != 0 && leAt b 6 2 / 4096 == 0
    && inWt d.stream && (if d.gen then inWt d.fstream else d.fstream == 0)
    && blk d.wtOff && blk d.wtLen && d.wtLen != 0 && decide (d.wtOff + d.wtLen ≤ cache)
    && d.lcsOff % 64 == 0 && d.lcsLen % 64 == 0 && decide (d.lcsOff + d.lcsLen ≤ mib)
    && d.lciOff % 64 == 0 && d.lciLen % 64 == 0 && blk d.hcOff && blk d.hcLen
    && (d.hwin != 0 || d.hcLen == 0)
    && above d.lciOff d.lciLen && above d.hcOff d.hcLen
    && (d.lciLen == 0 || d.hcLen == 0 || decide (d.lciOff + d.lciLen ≤ d.hcOff ∨ d.hcOff + d.hcLen ≤ d.lciOff))
    && (b.drop 76).all (· == 0)
    && s.inRegions d.wtDa (n * d.wtLen) && s.inRegions d.saveDa (n * d.saveSize) && s.inRegions d.ctxDa (n * 4096)

/-! ### Model commands (R527) -/

/-- MDL_REG. -/
def execMdlReg (c : KCmd) (s : State) : Res :=
  .next (s.withInput c c.a1.toNat 128 fun s b =>
    let m := c.a0.toNat
    let d := mdescOf b
    let mine := s.sc.models.filter fun (kv : Nat × Model) => kv.2.part == d.part
    if d.part ≠ (s.queue c.q.val).part.toNat ∧ c.q.val ≠ 1024 then s.done c stSqScope
    else if 256 ≤ m then s.done c stSqField
    else if (s.sc.models.find m).isSome then s.done c stMdlInUse
    else if 32 ≤ mine.length then s.done c stMdlLimit
    else if !s.mdescOk b d then s.done c stMdlBad
    else
      ({ s with sc := { s.sc with models := s.sc.models.set m { desc := b, part := d.part } } }).done c stSuccess 0 b)

def State.setAdmit (s : State) (m : Nat) (on : Bool) : State :=
  match s.sc.models.find m with
  | some x => { s with sc := { s.sc with models := s.sc.models.set m { x with admits := on } } }
  | none => s

/-- MDL_ADMIT: an expelled part opens no admission (R677). -/
def execMdlAdmit (c : KCmd) (s : State) : Res :=
  let m := c.a0.toNat
  let on := c.a1 == 1
  .next (if (s.sc.models.find m).isNone then s.done c stSqScope
    else if on && s.int.expelled then s.done c stPartState
    else (s.setAdmit m on).done c stSuccess)

/-- Entries of a model in use, by table index. -/
def State.modelUsed (s : State) (m : Nat) : Bool :=
  s.sc.ast.any fun (kv : Nat × AstEntry) => kv.2.st != .free && kv.2.model == m

/-- MDL_UNREG. -/
def execMdlUnreg (c : KCmd) (s : State) : Res :=
  let m := c.a0.toNat
  .next (match s.sc.models.find m with
    | none => s.done c stSqScope
    | some x =>
      if x.admits || s.modelUsed m then s.done c stMdlBusy
      else
        ({ s with sc := { s.sc with
            models := s.sc.models.del m
            tags := s.sc.tags.filter fun (kv : Nat × Nat) => kv.2 != m } }).done c stSuccess)

/-! ### PART_START and PART_STOP (R523, R524) -/

/-- The configuration check of PART_START. -/
def State.partCfgOk (s : State) (p : Nat) : Bool :=
  let pt := s.part p
  pt.cl != 0 && pt.astCount != 0 && decide (pt.astBase.toNat + pt.astCount.toNat ≤ 16384)
    && s.inPlainRegion (pt.baBase.toNat * 65536) 131072

/-- Another partition holds a cluster or an entry of p. -/
def State.partOverlap (s : State) (p : Nat) : Bool :=
  let pt := s.part p
  (List.range 16).any fun q =>
    let o := s.part q
    q != p && o.st.holds && ((o.cl &&& pt.cl) != 0
      || decide (o.astBase.toNat < pt.astBase.toNat + pt.astCount.toNat
          ∧ pt.astBase.toNat < o.astBase.toNat + o.astCount.toNat))

/-- A pair in service: not retired, and not in RESYNC (R668). -/
def State.pairServes (s : State) (n : Nat) : Bool := s.serving .pair n && !(s.cc.pairs.get {} n).resync

/-- Pairs in service that serve a partition (R457). -/
def State.pairsOf (s : State) (p : Nat) : List Nat :=
  (List.range 8).filter fun n => s.pairServes n && (s.cc.pairs.get {} n).parts.getLsbD p

/-- The checks of PART_START, in order (R523); without its clusters the part refuses it (R740). -/
def State.startCheck (s : State) (p : Nat) : BitVec 12 :=
  let pt := s.part p
  if s.pwr.dstate != .d0 || s.int.expelled || (pt.st != .unused && pt.st != .stopped) then stPartState
  else if !s.partCfgOk p then stPartBad
  else if s.partOverlap p then stPartOverlap
  else if (s.pairsOf p).length < 2 then stPartNoPairs
  else stSuccess

/-- A partition starts: its entries are FREE, and its clusters' tags are clear. -/
def State.partBegin (s : State) (p : Nat) : State :=
  let pt := s.part p
  let mine := fun (x : Nat) => pt.cl.getLsbD x
  let lo := pt.astBase.toNat
  let hi := pt.astBase.toNat + pt.astCount.toNat
  let keep := fun (kv : Nat × AstEntry) => !decide (lo ≤ kv.1 ∧ kv.1 < hi)
  let s1 := (s.clearTags mine).dropHist mine
  let s2 := { s1 with sc := { s1.sc with ast := s1.sc.ast.filter keep } }
  s2.updPart p fun x => { x with
    st := .running, ctxV := false, ctx := 0, stepNo := 0, stuck := 0, nextSlot := 0, halted := false }

/-- PART_START. -/
def execPartStart (c : KCmd) (s : State) : Res :=
  let p := c.a0.toNat
  .next (if 16 ≤ p then s.done c stSqField
    else
      let code := s.startCheck p
      if code = stSuccess then (s.partBegin p).done c stSuccess else s.done c code)

/-- The partitions that a cancelled drain stopped start again once they are STOPPED, where the steward runs (R766). -/
def State.againStart (s : State) : State :=
  if s.stw.st != .running && s.stw.st != .restarting then s
  else
    let ready := s.stw.again.filter fun p => (s.part p).st == .stopped
    let s1 := ready.foldl (fun st p => if st.startCheck p = stSuccess then st.partBegin p else st) s
    { s1 with stw := { s1.stw with again := s.stw.again.filter fun p => !ready.contains p } }

/-- PART_STOP. One that comes during a switch or a teardown waits for its end (R549). -/
def execPartStop (c : KCmd) (s : State) : Res :=
  let p := c.a0.toNat
  let pt := s.part p
  let cmd : StopCmd := { q := c.q.val, cid := c.cid, due := s.gtoDue, abort := c.a1 == 1 }
  .next (if 16 ≤ p ∨ 2 ≤ c.a1.toNat then s.done c stSqField
    else if pt.st != .running || pt.stopWait.isSome then s.done c stPartState
    else if pt.switching.isSome || pt.teardown then s.updPart p fun x => { x with stopWait := some cmd }
    else s.stopNow p cmd)

/-- Work lists of a partition in flight. -/
def State.partLists (s : State) (p : Nat) : List Nat :=
  (s.co.wls.filter fun (kv : Nat × WorkList) => kv.2.part == p).map Prod.fst

/-- PART_STOP_TIMEOUT (R524): entries still in use become FREE without a notice, and a context that runs or a work list
in flight is torn down. -/
def execPartStopTimeout (p : Fin 16) (s : State) : Res :=
  let pt := s.part p.val
  match pt.stop with
  | none => .next s
  | some c =>
    if pt.st != .stopping || c.forced || !s.gtoPassed c.due then .next s
    else
      let s1 := (s.used p.val).foldl (fun st i => st.updAst (pt.entry i) fun _ => {}) s
      let s2 := s1.updPart p.val fun x => { x with stop := some { c with forced := true } }
      .next (if (pt.ctxV || !(s2.partLists p.val).isEmpty || !pt.lists.isEmpty) && !pt.teardown then
          s2.teardown p.val 0 c.q
        else s2)

/-- PART_STOPPED (R521, R524). -/
def execPartStopped (p : Fin 16) (s : State) : Res :=
  let pt := s.part p.val
  if pt.st == .stopping && !pt.teardown && (s.used p.val).isEmpty && (s.partLists p.val).isEmpty && pt.lists.isEmpty then
    let s1 := s.updPart p.val fun x => { x with
      st := .stopped, stop := none, ctxV := false, ctx := 0, switching := none, halted := false }
    let s2 := match pt.stop with
      | some c => s1.complete c.q c.cid stSuccess
      | none => s1
    .next (if s.stw.st == .running then s2.againStart else s2)
  else .next s

/-! ### Snapshots (R514, R515) -/

/-- Begin a consistent snapshot of a partition, or join the one that runs. -/
def State.snapBegin (s : State) (p : Nat) (cmd : Option (Nat × W16)) (halt : Bool) : State :=
  let cs := match cmd with | some x => [x] | none => []
  s.updPart p fun x => { x with
    snap := match x.snap with
      | some y => some { y with cmds := y.cmds ++ cs, halt := y.halt || halt }
      | none => some { cmds := cs, halt := halt, start := s.time.now } }

/-- PART_SNAP. -/
def execPartSnap (c : KCmd) (s : State) : Res :=
  let p := c.a0.toNat
  .next (if 16 ≤ p ∨ 3 ≤ c.a1.toNat then s.done c stSqField
    else if c.a1 = 2 then (s.updPart p fun x => { x with halted := false }).done c stSuccess
    else s.snapBegin p (some (c.q.val, c.cid)) (c.a1 == 1))

/-- Row requests of a partition's lists that are outstanding: far ones, and the others. -/
def State.gathersOf (s : State) (p : Nat) (far : Bool) : Nat :=
  (s.lk.rows.filter fun r => !r.settled && (r.stage == .far) == far &&
    s.lk.lists.any fun l => l.id == r.list && (s.part p).cl.getLsbD l.cluster).length

/-- SNAPSHOT_GATHER_DEADLINE: 3,400 ns after the start, what is outstanding is recorded as pending. -/
def execSnapshotGatherDeadline (p : Fin 16) (s : State) : Res :=
  match (s.part p.val).snap with
  | some y =>
    if s.elapsed y.start 3400 && y.pending.isNone then
      let n := s.gathersOf p.val true + s.gathersOf p.val false
      .next (s.updPart p.val fun x => { x with snap := some { y with pending := some n } })
    else .next s
  | none => .next s

/-- Cores of a partition with an issued MMA that has not completed. -/
def State.mmasIn (s : State) (p : Nat) : Bool :=
  s.co.core.any fun (kv : Nat × TCore) =>
    (s.part p).cl.getLsbD (coreCluster kv.1) && (kv.2.run.isSome || !kv.2.mq.isEmpty || kv.2.vNext)

/-- SNAPSHOT_COMPLETE. -/
def execSnapshotComplete (p : Fin 16) (s : State) : Res :=
  match (s.part p.val).snap with
  | some y =>
    if !s.mmasIn p.val && (y.pending.isSome || s.gathersOf p.val false == 0) then
      let s1 := s.updPart p.val fun x => { x with snap := none, halted := x.halted || y.halt }
      .next ((y.cmds.foldl (fun st c => st.complete c.1 c.2 stSuccess) s1).cutDone p.val)
    else .next s
  | none => .next s

/-! ### Switching context (R528–R530) -/

/-- Copy 64 B lines from one DA to another, poison with them. -/
def State.copyLines (s : State) (src dst n : Nat) : State :=
  (List.range (n / 64)).foldl (fun st i =>
    let r := st.readDA (src + 64 * i) 64
    if r.poison then st.writeDA (dst + 64 * i) r.data true else st.wr (dst + 64 * i) r.data) s

/-- Free bytes, for what the spec keeps in a layout of its own. -/
def State.fillFree (s : State) (da n : Nat) : State :=
  let (x, s1) := s.drawFree (8 * n)
  s1.wr da (leBytes n x.toNat)

/-- What of a core goes into the save area's private parts. -/
def TCore.small (c : TCore) (acc : Bool) : TCore :=
  if acc then { flags := c.flags, k0 := c.k0, ctr := c.ctr, sem := c.sem, acc := c.acc, bare := c.bare
                active := c.active, staging := c.staging, coming := c.coming, cur := c.cur }
  else { flags := c.flags, k0 := c.k0, ctr := c.ctr, sem := c.sem }

/-- Cluster j of the partition (logical number c) writes the outgoing context's small state and live bytes (R530
step 3). -/
def State.spill (s : State) (d : MDesc) (c j : Nat) : State :=
  let base := d.saveDa + j * d.saveSize
  let s1 := s.fillFree base 4096
  let s2 := (List.range 12).foldl (fun st i =>
    let a := base + 4096 + i * d.coreLive
    let st1 := st.copyLines (coreStoreDA (12 * c + i) d.lcsOff) a d.lcsLen
    if d.acc then st1.fillFree (a + d.lcsLen) 73728 else st1) s1
  s2.copyLines (cisternDA c d.lciOff) (base + 4096 + 12 * d.coreLive) d.lciLen

/-- Zero bytes of a core store or cistern. -/
def State.zeroStore (s : State) (da n : Nat) : State :=
  (List.range (n / 64)).foldl (fun st i => st.writeDA (da + 64 * i) (List.replicate 64 0)) s

/-- Load the weight blocks of a model that are not tagged with it (R528). -/
def State.loadWeights (s : State) (m : Nat) (d : MDesc) (c j : Nat) : State :=
  (List.range (d.wtLen / 65536)).foldl (fun st i =>
    let b := d.wtOff / 65536 + i
    if st.sc.tags.find (c * 128 + b) = some m then st
    else
      let st1 := st.copyLines (d.wtDa + j * d.wtLen + 65536 * i) (cisternDA c (65536 * b)) 65536
      { st1 with sc := { st1.sc with tags := st1.sc.tags.set (c * 128 + b) m } }) s

/-- Load or zero a model's live bytes in one cluster. -/
def State.loadLive (s : State) (d : MDesc) (saved : Bool) (c j : Nat) : State :=
  let base := d.saveDa + j * d.saveSize
  let one := fun (st : State) (src dst n : Nat) => if saved then st.copyLines src dst n else st.zeroStore dst n
  let s1 := (List.range 12).foldl (fun st i =>
    one st (base + 4096 + i * d.coreLive) (coreStoreDA (12 * c + i) d.lcsOff) d.lcsLen) s
  one s1 (base + 4096 + 12 * d.coreLive) (cisternDA c d.lciOff) d.lciLen

/-- Words of a context image; an image that reads poisoned gives free values. -/
def State.imageWords (s : State) (da n : Nat) : List W32 × State :=
  let r := s.readDA da (4 * n)
  if r.clean then ((List.range n).map fun i => BitVec.ofNat 32 (leAt r.data (4 * i) 4), s)
  else
    let (x, s1) := s.drawFree (32 * n)
    ((List.range n).map fun i => field x (32 * i) 32, s1)

/-- The sluice table as loaded: V is cleared where the peer is not a core of the partition (R499). -/
def sluiceTable (inPart : Nat → Bool) (ws : List W32) : SMap W32 :=
  (ws.zipIdx.foldl (fun (m : SMap W32) x =>
    m.set x.2 (if bit x.1 0 && !inPart (coreCluster (field x.1 2 11).toNat) then x.1 &&& 0xFFFFFFFE else x.1)) [])

/-- One core gets its context: a new one, its sluice table, each semaphore at INIT, then the saved small state. -/
def State.loadCore (s : State) (d : MDesc) (inPart : Nat → Bool) (saved : Option TCore) (c j i : Nat) : State :=
  let k := 12 * c + i
  let (ws, s1) := s.imageWords (d.ctxDa + 4096 * j + 256 * i) 64
  let tbl := sluiceTable inPart ws
  let sem := ws.zipIdx.foldl (fun (m : SMap W32) x => m.set x.2 ((field x.1 19 8).setWidth 32)) []
  s1.updCore k fun o =>
    let c0 : TCore := { o.newContext with exc := {}, slt := tbl, sem := sem }
    match saved with
    | none => c0
    | some x =>
      let c1 := { c0 with flags := x.flags, k0 := x.k0, ctr := x.ctr, sem := x.sem }
      if d.acc then { c1 with acc := x.acc, bare := x.bare, active := x.active, staging := x.staging
                              coming := x.coming, cur := x.cur }
      else c1

/-- Context image and small state of one cluster (R530 step 5). -/
def State.loadContext (s : State) (d : MDesc) (inPart : Nat → Bool) (x : Model) (c j : Nat) : State :=
  let s1 := (List.range 12).foldl (fun st i =>
    st.loadCore d inPart (if x.saved then some (x.savedCores.get {} (12 * c + i)) else none) c j i) s
  let (bs, s2) := s1.imageWords (d.ctxDa + 4096 * j + 3072) 16
  s2.updCluster c fun cl => { cl with
    bars := bs.zipIdx.foldl (fun (m : SMap (BitVec 13)) y => m.set y.2 (field y.1 0 13)) [] }

/-- The outgoing context is saved (R530 step 3). -/
def State.switchOut (s : State) (p : Nat) : State :=
  let pt := s.part p
  let m := pt.ctx.toNat
  match s.sc.models.find m with
  | none => s
  | some x =>
    if !pt.ctxV then s
    else
      let d := mdescOf x.desc
      let s1 := pt.clusters.zipIdx.foldl (fun st cj => st.spill d cj.1 cj.2) s
      let cores := (s.co.core.filter fun (kv : Nat × TCore) => pt.cl.getLsbD (coreCluster kv.1)).map
        fun (kv : Nat × TCore) => (kv.1, kv.2.small d.acc)
      { s1 with sc := { s1.sc with models := s1.sc.models.set m { x with saved := true, savedCores := cores } } }

/-- The incoming context is loaded (R530 steps 4 and 5). -/
def State.switchIn (s : State) (p m : Nat) : State :=
  let pt := s.part p
  match s.sc.models.find m with
  | none => s
  | some x =>
    let d := mdescOf x.desc
    pt.clusters.zipIdx.foldl (fun st cj =>
      ((st.loadWeights m d cj.1 cj.2).loadLive d x.saved cj.1 cj.2).loadContext d (fun c => pt.cl.getLsbD c) x cj.1 cj.2) s

/-- A switch begins where the oldest step-builder list needs another model than the context's, and no stream runs (R530
steps 1 and 2). -/
def State.trySwitch (s : State) (p : Nat) : State :=
  let pt := s.part p
  match pt.lists.find? fun (l : SbList) => !l.fin with
  | none => s
  | some l =>
    if pt.switching.isNone && !pt.teardown && !pt.halted && (pt.st == .running || pt.st == .stopping)
        && (s.streams p).isEmpty && !(pt.ctxV && pt.ctx.toNat == l.model)
        && !pt.lists.any (fun (x : SbList) => x.fin && pt.ctxV && x.model == pt.ctx.toNat) then
      s.updPart p fun x => { x with switching := some { model := l.model, slot := l.slot } }
    else s

/-- SWITCH_COMPLETE (R530). -/
def execSwitchComplete (p : Fin 16) (s : State) : Res :=
  let pt := s.part p.val
  match pt.switching with
  | none => .next s
  | some w =>
    if pt.halted then .next s
    else
      let s1 := (s.switchOut p.val).switchIn p.val w.model
      .next ((s1.updPart p.val fun x => { x with
        ctxV := true, ctx := BitVec.ofNat 8 w.model, switching := none, switches := satInc x.switches
        stuck := 0 }).stopResume p.val)

/-! ### The step builder (R541–R546) -/

/-- Effective class and key of a waiting entry (R541). -/
def AstEntry.eff (e : AstEntry) (age now : Nat) : Nat :=
  if age = 0 then e.cls else e.cls - (now - e.arrive) / (1000 * age)

def AstEntry.key (e : AstEntry) (age now i : Nat) : List Nat :=
  [e.eff age now, if e.deadline = 0 then 2 ^ 64 - 1 else e.deadline, e.arrive, i]

/-- Lexicographic order. -/
def keyLess : List Nat → List Nat → Bool
  | a :: as, b :: bs => decide (a < b) || (a == b && keyLess as bs)
  | [], _ :: _ => true
  | _, [] => false

def keyInsert (x : List Nat × Nat) : List (List Nat × Nat) → List (List Nat × Nat)
  | [] => [x]
  | y :: ys => if keyLess x.1 y.1 then x :: y :: ys else y :: keyInsert x ys

/-- Waiting entries of a partition by key, smallest first. -/
def State.waitingBy (s : State) (p : Nat) : List Nat :=
  let pt := s.part p
  let ws := (s.used p).filter fun i => (s.astE (pt.entry i)).st.waiting
  (ws.foldl (fun l i => keyInsert ((s.astE (pt.entry i)).key pt.ageUs.toNat s.time.now i, i) l) []).map Prod.snd

/-- An entry is urgent (R541). -/
def State.urgent (s : State) (e : AstEntry) : Bool :=
  e.deadline != 0 && decide (e.deadline ≤ s.time.now + (match s.mdesc e.model with | some d => d.stepNs | none => 0))

/-- With DROP, entries past their deadlines end (R542). -/
def State.expireSteps (s : State) (p : Nat) : State :=
  if !(s.part p).drop then s
  else
    (s.used p).foldl (fun st i =>
      let e := st.astE ((st.part p).entry i)
      if (e.st == .ready || e.st == .decode) && e.deadline != 0 && decide (e.deadline ≤ s.time.now) then
        st.astDone p i .expired
      else st) s

/-- The model of the next step, for waiting entries in key order (R543). -/
def State.chooseModel (s : State) (p : Nat) (ws : List Nat) : Option Nat :=
  let pt := s.part p
  let ent := fun (i : Nat) => s.astE (pt.entry i)
  let eff := fun (i : Nat) => (ent i).eff pt.ageUs.toNat s.time.now
  match ws with
  | [] => none
  | top :: _ =>
    let c := pt.ctx.toNat
    match if pt.ctxV then ws.find? (fun i => (ent i).model == c) else none with
    | none => some (ent top).model
    | some best =>
      let other := ws.any fun i => (ent i).model != c
      if ((ent top).model != c && decide (eff top < eff best))
          || ws.any (fun i => (ent i).model != c && s.urgent (ent i))
          || (other && decide (pt.stick.toNat ≤ pt.stuck)) then some (ent top).model
      else some c

/-- Rows of an entry (R532). -/
def AstEntry.rows (e : AstEntry) : Nat := if e.gen then e.beams else e.ncand

/-- The batch: entries in key order, passing over one that would exceed MAXROWS, until MAXSEQ (R543). -/
def takeBatch (rows : Nat → Nat) (maxRows : Nat) : Nat → Nat → List Nat → List Nat
  | _, _, [] => []
  | seq, used, i :: is =>
    if seq = 0 then []
    else if maxRows < used + rows i then takeBatch rows maxRows seq used is
    else i :: takeBatch rows maxRows (seq - 1) (used + rows i) is

/-- Step kind of a waiting state. -/
def AstState.kind : AstState → Nat
  | .decode => 1
  | .finish => 2
  | _ => 0

/-- A directory or table entry of a history: V, SEALED and DA; none where it reads poisoned or is not there (R537). -/
def State.histEntry (s : State) (da : Nat) : Option (Bool × Nat) × State :=
  let r := s.readDA da 8
  if r.poison then
    (none, match s.place da with
      | .basin _ => s.stackFault (flatStack (s.flatOf da)) 0x0501 (akind := 1) (addr := da)
      | _ => s.fault { mkFault 9 0 0x0501 with akind := 1, addr := da })
  else if r.unmapped then (none, s)
  else
    let x := leNat r.data
    (if x.testBit 0 then some (x.testBit 1, x / 65536 % 2 ^ 36 * 65536) else none, s)

/-- Page n of a history. -/
def State.histPage (s : State) (dir n : Nat) : Option (Bool × Nat) × State :=
  match s.histEntry (dir + 8 * (n / 8192)) with
  | (none, s1) => (none, s1)
  | (some t, s1) => s1.histEntry (t.2 + 8 * (n % 8192))

/-- Slots of a model's history cache in a cluster, by key, with their tags. -/
def State.histTag (s : State) (key : Nat) : HistTag := s.sc.hist.get {} key

/-- The least recently used of some slots. -/
def State.lruSlot (s : State) (c : Nat) : List Nat → Option Nat
  | [] => none
  | n :: ns =>
    match s.lruSlot c ns with
    | none => some n
    | some m => if (s.histTag (c * 128 + m)).used < (s.histTag (c * 128 + n)).used then some m else some n

/-- The place of one window page: its slot byte, the slots taken in this step, and what is to be staged (R538). -/
def State.stagePage (s : State) (d : MDesc) (dir c n : Nat) (taken : List (Nat × Nat × Nat × Bool)) :
    Nat × List (Nat × Nat × Nat × Bool) × State :=
  match s.histPage dir n with
  | (none, s1) => (0xFF, taken, s1)
  | (some (sealed, da), s1) =>
    let slots := (List.range (d.hcLen / 65536)).map fun i => d.hcOff / 65536 + i
    let mine := fun (x : Nat) => taken.any fun t => t.1 == c && t.2.1 == x
    let touch := fun (st : State) (x : Nat) (da : Option Nat) =>
      { st with sc := { st.sc with
          hist := st.sc.hist.set (c * 128 + x) { da := da, used := st.sc.useCtr + 1 }, useCtr := st.sc.useCtr + 1 } }
    match if sealed then slots.find? fun x => (s1.histTag (c * 128 + x)).da == some da else none with
    | some x => (x, taken ++ [(c, x, da, false)], touch s1 x (some da))
    | none =>
      match s1.lruSlot c (slots.filter fun x => !mine x) with
      | some x => (x, taken ++ [(c, x, da, true)], touch s1 x (if sealed then some da else none))
      | none => (0xFE, taken, s1)

/-- The slot bytes of one sequence's window, oldest page first. -/
def State.stageSeq (s : State) (d : MDesc) (e : AstEntry) (c : Nat) (taken : List (Nat × Nat × Nat × Bool)) :
    List Nat × List (Nat × Nat × Nat × Bool) × State :=
  let n := if e.histDa = 0 then 0 else min d.hwin (e.hpagesM1 + 1)
  (List.range n).foldl (fun acc i =>
    let r := acc.2.2.stagePage d e.histDa c (e.hpagesM1 + 1 - n + i) acc.2.1
    (acc.1 ++ [r.1], r.2.1, r.2.2)) ([], taken, s)

/-- A batch record (R544). -/
def batchRecord (e : AstEntry) (i row0 home : Nat) (stage : List Nat) : List Byte :=
  leBytes 2 i ++ leBytes 2 row0 ++ leBytes 2 e.rows ++ leBytes 1 e.step ++ leBytes 1 home ++ leBytes 8 e.deadline
    ++ leBytes 8 e.inDa ++ leBytes 8 e.outDa ++ leBytes 8 e.histDa ++ leBytes 4 e.hpagesM1 ++ List.replicate 4 0
    ++ ((List.range 16).map fun j => BitVec.ofNat 8 (stage.getD j 0xFF))

/-- The records of a batch, and what is to be staged. -/
def State.batchRecords (s : State) (p : Nat) (d : MDesc) (cl es : List Nat) :
    List Byte × List (Nat × Nat × Nat × Bool) × State :=
  let step := fun (acc : Nat × List Byte × List (Nat × Nat × Nat × Bool) × State) (i : Nat) =>
    let (row0, bs, taken, st) := acc
    let e := st.astE ((st.part p).entry i)
    let home := i % cl.length
    let (stage, taken1, st1) := st.stageSeq d e (cl.getD home 0) taken
    (row0 + e.rows, bs ++ batchRecord e i row0 home stage, taken1, st1)
  (es.foldl step (0, [], [], s)).2

/-- The work list of a step (R545). -/
def stepList (cl : List Nat) (d : MDesc) (kind slotDA : Nat) : List Byte :=
  leBytes 2 cl.length ++ [1] ++ List.replicate 13 0 ++ cl.flatMap fun c =>
    leBytes 1 c ++ [0] ++ leBytes 2 d.cores.toNat ++ leBytes 4 (if kind = 2 then d.fstream else d.stream) ++ leBytes 4 1
      ++ List.replicate 4 0 ++ leBytes 8 slotDA ++ leBytes 8 kind ++ List.replicate 48 0

/-- Why a step may be formed (R544). -/
inductive StepWhy where
  | idle | waited | full | urgent
deriving DecidableEq, Repr

/-- Form a step if the step builder may, for one of the given reasons (R541–R545). -/
def State.stepForm (s0 : State) (p : Nat) (why : List StepWhy) : State :=
  let pt := s0.part p
  if !(pt.st == .running || pt.st == .stopping) || decide (pt.depth.toNat ≤ pt.lists.length) then s0
  else
    let s := s0.expireSteps p
    let ws := s.waitingBy p
    let ent := fun (i : Nat) => s.astE (pt.entry i)
    match s.chooseModel p ws with
    | none => s
    | some m =>
      match s.mdesc m with
      | none => s
      | some d =>
        let ofModel := ws.filter fun i => (ent i).model == m
        let kind := (ent (ofModel.headD 0)).st.kind
        let cand := ofModel.filter fun i => (ent i).st.kind == kind
        let rows := fun (i : Nat) => (ent i).rows
        let holds := fun (y : StepWhy) => match y with
          | .idle => pt.lists.isEmpty
          | .waited => ws.any fun i => s.elapsed (ent i).since pt.waitNs.toNat
          | .full => decide (d.maxRows ≤ (cand.map rows).sum) || decide (d.maxSeq ≤ cand.length)
          | .urgent => ws.any fun i => s.urgent (ent i)
        if !why.any holds then s
        else
          let es := takeBatch rows d.maxRows d.maxSeq 0 cand
          let cl := pt.clusters
          let slot := (firstBelow 8 fun i => !pt.lists.any fun (l : SbList) => l.slot == (pt.nextSlot + i) % 8).getD 0
          let sl := (pt.nextSlot + slot) % 8
          let (recs, stage, s1) := s.batchRecords p d cl es
          let head := leBytes 8 pt.stepNo ++ leBytes 1 kind ++ leBytes 1 m ++ leBytes 1 es.length ++ leBytes 1 cl.length
            ++ leBytes 2 ((es.map rows).sum) ++ List.replicate 50 0
          let s2 := s1.wr (pt.slotDA sl) (head ++ recs)
          let s3 := es.foldl (fun st i => st.updAst (pt.entry i) fun x => { x with st := .run }) s2
          let l : SbList := { slot := sl, model := m, kind := kind, entries := es
                              bytes := stepList cl d kind (pt.slotDA sl), stage := stage }
          let other := ws.any fun i => (ent i).model != m
          let same := pt.ctxV && pt.ctx.toNat == m
          (s3.updPart p fun x => { x with
            lists := x.lists ++ [l], nextSlot := (sl + 1) % 8, stepNo := x.stepNo + 1
            stuck := if same && other then x.stuck + 1 else 0 }).trySwitch p

/-- STEP_FORM. -/
def execStepForm (p : Fin 16) (s : State) : Res := .next (s.stepForm p.val [.idle, .waited, .full, .urgent])

/-- STEP_WAIT_TIMEOUT: the oldest waiting entry has waited WAIT_NS. -/
def execStepWaitTimeout (p : Fin 16) (s : State) : Res := .next (s.stepForm p.val [.waited])

/-- ENTRY_BECOMES_URGENT. -/
def execEntryBecomesUrgent (p : Fin 16) (s : State) : Res := .next (s.stepForm p.val [.urgent])

/-- SB_WORKLIST_COMPLETE (R546): the n-th ended list's entries advance and its slot is free. -/
def execSbWorklistComplete (p : Fin 16) (n : Nat) (s : State) : Res :=
  match ((s.part p.val).lists.filter fun (l : SbList) => l.fin)[n]? with
  | none => .next s
  | some l => .next ((s.sbFinish p.val l l.nst).trySwitch p.val)

/-- TEARDOWN_COMPLETE (R547): its steps have finished. -/
def execTeardownComplete (p : Fin 16) (s : State) : Res :=
  if s.teardownReady p.val then .next ((s.teardownEnd p.val).trySwitch p.val) else .next s

/-! ### Cluster sequencers (R473, R524, R670) -/

/-- An entry can run no more: its cluster or a core of it is retired, or its partition's stop has been forced. -/
def State.entryDead (s : State) (p cl : Nat) (e : WlEntry) : Bool :=
  !s.serving .cluster cl || (e.list cl).any (fun k => !s.serving .core k)
    || (match (s.part p).stop with | some c => c.forced | none => false)

/-- Remove element i. -/
def removeIdx {α : Type} : List α → Nat → List α
  | [], _ => []
  | _ :: xs, 0 => xs
  | x :: xs, i + 1 => x :: removeIdx xs i

/-- WORKLIST_ARRIVAL (R473): the j-th entry still on its way reaches its cluster's queue of 16, in the order its pair
issued them. -/
def execWorklistArrival (wl : Nat) (j : Nat) (s : State) : Res :=
  match s.co.wls.find wl with
  | none => .next s
  | some w =>
    match w.toArrive[j]? with
    | none => .next s
    | some (cl, e) =>
      let earlier := s.co.wls.any fun (kv : Nat × WorkList) =>
        kv.2.pair == w.pair && decide (kv.2.issuedNo < w.issuedNo) && kv.2.toArrive.any fun (x : Nat × WlEntry) => x.1 == cl
      if earlier then .next s
      else
        let s1 := { s with co := { s.co with wls := s.co.wls.set wl { w with toArrive := removeIdx w.toArrive j } } }
        if s.entryDead w.part cl e then .next (s1.wlLess wl (e.list cl).length true)
        else if 16 ≤ (s.cluster cl).wq.length then .next s
        else .next ((s1.meshInject cl).updCluster cl fun c => { c with wq := c.wq ++ [e] })

/-- Stage the pages homed on a cluster (R538). -/
def State.stagePages (s : State) (p slot cl : Nat) : State :=
  let l := (s.part p).lists.find? fun (x : SbList) => x.slot == slot
  match l with
  | none => s
  | some l =>
    let mine := l.stage.filter fun x => x.1 == cl
    let s1 := mine.foldl (fun st x =>
      if x.2.2.2 then
        (st.touch x.2.2.1 65536).copyLines x.2.2.1 (cisternDA cl (65536 * x.2.1)) 65536
      else st) s
    let l1 := { l with stage := l.stage.filter fun x => x.1 != cl }
    s1.updPart p fun pt => { pt with lists := pt.lists.map fun (y : SbList) => if y.slot == slot then l1 else y }

/-- Start a stream on a core (R416, R472). -/
def TCore.startStream (c : TCore) (e : WlEntry) (i : Nat) (fresh : Bool) : TCore :=
  let args := (List.range 7).foldl (fun (m : SMap W64) j => m.set (j + 1) (e.args.getD j 0)) c.s
  let s8 := e.args.getD 7 0 + BitVec.ofNat 64 (i * e.step)
  { c with
    s := args.set 8 s8, stream := some e.wl, pc := e.stream, fpc := e.stream, npc := none, vNext := false, sOld := []
    fbuf := [], fstop := false, ended := false, bar := none, waitDue := none
    exc := if fresh then {} else c.exc, stopped := if fresh then false else c.stopped }

/-- The step-builder list a work list stands for. -/
def State.sbOf (s : State) (w : WorkList) : Option SbList :=
  if w.sb then (s.part w.part).lists.find? fun (l : SbList) => l.issued && (s.part w.part).slotDA l.slot == w.batchDa
  else none

/-- The clusters of a partition may start streams, those of an SB list only in its model's context. -/
def State.mayStart (s : State) (w : WorkList) : Bool :=
  let pt := s.part w.part
  (pt.st == .running || pt.st == .stopping) && !pt.teardown && pt.switching.isNone && pt.snap.isNone && !pt.halted
    && (match s.sbOf w with
        | some l => pt.ctxV && pt.ctx.toNat == l.model
        | none => true)

/-- STREAM_START (R473): the n-th waiting entry of a cluster starts, when its cores are free and no earlier waiting entry
names one of them. -/
def execStreamStart (cluster : Fin 100) (n : Nat) (s : State) : Res :=
  let cl := cluster.val
  let q := (s.cluster cl).wq
  match q[n]? with
  | none => .next s
  | some e =>
    match s.co.wls.find e.wl with
    | none => .next s
    | some w =>
      let out := s.updCluster cl fun c => { c with wq := removeIdx c.wq n }
      if s.entryDead w.part cl e then .next (out.wlLess e.wl (e.list cl).length true)
      else if (e.list cl).any (fun k => (s.tcore k).stream.isSome)
          || (q.take n).any (fun (x : WlEntry) => (x.cores &&& e.cores) != 0) || !s.mayStart w then .next s
      else
        let s1 := match s.sbOf w with
          | some l => out.stagePages w.part l.slot cl
          | none => out
        let fresh := !(s.part w.part).ctxV
        .next ((List.range 12).foldl (fun st i =>
          if e.cores.getLsbD i then st.updCore (12 * cl + i) fun c => c.startStream e i fresh else st) s1)

/-- STREAM_COMPLETE (R419): a core whose END has executed reports its stream complete. -/
def execStreamComplete (core : Fin 1200) (s : State) : Res :=
  let c := s.tcore core.val
  match c.stream with
  | some wl =>
    if c.ended then
      let s1 := (s.updCore core.val fun x => { x with stream := none, ended := false }).wlLess wl 1 false
      .next (match s.partOf (coreCluster core.val) with
        | some p => s1.trySwitch p
        | none => s1)
    else .next s
  | none => .next s

end Sys2Proof.Machine
end

