-- ==== Sys2Proof/Machine/Spout.lean ====
section
/-! DEFINITION. Spout slots and groups (R609–R613). -/
namespace Sys2Proof.Machine
open Sys2Proof

def State.slot (s : State) (n : Nat) : Slot := s.host.slots.get {} n
def State.updSlot (s : State) (n : Nat) (f : Slot → Slot) : State :=
  { s with host := { s.host with slots := s.host.slots.upd {} n f } }

def State.group (s : State) (g : Nat) : SpGroup := s.host.groups.get {} g
def State.updGroup (s : State) (g : Nat) (f : SpGroup → SpGroup) : State :=
  { s with host := { s.host with groups := s.host.groups.upd {} g f } }

def SpGroup.has (g : SpGroup) (n : Nat) : Bool := decide (g.first.toNat ≤ n ∧ n < g.first.toNat + g.count.toNat)

/-- The enabled group of a slot. -/
def State.groupOf (s : State) (n : Nat) : Option Nat := firstBelow 64 fun g => (s.group g).en && (s.group g).has n

/-- DA of a slot's request half, and of its response half. -/
def State.slotDA (s : State) (n : Nat) : Nat := s.windowDA (2048 * n)
def State.respDA (s : State) (n : Nat) : Nat := s.windowDA (2048 * n + 1024)

/-- A slot is postable: READY, with an RSEQ it has not accepted (R612). -/
def State.postable (s : State) (n : Nat) : Bool :=
  let h := leNat (s.readDA (s.slotDA n) 4).data
  h.testBit 31 && decide (h % 65536 ≠ (s.slot n).rseq.toNat)

/-- A slot enters IDLE, and is PENDING at once where its header is postable (R612). -/
def State.slotIdle (s : State) (n : Nat) : State :=
  let live := match s.groupOf n with | some g => !(s.group g).closing | none => false
  s.updSlot n fun x => { x with st := if live && s.postable n then .pending else .idle, latch := false }

/-- A group whose EN has been cleared is off once no slot of it is ACCEPTED or FENCED (R612). -/
def State.groupClose (s : State) (g : Nat) : State :=
  let gr := s.group g
  let mine := (List.range gr.count.toNat).map fun i => gr.first.toNat + i
  let busy := mine.any fun n => (s.slot n).st == .accepted || (s.slot n).st == .fenced
  if gr.closing && !busy then
    let s1 := mine.foldl (fun st n => if (st.slot n).st == .pending then st.updSlot n fun x => { x with st := .idle } else st) s
    s1.updGroup g fun x => { x with en := false, closing := false }
  else s

/-- The token of a slot is cleared: it is IDLE, and its group may close (R612). -/
def State.slotCleared (s : State) (n : Nat) : State :=
  let g := s.groupOf n
  let s1 := s.slotIdle n
  match g with
  | some g => s1.groupClose g
  | none => s1

/-- A status word alone in a slot's response half (R610). -/
def State.statusWord (s : State) (n : Nat) (code : BitVec 12) : State :=
  s.devWrite (s.respDA n) (leBytes 4 ((s.slot n).rseq.toNat + 65536 * code.toNat + 2 ^ 31) ++ leBytes 4 0)

/-- A header write reaches a slot (R612). -/
def State.headerWrite (s : State) (n : Nat) : State :=
  match s.groupOf n with
  | none => s
  | some g =>
    if (s.slot n).st != .idle then s.updSlot n fun x => { x with latch := true }
    else if !(s.group g).closing && s.postable n then s.updSlot n fun x => { x with st := .pending }
    else s

end Sys2Proof.Machine
end

