-- ==== Sys2Proof/Machine/Tasks.lean ====
section
/-! DEFINITION. Task programs, tasks, the owed ledger and pair mismatches (R456–R467, R475, R480–R485, R575, R576), and
the kernel-queue commands and events about them. -/
namespace Sys2Proof.Machine
open Sys2Proof

def State.pair (s : State) (n : Nat) : CcPair := s.cc.pairs.get {} n
def State.updPair (s : State) (n : Nat) (f : CcPair → CcPair) : State :=
  { s with cc := { s.cc with pairs := s.cc.pairs.upd {} n f } }

def State.task (s : State) (n sl : Nat) : Option Task := (s.pair n).tasks.find sl
def State.setTask (s : State) (n sl : Nat) (t : Task) : State := s.updPair n fun p => { p with tasks := p.tasks.set sl t }

/-! ### Registers of a pair (R488–R490) -/

/-- Work lists of a pair in flight. -/
def State.pairLists (s : State) (n : Nat) : Nat := (s.co.wls.filter fun (kv : Nat × WorkList) => kv.2.pair == n).length

def State.pairStsReg (s : State) (n : Nat) : W32 :=
  let p := s.pair n
  let st := if p.resync then 1 else match s.health .pair n with | .inService => 0 | .suspect => 2 | .retired => 3
  regOf [(0, st), (2, p.tasks.length), (8, min 64 (s.pairLists n)), (16, p.mismatch.toNat)]

def CcPair.ledgerReg (p : CcPair) : W32 := regOf [(0, min 65535 p.ledger.length)]

/-- Code bytes of the registered programs. -/
def State.progBytes (s : State) : Nat := (s.cc.progs.map fun (kv : Nat × Prog) => kv.2.code.length).sum

def State.progReg (s : State) : W32 := regOf [(0, 524288 - s.progBytes), (20, s.cc.progs.length)]

/-! ### Fault records of a pair (R580, R833) -/

/-- The instruction word at a task's position. -/
def State.taskWord (s : State) (t : Task) : Nat :=
  match s.cc.progs.find t.prog with
  | some pr => leAt pr.code t.pc 4
  | none => 0

/-- A record of class 3, with the two cores' values. -/
def State.pairFault (s : State) (n : Nat) (sl : Option Nat) (code rung : Nat) (lead check : W64) : State :=
  let (cmd, part) := match sl.bind (s.task n) with
    | some t => (leBytes 2 (sl.getD 0) ++ leBytes 2 t.prog ++ leBytes 4 t.pc ++ leBytes 4 (s.taskWord t), t.part)
    | none => ([], 0xFF)
  s.fault { mkFault 3 n code with
    rung := rung, part := part, cmd := cmd, cmdV := !cmd.isEmpty
    state := leBytes 8 lead.toNat ++ leBytes 8 check.toNat ++ leBytes 4 (s.pairStsReg n).toNat
      ++ leBytes 2 (s.pair n).ledger.length }

/-- The SEQ that RESULT names for an event's record: the record just written, or 0 where it was suppressed (R572). -/
def faultSeq (before after : State) : W64 :=
  if after.faults.seq = before.faults.seq then 0 else BitVec.ofNat 64 before.faults.seq

/-! ### The owed ledger (R466, R467, R575, R576) -/

def eraseOwed (o : Owed) : List Owed → List Owed
  | [] => []
  | x :: xs => if x = o then xs else x :: eraseOwed o xs

def State.dropOwed (s : State) (n : Nat) (o : Owed) : State := s.updPair n fun p => { p with ledger := eraseOwed o p.ledger }

/-- Post the CQE of an owed completion. -/
def State.postOwed (s : State) (o : Owed) (code : BitVec 12) (result : W64) (subst : W32 := 0) : State :=
  let s1 := if o.own then s.updQ o.q fun x => { x with infl := dropInfl (o.id.setWidth 16) x.infl } else s
  s1.postCqe o.q { result := result, subst := subst, id := o.id, code := code, tAcc := o.tAcc % 2 ^ 48 }

/-- A completion is made in hardware: a spout slot's status word first, then its CQE; an expired token is only cleared
(R480 step 3, R483 step 4, R576). -/
def State.hwComplete (s : State) (n : Nat) (o : Owed) (code : BitVec 12) (result : W64) : State :=
  let s1 := s.dropOwed n o
  let s2 := if o.expired then s1 else (if o.kind = 1 then s1.statusWord o.index code else s1).postOwed o code result
  if o.kind = 1 then s2.slotCleared o.index else s2

/-- An answer of a partition (R675). -/
def State.answer (s : State) (p : Nat) : State :=
  { s with int := { s.int with asn := s.int.asn + 1, partAns := s.int.partAns.upd 0 p (· + 1) } }

/-- The token of an owed completion (R466). -/
def Owed.token (o : Owed) : Nat := if o.own then 0 else o.index + 65536 * o.kind + 2 ^ 18 * o.sel

/-- The owed completion that a token names for a task: its own TASK_RUN for token 0; else the oldest one with that
token, of the task's own before those of its partition's other tasks. -/
def State.owedFor (s : State) (n sl : Nat) (t : Task) (tok : Nat) : Option Owed :=
  let l := (s.pair n).ledger.filter fun o => o.part == t.part && o.token == tok
  match l.find? fun o => o.own && o.task == sl with
  | some o => some o
  | none =>
    match l.find? fun o => !o.own && o.task == sl with
    | some o => some o
    | none => l.find? fun o => !o.own

/-! ### How a task ends (R480, R481) -/

/-- The task's handles are abandoned: its work lists and batches go on without it. -/
def State.abandon (s : State) (n sl : Nat) : State :=
  let wl := fun (kv : Nat × WorkList) =>
    if kv.2.pair = n ∧ (kv.2.task.map Prod.fst) = some sl then (kv.1, { kv.2 with task := none }) else kv
  let ba := fun (kv : Nat × Batch) =>
    match kv.2.origin with
    | .task p x _ => if p = n ∧ x = sl then (kv.1, { kv.2 with origin := .task 8 0 0 }) else kv
    | _ => kv
  { s with co := { s.co with wls := s.co.wls.map wl }, upd := { s.upd with batches := s.upd.batches.map ba } }

/-- The completion of a standing task's own TASK_RUN. -/
def Task.ownOwed (t : Task) (sl : Nat) : Owed :=
  { index := 0, kind := 0, sel := 0, part := t.part, task := sl, own := true, q := t.q
    id := cidWord t.q (field t.raw 16 16), tAcc := t.tAcc, due := t.due }

/-- A task ends: everything it owes is completed with a status, and its slot and frame are free. A standing task that
ends with `ownOk` and owes nothing else completes its TASK_RUN with success. -/
def State.endTask (s : State) (n sl : Nat) (code : BitVec 12) (result : W64) (ownOk : Bool) : State :=
  match s.task n sl with
  | none => s
  | some t =>
    let owed := (s.pair n).ledger.filter fun o => o.task == sl
    let s1 := owed.foldl (fun st o => st.hwComplete n o code result) (s.abandon n sl)
    let s2 := if !t.standing then s1
      else if ownOk && owed.isEmpty then s1.postOwed (t.ownOwed sl) stSuccess 0
      else s1.postOwed (t.ownOwed sl) code result
    let s3 := t.stop.foldl (fun st c => st.complete c.1 c.2 stSuccess) s2
    s3.updPair n fun p => { p with tasks := p.tasks.del sl, run := if p.run = some sl then none else p.run
                                   last := if p.run = some sl then sl else p.last }

/-- A task exception (R479, R480). -/
def State.taskExc (s : State) (n sl code : Nat) : State :=
  let s1 := s.pairFault n (some sl) (0x0200 + code) 0 0 0
  s1.endTask n sl stTaskExc (faultSeq s s1) false

/-- END, and TASK_STOP (R481). -/
def State.taskEnd (s : State) (n sl : Nat) : State := s.endTask n sl stTaskNopost 0 true

/-! ### Which task runs (R458) -/

/-- A handle that a task holds, by its word. -/
def Task.handleOf (t : Task) (x : W64) : Option Nat :=
  (t.handles.find? fun (kv : Nat × HandleSt) => Config.handleWord kv.1 == x).map Prod.fst

/-- A cluster sequencer's queue has no room for one more entry (R473). -/
def State.cluFull (s : State) (c : Nat) : Bool :=
  let coming := (s.co.wls.map fun (kv : Nat × WorkList) => (kv.2.toArrive.filter fun (x : Nat × WlEntry) => x.1 == c).length).sum
  decide (16 ≤ (s.cluster c).wq.length + coming)

/-- ISSUE must wait (R473, R485). -/
def State.issueHeld (s : State) (n : Nat) (cl : List Nat) : Bool := cl.any s.cluFull || decide (64 ≤ s.pairLists n)

/-- A task is ready: its next instruction does not wait. -/
def State.taskReady (s : State) (n : Nat) (t : Task) : Bool :=
  match t.wait with
  | .ready => true
  | .sleep _ => false
  | .waitq _ _ _ _ => false
  | .waiti h => t.handles.find h != some .pending
  | .issue cl => !s.issueHeld n cl
  | .upd => !s.batchesHeld
  | .dmov da k => s.performed [(da, k)]

/-- The task that runs, or the next ready one in slot order after the one the pair left. -/
def State.current (s : State) (n : Nat) : Option Nat :=
  let p := s.pair n
  match p.run with
  | some sl => some sl
  | none =>
    ((List.range 32).map fun i => (p.last + 1 + i) % 32).find? fun sl =>
      match s.task n sl with
      | some t => s.taskReady n t
      | none => false

/-- The pair runs at all: in service, not halted by a debugger, and out of reset. -/
def State.pairRuns (s : State) (n : Nat) : Bool := s.pairServes n && !s.sec.haltPairs.contains n

/-- A task waits: the pair leaves it, and a stop that has come ends it (R458, R481). -/
def State.taskWait (s : State) (n sl : Nat) (w : TaskWait) (timed : Bool) : State :=
  match s.task n sl with
  | none => s
  | some t =>
    let s1 := (s.setTask n sl { t with wait := w, waitDue := if timed then some s.gtoDue else none }).updPair n fun p =>
      { p with run := none, last := sl }
    if t.stop.isEmpty then s1 else s1.taskEnd n sl

/-! ### TASK_REG and TASK_UNREG (R459, R460) -/

/-- A program as its image gives it; none where the header breaks R459. -/
def progOf (b : List Byte) (len : Nat) : Option Prog :=
  let cl := leAt b 0 4
  let ok := cl % 4 == 0 && decide (4 ≤ cl ∧ cl ≤ 65536) && leAt b 4 4 % 4 == 0 && decide (leAt b 4 4 < cl)
    && decide (1 ≤ leAt b 8 1 ∧ leAt b 8 1 ≤ 16) && decide (1 ≤ leAt b 9 1 ∧ leAt b 9 1 ≤ 16) && decide (leAt b 10 1 < 4)
    && decide (64 + cl = len)
  if ok then
    some { entry := leAt b 4 4, frame := 4096 * leAt b 8 1, maxh := leAt b 9 1, standingOk := (leAt b 10 1).testBit 0
           restart := (leAt b 10 1).testBit 1, code := (b.drop 64).take cl }
  else none

/-- TASK_REG. -/
def execTaskReg (c : KCmd) (s : State) : Res :=
  let id := c.a0.toNat
  let len := c.a2.toNat
  if 512 ≤ id then .next (s.done c stSqField)
  else if len < 64 ∨ 65600 < len then .next (s.done c stCcBad)
  else .next (s.withInput c c.a1.toNat len fun s b =>
    match progOf b len with
    | none => s.done c stCcBad
    | some pr =>
      if (s.cc.progs.find id).isSome then s.done c stCcInUse
      else if 524288 < s.progBytes + pr.code.length then s.done c stCcNoSpace
      else ({ s with cc := { s.cc with progs := s.cc.progs.set id pr } }).done c stSuccess 0 b)

/-- A task of a program exists, or waits to be restarted. -/
def State.progUsed (s : State) (id : Nat) : Bool :=
  s.cc.restarts.any (fun t => t.prog == id)
    || s.cc.pairs.any fun (kv : Nat × CcPair) => kv.2.tasks.any fun (x : Nat × Task) => x.2.prog == id

/-- TASK_UNREG. -/
def execTaskUnreg (c : KCmd) (s : State) : Res :=
  let id := c.a0.toNat
  .next (if (s.cc.progs.find id).isNone then s.done c stCcBad
    else if s.progUsed id then s.done c stCcInUse
    else ({ s with cc := { s.cc with progs := s.cc.progs.del id } }).done c stSuccess)

/-! ### TASK_RUN (R461–R463) -/

/-- Bytes of data memory that a pair's frames take. -/
def State.frameBytes (s : State) (n : Nat) : Nat :=
  ((s.pair n).tasks.map fun (kv : Nat × Task) => match s.cc.progs.find kv.2.prog with | some p => p.frame | none => 0).sum

/-- The eligible pair with the most free slots (R461). -/
def State.placePair (s : State) (part frame : Nat) : Option Nat :=
  let ok := (s.pairsOf part).filter fun n =>
    decide ((s.pair n).tasks.length < 32) && decide (s.frameBytes n + frame ≤ 2097152)
  ok.foldl (fun best n =>
    match best with
    | none => some n
    | some m => if (s.pair n).tasks.length < (s.pair m).tasks.length then some n else some m) none

/-- An element of a list that the spec leaves open: a free value picks it. -/
def State.pickFree (s : State) (l : List Nat) : Nat × State :=
  let (x, s1) := s.drawFree 32
  (l.getD (x.toNat % l.length) 0, s1)

/-- Start a task on a pair, in a free slot (R462). -/
def State.startTask (s : State) (n : Nat) (t : Task) (entry : Nat) : State :=
  let (sl, s1) := s.pickFree ((List.range 32).filter fun i => (s.task n i).isNone)
  let raw := leBytes 64 t.raw.toNat
  let frame := (raw ++ t.arg).zipIdx.foldl (fun (m : SMap Byte) x => m.set x.2 x.1) []
  let g : SMap W64 := [(1, 64), (2, BitVec.ofNat 64 t.arg.length), (3, BitVec.ofNat 64 t.part), (4, BitVec.ofNat 64 (n * 32 + sl))]
  let t1 := { t with g := g, frame := frame, pc := entry, handles := [], nextHandle := 1, wait := .ready
                     due := s.gtoDue, waitDue := none }
  let s2 := s1.setTask n sl t1
  if t.standing then s2
  else s2.updPair n fun p => { p with ledger := p.ledger ++ [t1.ownOwed sl] }

/-- The sources of a TASK_RUN: (kind, index) of each leading one with V set. -/
def taskSources (raw : Line) : List (Nat × Nat) :=
  let w := fun (i : Nat) => field raw (64 * (4 + i)) 64
  ((List.range 4).takeWhile fun i => bit (w i) 63).map fun i => ((field (w i) 16 2).toNat, (field (w i) 0 16).toNat)

/-- A source may be bound by a task of a partition (R463, R464, R567). -/
def State.sourceOk (s : State) (part : Nat) (src : Nat × Nat) : Bool :=
  match src.1 with
  | 0 => decide (src.2 < 1024) && !(s.queue src.2).kind && (s.queue src.2).part.toNat == part
  | 1 => decide (src.2 < 64) && (s.group src.2).en && (s.queue (s.group src.2).q.toNat).part.toNat == part
  | 2 => true
  | _ => false

/-- The TASK_RUN leaves its queue's head. -/
def State.unhead (s : State) (q : Nat) (cid : W16) : State :=
  s.updQ q fun x =>
    match x.head with
    | some (e, _) =>
      if field e.raw 0 8 = 1 ∧ field e.raw 16 16 = cid then
        { x with head := none
                 infl := x.infl ++ [{ cid := cid, opc := 1, tAcc := e.tAcc, fence := bit e.raw 8, raw := e.raw }] }
      else x
    | none => x

/-- TASK_RUN of queue q: refused, started where a pair can take it and a FENCE lets it start, or left waiting at the head of
its queue. -/
def State.taskRun (s : State) (q : Nat) (raw : Line) (tAcc : Nat) : State :=
  let cid := field raw 16 16
  let part := (s.queue q).part.toNat
  let id := (field raw 64 9).toNat
  let standing := bit raw 80
  let len := (field raw 192 64).toNat
  let srcs := if standing then taskSources raw else []
  let fail := fun (st : State) (code : BitVec 12) => (st.unhead q cid).complete q cid code
  match s.cc.progs.find id with
  | none => fail s stCcBad
  | some pr =>
    if 4096 < len ∨ pr.frame < 64 + len
        ∨ (standing = true ∧ (pr.standingOk = false ∨ srcs.isEmpty = true ∨ (srcs.all (s.sourceOk part)) = false)) then
      fail s stCcBad
    else
      match if bit raw 8 && !(s.queue q).infl.isEmpty then none else s.placePair part pr.frame with
      | none => s
      | some n =>
        let da := (field raw 128 64).toNat
        match if len = 0 then none else s.recall da len with
        | some s' => s'
        | none =>
          let s1 := if len = 0 then s else s.touch da len
          let r := if len = 0 then {} else s1.readDA da len
          if r.unmapped then fail s1 stDaUnmapped
          else if r.poison then fail s1 stCcArgPoison
          else
            (s1.unhead q cid).startTask n
              { prog := id, part := part, standing := standing, q := q, raw := raw, tAcc := tAcc, pc := pr.entry
                sources := srcs, arg := r.data } pr.entry

/-- The SQE of a command, from its operands. -/
def cmdRaw (c : KCmd) (opc : Nat) : Line :=
  BitVec.ofNat 512 (leNat (leBytes 2 opc ++ leBytes 2 c.cid.toNat ++ leBytes 4 0 ++
    ([c.a0, c.a1, c.a2, c.a3, c.a4, c.a5, c.a6].flatMap fun a => leBytes 8 a.toNat)))

/-- TASK_RUN (R461). -/
def execTaskRun (c : KCmd) (s : State) : Res :=
  let tAcc := match (s.queue c.q.val).head with
    | some (e, _) => if field e.raw 16 16 = c.cid then e.tAcc else s.time.now
    | none => s.time.now
  .next (s.taskRun c.q.val (cmdRaw c 1) tAcc)

/-- TASK_PLACE (R461, R483 step 5): queue q's waiting TASK_RUN is tried again; q = 1,024 stands for the first standing
task that waits to be restarted. -/
def execTaskPlace (q : Fin 1025) (s : State) : Res :=
  if q.val = 1024 then
    match s.cc.restarts with
    | [] => .next s
    | t :: rest =>
      match s.cc.progs.find t.prog with
      | none => .next s
      | some pr =>
        match s.placePair t.part pr.frame with
        | none => .next s
        | some n => .next (({ s with cc := { s.cc with restarts := rest } }).startTask n t pr.entry)
  else
    match (s.queue q.val).head with
    | some (e, _) => if field e.raw 0 8 = 1 then .next (s.taskRun q.val e.raw e.tAcc) else .next s
    | none => .next s

/-- TASK_STOP (R481). -/
def execTaskStop (c : KCmd) (s : State) : Res :=
  let n := c.a0.toNat
  let sl := c.a1.toNat
  if 8 ≤ n ∨ 32 ≤ sl then .next (s.done c stSqField)
  else
    match s.task n sl with
    | none => .next (s.done c stCcBad)
    | some t =>
      if !t.standing then .next (s.done c stCcBad)
      else
        let s1 := s.setTask n sl { t with stop := t.stop ++ [(c.q.val, c.cid)] }
        .next (if s.taskReady n t then s1 else s1.taskEnd n sl)

/-- TASK_QUANTUM (R458, R481): the running task has run 2,048 handshakes; a stop that has come takes effect. -/
def execTaskQuantum (pair : Fin 8) (s : State) : Res :=
  let n := pair.val
  match (s.pair n).run with
  | none => .next s
  | some sl =>
    let stop := match s.task n sl with | some t => !t.stop.isEmpty | none => false
    .next (if stop then s.taskEnd n sl else s.updPair n fun p => { p with run := none, last := sl })

/-- SLEEP_EXPIRY (R64). -/
def execSleepExpiry (pair : Fin 8) (slot : Fin 32) (s : State) : Res :=
  match s.task pair.val slot.val with
  | some t =>
    (match t.wait with
     | .sleep u => if u ≤ s.time.now then .next (s.setTask pair.val slot.val { t with wait := .ready }) else .next s
     | _ => .next s)
  | none => .next s

/-! ### Delivery (R465, R466, R470, R612) -/

def Task.readFrame (t : Task) (a n : Nat) : List Byte := (List.range n).map fun i => t.frame.get 0 (a + i)
def Task.writeFrame (t : Task) (a : Nat) (bs : List Byte) : Task :=
  { t with frame := bs.zipIdx.foldl (fun (m : SMap Byte) x => m.set (a + x.2) x.1) t.frame }

def Task.reg (t : Task) (i : Nat) : W64 := if i = 0 then 0 else t.g.get 0 i
def Task.setReg (t : Task) (i : Nat) (v : W64) : Task := if i = 0 then t else { t with g := t.g.set i v }

/-- Frame size of a task. -/
def State.frameOf (s : State) (t : Task) : Nat := match s.cc.progs.find t.prog with | some p => p.frame | none => 0

/-- A task accepts an entry: it is copied to the frame, RD takes the token, and a completion may be owed. An entry that
the frame cannot hold is not accepted (R479). -/
def State.accept (s : State) (n sl : Nat) (t : Task) (addr rd : Nat) (bs : List Byte) (o : Owed) (f : State → State) :
    State :=
  if s.frameOf t < addr + bs.length then s.taskExc n sl 4
  else
    let t1 := ((t.writeFrame addr bs).setReg rd (BitVec.ofNat 64 o.token))
    let s1 := (f s).setTask n sl { t1 with wait := .ready, pc := t.pc + 4 }
    if o.kind = 2 then s1 else s1.updPair n fun p => { p with ledger := p.ledger ++ [o] }

/-- An item of the step builder waits that a pair may take. -/
def State.sbItem (s : State) (p n : Nat) : Bool :=
  (s.part p).lists.any (fun (l : SbList) => l.pair.isNone) || (s.part p).notices.any fun (x : Notice) => x.pair == n

/-- The front end may fetch from a queue (R562, R617). -/
def State.mayFetch (s : State) (q : Nat) : Bool :=
  let x := s.queue q
  x.st == .enabled && x.sqHead != x.sqTail && (x.loc || s.busOk x.fn.toNat)

/-- A fetch fails (R583): the queue enters ERROR, and a CQE without a command says so. -/
def State.fetchFailed (s : State) (q : Nat) : State :=
  let s1 := s.queueFault q 0x0B05
  let s2 := s1.updQ q fun x => { x with st := .error, errc := 1 }
  s2.postCqe q { result := faultSeq s s1, id := cidWord q 0xFFFF, code := stSqFetch, tAcc := s.time.now % 2 ^ 48 }

/-- The entry at a queue's head: read from the window for LOC 1, else as the host's completion gave it; none where the
read failed or is poisoned. -/
def State.sqeAt (s : State) (q : Nat) (raw : Line) (ok : Bool) : Option Line :=
  let x := s.queue q
  if x.loc then
    let r := s.readDA (s.windowDA (x.sbase.toNat + 64 * x.sqHead)) 64
    if r.clean then some (BitVec.ofNat 512 (leNat r.data)) else none
  else if ok && s.host.up then some raw else none

/-- The wait for a window entry's recall, where the ring lies there. -/
def State.sqeRecall (s : State) (q : Nat) : Option State :=
  let x := s.queue q
  if x.loc then s.recall (s.windowDA (x.sbase.toNat + 64 * x.sqHead)) 64 else none

/-- Deliver a submission entry of a bound queue. -/
def State.deliverSqe (s : State) (n sl : Nat) (t : Task) (addr rd sel q : Nat) (raw : Line) (ok : Bool) : State :=
  if !s.mayFetch q then s
  else
    match s.sqeRecall q with
    | some s' => s'
    | none =>
      match s.sqeAt q raw ok with
      | none => s.fetchFailed q
      | some l =>
        s.accept n sl t addr rd (leBytes 64 l.toNat)
          { index := q, kind := 0, sel := sel, part := t.part, task := sl, q := q, id := cidWord q (field l 16 16)
            tAcc := s.time.now, due := s.gtoDue }
          fun st => st.updQ q fun x => { x with sqHead := (x.sqHead + 1) % x.sqSize }

/-- Deliver the n-th PENDING slot of a bound group. -/
def State.deliverSlot (s : State) (n sl : Nat) (t : Task) (addr rd sel g k : Nat) : State :=
  let gr := s.group g
  let pend := ((List.range gr.count.toNat).map fun i => gr.first.toNat + i).filter fun i => (s.slot i).st == .pending
  match pend[k]? with
  | none => s
  | some i =>
    match s.recall (s.slotDA i) 1024 with
    | some s' => s'
    | none =>
      let r := s.readDA (s.slotDA i) 1024
      let q := gr.q.toNat
      let seq := BitVec.ofNat 16 (leAt r.data 0 2)
      s.accept n sl t addr rd r.data
        { index := i, kind := 1, sel := sel, part := t.part, task := sl, q := q
          id := BitVec.ofNat 32 (i + 65536 * q + 2 ^ 26), tAcc := s.time.now, due := s.gtoDue }
        fun st => st.updSlot i fun x => { x with st := .accepted, rseq := seq }

/-- Deliver an item of the step builder: the oldest work list that waits, or the oldest notice for the pair. The number in
its token is a free value: the spec does not number the items. -/
def State.deliverSb (s : State) (n sl : Nat) (t : Task) (addr rd sel : Nat) (notice : Bool) : State :=
  let (x, s0) := s.drawFree 16
  let o : Owed := { index := x.toNat, kind := 2, sel := sel, part := t.part, task := sl, q := 0, id := 0
                    tAcc := s.time.now, due := s.gtoDue }
  if notice then
    match (s.part t.part).notices.find? fun (y : Notice) => y.pair == n with
    | none => s
    | some y => s0.accept n sl t addr rd y.bytes o fun st => st.updPart t.part fun p => { p with notices := p.notices.erase y }
  else
    match (s.part t.part).lists.find? fun (l : SbList) => l.pair.isNone with
    | none => s
    | some l =>
      let mark := fun (z : SbList) => if z.slot = l.slot then { z with pair := some n } else z
      s0.accept n sl t addr rd l.bytes o fun st => st.updPart t.part fun p => { p with lists := p.lists.map mark }

/-- WAITQ_DELIVERY (R466): the source that a selector of a waiting task names gives it an entry. `k` is the PENDING slot
in order, and for the step builder 0 a work list and 1 a notice; `raw` and `ok` are what the host answers to the fetch of
an SQE from host memory. -/
def execWaitqDelivery (pair : Fin 8) (slot : Fin 32) (sel : Fin 4) (k : Nat) (raw : Line) (ok : Bool) (s : State) : Res :=
  let n := pair.val
  let sl := slot.val
  match s.task n sl with
  | none => .next s
  | some t =>
    match t.wait with
    | .waitq sl0 any addr rd =>
      let mine := ((s.pair n).ledger.filter fun o => o.task == sl).length
      if !s.pairRuns n || decide (1024 ≤ mine) || (!any && sl0 != sel.val) then .next s
      else
        match t.sources[sel.val]? with
        | none => .next s
        | some (0, q) => .next (s.deliverSqe n sl t addr rd sel.val q raw ok)
        | some (1, g) =>
          let sb := any && t.sources.any (fun (x : Nat × Nat) => x.1 == 2) && s.sbItem t.part n
          if sb then .next s else .next (s.deliverSlot n sl t addr rd sel.val g k)
        | some _ => .next (s.deliverSb n sl t addr rd sel.val (k == 1))
    | _ => .next s

/-! ### Timers of tasks and tokens (R575, R576) -/

/-- TOKEN_TIMEOUT: the n-th owed completion of a pair expires. -/
def execTokenTimeout (pair : Fin 8) (n : Nat) (s : State) : Res :=
  match (s.pair pair.val).ledger[n]? with
  | none => .next s
  | some o =>
    if o.own || o.expired || !s.gtoPassed o.due then .next s
    else
      let s1 := s.pairFault pair.val (some o.task) 0x0B01 0 0 0
      let s2 := if o.kind = 1 then s1.statusWord o.index stTimeout else s1
      let s3 := s2.postOwed o stTimeout (faultSeq s s1)
      let s4 := if o.kind = 1 then s3.updSlot o.index fun x => { x with st := .fenced } else s3
      .next (s4.updPair pair.val fun p => { p with
        ledger := p.ledger.map fun (x : Owed) => if x = o then { x with expired := true } else x })

/-- A task reaches the global timeout. -/
def State.taskTimeout (s : State) (n sl : Nat) : State :=
  let s1 := s.pairFault n (some sl) 0x0B02 0 0 0
  s1.endTask n sl stTimeout (faultSeq s s1) false

/-- TASK_TIMEOUT: a launched task. -/
def execTaskTimeout (pair : Fin 8) (slot : Fin 32) (s : State) : Res :=
  match s.task pair.val slot.val with
  | some t => if !t.standing && s.gtoPassed t.due then .next (s.taskTimeout pair.val slot.val) else .next s
  | none => .next s

/-- TASK_WAIT_TIMEOUT: a task in WAITI, or waiting in ISSUE, UPD or POST. -/
def execTaskWaitTimeout (pair : Fin 8) (slot : Fin 32) (s : State) : Res :=
  match s.task pair.val slot.val with
  | some t =>
    (match t.waitDue with
     | some f => if s.gtoPassed f && !s.taskReady pair.val t then .next (s.taskTimeout pair.val slot.val) else .next s
     | none => .next s)
  | none => .next s

/-! ### Lockstep mismatches (R482–R484, R549) -/

/-- Work-list entries of a pair that have not started are dropped (R483 step 3). -/
def State.dropPairLists (s : State) (n : Nat) : State :=
  (s.co.wls.filter fun (kv : Nat × WorkList) => kv.2.pair == n).foldl (fun st kv =>
    let id := kv.1
    let waiting := st.co.clu.flatMap fun (x : Nat × Cluster) =>
      (x.2.wq.filter fun (e : WlEntry) => e.wl == id).flatMap fun e => e.list x.1
    let coming := kv.2.toArrive.flatMap fun (x : Nat × WlEntry) => x.2.list x.1
    let k := waiting.length + coming.length
    let clu := st.co.clu.map fun (x : Nat × Cluster) =>
      (x.1, { x.2 with wq := x.2.wq.filter fun (e : WlEntry) => e.wl != id })
    let wls := st.co.wls.set id { kv.2 with task := none, toArrive := [] }
    let st1 := { st with co := { st.co with clu := clu, wls := wls } }
    if k = 0 then st1 else st1.wlLess id k true) s

/-- Active Sequence Table entries that a pair owns: waiting and DONE ones become FREE, running ones when their lists
complete, and no notice is sent (R549). -/
def State.dropOwnerEntries (s : State) (n : Nat) : State :=
  let one := fun (kv : Nat × AstEntry) =>
    if kv.2.st = .free ∨ kv.2.owner ≠ n then kv
    else if kv.2.st = .run then (kv.1, { kv.2 with cancel := true })
    else (kv.1, {})
  let part := fun (kv : Nat × Part) => (kv.1, { kv.2 with
    notices := kv.2.notices.filter fun (x : Notice) => x.pair != n
    lists := kv.2.lists.map fun (l : SbList) => if l.pair = some n ∧ l.issued = false then { l with pair := none } else l })
  { s with sc := { s.sc with ast := s.sc.ast.map one, parts := s.sc.parts.map part } }

/-- Partitions that a pair serves and that hold clusters. -/
def State.served (s : State) (n : Nat) : List Nat :=
  (List.range 16).filter fun p => (s.pair n).parts.getLsbD p && (s.part p).st.holds

/-- What a pair leaves behind when it goes out of service (R483 steps 3 to 5): its work lists, its ledger, its tasks. -/
def State.pairDown (s : State) (n : Nat) (res : W64) : State :=
  let s3 := s.dropPairLists n
  let s4 := (s3.pair n).ledger.foldl (fun st o => st.hwComplete n o stCcFault res) s3
  let tasks := (s4.pair n).tasks
  let s5 := tasks.foldl (fun st (kv : Nat × Task) =>
    let st1 := st.abandon n kv.1
    let st2 := kv.2.stop.foldl (fun x c => x.complete c.1 c.2 stSuccess) st1
    let again := match st.cc.progs.find kv.2.prog with | some p => p.restart | none => false
    if !kv.2.standing then st2
    else if again && kv.2.stop.isEmpty then { st2 with cc := { st2.cc with restarts := st2.cc.restarts ++ [kv.2] } }
    else st2.postOwed (kv.2.ownOwed kv.1) stCcFault res) s4
  (s5.updPair n fun p => { p with tasks := [], run := none, ledger := [] }).dropOwnerEntries n

/-- A mismatch of a pair (R483, steps 1 to 5), for a fault code, with the two cores' values. A second one of the pair, or
one beside another pair's of a shared partition, is a partition reset; so is one during a teardown (R484, R667). -/
def State.mismatch (s : State) (n code : Nat) (lead check : W64) : State :=
  let cur := s.current n
  let again := if (s.pair n).resync then s.served n
    else (s.served n).filter fun p =>
      (List.range 8).any (fun m => m != n && (s.pair m).resync && (s.pair m).parts.getLsbD p) || (s.part p).teardown
  let s1 := (s.pairFault n cur code 0 lead check).chargeUnit .pair n
  let res := faultSeq s s1
  let s2 := s1.updPair n fun p => { p with resync := true, mismatch := satInc p.mismatch }
  let s6 := s2.pairDown n res
  again.foldl (fun st p => st.partReset p 3 n) (s6.idleRequest (blkPair n))

/-- LOCKSTEP_MISMATCH: of the two cores (R482), or an uncorrectable word of the pair's memories (R663). -/
def execLockstepMismatch (pair : Fin 8) (memory : Bool) (lead check : W64) (s : State) : Res :=
  if s.serving .pair pair.val then .next (s.mismatch pair.val (if memory then 0x0403 else 0x0303) lead check) else .next s

/-- PAIR_RESYNC_COMPLETE (R483 step 6, R484, R667): the pair returns to service as its health says; one that fails its
self-test is charged again, and recovery steps up. A partition left with no pair in service is reset. -/
def execPairResyncComplete (pair : Fin 8) (pass : Bool) (s : State) : Res :=
  let n := pair.val
  if !(s.pair n).resync || (s.pair n).stuck || (s.rst.idleReqs.find (blkPair n)).isSome then .next s
  else
    let s0 := if pass then s else s.chargeUnit .pair n 1
    let s1 := s0.updPair n fun p => { p with resync := false }
    let s2 := if pass then s1 else (s.served n).foldl (fun st p => st.teardown p 3 n) s1
    .next ((s.served n).foldl (fun st p => if (st.pairsOf p).isEmpty then st.partReset p 3 n else st) s2)

end Sys2Proof.Machine
end

