-- ==== Sys2Proof/Machine/Transfer.lean ====
section
/-! DEFINITION. PULL and PUSH: descriptors, blocks, channels and their completion (R423, R436, R445, R491–R498,
R513). -/
namespace Sys2Proof.Machine
open Sys2Proof

/-- The channel list of a core. -/
def TCore.chan (c : TCore) (i : Nat) : List Xfer := c.xfer.get [] i

/-- Queue a transfer on its channel, which holds four (R436, R494). -/
def State.xferIssue (s : State) (k opc : Nat) (push : Bool) (w : BitVec 56) : CoreOut :=
  let c := s.tcore k
  let off := (c.sreg (bits w 55 51)).toNat
  let ch := bits w 50 48 + 8 * bits w 47 47
  match csCheck off 64 64 with
  | some e => .raise e.1 e.2
  | none =>
    if 4 ≤ (c.chan ch).length then .wait
    else
      let x : Xfer := { push := push, desc := off, pc := c.pc, w := wordOf opc w, pos := c.here
                        ctr := if bits w 43 43 = 1 then some (bits w 46 44) else none }
      .ok (s.updCore k fun c => { c with xfer := c.xfer.upd [] ch (· ++ [x]) })

/-- PULL: from DAs into the core store. -/
def execPull (core : Fin 1200) (w : BitVec 56) (s : State) : Res :=
  s.mSlot core.val 0x18 w [(55, 51), (50, 48), (47, 47), (46, 44), (43, 43)] fun s => s.xferIssue core.val 0x18 false w

/-- PUSH: from the core store to DAs. -/
def execPush (core : Fin 1200) (w : BitVec 56) (s : State) : Res :=
  s.mSlot core.val 0x19 w [(55, 51), (50, 48), (47, 47), (46, 44), (43, 43)] fun s => s.xferIssue core.val 0x19 true w

/-- A cluster belongs to the core's context (R423). -/
def State.inContext (s : State) (k cl : Nat) : Bool :=
  match s.partOf (coreCluster k) with
  | some p => (s.part p).cl.getLsbD cl
  | none => cl == coreCluster k

/-- The check of R423 on one line: DA_UNMAPPED, DA_PROTECTED, or nothing. -/
def State.daCheck (s : State) (inCtx : Nat → Bool) (write : Bool) (da : Nat) : Option Nat :=
  match s.place da with
  | .unmapped => some 0x0A
  | .cistern c => if inCtx c then none else some 0x0B
  | .coreStore k => if inCtx (coreCluster k) then none else some 0x0B
  | _ => if write && s.inStore da then some 0x0B else none

/-- The first line of a range that fails the check. -/
def State.rangeCheck (s : State) (inCtx : Nat → Bool) (write : Bool) (da lines : Nat) : Option (Nat × Nat) :=
  (List.range lines).findSome? fun i => (s.daCheck inCtx write (da + 64 * i)).map fun c => (c, da + 64 * i)

/-- Core-store bytes of a block, which may continue at offset 0. -/
def State.csBlock (s : State) (k off n : Nat) : Rd :=
  (csRanges off n).foldl (fun r x =>
    let d := s.readDA (coreStoreDA k x.1) x.2
    { data := r.data ++ d.data, poison := r.poison || d.poison }) {}

/-- Write a block into the core store. -/
def State.csPut (s : State) (k off : Nat) (bs : List Byte) (poison : Bool) : State :=
  if off + bs.length ≤ mib then s.writeDA (coreStoreDA k off) bs poison
  else
    (s.writeDA (coreStoreDA k off) (bs.take (mib - off)) poison).writeDA (coreStoreDA k 0) (bs.drop (mib - off)) poison

/-- Clusters of a broadcast (R513). -/
def State.bcastSet (s : State) (k bid : Nat) : List Nat :=
  match s.partOf (coreCluster k) with
  | none => []
  | some p => (List.range 100).filter fun c => (s.co.bars.get {} (p * 16 + bid)).cl.getLsbD c

/-- Replace the transfer at the head of a channel, or take it out. -/
def State.setHead (s : State) (k ch : Nat) (x : Option Xfer) : State :=
  let rest := ((s.tcore k).chan ch).tail
  s.updCore k fun c => { c with xfer :=
    match x, rest with
    | some y, _ => c.xfer.set ch (y :: rest)
    | none, [] => c.xfer.del ch
    | none, _ => c.xfer.set ch rest }

/-- A transfer raises an exception and ends at once (R445, R446). -/
def State.xferExc (s : State) (k ch : Nat) (x : Xfer) (code addr : Nat) (isDa : Bool) : State :=
  (s.setHead k ch none).deferExc k { code := code, pc := x.pc, w := x.w, addr := addr, isDa := isDa }

/-- The next place of a transfer after the block at hand. -/
def Xfer.advance (x : Xfer) (d : BlockDesc) (e : BlockEntry) : Xfer :=
  if x.rep + 1 < e.reps then { x with rep := x.rep + 1 }
  else if x.ent + 1 < d.nblk then { x with rep := 0, ent := x.ent + 1, entry := none }
  else if d.chain then { x with rep := 0, ent := 0, entry := none, dsc := none, desc := d.next }
  else { x with moved := true }

/-- Move one block whose range has been checked (R492, R513). -/
def State.moveBlock (s : State) (k ch : Nat) (x : Xfer) (d : BlockDesc) (e : BlockEntry) : State :=
  let da := e.daAt x.rep
  let cs := e.csAt x.rep
  let n := 64 * e.lines
  if x.push then
    let r := s.csBlock k cs n
    let put := fun (st : State) (a : Nat) => if r.poison then st.writeDA a r.data true else st.wr a r.data
    let off := da - cisternDA (coreCluster k) 0
    let s1 := if e.bcast then (s.bcastSet k e.bid).foldl (fun st c => put st (cisternDA c off)) s else put s da
    if r.poison then s1.xferExc k ch x 9 cs false
    else s1.setHead k ch (some { x.advance d e with dests := x.dests ++ [(da, n)] })
  else
    let s0 := s.touch da n
    let r := s0.readDA da n
    let s1 := s0.csPut k cs r.data r.poison
    if r.poison then s1.xferExc k ch x 9 da true else s1.setHead k ch (some (x.advance d e))

/-- The engine may move blocks: the partition is not stopped at a snapshot, and the die is up. -/
def State.xferRuns (s : State) (k : Nat) : Bool :=
  !s.rst.dieRst.contains (clusterDie (coreCluster k)) &&
    match s.partOf (coreCluster k) with
    | none => true
    | some p => let pt := s.part p; pt.snap.isNone && !pt.halted && !pt.teardown && pt.st != .resetting

/-- TRANSFER_BLOCK (R493–R496): the next block of the transfer at the head of a channel. Injected errors strike the
core-store or cistern read, or the mesh (R805). -/
def execTransferBlock (core : Fin 1200) (ch : Fin 16) (s : State) : Res :=
  let k := core.val
  match (s.tcore k).chan ch.val with
  | [] => .next s
  | x :: _ =>
    let db : Rd := match x.dsc with
      | some b => { data := b }
      | none => s.readDA (coreStoreDA k x.desc) 64
    let d := descOf db.data
    let eo := (d.blk + 32 * x.ent) % mib
    let eb : Rd := match x.entry with
      | some b => { data := b }
      | none => s.readDA (coreStoreDA k eo) 32
    let e := entryOf eb.data
    let da := e.daAt x.rep
    let n := 64 * e.lines
    let cs := csRanges (e.csAt x.rep) n
    let own := ownRange k da n
    let lists := (if x.dsc.isNone then [(x.desc, 64)] else []) ++ (if x.entry.isNone then [(eo, 32)] else [])
    let early := s.coreHeld k x.pos lists [] false
    if x.moved || !s.xferRuns k || early then .next s
    else if db.poison then .next (s.xferExc k ch.val x 9 x.desc false)
    else if eb.poison then .next (s.xferExc k ch.val x 9 eo false)
    else
      let y := { x with dsc := some db.data, entry := some eb.data }
      let bad := if x.push && e.bcast then
          let b := cisternDA (coreCluster k) 0
          if b ≤ da ∧ da + n ≤ b + 8 * mib then none else some (0x0B, da)
        else s.rangeCheck (s.inContext k) x.push da e.lines
      let held := s.coreHeld k x.pos (if x.push then cs else own) (if x.push then own else cs) true
      if held || (e.comma && x.rep == 0 && !s.performed x.dests) then .next (s.setHead k ch.val (some y))
      else
        match bad, (if x.push then none else s.recall da n) with
        | some b, _ => .next (s.xferExc k ch.val y b.1 b.2 true)
        | none, some s' => .next (s'.setHead k ch.val (some y))
        | none, none =>
          let cl := coreCluster k
          let c0 := cisternDA cl 0
          let mine := !x.push && decide (c0 ≤ da ∧ da < c0 + 8 * mib)
          if x.push && s.injFires 2 k then .next (s.injDone.sramFault cl (some k))
          else if mine && s.injFires 4 cl then .next (s.injDone.sramFault cl none)
          else
            let s1 := if x.push && s.injFires 1 k then s.injDone.countCe .core k else s
            let s2 := if mine && s1.injFires 3 cl then s1.injDone.countCe .cluster cl else s1
            .next ((s2.meshInject cl).moveBlock k ch.val y d e)

/-- TRANSFER_COMPLETE (R493): every line of the transfer is performed, and its counter goes up. -/
def execTransferComplete (core : Fin 1200) (ch : Fin 16) (s : State) : Res :=
  let k := core.val
  match (s.tcore k).chan ch.val with
  | [] => .next s
  | x :: _ =>
    if x.moved && s.performed x.dests then
      let s1 := s.setHead k ch.val none
      .next (match x.ctr with | some i => s1.bumpCtr k i | none => s1)
    else .next s

end Sys2Proof.Machine
end

