-- ==== Sys2Proof/Machine/ControlCore.lean ====
section
/-! DEFINITION. The control-core instruction set (R468–R481): one instruction of the task that runs on a pair, its word
given by bits [25:0]. -/
namespace Sys2Proof.Machine
open Sys2Proof

/-! ### Fields (R468) -/

/-- Bits [hi:lo] of an instruction word. -/
def cbits (w : BitVec 26) (hi lo : Nat) : Nat := w.toNat / 2 ^ lo % 2 ^ (hi + 1 - lo)

def iRD (w : BitVec 26) : Nat := cbits w 25 21
def iRA (w : BitVec 26) : Nat := cbits w 20 16
def iRB (w : BitVec 26) : Nat := cbits w 15 11
def iSub (w : BitVec 26) : Nat := cbits w 10 0
def iImm (w : BitVec 26) : Nat := cbits w 15 0

/-- IMM16 sign-extended, and zero-extended. -/
def immS (w : BitVec 26) : W64 := BitVec.ofInt 64 (toSigned 16 (iImm w))
def immZ (w : BitVec 26) : W64 := BitVec.ofNat 64 (iImm w)

/-- Where an instruction leaves its task. -/
inductive CcOut where
  /-- Done: the next instruction follows. -/
  | ok (s : State) (t : Task)
  /-- Done, and the next instruction waits. -/
  | then_ (s : State) (t : Task) (w : TaskWait)
  | goto (t : Task) (target : Int)
  /-- Not done: the task waits, timed by R575 where the flag is set. -/
  | wait (w : TaskWait) (timed : Bool)
  /-- Not done: it is executed again, after what the state now waits for. -/
  | again (s : State)
  | exc (s : State) (t : Task) (code : Nat)
  | ends

/-- The exception codes of R479. -/
abbrev excIllegal : Nat := 1
abbrev excField : Nat := 2
abbrev excAlign : Nat := 3
abbrev excFrame : Nat := 4
abbrev excPc : Nat := 5

/-- A task as it stands after an instruction: ready, at an address. -/
def Task.at (t : Task) (pc : Nat) : Task := { t with pc := pc, wait := .ready, waitDue := none }

/-- A target is valid within a program (R469): its exception, if not. -/
def targetExc (len : Nat) (x : Int) : Option Nat :=
  if x % 4 ≠ 0 then some excAlign else if x < 0 ∨ (len : Int) ≤ x then some excPc else none

/-- Carry out one instruction's outcome for the running task. -/
def State.ccApply (s : State) (n sl : Nat) (t : Task) (len : Nat) : CcOut → State
  | .ok s1 t1 => s1.setTask n sl (t1.at (t.pc + 4))
  | .then_ s1 t1 w => (s1.setTask n sl (t1.at (t.pc + 4))).taskWait n sl w false
  | .goto t1 x =>
    match targetExc len x with
    | some e => s.taskExc n sl e
    | none => s.setTask n sl (t1.at x.toNat)
  | .wait w timed => s.taskWait n sl w timed
  | .again s1 => s1.setTask n sl (t.at t.pc)
  | .exc s1 t1 e => (s1.setTask n sl t1).taskExc n sl e
  | .ends => s.taskEnd n sl

/-- One instruction on a pair: the running task's, or that of the next ready one. Fields outside `used` must be zero
(R468); running past the code's end is PC_RANGE. An armed injection of kind 9 fires (R805). -/
def State.ccInstr (s : State) (n : Nat) (w : BitVec 26) (used : List (Nat × Nat)) (body : State → Nat → Task → CcOut) :
    Res :=
  if !s.pairRuns n then .next s
  else
    match s.current n with
    | none => .next s
    | some sl =>
      match s.task n sl with
      | none => .next s
      | some t =>
        let len := match s.cc.progs.find t.prog with | some p => p.code.length | none => 0
        let s0 := s.updPair n fun p => { p with run := some sl }
        if s.injFires 9 n then
          let (a, s1) := s0.injDone.drawFree 64
          let (b, s2) := s1.drawFree 64
          .next (s2.mismatch n 0x0303 a b)
        else if len < t.pc + 4 then .next (s0.taskExc n sl excPc)
        else if !((List.range 26).all fun i => !bit w i || used.any fun f => decide (f.2 ≤ i ∧ i ≤ f.1)) then
          .next (s0.taskExc n sl excIllegal)
        else .next (s0.ccApply n sl t len (body s0 sl { t with wait := .ready }))

/-- Fields by format. -/
abbrev cRD : Nat × Nat := (25, 21)
abbrev cRA : Nat × Nat := (20, 16)
abbrev cRB : Nat × Nat := (15, 11)
abbrev cSUB : Nat × Nat := (10, 0)
abbrev cIMM : Nat × Nat := (15, 0)

/-- An instruction that writes RD from the task's registers. -/
def State.ccSet (s : State) (n : Nat) (w : BitVec 26) (used : List (Nat × Nat)) (f : Task → Option W64) : Res :=
  s.ccInstr n w used fun s _ t =>
    match f t with
    | some v => .ok s (t.setReg (iRD w) v)
    | none => .exc s t excIllegal

/-! ### Registers -/

/-- NOP. -/
def execCcNop (pair : Fin 8) (s : State) : Res := s.ccInstr pair.val 0 [] fun s _ t => .ok s t

/-- ALU. -/
def execAlu (pair : Fin 8) (w : BitVec 26) (s : State) : Res :=
  s.ccSet pair.val w [cRD, cRA, cRB, (3, 0)] fun t => aluOp (iSub w) (t.reg (iRA w)) (t.reg (iRB w))

/-- ADDI. -/
def execAddi (pair : Fin 8) (w : BitVec 26) (s : State) : Res :=
  s.ccSet pair.val w [cRD, cRA, cIMM] fun t => some (t.reg (iRA w) + immS w)

/-- ANDI. -/
def execAndi (pair : Fin 8) (w : BitVec 26) (s : State) : Res :=
  s.ccSet pair.val w [cRD, cRA, cIMM] fun t => some (t.reg (iRA w) &&& immZ w)

/-- ORI. -/
def execOri (pair : Fin 8) (w : BitVec 26) (s : State) : Res :=
  s.ccSet pair.val w [cRD, cRA, cIMM] fun t => some (t.reg (iRA w) ||| immZ w)

/-- XORI. -/
def execXori (pair : Fin 8) (w : BitVec 26) (s : State) : Res :=
  s.ccSet pair.val w [cRD, cRA, cIMM] fun t => some (t.reg (iRA w) ^^^ immZ w)

/-- SHI: SHL, SHR or SRA by IMM[5:0]. -/
def execShi (pair : Fin 8) (w : BitVec 26) (s : State) : Res :=
  s.ccSet pair.val w [cRD, cRA, (7, 0)] fun t =>
    if cbits w 7 6 = 3 then none
    else aluOp (6 + cbits w 7 6) (t.reg (iRA w)) (BitVec.ofNat 64 (cbits w 5 0))

/-- MOVI. -/
def execMovi (pair : Fin 8) (w : BitVec 26) (s : State) : Res :=
  s.ccSet pair.val w [cRD, cIMM] fun _ => some (immS w)

/-- MOVK. -/
def execMovk (pair : Fin 8) (w : BitVec 26) (s : State) : Res :=
  s.ccSet pair.val w [cRD, (17, 16), cIMM] fun t =>
    some (setField (t.reg (iRD w)) (16 * cbits w 17 16) 16 (BitVec.ofNat 16 (iImm w)))

/-- TIME: the low 64 bits of device time (R54). -/
def execCcTime (pair : Fin 8) (w : BitVec 26) (s : State) : Res :=
  s.ccSet pair.val w [cRD] fun _ => some (BitVec.ofNat 64 s.time.now)

/-! ### The frame -/

/-- A frame access of `n` bytes: its exception, if it has one. -/
def State.frameExc (s : State) (t : Task) (a : Nat) (align n : Nat) : Option Nat :=
  if a % align ≠ 0 then some excAlign else if s.frameOf t < a + n then some excFrame else none

/-- A load of n bytes. -/
def State.ccLoad (s : State) (n : Nat) (w : BitVec 26) (len : Nat) : Res :=
  s.ccInstr n w [cRD, cRA, cIMM] fun s _ t =>
    let a := (t.reg (iRA w) + immS w).toNat
    match s.frameExc t a len len with
    | some e => .exc s t e
    | none => .ok s (t.setReg (iRD w) (BitVec.ofNat 64 (leNat (t.readFrame a len))))

/-- A store of n bytes. -/
def State.ccStore (s : State) (n : Nat) (w : BitVec 26) (len : Nat) : Res :=
  s.ccInstr n w [cRD, cRA, cIMM] fun s _ t =>
    let a := (t.reg (iRA w) + immS w).toNat
    match s.frameExc t a len len with
    | some e => .exc s t e
    | none => .ok s (t.writeFrame a (leBytes len (t.reg (iRD w)).toNat))

/-- LD. -/
def execLd (pair : Fin 8) (w : BitVec 26) (s : State) : Res := s.ccLoad pair.val w 8
/-- LW: zero-extended. -/
def execLw (pair : Fin 8) (w : BitVec 26) (s : State) : Res := s.ccLoad pair.val w 4
/-- ST. -/
def execSt (pair : Fin 8) (w : BitVec 26) (s : State) : Res := s.ccStore pair.val w 8
/-- SW. -/
def execSw (pair : Fin 8) (w : BitVec 26) (s : State) : Res := s.ccStore pair.val w 4

/-! ### Branches and jumps -/

/-- A branch on RA and RB, in format B: RA in bits [25:21] and RB in [20:16]. -/
def State.ccBranch (s : State) (n : Nat) (w : BitVec 26) (cond : Nat) : Res :=
  s.ccInstr n w [cRD, cRA, cIMM] fun s _ t =>
    if condHolds cond (t.reg (iRD w)) (t.reg (iRA w)) then .goto t (t.pc + 4 * toSigned 16 (iImm w)) else .ok s t

/-- BEQ. -/
def execBeq (pair : Fin 8) (w : BitVec 26) (s : State) : Res := s.ccBranch pair.val w 1
/-- BNE. -/
def execBne (pair : Fin 8) (w : BitVec 26) (s : State) : Res := s.ccBranch pair.val w 2
/-- BLT. -/
def execBlt (pair : Fin 8) (w : BitVec 26) (s : State) : Res := s.ccBranch pair.val w 3
/-- BGE. -/
def execBge (pair : Fin 8) (w : BitVec 26) (s : State) : Res := s.ccBranch pair.val w 4
/-- BLTU. -/
def execBltu (pair : Fin 8) (w : BitVec 26) (s : State) : Res := s.ccBranch pair.val w 5
/-- BGEU. -/
def execBgeu (pair : Fin 8) (w : BitVec 26) (s : State) : Res := s.ccBranch pair.val w 6

/-- JAL. -/
def execJal (pair : Fin 8) (w : BitVec 26) (s : State) : Res :=
  s.ccInstr pair.val w [cRD, (20, 0)] fun _ _ t =>
    .goto (t.setReg (iRD w) (BitVec.ofNat 64 (t.pc + 4))) (t.pc + 4 * toSigned 21 (cbits w 20 0))

/-- JR. -/
def execJr (pair : Fin 8) (w : BitVec 26) (s : State) : Res :=
  s.ccInstr pair.val w [cRA] fun _ _ t => .goto t (t.reg (iRA w)).toNat

/-! ### Waiting -/

/-- SLEEP. -/
def execSleep (pair : Fin 8) (w : BitVec 26) (s : State) : Res :=
  s.ccInstr pair.val w [cRA] fun s _ t =>
    let u := (t.reg (iRA w)).toNat
    if u ≤ s.time.now then .ok s t else .then_ s t (.sleep u)

/-- WAITQ (R470). -/
def execWaitq (pair : Fin 8) (w : BitVec 26) (s : State) : Res :=
  s.ccInstr pair.val w [cRD, cRA, (2, 0)] fun s _ t =>
    let a := (t.reg (iRA w)).toNat
    let any := cbits w 2 2 == 1
    if a % 64 ≠ 0 then .exc s t excAlign
    else if t.sources.isEmpty || (!any && decide (t.sources.length ≤ cbits w 1 0)) then .exc s t excField
    else .wait (.waitq (cbits w 1 0) any a (iRD w)) false

/-- WAITI (R474). -/
def execWaiti (pair : Fin 8) (w : BitVec 26) (s : State) : Res :=
  s.ccInstr pair.val w [cRD, cRA, (0, 0)] fun s _ t =>
    match t.handleOf (t.reg (iRA w)) with
    | none => .exc s t 8
    | some h =>
      let ret := fun (x : W64) => CcOut.ok s ({ t with handles := t.handles.del h }.setReg (iRD w) x)
      match t.handles.get .pending h with
      | .complete => ret 0
      | .torn => ret 1
      | .updErr => ret 2
      | .pending => if cbits w 0 0 = 1 then .ok s (t.setReg (iRD w) 0xFF) else .wait (.waiti h) true

/-! ### ISSUE (R471–R473) -/

/-- Entry e of a work list: its cluster, and its fields. -/
def wlEntryOf (b : List Byte) (wl e : Nat) : Nat × WlEntry :=
  let r := (b.drop (16 + 80 * e)).take 80
  (leAt r 0 1, { wl := wl, cores := BitVec.ofNat 12 (leAt r 2 2), stream := leAt r 4 4, step := leAt r 8 4
                 args := (List.range 8).map fun i => BitVec.ofNat 64 (leAt r (16 + 8 * i) 8), raw := r })

/-- The entry breaks R472. -/
def wlEntryBad (b : List Byte) (e : Nat) : Bool :=
  let r := (b.drop (16 + 80 * e)).take 80
  leAt r 1 1 != 0 || decide (4096 ≤ leAt r 2 2) || leAt r 2 2 == 0 || decide (2 ^ 23 ≤ leAt r 4 4)
    || leAt r 4 4 % 16 != 0 || leAt r 12 4 != 0

/-- Two entries name the same cluster. -/
def dupNat : List Nat → Bool
  | [] => false
  | x :: xs => xs.contains x || dupNat xs

/-- Hand a checked work list to the cluster sequencers. -/
def State.issueList (s : State) (n sl : Nat) (t : Task) (h : Nat) (b : List Byte) (k : Nat) : State :=
  let id := s.co.nextWl
  let es := (List.range k).map (wlEntryOf b id)
  let sb := (leAt b 2 1).testBit 0
  let da := leAt b 32 8
  let w : WorkList := { pair := n, task := some (sl, h), part := t.part, sb := sb, batchDa := da, toArrive := es
                        left := (es.map fun x => (x.2.list x.1).length).sum, issuedNo := id }
  let mark := fun (l : SbList) => if l.pair.isSome && (s.part t.part).slotDA l.slot == da then { l with issued := true } else l
  let s1 := { s with co := { s.co with wls := s.co.wls.set id w, nextWl := id + 1 } }
  if sb then s1.updPart t.part fun p => { p with lists := p.lists.map mark } else s1

/-- ISSUE. -/
def execIssue (pair : Fin 8) (w : BitVec 26) (s : State) : Res :=
  let n := pair.val
  s.ccInstr n w [cRD, cRA] fun s sl t =>
    let a := (t.reg (iRA w)).toNat
    let maxh := match s.cc.progs.find t.prog with | some p => p.maxh | none => 0
    match s.frameExc t a 64 16 with
    | some e => .exc s t e
    | none =>
      let hd := t.readFrame a 16
      let k := leAt hd 0 2
      if k = 0 ∨ 100 < k ∨ 2 ≤ leAt hd 2 1 ∨ leAt hd 3 13 ≠ 0 then .exc s t 6
      else if s.frameOf t < a + 16 + 80 * k then .exc s t excFrame
      else
        let b := t.readFrame a (16 + 80 * k)
        let cl := (List.range k).map fun e => (wlEntryOf b 0 e).1
        if (List.range k).any (wlEntryBad b) || dupNat cl then .exc s t 6
        else if cl.any (fun c => s.partOf c != some t.part) then .exc s t 7
        else if maxh ≤ t.handles.length then .exc s t 8
        else if s.issueHeld n cl then .wait (.issue cl) true
        else
          let h := t.nextHandle
          .ok (s.issueList n sl t h b k)
            ({ t with handles := t.handles.set h .pending, nextHandle := h + 1 }.setReg (iRD w) (Config.handleWord h))

/-! ### POST (R475, R571, R576) -/

/-- A request status (R571). -/
def requestStatus (c : Nat) : Bool := c == 0 || decide (0x180 ≤ c ∧ c ≤ 0x186) || decide (0xE00 ≤ c ∧ c ≤ 0xEFF)

/-- POST. -/
def execPost (pair : Fin 8) (w : BitVec 26) (s : State) : Res :=
  let n := pair.val
  s.ccInstr n w [cRA, cRB] fun s sl t =>
    let a := (t.reg (iRA w)).toNat
    match s.frameExc t a 32 32 with
    | some e => .exc s t e
    | none =>
      let b := t.readFrame a 32
      let code := leAt b 18 2 % 4096
      match s.owedFor n sl t (t.reg (iRB w)).toNat with
      | none => .exc s t 9
      | some o =>
        if !requestStatus code then .exc s t 9
        else
          let s1 := s.dropOwed n o
          let s2 := if o.expired then s1
            else
              let s3 := s1.postOwed o (BitVec.ofNat 12 code) (BitVec.ofNat 64 (leAt b 0 8)) (BitVec.ofNat 32 (leAt b 8 4))
              if code = 0 && !o.own then s3.answer o.part else s3
          .ok (if o.kind = 1 then s2.slotCleared o.index else s2) t

/-! ### DMOV and UPD (R476, R477) -/

/-- The DA check of a task's partition on a range of lines (R423). -/
def State.taskDaExc (s : State) (t : Task) (write : Bool) (da lines : Nat) : Option Nat :=
  (s.rangeCheck (fun c => s.partOf c == some t.part) write da lines).map Prod.fst

/-- Lines of a DA range into the frame, until one reads poisoned. -/
def State.dmovIn (s : State) (t : Task) (fa da : Nat) : Nat → Nat → Task × Bool
  | 0, _ => (t, false)
  | k + 1, i =>
    let r := s.readDA (da + 64 * i) 64
    if r.poison then (t, true) else s.dmovIn (t.writeFrame (fa + 64 * i) r.data) fa da k (i + 1)

/-- DMOV out of the frame: the next instruction waits until the write is performed. -/
def State.dmovOut (s : State) (t : Task) (fa da k : Nat) : CcOut :=
  let s1 := s.wr da (t.readFrame fa (64 * k))
  if s1.performed [(da, 64 * k)] then .ok s1 t else .then_ s1 t (.dmov da (64 * k))

/-- DMOV into the frame: lines the device may have lent are recalled first, and poison is an exception. -/
def State.dmovBring (s : State) (t : Task) (fa da k : Nat) : CcOut :=
  match s.recall da (64 * k) with
  | some s' => .again s'
  | none =>
    let s1 := s.touch da (64 * k)
    let r := s1.dmovIn t fa da k 0
    if r.2 then .exc s1 r.1 0x0C else .ok s1 r.1

/-- DMOV. -/
def execDmov (pair : Fin 8) (w : BitVec 26) (s : State) : Res :=
  s.ccInstr pair.val w [cRA, cRB, cSUB] fun s _ t =>
    let fa := (t.reg (iRA w)).toNat
    let da := (t.reg (iRB w)).toNat
    let k := cbits w 9 0 + 1
    let out := cbits w 10 10 == 1
    if da % 64 ≠ 0 then .exc s t excAlign
    else
      match s.frameExc t fa 64 (64 * k) with
      | some e => .exc s t e
      | none =>
        match s.taskDaExc t out da k with
        | some e => .exc s t e
        | none =>
          if out then s.dmovOut t fa da k else s.dmovBring t fa da k

/-- UPD. -/
def execUpd (pair : Fin 8) (w : BitVec 26) (s : State) : Res :=
  let n := pair.val
  s.ccInstr n w [cRD, cRA] fun s sl t =>
    let da := (t.reg (iRA w)).toNat
    let maxh := match s.cc.progs.find t.prog with | some p => p.maxh | none => 0
    if da % 64 ≠ 0 then .exc s t excAlign
    else if maxh ≤ t.handles.length then .exc s t 8
    else if s.batchesHeld then .wait .upd true
    else
      match s.recall da 64 with
      | some s' => .again s'
      | none =>
      let h := t.nextHandle
      let t1 := { t with handles := t.handles.set h .pending, nextHandle := h + 1 }.setReg (iRD w) (Config.handleWord h)
      let s1 := s.touch da 64
      let r := s1.readDA da 64
      let fail : Batch := { origin := .task n sl h, part := t.part, descDa := da, table := 0 }
      if r.unmapped || r.poison then
        let t2 := { t1 with handles := t1.handles.set h .updErr }
        .ok (if r.unmapped then s1 else s1.devWrite (da + 56) (leBytes 8 ({ fail with status := 4 } : Batch).result)) t2
      else
        -- the handle must stand in the task when the batch reports at once
        let s2 := (s1.setTask n sl t1).batchAccept (.task n sl h) t.part da r.data
        match s2.task n sl with
        | some t2 => .ok s2 t2
        | none => .ok s2 t1

/-! ### SEQ (R478, R532–R536) -/

/-- The state codes of an entry, which the spec leaves open. -/
def AstState.num : AstState → Nat
  | .free => 0 | .ready => 1 | .decode => 2 | .finish => 3 | .run => 4 | .done => 5

/-- The 64 bytes of an entry (R532). -/
def AstEntry.bytes (e : AstEntry) : List Byte :=
  [Config.astState e.st.num, BitVec.ofNat 8 e.gen.toNat, BitVec.ofNat 8 e.cls, BitVec.ofNat 8 e.model
   , BitVec.ofNat 8 e.levels, BitVec.ofNat 8 e.step, BitVec.ofNat 8 e.beams
   , BitVec.ofNat 8 (e.owner + 8 * e.cancel.toNat + 16 * e.nstat.code)]
    ++ leBytes 8 e.deadline ++ leBytes 8 e.arrive ++ leBytes 8 e.token.toNat ++ leBytes 8 e.inDa ++ leBytes 8 e.outDa
    ++ leBytes 8 e.histDa ++ leBytes 4 e.hpagesM1 ++ leBytes 2 e.ncand ++ [0, 0]

/-- An entry as a CREATE image gives it; none where a field breaks R532. -/
def astOf (b : List Byte) : Option AstEntry :=
  let gen := (leAt b 1 1).testBit 0
  let e : AstEntry := { gen := gen, cls := leAt b 2 1, model := leAt b 3 1, levels := leAt b 4 1, beams := leAt b 6 1
                        deadline := leAt b 8 8, token := BitVec.ofNat 64 (leAt b 24 8), inDa := leAt b 32 8
                        outDa := leAt b 40 8, histDa := leAt b 48 8, hpagesM1 := leAt b 56 4, ncand := leAt b 60 2 }
  let kinds := if gen then decide (1 ≤ e.levels) && decide (1 ≤ e.beams ∧ e.beams ≤ 16) && e.ncand == 0
    else e.levels == 0 && e.beams == 0 && decide (1 ≤ e.ncand ∧ e.ncand ≤ 4096)
  if decide (leAt b 1 1 < 2) && decide (e.cls < 4) && kinds && e.histDa % 8 == 0 && (e.histDa != 0 || e.hpagesM1 == 0)
      && leAt b 62 2 == 0 then some e else none

/-- The device refuses an image (R534): none; else the entry it describes. -/
def State.astAdmit (s : State) (p : Nat) (b : List Byte) : Option AstEntry :=
  match astOf b with
  | none => none
  | some e =>
    match s.sc.models.find e.model with
    | none => none
    | some m =>
      let d := mdescOf m.desc
      if (s.part p).st == .running && m.part == p && m.admits && (if e.gen then d.gen else d.rank)
          && decide (e.rows ≤ d.maxRows) then some e
      else none

/-- SEQ with SUB's operation `op`: what the row's own operation does; another operation's word is not this row's; SUB 3
and the zero bits raise ILLEGAL. -/
def State.seqOp (s : State) (n : Nat) (w : BitVec 26) (op : Nat) (used : List (Nat × Nat))
    (body : State → Nat → Task → CcOut) : Res :=
  let sub := cbits w 1 0
  if sub ≠ op ∧ sub ≠ 3 then .next s
  else s.ccInstr n w ((1, 0) :: used) fun s sl t => if sub = 3 then .exc s t excIllegal else body s sl t

/-- SEQ CREATE (R534). Which free entry it takes is a free value. -/
def execSeqCreate (pair : Fin 8) (w : BitVec 26) (s : State) : Res :=
  s.seqOp pair.val w 0 [cRD, cRA] fun s _ t =>
    let a := (t.reg (iRA w)).toNat
    match s.frameExc t a 1 64 with
    | some e => .exc s t e
    | none =>
      match s.astAdmit t.part (t.readFrame a 64) with
      | none => .ok s (t.setReg (iRD w) 0xFFFFFFFFFFFFFFFE)
      | some e =>
        let pt := s.part t.part
        let free := (List.range pt.astCount.toNat).filter fun i => (s.astE (pt.entry i)).st == .free
        if free.isEmpty then .ok s (t.setReg (iRD w) 0xFFFFFFFFFFFFFFFF)
        else
          let (i, s1) := s.pickFree free
          let e1 := { e with st := if e.gen then .decode else .ready, owner := pair.val, arrive := s.time.now % 2 ^ 64
                             since := s.time.now }
          .ok (s1.updAst (pt.entry i) fun _ => e1) (t.setReg (iRD w) (BitVec.ofNat 64 i))

/-- SEQ READ (R478). -/
def execSeqRead (pair : Fin 8) (w : BitVec 26) (s : State) : Res :=
  s.seqOp pair.val w 1 [cRA, cRB] fun s _ t =>
    let i := (t.reg (iRA w)).toNat
    let a := (t.reg (iRB w)).toNat
    if !(s.part t.part).owns i then .exc s t excField
    else
      match s.frameExc t a 1 64 with
      | some e => .exc s t e
      | none => .ok s (t.writeFrame a (s.astE ((s.part t.part).entry i)).bytes)

/-- SEQ RETIRE (R536). -/
def execSeqRetire (pair : Fin 8) (w : BitVec 26) (s : State) : Res :=
  s.seqOp pair.val w 2 [cRA] fun s _ t =>
    let i := (t.reg (iRA w)).toNat
    if !(s.part t.part).owns i then .exc s t excField
    else
      .ok (s.updAst ((s.part t.part).entry i) fun e =>
        match e.st with
        | .run => { e with cancel := true }
        | _ => {}) t

/-! ### The end of a task -/

/-- FAULT. -/
def execCcFault (pair : Fin 8) (w : BitVec 26) (s : State) : Res :=
  s.ccInstr pair.val w [cIMM] fun s _ t => .exc s t 0x0D

/-- END. -/
def execTaskEnd (pair : Fin 8) (w : BitVec 26) (s : State) : Res := s.ccInstr pair.val w [] fun _ _ _ => .ends

end Sys2Proof.Machine
end

