-- ==== Sys2Proof/Machine/Globals.lean ====
section
/-! DEFINITION. The hub globals that software writes (R794–R798, R804, R805), and the writes of CC_PAIR_CFG (R457) and
PART_BAR (R515, R520). -/
namespace Sys2Proof.Machine
open Sys2Proof

/-! ### GLOBAL_TIMEOUT (R577, R794) -/

/-- A duration as the register keeps it: 1,000 ns to 2^36 ns. -/
def gtoClamp (n : Nat) : Nat := max 1000 (min n (2 ^ 36))

/-- A write of LO is held. -/
def State.writeGtoLo (s : State) (v : W32) : State := { s with hub := { s.hub with gtoLo := v } }

/-- A write of HI applies HI and the held LO. -/
def State.writeGtoHi (s : State) (v : W32) : State :=
  { s with hub := { s.hub with gto := gtoClamp ((field v 0 5).toNat * 2 ^ 32 + s.hub.gtoLo.toNat) } }

/-- GLOBAL_TIMEOUT_HI_WRITE. -/
def execGlobalTimeoutHiWrite (p : AccessPath) (v : W32) (s : State) : Res := .next (s.onCsr p .hub (·.writeGtoHi v))

/-! ### The interrupt summary (R795–R798) -/

/-- A write to a summary register leaves A; where A is nonzero, the vector is sent once. -/
def State.irqAfter (s : State) : State :=
  if s.hub.irqIen && (s.hub.irqSts &&& s.hub.irqEn) != 0 then s.msix 0 s.hub.irqVec.toNat else s

def State.writeIrqSts (s : State) (v : W32) : State :=
  State.irqAfter { s with hub := { s.hub with irqSts := s.hub.irqSts &&& ~~~(field v 0 16) } }

def State.writeIrqEn (s : State) (v : W32) : State :=
  State.irqAfter { s with hub := { s.hub with irqEn := field v 0 16 } }

def State.writeIrqVec (s : State) (v : W32) : State :=
  State.irqAfter { s with hub := { s.hub with irqVec := field v 0 11, irqIen := bit v 11 } }

/-- HUB_IRQ_WRITE: a write of HUB_IRQ_STS (0), HUB_IRQ_EN (1) or HUB_IRQ_VEC (2). -/
def execHubIrqWrite (p : AccessPath) (reg : Fin 3) (v : W32) (s : State) : Res :=
  .next (s.onCsr p .hub fun s =>
    match reg.val with
    | 0 => s.writeIrqSts v
    | 1 => s.writeIrqEn v
    | _ => s.writeIrqVec v)

/-! ### Error injection (R804, R805) -/

/-- TARGET is in range for KIND; false for KIND 0 and the reserved kinds. -/
def injLegal (kind target : Nat) : Bool :=
  match kind with
  | 1 => decide (target < 1200)
  | 2 => decide (target < 1200)
  | 3 => decide (target < 100)
  | 4 => decide (target < 100)
  | 5 => decide (target < 12)
  | 6 => decide (target < 12)
  | 7 => decide (target < 1200)
  | 8 => decide (target < 1200)
  | 9 => decide (target < 8)
  | 10 => decide (target < 100)
  | _ => false

/-- A write of HUB_INJ: FIRED is cleared first; in SEALED and RETIRED the control fields keep their reset values (R783,
R804, R827). -/
def State.writeInj (s : State) (v : W32) : State :=
  let h := if bit v 17 then { s.hub with injFired := false } else s.hub
  if s.locked then { s with hub := { h with locked := h.locked || field v 0 17 != 0 } }
  else if bit v 16 && !injLegal (field v 0 4).toNat (field v 4 12).toNat then { s with hub := h }
  else { s with hub := { h with injKind := field v 0 4, injTarget := field v 4 12, injArm := bit v 16 } }

/-- HUB_INJ_WRITE. -/
def execHubInjWrite (p : AccessPath) (v : W32) (s : State) : Res := .next (s.onCsr p .hub (·.writeInj v))

/-! ### CC_PAIR_CFG (R457, R487) -/

/-- A submission queue or a spout slot group is bound to a partition. -/
def State.partBound (s : State) (p : Nat) : Bool :=
  s.queues.any (fun (kv : Nat × Queue) => kv.2.st != .disabled && kv.2.part.toNat == p)
    || s.host.groups.any fun (kv : Nat × SpGroup) => kv.2.en && (s.queue kv.2.q.toNat).part.toNat == p

def CcPair.cfgReg (p : CcPair) : W32 := regOf [(0, p.parts.toNat), (16, p.err.toNat)]

/-- A write of CC_PAIR_CFG: refused where it would leave a bound partition with fewer than two serving pairs, or clear the
bit of a partition whose task the pair runs. -/
def State.writePairCfg (s : State) (n : Nat) (v : W32) : State :=
  let old := (s.cc.pairs.get {} n).parts
  let s0 := { s with cc := { s.cc with pairs := s.cc.pairs.upd {} n fun p => { p with err := p.err && !bit v 16 } } }
  let s1 := { s0 with cc := { s0.cc with pairs := s0.cc.pairs.upd {} n fun p => { p with parts := field v 0 16 } } }
  let thin := (List.range 16).any fun p => s1.partBound p && decide ((s1.pairsOf p).length < 2)
  let runs := (s.cc.pairs.get {} n).tasks.any fun (kv : Nat × Task) => !bit v kv.2.part
  if field v 0 16 = old then s0
  else if thin || runs then { s0 with cc := { s0.cc with pairs := s0.cc.pairs.upd {} n fun p => { p with err := true } } }
  else s1

/-- CC_PAIR_CFG_WRITE. -/
def execCcPairCfgWrite (p : AccessPath) (pair : Fin 8) (v : W32) (s : State) : Res :=
  .next (s.onCsr p .hub (·.writePairCfg pair.val v))

/-! ### PART_BAR (R515, R520) -/

/-- A word of PART_BAR as it reads. -/
def PartBar.reg (b : PartBar) (w : Nat) : W32 :=
  if w = 3 then regOf [(0, (field b.cl 96 4).toNat), (30, b.err.toNat), (31, b.pair.toNat)]
  else regOf [(0, (b.cl.extractLsb' (32 * w) 32).toNat)]

/-- The barrier with a word's fields written. -/
def PartBar.withWord (b : PartBar) (w : Nat) (v : W32) : PartBar :=
  match w with
  | 0 => { b with cl := setField b.cl 0 32 v }
  | 1 => { b with cl := setField b.cl 32 32 v }
  | 2 => { b with cl := setField b.cl 64 32 v }
  | _ => { b with cl := setField b.cl 96 4 (field v 0 4), pair := bit v 31 }

/-- A write of a word of PART_BAR: refused while the partition runs a context, or where it names a cluster outside the
partition. -/
def State.writePartBar (s : State) (p b w : Nat) (v : W32) : State :=
  let x := s.co.bars.get {} (16 * p + b)
  let x0 := { x with err := x.err && !(decide (w = 3) && bit v 30) }
  let x1 := x0.withWord w v
  let named := x1.cl &&& setField 0 (32 * w) 32 (BitVec.allOnes 32)
  let bad := (s.part p).ctxV || (named &&& ~~~(s.part p).cl) != 0
  let y := if x1 = x0 then x0 else if bad then { x0 with err := true } else x1
  { s with co := { s.co with bars := s.co.bars.set (16 * p + b) y } }

/-- PART_BAR_WRITE. -/
def execPartBarWrite (p : AccessPath) (part : Fin 16) (bar : Fin 16) (word : Fin 4) (v : W32) (s : State) : Res :=
  .next (s.onCsr p .hub (·.writePartBar part.val bar.val word.val v))

end Sys2Proof.Machine
end

