-- ==== Sys2Proof/Machine/Queues.lean ====
section
/-! DEFINITION. Submission and completion queues (R560–R576, R583–R589): doorbells, fetch and its checks, held
completions, coalescing, enabling and draining. -/
namespace Sys2Proof.Machine
open Sys2Proof

/-! ### Doorbells (R563, R583, R589) -/

/-- Doorbell pages are served: the part is READY and the queue's function is not in D3hot. -/
def State.bellServed (s : State) (q : Nat) : Bool :=
  s.rst.start == .ready && s.hubPowered && s.pwr.dstate != .d3hot && !s.host.ideHold
    && !(s.func (s.queue q).fn.toNat).d3hot

/-- SQ_DB. -/
def execSqDb (q : Fin 1024) (v : W32) (s : State) : Res :=
  let x := s.queue q.val
  let tail := (field v 0 16).toNat
  if !s.bellServed q.val || x.st != .enabled then .next s
  else if x.sqSize ≤ tail then
    .next ((s.updQ q.val fun y => { y with st := .error, errc := 2 }).queueFault q.val 0x0B05)
  else .next (s.updQ q.val fun y => { y with sqTail := tail })

/-- CQ_DB. -/
def execCqDb (q : Fin 1024) (v : W32) (s : State) : Res :=
  let x := s.queue q.val
  let h := (field v 0 16).toNat
  let dist := fun (a : Nat) => (a + x.cqSize - x.cqHead) % x.cqSize
  if !s.bellServed q.val || x.st == .disabled then .next s
  else if x.cqSize ≤ h ∨ dist x.cqTail < dist h then .next (s.updQ q.val fun y => { y with cqDberr := true })
  else .next (s.updQ q.val fun y => { y with cqHead := h })

/-! ### Fetch (R567, R568) -/

/-- What an argument word may hold (R565, R567). -/
inductive ArgKind where
  /-- Not used: zero. -/
  | zero
  | any
  | da
  /-- An index below a bound. -/
  | below (n : Nat)
  /-- ARG0 of TASK_RUN, and its sources. -/
  | run
  | source
deriving DecidableEq, Repr

def ArgKind.ok (k : ArgKind) (x : W64) : Bool :=
  match k with
  | .zero => x == 0
  | .any => true
  | .da => decide (x.toNat < 2 ^ 52)
  | .below n => decide (x.toNat < n)
  | .run => (x &&& 0xFFFFFFFFFFFEFE00) == 0
  | .source => (x &&& 0x7FFFFFFFFFFC0000) == 0

/-- The arguments of each opcode that R566 gives; those not named are not used. -/
def argKinds : Nat → Option (List ArgKind)
  | 0x00 => some []
  | 0x01 => some [.run, .da, .any, .source, .source, .source, .source]
  | 0x02 => some [.da]
  | 0x08 => some [.below 16]
  | 0x09 => some [.below 16, .below 2]
  | 0x0A => some [.below 16, .below 3]
  | 0x0C => some [.below 256, .da]
  | 0x0D => some [.below 256, .below 2]
  | 0x0E => some [.below 256]
  | 0x10 => some [.below 512, .da, .any]
  | 0x11 => some [.below 512]
  | 0x12 => some [.below 8, .below 32]
  | 0x18 => some [.below 262144, .da]
  | 0x19 => some [.below 262144, .da, .any, .any]
  | 0x1A => some [.below 262144]
  | 0x1B => some [.below 262144]
  | 0x1C => some [.below 262144]
  | 0x1D => some [.below 262144]
  | 0x20 => some []
  | 0x21 => some [.below 256]
  | 0x28 => some [.below 4096, .da]
  | 0x29 => some [.below 4096]
  | 0x2A => some [.below 4096, .da]
  | 0x2B => some [.da]
  | 0x30 => some [.da, .any, .da]
  | 0x31 => some [.da, .any, .da]
  | 0x32 => some [.da, .any, .da]
  | 0x33 => some [.da, .any, .da]
  | 0x34 => some [.below 4096, .below 12, .any, .da, .any]
  | 0x35 => some [.below 262144]
  | 0x36 => some [.below 262144]
  | 0x37 => some [.da, .any, .da]
  | 0x38 => some [.below 64, .any, .any]
  | 0x39 => some [.below 64]
  | 0x40 => some [.any, .any]
  | 0x41 => some []
  | 0x42 => some [.below 4096, .any, .any, .any]
  | 0x43 => some [.any]
  | 0x44 => some []
  | 0x45 => some [.below 8, .below 8]
  | 0x46 => some [.below 8]
  | _ => none

/-- Opcodes that user queues may carry, and those of partition scope (R566). -/
def userOpc (o : Nat) : Bool := decide (o ≤ 2)
def partScope (o : Nat) : Bool :=
  [0x00, 0x01, 0x02, 0x0A, 0x0C, 0x0D, 0x0E, 0x12, 0x18, 0x19, 0x1A, 0x1B, 0x1C, 0x1D, 0x21].contains o

/-- The part is a standby, which refuses what would change mirrored state (R639). -/
def State.standby (s : State) : Bool := s.pl.role == .standby || s.pl.role == .standbyIncomplete

/-- Argument i of an entry. -/
def sqeArg (l : Line) (i : Nat) : W64 := field l (64 * (i + 1)) 64

/-- The scope of an entry holds (R567 check 3). The PART field of an image is checked when the image is read. -/
def State.scopeOk (s : State) (q : Nat) (l : Line) : Bool :=
  let o := (field l 0 8).toNat
  let x := s.queue q
  let part := x.part.toNat
  let a0 := (sqeArg l 0).toNat
  let named : Bool :=
    match o with
    | 0x0A => a0 == part
    | 0x0D => (match s.sc.models.find a0 with | some m => m.part == part | none => false)
    | 0x0E => (match s.sc.models.find a0 with | some m => m.part == part | none => false)
    | 0x12 => (match s.task a0 (sqeArg l 1).toNat with | some t => t.part == part | none => true)
    | 0x21 => (match s.sc.models.find a0 with | some m => m.part == part | none => true)
    | 0x19 | 0x1A | 0x1B | 0x1C | 0x1D => !s.tda.live.contains a0 || (s.td a0).part == part
    | _ => true
  (if partScope o then named else x.kind && x.fn == 0)
    && !(s.standby && (changesMirrored o || o == 2))

/-- The sources of a TASK_RUN have V set for a leading run only. -/
def leadingV (l : Line) : Bool :=
  let v := (List.range 4).map fun i => bit (sqeArg l (3 + i)) 63
  (v.dropWhile id).all fun b => !b

/-- The first failing check of an entry (R567). -/
def State.sqeCheck (s : State) (q : Nat) (l : Line) : Option (BitVec 12) :=
  let o := (field l 0 8).toNat
  match argKinds o with
  | none => some stSqOpcode
  | some ks =>
    let user := !(s.queue q).kind
    if user && (!userOpc o || (o == 1 && bit l 80)) then some stSqPriv
    else if !s.scopeOk q l then some stSqScope
    else if field l 9 7 != 0 || field l 32 32 != 0 || (o == 1 && !leadingV l)
        || !((List.range 7).all fun i => (ks.getD i .zero).ok (sqeArg l i)) then some stSqField
    else none

/-- A standing task is bound to the queue, so the front end leaves its entries to it (R465). -/
def State.taskBound (s : State) (q : Nat) : Bool :=
  s.cc.pairs.any (fun (kv : Nat × CcPair) => kv.2.tasks.any fun (x : Nat × Task) => x.2.standing && x.2.sources.contains (0, q))
    || s.cc.restarts.any fun (t : Task) => t.sources.contains (0, q)

/-- Post the CQE of an entry that never ran. -/
def State.sqeRefuse (s : State) (q : Nat) (e : Sqe) (code : BitVec 12) : State :=
  s.postCqe q { id := cidWord q (field e.raw 16 16), code := code, tAcc := e.tAcc % 2 ^ 48 }

/-- An entry that has passed its checks starts, or waits at the head: behind a FENCE, or as a TASK_RUN until a pair takes
it. -/
def State.sqeStart (s : State) (q : Nat) (e : Sqe) (since : Nat) : State :=
  let o := field e.raw 0 8
  if o = 1 || (bit e.raw 8 && !(s.queue q).infl.isEmpty) then s.updQ q fun x => { x with head := some (e, since) }
  else s.updQ q fun x => { x with
    head := none
    infl := x.infl ++ [{ cid := field e.raw 16 16, opc := o, tAcc := e.tAcc, fence := bit e.raw 8
                         raw := e.raw }] }

/-- SQE_FETCH (R567, R568): the entry held at a queue's head is tried, or the next one is fetched, checked and started.
`raw` and `ok` are what the host answers to a fetch from host memory. -/
def execSqeFetch (q : Fin 1024) (raw : Line) (ok : Bool) (s : State) : Res :=
  let x := s.queue q.val
  match x.head with
  | some (e, since) =>
    if field e.raw 0 8 = 1 || x.st == .disabled then .next s else .next (s.sqeStart q.val e since)
  | none =>
    if !s.mayFetch q.val || s.taskBound q.val || decide (64 ≤ x.infl.length) then .next s
    else
      match s.sqeRecall q.val with
      | some s' => .next s'
      | none =>
        match s.sqeAt q.val raw ok with
        | none => .next (s.fetchFailed q.val)
        | some l =>
          let s1 := s.updQ q.val fun y => { y with sqHead := (y.sqHead + 1) % y.sqSize }
          let e : Sqe := { raw := l, tAcc := s.time.now }
          match s1.sqeCheck q.val l with
          | some code => .next (s1.sqeRefuse q.val e code)
          | none => .next (s1.sqeStart q.val e s1.gtoDue)

/-- SQE_NOP (R566): the command completes. A NOP with FENCE starts only once every earlier entry has posted. -/
def execSqeNop (c : KCmd) (s : State) : Res := .next (s.done c stSuccess)

/-- TASK_RUN_HEAD_TIMEOUT (R575): a TASK_RUN held at its queue's head is not run. -/
def execTaskRunHeadTimeout (q : Fin 1024) (s : State) : Res :=
  match (s.queue q.val).head with
  | some (e, since) =>
    if field e.raw 0 8 = 1 ∧ s.gtoPassed since = true then
      .next ((s.updQ q.val fun x => { x with head := none }).sqeRefuse q.val e stTimeout)
    else .next s
  | none => .next s

/-! ### Held completions and interrupts (R573, R575) -/

/-- CQE_HOLD_RELEASE: the first held CQE is written once its CQ has room and its function may send. -/
def execCqeHoldRelease (q : Fin 1024) (s : State) : Res :=
  let x := s.queue q.val
  match x.held with
  | [] => .next s
  | c :: rest =>
    if x.full || (!x.loc && !s.busOk x.fn.toNat) || c.waits.any s.openWrites.contains then .next s
    else
      let s1 := s.updQ q.val fun y => { y with held := rest, cqFull := y.cqFull && !rest.isEmpty }
      .next (s1.writeCqe q.val c)

/-- CQE_HOLD_TIMEOUT: a CQE held for GLOBAL_TIMEOUT is dropped. -/
def execCqeHoldTimeout (q : Fin 1024) (s : State) : Res :=
  match (s.queue q.val).held with
  | [] => .next s
  | c :: rest =>
    if s.gtoPassed c.due && !c.waits.any s.openWrites.contains then
      let s1 := (s.updQ q.val fun y => { y with
        held := rest, cqLost := true, cqFull := y.cqFull && !rest.isEmpty }).queueFault q.val 0x0B04 (some (c.id.toNat % 65536))
      .next (if (s.queue q.val).cqLost then s1 else s1.irqEvent 14)
    else .next s

/-- CQ_COALESCE_TIMEOUT: COAL_US after the first unsignalled CQE. -/
def execCqCoalesceTimeout (q : Fin 1024) (s : State) : Res :=
  let x := s.queue q.val
  if x.ien && x.coalCnt != 0 && s.elapsed x.coalFirst (1000 * x.coalUs.toNat) then .next (s.signalQ q.val) else .next s

/-! ### Enabling and draining (R562, R584, R585, R597) -/

/-- The fields of an SQ_CFG write, EN and ERR aside. -/
def Queue.withCfg (x : Queue) (v : W32) : Queue :=
  { x with kind := bit v 1, loc := bit v 2, sqLog := field v 3 5, cqLog := field v 8 5, fn := field v 13 5
           part := field v 18 4 }

/-- The checks of setting EN; `vfOn` says whether the VF in FN is enabled in the SR-IOV capability. -/
def State.queueOk (s : State) (x : Queue) (vfOn : Bool) : Bool :=
  let log := fun (l : BitVec 5) => decide (4 ≤ l.toNat ∧ l.toNat ≤ 16)
  let inWin := fun (b n : Nat) => decide (b + n ≤ s.windowSize)
  log x.sqLog && log x.cqLog && decide (x.fn.toNat ≤ 16)
    && (!x.loc || (s.host.lcwEn && inWin x.sbase.toNat (64 * x.sqSize) && inWin x.cbase.toNat (32 * x.cqSize)))
    && (x.fn == 0 || (vfOn && x.part == (s.func x.fn.toNat).part && !x.loc && (!x.kind || (s.func x.fn.toNat).kq)))

/-- A queue begins to drain: an entry fetched but not started is discarded. -/
def State.queueDrain (s : State) (q : Nat) : State :=
  let s1 := s.updQ q fun x => { x with en := false, st := .draining, head := none }
  match (s.queue q).head with
  | some (e, _) => s1.sqeRefuse q e stSqAbort
  | none => s1

/-- A write of SQ_CFG (R585, R827). -/
def State.writeSqCfg (s : State) (q : Nat) (v : W32) (vfOn : Bool) : State :=
  let x0 := s.queue q
  let x := if bit v 22 then { x0 with err := false } else x0
  if x.st == .disabled then
    let x1 := x.withCfg v
    if bit v 0 then
      if s.queueOk x1 vfOn then
        s.updQ q fun _ => { x1 with
          en := true, st := .enabled, sqHead := 0, sqTail := 0, cqHead := 0, cqTail := 0, phase := true, errc := 0
          cqFull := false, coalCnt := 0 }
      else s.updQ q fun _ => { x1 with err := true }
    else s.updQ q fun _ => x1
  else
    let barred := decide (x.withCfg v ≠ x) || (bit v 0 && !x.en)
    let s1 := s.updQ q fun _ => { x with err := x.err || barred }
    if !bit v 0 && x.en then s1.queueDrain q else s1

/-- SQ_CFG_WRITE. -/
def execSqCfgWrite (p : AccessPath) (q : Fin 1024) (v : W32) (vfOn : Bool) (s : State) : Res :=
  .next (s.onCsr p .hub fun s => s.writeSqCfg q.val v vfOn)

/-- A completion is owed to a queue's CQ by a task. -/
def State.owedTo (s : State) (q : Nat) : Bool :=
  s.cc.pairs.any fun (kv : Nat × CcPair) => kv.2.ledger.any fun (o : Owed) => o.q == q && !o.expired

/-- QUEUE_DRAINED (R562). -/
def execQueueDrained (q : Fin 1024) (s : State) : Res :=
  let x := s.queue q.val
  if x.st == .draining && x.infl.isEmpty && x.held.isEmpty && !s.owedTo q.val then
    .next (s.updQ q.val fun y => { y with st := .disabled })
  else .next s

/-- A queue moves to DISABLED at once (R584): what is owed to it is discarded with a record each, and tokens leave the
ledgers. -/
def State.queueOff (s : State) (q : Nat) : State :=
  let s1 := s.updQ q fun x => { x with en := false, st := .disabled, head := none, held := [], infl := [], cqFull := false }
  let owed := s.cc.pairs.flatMap fun (kv : Nat × CcPair) => (kv.2.ledger.filter fun (o : Owed) => o.q == q).map fun o => (kv.1, o)
  let s2 := owed.foldl (fun st x =>
    let st1 := (st.dropOwed x.1 x.2).queueFault q 0x0B04
    if x.2.kind = 1 then st1.slotCleared x.2.index else st1) s1
  (s.queue q).held.foldl (fun st _ => st.queueFault q 0x0B04) s2

/-! ### Waits of cores (R575) -/

/-- CORE_WAIT_TIMEOUT: an instruction makes no progress for GLOBAL_TIMEOUT, and its context is torn down. -/
def execCoreWaitTimeout (core : Fin 1200) (s : State) : Res :=
  let k := core.val
  match (s.tcore k).waitDue with
  | some f =>
    if s.gtoPassed f then
      let c := s.tcore k
      let s1 := (s.coreFault k 0x0B03 (if (s.partOf (coreCluster k)).isSome then 1 else 0) c.pc false 0 none).updCore k fun x => { x with waitDue := none, stopped := true }
      .next (s1.tearCluster (coreCluster k) 1 k)
    else .next s
  | none => .next s

end Sys2Proof.Machine
end

