-- ==== Sys2Proof/Machine/SecBase.lean ====
section
/-! DEFINITION. Registers and records of the security engine and of power control (R743–R749), and the IDE hold
(R737). -/
namespace Sys2Proof.Machine
open Sys2Proof

def PState.code : PState → Nat
  | .p0 => 0 | .p0plus => 1 | .p1 => 2 | .p2 => 3

def PState.ofCode (n : Nat) : PState :=
  match n with
  | 0 => .p0
  | 1 => .p0plus
  | 2 => .p1
  | _ => .p2

/-- PWR_STS.DSTATE (R749); D3cold and OFF have no register. -/
def DState.code : DState → Nat
  | .d0 => 0 | .d0idle => 1 | .d3hot => 2 | .d3cold => 3 | .off => 3

/-- SEC_STS (R744). -/
def State.secStsReg (s : State) : W32 :=
  regOf [(0, s.lc), (2, s.sec.dbg.toNat), (4, s.sec.auth.toNat), (5, s.sec.dirty.toNat), (6, s.ident.fleetKey.isSome.toNat),
    (7, s.host.ideHold.toNat), (8, s.sec.sessions.length)]

/-- PWR_CTL (R748) and PWR_STS (R749). -/
def PowerState.ctlReg (p : PowerState) : W32 :=
  regOf [(0, p.preq.toNat), (2, p.idle.toNat), (3, p.capEn.toNat), (4, p.capW.toNat)]
def PowerState.stsReg (p : PowerState) : W32 :=
  regOf [(0, p.pstate.code), (2, p.ramp.isSome.toNat), (3, p.dstate.code), (5, p.capped.toNat), (6, p.refused.toNat),
    (16, p.powerW.toNat)]

/-- SEC_FKCV: the low word of the key check value of R640; 0 with no key (R747). -/
def State.keyCheck (s : State) : Nat :=
  digHash (s.fkWord 0) (s.fkWord 1) (s.fkWord 2) (s.fkWord 3) 0 0 [1]
def State.fkcv (s : State) : W32 := if s.ident.fleetKey.isSome then BitVec.ofNat 32 s.keyCheck else 0

/-- A record of the security engine (class 11, R743). -/
def State.secFault (s : State) (code : Nat) : State :=
  s.fault { mkFault 11 0 code with state := leBytes 4 s.secStsReg.toNat ++ leBytes 4 s.pwr.stsReg.toNat }

/-- The debug policy byte; it is ignored in BLANK (R733). -/
def State.policy (s : State) : Nat := if s.opt.none then 0 else s.optByte 9

/-- Host traffic must wait for IDE (R737). -/
def State.ideWanted (s : State) : Bool :=
  s.lc == 2 && s.policy.testBit 5 && !(s.host.ideIo && s.host.ideCm)

/-- The MSI-X messages of functions that may send again leave (R617, R740). -/
def State.msixRelease (s : State) : State :=
  let go := fun (m : Nat × Nat) => s.busOk m.1 && !(s.func m.1).d3hot
  let ms := s.host.msixPend.filter go
  { s with
    host := { s.host with msixPend := s.host.msixPend.filter fun m => !go m }
    out := s.out ++ ms.map fun m => .msix m.1 m.2 }

/-- The IDE hold begins or ends as its conditions do (R737). -/
def State.ideSettle (s : State) : State :=
  if s.ideWanted then
    if s.host.ideHold then s else State.secFault { s with host := { s.host with ideHold := true } } 0x0F26
  else if s.host.ideHold then State.msixRelease { s with host := { s.host with ideHold := false } }
  else s

/-! ### P-states (R47, R50, R739) -/

def PState.rank : PState → Nat
  | .p0plus => 0 | .p0 => 1 | .p1 => 2 | .p2 => 3
def PState.ofRank (n : Nat) : PState :=
  match n with
  | 0 => .p0plus | 1 => .p0 | 2 => .p1 | _ => .p2
/-- The VDD_CORE setpoint in mV (R47). -/
def PState.mv : PState → Nat
  | .p0plus => 800 | .p0 => 750 | .p1 => 650 | .p2 => 550

/-- The next P-state on the way from one to another. -/
def PState.toward (a b : PState) : PState :=
  if a.rank < b.rank then .ofRank (a.rank + 1) else if b.rank < a.rank then .ofRank (a.rank - 1) else a

/-- The steward works toward the target where it runs and the part is in D0: a ramp to the adjacent P-state begins (R50,
R739, R754). With the steward HALTED the lifeline sequencer does so, toward P2 (R753). -/
def State.pwrSettle (s : State) : State :=
  let p := s.pwr
  let next := p.pstate.toward p.target
  let capped := p.capEn && decide ((PState.ofCode p.preq.toNat).rank < p.target.rank)
  if p.dstate == .d0 && p.ramp.isNone && (s.stw.st == .running || s.stw.st == .halted) && next != p.pstate then
    { s with pwr := { p with ramp := some next, capped := capped }, rails := { s.rails with vddMv := next.mv } }
  else { s with pwr := { p with capped := capped } }

/-- The target that a new PREQ or CAP_EN leaves: what capping holds down stays down. -/
def PowerState.retarget (p : PowerState) (old : PState) : PowerState :=
  let want := PState.ofCode p.preq.toNat
  let held := p.capEn && decide (old.rank < p.target.rank)
  { p with target := if held && decide (want.rank < p.target.rank) then p.target else want }

/-- The steward runs again: held P-state requests and capping resume (R754). -/
def State.stewardBack (s : State) : State :=
  State.pwrSettle { s with
    stw := { s.stw with st := .running }
    pwr := { s.pwr with target := .ofCode s.pwr.preq.toNat, overs := 0, underSince := none } }

end Sys2Proof.Machine
end

