-- ==== Sys2Proof/Machine/HostLink.lean ====
section
/-! DEFINITION. The host port (17): link events, functions, HDM decoders, the aperture and bias, the window and its snoop
filter, the host line cache, spout groups, and IDE. -/
namespace Sys2Proof.Machine
open Sys2Proof

/-- Change the host-coupling state. -/
def State.updHost (s : State) (f : HostState → HostState) : State := { s with host := f s.host }

/-- The host port's domain runs, so its link can be up (R702 step 3, R708, R710). -/
def State.portRuns (s : State) : Bool :=
  s.hubPowered && !s.rst.held &&
    (match s.rst.start with
     | .options => false
     | .clocks => false
     | .halted => false
     | _ => true)

/-- Host memory requests reach device memory: CXL.mem is up and the part serves it (R592, R702). -/
def State.memServed (s : State) : Bool :=
  s.host.up && s.host.cxl && s.rst.start == .ready && (s.pwr.dstate == .d0 || s.pwr.dstate == .d0idle)

/-! ### The window's back-invalidates (R604, R616) -/

/-- The spout slot whose first line a window line is. -/
def slotOfLine (l : Nat) : Option Nat := if l < 131072 ∧ l % 32 = 0 then some (l / 32) else none

/-- A host write of a window line reaches device memory: a slot's first line is a header write (R611). -/
def State.hostLineWrite (s : State) (l : Nat) (data : List Byte) (poison : Bool) : State :=
  let s1 := s.writeDA (s.windowDA (64 * l)) data poison
  match slotOfLine l with
  | some n => s1.headerWrite n
  | none => s1

/-- What the filter records of a line from now on; the newest entry stands last. -/
def State.setSnoop (s : State) (l : Nat) (x : Option SnoopState) : State :=
  let rest := s.host.snoop.filter fun (e : Nat × SnoopState) => e.1 != l
  s.updHost fun h => { h with snoop := match x with | some y => rest ++ [(l, y)] | none => rest }

/-- A waiting access needs no further answer from the host. -/
def State.biFree (s : State) (w : BiWait) : Bool :=
  match s.windowLine w.da with
  | none => true
  | some l =>
    match s.snoopOf l with
    | none => true
    | some .s => !w.write
    | some _ => false

/-- Perform the waiting accesses of a line that the host no longer holds back, oldest first; the next one that still waits
sends its back-invalidate. -/
def State.biAdvance (s : State) (line : Nat) : Nat → State
  | 0 => s
  | k + 1 =>
    match s.host.biWait.find? fun (w : BiWait) => w.da / 64 == line with
    | none => s
    | some w =>
      if s.biFree w then
        let s1 := s.updHost fun h => { h with biWait := h.biWait.erase w }
        let s2 := if w.write then s1.writeDA w.da w.data else s1
        let s3 := if w.conflict then s2.emit (.cxlMem "BIConflictAck" (line * 64) []) else s2
        s3.biAdvance line k
      else if w.sent then s
      else
        let mark := fun (x : BiWait) => if x = w then { x with sent := true } else x
        (s.updHost fun h => { h with biWait := h.biWait.map mark }).emit
          (.cxlMem (if w.write then "BISnpInv" else "BISnpData") (line * 64) [])

/-- BISNP_RESPONSE (R604): the host answers the n-th back-invalidate sent, with the line's data where it held it dirty. -/
def execBisnpResponse (n : Nat) (data : Option Line) (s : State) : Res :=
  match (s.host.biWait.filter fun (w : BiWait) => w.sent)[n]? with
  | none => .next s
  | some w =>
    let l := (s.windowLine w.da).getD 0
    let s1 := match data with
      | some d => s.hostLineWrite l (leBytes 64 d.toNat) false
      | none => s
    let s2 := s1.setSnoop l (if w.write then none else some .s)
    .next (s2.biAdvance (w.da / 64) (s2.host.biWait.length + 1))

/-- BICONFLICT (R616): answered after the device's access to the line, or at once where none waits. -/
def execBiconflict (line : BitVec 24) (s : State) : Res :=
  let da := s.windowDA (64 * line.toNat)
  let hit := fun (w : BiWait) => w.da / 64 == da / 64 && w.sent
  if s.host.biWait.any hit then
    .next (s.updHost fun h => { h with biWait := h.biWait.map fun (w : BiWait) => if hit w then { w with conflict := true } else w })
  else .next (s.emit (.cxlMem "BIConflictAck" da []))

/-- Entries of the snoop filter (R604). -/
abbrev snoopSize : Nat := 262144

/-- WINDOW_HOST_ACCESS (R504, R604, R616): the host reads or writes a window line, and then holds it as `keep` says. It waits
for a back-invalidate of the line, and for the least recently used entry of a full filter. -/
def execWindowHostAccess (line : BitVec 24) (write : Option Line) (poison : Bool) (keep : Option SnoopState) (s : State) : Res :=
  let l := line.toNat
  let da := s.windowDA (64 * l)
  if !s.memServed || !s.host.hdm1.committed || !s.host.lcwEn || decide (s.windowSize ≤ 64 * l) then .next s
  else if s.host.biWait.any fun (w : BiWait) => w.da / 64 == da / 64 then .next s
  else if keep.isSome && (s.snoopOf l).isNone && decide (snoopSize ≤ s.host.snoop.length) then
    let old := (s.host.snoop.headD (0, .s)).1
    let w : BiWait := { da := s.windowDA (64 * old), write := true }
    if s.host.biWait.any fun (x : BiWait) => x.da / 64 == w.da / 64 then .next s
    else .next ((s.updHost fun h => { h with biWait := h.biWait ++ [w] }).emit (.cxlMem "BISnpInv" w.da []))
  else
    match write with
    | some d => .next ((s.hostLineWrite l (leBytes 64 d.toNat) poison).setSnoop l keep)
    | none =>
      let r := s.readDA da 64
      .next ((s.setSnoop l keep).emit (.hostReply (if r.clean then "MemData" else "MemData poison") r.data))

/-! ### The spout (R609–R615) -/

/-- SPOUT_HEADER_WRITE (R611, R612, R615): the host's write of a slot's first line, through the window or through the BAR 4
of the VF to whose queue the slot's group is bound. The host keeps no copy. -/
def execSpoutHeaderWrite (slot : Fin 4096) (line : Line) (vf : Bool) (s : State) : Res :=
  let n := slot.val
  let fn := match s.groupOf n with | some g => (s.queue (s.group g).q.toNat).fn.toNat | none => 0
  let viaVf := s.host.up && s.rst.start == .ready && s.pwr.dstate != .d3hot && !s.host.ideHold && fn != 0
    && !(s.func fn).d3hot
  let viaWindow := s.memServed && s.host.hdm1.committed && s.host.lcwEn
    && !s.host.biWait.any fun (w : BiWait) => w.da / 64 == s.slotDA n / 64
  if (if vf then viaVf else viaWindow) then
    .next ((s.hostLineWrite (32 * n) (leBytes 64 line.toNat) false).setSnoop (32 * n) none)
  else .next s

/-- A group as SP_GRP_A and SP_GRP_B read. -/
def SpGroup.regA (g : SpGroup) : W32 :=
  regOf [(0, g.en.toNat), (1, g.err.toNat), (2, g.first.toNat), (14, g.count.toNat)]
def SpGroup.regB (g : SpGroup) : W32 := regOf [(0, g.q.toNat)]

/-- The checks of setting EN (R609). -/
def State.groupOk (s : State) (g : Nat) (x : SpGroup) : Bool :=
  let f := x.first.toNat
  let c := x.count.toNat
  let apart := fun (h : Nat) =>
    let y := s.group h
    h == g || !y.en || decide (f + c ≤ y.first.toNat ∨ y.first.toNat + y.count.toNat ≤ f)
  let q := s.queue x.q.toNat
  decide (1 ≤ c ∧ f + c ≤ 4096) && (List.range 64).all apart && q.st == .enabled && (q.fn != 0 || s.host.lcwEn)

/-- A write of SP_GRP_A (R609, R612, R629, R827). -/
def State.writeGrpA (s : State) (g : Nat) (v : W32) : State :=
  let x0 := s.group g
  let x := { x0 with err := x0.err && !bit v 1 }
  if x.en then
    let y := { x with err := x.err || field v 2 12 != x.first || field v 14 13 != x.count, closing := x.closing || !bit v 0 }
    (s.updGroup g fun _ => y).groupClose g
  else
    let y := { x with first := field v 2 12, count := field v 14 13 }
    if bit v 0 then
      if s.groupOk g y then s.updGroup g fun _ => { y with en := true, closing := false }
      else s.updGroup g fun _ => { y with err := true }
    else s.updGroup g fun _ => y

/-- A write of SP_GRP_B (R629). -/
def State.writeGrpB (s : State) (g : Nat) (v : W32) : State :=
  s.updGroup g fun x => if x.en then { x with err := x.err || field v 0 10 != x.q } else { x with q := field v 0 10 }

/-- SP_GRP_A_WRITE. -/
def execSpGrpAWrite (p : AccessPath) (g : Fin 64) (v : W32) (s : State) : Res := .next (s.onCsr p .hub (·.writeGrpA g.val v))

/-! ### The host line cache (R605–R608) -/

/-- Put bytes that a failed write replaced back: a later request of the line that covers a byte takes it as the byte that it
replaced in its turn. -/
def putBack (a : Nat) (b : Byte) : List CacheReq → List CacheReq × Bool
  | [] => ([], false)
  | r :: rs =>
    if r.hpa + r.off ≤ a ∧ a < r.hpa + r.off + r.data.length then
      ({ r with data := listSet r.data (a - r.hpa - r.off) b } :: rs, true)
    else ((r :: (putBack a b rs).1), (putBack a b rs).2)

/-- A write request fails (R606). -/
def State.undoReq (s : State) (i : Nat) (r : CacheReq) : State :=
  let before := s.host.cacheReqs.take i
  let one := fun (acc : State × List CacheReq) (x : Byte × Nat) =>
    let a := r.hpa + r.off + x.2
    let (rs, taken) := putBack a x.1 acc.2
    (if taken then acc.1 else { acc.1 with mem := acc.1.mem.writeCells (rsvBase + a) [x.1] }, rs)
  let (s1, later) := r.data.zipIdx.foldl one (s, s.host.cacheReqs.drop (i + 1))
  s1.updHost fun h => { h with cacheReqs := before ++ later }

/-- A line as host memory holds it: what the outstanding requests of the line wrote is not there yet. -/
def State.hostLine (s : State) (hpa : Nat) : List Byte :=
  let now := cellsRead s.mem.cells (rsvBase + hpa) 64
  (s.host.cacheReqs.filter fun (r : CacheReq) => r.hpa == hpa).foldr
    (fun r bs => bs.take r.off ++ r.data ++ bs.drop (r.off + r.data.length)) now

/-- A line begins its eviction (R605). -/
def State.evictLine (s : State) (k : Nat) : State :=
  (s.updHost fun h => { h with hlc := h.hlc.upd {} k fun l => { l with evicting := true } }).emit
    (.cxlCache "DirtyEvict" (64 * k) [])

/-- A line that comes in may find its set of 16 ways full (R605). The spec states no index, so from 16 lines held on that is
free, and certain where all 65,536 are held; a line that the spec does not choose is then dropped where it is clean, and
evicted where it is dirty. -/
def State.needWay (s : State) : State :=
  let ks := s.host.hlc.map Prod.fst
  let (full, s0) := if ks.length < 16 then (false, s) else if 65536 ≤ ks.length then (true, s) else s.drawBit
  if !full then s0
  else
    let (v, s1) := s0.drawFree 16
    match ks[v.toNat % ks.length]? with
    | none => s1
    | some k =>
      match s1.host.hlc.find k with
      | some l =>
        if l.evicting then s1
        else if l.st == .e then s1.updHost fun h => { h with hlc := h.hlc.del k }
        else s1.evictLine k
      | none => s1

/-- The GO of a RdOwn: the line is installed and the merge makes it dirty (R605). -/
def State.install (s : State) (r : CacheReq) : State :=
  match s.host.hlc.find (r.hpa / 64) with
  | some _ => s
  | none =>
    let l : HlcLine := { st := .m, dirtySince := s.time.now, old := s.hostLine r.hpa }
    s.needWay.updHost fun h => { h with hlc := h.hlc.set (r.hpa / 64) l }

/-- CXL_CACHE_GO (R605, R606): the n-th outstanding request is answered. -/
def execCxlCacheGo (n : Nat) (resp : GoKind) (s : State) : Res :=
  match s.host.cacheReqs[n]? with
  | none => .next s
  | some r =>
    if r.waits then .next s
    else if resp == .go then
      let s1 := if r.op == .rdOwn then s.install r else s
      .next (s1.updHost fun h => { h with cacheReqs := h.cacheReqs.eraseIdx n })
    else
      let s1 := s.undoReq n r
      let s2 := if resp == .errWritePull then s1.emit (.cxlCache "Data Bogus" r.hpa []) else s1
      let s3 := s2.updHost fun h => { h with hlc := h.hlc.del (r.hpa / 64) }
      .next ((s3.hostFault 0 0x1003 r.hpa).breakModel r.model)

/-- An eviction has ended: a write that waits behind it is asked for again, and a flush ends with its last line (R605,
R607). -/
def State.evictEnd (s : State) (k : Nat) : State :=
  let s1 := s.updHost fun h => { h with hlc := h.hlc.del k }
  let mine := fun (r : CacheReq) => r.hpa == 64 * k && r.waits
  let again := s1.host.cacheReqs.any mine
  let s2 := s1.updHost fun h => { h with
    cacheReqs := h.cacheReqs.map fun (r : CacheReq) => if mine r then { r with waits := false } else r
    hlcBusy := h.hlcBusy && h.hlc.any fun (kv : Nat × HlcLine) => kv.2.evicting }
  if again then s2.emit (.cxlCache "RdOwn" (64 * k) []) else s2

/-- GO_WRITEPULL (R607): the line's data are sent, as Bogus where a snoop has superseded the eviction; nothing is sent on
GO_WritePull_Drop. -/
def execGoWritepull (hpa : BitVec 46) (drop : Bool) (s : State) : Res :=
  let k := hpa.toNat
  match s.host.hlc.find k with
  | some l =>
    if l.evicting then
      let bytes := cellsRead s.mem.cells (rsvBase + 64 * k) 64
      let s1 := if drop then s
        else if l.superseded then s.emit (.cxlCache "Data Bogus" (64 * k) [])
        else s.emit (.cxlCache "Data" (64 * k) bytes)
      .next (s1.evictEnd k)
    else .next s
  | none => .next s

/-- HOST_SNOOP (R607, R608). -/
def execHostSnoop (hpa : BitVec 46) (kind : SnoopKind) (s : State) : Res :=
  let k := hpa.toNat
  let a := 64 * k
  let miss := s.emit (.cxlCache "RspIHitI" a [])
  let bytes := cellsRead s.mem.cells (rsvBase + a) 64
  match s.host.hlc.find k with
  | none => .next miss
  | some l =>
    if l.superseded then .next miss
    else if l.st == .e then
      .next ((s.updHost fun h => { h with hlc := h.hlc.del k }).emit (.cxlCache "RspIHitSE" a []))
    else if l.evicting then
      .next ((s.updHost fun h => { h with
        superseded := satInc h.superseded, hlc := h.hlc.set k { l with superseded := true } }).emit
        (.cxlCache "RspIFwdM" a bytes))
    else if kind == .cur then .next (s.emit (.cxlCache "RspVFwdV" a bytes))
    else .next ((s.updHost fun h => { h with hlc := h.hlc.del k }).emit (.cxlCache "RspIFwdM" a bytes))

/-- WB_US as it acts: 0 reads back as 1 (R626). -/
def HostState.wb (h : HostState) : Nat := if h.wbUs = 0 then 1 else h.wbUs.toNat

/-- HLC_WRITEBACK_TIMER (R605): a line that has been dirty for WB_US is evicted. -/
def execHlcWritebackTimer (hpa : BitVec 46) (s : State) : Res :=
  match s.host.hlc.find hpa.toNat with
  | some l =>
    if l.st == .m && !l.evicting && s.elapsed l.dirtySince (1000 * s.host.wb) then .next (s.evictLine hpa.toNat) else .next s
  | none => .next s

/-- HC_HLC as it reads (R626). -/
def HostState.hlcReg (h : HostState) : W32 := regOf [(0, h.wb), (17, h.hlcBusy.toNat)]

/-- Evict every dirty line (R605, R626). -/
def State.flushHlc (s : State) : State :=
  let s1 := s.evictWhere fun _ => true
  s1.updHost fun h => { h with hlcBusy := h.hlc.any fun (kv : Nat × HlcLine) => kv.2.evicting }

/-- A write of HC_HLC. -/
def State.writeHlc (s : State) (v : W32) : State :=
  let s1 := s.updHost fun h => { h with wbUs := field v 0 16 }
  if bit v 16 then s1.flushHlc else s1

/-- HC_HLC_FLUSH: a write of HC_HLC. -/
def execHcHlcFlush (p : AccessPath) (v : W32) (s : State) : Res := .next (s.onCsr p .hub (·.writeHlc v))

/-! ### HDM decoders and the aperture (R598–R602) -/

/-- HDM_DECODER_COMMIT (R598, R737): decoder 0 or 1 is committed, or given up. -/
def execHdmDecoderCommit (dec : Fin 2) (commit : Bool) (size : Nat) (oneWay : Bool) (s : State) : Res :=
  if !s.host.up || s.rst.start != .ready then .next s
  else
    let ok0 := oneWay && size == 2 ^ 32 && !s.host.ideHold
    let ok1 := oneWay && size == s.windowSize && s.host.lcwEn && !s.host.ideHold
    let put := fun (ok : Bool) => if commit then ({ committed := ok, err := !ok } : HdmDec) else {}
    .next (s.updHost fun h => if dec.val = 0 then { h with hdm0 := put ok0 } else { h with hdm1 := put ok1 })

/-- DA of an aperture offset (R599). -/
def State.aptDA (s : State) (off : Nat) : Nat := s.host.aptBase.toNat * 2 ^ 21 + off

/-- APERTURE_ACCESS (R599): a host read of the line at an offset, or a write of bytes within it. -/
def execApertureAccess (off : BitVec 32) (write : Bool) (data : List Byte) (poison : Bool) (s : State) : Res :=
  let da := s.aptDA off.toNat
  let basin := match s.place da with | .basin _ => true | _ => false
  let bad := fun (st : State) =>
    if write then st else st.emit (.hostReply "MemData poison" (List.replicate 64 0))
  if !s.memServed || !s.host.hdm0.committed || (write && decide (64 < da % 64 + data.length)) then .next s
  else if !s.host.aptEn then .next (bad (s.updHost fun h => { h with aptOff := satInc h.aptOff }))
  else if !basin || (write && s.inStore da) then .next (bad (s.hostFault 0 0x1001 da))
  else if write then .next (s.writeDA da data poison)
  else
    let r := s.readDA (da / 64 * 64) 64
    .next (s.emit (.hostReply (if r.clean then "MemData" else "MemData poison") r.data))

def HostState.aptReg (h : HostState) : W32 := regOf [(0, h.aptEn.toNat), (1, h.aptErr.toNat), (2, h.aptBase.toNat)]

/-- The aperture's DA range meets the window's backing range (R600, R603). -/
def HostState.aptMeetsLcw (h : HostState) : Bool :=
  let a := h.aptBase.toNat * 2 ^ 21
  let w := h.lcwBase.toNat * 2 ^ 26
  decide (a < w + (h.lcwSize.toNat + 1) * 2 ^ 26 ∧ w < a + 2 ^ 32)

/-- A write of HC_APT (R600, R622, R827). -/
def HostState.writeApt (h0 : HostState) (v : W32) : HostState :=
  let h := { h0 with aptErr := h0.aptErr && !bit v 1 }
  if h.aptEn then
    let bar := field v 2 19 != h.aptBase
    if bit v 0 then { h with aptErr := h.aptErr || bar }
    else if h.bias.isEmpty then { h with aptEn := false, aptErr := h.aptErr || bar }
    else { h with aptErr := true }
  else
    let h1 := { h with aptBase := field v 2 19 }
    if bit v 0 then
      if h1.aptBase.toNat * 2 ^ 21 + 2 ^ 32 ≤ 0xC000000000 ∧ (h1.lcwEn && h1.aptMeetsLcw) = false then
        { h1 with aptEn := true }
      else { h1 with aptErr := true }
    else h1

/-- HC_APT_WRITE. -/
def execHcAptWrite (p : AccessPath) (v : W32) (s : State) : Res := .next (s.onCsr p .hub (·.updHost (·.writeApt v)))

def HostState.bflipReg (h : HostState) : W32 :=
  regOf [(0, h.bfPage.toNat), (11, h.bfDir.toNat), (13, h.bfBusy.toNat), (14, h.bfErr.toNat)]

/-- A write of HC_BFLIP (R602, R623, R827). A flip to host-shared is done within the write; one to device-owned asks for the
page's CLFlushes. -/
def State.writeBflip (s : State) (v : W32) : State :=
  let h := { s.host with bfErr := s.host.bfErr && !bit v 14 }
  if h.bfBusy then
    let bar := field v 0 11 != h.bfPage || bit v 11 != h.bfDir || bit v 12
    { s with host := { h with bfErr := h.bfErr || bar } }
  else
    let h1 := { h with bfPage := field v 0 11, bfDir := bit v 11 }
    if !bit v 12 then { s with host := h1 }
    else if bit v 11 then { s with host := { h1 with bias := setInsert h1.bias h1.bfPage.toNat } }
    else ({ s with host := { h1 with bfBusy := true } }).emit (.cxlCache "CLFlush" (h1.bfPage.toNat * 2 ^ 21) [])

/-- HC_BFLIP_GO: a write of HC_BFLIP. -/
def execHcBflipGo (p : AccessPath) (v : W32) (s : State) : Res := .next (s.onCsr p .hub (·.writeBflip v))

/-- BIAS_FLIP_COMPLETE (R602): every GO of the page's CLFlushes has come. -/
def execBiasFlipComplete (s : State) : Res :=
  if s.host.bfBusy then
    .next (s.updHost fun h => { h with bfBusy := false, bias := h.bias.filter fun b => b != h.bfPage.toNat })
  else .next s

/-! ### The window (R603) -/

def HostState.lcwReg (h : HostState) : W32 :=
  regOf [(0, h.lcwEn.toNat), (1, h.lcwErr.toNat), (2, h.lcwBase.toNat), (16, h.lcwSize.toNat)]

/-- What keeps the window enabled. -/
def State.lcwPinned (s : State) : Bool :=
  s.host.hdm1.committed || s.queues.any (fun (kv : Nat × Queue) => kv.2.loc && kv.2.st != .disabled)
    || s.host.groups.any fun (kv : Nat × SpGroup) => kv.2.en

/-- A write of HC_LCW (R603, R827). -/
def State.writeLcw (s : State) (v : W32) : State :=
  let h := { s.host with lcwErr := s.host.lcwErr && !bit v 1 }
  if h.lcwEn then
    let bar := field v 2 14 != h.lcwBase || field v 16 4 != h.lcwSize
    if bit v 0 then { s with host := { h with lcwErr := h.lcwErr || bar } }
    else if s.lcwPinned then { s with host := { h with lcwErr := true } }
    else { s with host := { h with lcwEn := false, snoop := [], lcwErr := h.lcwErr || bar } }
  else
    let s1 := { s with host := { h with lcwBase := field v 2 14, lcwSize := field v 16 4 } }
    if bit v 0 then
      if s1.inPlainRegion (s1.windowDA 0) s1.windowSize && !(s1.host.aptEn && s1.host.aptMeetsLcw) then
        s1.updHost fun h => { h with lcwEn := true }
      else s1.updHost fun h => { h with lcwErr := true }
    else s1

/-- HC_LCW_WRITE. -/
def execHcLcwWrite (p : AccessPath) (v : W32) (s : State) : Res := .next (s.onCsr p .hub (·.writeLcw v))

/-! ### Functions (R596, R617, R740) -/

/-- BUS_MASTER_ENABLE_WRITE (R617). -/
def execBusMasterEnableWrite (fn : Fin 17) (on : Bool) (s : State) : Res :=
  .next (s.updFunc fn.val fun f => { f with bme := on }).msixRelease

/-- VF_POWER_STATE_WRITE (R740). -/
def execVfPowerStateWrite (vf : Fin 16) (d3hot : Bool) (s : State) : Res :=
  .next (s.updFunc (vf.val + 1) fun f => { f with d3hot := d3hot }).msixRelease

/-- VF_FLR (R584, R620): the VF's queues are DISABLED at once and its spout groups with them; its function state is reset. -/
def execVfFlr (vf : Fin 16) (s : State) : Res :=
  let f := vf.val + 1
  let qs := (s.queues.filter fun (kv : Nat × Queue) => kv.2.fn.toNat == f).map Prod.fst
  let gs := (s.host.groups.filter fun (kv : Nat × SpGroup) => kv.2.en && qs.contains kv.2.q.toNat).map Prod.fst
  let s1 := (qs.filter fun q => (s.queue q).st != .disabled).foldl (fun st q => st.queueOff q) s
  let s2 := gs.foldl (fun st g => (st.updGroup g fun x => { x with closing := true }).groupClose g) s1
  let s3 := s2.updFunc f fun x => { x with bme := false, d3hot := false }
  .next (s3.updHost fun h => { h with msixPend := h.msixPend.filter fun m => m.1 != f })

/-- PF_FLR (R620, R692): a device reset by code 4. Before READY it cannot occur (R713). -/
def execPfFlr (s : State) : Res := if s.rst.start == .ready then .next (s.deviceReset 4) else .next s

/-! ### Link events (R592, R619, R620) -/

/-- CXL.cache and CXL.mem run at x4 or wider and 16 GT/s or faster (R592). -/
def cxlFast (speed width : Nat) : Bool := decide (1 ≤ speed) && decide (4 ≤ width)

def HostState.linkReg (h : HostState) : W32 :=
  regOf [(0, h.speed.toNat), (2, h.width.toNat), (7, h.cxl.toNat), (8, h.ideIo.toNat), (9, h.ideCm.toNat), (10, h.ldown.toNat)]

/-- HOST_LINK_UP (R592, R620): the link trains, or trains again at another width or speed; `cxl` says whether alternate
protocol negotiation selected CXL. -/
def execHostLinkUp (speed : BitVec 2) (width : BitVec 5) (cxl : Bool) (s : State) : Res :=
  if !s.portRuns then .next s
  else .next (s.updHost fun h => { h with
    up := true, speed := speed, width := width, cxl := cxl && cxlFast speed.toNat width.toNat })

/-- Every model with a TIER 2 table of DIGEST 1 is broken (R620). -/
def State.breakReservoir (s : State) : State :=
  s.tda.live.foldl (fun st t =>
    let d := s.td t
    if d.tier == 2 && d.digest then st.breakModel (some d.model) else st) s

/-- The link goes down (R620): the host line cache is emptied, requests in flight end, and what waited for the host goes
on. -/
def State.linkDown (s : State) : State :=
  let dirty := s.host.hlc.filter fun (kv : Nat × HlcLine) => kv.2.st == .m && !kv.2.superseded
  let s1 := s.host.cacheReqs.foldr (fun r st =>
    { st with mem := st.mem.writeCells (rsvBase + r.hpa + r.off) r.data }) s
  let s2 := dirty.foldl (fun st kv => { st with mem := st.mem.writeCells (rsvBase + 64 * kv.1) kv.2.old }) s1
  let s3 := s2.host.biWait.foldl (fun st w => if w.write then st.writeDA w.da w.data else st) s2
  let h := { s3.host with
    up := false, speed := 0, width := 0, cxl := false, ideIo := false, ideCm := false, ldown := true
    hlc := [], cacheReqs := [], biWait := [], snoop := [], hdm0 := {}, hdm1 := {}, hlcBusy := false
    lost := if dirty.isEmpty then s3.host.lost else satInc s3.host.lost }
  ({ s3 with host := h }.breakReservoir.hostFault 0 0x1004 0).ideSettle

/-- HOST_LINK_DOWN. -/
def execHostLinkDown (s : State) : Res := if s.host.up then .next s.linkDown else .next s

/-- IDE_INTEGRITY_FAILURE (R619): the streams are Insecure, and the link is handled as down. -/
def execIdeIntegrityFailure (s : State) : Res :=
  if s.host.ideIo || s.host.ideCm then .next (s.hostFault 0 0x1005 0).linkDown else .next s

/-- IDE_KEY_REFRESH (R619): accepted with no loss of traffic; no agent can read a key (R724). -/
def execIdeKeyRefresh (s : State) : Res := .next s

/-- IDE_KM_KEY_PROGRAM (R619, R737): inside an SPDM session, a stream becomes secure, which may end the hold. -/
def execIdeKmKeyProgram (io cm : Bool) (s : State) : Res :=
  if s.host.up && !s.sec.sessions.isEmpty then
    .next (s.updHost fun h => { h with ideIo := h.ideIo || io, ideCm := h.ideCm || (cm && h.cxl) }).ideSettle
  else .next s

end Sys2Proof.Machine
end

