-- ==== Sys2Proof/Machine/Integrity.lean ====
section
/-! DEFINITION. Silent errors (19): what a check's failure brings (R663, R664, R831), health and patrol tests (R668–R670),
disagreements, expulsion and the taint record (R671–R678), and rollback (R679–R682). -/
namespace Sys2Proof.Machine
open Sys2Proof

/-! ### Registers (R685–R690) -/

def State.intStsReg (s : State) : W32 :=
  regOf [(0, s.int.disagree.toNat), (1, (!s.int.sweep.isEmpty).toNat), (2, s.int.expelled.toNat),
    (3, s.int.rbClosing.isSome.toNat), (4, s.int.tainted.toNat), (5, s.int.err.toNat)]
def IntState.ctlReg (i : IntState) : W32 :=
  regOf [(0, i.verify.toNat), (1, i.autoRb.toNat), (2, i.holdj.toNat), (8, i.ceLimit.toNat)]
def IntState.cmdReg (i : IntState) : W32 := regOf [(0, i.op.toNat), (3, i.busy.toNat), (4, i.res.toNat)]

/-- A word of INT_SC_STATE. -/
def State.scStateReg (s : State) (st w : Nat) : W32 :=
  if w < 2 then regOf ((List.range 16).map fun i => (2 * i, (s.health .lu (st * 32 + 16 * w + i)).code))
  else regOf ((List.range 8).map fun i => (2 * i, (s.health .uu (st * 8 + i)).code))
def State.cluStateReg (s : State) (c : Nat) : W32 :=
  regOf [(0, (s.health .cluster c).code), (8, min 255 (s.ceCount .cluster c))]

/-- Writes of INT_STS and INT_CTL. -/
def State.writeIntSts (s : State) (v : W32) : State := { s with int := { s.int with err := s.int.err && !bit v 5 } }
def State.writeIntCtl (s : State) (v : W32) : State :=
  { s with int := { s.int with verify := bit v 0, autoRb := bit v 1, holdj := bit v 2, ceLimit := field v 8 8 } }

/-! ### Unit health (R668–R670) -/

/-- The unit kinds by their code. -/
def UnitKind.ofCode (n : Nat) : UnitKind :=
  match n with | 0 => .core | 1 => .cluster | 2 => .pair | 3 => .lu | _ => .uu

/-- Units of a kind. -/
def UnitKind.count : UnitKind → Nat
  | .core => 1200 | .cluster => 100 | .pair => 8 | .lu => 384 | .uu => 96

/-- A unit that has left service (R670, R484): a pair gives up its work, and a partition left with no pair is reset; a stack
controller left with no lookup unit or no update unit needs a compute-die reset. Work-list entries that name a RETIRED
core or cluster are torn as they arrive. -/
def State.unitOut (s : State) (k : UnitKind) (i : Nat) : State :=
  match k with
  | .pair =>
    let s1 := s.pairDown i 0
    (s.served i).foldl (fun st p => if (st.pairsOf p).isEmpty then st.partReset p 3 i else st) s1
  | .lu => if (List.range 32).any fun n => s.serving .lu (i / 32 * 32 + n) then s else s.dieReset (stackDie (i / 32)) 4 (i / 32)
  | .uu => if (List.range 8).any fun n => s.serving .uu (i / 8 * 8 + n) then s else s.dieReset (stackDie (i / 8)) 4 (i / 8)
  | _ => s

/-- Charge a unit, with what follows where that retires it. -/
def State.charge (s : State) (k : UnitKind) (i : Nat) : State :=
  let s1 := s.chargeUnit k i
  if s.serving k i && !s1.serving k i then s1.unitOut k i else s1

/-- PATROL_TEST (R669): a known-answer test of a unit passes or fails. It runs on units that are not RETIRED. -/
def execPatrolTest (kind : Fin 5) (i : Nat) (pass : Bool) (s : State) : Res :=
  let k := UnitKind.ofCode kind.val
  if pass || decide (k.count ≤ i) || !s.serving k i then .next s
  else
    let h := s.health k i
    .next ((s.healthFault k i 0x0D04 h h).charge k i)

/-- SUSPECT_CLEAR (R668). -/
def execSuspectClear (kind : Fin 5) (i : Nat) (s : State) : Res :=
  let k := UnitKind.ofCode kind.val
  .next (if decide (k.count ≤ i) || s.excluded k i then s else s.healthAge k i)

/-! ### What a detected error does (R663, R664, R831) -/

/-- A fragment's partial is discarded: its rows are settled as rows that cannot arrive (R663, R304). -/
def State.fragLost (s : State) (f : Frag) : State :=
  match s.list? f.list with
  | none => s
  | some l =>
    let d := s.td l.table
    let s1 := s.updFrag f.id fun x => { x with np := 0, elems := [], wts := [] }
    let subst := d.latePol == 1 || (d.latePol == 0 && d.fbKind != 0)
    let row := if d.fbKind = 2 then s.ownReplica l d (f.stack.getD 0 % 12) d.fbRow else none
    let n := f.wts.length
    let s2 := if n = 0 then s1
      else if subst then
        ((s1.tableCount l.table 5 n).updList l.id fun x => { x with subst := x.subst + n }).updFrag f.id fun x =>
          { x with np := n, wts := f.wts
                   elems := f.wts.foldl (fun es w => poolTerms d.anchorL (l.op == 3) es (d.terms w row)) [] }
      else s1.listFail l.id 1
    ((s2.lk.rows.filter fun (q : RowReq) => q.frag == f.id && !q.settled).foldl
      (fun st q => st.cannotArrive q l d) s2).listTry l.id

/-- The n-th fragment that satisfies a test loses its partial. -/
def State.fragHit (s : State) (p : Frag → Bool) (n : Nat) : State :=
  match (s.lk.frags.filter p)[n]? with | some f => s.fragLost f | none => s

/-- The context of a cluster's partition is torn down for a fault of a unit. -/
def State.unitFault (s : State) (cls inst code : Nat) (rung : Nat) : State :=
  s.fault { mkFault cls inst code with rung := rung }

/-- An update-unit mismatch (R380, R663): accepted records not yet applied fail their batches. -/
def State.updateUnitFault (s : State) (st u : Nat) : State :=
  let unit := st * 8 + u
  let s1 := (s.stackFault st 0x0305 0 (kind := 1)).charge .uu unit
  let mine := fun (x : PendRec) => x.kind != 4 && s.updUnit x.table (s.td x.table) x.row == unit
  let s2 := { s1 with upd := { s1.upd with recs := s1.upd.recs.filter fun x => !mine x } }
  (s.upd.recs.filter mine).foldl (fun st x => st.batchStop x.batch 4) s2

/-- Models with a TIER 2 table whose extents hold a DA. -/
def State.modelsAt (s : State) (da : Nat) : List Nat :=
  (s.tda.live.filter fun t =>
    let d := s.td t
    d.tier == 2 && d.digest && ((List.range d.nshard).zip (s.tdShardRows d)).any fun x =>
      let b := (s.shardEntry d x.1).2
      decide (b ≤ da ∧ da < b + extentBytes (s.shardG d b) d.s x.2)).map fun t => (s.td t).model

/-- An uncorrectable dirty line of the host line cache is dropped, and its table's model is broken (R663). -/
def State.hostLineLost (s : State) (k : Nat) : State :=
  match s.host.hlc.find k with
  | none => s
  | some l =>
    if l.st != .m then s
    else
      let s1 := { s with
        mem := s.mem.writeCells (rsvBase + 64 * k) l.old
        host := { s.host with hlc := s.host.hlc.del k } }
      (s.modelsAt (rsvBase + 64 * k)).foldl (fun st m => st.breakModel (some m)) (s1.hostFault 0 0x1002 (64 * k))

/-- An uncorrectable word of a core store or cistern that another agent reads (R831). -/
def State.otherRead (s : State) (da : Nat) : State :=
  match s.place da with
  | .cistern _ =>
    ({ s with mem := s.mem.setPoison (da / 64 * 64) }).sramFault ((da - cisternBase) / (8 * mib)) none
  | .coreStore _ =>
    let k := (da - coreStoreBase) / mib
    ({ s with mem := s.mem.setPoison (da / 64 * 64) }).sramFault (coreCluster k) (some k)
  | _ => s

/-- A correctable error in a pair's memories (R664); a pair that its charge retires leaves service (R670). -/
def State.countPairCe (s : State) (n : Nat) : State :=
  let s1 := s.countCe .pair n
  if s.serving .pair n && !s1.serving .pair n then s1.unitOut .pair n else s1

/-- CHECK_FAILURE (R663): a detected error that cannot be corrected, and correctable ones, which count toward their
unit (R664). -/
def execCheckFailure (c : Check) (s : State) : Res :=
  .next (match c with
    | .coreSequencer k => s.coreMismatch k.val 0x0301
    | .coreResidue k => s.coreMismatch k.val 0x0304
    | .clusterSequencer c => ((s.unitFault 2 c.val 0x0302 1).charge .cluster c.val).tearCluster c.val 2 c.val
    | .dispatcher c => ((s.unitFault 2 c.val 0x0302 1).charge .cluster c.val).tearCluster c.val 2 c.val
    | .coreStore k => s.sramFault (coreCluster k.val) (some k.val)
    | .cistern c => s.sramFault c.val none
    | .updateUnit st u => s.updateUnitFault st.val u.val
    | .lookupUnit st u n =>
      ((s.stackFault st.val 0x0304 0 (kind := 0)).charge .lu (st.val * 32 + u.val)).fragHit (fun f => f.stack == some st.val) n
    | .pooler c n =>
      ((s.unitFault 2 c.val 0x0304 0).charge .cluster c.val).fragHit (fun f =>
        f.stack == some 12 && (match s.list? f.list with | some l => l.cluster == c.val | none => false)) n
    | .directory st set =>
      ({ s with mem := s.mem.setPoison (s.flatOf (s.dirSetDA st.val set)) }).dirCheckSet st.val set
    | .tagLine st line => s.loseTags st.val (64 * line) (flatChannel (64 * line) % 32)
    | .hostLine k => s.hostLineLost k
    | .pageWord n =>
      match s.aq.ios[n]? with
      | some io => (s.aqFault io.slot 0x0901 2 io.lba 1).ioEnd io fun _ => .failed
      | none => s
    | .codebook st => s.stackFault st.val 0x0601 0 (kind := 7)
    | .astCopy => s.intFault 0x0D09
    | .astBoth => (s.intFault 0x0D09 (rung := 4)).deviceReset 6 9 0
    | .link d => (s.intFault 0x0D08 (rung := 3)).dieReset d.val 9 0
    | .integrityUnit => (s.intFault 0x0D08 (rung := 4)).deviceReset 6 9 0
    | .crossbar => (s.intFault 0x0D08 (rung := 4)).deviceReset 6 9 0
    | .readByOther da => s.otherRead da
    | .corrCore k => s.countCe .core k.val
    | .corrCluster c => s.countCe .cluster c.val
    | .corrPair n => s.countPairCe n.val)

/-! ### The taint record and expulsion (R675–R678) -/

/-- What was recorded at the snapshot of INT_VER; the start of counting where there is none. -/
def State.verMark (s : State) : SnapMark :=
  (s.int.marks.find? fun m => m.epoch == s.int.ver).getD { epoch := 0, time := 0, asn := 0, part := [] }

/-- Write the taint record (R678). -/
def State.taint (s : State) (expelled : Bool) (bad : Nat) : State :=
  let m := s.verMark
  let i := s.int
  let flags := expelled.toNat + 2 * (i.verdict == some true).toNat + 4 * i.verdict.isSome.toNat
  let cmd := leBytes 8 i.ver ++ leBytes 8 m.time ++ leBytes 8 m.asn ++ leBytes 8 i.asn ++ leBytes 8 s.time.now
    ++ leBytes 8 bad ++ [BitVec.ofNat 8 flags] ++ List.replicate 15 0
  let st := modelMask i.dis ++ modelMask i.unver
    ++ (List.range 16).flatMap fun p => leBytes 4 (i.partAns.get 0 p - m.part.get 0 p)
  let s1 := s.intFault 0x0D06 cmd st
  { s1 with int := { s1.int with tainted := true } }

/-- PART_STOP ABORT of a RUNNING partition, as the steward or the integrity unit gives it (R524, R549). -/
def State.abortPart (s : State) (p : Nat) : State :=
  let pt := s.part p
  let cmd : StopCmd := { q := 1024, cid := 0, due := s.gtoDue, abort := true }
  if pt.st != .running then s
  else if pt.switching.isSome || pt.teardown then s.updPart p fun x => { x with stopWait := some cmd }
  else s.stopNow p cmd

/-- Admission closes for every model. -/
def State.closeAdmission (s : State) : State :=
  let close := fun (kv : Nat × Model) => (kv.1, { kv.2 with admits := false })
  { s with sc := { s.sc with models := s.sc.models.map close } }

/-- Expulsion (R677). -/
def State.expel (s : State) (bad : Nat) : State :=
  let s1 := State.closeAdmission { s with pl := { s.pl with pdnOut := false } }
  let s2 := ((List.range 16).foldl (fun st p => st.abortPart p) s1).taint true bad
  State.irqEvent { s2 with int := { s2.int with expelled := true } } 4

/-! ### Disagreements (R671–R673) -/

/-- The outcome of a disagreement on this part (R673), once both verdicts are known. -/
def State.settleVerdicts (s : State) (mine theirs : Bool) : State :=
  if s.pl.role == .active then
    if !mine then s.expel s.int.badEpoch
    else if theirs then s.taint false s.int.badEpoch
    else { s with int := { s.int with disagree := false, dis := [], unver := [] } }
  else if roleStandby s.pl.role then
    if !mine || theirs then s.expel s.int.badEpoch
    else { s with int := { s.int with rbAuto := s.int.autoRb } }
  else s

/-- A disagreement about some models is found at a snapshot (R672 steps 1 and 2). -/
def State.disagreement (s : State) (epoch : Nat) (models unver : List Nat) : State :=
  let join := fun (a b : List Nat) => b.foldl (fun l m => setInsert l m) a
  let i := s.int
  let s1 := (State.irqIf { s with int := { i with
      disagree := true, dis := join i.dis models, unver := join i.unver unver
      badEpoch := if i.disagree then i.badEpoch else epoch } } i.disagree 3).intFault 0x0D05 [] (modelMask models)
  if s1.int.verify then
    { s1 with int := { s1.int with
        sweep := join s1.int.sweep models, verdict := none
        peerVerdict := if i.sweep.isEmpty then none else i.peerVerdict } }
  else s1.settleVerdicts true true

/-- The models that differ between two snapshots, and those not compared (R671); `differs` also where only TOTAL does. -/
def compareSnapshots (a b : Snapshot) : Bool × List Nat × List Nat :=
  let out := (List.range 256).filter fun m => a.broken.contains m || b.broken.contains m
  let get := fun (x : Snapshot) (m : Nat) => ((x.d.find? fun e => e.1 == m).map Prod.snd).getD 0
  let bad := (List.range 256).filter fun m => !out.contains m && get a m != get b m
  (bad.isEmpty && (!out.isEmpty || a.total == b.total), bad, out)

/-- The epoch of a matching snapshot is taken down (R645, R674). -/
def State.verified (s : State) (epoch : Nat) : State :=
  { s with pl := { s.pl with ver := epoch }, int := { s.int with ver := epoch } }

/-- Take a comparison's result (R645). -/
def State.compared (s : State) (epoch : Nat) (agree : Bool) (bad unver : List Nat) : State :=
  if agree then s.verified epoch else s.disagreement epoch bad unver

/-- COMPARE_RESULT_RECEIVED (R645): the active hears how the standby's snapshot compared. -/
def execCompareResultReceived (epoch : Nat) (agree : Bool) (bad unver : List Nat) (s : State) : Res :=
  if s.pl.role == .active then .next (s.compared epoch agree bad unver) else .next s

/-- VERIFY_SWEEP_COMPLETE (R672): the part's verdict is formed and sent, and held updates go on. -/
def execVerifySweepComplete (s : State) : Res :=
  let ms := s.int.sweep
  if ms.isEmpty || s.upd.recs.any (fun x => ms.contains (s.td x.table).model && x.why != 3) then .next s
  else
    let good := ms.all fun m =>
      let (sum, bad) := s.sweepModel m
      !bad && sum == SMap.digSum s.upd.dig m
    let s1 := ({ s with int := { s.int with sweep := [], verdict := some good } }.releaseHeld).emit
      (.quefy "VERDICT" good.toNat [])
    .next (match s1.int.peerVerdict with
      | some v => { s1 with int := { s1.int with peerVerdict := none } }.settleVerdicts good v
      | none => s1)

/-- VERDICT_EXCHANGE (R673): the peer's verdict arrives. -/
def execVerdictExchange (consistent : Bool) (s : State) : Res :=
  if !s.int.disagree then .next s
  else
    match s.int.verdict with
    | some v => if s.int.sweep.isEmpty then .next (s.settleVerdicts v consistent)
                else .next { s with int := { s.int with peerVerdict := some consistent } }
    | none => .next { s with int := { s.int with peerVerdict := some consistent } }

/-! ### Rollback (R679, R680, R682) -/

/-- The hash of a row's current content; 0 where it cannot be read. -/
def State.rowDigest (s : State) (t : Nat) (d : TD) (r : Nat) : D128 :=
  match s.rowOld t d r with
  | some b => s.rowHash d t r (d.content b (s.half t))
  | none => 0

/-- Write a row poisoned in its home and every copy; a row whose home is flash keeps its bytes. -/
def State.poisonRow (s : State) (t : Nat) (d : TD) (r off : Nat) : State :=
  let zeros := List.replicate d.rb 0
  let put := fun (st : State) (da : Nat) => st.writeDAWith none (da + off) zeros true
  let homes := match d.tier with
    | 0 => (s.part d.part).clusters.map fun c => cisternDA c (s.rowDA d r)
    | 3 => []
    | _ => [s.rowDA d r]
  let slots := (s.ftnCopies t r ++ s.hotCopies t r).filterMap fun x => (s.dirAt x.1 x.2).map fun e => e.slot
  (homes ++ slots.filter fun a => !homes.contains a).foldl put s

/-- Undo one journal record of a stack (R679 step 2); none while a log record waits for space. -/
def State.undo (s : State) (st : Nat) (j : JRec) : Option State :=
  let d := s.td j.table
  let r := s.readDA ((s.uuStack st).base.toNat * 2 ^ 28 + j.off) j.len
  let id := leAt r.data 0 8
  let rb := leAt r.data 18 2
  let sl := leAt r.data 20 2
  let off := if r.clean && id.testBit 61 then d.s / 2 else 0
  if !d.serves then some s
  else
    let before := s.rowDigest j.table d j.row
    let bad := !r.clean || id.testBit 60
    let (ok, s1) := if bad then (true, s.poisonRow j.table d j.row off)
      else s.writeRow j.table d j.row off ((r.data.drop 32).take rb)
    if !ok then none
    else
      let s2 := if r.clean && sl != 0 then s1.writeDA (s1.stateDA j.table d j.row) ((r.data.drop (32 + rb)).take sl) else s1
      let s3 := if d.digest then s2.digAdd (st * 8) d.model (s2.rowDigest j.table d j.row - before) else s2
      let s4 := if bad then s3.breakTable d else s3
      some (if r.clean then s4 else s4.intFault 0x0D07 [] (modelMask [d.model]))

/-- The newest record of epoch V onward that a stack still keeps. -/
def State.undoNext (s : State) : Option (Nat × JRec) :=
  (List.range 12).findSome? fun st =>
    ((s.uuStack st).kept.reverse.find? fun j => decide (s.int.rbTo ≤ j.epoch)).map fun j => (st, j)

/-- Undo records until none is left: false where one waits. -/
def State.undoAll : Nat → State → Bool × State
  | 0, s => (true, s)
  | n + 1, s =>
    match s.undoNext with
    | none => (true, s)
    | some (st, j) =>
      match s.undo st j with
      | none => (false, s)
      | some s1 =>
        let s2 := s1.updUu st fun u => { u with kept := u.kept.filter fun (x : JRec) => x != j }
        State.undoAll n { s2 with int := { s2.int with
          rbTotal := s2.int.rbTotal + 1, rbSrc := s2.int.rbSrc.upd 0 j.src (· + 1) } }

/-- The rollback report (R680). -/
def IntState.report (i : IntState) : List Byte :=
  leBytes 8 i.rbTo ++ leBytes 8 (i.rbClosing.getD 0) ++ leBytes 8 i.rbTotal
    ++ ((List.range 256).flatMap fun k => leBytes 8 (i.rbSrc.get 0 k)) ++ List.replicate 2024 0

/-- Steps 3 and 4: the digests are compared with the snapshot of V where the ring has it, and the report is written. -/
def State.rollbackEnd (s : State) : State :=
  let snap := (s.upd.ring.find? fun (kv : Nat × Snapshot) => kv.2.epoch == s.int.rbTo).map Prod.snd
  let bad : List Nat := match snap with
    | none => []
    | some x => (List.range 256).filter fun m =>
        SMap.digSum s.upd.dig m != ((x.d.find? fun (e : Nat × D128) => e.1 == m).map Prod.snd).getD 0
  let s1 := bad.foldl (fun st m => st.breakModel (some m)) s
  let s2 := if bad.isEmpty then s1 else s1.intFault 0x0D07 [] (modelMask bad)
  let s3 := s2.devWrite s2.int.rbOut.toNat s2.int.report
  { s3 with int := { s3.int with
      rbClosing := none, busy := false, res := if bad.isEmpty then 0 else 3
      disagree := false, dis := [], unver := [], rbAuto := false } }

/-- A rollback goes on (R679): its records accepted are applied and its epoch closed first. -/
def State.rollbackGo (s : State) : State :=
  match s.int.rbClosing with
  | none => s
  | some n =>
    if !s.upd.recs.isEmpty || s.upd.closing.isSome || decide (s.upd.epoch ≤ n) then s
    else
      let (ok, s1) := State.undoAll ((List.range 12).map fun st => (s.uuStack st).kept.length).sum s
      if ok then s1.rollbackEnd else s1

/-- A rollback to V begins, or fails (R679). -/
def State.rollbackStart (s : State) (v : Nat) : State :=
  let fail := fun (r : BitVec 2) => { s with int := { s.int with res := r } }
  if s.pl.role != .solo || s.int.expelled then fail 1
  else if v < s.int.ver ∨ s.upd.accepting < v ∨ v < s.upd.journalFrom then fail 2
  else
    let s1 := { s with int := { s.int with
      busy := true, res := 0, rbClosing := some s.upd.accepting, rbTo := v, rbTotal := 0, rbSrc := [] } }
    (s1.closeEpoch none).rollbackGo

/-! ### INT_CMD and INT_VER (R674, R687, R688) -/

/-- A write of INT_CMD. GO is ignored while BUSY; it starts EXPEL or ROLLBACK. -/
def State.writeIntCmd (s : State) (v : W32) : State :=
  let s1 := { s with int := { s.int with op := field v 0 2 } }
  if s.int.busy || !bit v 2 then s1
  else
    match (field v 0 2).toNat with
    | 1 =>
      if s.int.expelled then { s1 with int := { s1.int with res := 1 } }
      else ({ s1 with int := { s1.int with res := 0 } }).expel 0
    | 2 => s1.rollbackStart s.int.rb.toNat
    | _ => s1

/-- EXPEL: INT_CMD with OP 1 and GO. -/
def execExpel (p : AccessPath) (s : State) : Res := .next (s.onCsr p .hub (·.writeIntCmd 5))

/-- ROLLBACK: INT_CMD with OP 2 and GO. While one runs, it goes on. -/
def execRollback (p : AccessPath) (s : State) : Res :=
  if s.int.rbClosing.isSome then .next s.rollbackGo else .next (s.onCsr p .hub (·.writeIntCmd 6))

/-- Writes of INT_VER: LO is held, and HI applies both as one value, under R674. -/
def State.writeVerLo (s : State) (v : W32) : State := { s with int := { s.int with verLo := v } }
def State.writeVerHi (s : State) (v : W32) : State :=
  let e := v.toNat * 2 ^ 32 + s.int.verLo.toNat
  let inRing := s.upd.ring.any fun (kv : Nat × Snapshot) => kv.2.epoch == e
  if s.pl.role == .solo && inRing && decide (s.int.ver ≤ e) then
    { s with int := { s.int with ver := e, disagree := false, dis := [], unver := [] } }
  else { s with int := { s.int with err := true } }

/-- INT_VER_WRITE (R674): both words. -/
def execIntVerWrite (p : AccessPath) (v : W64) (s : State) : Res :=
  .next (s.onCsr p .hub fun s => (s.writeVerLo (field v 0 32)).writeVerHi (field v 32 32))

end Sys2Proof.Machine
end

