-- ==== Sys2Proof/Machine/PairLink.lean ====
section
/-! DEFINITION. The Quefy link and redundant pairs (18): the link and its cable, roles and PL_CMD, the mirror stream at the
standby, the initial full copy, and failover. -/
namespace Sys2Proof.Machine
open Sys2Proof

/-! ### Registers and records (R651–R659) -/

def roleCode : Role → Nat
  | .solo => 0 | .active => 1 | .standbyIncomplete => 2 | .standby => 3 | .split => 4

/-- Lanes in use. -/
def PairState.laneCount (p : PairState) : Nat := ((List.range 16).filter fun i => p.lanes.getLsbD i).length

def State.plStsReg (s : State) : W32 :=
  let p := s.pl
  let lag := (p.tx.filter fun (b : EpochBuf) => b.commit.isSome).length
  regOf [(0, roleCode p.role), (3, p.side.toNat), (4, p.copy.toNat), (5, p.link.toNat), (6, p.prsnt.toNat), (7, p.pdnSeen.toNat),
    (8, s.time.pairLock.toNat), (9, p.hold.toNat), (10, p.err.toNat), (16, min 255 lag)]
def PairState.ctlReg (p : PairState) : W32 :=
  regOf [(0, p.replay.toNat), (1, p.auto.toNat), (2, p.lossUs.toNat), (10, p.copyPct.toNat)]
def PairState.cmdReg (p : PairState) : W32 := regOf [(0, p.op.toNat), (4, p.busy.toNat), (5, p.res.toNat)]
def PairState.laneReg (p : PairState) : W32 := regOf [(0, p.lanes.toNat), (16, p.laneCount), (24, p.degrades.toNat)]
def PairState.cntReg (p : PairState) : W32 := regOf [(0, p.replays.toNat), (16, p.splits.toNat), (24, p.promos.toNat)]

/-- A record of the pair-link controller (R651). -/
def State.plFault (s : State) (code : Nat) : State :=
  s.fault { mkFault 7 0 code with
    state := leBytes 4 s.plStsReg.toNat ++ leBytes 4 s.pl.laneReg.toNat ++ leBytes 8 s.pl.committed ++ leBytes 8 s.pl.ver }

/-- Writes of PL_CTL, PL_TXB, PL_RXB and PL_MREG take effect in SOLO only; another sets ERR where it would change the
register (R652, R657, R658, R827). -/
def State.plWrite (s : State) (f : PairState → PairState) : State :=
  if s.pl.role == .solo then { s with pl := f s.pl } else { s with pl := { s.pl with err := s.pl.err || decide (f s.pl ≠ s.pl) } }
def State.writePlCtl (s : State) (v : W32) : State :=
  s.plWrite fun p => { p with
    replay := bit v 0, auto := bit v 1, lossUs := if field v 2 8 = 0 then 1 else field v 2 8, copyPct := field v 10 7 }
def State.writePlTxb (s : State) (v : W32) : State :=
  s.plWrite fun p => { p with txbBase := field v 0 24, txbSize := if field v 24 8 = 0 then 1 else field v 24 8 }
def State.writePlRxb (s : State) (v : W32) : State :=
  s.plWrite fun p => { p with rxbBase := field v 0 24, rxbSize := if field v 24 8 = 0 then 1 else field v 24 8 }
def State.writePlMreg (s : State) (hi : Bool) (v : W32) : State :=
  s.plWrite fun p => { p with mreg := setField p.mreg (if hi then 32 else 0) 32 v }
def State.writePlSts (s : State) (v : W32) : State := { s with pl := { s.pl with err := s.pl.err && !bit v 10 } }
/-- PL_CNT: writing 0 to a field clears it, and any other write to it is ignored (R659). -/
def State.writePlCnt (s : State) (v : W32) : State :=
  { s with pl := { s.pl with
      replays := if field v 0 16 = 0 then 0 else s.pl.replays
      splits := if field v 16 8 = 0 then 0 else s.pl.splits
      promos := if field v 24 8 = 0 then 0 else s.pl.promos } }

/-! ### Changing roles (R634, R636, R648) -/

/-- The part takes a role; PL_STS.ROLE's event is raised where it changes. -/
def State.setRole (s : State) (r : Role) : State :=
  if s.pl.role = r then s else State.irqEvent { s with pl := { s.pl with role := r } } 2

/-- PAIR_LOCK clears (R647 step 4). -/
def State.dropLock (s : State) : State :=
  let s1 := { s with time := { s.time with following := false, pairLock := false, goodMsgs := 0, slewPpm := 0 } }
  if s.time.pairLock then s1.irqEvent 9 else s1

/-- The part leaves its pair and becomes SOLO: its buffers are freed, and QF_PDN_OUT goes low (R635). -/
def State.becomeSolo (s : State) : State :=
  let p := { s.pl with
    tx := [], rx := [], retain := true, cutWait := [], cutParts := [], copy := false, copyEpoch := none, swapEpoch := none
    waiting := none, promoting := false, pdnOut := false, hold := false, side := false, rxRun := false
    busy := s.pl.busy && s.pl.runOp == 5 && s.pl.promoting
    res := if s.pl.busy && s.pl.runOp == 6 then 5 else s.pl.res }
  State.setRole { s with pl := p }.dropLock .solo

/-- The part takes a pair role: the pair-link controller runs in it, and QF_PDN_OUT goes high. -/
def State.enterPair (s : State) (r : Role) : State :=
  State.setRole { s with pl := { s.pl with
    tx := [], rx := [], retain := true, copy := false, side := false, pdnSeen := false
    pdnOut := !s.int.expelled, dirty := [] } } r

/-- Both parts are parted (R648): the role becomes SPLIT, and a running PL_CMD fails for the link. -/
def State.enterSplit (s : State) : State :=
  if rolePaired s.pl.role then
    let p := { s.pl with
      side := s.pl.role != .active, former := s.pl.role, splits := satInc s.pl.splits
      busy := false, res := if s.pl.busy then 5 else s.pl.res, swapEpoch := none, cutWait := [], cutParts := [] }
    (State.setRole { s with pl := p } .split).plFault 0x0E06
  else s

/-- The link is down (R633, R648): with the cable present and the peer not down, the parts split. -/
def State.quefyDown (s : State) (peerDown : Bool) : State :=
  let s1 := State.plFault { s with pl := { s.pl with link := false, lanes := 0 } } 0x0E03
  if peerDown || !s.pl.prsnt then s1 else s1.enterSplit

/-! ### The link (R632, R633, R637) -/

/-- The roles that the option block gives a part with PAIR_EN (R637, R699). -/
def State.startRole (s : State) : Role :=
  if s.rst.effStraps.pair then
    match s.optByte 10 % 4 with
    | 1 => .active
    | 2 => .standbyIncomplete
    | _ => .solo
  else .solo

/-- The former roles return, and mirroring resumes with the first epoch that the standby has not committed (R648). -/
def State.resumePair (s : State) (peerEpoch : Nat) : State :=
  if s.pl.side then State.setRole { s with pl := { s.pl with rx := [], rxRun := false, side := false } } s.pl.former
  else
    let tx := s.pl.tx.filter fun (b : EpochBuf) => decide (peerEpoch < b.n)
    let s1 := State.setRole { s with pl := { s.pl with tx := tx, committed := max s.pl.committed peerEpoch } } .active
    (tx.filter fun (b : EpochBuf) => b.commit.isSome).foldl (fun st b => st.emit (.quefy "COMMIT" b.n [])) s1

/-- Two parts meet again after a split that cannot be resumed (R648): a former standby becomes STANDBY-INCOMPLETE, and a
former active goes on as ACTIVE where its peer is that standby. -/
def State.rejoin (s : State) (peer : Role) (peerSide : Bool) : State :=
  if s.pl.side then State.setRole { s with pl := { s.pl with rx := [], rxRun := false, side := false } } .standbyIncomplete
  else if peer == .split && peerSide then
    let s1 := if s.pl.copy then s.plFault 0x0E07 else s
    State.setRole { s1 with pl := { s1.pl with tx := [], retain := true, copy := false, copyEpoch := none } } .active
  else s

/-- The first exchange of roles after a reset (R637). -/
def State.firstMeeting (s : State) (peer : Role) : State :=
  let mine := s.pl.role
  if (mine == .active && peer == .standbyIncomplete) || (mine == .standbyIncomplete && peer == .active) then s
  else s.becomeSolo.plFault 0x0E08

/-- The link can train: at step 9 and after, and from step 3 for a pair load (R702, R703). -/
def State.linkTrains (s : State) : Bool :=
  s.hubRuns && (match s.rst.start with
    | .clusters | .ports | .ready => s.pwr.dstate != .d3hot
    | _ => s.rst.effStraps.boot == 2 && s.rst.start != .test && s.rst.start != .retired)

/-- QUEFY_LINK_UP (R637, R648): the link is running on some lanes, and the parts exchange roles: the peer's, its SIDE, the
last epoch that a standby has committed, and whether a former active still holds every epoch after it. -/
def execQuefyLinkUp (lanes : W16) (peer : Role) (peerSide : Bool) (peerEpoch : Nat) (peerHolds : Bool) (s : State) : Res :=
  if s.pl.link || !s.pl.prsnt || !s.linkTrains then .next s
  else
    let ready := s.rst.start == .ready
    let p : PairState := { s.pl with link := true, lanes := lanes, pdnSeen := false, peerRole := peer, met := s.pl.met || ready }
    if p.laneCount < 8 then .next s
    else if !ready then .next { s with pl := p }
    else
      let s1 := { s with pl := p }
      .next (if !s.rst.effStraps.pair then s1
        else if s1.pl.role == .split then
          let same := peer == .split && peerSide == !s1.pl.side && (if s1.pl.side then peerHolds else s1.pl.retain)
          if same then s1.resumePair peerEpoch else s1.rejoin peer peerSide
        else if s.pl.met then s1
        else s1.firstMeeting peer)

/-- QUEFY_LANE_FAILURE (R633): a lane fails, and both ends retrain on the rest; a retrain that fails, or a failure at 8
lanes, is link down. -/
def execQuefyLaneFailure (lane : Fin 16) (retrained peerDown : Bool) (s : State) : Res :=
  if !s.pl.link || !s.pl.lanes.getLsbD lane.val then .next s
  else
    let n := s.pl.laneCount
    let p := { s.pl with lanes := setField s.pl.lanes lane.val 1 0, degrades := satInc s.pl.degrades }
    let s1 := State.plFault { s with pl := p } 0x0E01
    .next (if n ≤ 8 || !retrained then s1.quefyDown peerDown else s1)

/-- FLIT_CRC_FAILURE (R632): the flit is replayed in order, with no loss. -/
def execFlitCrcFailure (s : State) : Res :=
  .next (if s.pl.link then { s with pl := { s.pl with replays := satInc s.pl.replays } } else s)

/-- QUEFY_LINK_LOSS (R633): a retrain has failed, or no flit has arrived for LOSS_US, which is link down only while the peer
has not reported itself down. -/
def execQuefyLinkLoss (silence peerDown : Bool) (s : State) : Res :=
  if !s.pl.link || (silence && peerDown) then .next s else .next (s.quefyDown peerDown)

/-- QF_PRSNT_CHANGE (R634, R635, R648): the cable is seated at both ends, or not. A removal is a split, and never a peer
loss. -/
def execQfPrsntChange (seated : Bool) (s : State) : Res :=
  if s.pl.prsnt = seated then .next s
  else
    let s1 := State.plFault { s with pl := { s.pl with prsnt := seated } } 0x0E09
    .next (if seated then s1
      else State.enterSplit { s1 with pl := { s1.pl with link := false, lanes := 0, pdnSeen := false } })

/-! ### The mirror stream at the standby (R644, R645) -/

/-- The standby cannot follow the active: it becomes STANDBY-INCOMPLETE (R644). -/
def State.diverge (s : State) : State := (s.setRole .standbyIncomplete).plFault 0x0E08

/-- Run a mirrored command on this part's own state. -/
def State.runMirrored (s : State) (opc : Nat) (c : KCmd) : State :=
  let r := match opc with
    | 0x0C => execMdlReg c s
    | 0x0E => execMdlUnreg c s
    | 0x10 => execTaskReg c s
    | 0x11 => execTaskUnreg c s
    | 0x18 => execTblCreate c s
    | 0x19 => execTblLoad c s
    | 0x1A => execTblSeal c s
    | 0x1B => execTblRetire c s
    | 0x1C => execTblCtrz c s
    | 0x1D => execTblFlip c s
    | 0x21 => execDgstRebuild c s
    | 0x28 => execCbkInstall c s
    | 0x29 => execCbkClear c s
    | 0x38 => execRsvDeclare c s
    | 0x39 => execRsvRelease c s
    | 0x42 => execAqExtCreate c s
    | 0x43 => execAqExtFree c s
    | _ => .next s
  match r with | .next t => t | _ => s

/-- What a CENSUS of the active did (R167): the codebook it installed, and the re-encoding of the named range. -/
def State.censusMirrored (s : State) (data : List Byte) : State :=
  let cbk := leAt data 16 2
  let s1 := if data.length ≤ 64 then s else s.installCbk cbk (codebookOf (data.drop 64)).1
  if (leAt data 19 1).testBit 1 then
    (List.range (leAt data 8 8 / 512)).foldl (fun st i => st.recodeBlock cbk (leAt data 0 8 % 2 ^ 52 + 512 * i)) s1
  else s1

/-- A mirrored command at the head of the receive buffer (R644): true once it has ended. -/
def State.applyCommand (s : State) (opc : Nat) (args : List W64) (status : Nat) (result : W64) (data : List Byte) :
    Bool × State :=
  if opc = 0x2B then (true, s.censusMirrored data)
  else
    let c := mirrorKCmd args
    let s1 := if !s.pl.rxRun then State.runMirrored { s with pl := { s.pl with rxRun := true, rxData := data, rxOut := none } } opc c
      else if opc = 0x21 then s.runMirrored opc c else s
    match s1.pl.rxOut with
    | none => (false, s1)
    | some (code, res) =>
      let s2 := { s1 with pl := { s1.pl with rxRun := false, rxData := [], rxOut := none } }
      (true, if code.toNat == status && (opc != 0x42 || res == result) then s2 else s2.diverge)

/-- Write a row whole with its state, as a result or copy record gives it (R641, R646): false while log space is waited
for. -/
def State.putRow (s : State) (t r : Nat) (bytes state : List Byte) : Bool × State :=
  let d := s.td t
  let before := s.rowDigest t d r
  let (ok, s1) := s.writeRow t d r 0 bytes
  if !ok then (false, s1)
  else
    let s2 := if state.isEmpty || !d.serves then s1 else s1.writeDA (s1.stateDA t d r) state
    (true, if d.digest && d.serves then s2.digAdd (s2.updUnit t d r) d.model (s2.rowDigest t d r - before) else s2)

/-- A copied row: one that could not be read at the active is poisoned here, and its model is broken. -/
def State.putCopy (s : State) (t r : Nat) (bytes state : List Byte) : Bool × State :=
  if bytes.isEmpty then (true, (s.poisonRow t (s.td t) r 0).breakTable (s.td t)) else s.putRow t r bytes state

/-- A page-group copy is written in place with one NVMe Write, and its rows leave the log index (R646). -/
def State.putPage (s : State) (t first : Nat) (rows : List (List Byte)) : State :=
  let d := s.td t
  let e := s.aqExt (d.homeExt % 4096)
  let one := fun (st : State) (x : List Byte × Nat) =>
    let r := first + x.2
    let (o, lba, off) := e.locate d.s r
    match st.memberSlot o with
    | none => st.breakTable d
    | some n =>
      let before := st.rowDigest t d r
      let st1 := (st.updDrive n fun y => { y with home := cellsWrite y.home (lba * 4096 + off) x.1 }).lidxDel t r
      let st2 := if d.digest && d.serves then st1.digAdd (st1.updUnit t d r) d.model (st1.rowDigest t d r - before) else st1
      if x.1.isEmpty then st2.breakTable d else st2
  let s1 := rows.zipIdx.foldl one s
  let (o, lba, _) := e.locate d.s first
  match s.memberSlot o with | some n => s1.emit (.nvme n "Write" lba e.pgn) | none => s1

/-- Write a table's maps and descriptor at offset o of the table store, and zero its counters. -/
def State.installImage (s : State) (t o : Nat) (desc maps : List Byte) : State :=
  let d := tdOf desc
  let m0 := s.storeBase + o
  let b1 := putAt desc 40 (leBytes 8 m0)
  let b2 := if d.xlate = 2 then putAt b1 16 (leBytes 8 (m0 + 16 * d.nshard)) else b1
  let s1 := ((s.writeDA m0 maps).writeDA (s.tdDA t) (putAt b2 0 [0])).writeDA (s.tctrDA t) (List.replicate 64 0)
  { s1 with heap := s1.heap.set t (o, maps.length) }.setTdState t tdLoading

/-- An installed table serves once its rows are pinned. -/
def State.installServe (s : State) (t : Nat) (d : TD) (half : Bool) (states : List Nat) : Option State :=
  (s.pinAll t (s.td t) d.kind2).map fun s3 =>
    let s4 := { s3 with upd := { s3.upd with
      stateMaps := if d.opt = 0 then s3.upd.stateMaps else s3.upd.stateMaps.set t states, pub := s3.upd.pub.set t half } }
    (s4.sweep t (s4.td t) true).setTdState t tdServing

/-- Take over a table's registration (R646 step 1): none where its maps find no room or its rows cannot be pinned. -/
def State.installTable (s : State) (t : Nat) (desc maps : List Byte) (half : Bool) (states : List Nat) : Option State :=
  let d := tdOf desc
  let old := s.td t
  let s0 := if old.state = tdFree then s else (if old.serves then s.sweep t old false else s).freeTable t
  if !s0.tda.rdy then none
  else
    match s0.heapFit maps.length with
    | none => none
    | some o =>
      let s1 := s0.installImage t o desc maps
      if !d.serves then some s1 else s1.installServe t d half states

/-- Apply one received item of epoch n: true once it has been applied (R644). Records of a model whose sweep runs wait
(R672). -/
def State.applyItem (s : State) (n : Nat) (it : MirrorItem) : Bool × State :=
  match it with
  | .command opc args status result data => s.applyCommand opc args status result data
  | .update t r kind zst opt src payload =>
    let d := s.td t
    if s.updHeld t then (false, s)
    else if !d.serves then (true, s)
    else
      let q : UpdReq := { table := t, row := r, kind := kind, zst := zst && d.opt != 0, payload := payload, opt := opt
                          src := src, epoch := n }
      let (out, s1) := s.applyUpdate q (s.rowOld t d r)
      (match out with | .waits _ => false | _ => true, s1)
  | .result t r bytes state => if s.updHeld t then (false, s) else s.putRow t r bytes state
  | .copyRow t r bytes state =>
    if s.updHeld t then (false, s) else State.putCopy { s with pl := { s.pl with copy := true } } t r bytes state
  | .copyPage t first rows =>
    if s.updHeld t then (false, s) else (true, State.putPage { s with pl := { s.pl with copy := true } } t first rows)
  | .granule da bytes => (true, s.writeDA da bytes)
  | .model i part desc =>
    (true, { s with sc := { s.sc with models := s.sc.models.set i { desc := desc, part := part } } })
  | .program i image =>
    (true, match progOf image image.length with
      | some pr => { s with cc := { s.cc with progs := s.cc.progs.set i pr } }
      | none => s)
  | .codebook i record => (true, { s with cbk := s.cbk.set i (codebookOf record).1 })
  | .table t desc maps half states =>
    (true, match s.installTable t desc maps half states with
      | some s1 => s1
      | none => s.diverge)

/-- Epoch n is committed at the standby (R644–R646, R650): the snapshot of a digest epoch is formed and compared, ACK is
sent, and the roles that COMMIT marks are taken. -/
def State.commitEpoch (s : State) (c : Commit) : State :=
  let s1 := (State.journalRelease { s with upd := { s.upd with
    epoch := c.n + 1, closing := none, saved := s.upd.dig, openedAt := s.time.now } } c.n)
  let s2 := match c.snap with
    | none => s1
    | some theirs =>
      let mine := s1.snapshot (c.n + 1)
      let (agree, bad, unver) := compareSnapshots mine theirs
      (s1.putSnapshot mine |>.compared (c.n + 1) agree bad unver).emit (.quefy "COMPARE" (c.n + 1) [if agree then 1 else 0])
  let s3 := State.emit { s2 with pl := { s2.pl with committed := c.n } } (.quefy "ACK" c.n [])
  let s4 := if c.full && s3.pl.role == .standbyIncomplete then
      State.setRole { s3 with pl := { s3.pl with copy := false } } .standby
    else s3
  if c.swap && s4.pl.role == .standby then
    State.setRole { s4 with pl := { s4.pl with tx := [], retain := true, copy := false, peerRole := .standby } }.dropLock .active
  else s4

/-- An epoch has been received in full: its COMMIT and every item that it counts. -/
def EpochBuf.whole (b : EpochBuf) : Bool :=
  match b.commit with | some c => decide (c.items ≤ b.taken + b.items.length) | none => false

/-- Take one item, or the COMMIT, of the oldest epoch received in full: false where nothing can be done now. -/
def State.rxStep (s : State) : Bool × State :=
  match s.pl.rx with
  | [] => (false, s)
  | b :: rest =>
    if !b.whole then (false, s)
    else
      match b.items, b.commit with
      | it :: its, _ =>
        let (ok, s1) := s.applyItem b.n it
        (ok, if ok then { s1 with pl := { s1.pl with rx := { b with items := its, taken := b.taken + 1 } :: rest } } else s1)
      | [], some c => (true, State.commitEpoch { s with pl := { s.pl with rx := rest } } c)
      | [], none => (false, s)

/-- Apply what has been received in full, as far as it goes. -/
def State.rxRunAll : Nat → State → State
  | 0, s => s
  | n + 1, s => match s.rxStep with | (true, s1) => State.rxRunAll n s1 | (false, s1) => s1

def State.rxApply (s : State) : State :=
  State.rxRunAll (s.pl.rx.map fun (b : EpochBuf) => b.items.length + 1).sum s

/-- Put an item, or a COMMIT, into its epoch's buffer. -/
def rxPut (n : Nat) (f : EpochBuf → EpochBuf) : List EpochBuf → List EpochBuf
  | [] => [f { n := n }]
  | b :: bs => if b.n = n then f b :: bs else b :: rxPut n f bs

/-- The part receives the mirror stream. -/
def State.receives (s : State) : Bool := roleStandby s.pl.role && s.pl.link && !s.pl.promoting

/-- MIRROR_ITEM (R644). -/
def execMirrorItem (n : Nat) (item : MirrorItem) (s : State) : Res :=
  if s.receives then
    .next { s with pl := { s.pl with rx := rxPut n (fun b => { b with items := b.items ++ [item] }) s.pl.rx } }
  else .next s

/-- COMMIT_RECEIVED (R644): what has been received in full is applied in order; where an item waits, it goes on when this
comes again. -/
def execCommitReceived (c : Commit) (s : State) : Res :=
  if s.receives then
    let put := fun (b : EpochBuf) => { b with commit := some (b.commit.getD c) }
    let rx := if c.n ≤ s.pl.committed ∧ s.pl.committed ≠ 0 then s.pl.rx else rxPut c.n put s.pl.rx
    .next (State.rxApply { s with pl := { s.pl with rx := rx } })
  else .next s

/-- ACK_RECEIVED (R643, R646, R650): the active frees its buffer up to epoch n. The ACK of the epoch that carried FULL ends
the copy, and that of the SWAP epoch ends the swap. -/
def execAckReceived (n : Nat) (s : State) : Res :=
  if s.pl.role != .active then .next s
  else
    let p := { s.pl with tx := s.pl.tx.filter fun (b : EpochBuf) => decide (n < b.n), committed := max s.pl.committed n }
    let p1 := { p with hold := p.hold && p.txFull }
    let p2 := match p1.copyEpoch with
      | some k => if k ≤ n then { p1 with copy := false, copyEpoch := none, peerRole := .standby } else p1
      | none => p1
    let s1 := { s with pl := p2 }
    .next (match p2.swapEpoch with
      | some k =>
        if k ≤ n then State.setRole { s1 with pl := { p2 with
            swapEpoch := none, busy := false, res := 0, tx := [], peerRole := .active } } .standby
        else s1
      | none => s1)

/-! ### Promotion (R647) -/

/-- The promotion's end: SOLO, with the last committed epoch in PL_PROMO; and the rollback that an expulsion of the peer
asks for (R673). -/
def State.promoteEnd (s : State) : State :=
  let s1 := s.becomeSolo
  let s2 := State.plFault { s1 with pl := { s1.pl with
    promo := s1.pl.committed, promos := satInc s1.pl.promos, busy := false, res := 0, promoting := false } } 0x0E05
  if s2.int.rbAuto then s2.rollbackStart s2.int.ver else s2

/-- Reception stops, epochs not received in full are discarded, and the others are applied. -/
def State.promoteGo (s : State) : State :=
  let s1 := State.rxApply { s with pl := { s.pl with promoting := true, rx := s.pl.rx.takeWhile EpochBuf.whole } }
  if s1.pl.rx.isEmpty then s1.promoteEnd else s1

/-- PEER_DOWN_SEEN (R635, R647, R648): QF_PDN_IN has been low for 10 µs with the cable present. -/
def execPeerDownSeen (s : State) : Res :=
  if s.pl.promoting then .next s.promoteGo
  else if !s.pl.prsnt || s.pl.role == .solo || s.pl.pdnSeen then .next s
  else
    let s1 := State.plFault { s with pl := { s.pl with pdnSeen := true } } 0x0E04
    .next (match s.pl.role with
      | .active => s1.becomeSolo
      | .standby => if s.pl.auto then s1.promoteGo else s1
      | .standbyIncomplete =>
        if s.pl.copy then State.plFault { s1 with pl := { s1.pl with copy := false } } 0x0E07 else s1
      | _ => s1)

/-! ### PL_CMD (R638, R640, R646, R650) -/

/-- The configuration fingerprint (R640). -/
def State.fingerprint (s : State) : List Nat :=
  ((List.range 64).flatMap fun n => [(s.region n).regA.toNat, ((s.region n).base.toNat + 4096 * (s.region n).defCbk.toNat
      + 2 ^ 24 * (s.region n).defV.toNat)])
    ++ [s.tda.regLo.toNat, s.tda.baseHi.toNat + 2 ^ 20 * s.tda.size.toNat]
    ++ ((List.range 64).flatMap fun k => let r := s.rsvRange k; [r.v.toNat, r.hpa, r.len])
    ++ (s.aq.exts.flatMap fun (kv : Nat × AqExt) =>
      [kv.1, kv.2.st, kv.2.mask.toNat, kv.2.pgn, kv.2.gen.toNat, kv.2.pages, kv.2.homeLba])
    ++ ((List.range 12).flatMap fun st => [(s.uuStack st).base.toNat, (s.uuStack st).size.toNat])
    ++ [s.upd.e.toNat, s.keyCheck]

/-- A PL_CMD ends with a result. -/
def State.plEnd (s : State) (res : BitVec 3) : State :=
  { s with pl := { s.pl with busy := false, res := res, waiting := none } }

/-- Both parts have issued their commands (R638): they pair where their fingerprints are equal. -/
def State.pairUp (s : State) (op : Nat) (fp : List Nat) : State :=
  let s1 := { s with pl := { s.pl with peerCmd := none } }
  if fp ≠ s.fingerprint then s1.plEnd 4
  else
    let s2 := (s1.plEnd 0).enterPair (if op = 1 then .active else .standbyIncomplete)
    { s2 with pl := { s2.pl with peerRole := if op = 1 then .standbyIncomplete else .active } }

/-- PAIR_ACTIVE (OP 1) or PAIR_STANDBY (OP 2). -/
def State.plPair (s : State) (op : Nat) : State :=
  if s.pl.role != .solo then s.plEnd 1
  else if !s.pl.link then s.plEnd 5
  else
    let s1 := s.emit (.quefy "PAIR" op [])
    match s.pl.peerCmd with
    | some (o, fp, t) =>
      if o = 3 - op ∧ s.time.now < t + 100000000 then s1.pairUp op fp
      else { s1 with pl := { s1.pl with busy := true, waiting := some (op, s.time.now) } }
    | none => { s1 with pl := { s1.pl with busy := true, waiting := some (op, s.time.now) } }

/-- An image that gives a program back (R459). -/
def Prog.image (p : Prog) : List Byte :=
  leBytes 4 p.code.length ++ leBytes 4 p.entry
    ++ [BitVec.ofNat 8 (p.frame / 4096), BitVec.ofNat 8 p.maxh, BitVec.ofNat 8 (p.standingOk.toNat + 2 * p.restart.toNat)]
    ++ List.replicate 53 0 ++ p.code

/-- A table's registration as it is sent; a DRAINING table's TBL_RETIRE is still to end. -/
def State.tableItem (s : State) (t : Nat) : MirrorItem :=
  let d := s.td t
  let b := (s.readDA (s.tdDA t) 128).data
  let rn := if d.xlate = 2 then d.rmapN else 0
  .table t (if d.state = tdDraining then putAt b 0 [BitVec.ofNat 8 tdServing] else b)
    ((s.readDA d.shmap (16 * d.nshard)).data ++ (s.readDA d.xarg (16 * rn)).data) (s.half t) (s.upd.stateMaps.get [] t)

/-- First rows of the copy records of a table: every row, or the first of each page group of a TIER 3 table. -/
def State.copyRows (s : State) (t : Nat) : List Nat :=
  let d := s.td t
  let g := if d.tier = 3 then max 1 ((s.aqExt (d.homeExt % 4096)).rows d.s) else 1
  (List.range ((d.n + g - 1) / g)).map fun i => g * i

/-- The initial full copy starts (R646): every registration, a copy record for each row, and every granule of the mirrored
regions, in the open epoch. Ranges and extents have been found equal. -/
def State.copyStart (s : State) : State :=
  let n := s.upd.accepting
  let s0 := { s with pl := { s.pl with copy := true, copyEpoch := some n } }
  let its : List MirrorItem :=
    (s.sc.models.map fun (kv : Nat × Model) => MirrorItem.model kv.1 kv.2.part kv.2.desc)
      ++ (s.cc.progs.map fun (kv : Nat × Prog) => MirrorItem.program kv.1 kv.2.image)
      ++ (s.cbk.map fun (kv : Nat × Codebook) => MirrorItem.codebook kv.1 kv.2.bytes)
      ++ s.tda.live.map s.tableItem
  let s1 := its.foldl (fun st it => st.mirror n it) s0
  let s2 := s.tda.live.foldl (fun st t => (st.copyRows t).foldl (fun x r => x.copyPlace t r) st) s1
  let grains := (List.range 64).flatMap fun k =>
    let r := s.region k
    if r.en && s.pl.mreg.getLsbD k then (List.range (r.size / 4096)).map fun i => r.daBase / 4096 + i else []
  { s2 with pl := { s2.pl with dirty := grains.foldl (fun l g => setInsert l g) s2.pl.dirty } }

/-- COPY, with the peer's fingerprint as it answers. -/
def State.plCopy (s : State) (fp : List Nat) : State :=
  if s.pl.role != .active || s.pl.copy then s.plEnd 1
  else if s.pl.peerRole != .standbyIncomplete || !s.pl.link then s.plEnd 3
  else if fp ≠ s.fingerprint then s.plEnd 4
  else (s.plEnd 0).copyStart

/-- The part leaves its pair as on SOLO: a former standby marks every model's digest broken. -/
def State.leavePair (s : State) : State :=
  let was := roleStandby s.pl.role || (s.pl.role == .split && s.pl.side)
  let s1 := if was then { s with upd := { s.upd with broken := List.range 256 } } else s
  s1.becomeSolo

/-- SOLO. -/
def State.plSolo (s : State) : State := if s.pl.role == .solo then s.plEnd 1 else s.leavePair.plEnd 0

/-- PROMOTE. -/
def State.plPromote (s : State) : State :=
  if s.pl.role == .standby || (s.pl.role == .split && s.pl.side && s.pl.former == .standby) then
    State.promoteGo { s with pl := { s.pl with busy := true, res := 0 } }
  else s.plEnd 1

/-- SWAP: the front end holds new batches, and the open epoch closes with a COMMIT marked SWAP. -/
def State.plSwap (s : State) : State :=
  if s.pl.role != .active || s.pl.copy then s.plEnd 1
  else if s.pl.peerRole != .standby || !s.pl.link then s.plEnd 3
  else State.swapGo { s with pl := { s.pl with busy := true, res := 0 } }

/-- RETRAIN, with the lanes that trained; fewer than 8 are link down. -/
def State.plRetrain (s : State) (lanes : W16) : State :=
  if !s.pl.link || !(rolePaired s.pl.role) then s.plEnd 5
  else
    let p := { s.pl with lanes := lanes }
    if p.laneCount < 8 then (s.quefyDown false).plEnd 5 else (State.plFault { s with pl := p } 0x0E02).plEnd 0

/-- A write of PL_CMD with GO: OP is stored, and GO is ignored while BUSY; every command fails with STRAP where PAIR_EN is 0. The peer's
fingerprint and the lanes that train are the answers to COPY and RETRAIN. -/
def State.plCommand (s : State) (op : Nat) (fp : List Nat) (lanes : W16) : State :=
  let s0 := { s with pl := { s.pl with op := BitVec.ofNat 3 op } }
  if s.pl.busy then s0
  else
    let s1 := { s0 with pl := { s0.pl with runOp := BitVec.ofNat 3 op } }
    if op = 0 then s1
    else if !s.rst.effStraps.pair then s1.plEnd 2
    else
      match op with
      | 1 => s1.plPair 1
      | 2 => s1.plPair 2
      | 3 => s1.plCopy fp
      | 4 => s1.plSolo
      | 5 => s1.plPromote
      | 6 => s1.plSwap
      | _ => s1.plRetrain lanes

/-- A write of PL_CMD without GO stores OP. -/
def State.writePlCmd (s : State) (v : W32) (fp : List Nat) (lanes : W16) : State :=
  if bit v 3 then s.plCommand (field v 0 3).toNat fp lanes
  else { s with pl := { s.pl with op := field v 0 3 } }

/-- PAIR_ACTIVE. -/
def execPairActive (p : AccessPath) (s : State) : Res := .next (s.onCsr p .hub (·.plCommand 1 [] 0))
/-- PAIR_STANDBY. -/
def execPairStandby (p : AccessPath) (s : State) : Res := .next (s.onCsr p .hub (·.plCommand 2 [] 0))
/-- COPY. -/
def execCopy (p : AccessPath) (peer : List Nat) (s : State) : Res := .next (s.onCsr p .hub (·.plCommand 3 peer 0))
/-- SOLO. -/
def execSolo (p : AccessPath) (s : State) : Res := .next (s.onCsr p .hub (·.plCommand 4 [] 0))
/-- PROMOTE; a promotion under way goes on. -/
def execPromote (p : AccessPath) (s : State) : Res :=
  if s.pl.promoting then .next s.promoteGo else .next (s.onCsr p .hub (·.plCommand 5 [] 0))
/-- SWAP. -/
def execSwap (p : AccessPath) (s : State) : Res := .next (s.onCsr p .hub (·.plCommand 6 [] 0))
/-- RETRAIN. -/
def execRetrain (p : AccessPath) (lanes : W16) (s : State) : Res := .next (s.onCsr p .hub (·.plCommand 7 [] lanes))

/-- PAIR_PEER_WINDOW_EXPIRY (R638). -/
def execPairPeerWindowExpiry (s : State) : Res :=
  match s.pl.waiting with
  | some (_, t) => if s.elapsed t 100000000 then .next (s.plEnd 3) else .next s
  | none => .next s

/-- PEER_PAIR_COMMAND_RECEIVED (R638): PAIR_ACTIVE (false) or PAIR_STANDBY (true) of the peer, with its fingerprint. -/
def execPeerPairCommandReceived (standby : Bool) (fp : List Nat) (s : State) : Res :=
  let o := if standby then 2 else 1
  if !s.pl.link then .next s
  else
    match s.pl.waiting with
    | some (op, t) =>
      if op + o = 3 ∧ s.time.now < t + 100000000 then .next (s.pairUp op fp)
      else .next { s with pl := { s.pl with peerCmd := some (o, fp, s.time.now) } }
    | none => .next { s with pl := { s.pl with peerCmd := some (o, fp, s.time.now) } }

end Sys2Proof.Machine
end

