-- ==== Sys2Proof/Machine/ResetBoot.lean ====
section
/-! DEFINITION. Reset, start-up and boot (20), and the events of supplies and pins (24): the reset sources, boot images, the
start-up sequence, block resets, and power events. -/
namespace Sys2Proof.Machine
open Sys2Proof

def State.updRst (s : State) (f : ResetState → ResetState) : State := { s with rst := f s.rst }

/-- A record of power delivery (R825): the regulator's address, page and STATUS_WORD follow the items of class 8. -/
def State.railFault (s : State) (code addr page status : Nat) : State :=
  let p := s.dieRec 4
  s.fault { mkFault 8 4 code with
    state := leBytes 4 s.time.sts.toNat ++ leBytes 4 p.minReg.toNat ++ leBytes 4 p.ageReg.toNat
      ++ [BitVec.ofNat 8 addr, BitVec.ofNat 8 page] ++ leBytes 2 status }

/-! ### Reset sources (R692, R694–R696, R740, R815) -/

/-- The rails that MAIN_EN enables are gone, and the part is in D3cold or OFF (R738): what is not in the backup, aux and
option NVM domains is lost. -/
def State.mainLost (s : State) (d : DState) : State :=
  let c := s.coldKept
  { c with
    pwr := { c.pwr with dstate := d }
    rails := { c.rails with main := false }
    rst := { c.rst with heldThermal := false, heldUv := false } }

/-- POR (R692 code 1, R696, R826): the hub domain powers up, and the strap pins stand as given. -/
def execPor (boot : BitVec 3) (clk : BitVec 2) (pair test : Bool) (s : State) : Res :=
  if s.rails.aux && s.rails.mainEn && !s.rails.powerOff then
    let uv := s.rst.heldUv
    let s1 := State.coldReset { s with
      straps := { boot := boot, clk := clk, pair := pair, test := test }, rails := { s.rails with main := true } }
    if uv then
      let (st, s2) := s1.drawFree 16
      .next (s2.railFault 0x1203 0x40 0 st.toNat)
    else .next s1
  else .next s

/-- MAIN_RAILS_RETURN (R740, R815, R816): from D3cold, with MAIN_EN high, a POR follows. -/
def execMainRailsReturn (s : State) : Res :=
  if s.pwr.dstate == .d3cold && s.rails.mainEn && !s.rails.powerOff then
    .next (State.coldReset { s with rails := { s.rails with main := true } })
  else .next s

/-- PERST_N_ASSERT (R692 code 2, R713): the device reset is held while the pin stays low. A part without its main rails
only holds its next start. -/
def execPerstNAssert (s : State) : Res :=
  if s.rst.heldPerst then .next s
  else if !s.hubPowered then .next (s.updRst fun r => { r with heldPerst := true })
  else .next (s.deviceReset 2 (hold := fun r => { r with heldPerst := true }))

/-- PERST_N_DEASSERT (R713): start-up begins, where nothing else holds it. -/
def execPerstNDeassert (s : State) : Res :=
  if s.rst.heldPerst then
    let s1 := s.updRst fun r => { r with heldPerst := false }
    .next (if s1.hubPowered && !s1.rst.held then s1.bootStart else s1)
  else .next s

/-- JTAG_RESET (R692 code 9): in a test start-up only. -/
def execJtagReset (s : State) : Res :=
  if s.hubPowered && s.rst.effStraps.test then .next (s.deviceReset 9) else .next s

/-- STEWARD_RESET_REQUEST (R692 code 7). -/
def execStewardResetRequest (s : State) : Res :=
  if s.hubRuns && s.stw.st == .running then .next (s.deviceReset 7) else .next s

/-! ### The start-up timer (R710) -/

/-- The timer is paused, and what it has counted is kept. -/
def ResetState.pause (r : ResetState) (now : Nat) : ResetState :=
  { r with timerUsed := r.timerUsed + (match r.timerAt with | some t => now - t | none => 0), timerAt := none }

/-- Start-up ends here. -/
def ResetState.stopAt (r : ResetState) (st : Start) : ResetState :=
  { r with start := st, timerAt := none, timerUsed := 0, xferSince := none, hloadBusy := false }

/-- STARTUP_TIMEOUT (R710): TMO_S has passed before READY. -/
def execStartupTimeout (s : State) : Res :=
  match s.rst.timerAt with
  | none => .next s
  | some t =>
    if s.rst.start.running && !s.rst.held && s.elapsed t (s.rst.tmoS.toNat * 1000000000 - s.rst.timerUsed) then
      let s1 := s.timeFault 4 0x0F06
      if 3 ≤ s.rst.code8 then .next ((s1.updRst (·.stopAt .halted)).timeFault 4 0x0F07)
      else .next (State.deviceReset (s1.updRst fun r => { r with code8 := r.code8 + 1 }) 8)
    else .next s

/-! ### Step 3 (R702, R706, R708) -/

/-- BOOT_WAIT: the timer is paused (R707). -/
def State.bootWait (s : State) : State := s.updRst fun r => { r.pause s.time.now with start := .bootWait, xferSince := none }

/-- Step 4 begins (R703): the image comes from the effective source. -/
def State.bootBegin (s : State) : State :=
  match s.rst.effStraps.boot.toNat with
  | 0 => s.updRst fun r => { r with start := .booting, xferSince := some s.time.now }
  | 2 =>
    (s.updRst fun r => { r with start := .booting, xferSince := some s.time.now }).emit (.quefy "IMAGE_REQUEST" 0 [])
  | _ => s.bootWait

/-- TIME_BASE_PLL_LOCK (R702 step 3): the hub main domain is released. A test start-up stops here; a retired one after the
identity part of step 4 (R706, R708); the security engine draws its nonce (R732). -/
def execTimeBasePllLock (s : State) : Res :=
  if s.rst.start == .clocks && s.hubPowered && !s.rst.held then
    let s1 := { s with time := { s.time with pllLocked := true } }
    if s.rst.effStraps.test then .next (s1.updRst (·.stopAt .test))
    else
      let (nonce, s2) := s1.drawFree 64
      let s3 := { s2 with sec := { s2.sec with nonce := nonce } }
      if s.lc = 3 then
        .next ({ s3 with sec := { s3.sec with aliasIssued := true, measurement := List.replicate 48 0 } }.updRst (·.stopAt .retired))
      else .next s3.bootBegin.ideSettle
  else .next s

/-! ### Boot images (R703–R707) -/

/-- ROOT_HASH and MIN_SVN as applied (R699). -/
def State.rootHash (s : State) : List Byte := (List.range 48).map fun i => s.opt.image.get 0xFF (32 + i)
def State.rootSet (s : State) : Bool := s.rootHash.any (· != 0xFF)
def State.minSvn (s : State) : Nat := leNat ((List.range 4).map fun i => s.opt.image.get 0xFF (24 + i))

/-- A range of bytes. -/
def sliceOf (bs : List Byte) (o n : Nat) : List Byte := (bs.drop o).take n

/-- The checks of R705 and R706: the reason of the first that fails, 0 for none. -/
def State.imageReason (s : State) (img : List Byte) : Nat :=
  let len := leAt img 4 4
  let key := sliceOf img 64 96
  let zeros := (sliceOf img 12 4 ++ sliceOf img 256 256).all (· == 0)
  if leAt img 0 4 ≠ 1 ∨ !zeros then 1
  else if len < 4096 ∨ 16 * mib - 512 < len ∨ img.length < 512 + len then 7
  else if sha384 (sliceOf img 512 len) ≠ sliceOf img 16 48 then 2
  else if s.lc = 0 ∨ (s.lc = 1 ∧ !s.rootSet) then 0
  else if !s.rootSet || sha384 key != s.rootHash then 3
  else if !Config.ecdsaVerify key (sliceOf img 160 96) (img.take 160) then 4
  else if leAt img 8 4 < s.minSvn then 5
  else 0

/-- Check 3 has run and passed: VERIFIED (R706). -/
def State.imageVerified (s : State) : Bool := s.rootSet && s.lc != 0

/-- An image is rejected (R703, R705, R707): image B follows image A; else the part waits, with FAIL set once. -/
def State.imageReject (s : State) (src reason : Nat) : State :=
  let s1 := State.timeFault (s.updRst fun r => { r with
    rej := BitVec.ofNat 4 reason, hloadBusy := r.hloadBusy && src != 1 }) 4 0x0F04
  if s.rst.start == .booting && s.rst.effStraps.boot == 0 && !s.rst.aRejected then
    s1.updRst fun r => { r with aRejected := true, xferSince := some s.time.now }
  else
    let s2 := s1.bootWait
    if s.rst.fail then s2 else (s2.updRst fun r => { r with fail := true }).timeFault 4 0x0F05

/-- An image is accepted: step 5 begins (R702, R705): the steward starts, VDD_CORE goes to P0, and the HBM rails come on. -/
def State.imageAccept (s : State) (src : Nat) (img : List Byte) : State :=
  let whole := img.take (512 + leAt img 4 4)
  let s1 := s.updRst fun r => { r with
    start := .power, timerAt := some s.time.now, timerUsed := (r.pause s.time.now).timerUsed, xferSince := none
    hloadBusy := false, fail := false, srcUsed := BitVec.ofNat 2 src, img := src == 0 && r.aRejected
    svn := BitVec.ofNat 16 (leAt img 8 4), verified := s.imageVerified }
  { s1 with
    sec := { s1.sec with
      measurement := sha384 whole, imgSvn := BitVec.ofNat 32 (leAt img 8 4), image := whole, aliasIssued := !s1.ident.retireFuse }
    stw := { s1.stw with st := .running }
    rails := { s1.rails with hbm := true, vddMv := 750 } }

/-- An image from this source is awaited (R703, R707). -/
def State.awaits (s : State) (src : Nat) : Bool :=
  let boot := s.rst.effStraps.boot.toNat
  match s.rst.start with
  | .booting => (src == 0 && boot == 0) || (src == 2 && boot == 2)
  | .bootWait => (src == 1 && s.rst.hloadBusy) || (src == 3 && (boot == 3 || s.rst.fail))
  | _ => false

/-- BOOT_IMAGE_RECEIVED (R703–R707): an image has arrived from SPI flash, host load, the peer or the sideband. What the flash
holds is what the sideband last programmed, or else what the command brings. -/
def execBootImageReceived (src : Fin 4) (data : List Byte) (readError : Bool) (s : State) : Res :=
  let i := src.val
  if !s.awaits i || s.rst.held then .next s
  else
    let flash := if s.rst.aRejected then s.spi.b else s.spi.a
    let img := if i = 0 ∧ flash ≠ [] then flash else data
    let reason := if readError then 6 else s.imageReason img
    .next (if reason = 0 then s.imageAccept i img else s.imageReject i reason)

/-- BOOT_IMAGE_ABSENT_TIMEOUT (R705): 10 s after its transfer began. -/
def execBootImageAbsentTimeout (s : State) : Res :=
  match s.rst.xferSince with
  | none => .next s
  | some t =>
    let src := if s.rst.start == .bootWait then 1 else s.rst.effStraps.boot.toNat
    if s.elapsed t 10000000000 && s.awaits src then .next (s.imageReject src 6) else .next s

/-- A write of RSTC_HLOAD_LEN (R720): a GO outside BOOT_WAIT, or while a load runs, is ignored. -/
def State.writeHloadLen (s : State) (v : W32) : State :=
  let s1 := s.updRst fun r => { r with hloadLen := field v 0 25 }
  if bit v 31 && s.rst.start == .bootWait && !s.rst.hloadBusy then
    (s1.updRst fun r => { r with hloadBusy := true, xferSince := some s.time.now }).emit
      (.hostRead 0 s.rst.hloadAddr.toNat (field v 0 25).toNat)
  else s1

/-- RSTC_HLOAD_GO (R720). -/
def execRstcHloadGo (p : AccessPath) (v : W32) (s : State) : Res := .next (s.onCsr p .rstc (·.writeHloadLen v))

/-- PAIR_LOAD_REQUEST (R703): a READY part sends its booting peer its own accepted image. -/
def execPairLoadRequest (s : State) : Res :=
  if s.rst.start == .ready && s.pl.link then .next (s.emit (.quefy "IMAGE" s.sec.image.length s.sec.image)) else .next s

/-- CXL_IO_COMPLETION_TIMEOUT (R583, R705): an SQE fetch of a queue, or the host load (1,024), gets no completion. -/
def execCxlIoCompletionTimeout (q : Fin 1025) (s : State) : Res :=
  if q.val = 1024 then .next (if s.rst.start == .bootWait && s.rst.hloadBusy then s.imageReject 1 6 else s)
  else
    let x := s.queue q.val
    if x.head.isSome || x.loc || !s.mayFetch q.val || s.taskBound q.val then .next s else .next (s.fetchFailed q.val)

/-! ### Option writes (R698, R699, R701) -/

/-- The block that a loader with no valid copy stands for: no repairs, and the defaults of hub ROM (R700). -/
def optBlank : SMap Byte :=
  [(0, 1), (1, 0), (2, 0), (3, 0)] ++ ((List.range 23).map fun i => (9 + i, if i = 2 then 1 else 0))
    ++ ((List.range 16).map fun i => (80 + i, 0)) ++ ((List.range 28).map fun i => (100 + i, 0))

/-- The copy in use, as the next write starts from it. -/
def State.optInUse (s : State) : SMap Byte := if s.opt.none then optBlank else s.opt.image

/-- Put bytes into an option image; 0xFF is erased, and unlisted. -/
def optPut (m : SMap Byte) (o : Nat) (bs : List Byte) : SMap Byte :=
  (bs.zipIdx).foldl (fun m x => if x.1 = 0xFF then m.del (o + x.2) else m.set (o + x.2) x.1) m

/-- Write an image to the copy not in use, with GEN one above and its CRC (R698). -/
def State.optWrite (s : State) (img : SMap Byte) : State :=
  let gen := if s.opt.none then 1 else s.opt.gen.toNat + 1
  let a := optPut img 4 (leBytes 4 gen)
  let c := optPut a 4092 (leBytes 4 (crc32c ((optBytes a).take 4092)))
  let toA := s.opt.none || s.opt.usedB
  { s with nvm := { s.nvm with copyA := if toA then c else s.nvm.copyA, copyB := if toA then s.nvm.copyB else c } }

/-- Clear bit i of a bit map at an offset. -/
def optClear (m : SMap Byte) (o i : Nat) : SMap Byte :=
  optPut m (o + i / 8) [m.get 0xFF (o + i / 8) &&& ~~~(BitVec.ofNat 8 (2 ^ (i % 8)))]

/-- Units that the backup domain holds RETIRED, by kind. -/
def retiredIn (m : SMap UnitHealth) : List Nat :=
  (m.filter fun (kv : Nat × UnitHealth) => kv.2.health == .retired).map Prod.fst

/-- Record what is retired, and lane repairs, in the option block (R701): one write, with a record, where anything is new. -/
def State.recordRepairs (s : State) (lanes : List (Nat × Byte)) : State :=
  let m0 := s.optInUse
  let m1 := (retiredIn s.bak.core).foldl (fun m i => optClear m 1556 i) m0
  let m2 := (retiredIn s.bak.cluster).foldl (fun m i => optClear m 1706 i) m1
  let m3 := (retiredIn s.bak.pair).foldl (fun m i => optClear m 1719 i) m2
  let m4 := (retiredIn s.bak.lu).foldl (fun m i => optClear m (1496 + 5 * (i / 32)) (i % 32)) m3
  let m5 := (retiredIn s.bak.uu).foldl (fun m i => optClear m (1496 + 5 * (i / 8)) (32 + i % 8)) m4
  let m6 := lanes.foldl (fun m x => optPut m x.1 [x.2]) m5
  if optBytes m6 = optBytes m0 then s else (s.optWrite m6).timeFault 4 0x0F0A

/-! ### Training and the zero-fill (R118, R140) -/

/-- Offset of the repair byte of a spare (R699). -/
def laneByte (i k : Nat) : Nat := 728 + 64 * (i / 32) + 2 * (i % 32) + k

/-- The recorded lane repairs of a channel: a byte with bit 7 clear and a lane from 0 to 35. -/
def State.laneRepairs (s : State) (i : Nat) : List Lane :=
  ((List.range 2).map fun k => s.optByte (laneByte i k)).filterMap fun b =>
    if b < 128 ∧ b % 64 < 36 then some ⟨b / 64, b % 64⟩ else none

/-- Spares of a channel, by number, that no repair uses. -/
def State.sparesLeft (s : State) (i : Nat) : List Nat :=
  (List.range 2).filter fun k => let b := s.optByte (laneByte i k); !(decide (b < 128 ∧ b % 64 < 36))

/-- Newly failing lanes of a channel. -/
def State.newLanes (s : State) (bad : List BadLane) (i : Nat) : List Lane :=
  let mine := (bad.filter fun b => chanIndex b.stack b.ch == i).map fun b => (⟨b.pc.val, b.lane.val⟩ : Lane)
  (mine.filter fun l => !(s.laneRepairs i).contains l).eraseDups

/-- The blocks of the channels retired at training are redirected into the highest-numbered blocks of the other
pseudo-channels, nine per pseudo-channel for each channel retired, in ascending order (R140). -/
def State.trainRedirect (s : State) (stack : Nat) (gone : List Nat) : State :=
  let others := (List.range 64).filter fun p => !gone.contains (stack * 32 + p / 2)
  let one := fun (st : State) (x : Nat × Nat) =>
    let src := (List.range 512).map fun b => blockId stack (x.1 % 32 * 2 + b / 256) (b % 256)
    let dst := others.flatMap fun p => (List.range 9).map fun k => blockId stack p (255 - 9 * x.2 - k)
    { st with mem := { st.mem with redirect := (src.zip dst).foldl (fun m y => m.set y.1 y.2) st.mem.redirect } }
  let s1 := gone.zipIdx.foldl one s
  if gone.isEmpty then s1
  else { s1 with mc := s1.mc.upd {} stack fun r => { r with trainRetired := r.trainRetired + gone.length } }

/-- HBM_TRAINING_COMPLETE (R140, R701, R702 step 6): recorded repairs are applied, newly failing lanes take spares, and a
channel with too few is retired. The steward records what the option block does not yet hold. -/
def execHbmTrainingComplete (bad : List BadLane) (s : State) : Res :=
  if (s.rst.start == .power || s.rst.start == .hbmTrain) && !s.rst.held then
    let chans := List.range 384
    let short := fun (i : Nat) => decide ((s.sparesLeft i).length < (s.newLanes bad i).length)
    let gone := chans.filter short
    let s1 := chans.foldl (fun st i =>
      let n := (s.sparesLeft i).length - (s.newLanes bad i).length
      if n = 2 then st else st.updChan i fun c => { c with spares := n }) s
    let s2 := gone.foldl (fun st i => st.chanState i .retired) s1
    let s3 := (List.range 12).foldl (fun st k => st.trainRedirect k (gone.filter fun i => i / 32 == k)) s2
    let lanes := (chans.filter fun i => !short i).flatMap fun i =>
      ((s.newLanes bad i).zip (s.sparesLeft i)).map fun x => (laneByte i x.2, BitVec.ofNat 8 (64 * x.1.pc + x.1.lane))
    .next ((s3.recordRepairs lanes).updRst fun r => { r with start := .fill })
  else .next s

/-- The basin, its poison and the codebooks are cleared (R118, R160, R702 step 7). -/
def State.zeroFill (s : State) : State :=
  { s with
    cbk := []
    mem := { s.mem with
      cells := s.mem.cells.filter fun kv => hbmEnd ≤ kv.1
      poison := s.mem.poison.filter fun l => hbmEnd ≤ 64 * l } }

/-- Step 8 sets HUB_CAP0 from the repair map as applied (R791). -/
def State.setCaps (s : State) : State :=
  { s with hub := { s.hub with
      capClusters := BitVec.ofNat 7 ((List.range 100).filter (s.serving .cluster)).length
      capPairs := BitVec.ofNat 4 ((List.range 8).filter (s.serving .pair)).length
      capPairEn := s.rst.effStraps.pair } }

/-- ZERO_FILL_COMPLETE (R118, R702 step 7): the clusters are released next (step 8). -/
def execZeroFillComplete (s : State) : Res :=
  if s.rst.start == .fill && !s.rst.held then .next (s.zeroFill.setCaps.updRst fun r => { r with start := .clusters })
  else .next s

/-! ### READY (R702 steps 9 and 10) -/

/-- The aquifer ports train: a drive that is present is identified next (R300, R713). -/
def State.portsUp (s : State) : State :=
  let s1 := { s with rails := { s.rails with pser := true, aqPerstN := 0xFF } }
  (s1.aq.drives.filter fun kv => s1.slotExists kv.1).foldl (fun st kv => st.updAqSlot kv.1 fun a =>
    { a with st := .training, prsnt := true, pdc := true, retrained := false }) s1

/-- STARTUP_READY (R637, R702, R710): the part is READY; a part with PAIR_EN takes its default role, and meets a peer whose
link has trained already. -/
def execStartupReady (s : State) : Res :=
  if (s.rst.start == .clusters || s.rst.start == .ports) && !s.rst.held then
    let s1 := s.portsUp.updRst fun r => { r.stopAt .ready with code8 := 0 }
    let role := s1.startRole
    let s2 := if role = .solo then s1 else s1.enterPair role
    .next (if s2.pl.link && s2.rst.effStraps.pair then (State.firstMeeting { s2 with pl := { s2.pl with met := true } } s2.pl.peerRole)
      else s2)
  else .next s

/-- JTAG_TEST_INSTRUCTION (R708, R734): in test start-up, self-test, HBM training or boundary scan changes no state that the
spec names. -/
def execJtagTestInstruction (s : State) : Res :=
  if s.rst.start == .test then .next (s.emit (.sideband "JTAG_TEST" 0 [])) else .next s

/-! ### Block resets (R666, R709) -/

/-- A compute die is reset: its clusters and its stacks' blocks (R666, R693). -/
def State.dieClear (s : State) (d : Nat) : State :=
  let s2 := (s.clearClusters fun c => c / 25 == d).clearStacks fun st => stackDie st == d
  { s2 with rst := { s2.rst with dieRst := setInsert s2.rst.dieRst d } }

/-- BLOCK_IDLE_ACK (R709 steps 2 to 4): the block acknowledges its idle request, and is reset. -/
def execBlockIdleAck (block : Fin 49) (s : State) : Res :=
  let b := block.val
  if (s.rst.idleReqs.find b).isNone then .next s
  else if b < 16 then .next (s.partResetEnd b)
  else if b < 20 then .next ((s.dieClear (b - 16)).idleEnd b)
  else if b = blkSteward then
    .next (s.againStart.stewardBack.idleEnd b)
  else .next (s.idleEnd b)

/-- Partitions in RESETTING whose clusters are all out of reset, and that have no idle request of their own, go on. -/
def State.dieResumes (s : State) : State :=
  (List.range 16).foldl (fun st p =>
    if (st.part p).st == .resetting && (st.rst.idleReqs.find p).isNone
        && (st.diesOf p).all fun d => !st.rst.dieRst.contains d && (st.rst.idleReqs.find (blkDie d)).isNone
    then st.partResetEnd p else st) s

/-- DIE_RELEASE (R245, R666): the die leaves its reset, and its partitions return. -/
def execDieRelease (die : Fin 4) (s : State) : Res :=
  if s.rst.dieRst.contains die.val then
    .next (s.updRst fun r => { r with dieRst := r.dieRst.filter fun (d : Nat) => d != die.val }).dieResumes
  else .next s

/-- Class and instance that name a block (R709, R829). -/
def blockUnit (b : Nat) : Nat × Nat :=
  if b < 16 then (8, 4) else if b < 20 then (8, b - 16) else if b = blkSteward then (10, 0) else (3, b - 32)

/-- What an unanswered idle request leads to (R667, R709). -/
def State.idleClimb (s : State) (b : Nat) : State :=
  if b < 16 then (s.diesOf b).foldl (fun st d => st.dieReset d) (s.idleEnd b)
  else if b < 20 then s.deviceReset 6
  else if b = blkSteward then s.deviceReset 7
  else
    let n := b - 32
    let s1 := (s.idleEnd b).chargeUnit .pair n
    { s1 with cc := { s1.cc with pairs := s1.cc.pairs.upd {} n fun p => { p with stuck := true } } }

/-- RSTC_IDLE_TIMEOUT_EXPIRY (R548, R709): an idle request, or a teardown, is not done in time. -/
def execRstcIdleTimeoutExpiry (block : Fin 49) (s : State) : Res :=
  let b := block.val
  match s.rst.idleReqs.find b with
  | some due =>
    if due ≤ s.time.now then
      let u := blockUnit b
      .next (State.idleClimb (s.fault { mkFault u.1 u.2 0x0F09 with part := if b < 16 then b else 0xFF }) b)
    else .next s
  | none =>
    if b < 16 ∧ (s.part b).teardown = true ∧ s.elapsed (s.part b).downAt s.rst.idleNs = true then .next (s.partReset b)
    else .next s

/-! ### Power and thermal events (R711, R712, R823–R826) -/

/-- THERMAL_TRIP (R712, R823, R826): THERMTRIP_N and QF_PDN_OUT go low, and a held device reset turns the port and HBM rails
off and VDD_CORE to 0.55 V. -/
def execThermalTrip (s : State) : Res :=
  if s.hubPowered && !s.rst.heldThermal then
    let s1 := (s.secFault 0x0F29).deviceReset 5 (hold := fun r => { r with heldThermal := true })
    .next { s1 with rails := { s1.rails with hbm := false, pser := false, vddMv := 550, aqPerstN := 0 } }
  else .next s

/-- THERMAL_REARM (R712, R823): every junction has been below 95 °C for 1 s; THERMTRIP_N rises and start-up begins. -/
def execThermalRearm (s : State) : Res :=
  if s.hubPowered && s.rst.heldThermal then
    let s1 := { s with rails := { s.rails with vddMv := 750 } }.updRst fun r => { r with heldThermal := false }
    .next (if s1.rst.held then s1 else s1.bootStart)
  else .next s

/-- VBAK_LOSS (R711): the backup contents are lost. A powered hub records it at once; an unpowered one finds it at its next
start. -/
def execVbakLoss (s : State) : Res :=
  let s1 := { s with bak := { ({} : Backup) with bakLost := true, vbak := s.hubPowered } }
  .next (if s.hubPowered then s1.timeFault 4 0x0F08 else s1)

/-- VDD_CORE_UNDERVOLT (R826): the hub main and compute domains are held in reset until a POR. -/
def execVddCoreUndervolt (s : State) : Res :=
  if s.hubPowered then
    let c := s.coldKept
    .next { c with rst := { c.rst with heldUv := true } }
  else .next s

/-- RAIL_FAULT (R740, R826): a rail leaves tolerance, or its regulator (address, page and STATUS_WORD) latches off. Main rails
out of tolerance are rails removed: the part is in D3cold. -/
def execRailFault (rail : Rail) (latched : Bool) (addr page : Byte) (status : W16) (s : State) : Res :=
  if !s.hubPowered then .next s
  else
    let code := if latched then 0x1201 else 0x1203
    let s1 := s.railFault code addr.toNat page.toNat status.toNat
    match rail with
    | .main =>
      if latched then .next s1
      else if s.rst.heldPerst || s.rst.heldThermal then .next (s.mainLost .d3cold)
      else .next (s1.mainLost .d3cold)
    | .hbm => .next (s1.deviceReset 6)
    | .hphy => .next (s1.deviceReset 6)
    | .pser =>
      let lost := fun (st : State) (n : Nat) =>
        let x := (st.aqSlot n).st
        if x == .empty || x == .safe then st else st.driveLost n true
      let s2 := (List.range 8).foldl lost { s1 with rails := { s1.rails with pser := false, aqPerstN := 0 } }
      .next (if s2.pl.link then s2.quefyDown false else s2)

/-- AUX_RAIL_LOSS (R740, R826): an aux POR; the part is OFF. -/
def execAuxRailLoss (s : State) : Res :=
  if s.pwr.dstate == .off then .next s
  else
    let c := s.mainLost .off
    .next { c with
      rails := { c.rails with aux := false, mainEn := false, powerOff := false }
      stw := { State.reset.stw with btn := s.stw.btn } }

/-- AUX_RAIL_RETURN (R740, R815): the aux domain starts, the part is in D3cold, and MAIN_EN rises. -/
def execAuxRailReturn (s : State) : Res :=
  if s.pwr.dstate == .off then
    .next { s with pwr := { s.pwr with dstate := .d3cold }, rails := { s.rails with aux := true, mainEn := true } }
  else .next s

/-- PM_ALERT (R825, R826): the regulator's STATUS_WORD is read and recorded; a regulator that does not answer three
successive transactions is recorded as such. -/
def execPmAlert (addr page : Byte) (status : W16) (answered : Bool) (s : State) : Res :=
  if s.rails.aux then
    .next (s.railFault (if answered then 0x1201 else 0x1202) addr.toNat page.toNat (if answered then status.toNat else 0))
  else .next s

end Sys2Proof.Machine
end

