-- ==== Sys2Proof/Machine/SecPower.lean ====
section
/-! DEFINITION. Security, debug and power states (21): SPDM sessions, owner commands, tokens and debug access, P-states,
capping, and the power states that software requests. -/
namespace Sys2Proof.Machine
open Sys2Proof

/-! ### P-states and capping (R50, R739) -/

/-- Every partition is UNUSED or STOPPED. -/
def State.partsQuiet (s : State) : Bool := (List.range 16).all fun p => (s.part p).st == .unused || (s.part p).st == .stopped

/-- A write of PWR_CTL; while the steward does not run, a P-state request is held (R739, R740, R748, R754): P-state, capping, and D0-IDLE. -/
def State.writePwrCtl (s : State) (v : W32) : State :=
  let old := PState.ofCode s.pwr.preq.toNat
  let cap : BitVec 12 := if 1600 < (field v 4 12).toNat then 0x640 else field v 4 12
  let p0 : PowerState := { s.pwr with preq := field v 0 2, capEn := bit v 3, capW := cap }
  let p := if s.stw.st == .running then p0.retarget old else p0
  let s1 := { s with pwr := p }
  let s2 :=
    if s.pwr.dstate == .d0 && bit v 2 then
      if s.partsQuiet then
        (State.clearClusters { s1 with pwr := { p with idle := true, dstate := .d0idle } } fun _ => true).secFault 0x0F28
      else { s1 with pwr := { p with idle := false, refused := true } }
    else if s.pwr.dstate == .d0idle && !bit v 2 then
      State.secFault { s1 with pwr := { p with idle := false, dstate := .d0 } } 0x0F28
    else s1
  s2.pwrSettle

/-- PWR_STS: REFUSED is cleared by writing 1. -/
def State.writePwrSts (s : State) (v : W32) : State := { s with pwr := { s.pwr with refused := s.pwr.refused && !bit v 6 } }

/-- P_STATE_REQUEST and D0_IDLE_REQUEST are writes of PWR_CTL. -/
def execPStateRequest (p : AccessPath) (v : W32) (s : State) : Res := .next (s.onCsr p .hub (·.writePwrCtl v))
def execD0IdleRequest (p : AccessPath) (v : W32) (s : State) : Res := .next (s.onCsr p .hub (·.writePwrCtl v))

/-- RAMP_COMPLETE (R50): the new P-state applies, and the next ramp begins where the target is further off. -/
def execRampComplete (s : State) : Res :=
  match s.pwr.ramp with
  | some x => .next (State.secFault { s with pwr := { s.pwr with pstate := x, ramp := none } } 0x0F27).pwrSettle
  | none => .next s

/-- POWER_CAP_SAMPLE (R739): board power in W, sampled every 1 ms. -/
def execPowerCapSample (power : W16) (s : State) : Res :=
  if !s.hubRuns || s.stw.st != .running then .next s
  else
    let p := { s.pwr with powerW := power }
    let overs := if p.capEn && decide (p.capW.toNat < power.toNat) then p.overs + 1 else 0
    let under : Option Nat :=
      if p.capEn && decide (power.toNat * 100 < 95 * p.capW.toNat) then some (p.underSince.getD s.time.now) else none
    let want := (PState.ofCode p.preq.toNat).rank
    let long := match under with | some t => s.elapsed t 1000000000 | none => false
    let q : PowerState :=
      if 10 ≤ overs then { p with overs := 0, underSince := under, target := .ofRank (max want (min 3 (p.pstate.rank + 1))) }
      else if long && decide (want < p.target.rank) then
        { p with overs := overs, underSince := some s.time.now, target := .ofRank (p.target.rank - 1) }
      else { p with overs := overs, underSince := under }
    .next (State.pwrSettle { s with pwr := q })

/-! ### D3hot (R738, R740) -/

/-- Every dirty line of the host line cache is written back. -/
def State.flushHost (s : State) : State := s.evictWhere fun _ => true
def State.hostFlushed (s : State) : Bool := !s.host.hlc.any fun (kv : Nat × HlcLine) => kv.2.st == .m || kv.2.evicting

/-- The aquifer set is synced and given up, and its ports are disabled; false where a tail waits for a segment. -/
def State.aqOff (s : State) : Bool × State :=
  let (ok, s0) := if s.aq.mounted then s.tailsOut else (true, s)
  let s1 := if s.aq.mounted && ok then s0.syncMark else s0
  let off := fun (kv : Nat × AqSlot) => (kv.1, { kv.2 with st := AqSlotState.empty, ordinal := 0, speed := 0, width := 0 })
  let far := fun (f : FarReq) => match f.stage with | .queued => { f with stage := .failed } | .io _ => { f with stage := .failed } | _ => f
  (ok, { s1 with
    aq := { s1.aq with
      set := 0, members := 0, exts := [], tails := [], cur := none, lidx := [], ios := [], far := s1.aq.far.map far
      slots := s1.aq.slots.map off }
    pl := { s1.pl with link := false, lanes := 0 }
    rails := { s1.rails with pser := false, aqPerstN := 0 } })

/-- The compute dies are off, and the HBM refreshes itself. -/
def State.diesOff (s : State) : State :=
  let s1 := (s.clearClusters fun _ => true).clearStacks fun _ => true
  { s1 with
    rst := { s1.rst with idleReqs := s1.rst.idleReqs.filter fun (kv : Nat × Nat) => 20 ≤ kv.1, dieRst := [] } }

/-- One step of the way to D3hot, where it need not wait (R740): the pair is left and RUNNING partitions are aborted; the
open epoch closes; the aquifer is synced and the host line cache flushed; the dies go off. -/
def State.d3Step (s : State) : State :=
  let go := fun (s : State) (q : Quiesce) => { s with pwr := { s.pwr with d3 := some q } }
  match s.pwr.d3 with
  | none => s
  | some q =>
    let late := s.gtoPassed q.due
    match q.step with
    | 0 =>
      let s1 := if s.pl.role == .solo then s else s.leavePair
      let ended := !s.sec.haltParts.isEmpty
      let s2 := s.sec.haltParts.foldl (fun st p => st.updPart p fun x => { x with halted := false }) s1
      let s3 := { s2 with sec := { s2.sec with haltParts := [] } }
      let s4 := if ended then s3.secFault 0x0F28 else s3
      let cmd : StopCmd := { q := 1024, cid := 0, due := s.gtoDue, abort := true }
      go ((List.range 16).foldl (fun st p =>
        let pt := st.part p
        if pt.st == .running && pt.stopWait.isNone then
          (if pt.switching.isSome || pt.teardown then st.updPart p fun x => { x with stopWait := some cmd } else st.stopNow p cmd)
        else st) s4) { step := 1, due := s.gtoDue }
    | 1 =>
      if s.partsQuiet || late then go (s.closeEpoch none) { step := 2, epoch := s.upd.accepting, due := s.gtoDue } else s
    | 2 =>
      if decide (q.epoch < s.upd.epoch) || late then
        let (ok, s1) := s.aqOff
        if ok || late then go s1.flushHost { step := 3, due := s.gtoDue } else s
      else s
    | _ =>
      if s.hostFlushed || late then
        let s1 := s.diesOff
        State.secFault { s1 with pwr := { s1.pwr with d3 := none, dstate := .d3hot, ramp := none, idle := false } } 0x0F28
      else s

/-- PMCSR_D3HOT (R740): each execution goes as far as the drains let it. -/
def execPmcsrD3hot (s : State) : Res :=
  if s.rst.start == .ready && !s.rst.held && (s.pwr.dstate == .d0 || s.pwr.dstate == .d0idle) then
    let s1 := if s.pwr.d3.isSome then s else { s with pwr := { s.pwr with d3 := some { due := s.gtoDue } } }
    .next s1.d3Step.d3Step.d3Step.d3Step
  else .next s

/-- PMCSR_D0 (R740): from D3hot the dies are powered and the HBM retrains with its recorded repairs, keeping its contents;
partitions are STOPPED, and a held P-state request applies. -/
def execPmcsrD0 (s : State) : Res :=
  if s.pwr.dstate == .d3hot && !s.rst.held then
    let stop := fun (kv : Nat × Part) =>
      if kv.2.st == .unused then kv else (kv.1, { kv.2 with st := PartState.stopped, ctxV := false, ctx := 0 })
    let s1 := { s with
      pwr := { s.pwr with dstate := .d0 }
      sc := { s.sc with parts := s.sc.parts.map stop } }
    .next (s1.portsUp.secFault 0x0F28).pwrSettle
  else .next s

/-! ### SPDM (R725, R726) -/

/-- SPDM answers over DOE on the PF, or over MCTP on the sideband (R725, R741). -/
def State.spdmServed (s : State) (doe : Bool) : Bool :=
  if doe then s.hubRuns && s.host.up && (s.rst.start == .ready || s.rst.start == .retired)
  else s.rails.aux && (s.pwr.dstate == .d3cold || (s.hubRuns && s.sec.aliasIssued))

def State.updSec (s : State) (f : SecState → SecState) : State := { s with sec := f s.sec }

/-- RSTC_STRAP (R716). -/
def ResetState.strapReg (r : ResetState) : W32 :=
  let raw := r.rawStraps
  let e := r.effStraps
  regOf [(0, raw.boot.toNat), (3, raw.clk.toNat), (5, raw.pair.toNat), (6, raw.test.toNat), (8, e.boot.toNat), (11, e.clk.toNat),
    (13, e.pair.toNat), (14, e.test.toNat), (15, r.ovr.toNat)]

/-- The measurement blocks of R726, each after its index. -/
def State.measurements (s : State) : List Byte :=
  let opt := fun (o n : Nat) => (List.range n).map fun i => s.opt.image.get 0xFF (o + i)
  [1] ++ Config.romDigest
    ++ [2] ++ s.sec.measurement ++ leBytes 4 s.sec.imgSvn.toNat
    ++ [3, s.opt.lifecycle] ++ opt 9 1 ++ opt 32 48 ++ opt 24 4
    ++ [4] ++ leBytes 4 (field s.rst.strapReg 8 8).toNat
    ++ [5] ++ leBytes 4 s.secStsReg.toNat
    ++ [6] ++ leBytes 4 s.fkcv.toNat

/-- An SPDM answer leaves. Its format is DMTF's, and its key material and signatures are not the model's: the bytes are free. -/
def State.spdmSay (s : State) (what : String) (code : Nat) (req : List Byte) : State :=
  s.emit (.sideband what 0 (Config.spdmAnswer code req s.measurements))

/-- An SPDM error: its code. -/
def State.spdmError (s : State) (code : Nat) : State := s.emit (.sideband "ERROR" code [])
abbrev spdmBusy : Nat := 3
abbrev spdmUnsupported : Nat := 7
abbrev spdmSession : Nat := 2

/-- A request that needs no session. -/
def State.spdmPlain (s : State) (what : String) (code : Nat) (doe : Bool) (req : List Byte) : State :=
  if s.spdmServed doe then s.spdmSay what code req else s

def execGetVersion (doe : Bool) (req : List Byte) (s : State) : Res := .next (s.spdmPlain "VERSION" 0x84 doe req)
def execGetCapabilities (doe : Bool) (req : List Byte) (s : State) : Res := .next (s.spdmPlain "CAPABILITIES" 0xE1 doe req)
def execNegotiateAlgorithms (doe : Bool) (req : List Byte) (s : State) : Res := .next (s.spdmPlain "ALGORITHMS" 0xE3 doe req)
def execGetDigests (doe : Bool) (req : List Byte) (s : State) : Res := .next (s.spdmPlain "DIGESTS" 0x81 doe req)
/-- GET_CERTIFICATE: slot 0 only. -/
def execGetCertificate (doe : Bool) (slot : Byte) (req : List Byte) (s : State) : Res :=
  .next (if slot ≠ 0 ∧ s.spdmServed doe = true then s.spdmError 1 else s.spdmPlain "CERTIFICATE" 0x82 doe req)
/-- CHALLENGE: slot 0 only. -/
def execChallenge (doe : Bool) (slot : Byte) (req : List Byte) (s : State) : Res :=
  .next (if slot ≠ 0 ∧ s.spdmServed doe = true then s.spdmError 1 else s.spdmPlain "CHALLENGE_AUTH" 0x83 doe req)

/-- GET_MEASUREMENTS (R726): the blocks, and then the answer's signature. -/
def execGetMeasurements (doe : Bool) (req : List Byte) (s : State) : Res :=
  .next (if s.spdmServed doe then
    s.emit (.sideband "MEASUREMENTS" 0 (s.measurements ++ Config.spdmAnswer 0xE0 req s.measurements)) else s)

/-- KEY_EXCHANGE: it opens a session, of an identifier that the two ends agree; a fifth fails Busy (R725, R742). -/
def execKeyExchange (doe : Bool) (session : W32) (req : List Byte) (s : State) : Res :=
  let id := session.toNat
  if !s.spdmServed doe then .next s
  else if 4 ≤ s.sec.sessions.length then
    .next ((s.updSec fun x => { x with sessFail := satInc x.sessFail }).spdmError spdmBusy)
  else if s.sec.sessions.contains id then .next s
  else
    .next ((s.updSec fun x => { x with sessions := x.sessions ++ [id], halfOpen := x.halfOpen ++ [id] }).spdmSay
      "KEY_EXCHANGE_RSP" 0xE4 req)

/-- A session ends. -/
def State.sessionEnd (s : State) (id : Nat) : State :=
  s.updSec fun x => { x with sessions := x.sessions.filter (· != id), halfOpen := x.halfOpen.filter (· != id) }

/-- FINISH: the session is set up, or its set-up fails where the message does not verify. -/
def execFinish (session : W32) (verified : Bool) (req : List Byte) (s : State) : Res :=
  let id := session.toNat
  if !s.sec.halfOpen.contains id then .next s
  else if verified then
    .next ((s.updSec fun x => { x with halfOpen := x.halfOpen.filter (· != id) }).spdmSay "FINISH_RSP" 0xE5 req)
  else .next (((s.sessionEnd id).updSec fun x => { x with sessFail := satInc x.sessFail }).spdmError 6)

/-- A session is set up. -/
def State.inSession (s : State) (id : Nat) : Bool := s.sec.sessions.contains id && !s.sec.halfOpen.contains id

def execEndSession (session : W32) (req : List Byte) (s : State) : Res :=
  .next (if s.inSession session.toNat then (s.spdmSay "END_SESSION_ACK" 0xEC req).sessionEnd session.toNat else s.spdmError spdmSession)
def execKeyUpdate (session : W32) (req : List Byte) (s : State) : Res :=
  .next (if s.inSession session.toNat then s.spdmSay "KEY_UPDATE_ACK" 0xE9 req else s.spdmError spdmSession)
def execHeartbeat (session : W32) (req : List Byte) (s : State) : Res :=
  .next (if s.inSession session.toNat then s.spdmSay "HEARTBEAT_ACK" 0xE8 req else s.spdmError spdmSession)
/-- SPDM_UNSUPPORTED. -/
def execSpdmUnsupported (doe : Bool) (s : State) : Res := .next (if s.spdmServed doe then s.spdmError spdmUnsupported else s)

/-! ### Owner commands (R727) -/

/-- Statuses of owner commands (R727). -/
inductive OwnerStatus where
  | ok | state | auth | busy | format | noSession
deriving DecidableEq, Repr

def OwnerStatus.code : OwnerStatus → Nat
  | .ok => 0 | .state => 1 | .auth => 2 | .busy => 3 | .format => 4 | .noSession => 5

/-- The security engine answers an owner command; a failing one changes nothing and is recorded. -/
def State.ownerReply (s : State) (st : OwnerStatus) (data : List Byte := []) : State :=
  let s1 := s.emit (.sideband "OWNER" st.code data)
  if st = .ok then s1 else s1.secFault 0x0F21

/-- An owner command: it must come in a session, with a payload of its length, to a hub that runs. -/
def State.owner (s : State) (session : Option W32) (len : Bool) (f : State → State) : State :=
  match session with
  | none => s.ownerReply .noSession
  | some id =>
    if !s.inSession id.toNat then s.ownerReply .noSession
    else if !len then s.ownerReply .format
    else if !s.hubRuns then s.ownerReply .state
    else f s

/-- Write the option block for a lifecycle change (R729 step 2). The reset follows as the steward's request. -/
def State.lcChange (s : State) (img : SMap Byte) : State :=
  (((s.optWrite img).updSec fun x => { x with lcRunning := true }).ownerReply .ok).secFault 0x0F20

/-- LC_PROVISION (R727–R729): ROOT_HASH, MIN_SVN and DEBUG. -/
def execLcProvision (session : Option W32) (payload : List Byte) (s : State) : Res :=
  .next (s.owner session (payload.length == 53) fun s =>
    if s.sec.lcRunning then s.ownerReply .busy
    else if s.lc ≠ 0 then s.ownerReply .state
    else
      let m := optPut s.optInUse 32 (payload.take 48)
      let m1 := optPut m 24 (sliceOf payload 48 4)
      s.lcChange (optPut (optPut m1 9 (sliceOf payload 52 1)) 8 [0xA5]))

/-- LC_SEAL. -/
def execLcSeal (session : Option W32) (payload : List Byte) (s : State) : Res :=
  .next (s.owner session payload.isEmpty fun s =>
    if s.sec.lcRunning then s.ownerReply .busy
    else if s.lc ≠ 1 ∨ !s.rootSet ∨ !s.rst.verified then s.ownerReply .state
    else s.lcChange (optPut s.optInUse 8 [0x5A]))

/-- The device identity (R724). -/
def deviceId : List Byte := sha384 Config.deviceKey

/-- The conditions of R732 on a token of a KIND; the level must be one that R733 permits to a token. -/
def State.tokenOk (s : State) (tok : List Byte) (kind : Nat) : Bool :=
  let level := leAt tok 4 1
  let key := sliceOf tok 64 96
  let max := s.policy / 4 % 4
  let permitted := if s.lc = 1 then decide (1 ≤ level ∧ level ≤ 2)
    else s.lc == 2 && decide (1 ≤ level ∧ level ≤ max ∧ max < 3)
  decide (leAt tok 0 4 = 1 ∧ leAt tok 5 1 = kind ∧ leAt tok 6 2 = 0 ∧ leAt tok 8 8 = s.sec.nonce.toNat)
    && (if kind = 0 then permitted else level == 0)
    && decide (sliceOf tok 16 48 = deviceId) && decide (sha384 key = s.rootHash)
    && Config.ecdsaVerify key (sliceOf tok 160 96) (tok.take 160)

/-- A token fails (R732). -/
def State.tokenFail (s : State) : State := (s.updSec fun x => { x with authFail := satInc x.authFail }).secFault 0x0F23

/-- LC_RETIRE (R730): the fleet key is erased and the retirement fuse blown. In SEALED it needs a token of KIND 1. -/
def execLcRetire (session : Option W32) (payload : List Byte) (s : State) : Res :=
  .next (s.owner session (if s.lc = 2 then payload.length == 256 else payload.isEmpty) fun s =>
    if s.sec.lcRunning then s.ownerReply .busy
    else if s.lc = 3 then s.ownerReply .state
    else if s.lc = 2 ∧ s.tokenOk payload 1 = false then s.tokenFail.ownerReply .auth
    else State.lcChange { s with ident := { s.ident with fleetKey := none, retireFuse := true } } (optPut s.optInUse 8 [0x00]))

/-! ### Debug levels (R732–R734) -/

/-- A level is granted: the highest granted stands. -/
def State.grant (s : State) (level : Nat) (token : Bool) : State :=
  let up := s.sec.dbg.toNat < level
  (s.updSec fun x => { x with
    dbg := if up then BitVec.ofNat 2 level else x.dbg, auth := if up then token else x.auth }).secFault 0x0F22

/-- The highest level that DBG_REQ grants (R733). -/
def State.reqMax (s : State) : Nat :=
  match s.lc with
  | 0 => 2
  | 1 => if s.policy % 4 = 3 then 0 else s.policy % 4
  | 2 => let m := s.policy / 4 % 4; if s.policy.testBit 4 && decide (1 ≤ m ∧ m < 3) then 1 else 0
  | _ => 0

/-- DBG_REQ. -/
def execDbgReq (session : Option W32) (payload : List Byte) (s : State) : Res :=
  let level := leAt payload 0 1
  .next (s.owner session (payload.length == 1 && decide (1 ≤ level ∧ level ≤ 2)) fun s =>
    if s.reqMax < level then s.ownerReply .state else (s.ownerReply .ok).grant level false)

/-- DBG_AUTH. -/
def execDbgAuth (session : Option W32) (payload : List Byte) (s : State) : Res :=
  .next (s.owner session (payload.length == 256) fun s =>
    if s.lc ≠ 1 ∧ s.lc ≠ 2 then s.ownerReply .state
    else if s.tokenOk payload 0 then (s.ownerReply .ok).grant (leAt payload 4 1) true
    else s.tokenFail.ownerReply .auth)

/-- The level returns to NONE. -/
def State.revoke (s : State) : State := (s.updSec fun x => { x with dbg := 0, auth := false }).secFault 0x0F24

/-- DBG_REVOKE. -/
def execDbgRevoke (session : Option W32) (payload : List Byte) (s : State) : Res :=
  .next (s.owner session payload.isEmpty fun s => (s.ownerReply .ok).revoke)

/-- SEC_AUTH (R733): a token through JTAG, with the host port and the steward not needed. -/
def execSecAuth (token : List Byte) (s : State) : Res :=
  if !s.hubRuns then .next s
  else if token.length == 256 && (s.lc == 1 || s.lc == 2) && s.tokenOk token 0 then .next (s.grant (leAt token 4 1) true)
  else .next s.tokenFail

/-- A write of SEC_DBG (R745), and of SEC_CNT (R747). -/
def State.writeSecDbg (s : State) (v : W32) : State := if bit v 0 then s.revoke else s
def State.writeSecCnt (s : State) (v : W32) : State :=
  s.updSec fun x => { x with
    authFail := if field v 0 8 = 0 then 0 else x.authFail, sessFail := if field v 8 8 = 0 then 0 else x.sessFail }

/-- SEC_DBG_REVOKE. -/
def execSecDbgRevoke (p : AccessPath) (v : W32) (s : State) : Res := .next (s.onCsr p .hub (·.writeSecDbg v))

/-! ### Fleet key (R731) -/

/-- A table of DIGEST 1 is not FREE. -/
def State.digestInUse (s : State) : Bool := s.tda.live.any fun t => (s.td t).digest

/-- FK_SET. -/
def execFkSet (session : Option W32) (payload : List Byte) (s : State) : Res :=
  .next (s.owner session (payload.length == 32) fun s =>
    if s.lc ≠ 1 ∧ s.lc ≠ 2 then s.ownerReply .state
    else if s.digestInUse then s.ownerReply .busy
    else
      (State.ownerReply { s with ident := { s.ident with fleetKey := some (BitVec.ofNat 256 (leNat payload)) } } .ok).secFault 0x0F25)

/-- FK_CLEAR. -/
def execFkClear (session : Option W32) (payload : List Byte) (s : State) : Res :=
  .next (s.owner session payload.isEmpty fun s =>
    if s.lc ≠ 1 ∧ s.lc ≠ 2 then s.ownerReply .state
    else if s.digestInUse then s.ownerReply .busy
    else (State.ownerReply { s with ident := { s.ident with fleetKey := none } } .ok).secFault 0x0F25)

/-- NONCE_GET: the one owner command that needs no session. -/
def execNonceGet (payload : List Byte) (s : State) : Res :=
  if !s.hubRuns then .next s
  else .next (if payload.isEmpty then s.ownerReply .ok (leBytes 8 s.sec.nonce.toNat) else s.ownerReply .format)

/-! ### Debug access under HALT (R734–R736) -/

/-- The debugger acts: the level is HALT, and the hub runs. -/
def State.debugs (s : State) : Bool := s.hubRuns && s.sec.dbg == 2

/-- DEBUG_HALT: a partition (0 to 15), a control-core pair (from 32) or the steward (48) is halted or resumed. -/
def execDebugHalt (block : Fin 49) (halt : Bool) (s : State) : Res :=
  let b := block.val
  if !s.debugs then .next s
  else if b < 16 then
    if s.pwr.dstate != .d0 || !(s.part b).st.holds then .next s
    else if halt then .next ((s.snapBegin b none true).updSec fun x => { x with haltParts := setInsert x.haltParts b })
    else .next ((s.updPart b fun x => { x with halted := false }).updSec fun x => { x with haltParts := x.haltParts.filter (· != b) })
  else if 32 ≤ b ∧ b < 40 then
    .next (s.updSec fun x => { x with
      haltPairs := if halt then setInsert x.haltPairs (b - 32) else x.haltPairs.filter (· != b - 32) })
  else if b = blkSteward then .next (s.updSec fun x => { x with haltStw := halt })
  else .next s

/-- DEBUG_STEP: a core of a halted partition may issue one bundle. -/
def execDebugStep (core : Fin 1200) (s : State) : Res :=
  match s.partOf (coreCluster core.val) with
  | some p =>
    if s.debugs && s.pwr.dstate == .d0 && (s.part p).halted then .next (s.updCore core.val fun c => { c with step1 := true })
    else .next s
  | none => .next s

/-- DEBUG_DA_ACCESS (R734, R736): a read of n bytes, or a write, which breaks every model's digest and sets DIRTY. -/
def execDebugDaAccess (da : BitVec 52) (write : Option (List Byte)) (n : Fin 257) (s : State) : Res :=
  if !s.debugs || !(s.pwr.dstate == .d0 || s.pwr.dstate == .d0idle) then .next s
  else
    match write with
    | none =>
      let r := s.readDA da.toNat n.val
      .next (s.emit (.sideband "DEBUG_READ" (if r.clean then 0 else 1) r.data))
    | some bs =>
      let s1 := s.devWrite da.toNat bs
      .next ({ s1 with upd := { s1.upd with broken := List.range 256 } }.updSec fun x => { x with dirty := true })

end Sys2Proof.Machine
end

