-- ==== Sys2Proof/Machine/Steward.lean ====
section
/-! DEFINITION. The steward, the lifeline, the sideband and service (22): telemetry, ageing and drive wear, the health report,
shedding, the watchdog, the button, drains and the LEDs. -/
namespace Sys2Proof.Machine
open Sys2Proof

def State.updStw (s : State) (f : StewardState → StewardState) : State := { s with stw := f s.stw }

/-- The steward runs, in a hub that runs (R750). -/
def State.stewardRuns (s : State) : Bool := s.hubRuns && s.stw.st == .running

/-! ### Registers and LEDs (R767, R770–R776) -/

def StwState.code : StwState → Nat
  | .starting => 0 | .running => 1 | .restarting => 2 | .halted => 3
def DrainState.code : DrainState → Nat
  | .idle => 0 | .draining => 1 | .drained => 2

def StewardState.stwReg (x : StewardState) : W32 := regOf [(0, x.st.code), (2, x.restarts.toNat)]
def StewardState.svcCtl (x : StewardState) : W32 := regOf [(0, x.hostDrain.toNat), (2, x.locate.toNat)]
def StewardState.svcSts (x : StewardState) : W32 := regOf [(0, x.drain.code), (2, x.btn.toNat), (3, x.refused.toNat)]
def StewardState.telCtl (x : StewardState) : W32 := regOf [(0, x.period.toNat), (10, x.evtEn.toNat)]
def StewardState.shedReg (x : StewardState) : W32 := regOf [(0, x.level.toNat), (3, x.busy.toNat), (10, x.raises.toNat)]

/-- LED patterns (R767, R773); COUNT carries its n. -/
inductive Led where
  | off | on | slow | fast | blip | count (n : Nat)
deriving DecidableEq, Repr

def Led.code : Led → Nat
  | .off => 0 | .on => 1 | .slow => 2 | .fast => 3 | .blip => 4 | .count _ => 5
def Led.n : Led → Nat
  | .count n => n
  | _ => 0

/-- LED_PWR. -/
def State.ledPwr (s : State) : Led :=
  if s.pwr.dstate == .off then .off
  else if s.pwr.dstate == .d3cold then .blip
  else if s.rst.start == .bootWait || s.rst.start == .test then .fast
  else if s.rst.start.running then .slow
  else if s.pwr.dstate == .d3hot then .blip
  else if s.rst.start == .ready then .on
  else .off

/-- LED_FAULT; what an unpowered hub would hold counts as clear. -/
def State.ledFault (s : State) : Led :=
  if s.rst.heldThermal then .fast
  else if s.rst.start == .halted || s.rst.start == .bootWait then .on
  else if s.int.expelled then .count 2
  else if s.stw.st == .halted then .count 3
  else if s.hubPowered && s.lc == 3 then .count 5
  else if s.stw.outSince then .slow
  else .off

/-- The lowest aquifer slot that LED_ATTN counts. -/
def State.attnSlot (s : State) : Option Nat :=
  (List.range 8).find? fun n =>
    match (s.aqSlot n).st with
    | .safe | .blank | .foreign | .stale | .unsupported => true
    | _ => false

/-- LED_ATTN. -/
def State.ledAttn (s : State) : Led :=
  if s.stw.locate then .fast
  else if s.stw.blip.isSome then .blip
  else if s.stw.drain == .drained then .on
  else if s.stw.drain == .draining then .slow
  else match s.attnSlot with
    | some n => .count (n + 1)
    | none => .off

def State.ledReg (s : State) : W32 :=
  regOf [(0, s.ledPwr.code), (3, s.ledAttn.code), (6, s.ledAttn.n), (10, s.ledFault.code), (13, s.ledFault.n)]

/-- A record of the steward (class 10, R769). -/
def State.stwFault (s : State) (code : Nat) : State :=
  s.fault { mkFault 10 0 code with
    state := leBytes 4 s.stw.stwReg.toNat ++ leBytes 4 s.stw.shedReg.toNat ++ leBytes 4 s.stw.svcSts.toNat
      ++ leBytes 4 s.ledReg.toNat }

/-! ### Ageing, wear and the health report (R74–R77, R298, R299, R763) -/

/-- Channels of a stack. -/
def State.chansOf (s : State) (st : Nat) : List Channel := (List.range 32).map fun c => s.chan (32 * st + c)

/-- Channels of a stack that are RETIRED or FAILED. -/
def State.chansOut (s : State) (st : Nat) : Nat := ((s.chansOf st).filter fun c => c.st == .retired || c.st == .failed).length

/-- Units of a kind, below a number, in a health state. -/
def State.unitsIn (s : State) (k : UnitKind) (n : Nat) (h : Health) : Nat :=
  ((List.range n).filter fun i => s.health k i == h).length

/-- The health report (R763). -/
def State.buildReport (s : State) : List Byte :=
  let dies := List.range 5
  let slots := List.range 8
  let stks := List.range 12
  let b8 := fun (n : Nat) => BitVec.ofNat 8 (min 255 n)
  let warn := (dies.map fun d => if (s.dieRec d).warn then 2 ^ d else 0).sum
    + (slots.map fun n => if 80 ≤ (s.aqSlot n).pctUsed.toNat then 2 ^ (8 + n) else 0).sum
    + (stks.map fun st => if (s.chansOf st).any fun c => c.spares == 0 then 2 ^ (16 + st) else 0).sum
  leBytes 8 s.time.now
    ++ dies.flatMap (fun d => leBytes 2 (s.dieRec d).eolMonths.toNat)
    ++ dies.flatMap (fun d => leBytes 2 (s.dieRec d).norm.toNat)
    ++ slots.flatMap (fun n => leBytes 2 (s.aqSlot n).eol.toNat)
    ++ slots.map (fun n => (s.aqSlot n).pctUsed) ++ slots.map (fun n => (s.aqSlot n).crit)
    ++ stks.map (fun st => b8 ((s.chansOf st).map Channel.spares).sum) ++ stks.map (fun st => b8 (s.chansOut st))
    ++ leBytes 2 (s.unitsIn .core 1200 .suspect) ++ leBytes 2 (s.unitsIn .core 1200 .retired)
    ++ [b8 (s.unitsIn .cluster 100 .suspect), b8 (s.unitsIn .cluster 100 .retired),
        b8 ((List.range 8).filter fun n => !s.pairServes n).length,
        b8 (s.unitsIn .lu 384 .retired + s.unitsIn .uu 96 .retired)]
    ++ leBytes 4 warn ++ List.replicate 160 0

/-- The report is rebuilt, and TEL_REPORT mirrors it. -/
def State.rebuildReport (s : State) : State := s.updStw fun x => { x with report := s.buildReport }

/-- AGEING_UPDATE (R74, R75, R77, R803) for one die: a pace sample in units of 1/1024 hs/ns, the monitor's temperature
in tenths of a degree, and the days of samples held. Only samples taken at P0 count. NORM's rounding to its unit and
the fitted prediction are free values (assumption log entries 3 and 4). While the steward sheds telemetry the update is
deferred (R751); the report is rebuilt with it. -/
def execAgeingUpdate (die : Fin 5) (pace : W16) (temp : BitVec 11) (days : Nat) (s : State) : Res :=
  if s.pwr.pstate == .p0 && s.pwr.ramp == none && s.stewardRuns && s.stw.level == 0 then
    let f := (tempFactor temp.toInt).toNat
    let num := pace.toNat * 921000
    let (up, s1) := s.drawBit
    let norm := num / f + (if up && num % f != 0 then 1 else 0)
    let (eolFree, s2) := s1.drawFree 16
    let eol : W16 := if days < 30 then 0xFFFF else if eolFree = 0xFFFF then 0xFFFE else eolFree
    -- thresholds of R75 on the exact value: num ÷ f against 1.77 and 1.75 hs/ns in units of 1/1024
    let warn := decide (num * 100 < 177 * 1024 * f)
    let floor := decide (num * 100 < 175 * 1024 * f)
    let old := s.dieRec die.val
    let s3 := { s2 with pace := s2.pace.upd {} die.val fun p =>
      { p with norm := BitVec.ofNat 16 (min norm 0xFFFF), eolMonths := eol, warn := warn, floor := floor } }
    let s4 := if warn && !old.warn then s3.pldmEvent "AGEING_WARNING" die.val else s3
    let s5 := if floor && !old.floor then s4.timeFault die.val 0x0A03 else s4
    let rose := (warn && !old.warn) || (floor && !old.floor)
      || (decide (eol.toNat < 6) && decide (6 ≤ old.eolMonths.toNat))
    .next (if rose then s5.irqEvent 10 else s5).rebuildReport
  else .next s

/-- What a drive's SMART/Health log says reaches AQ_WEAR and AQ_EOL (R298, R299). The weight that the steward derives, and
the fitted prediction, are free; WEIGHT keeps its value while wear levelling is shed. -/
def State.smartRead (s : State) (n : Nat) (pct spare crit : Byte) (days : Nat) : State :=
  let a := s.aqSlot n
  let (w, s1) := s.drawFree 8
  let (fit, s2) := s1.drawFree 16
  let eol : W16 := if days < 30 then 0xFFFF else if fit = 0xFFFF then 0xFFFE else fit
  let shed := decide (3 ≤ s.stw.level.toNat)
  let s3 := s2.updAqSlot n fun x => { x with
    pctUsed := pct, spare := spare, crit := crit, roMedia := crit.getLsbD 3, lastPoll := s.time.now
    weight := if shed then x.weight else w, eol := if shed then x.eol else eol }
  let s4 := if 80 ≤ pct.toNat ∧ a.pctUsed.toNat < 80 then s3.pldmEvent "DRIVE_USED" n else s3
  if (100 ≤ pct.toNat ∧ a.pctUsed.toNat < 100) ∨ crit &&& ~~~a.crit ≠ 0 then s4.aqFault n 0x0903 2 else s4

/-- NVME_ASYNC_EVENT (R298, R751): the log is read, whatever is shed. -/
def execNvmeAsyncEvent (slot : Fin 8) (pct spare crit : Byte) (days : Nat) (s : State) : Res :=
  if s.stewardRuns && (s.aqSlot slot.val).st == .member then .next (s.smartRead slot.val pct spare crit days) else .next s

/-- SMART_POLL (R298): every 10 min, while wear levelling is not shed. -/
def execSmartPoll (slot : Fin 8) (pct spare crit : Byte) (days : Nat) (s : State) : Res :=
  let a := s.aqSlot slot.val
  if s.stewardRuns && a.st == .member && decide (s.stw.level.toNat < 3) && s.elapsed a.lastPoll 600000000000 then
    .next (s.smartRead slot.val pct spare crit days)
  else .next s

/-! ### Telemetry (R751, R761, R824) -/

/-- How many thresholds of R824 a reading has reached: upper non-critical, critical and fatal. -/
def overThresholds (v : Int) (ts : List Int) : Nat := (ts.filter fun t => decide (t ≤ v)).length

/-- The level of a numeric sensor against its thresholds. -/
def State.sensorLevel (s : State) (id : Nat) (v : Int) : Nat :=
  if 1 ≤ id ∧ id ≤ 5 then overThresholds v [100, 105, 115]
  else if 6 ≤ id ∧ id ≤ 17 then overThresholds v [90, 95, 105]
  else if id = 18 then
    let d := (v - s.rails.vddMv).natAbs * 100
    if 3 * s.rails.vddMv < d then 2 else if 2 * s.rails.vddMv < d then 1 else 0
  else if id = 19 then
    if 1600 ≤ v then 2 else if s.pwr.capEn ∧ (s.pwr.capW.toNat : Int) ≤ v then 1 else 0
  else 0

/-- The state sensors 100 to 105 (R761). -/
def State.stateSensor (s : State) (id : Nat) : Nat :=
  match id with
  | 100 => s.lc
  | 101 => s.pwr.dstate.code
  | 102 => roleCode s.pl.role
  | 103 => s.stw.drain.code
  | 104 => s.stw.level.toNat
  | _ => if s.int.tainted || s.int.expelled then 1 else 0

/-- Readings of the numeric sensors that the part's own registers give (R761). -/
def State.ownReadings (s : State) : List (Nat × W32) :=
  [(19, (s.pwr.powerW.setWidth 32))]
    ++ (List.range 5).map (fun d => (20 + d, (s.dieRec d).cur.setWidth 32))
    ++ (List.range 5).map (fun d => (25 + d, (s.dieRec d).eolMonths.setWidth 32))
    ++ (List.range 8).map (fun n => (30 + n, (s.aqSlot n).pctUsed.setWidth 32))
    ++ (List.range 8).map (fun n => (38 + n, (s.aqSlot n).eol.setWidth 32))
    ++ [(46, BitVec.ofNat 32 ((List.range 12).map s.chansOut).sum)]

/-- Take one reading: an event for a threshold crossed, and a record for a stack at its fatal one. -/
def State.takeReading (s : State) (x : Nat × W32) : State :=
  let old := s.sensorLevel x.1 (s.stw.sensors.get 0 x.1).toInt
  let new := s.sensorLevel x.1 x.2.toInt
  let s1 := s.updStw fun y => { y with sensors := y.sensors.set x.1 x.2 }
  let s2 := if new = old then s1 else s1.pldmEvent "THRESHOLD" (x.1 * 4 + new)
  if 6 ≤ x.1 ∧ x.1 ≤ 17 ∧ new = 3 ∧ old < 3 then s2.railFault 0x1204 (0x44 + (x.1 - 6) / 3) 0 0 else s2

/-- A state sensor that has changed sends an event. -/
def State.takeState (s : State) (id : Nat) : State :=
  let v := BitVec.ofNat 32 (s.stateSensor id)
  if s.stw.sensors.get 0 id = v then s
  else State.pldmEvent (s.updStw fun y => { y with sensors := y.sensors.set id v }) "STATE" id

/-- TELEMETRY_SAMPLE (R751, R761): temperatures of the five dies and the twelve stacks in °C, and VDD_CORE in mV. Telemetry that
is shed samples at a tenth of the rate. -/
def execTelemetrySample (temps : List W16) (vdd : W16) (s : State) : Res :=
  let period := s.stw.period.toNat * 1000000 * (if s.stw.level = 0 then 1 else 10)
  if s.stewardRuns && s.elapsed s.stw.sampledAt period then
    let t := (temps.take 17).zipIdx.map fun x => (x.2 + 1, x.1.signExtend 32)
    let s1 := s.updStw fun x => { x with sampledAt := s.time.now }
    let s2 := (t ++ [(18, vdd.setWidth 32)] ++ s.ownReadings).foldl (fun st x => st.takeReading x) s1
    .next ((List.range 6).foldl (fun st i => st.takeState (100 + i)) s2)
  else .next s

/-- TEL_CTL and TEL_SHED (R774, R775). -/
def State.writeTelCtl (s : State) (v : W32) : State :=
  let p := (field v 0 10).toNat
  s.updStw fun x => { x with period := BitVec.ofNat 10 (if p < 10 then 10 else if 1000 < p then 1000 else p), evtEn := bit v 10 }
def State.writeTelShed (s : State) (v : W32) : State :=
  s.updStw fun x => { x with raises := if field v 10 8 = 0 then 0 else x.raises }

/-! ### Shedding, and the steward's watchdog (R752–R754) -/

/-- STEWARD_BUSY_WINDOW (R752): a window's busy share in percent. -/
def execStewardBusyWindow (busy : BitVec 7) (s : State) : Res :=
  if !s.stewardRuns then .next s
  else
    let l := s.stw.level.toNat
    let s1 := s.updStw fun x => { x with busy := busy, calm := if busy.toNat < 60 then x.calm + 1 else 0 }
    if 90 < busy.toNat ∧ l < 4 then
      .next ((s1.updStw fun x => { x with level := BitVec.ofNat 3 (l + 1), raises := satInc x.raises }).stwFault 0x1103 |>.irqEvent 11)
    else if 10 ≤ s1.stw.calm then
      let s2 := s1.updStw fun x => { x with calm := 0 }
      .next (if l = 0 then s2 else (s2.updStw fun x => { x with level := BitVec.ofNat 3 (l - 1) }).stwFault 0x1103)
    else .next s1

/-- The drain state changes (R796). -/
def State.setDrain (s : State) (d : DrainState) : State := (s.updStw fun x => { x with drain := d, dr := {} }).irqEvent 1

/-- A drain is abandoned (R754, R765): LED_ATTN shows BLIP for 10 s. -/
def State.drainAbandon (s : State) : State :=
  ((s.setDrain .idle).updStw fun x => { x with blip := some (s.time.now + 10000000000) }).stwFault 0x1107

/-- The steward restarts under code 12 (R692, R709, R753). -/
def State.stewardRestart (s : State) : State :=
  let s1 := (s.updStw fun x => { x with
    st := .restarting, restarts := satInc x.restarts, starts := (s.time.now :: x.starts).take 3 }).countBlock 12
  ((s1.stwFault 0x1101).irqEvent 13).idleRequest blkSteward

/-- A restart within 600 s of the third before it does not run: the steward is HALTED, and the lifeline sequencer ramps
VDD_CORE to P2. -/
def State.stewardHalt (s : State) : State :=
  let s1 := State.pwrSettle { s with stw := { s.stw with st := .halted }, pwr := { s.pwr with target := .p2 } }
  let s2 := (s1.stwFault 0x1102).irqEvent 13
  if s2.stw.drain == .draining then s2.drainAbandon else s2

/-- STEWARD_WATCHDOG (R753): three check-ins missed, or a mismatch. -/
def execStewardWatchdog (s : State) : Res :=
  if !s.stewardRuns then .next s
  else
    match s.stw.starts[2]? with
    | some t => if s.time.now < t + 600000000000 then .next s.stewardHalt else .next s.stewardRestart
    | none => .next s.stewardRestart

/-- A write of HUB_STW: KICK restarts a HALTED steward once (R753, R770). -/
def State.writeStw (s : State) (v : W32) : State :=
  if bit v 10 && s.stw.st == .halted then s.stewardRestart else s

/-- HUB_STW_KICK. -/
def execHubStwKick (p : AccessPath) (v : W32) (s : State) : Res := .next (s.onCsr p .hub (·.writeStw v))

/-! ### The button and drains (R764–R766) -/

/-- Open admissions, by model. -/
def State.admitted (s : State) : List Nat :=
  (s.sc.models.filter fun (kv : Nat × Model) => kv.2.admits).map Prod.fst

/-- One step of a drain, where it need not wait (R765): the pair's roles are swapped and then left, admission closes and
partitions stop, the epoch closes, the aquifer is synced and the host line cache flushed, and the drain is complete. -/
def State.drainStep (s : State) : State :=
  let go := fun (s : State) (n : Nat) => s.updStw fun x => { x with dr := { x.dr with step := n } }
  if s.stw.drain != .draining || !s.stewardRuns then s
  else
    match s.stw.dr.step with
    | 2 =>
      if s.pl.role == .active && s.pl.peerRole == .standby && !s.pl.copy && s.pl.link && !s.pl.busy then go s.plSwap 3
      else if s.pl.role == .solo then go s 4
      else go s.leavePair 4
    | 3 => if s.pl.busy then s else go (if s.pl.role == .solo then s else s.leavePair) 4
    | 4 =>
      let models := s.admitted
      let parts := (List.range 16).filter fun p => (s.part p).st == .running
      let cmd : StopCmd := { q := 1024, cid := 0, due := s.gtoDue, abort := false }
      let stop := fun (st : State) (p : Nat) =>
        let pt := st.part p
        if pt.stopWait.isSome then st
        else if pt.switching.isSome || pt.teardown then st.updPart p fun x => { x with stopWait := some cmd }
        else st.stopNow p cmd
      (parts.foldl stop s.closeAdmission).updStw fun x => { x with
        dr := { x.dr with step := 5, since := s.time.now, models := models, parts := parts } }
    | 5 =>
      if s.partsQuiet && s.admitted.isEmpty then
        (s.closeEpoch none).updStw fun x => { x with dr := { x.dr with step := 6, epoch := s.upd.accepting } }
      else s
    | 6 =>
      if s.upd.epoch ≤ s.stw.dr.epoch then s
      else
        let (ok, s1) := if s.aq.mounted then s.tailsOut else (true, s)
        if ok then go (if s.aq.mounted then s1.syncMark else s1).flushHost 7 else s1
    | 7 => if s.hostFlushed then (s.setDrain .drained).stwFault 0x1105 else s
    | _ => s

/-- The press is refused (R764). -/
def State.pressRefused (s : State) : Bool :=
  s.rst.start != .ready || s.pwr.dstate != .d0 || s.stw.st != .running || s.lc == 3

/-- ATTN_SHORT_PRESS (R764, R765). -/
def execAttnShortPress (s0 : State) : Res :=
  let s := s0.updStw fun x => { x with btn := false }
  if s.pwr.dstate == .off then .next s
  else if s.stw.drain != .idle then .next s
  else if s.pressRefused then
    .next ((s.updStw fun x => { x with refused := true, blip := some (s.time.now + 2000000000) }).stwFault 0x1109)
  else
    let s1 := ((s.setDrain .draining).updStw fun x => { x with dr := { step := if s.stw.hostDrain then 0 else 2 } }).stwFault 0x1104
    .next (s1.pldmEvent "STATE" 103).drainStep.drainStep.drainStep

/-- ATTN_HOLD (R766): the 4 s mark of a press cancels a drain: partitions that it stopped start again, and admission that it
closed opens again. The press's release, which has no further effect, shows in BTN. -/
def execAttnHold (released : Bool) (s0 : State) : Res :=
  let s := s0.updStw fun x => { x with btn := !released }
  if released || s.pwr.dstate == .off || s.stw.drain == .idle then .next s
  else
    let models := s.stw.dr.models
    let parts := s.stw.dr.parts
    let s1 := (s.setDrain .idle).updStw fun x => { x with again := parts }
    let s2 := models.foldl (fun st m => if st.int.expelled then st else st.setAdmit m true) s1.againStart
    .next (s2.stwFault 0x1106)

/-- DRAIN_PARTITIONS_STOPPED (R765): the drain goes on as far as what it waits for has happened, and completes. -/
def execDrainPartitionsStopped (s : State) : Res := .next s.drainStep.drainStep.drainStep.drainStep.drainStep.drainStep

/-- DRAIN_ABANDON_TIMEOUT (R765): 60 s after step 4 began. -/
def execDrainAbandonTimeout (s : State) : Res :=
  if s.stw.drain == .draining && s.stw.dr.step == 5 && s.elapsed s.stw.dr.since 60000000000
      && !(s.partsQuiet && s.admitted.isEmpty) then .next s.drainAbandon
  else .next s

/-- A write of HUB_SVC_CTL (R771): DRAINED completes a drain that host software runs. -/
def State.writeSvcCtl (s : State) (v : W32) : State :=
  let done := bit v 1 && s.stw.hostDrain && s.stw.drain == .draining
  let s1 := if done then (s.setDrain .drained).stwFault 0x1105 else s
  s1.updStw fun x => { x with hostDrain := bit v 0, locate := bit v 2 }
/-- HUB_SVC_STS: REFUSED is cleared by writing 1 (R772). -/
def State.writeSvcSts (s : State) (v : W32) : State := s.updStw fun x => { x with refused := x.refused && !bit v 3 }

/-- HOST_DRAINED_WRITE. -/
def execHostDrainedWrite (p : AccessPath) (v : W32) (s : State) : Res := .next (s.onCsr p .hub (·.writeSvcCtl v))

/-- ATTN_BLIP_EXPIRY (R764, R765). -/
def execAttnBlipExpiry (s : State) : Res :=
  match s.stw.blip with
  | some t => if t ≤ s.time.now then .next (s.updStw fun x => { x with blip := none }) else .next s
  | none => .next s

/-! ### The lifeline (R755–R757) -/

/-- RSTC_CAUSE, RSTC_START, RSTC_BOOT and OPT_STS (R715, R718, R719, R722). -/
def Backup.causeReg (b : Backup) : W32 :=
  regOf [(0, b.src.toNat), (4, b.multi.toNat), (5, b.bakLost.toNat), (8, b.restarts.toNat)]
def ResetState.startReg (r : ResetState) : W32 := regOf [(0, r.start.code), (16, r.tmoS.toNat)]
def ResetState.bootReg (r : ResetState) : W32 :=
  regOf [(0, r.srcUsed.toNat), (2, r.img.toNat), (3, r.fail.toNat), (4, r.rej.toNat), (8, r.svn.toNat), (24, r.verified.toNat)]
def OptApplied.stsReg (o : OptApplied) : W32 :=
  regOf [(0, o.aOk.toNat), (1, o.bOk.toNat), (2, o.usedB.toNat), (3, o.none.toNat), (4, o.erased.toNat), (8, o.lifecycle.toNat),
    (16, o.gen.toNat % 65536)]

/-- The lifeline answers, from the end of step 2 on, except in OFF (R702, R755). -/
def State.lifeline (s : State) (what : String) (f : Nat × List Byte × State) : State :=
  if s.rails.aux && s.pwr.dstate != .off && !(s.rst.start == .options && s.hubPowered && !s.rst.held) then
    State.emit f.2.2 (.sideband what f.1 f.2.1)
  else s

/-- LL_CAUSE. -/
def execLlCause (s : State) : Res :=
  .next (s.lifeline "LL_CAUSE" (0, leBytes 4 s.bak.causeReg.toNat ++ leBytes 4 s.rst.startReg.toNat
    ++ leBytes 4 s.rst.bootReg.toNat ++ leBytes 4 s.opt.stsReg.toNat, s))

/-- LL_COUNTERS. -/
def execLlCounters (s : State) : Res :=
  .next (s.lifeline "LL_COUNTERS" (0, (List.range 13).flatMap (fun n => leBytes 4 (s.bak.cnt.get 0 n).toNat), s))

/-- LL_FR: record n of the backup domain, 0 the newest. -/
def execLlFr (n : Byte) (s : State) : Res :=
  .next (if 16 ≤ n.toNat then s.lifeline "LL_FR" (2, [], s)
    else match s.bak.last16[n.toNat]? with
      | some r => s.lifeline "LL_FR" (0, r.bytes, s)
      | none => s.lifeline "LL_FR" (1, [], s))

/-- LL_RESET (R755): a device reset, code 3, where byte 1 arms it. -/
def execLlReset (arm : Byte) (s : State) : Res :=
  .next (if arm ≠ 0xA5 then s.lifeline "LL_RESET" (3, [], s)
    else if !s.hubPowered then s.lifeline "LL_RESET" (1, [], s)
    else s.lifeline "LL_RESET" (0, [], s.deviceReset 3))

/-- LL_POWER_OFF (R756): the part goes to D3cold, and MAIN_EN stays low. -/
def execLlPowerOff (arm : Byte) (s : State) : Res :=
  .next (if arm ≠ 0xA5 then s.lifeline "LL_POWER_OFF" (3, [], s)
    else
      let s1 := if s.hubPowered then (s.secFault 0x0F28).mainLost .d3cold else s
      s.lifeline "LL_POWER_OFF" (0, [], { s1 with rails := { s1.rails with mainEn := false, powerOff := true } }))

/-- LL_POWER_ON (R756): accepted only in D3cold. MAIN_EN rises, and the start follows the rails. -/
def execLlPowerOn (s : State) : Res :=
  .next (if s.pwr.dstate == .d3cold then
      s.lifeline "LL_POWER_ON" (0, [], { s with rails := { s.rails with mainEn := true, powerOff := false } })
    else s.lifeline "LL_POWER_ON" (1, [], s))

/-- LL_STATUS: registers of an unpowered hub read zero. -/
def execLlStatus (s : State) : Res :=
  let r := fun (v : W32) => leBytes 4 (if s.hubPowered then v.toNat else 0)
  .next (s.lifeline "LL_STATUS" (0, r s.stw.stwReg ++ r s.stw.svcSts ++ r s.ledReg ++ r s.pwr.stsReg
    ++ [if s.rst.heldThermal then 1 else 0], s))

/-- LL_IDENTIFY: LOCATE set or cleared. -/
def execLlIdentify (on : Byte) (s : State) : Res :=
  .next (if 2 ≤ on.toNat then s.lifeline "LL_IDENTIFY" (2, [], s)
    else if !s.hubPowered then s.lifeline "LL_IDENTIFY" (1, [], s)
    else s.lifeline "LL_IDENTIFY" (0, [], s.updStw fun x => { x with locate := on == 1 }))

/-! ### Service commands (R701, R762) -/

/-- A service command: the steward answers, or the aux hardware for it (R754). -/
def State.service (s : State) (what : String) (f : State → Nat × List Byte × State) : State :=
  s.lifeline what (if s.stewardRuns then f s else (4, [], s))

/-- OPT_READ. -/
def execOptRead (off len : W16) (s : State) : Res :=
  .next (s.service "OPT_READ" fun s =>
    if 256 < len.toNat ∨ 4096 < off.toNat + len.toNat then (2, [], s)
    else (0, (List.range len.toNat).map fun i => s.optInUse.get 0xFF (off.toNat + i), s))

/-- OPT_STAGE. -/
def execOptStage (off : W16) (data : List Byte) (s : State) : Res :=
  .next (s.service "OPT_STAGE" fun s =>
    if 256 < data.length ∨ 4096 < off.toNat + data.length then (2, [], s)
    else
      let m := s.nvm.staging.getD s.optInUse
      (0, [], { s with nvm := { s.nvm with staging := some (optPut m off.toNat data) } }))

/-- The change of a byte that R701 allows in SEALED and RETIRED: a repair value from 0xFF, or bits of a repair map from 1 to
0. GEN and CRC are the writer's own. -/
def repairChange (o : Nat) (old new : Byte) : Bool :=
  old == new || (decide (4 ≤ o ∧ o < 8)) || decide (4092 ≤ o)
    || (decide (96 ≤ o ∧ o < 100 ∨ 728 ≤ o ∧ o < 1496) && old == 0xFF)
    || (decide (128 ≤ o ∧ o < 728 ∨ 1496 ≤ o ∧ o < 1720) && (new &&& ~~~old) == 0)

/-- The staging image as it is committed: LIFECYCLE, DEBUG, ROOT_HASH and MIN_SVN stay the copy in use's (R762). -/
def State.commitImage (s : State) (m : SMap Byte) : SMap Byte :=
  let old := s.optInUse
  let keep := fun (m : SMap Byte) (o n : Nat) => optPut m o ((List.range n).map fun i => old.get 0xFF (o + i))
  keep (keep (keep m 8 2) 32 48) 24 4

/-- FORMAT and the zero fields of an option image (R699). -/
def optShape (m : SMap Byte) : Bool :=
  let z := fun (o n : Nat) => (List.range n).all fun i => m.get 0xFF (o + i) == 0
  m.get 0xFF 0 == 1 && m.get 0xFF 1 == 0 && z 2 2 && z 28 4 && z 80 16 && z 100 28

/-- OPT_COMMIT. -/
def execOptCommit (s : State) : Res :=
  .next (s.service "OPT_COMMIT" fun s =>
    match s.nvm.staging with
    | none => (1, [], s)
    | some m =>
      let img := s.commitImage m
      let old := s.optInUse
      if !optShape img then (2, [], s)
      else if s.locked && !((List.range 4096).all fun o => repairChange o (old.get 0xFF o) (img.get 0xFF o)) then (5, [], s)
      else
        let s1 := s.optWrite img
        (0, [], (State.stwFault { s1 with nvm := { s1.nvm with staging := none } } 0x1108)))

/-- OPT_DISCARD. -/
def execOptDiscard (s : State) : Res :=
  .next (s.service "OPT_DISCARD" fun s => (0, [], { s with nvm := { s.nvm with staging := none } }))

/-- REPORT (R763). -/
def execReport (s : State) : Res :=
  .next (s.service "REPORT" fun s => (0, s.rebuildReport.stw.report, s.rebuildReport))

/-! ### MCTP, PLDM and the bus (R758–R761) -/

/-- SET_ENDPOINT_ID (R759): the aux hardware takes the EID; 0 and 0xFF are no EIDs. -/
def execSetEndpointId (eid : Byte) (s : State) : Res :=
  .next (if eid = 0 ∨ eid = 0xFF then s.lifeline "SET_ENDPOINT_ID" (2, [], s)
    else s.lifeline "SET_ENDPOINT_ID" (0, [eid], s.updStw fun x => { x with eid := eid }))

/-- A PLDM request: the aux hardware answers NOT_READY while the steward does not run (R754). -/
def State.pldm (s : State) (what : String) (f : State → Nat × List Byte × State) : State :=
  s.lifeline what (if s.stewardRuns then f s else (4, [], s))

/-- PLDM_BASE_COMMAND (R760): DSP0240's mandatory commands; the answers' bytes are the standard's. -/
def execPldmBaseCommand (code : Byte) (req : List Byte) (s : State) : Res :=
  .next (s.pldm "PLDM_BASE" fun s => (0, Config.spdmAnswer (256 + code.toNat) req [], s))

/-- GET_SENSOR_READING (R761): DSP0248's INVALID_SENSOR_ID is 0x80. -/
def execGetSensorReading (id : W16) (s : State) : Res :=
  .next (s.pldm "SENSOR_READING" fun s =>
    if 1 ≤ id.toNat ∧ id.toNat ≤ 46 then (0, leBytes 4 (s.stw.sensors.get 0 id.toNat).toNat, s) else (0x80, [], s))

/-- GET_STATE_SENSOR_READINGS (R761). -/
def execGetStateSensorReadings (id : W16) (s : State) : Res :=
  .next (s.pldm "STATE_SENSOR" fun s =>
    if 100 ≤ id.toNat ∧ id.toNat ≤ 105 then (0, leBytes 1 (s.stateSensor id.toNat), s) else (0x80, [], s))

/-- SET_EVENT_RECEIVER (R760). -/
def execSetEventReceiver (eid : Byte) (s : State) : Res :=
  .next (s.pldm "EVENT_RECEIVER" fun s => (0, [], s.updStw fun x => { x with evtRecv := some eid }))

/-- PLDM_FRU_READ (R760): ordering code, serial number and device identity. -/
def execPldmFruRead (s : State) : Res :=
  .next (s.pldm "FRU" fun s => (0, [if s.hub.xr then 1 else 0] ++ leBytes 8 s.hub.serial.toNat ++ deviceId, s))

/-- PLDM_FIRMWARE_UPDATE (R760): image B is written and checked, and then image A, of which a cut-off write leaves the first
bytes only. -/
def execPldmFirmwareUpdate (image : List Byte) (cut : Option Nat) (s : State) : Res :=
  .next (s.pldm "FIRMWARE_UPDATE" fun s =>
    let s1 := { s with spi := { s.spi with b := image } }
    if s.imageReason image ≠ 0 then (1, [], s1)
    else match cut with
      | some n => (1, [], { s1 with spi := { s1.spi with a := image.take n } })
      | none => (0, [], { s1 with spi := { s1.spi with a := image } }))

/-- DYNAMIC_ADDRESS_ASSIGNMENT, SIDEBAND_BUS_RESET and SMBUS_ARP (R758). -/
def execDynamicAddressAssignment (addr : BitVec 7) (s : State) : Res :=
  .next (if s.rails.aux then s.updStw fun x => { x with i3c := true, addr := addr } else s)
def execSidebandBusReset (s : State) : Res :=
  .next (if s.rails.aux then s.updStw fun x => { x with i3c := false, addr := 0x4A } else s)
/-- SMBUS_ARP: the UDID is bits [127:0] of the device identity. -/
def execSmbusArp (assign : Option (BitVec 7)) (s : State) : Res :=
  .next (if !s.rails.aux || s.stw.i3c then s
    else match assign with
      | none => s.emit (.sideband "UDID" 0 (deviceId.take 16))
      | some a => s.updStw fun x => { x with addr := a })

end Sys2Proof.Machine
end

