-- ==== Sys2Proof/Machine/CsrRead.lean ====
section
/-! DEFINITION. Reading the registers (23): the value of every register of the CSR map (R785, R786), the latches of R781,
and which reads are served (R777–R779, R782). -/
namespace Sys2Proof.Machine
open Sys2Proof

/-- The block of an offset (R785). -/
def csrBlock (off : Nat) : CsrBlock :=
  if 0x0100000 ≤ off ∧ off < 0x0200000 then .rstc
  else if 0x1000000 ≤ off ∧ off < 0x1C00000 then .stack ((off - 0x1000000) / 0x100000)
  else if 0x2000000 ≤ off ∧ off < 0x3900000 then .cluster ((off - 0x2000000) / 0x40000)
  else .hub

/-- The low and high words of a 64-bit value. -/
def lo32 (n : Nat) : W32 := BitVec.ofNat 32 n
def hi32 (n : Nat) : W32 := BitVec.ofNat 32 (n / 2 ^ 32)

/-! ### Summaries (R799–R803) -/

/-- The channels of a stack count an error that a test names. -/
def State.chanAny (s : State) (st : Nat) (f : Channel → Bool) : Bool := (List.range 32).any fun c => f (s.chan (32 * st + c))

/-- HUB_ERR_STK bit of a stack. -/
def State.stackErr (s : State) (st : Nat) : Bool :=
  s.chanAny st (fun c => c.errReg != 0 || c.st != .healthy) || (s.cxStack st).errReg != 0 || (s.bdStack st).errReg != 0
    || (List.range 32).any (fun i => s.health .lu (32 * st + i) != .inService)
    || (List.range 8).any fun i => s.health .uu (8 * st + i) != .inService

def State.errStkReg (s : State) : W32 := regOf ((List.range 12).map fun st => (st, (s.stackErr st).toNat))

/-- Some unit of a kind is not in service. -/
def State.anyUnitOut (s : State) (k : UnitKind) (n : Nat) : Bool := (List.range n).any fun i => s.health k i != .inService

/-- Some queue satisfies a test. -/
def State.queueAny (s : State) (f : Queue → Bool) : Bool := s.queues.any fun (kv : Nat × Queue) => f kv.2

/-- HUB_ERR_SUM (R800). -/
def State.errSumReg (s : State) : W32 :=
  let anyStack := fun (f : Nat → Bool) => ((List.range 12).any f).toNat
  regOf [
    (0, anyStack fun st => s.chanAny st fun c => c.corr != 0 || c.ode != 0),
    (1, anyStack fun st => s.chanAny st fun c => c.uncorr != 0),
    (2, anyStack fun st => s.chanAny st fun c => c.st != .healthy),
    (3, anyStack fun st => (s.cxStack st).errReg != 0),
    (4, anyStack fun st => (s.bdStack st).errReg != 0),
    (5, (s.queueAny fun q => q.st == .error).toNat),
    (6, (s.queueAny fun q => q.cqLost).toNat),
    (7, ((List.range 8).any fun n => (s.pair n).resync || s.health .pair n != .inService).toNat),
    (8, (s.anyUnitOut .core 1200 || s.anyUnitOut .cluster 100 || s.anyUnitOut .lu 384 || s.anyUnitOut .uu 96).toNat),
    (9, s.host.ldown.toNat),
    (10, s.time.refLost.toNat),
    (11, (s.pl.link && decide (s.pl.laneCount < 16)).toNat),
    (12, ((List.range 8).any fun n => (s.aqSlot n).st == .faulted || (s.aqSlot n).surprise).toNat),
    (13, (s.aq.logFull || s.aq.lidxFull).toNat),
    (14, anyStack fun st => s.jfull st),
    (15, (!s.upd.broken.isEmpty).toNat),
    (16, s.hub.locked.toNat)]

/-- HUB_STS (R793). -/
def State.hubStsReg (s : State) : W32 :=
  regOf [(0, s.rst.start.code), (4, s.lc), (6, s.pwr.dstate.code), (8, roleCode s.pl.role), (11, s.int.expelled.toNat),
    (12, s.int.tainted.toNat), (13, s.int.disagree.toNat), (14, s.stw.st.code), (16, s.stw.drain.code), (18, s.stw.level.toNat),
    (21, ((List.range 4).map fun d => if s.rst.dieRst.contains d then 2 ^ d else 0).sum),
    (25, (s.errSumReg != 0).toNat), (26, (s.hub.irqSts != 0).toNat)]

/-! ### Capability (R412, R413, R791, R792) -/

/-- HUB_CAP0. -/
def State.cap0Reg (s : State) : W32 :=
  regOf [(0, s.hub.capClusters.toNat), (7, 12), (11, s.hub.capPairs.toNat), (15, 16), (20, 16), (25, s.hub.capPairEn.toNat)]

/-- MC_CAP of a stack. -/
def State.mcCapReg (s : State) (st : Nat) : W32 :=
  regOf [(0, (s.mcRegs st).usable), (9, s.chansOut st)]

/-- HUB_CAP1. -/
def State.cap1Reg (s : State) : W32 :=
  regOf [(0, ((List.range 12).map fun st => 256 * (s.mcRegs st).usable).sum), (20, ((List.range 12).map s.chansOut).sum)]

/-- HUB_CDT of a core, and HUB_CDT_SUM. -/
def State.cdtReg (s : State) (k : Nat) : W32 :=
  regOf [(0, s.coreWidth k), (6, s.octets k), (10, (s.health .core k).code)]
def State.cdtSumReg (s : State) : W32 :=
  let live := (List.range 1200).filter fun k => s.health .core k != .retired
  regOf [(0, (live.map s.coreWidth).sum), (16, live.length)]

/-! ### Blocks -/

/-- HUB_BKT (R257). -/
def Bucket.reg (b : Bucket) : W32 :=
  regOf [(0, b.stack.toNat), (4, b.frame.toNat), (14, b.mig.toNat), (15, if b.mig then b.oldStack.toNat else 0),
    (19, if b.mig then b.oldFrame.toNat else 0), (29, b.v.toNat)]

/-- HUB_REGION_B and HUB_REGION_C (R147, R180). -/
def Region.regB (r : Region) : W32 := regOf [(0, r.base.toNat)]
def Region.regC (r : Region) : W32 := regOf [(0, r.defCbk.toNat), (12, r.defV.toNat)]

/-- The hub globals (R786). -/
def State.readHub (s : State) (o : Nat) : W32 :=
  match o with
  | 0x0000 => regOf [(0, 0x1200), (16, s.hub.step.toNat), (20, s.hub.xr.toNat), (24, 0x5A)]
  | 0x0004 => regOf [(8, 1), (16, s.hub.rom.toNat)]
  | 0x0008 => lo32 s.hub.serial.toNat
  | 0x000C => hi32 s.hub.serial.toNat
  | 0x0020 => s.cap0Reg
  | 0x0024 => s.cap1Reg
  | 0x0030 => s.hubStsReg
  | 0x0040 => lo32 s.hub.gto
  | 0x0044 => hi32 s.hub.gto
  | 0x0050 => s.hub.irqSts.setWidth 32
  | 0x0054 => s.hub.irqEn.setWidth 32
  | 0x0058 => regOf [(0, s.hub.irqVec.toNat), (11, s.hub.irqIen.toNat)]
  | 0x0060 => s.errSumReg
  | 0x0064 => s.errStkReg
  | 0x0068 => s.ageSum
  | 0x0070 => regOf [(0, s.hub.injKind.toNat), (4, s.hub.injTarget.toNat), (16, s.hub.injArm.toNat), (17, s.hub.injFired.toNat)]
  | 0x0100 => lo32 s.time.now
  | 0x0104 => hi32 s.time.now
  | 0x010C => s.time.sts
  | 0x0200 => s.stw.stwReg
  | 0x0204 => s.stw.svcCtl
  | 0x0208 => s.stw.svcSts
  | 0x020C => s.ledReg
  | 0x1400 => s.tda.regLo
  | 0x1404 => regOf [(0, s.tda.baseHi.toNat), (20, s.tda.size.toNat)]
  | 0x1800 => regOf [(0, s.bd.en.toNat), (1, s.bd.err.toNat), (2, s.bd.planner.toNat), (3, s.bd.heatShift.toNat), (6, s.bd.decayMs.toNat)]
  | 0x1804 => regOf [(0, s.bd.thresh.toNat), (16, min 65535 s.bd.sticky.length)]
  | 0x1808 => regOf [(0, s.bd.ringBase.toNat), (24, s.bd.ringSize.toNat)]
  | 0x180C => s.bd.ringWp
  | 0x1A40 => regOf [(0, s.late.prmMode.toNat), (2, s.late.prmSlot.toNat), (6, s.late.prmKps.toNat)]
  | 0x1C00 => regOf [(0, s.upd.epochUs.toNat), (16, s.upd.e.toNat), (23, s.upd.auto.toNat), (24, s.upd.err.toNat)]
  | 0x1C04 => lo32 s.upd.epoch
  | 0x1C08 => hi32 s.upd.epoch
  | 0x1C0C => regOf [(0, s.upd.dgsBase.toNat), (24, s.upd.dgsSize.toNat)]
  | 0x1C10 => s.upd.dgsWp
  | 0x1C14 => regOf [(0, s.ident.fleetKey.isSome.toNat), (1, (!s.upd.broken.isEmpty).toNat), (2, s.upd.rebuild.isSome.toNat)]
  | 0x1FF0 => s.cdtSumReg
  | _ =>
    if 0x0080 ≤ o ∧ o < 0x0100 then
      regOf ((List.range 32).map fun i => (i, ((s.queue (32 * ((o - 0x0080) / 4) + i)).st == .error).toNat))
    else if 0x1000 ≤ o ∧ o < 0x1200 then
      let r := s.region ((o - 0x1000) / 8)
      if o % 8 = 0 then r.regA else r.regB
    else if 0x1200 ≤ o ∧ o < 0x1300 then (s.region ((o - 0x1200) / 4)).regC
    else if 0x1A00 ≤ o ∧ o < 0x1A40 then (s.late.margin.get 0x07D0 ((o - 0x1A00) / 4)).setWidth 32
    else if 0x2000 ≤ o ∧ o < 0x32C0 then s.cdtReg ((o - 0x2000) / 4)
    else if 0x4000 ≤ o ∧ o < 0x8000 then (s.bucket ((o - 0x4000) / 4)).reg
    else if 0x8000 ≤ o ∧ o < 0xC000 then (s.bucket ((o - 0x8000) / 4)).load
    else 0

/-- The reset controller and the option loader (R715–R722). -/
def State.readRstc (s : State) (o : Nat) : W32 :=
  match o with
  | 0x00 => s.bak.causeReg
  | 0x04 => s.rst.strapReg
  | 0x08 => s.rst.idleTmo
  | 0x0C => s.rst.startReg
  | 0x10 => s.rst.bootReg
  | 0x14 => lo32 s.rst.hloadAddr.toNat
  | 0x18 => hi32 s.rst.hloadAddr.toNat
  | 0x1C => regOf [(0, s.rst.hloadLen.toNat)]
  | 0x1000 => s.opt.stsReg
  | _ => if 0x100 ≤ o ∧ o < 0x134 then s.bak.cnt.get 0 ((o - 0x100) / 4) else 0

/-- Security, and power and telemetry (R744–R749, R76, R77, R774–R776). -/
def State.readSec (s : State) (o : Nat) : W32 :=
  match o with
  | 0x00 => s.secStsReg
  | 0x08 => lo32 s.sec.nonce.toNat
  | 0x0C => hi32 s.sec.nonce.toNat
  | 0x10 => s.fkcv
  | 0x14 => regOf [(0, s.sec.authFail.toNat), (8, s.sec.sessFail.toNat)]
  | _ => 0

def State.readPwr (s : State) (o : Nat) : W32 :=
  match o with
  | 0x000 => s.pwr.ctlReg
  | 0x004 => s.pwr.stsReg
  | 0x200 => s.stw.telCtl
  | 0x204 => s.stw.shedReg
  | _ =>
    if 0x100 ≤ o ∧ o < 0x114 then (s.dieRec ((o - 0x100) / 4)).minReg
    else if 0x120 ≤ o ∧ o < 0x134 then (s.dieRec ((o - 0x120) / 4)).ageReg
    else if 0x400 ≤ o ∧ o < 0x500 then BitVec.ofNat 32 (leAt s.stw.report (o - 0x400) 4)
    else 0

/-- A queue's registers (R585–R588). -/
def Queue.readReg (q : Queue) (o : Nat) : W32 :=
  match o with
  | 0x00 => lo32 q.sbase.toNat
  | 0x04 => hi32 q.sbase.toNat
  | 0x08 => lo32 q.cbase.toNat
  | 0x0C => hi32 q.cbase.toNat
  | 0x10 => q.cfgReg
  | 0x14 => q.irqReg
  | 0x18 => q.stsReg
  | 0x1C => q.ptrReg
  | _ => 0

/-- Control cores (R487–R490). -/
def State.readCc (s : State) (o : Nat) : W32 :=
  if o = 0x1000 then s.progReg
  else if o < 0x800 then
    let n := o / 0x100
    match o % 0x100 with
    | 0 => (s.pair n).cfgReg
    | 4 => s.pairStsReg n
    | 8 => (s.pair n).ledgerReg
    | _ => 0
  else 0

def SlotState.code : SlotState → Nat
  | .idle => 0 | .pending => 1 | .accepted => 2 | .fenced => 3

/-- Host coupling and the spout (R621–R630). -/
def State.readHost (s : State) (o : Nat) : W32 :=
  match o with
  | 0x00 => s.host.linkReg
  | 0x10 => s.host.aptReg
  | 0x14 => s.host.bflipReg
  | 0x18 => s.host.lcwReg
  | 0x1C => s.host.hlcReg
  | 0x20 => regOf [(0, s.host.superseded.toNat), (16, s.host.lost.toNat), (24, s.host.aptOff.toNat)]
  | _ =>
    if 0x100 ≤ o ∧ o < 0x200 then
      let w := (o - 0x100) / 4
      regOf ((List.range 32).map fun i => (i, (s.host.bias.contains (32 * w + i)).toNat))
    else if 0x200 ≤ o ∧ o < 0x240 then
      let f := s.func ((o - 0x200) / 4 + 1)
      regOf [(0, f.part.toNat), (4, f.kq.toNat)]
    else if 0x1000 ≤ o ∧ o < 0x1200 then
      let g := s.group ((o - 0x1000) / 8)
      if o % 8 = 0 then g.regA else g.regB
    else if 0x8000 ≤ o ∧ o < 0xC000 then
      let x := s.slot ((o - 0x8000) / 4)
      regOf [(0, x.st.code), (2, x.rseq.toNat), (18, x.latch.toNat)]
    else 0

/-- The pair link (R652–R659). -/
def State.readPl (s : State) (o : Nat) : W32 :=
  match o with
  | 0x00 => s.pl.ctlReg
  | 0x04 => s.pl.cmdReg
  | 0x08 => s.plStsReg
  | 0x0C => s.pl.laneReg
  | 0x10 => lo32 s.pl.committed
  | 0x14 => hi32 s.pl.committed
  | 0x18 => lo32 s.pl.ver
  | 0x1C => hi32 s.pl.ver
  | 0x20 => lo32 s.pl.promo
  | 0x24 => hi32 s.pl.promo
  | 0x28 => regOf [(0, s.pl.txbBase.toNat), (24, s.pl.txbSize.toNat)]
  | 0x2C => regOf [(0, s.pl.rxbBase.toNat), (24, s.pl.rxbSize.toNat)]
  | 0x30 => lo32 s.pl.mreg.toNat
  | 0x34 => hi32 s.pl.mreg.toNat
  | 0x38 => s.pl.cntReg
  | _ => 0

/-- The aquifer engine (R314–R319). -/
def State.readAq (s : State) (o : Nat) : W32 :=
  match o with
  | 0x00 => regOf [(0, s.aq.bgShare.toNat), (7, s.aq.tailUs.toNat), (18, s.aq.ioTmo.toNat), (26, s.aq.lowSeg.toNat)]
  | 0x04 => regOf [(0, s.aq.set.toNat), (3, s.aq.logFull.toNat), (4, s.aq.lidxFull.toNat), (8, s.membersPresent.toNat)]
  | 0x08 => regOf [(0, s.aq.tailBase.toNat)]
  | 0x0C => regOf [(0, s.aq.lidxBase.toNat), (24, s.aq.lidxSize.toNat)]
  | _ =>
    if 0x100 ≤ o ∧ o < 0x120 then (s.aqSlot ((o - 0x100) / 4)).stsReg
    else if 0x200 ≤ o ∧ o < 0x220 then (s.aqSlot ((o - 0x200) / 4)).wearReg
    else if 0x220 ≤ o ∧ o < 0x240 then (s.aqSlot ((o - 0x220) / 4)).eol.setWidth 32
    else 0

/-- Fault records and integrity (R582, R590, R591, R685–R690). -/
def State.readInt (s : State) (o : Nat) : W32 :=
  let f := s.faults
  match o with
  | 0x000 => lo32 f.seq
  | 0x004 => hi32 f.seq
  | 0x008 => regOf [(0, f.hen.toNat), (1, f.vec.toNat), (12, f.ien.toNat), (13, f.hlog.toNat), (18, f.herr.toNat)]
  | 0x00C => lo32 f.hbase.toNat
  | 0x010 => hi32 f.hbase.toNat
  | 0x100 => s.intStsReg
  | 0x104 => s.int.ctlReg
  | 0x108 => s.int.cmdReg
  | 0x110 => lo32 s.int.ver
  | 0x114 => hi32 s.int.ver
  | 0x118 => lo32 s.int.rb.toNat
  | 0x11C => hi32 s.int.rb.toNat
  | 0x120 => lo32 s.int.rbOut.toNat
  | 0x124 => hi32 s.int.rbOut.toNat
  | 0x128 => lo32 s.int.asn
  | 0x12C => hi32 s.int.asn
  | _ =>
    if 0x200 ≤ o ∧ o < 0x2C0 then
      if o % 16 < 12 then s.scStateReg ((o - 0x200) / 16) (o % 16 / 4) else 0
    else if 0x400 ≤ o ∧ o < 0x590 then s.cluStateReg ((o - 0x400) / 4)
    else if 0x40000 ≤ o ∧ o < 0x80000 then
      match f.ring.find ((o - 0x40000) / 256) with
      | some r => BitVec.ofNat 32 (leAt r.bytes (o % 256) 4)
      | none => 0
    else 0

def PartState.code : PartState → Nat
  | .unused => 0 | .stopped => 1 | .running => 2 | .stopping => 3 | .resetting => 4

/-- A partition's registers (R551–R559). -/
def State.readPart (s : State) (p o : Nat) : W32 :=
  let x := s.part p
  match o with
  | 0x00 => regOf [(0, x.st.code), (3, x.switching.isSome.toNat), (4, x.teardown.toNat), (5, x.ctxV.toNat), (6, x.err.toNat),
      (8, x.ctx.toNat), (16, x.lists.length)]
  | 0x04 => regOf [(0, x.astBase.toNat), (14, x.astCount.toNat)]
  | 0x08 => regOf [(0, x.waitNs.toNat), (16, x.depth.toNat), (19, x.drop.toNat), (20, x.stick.toNat)]
  | 0x0C => regOf [(0, x.ageUs.toNat)]
  | 0x10 => regOf [(0, (field x.cl 0 32).toNat)]
  | 0x14 => regOf [(0, (field x.cl 32 32).toNat)]
  | 0x18 => regOf [(0, (field x.cl 64 32).toNat)]
  | 0x1C => regOf [(0, (field x.cl 96 4).toNat)]
  | 0x20 => regOf [(0, x.mcSize.toNat)]
  | 0x24 => regOf [(0, x.baBase.toNat)]
  | 0x28 => regOf [(0, x.switches.toNat), (16, x.teardowns.toNat), (24, x.resets.toNat)]
  | 0x2C =>
    let es := s.sc.ast.filter fun (kv : Nat × AstEntry) =>
      decide (x.astBase.toNat ≤ kv.1 ∧ kv.1 < x.astBase.toNat + x.astCount.toNat)
    regOf [(0, (es.filter fun (kv : Nat × AstEntry) => kv.2.st != .free).length),
      (15, (es.filter fun (kv : Nat × AstEntry) => kv.2.st.waiting).length)]
  | _ => 0

/-- The scheduler's block (R520, R551–R559). -/
def State.readSched (s : State) (o : Nat) : W32 :=
  if o < 0x400 then s.readPart (o / 0x40) (o % 0x40)
  else if 0x8000 ≤ o ∧ o < 0x9000 then
    (s.co.bars.get {} ((o - 0x8000) / 0x10)).reg (o % 0x10 / 4)
  else 0

/-- A stack's block (R148–R151, R181–R185, R259–R264, R312, R313, R346, R347, R387–R389). -/
def State.readStack (s : State) (st o : Nat) : W32 :=
  let m := s.mcRegs st
  let x := s.cxStack st
  let b := s.bdStack st
  let u := s.uuStack st
  match o with
  | 0x0000 => regOf [(0, m.scrubHours.toNat), (8, m.calPeriod.toNat), (16, m.resvBlocks.toNat), (20, m.evacRate.toNat), (24, m.werr.toNat)]
  | 0x0004 => s.mcCapReg st
  | 0x4000 => s.lk.luRows.get 0 st
  | 0x4004 => regOf [(0, s.gatherUsed st), (15, (decide (16384 ≤ s.gatherUsed st)).toNat)]
  | 0x8000 => regOf [(0, x.rawOnBusy.toNat)]
  | 0x8004 => x.errReg
  | 0x8008 => regOf [(0, x.rawBig.toNat), (16, x.rawBusy.toNat)]
  | 0x800C => x.misses
  | 0xC000 => regOf [(0, u.base.toNat), (24, u.size.toNat)]
  | 0xC004 => regOf [(0, (s.jfull st).toNat), (1, (s.uuHold st).toNat), (2, u.werr.toNat)]
  | 0xC008 => BitVec.ofNat 32 (min (2 ^ 32 - 1) (u.rows / 1024))
  | 0xE000 => regOf [(0, b.cfgErr.toNat), (1, b.nframes.toNat), (11, b.heatMib.toNat)]
  | 0xE004 => regOf [(0, b.dirBase.toNat)]
  | 0xE008 => regOf [(0, b.ftnBase.toNat), (24, b.ftnSize.toNat)]
  | 0xE010 => b.load
  | 0xE014 => b.errReg
  | 0xE018 => regOf [(0, b.prmBase.toNat), (24, b.prmSize.toNat)]
  | 0xE01C => regOf [(0, b.prmPi.toNat), (16, b.prmCi.toNat)]
  | _ =>
    if 0x100 ≤ o ∧ o < 0x180 then (s.chan (32 * st + (o - 0x100) / 4)).sts
    else if 0x180 ≤ o ∧ o < 0x200 then (s.chan (32 * st + (o - 0x180) / 4)).errReg
    else if 0xE100 ≤ o ∧ o < 0xE200 then b.rload.get 0 ((o - 0xE100) / 4)
    else if 0x10000 ≤ o ∧ o < 0x14000 then x.use.get 0 ((o - 0x10000) / 4)
    else 0

/-- A counter shown in units of 1,024, saturating (R415). -/
def units1024 (n : Nat) : W32 := BitVec.ofNat 32 (min (2 ^ 32 - 1) (n / 1024))

/-- A core's window (R414, R415, R452–R455, R516, R517). -/
def TCore.readReg (c : TCore) (o : Nat) : W32 :=
  match o with
  | 0x00 => c.stsReg
  | 0x04 => units1024 c.acnt
  | 0x08 => units1024 c.bubl
  | 0x0C => units1024 c.bcnt
  | 0x10 => c.exc.reg
  | 0x14 => lo32 c.exc.pc.toNat
  | 0x18 => hi32 c.exc.pc.toNat
  | 0x1C => lo32 c.exc.addr.toNat
  | 0x20 => regOf [(0, c.exc.addr.toNat / 2 ^ 32), (20, c.exc.isDa.toNat)]
  | _ =>
    if 0x040 ≤ o ∧ o < 0x060 then c.ctr.get 0 ((o - 0x040) / 4)
    else if 0x100 ≤ o ∧ o < 0x200 then c.sem.get 0 ((o - 0x100) / 4)
    else if 0x200 ≤ o ∧ o < 0x300 then (field (c.slt.get 0 ((o - 0x200) / 4)) 0 27).setWidth 32
    else 0

/-- A cluster's block (R344, R345, R518, R519). -/
def State.readCluster (s : State) (c o : Nat) : W32 :=
  if o < 0x30000 then (s.tcore (12 * c + o / 0x4000)).readReg (o % 0x4000)
  else
    match o with
    | 0x30100 => regOf [(0, (s.lk.lists.filter fun l => l.cluster == c).length), (7, (s.lk.cstall.contains c).toNat),
        (8, (s.lk.mstall.contains c).toNat)]
    | 0x30104 => s.lk.ids.get 0 c
    | 0x30200 => (s.cluster c).pcred.setWidth 32
    | _ =>
      if 0x30300 ≤ o ∧ o < 0x30340 then ((s.cluster c).bars.get 0 ((o - 0x30300) / 4)).setWidth 32 else 0

/-! ### Reads (R777–R783) -/

/-- The current value of the register at a 4 B-aligned offset; an unassigned one reads zero (R779). -/
def State.csrValue (s : State) (off : Nat) : W32 :=
  if off < 0x0100000 then s.readHub off
  else if off < 0x0200000 then s.readRstc (off % 0x100000)
  else if off < 0x0300000 then s.readSec (off % 0x100000)
  else if off < 0x0400000 then s.readPwr (off % 0x100000)
  else if off < 0x0500000 then (s.queue ((off - 0x0400000) / 0x400)).readReg (off % 0x400)
  else if off < 0x0600000 then s.readCc (off % 0x100000)
  else if off < 0x0700000 then s.readHost (off % 0x100000)
  else if off < 0x0800000 then s.readPl (off % 0x100000)
  else if off < 0x0900000 then s.readAq (off % 0x100000)
  else if off < 0x0A00000 then s.readInt (off % 0x100000)
  else if off < 0x0B00000 then s.readSched (off % 0x100000)
  else
    match csrBlock off with
    | .stack st => s.readStack st ((off - 0x1000000) % 0x100000)
    | .cluster c => s.readCluster c ((off - 0x2000000) % 0x40000)
    | _ => 0

/-- The register is the LO of a pair whose table says that its read latches HI (R781); HI is the next word. -/
def latchesHi (off : Nat) : Bool :=
  [0x0000040, 0x0000100, 0x0001C04, 0x0200008, 0x0700010, 0x0700018, 0x0700020, 0x0900000, 0x0900110, 0x0900118, 0x0900120,
    0x0900128].contains off
  || (match csrBlock off with
      | .cluster _ =>
        let o := (off - 0x2000000) % 0x40000
        decide (o < 0x30000 ∧ (o % 0x4000 = 0x14 ∨ o % 0x4000 = 0x1C))
      | _ => false)

/-- Where the HI latch of a path lies. -/
def latchKey (p : AccessPath) (off : Nat) : Nat := p.num * 2 ^ 28 + off

/-- A read of one register on a path: LO latches HI, and HI returns the path's latch (R781). -/
def State.csrRead (s : State) (p : AccessPath) (off : Nat) : W32 × State :=
  if latchesHi off then (s.csrValue off, { s with latch := s.latch.set (latchKey p (off + 4)) (s.csrValue (off + 4)) })
  else if 4 ≤ off ∧ latchesHi (off - 4) = true then (s.latch.get 0 (latchKey p off), s)
  else (s.csrValue off, s)

/-- The queue that a VF's view shows at a place: the k-th that names it, for k below 64 (R596). -/
def State.vfQueue (s : State) (vf k : Nat) : Option Nat :=
  if 64 ≤ k then none else (((List.range 1024).filter fun q => (s.queue q).fn.toNat == vf)[k]?)

/-- A VF's queue view answers (R596, R782). -/
def State.vfServes (s : State) (vf : Nat) : Bool :=
  s.hubPowered && !s.rst.held && s.pfServes .hub && !(s.func vf).d3hot

/-- The registers that a read of 2^k bytes covers, if it is well placed (R778): 1 and 2 B within one register, 4 and 8 B
aligned to their size. -/
def csrAligned (off k : Nat) : Bool :=
  if k < 2 then decide (off % 4 + 2 ^ k ≤ 4) else decide (off % 2 ^ k = 0)

/-- The read of an aligned register by a path that reaches it, with a block that is dark on every path reading zero
(R782). -/
def State.csrServe (s : State) (p : AccessPath) (off : Nat) : W32 × State :=
  match p with
  | .vf v =>
    match s.vfQueue (v.val + 1) (off / 0x400) with
    | some q => ((s.queue q).readReg (off % 0x400), s)
    | none => (0, s)
  | _ => if s.blockDark (csrBlock off) then (0, s) else s.csrRead p off

/-- The path reaches the block at all: a dark block answers with zeros (R777, R782). -/
def State.csrAnswers (s : State) (p : AccessPath) (off : Nat) : Bool :=
  match p with
  | .vf v => s.vfServes (v.val + 1)
  | .pf => s.hubPowered && !s.rst.held && s.pfServes (csrBlock off)
  | .steward => s.hubPowered && !s.rst.held && s.stw.st == .running
  | .jtag => s.hubPowered && !s.rst.held && s.sec.dbg != 0

/-- LO_READ_LATCH: a read of 2^size bytes of CSR space, size 0 to 3. A read that is not served, or badly placed, completes
with Unsupported Request. -/
def execLoReadLatch (p : AccessPath) (off : BitVec 26) (size : Fin 4) (s : State) : Res :=
  let a := off.toNat
  if s.csrAnswers p a && csrAligned a size.val then
    let r := s.csrServe p (a / 4 * 4)
    if size.val < 3 then
      .next (r.2.emit (.hostReply "CSR" (((leBytes 4 r.1.toNat).drop (a % 4)).take (2 ^ size.val))))
    else
      let h := r.2.csrServe p (a + 4)
      .next (h.2.emit (.hostReply "CSR" (leBytes 4 r.1.toNat ++ leBytes 4 h.1.toNat)))
  else .next (s.emit (.hostReply "UR" []))

end Sys2Proof.Machine
end

