-- ==== Sys2Proof/Machine/CsrWrite.lean ====
section
/-! DEFINITION. Writing the registers (23): each register's write under its access code and field rules (R783, R827), for
the registers that no other chapter's file writes, and the map from offsets to writes (R785, R786). -/
namespace Sys2Proof.Machine
open Sys2Proof

/-- A counter field: writing 0 clears it, and any other write is ignored. -/
def cleared {n : Nat} (old new : BitVec n) : BitVec n := if new = 0 then 0 else old

/-- A value that 0 reads back as 1 for. -/
def atLeast1 {n : Nat} (v : BitVec n) : BitVec n := if v = 0 then 1 else v

/-! ### Time (R67, R68) -/

/-- HUB_TIME_STS: REF_LOST and STEP_REJ are cleared by writing 1. -/
def State.writeTimeSts (s : State) (v : W32) : State :=
  { s with time := { s.time with refLost := s.time.refLost && !bit v 1, stepRej := s.time.stepRej && !bit v 3 } }

/-! ### HBM, regions and coding (R147, R148, R151, R180–R184) -/

/-- HUB_REGION_B: ignored while EN is set, with ERR of HUB_REGION_A where it would change BASE. -/
def State.writeRegionB (s : State) (n : Nat) (v : W32) : State :=
  let r := s.region n
  if r.en then s.putRegion n { r with err := r.err || field v 0 12 != r.base } else s.putRegion n { r with base := field v 0 12 }

def State.writeRegionC (s : State) (n : Nat) (v : W32) : State :=
  s.putRegion n { s.region n with defCbk := field v 0 12, defV := bit v 12 }

def State.updMc (s : State) (st : Nat) (f : McRegs → McRegs) : State := { s with mc := s.mc.upd {} st f }

/-- Some enabled region uses a stack. -/
def State.stackInUse (s : State) (st : Nat) : Bool :=
  s.regions.any fun (kv : Nat × Region) => kv.2.en && kv.2.stacks.contains st

/-- MC_CTL: CAL_PERIOD and RESV_BLOCKS are barred while an enabled region uses the stack. -/
def State.writeMcCtl (s : State) (st : Nat) (v : W32) : State :=
  let cal : Byte := if (field v 8 8).toNat < 10 then 10 else field v 8 8
  let used := s.stackInUse st
  s.updMc st fun m =>
    let bar := used && (cal != m.calPeriod || field v 16 4 != m.resvBlocks)
    { m with
      scrubHours := field v 0 8, evacRate := atLeast1 (field v 20 4)
      calPeriod := if used then m.calPeriod else cal
      resvBlocks := if used then m.resvBlocks else field v 16 4
      werr := (m.werr && !bit v 24) || bar }

def State.writeChErr (s : State) (i : Nat) (v : W32) : State :=
  s.updChan i fun c => { c with
    corr := cleared c.corr (field v 0 12), uncorr := cleared c.uncorr (field v 12 8), ode := cleared c.ode (field v 20 12) }

def State.writeCx (s : State) (st o : Nat) (v : W32) : State :=
  s.updCx st fun c =>
    match o with
    | 0x0 => { c with rawOnBusy := bit v 0 }
    | 0x4 => { c with
        decode := cleared c.decode (field v 0 12), stale := cleared c.stale (field v 12 12), tagpois := cleared c.tagpois (field v 24 8) }
    | 0x8 => { c with rawBig := cleared c.rawBig (field v 0 16), rawBusy := cleared c.rawBusy (field v 16 16) }
    | 0xC => { c with misses := cleared c.misses v }
    | _ => c

/-! ### The table store and the basin (R217, R254, R255, R259–R263, R310–R313) -/

/-- HUB_TDA_HI: ignored while EN is 1. -/
def State.writeTdaHi (s : State) (v : W32) : State :=
  let t := s.tda
  if t.en then { s with tda := { t with err := t.err || field v 0 20 != t.baseHi || field v 20 12 != t.size } }
  else { s with tda := { t with baseHi := field v 0 20, size := field v 20 12 } }

def State.writeBdThr (s : State) (v : W32) : State := { s with bd := { s.bd with thresh := field v 0 16 } }

/-- HUB_BD_RING is written only while THRESH is 0. -/
def State.writeBdRing (s : State) (v : W32) : State :=
  if s.bd.thresh = 0 then { s with bd := { s.bd with ringBase := field v 0 24, ringSize := field v 24 8 } } else s

/-- A write of BD_CFG, BD_DIR or BD_FTN: while HUB_BD_CTL.EN is 1 it is ignored, and sets BD_CFG.ERR where it would change
the register. -/
def State.writeBdArea (s : State) (st : Nat) (f : BdStack → BdStack) : State :=
  s.updBdStack st fun b => if s.bd.en then { b with cfgErr := b.cfgErr || decide (f b ≠ b) } else f b

def State.writeBdCfg (s : State) (st : Nat) (v : W32) : State :=
  let heat : BitVec 4 := if 8 < (field v 11 4).toNat then 8 else field v 11 4
  (s.updBdStack st fun b => { b with cfgErr := b.cfgErr && !bit v 0 }).writeBdArea st fun b =>
    { b with nframes := field v 1 10, heatMib := heat }

def State.writeBdErr (s : State) (st : Nat) (v : W32) : State :=
  s.updBdStack st fun b => { b with
    setPois := cleared b.setPois (field v 0 12), full := cleared b.full (field v 12 12), abandon := cleared b.abandon (field v 24 8) }

def State.writeLate (s : State) (p : Nat) (v : W32) : State :=
  { s with late := { s.late with margin := s.late.margin.set p (field v 0 16) } }

def State.writePrm (s : State) (v : W32) : State :=
  let mode : BitVec 2 := if field v 0 2 = 3 then 0 else field v 0 2
  let slot : BitVec 4 := if 8 < (field v 2 4).toNat then 8 else field v 2 4
  { s with late := { s.late with prmMode := mode, prmSlot := slot, prmKps := field v 6 16 } }

/-- BD_PRM_RING is written only while HUB_PRM.MODE is 0. -/
def State.writePrmRing (s : State) (st : Nat) (v : W32) : State :=
  if s.late.prmMode = 0 then s.updBdStack st fun b => { b with prmBase := field v 0 24, prmSize := field v 24 8 } else s

def State.writePrmIdx (s : State) (st : Nat) (v : W32) : State := s.updBdStack st fun b => { b with prmPi := field v 0 16 }

/-! ### The aquifer (R314–R319) -/

def State.writeAqCtl (s : State) (v : W32) : State :=
  { s with aq := { s.aq with bgShare := field v 0 7, tailUs := field v 7 11, ioTmo := field v 18 8, lowSeg := field v 26 4 } }

/-- AQ_TAIL and AQ_LIDX are written only while AQ_STS.SET is 0. -/
def State.writeAqTail (s : State) (v : W32) : State :=
  if s.aq.set = 0 then { s with aq := { s.aq with tailBase := field v 0 24 } } else s
def State.writeAqLidx (s : State) (v : W32) : State :=
  if s.aq.set = 0 then { s with aq := { s.aq with lidxBase := field v 0 24, lidxSize := field v 24 5 } } else s

def State.writeAqSlot (s : State) (n : Nat) (v : W32) : State :=
  s.updAqSlot n fun a => { a with pdc := a.pdc && !bit v 5, surprise := a.surprise && !bit v 6 }
def State.writeAqWear (s : State) (n : Nat) (v : W32) : State := s.updAqSlot n fun a => { a with weight := field v 24 8 }

/-! ### Lookups, updates, cores and clusters (R345, R346, R388, R389, R414, R415, R518) -/

def State.writeLdIds (s : State) (c : Nat) (v : W32) : State :=
  if v = 0 then { s with lk := { s.lk with ids := s.lk.ids.set c 0 } } else s
def State.writeLuRows (s : State) (st : Nat) (v : W32) : State :=
  if v = 0 then { s with lk := { s.lk with luRows := s.lk.luRows.set st 0, luRem := s.lk.luRem.set st 0 } } else s
def State.writeUuSts (s : State) (st : Nat) (v : W32) : State := s.updUu st fun u => { u with werr := u.werr && !bit v 2 }
def State.writeUuRows (s : State) (st : Nat) (v : W32) : State :=
  if v = 0 then s.updUu st fun u => { u with rows := 0 } else s

/-- CORE_STS: the flags and K0 are cleared by writing 1. -/
def State.writeCoreSts (s : State) (k : Nat) (v : W32) : State :=
  s.updCore k fun c => { c with flags := c.flags &&& ~~~(field v 0 6), k0 := c.k0 && !bit v 6 }

/-- CORE_ACNT, CORE_BUBL and CORE_BCNT. -/
def State.writeCoreCnt (s : State) (k o : Nat) (v : W32) : State :=
  if v = 0 then
    s.updCore k fun c =>
      match o with
      | 0x4 => { c with acnt := 0 }
      | 0x8 => { c with bubl := 0 }
      | _ => { c with bcnt := 0 }
  else s

def State.writeXfer (s : State) (c : Nat) (v : W32) : State :=
  let n := (field v 0 11).toNat
  s.updCluster c fun x => { x with pcred := BitVec.ofNat 11 (if n < 16 then 16 else if 1024 < n then 1024 else n) }

/-! ### Partitions (R522, R551–R558) -/

/-- A write of PART_AST, PART_CL, PART_MC or PART_BA: only while the partition is UNUSED or STOPPED. -/
def State.writePartCfg (s : State) (p : Nat) (f : Part → Part) : State :=
  s.updPart p fun x =>
    if x.st = .unused ∨ x.st = .stopped then f x else { x with err := x.err || decide (f x ≠ x) }

def State.writePart (s : State) (p o : Nat) (v : W32) : State :=
  match o with
  | 0x00 => s.updPart p fun x => { x with err := x.err && !bit v 6 }
  | 0x04 => s.writePartCfg p fun x => { x with astBase := field v 0 14, astCount := field v 14 15 }
  | 0x08 =>
    let d : BitVec 3 := if field v 16 3 = 0 then 1 else if 4 < (field v 16 3).toNat then 4 else field v 16 3
    s.updPart p fun x => { x with waitNs := field v 0 16, depth := d, drop := bit v 19, stick := atLeast1 (field v 20 8) }
  | 0x0C => s.updPart p fun x => { x with ageUs := field v 0 16 }
  | 0x10 => s.writePartCfg p fun x => { x with cl := setField x.cl 0 32 v }
  | 0x14 => s.writePartCfg p fun x => { x with cl := setField x.cl 32 32 v }
  | 0x18 => s.writePartCfg p fun x => { x with cl := setField x.cl 64 32 v }
  | 0x1C => s.writePartCfg p fun x => { x with cl := setField x.cl 96 4 (field v 0 4) }
  | 0x20 => s.writePartCfg p fun x => { x with mcSize := field v 0 7 }
  | 0x24 => s.writePartCfg p fun x => { x with baBase := field v 0 24 }
  | 0x28 => s.updPart p fun x => { x with
      switches := cleared x.switches (field v 0 16), teardowns := cleared x.teardowns (field v 16 8)
      resets := cleared x.resets (field v 24 8) }
  | _ => s

/-! ### Queues and fault records (R585–R588, R591) -/

/-- A write of a ring base: while STATE is not DISABLED it is ignored, and sets SQ_CFG.ERR where it would change the
register. -/
def State.writeSqBase (s : State) (q : Nat) (f : Queue → Queue) : State :=
  s.updQ q fun x => if x.st = .disabled then f x else { x with err := x.err || decide (f x ≠ x) }

def State.writeSqIrq (s : State) (q : Nat) (v : W32) : State :=
  s.updQ q fun x => { x with vec := field v 0 11, ien := bit v 11, coalN := field v 12 8, coalUs := field v 20 8 }

/-- SQ_STS: CQ_LOST and CQ_DBERR are cleared by writing 1. -/
def State.writeSqSts (s : State) (q : Nat) (v : W32) : State :=
  s.updQ q fun x => { x with cqLost := x.cqLost && !bit v 5, cqDberr := x.cqDberr && !bit v 6 }

def State.writeSq (s : State) (q o : Nat) (v : W32) (vfOn : Bool) : State :=
  match o with
  | 0x00 => s.writeSqBase q fun x => { x with sbase := setField x.sbase 12 20 (field v 12 20) }
  | 0x04 => s.writeSqBase q fun x => { x with sbase := setField x.sbase 32 32 v }
  | 0x08 => s.writeSqBase q fun x => { x with cbase := setField x.cbase 12 20 (field v 12 20) }
  | 0x0C => s.writeSqBase q fun x => { x with cbase := setField x.cbase 32 32 v }
  | 0x10 => s.writeSqCfg q v vfOn
  | 0x14 => s.writeSqIrq q v
  | 0x18 => s.writeSqSts q v
  | _ => s

/-- INT_FR_CTL: HLOG is barred while HEN is 1. -/
def State.writeFrCtl (s : State) (v : W32) : State :=
  let f := s.faults
  { s with faults := { f with
      hen := bit v 0, vec := field v 1 11, ien := bit v 12, herr := f.herr && !bit v 18
      hlog := if f.hen then f.hlog else field v 13 5 } }

/-- INT_FR_HBASE: barred while HEN is 1. -/
def State.writeHbase (s : State) (hi : Bool) (v : W32) : State :=
  let f := s.faults
  if f.hen then s
  else { s with faults := { f with
      hbase := if hi then setField f.hbase 32 32 v else setField f.hbase 12 20 (field v 12 20) } }

/-! ### Host coupling (R621, R627, R628), the pair link (R653), integrity (R688), and reset (R715, R717, R718, R720) -/

def State.writeHcLink (s : State) (v : W32) : State := s.updHost fun h => { h with ldown := h.ldown && !bit v 10 }
def State.writeHcCnt (s : State) (v : W32) : State :=
  s.updHost fun h => { h with
    superseded := cleared h.superseded (field v 0 16), lost := cleared h.lost (field v 16 8), aptOff := cleared h.aptOff (field v 24 8) }
/-- HC_VF_CFG: ignored while VF Enable is set in the SR-IOV capability. -/
def State.writeVfCfg (s : State) (f : Nat) (v : W32) (vfOn : Bool) : State :=
  if vfOn then s else s.updFunc f fun x => { x with part := field v 0 4, kq := bit v 4 }

/-- PL_CMD: COPY and RETRAIN with GO have rows of their own, which bring the peer's answer; here they only store OP. -/
def State.writePlOp (s : State) (v : W32) : State :=
  let op := (field v 0 3).toNat
  if op = 3 ∨ op = 7 then { s with pl := { s.pl with op := field v 0 3 } } else s.writePlCmd v [] 0

def State.writeIntWord (s : State) (o : Nat) (v : W32) : State :=
  match o with
  | 0x118 => { s with int := { s.int with rb := setField s.int.rb 0 32 v } }
  | 0x11C => { s with int := { s.int with rb := setField s.int.rb 32 32 v } }
  | 0x120 => { s with int := { s.int with rbOut := setField s.int.rbOut 0 32 v } }
  | 0x124 => { s with int := { s.int with rbOut := setField s.int.rbOut 32 20 (field v 0 20) } }
  | _ => s

def State.writeRstc (s : State) (o : Nat) (v : W32) : State :=
  match o with
  | 0x00 => { s with bak := { s.bak with bakLost := s.bak.bakLost && !bit v 5 } }
  | 0x08 => s.updRst fun r => { r with idleTmo := if v.toNat < 1000 then 1000 else v }
  | 0x0C => s.updRst fun r => { r with tmoS := atLeast1 (field v 16 8) }
  | 0x14 => s.updRst fun r => { r with hloadAddr := setField r.hloadAddr 12 20 (field v 12 20) }
  | 0x18 => s.updRst fun r => { r with hloadAddr := setField r.hloadAddr 32 32 v }
  | 0x1C => s.writeHloadLen v
  | _ => s

/-- HUB_ERR_SUM: LOCKED is cleared by writing 1. -/
def State.writeErrSum (s : State) (v : W32) : State := { s with hub := { s.hub with locked := s.hub.locked && !bit v 16 } }

/-! ### The map (R785, R786) -/

def State.writeHub (s : State) (o : Nat) (v : W32) : State :=
  match o with
  | 0x0040 => s.writeGtoLo v
  | 0x0044 => s.writeGtoHi v
  | 0x0050 => s.writeIrqSts v
  | 0x0054 => s.writeIrqEn v
  | 0x0058 => s.writeIrqVec v
  | 0x0060 => s.writeErrSum v
  | 0x0070 => s.writeInj v
  | 0x0108 => s.applyTimeStep v.toNat
  | 0x010C => s.writeTimeSts v
  | 0x0200 => s.writeStw v
  | 0x0204 => s.writeSvcCtl v
  | 0x0208 => s.writeSvcSts v
  | 0x1400 => s.writeTdaLo v
  | 0x1404 => s.writeTdaHi v
  | 0x1800 => s.writeBdCtl v
  | 0x1804 => s.writeBdThr v
  | 0x1808 => s.writeBdRing v
  | 0x1A40 => s.writePrm v
  | 0x1C00 => s.writeUpdCtl v
  | 0x1C0C => s.writeDgs v
  | _ =>
    if 0x1000 ≤ o ∧ o < 0x1200 then
      if o % 8 = 0 then s.writeRegionA ((o - 0x1000) / 8) v else s.writeRegionB ((o - 0x1000) / 8) v
    else if 0x1200 ≤ o ∧ o < 0x1300 then s.writeRegionC ((o - 0x1200) / 4) v
    else if 0x1A00 ≤ o ∧ o < 0x1A40 then s.writeLate ((o - 0x1A00) / 4) v
    else s

def State.writePwr (s : State) (o : Nat) (v : W32) : State :=
  match o with
  | 0x000 => s.writePwrCtl v
  | 0x004 => s.writePwrSts v
  | 0x200 => s.writeTelCtl v
  | 0x204 => s.writeTelShed v
  | _ => if 0x100 ≤ o ∧ o < 0x114 then s.writePaceMin ((o - 0x100) / 4) else s

def State.writeHostReg (s : State) (o : Nat) (v : W32) (vfOn : Bool) : State :=
  match o with
  | 0x00 => s.writeHcLink v
  | 0x10 => s.updHost (·.writeApt v)
  | 0x14 => s.writeBflip v
  | 0x18 => s.writeLcw v
  | 0x1C => s.writeHlc v
  | 0x20 => s.writeHcCnt v
  | _ =>
    if 0x200 ≤ o ∧ o < 0x240 then s.writeVfCfg ((o - 0x200) / 4 + 1) v vfOn
    else if 0x1000 ≤ o ∧ o < 0x1200 then
      if o % 8 = 0 then s.writeGrpA ((o - 0x1000) / 8) v else s.writeGrpB ((o - 0x1000) / 8) v
    else s

def State.writePl (s : State) (o : Nat) (v : W32) : State :=
  match o with
  | 0x00 => s.writePlCtl v
  | 0x04 => s.writePlOp v
  | 0x08 => s.writePlSts v
  | 0x28 => s.writePlTxb v
  | 0x2C => s.writePlRxb v
  | 0x30 => s.writePlMreg false v
  | 0x34 => s.writePlMreg true v
  | 0x38 => s.writePlCnt v
  | _ => s

def State.writeAq (s : State) (o : Nat) (v : W32) : State :=
  match o with
  | 0x00 => s.writeAqCtl v
  | 0x08 => s.writeAqTail v
  | 0x0C => s.writeAqLidx v
  | _ =>
    if 0x100 ≤ o ∧ o < 0x120 then s.writeAqSlot ((o - 0x100) / 4) v
    else if 0x200 ≤ o ∧ o < 0x220 then s.writeAqWear ((o - 0x200) / 4) v
    else s

def State.writeInt (s : State) (o : Nat) (v : W32) : State :=
  match o with
  | 0x008 => s.writeFrCtl v
  | 0x00C => s.writeHbase false v
  | 0x010 => s.writeHbase true v
  | 0x100 => s.writeIntSts v
  | 0x104 => s.writeIntCtl v
  | 0x108 => s.writeIntCmd v
  | 0x110 => s.writeVerLo v
  | 0x114 => s.writeVerHi v
  | _ => s.writeIntWord o v

def State.writeSched (s : State) (o : Nat) (v : W32) : State :=
  if o < 0x400 then s.writePart (o / 0x40) (o % 0x40) v
  else if 0x8000 ≤ o ∧ o < 0x9000 then
    s.writePartBar ((o - 0x8000) / 0x100) ((o - 0x8000) % 0x100 / 0x10) (o % 0x10 / 4) v
  else s

def State.writeStack (s : State) (st o : Nat) (v : W32) : State :=
  match o with
  | 0x0000 => s.writeMcCtl st v
  | 0x4000 => s.writeLuRows st v
  | 0xC000 => s.writeJnl st v
  | 0xC004 => s.writeUuSts st v
  | 0xC008 => s.writeUuRows st v
  | 0xE000 => s.writeBdCfg st v
  | 0xE004 => s.writeBdArea st fun b => { b with dirBase := field v 0 24 }
  | 0xE008 => s.writeBdArea st fun b => { b with ftnBase := field v 0 24, ftnSize := field v 24 8 }
  | 0xE014 => s.writeBdErr st v
  | 0xE018 => s.writePrmRing st v
  | 0xE01C => s.writePrmIdx st v
  | _ =>
    if 0x180 ≤ o ∧ o < 0x200 then s.writeChErr (32 * st + (o - 0x180) / 4) v
    else if 0x8000 ≤ o ∧ o < 0x8010 then s.writeCx st (o - 0x8000) v
    else s

def State.writeCluster (s : State) (c o : Nat) (v : W32) : State :=
  if o < 0x30000 then
    let k := 12 * c + o / 0x4000
    match o % 0x4000 with
    | 0x0 => s.writeCoreSts k v
    | 0x4 => s.writeCoreCnt k 0x4 v
    | 0x8 => s.writeCoreCnt k 0x8 v
    | 0xC => s.writeCoreCnt k 0xC v
    | _ => s
  else
    match o with
    | 0x30104 => s.writeLdIds c v
    | 0x30200 => s.writeXfer c v
    | _ => s

/-- The write of the register at a 4 B-aligned offset; one to an unassigned offset is ignored (R779). -/
def State.csrPut (s : State) (off : Nat) (v : W32) (vfOn : Bool) : State :=
  if off < 0x0100000 then s.writeHub off v
  else if off < 0x0200000 then s.writeRstc (off % 0x100000) v
  else if off < 0x0300000 then
    match off % 0x100000 with
    | 0x04 => s.writeSecDbg v
    | 0x14 => s.writeSecCnt v
    | _ => s
  else if off < 0x0400000 then s.writePwr (off % 0x100000) v
  else if off < 0x0500000 then s.writeSq ((off - 0x0400000) / 0x400) (off % 0x400) v vfOn
  else if off < 0x0600000 then
    if off % 0x100000 < 0x800 ∧ off % 0x100 = 0 then s.writePairCfg (off % 0x100000 / 0x100) v else s
  else if off < 0x0700000 then s.writeHostReg (off % 0x100000) v vfOn
  else if off < 0x0800000 then s.writePl (off % 0x100000) v
  else if off < 0x0900000 then s.writeAq (off % 0x100000) v
  else if off < 0x0A00000 then s.writeInt (off % 0x100000) v
  else if off < 0x0B00000 then s.writeSched (off % 0x100000) v
  else
    match csrBlock off with
    | .stack st => s.writeStack st ((off - 0x1000000) % 0x100000) v
    | .cluster c => s.writeCluster c ((off - 0x2000000) % 0x40000) v
    | _ => s

/-- A 4 B write on a path; a VF writes SQ_IRQ and clears the RW1C bits of SQ_STS in its queue view (R596). -/
def State.csrStore (s : State) (p : AccessPath) (off : Nat) (v : W32) (vfOn : Bool) : State :=
  match p with
  | .vf f =>
    match (if s.vfServes (f.val + 1) then s.vfQueue (f.val + 1) (off / 0x400) else none) with
    | some q =>
      match off % 0x400 with
      | 0x14 => s.writeSqIrq q v
      | 0x18 => s.writeSqSts q v
      | _ => s
    | none => s
  | _ => s.onCsr p (csrBlock off) fun s => s.csrPut off v vfOn

/-- CSR_WRITE: a write of 2^size bytes of CSR space (R778): one below 4 B is ignored, a misplaced one is refused, and one of
8 B acts as two of 4 B, the lower first. `vfOn` says whether VF Enable is set, and the VF that FN names is enabled. -/
def execCsrWrite (p : AccessPath) (off : BitVec 26) (size : Fin 4) (v : W64) (vfOn : Bool) (s : State) : Res :=
  let a := off.toNat
  if size.val < 2 || !csrAligned a size.val then .next s
  else
    let s1 := s.csrStore p a (field v 0 32) vfOn
    .next (if size.val = 2 then s1 else s1.csrStore p (a + 4) (field v 32 32) vfOn)

end Sys2Proof.Machine
end

