-- ==== Sys2Proof/Machine/Matrix.lean ====
section
/-! DEFINITION. The dot-product array: WSTG, MMA, staging and the accumulator file (R390–R404, R427–R430, R450). -/
namespace Sys2Proof.Machine
open Sys2Proof

/-! ### Elements (R80, R393) -/

/-- The bits of packed element j. -/
def packedElem (bitsPer : Nat) (bs : List Byte) (j : Nat) : Nat :=
  match bitsPer with
  | 4 => (listGet 0 bs (j / 2)).toNat / 16 ^ (j % 2) % 16
  | 6 => leAt bs (j / 4 * 3) 3 / 64 ^ (j % 4) % 64
  | 16 => leAt bs (2 * j) 2
  | 32 => leAt bs (4 * j) 4
  | _ => (listGet 0 bs j).toNat

/-- Element j of packed bytes in a format, under the scale bytes of its blocks where the format is MX. -/
def elemAt (fmt : Nat) (bs scales : List Byte) (j : Nat) : FVal :=
  let v := decodeElem fmt (packedElem (elemBits fmt) bs j)
  if isMx fmt then scaleElem (listGet 0 scales (j / 32)).toNat v else v

/-- Weight k of column n of a tile. -/
def Tile.weight (t : Tile) (n k : Nat) : FVal :=
  match pairShape t.afmt t.wfmt with
  | none => .nan
  | some (kt, _, c) =>
    elemAt t.wfmt ((t.img.drop (64 * c * n)).take (64 * c)) ((t.img.drop (64 * c * t.n + n * (kt / 32))).take (kt / 32)) k

/-! ### WSTG (R394, R427) -/

/-- WSTG: the tile image is queued for the staging slot, which it takes at once when it is free. -/
def execWstg (core : Fin 1200) (w : BitVec 56) (s : State) : Res :=
  let k := core.val
  s.mSlot k 0x10 w [(55, 51), (49, 45), (44, 40), (39, 35)] fun s =>
    let c := s.tcore k
    let off := (c.sreg (bits w 55 51)).toNat
    let n := bits w 49 45 + 1
    let a := bits w 44 40
    let f := bits w 39 35
    if (pairShape a f).isNone then .raise 3 0
    else
      match csCheck off (64 * tileLines n a f) 64 with
      | some e => .raise e.1 e.2
      | none =>
        let r : WstgReq := { off := off, n := n, afmt := a, wfmt := f, pc := c.pc, w := wordOf 0x10 w, pos := c.here }
        let seen := fun (x : TCore) => { x with coming := x.coming ++ [(n, a, f)] }
        if c.staging == .free && c.stgQ.isEmpty then .ok (s.updCore k fun x => { seen x with staging := .loading r })
        else if c.stgQ.length < 2 then .ok (s.updCore k fun x => { seen x with stgQ := x.stgQ ++ [r] })
        else .wait

/-- The staging slot is free: the next queued tile starts to load (R394). -/
def TCore.nextStage (c : TCore) : TCore :=
  match c.stgQ with
  | [] => { c with staging := .free }
  | r :: rest => { c with staging := .loading r, stgQ := rest }

/-- WSTG_STAGING_COMPLETE (R394): the loading tile's image has been copied. A poisoned line is DATA_POISON. -/
def execWstgStagingComplete (core : Fin 1200) (s : State) : Res :=
  let k := core.val
  let c := s.tcore k
  match c.staging with
  | .loading r =>
    let n := 64 * tileLines r.n r.afmt r.wfmt
    if c.stopped || s.coreHeld k r.pos [(r.off, n)] [] false then .next s
    else
      match s.csRead k r.off n with
      | (none, s1) => .next s1
      | (some d, s1) =>
        if d.poison then
          .next ((s1.updCore k TCore.nextStage).deferExc k { code := 9, pc := r.pc, w := r.w, addr := r.off })
        else
          .next (s1.updCore k fun x => { x with
            staging := .staged { n := r.n, afmt := r.afmt, wfmt := r.wfmt, img := d.data } })
  | _ => .next s

/-! ### MMA at issue (R428–R430) -/

/-- Output formats of FIN (R398). -/
def finFmt (f : Nat) : Bool := [0x00, 0x01, 0x02, 0x03, 0x04, 0x08, 0x10, 0x11].contains f

/-- Anchor modes open to a pair (R91): exact only for two non-MX formats of 8 bits or fewer. -/
def modeOpen (amode a w : Nat) : Bool :=
  amode != 0 || (!isMx a && !isMx w && decide (elemBits a ≤ 8 ∧ elemBits w ≤ 8))

/-- The checks of R430 in order, for an MMA whose tile is known: an exception and its address. -/
def MmaReq.check (q : MmaReq) : Option (Nat × Nat) :=
  let kt := q.shape.1
  let overs := fun (xs : List (Nat × Nat)) => xs.find? fun r => decide (mib < r.1 + r.2)
  let usesX := q.fin || q.start == 2
  if 63 < q.m - 1 + q.j0 ∨ kt < q.k ∨ q.tileN < q.n then some (2, 0)
  else if !modeOpen q.amode q.afmt q.wfmt || (q.fin && !finFmt q.ofmt) then some (3, 0)
  else if q.abase % 64 ≠ 0 then some (4, q.abase)
  else if usesX ∧ q.obase % 64 ≠ 0 then some (4, q.obase)
  else if (q.fin && q.biasV) = true ∧ q.bias % 4 ≠ 0 then some (4, q.bias)
  else
    match overs (q.aRows ++ q.scales ++ q.biases ++ q.outs ++ q.absorbs) with
    | some r => some (5, r.1)
    | none => none

/-- MMA: checked, and queued for the array. -/
def execMma (core : Fin 1200) (w : BitVec 56) (s : State) : Res :=
  let k := core.val
  s.mSlot k 0x11 w [(55, 50), (49, 45), (44, 37), (36, 31), (30, 29), (28, 28), (27, 27), (26, 25), (24, 20)] fun s =>
    let c := s.tcore k
    let sx := bits w 24 20
    let crest := bits w 27 27 == 1
    let tile := if crest then c.coming.head? else c.cur
    let usesX := bits w 28 28 == 1 || bits w 30 29 == 2
    let sx1 := c.sreg (sx + 1)
    let (n, a, f) := tile.getD (32, 7, 7)
    let q : MmaReq := { w := w, sx := c.sreg sx, sx1 := if usesX then sx1 else 0, tileN := n, afmt := a, wfmt := f
                        pc := c.pc, pos := c.here }
    if bits w 30 29 = 3 ∨ bits w 26 25 = 3 ∨ (usesX = true ∧ bit sx1 63 = true) then .raise 1 0
    else if sx % 2 = 1 then .raise 2 0
    else
      match (if tile.isSome then q.check else none), tile with
      | some e, _ => .raise e.1 e.2
      | none, none => .raise 6 0
      | none, some t =>
        if 4 ≤ c.mq.length then .wait
        else .ok (s.updCore k fun x => { x with
          mq := x.mq ++ [q], coming := if crest then x.coming.tail else x.coming, cur := if crest then some t else x.cur })

/-! ### MMA in the array (R396–R404) -/

/-- e_hi of a format (R93). -/
def eHi : Nat → Int
  | 3 => 8 | 4 => 15 | 5 => 4 | 6 => 2 | 7 => 2 | 8 => 7 | 9 => 3 | _ => 0

/-- L of an MMA's records; in auto mode it is found as chunks come (R91). -/
def MmaReq.lsb (q : MmaReq) : Int :=
  match q.amode with
  | 0 => eHi q.afmt + eHi q.wfmt + 1 - 95
  | 1 => 0
  | _ => q.danchor - 95

/-- A record of a new context is all zeros (R420). -/
def accZero : Acc := { ({} : Acc) with empty := false }

/-- The entries an MMA touches, as (column, row of the MMA). -/
def MmaReq.entries (q : MmaReq) : List (Nat × Nat) :=
  (List.range q.m).flatMap fun m => (List.range q.n).map fun n => (n, m)

/-- The key of a touched entry. -/
def MmaReq.key (q : MmaReq) (x : Nat × Nat) : Nat := 64 * x.1 + q.j0 + x.2

/-- START (R397): the touched entries before the first term, or ACC_MISMATCH. -/
def MmaReq.begun (q : MmaReq) (acc : SMap Acc) (absorb : Nat × Nat → Acc) : Option (SMap Acc) :=
  q.entries.foldl (fun o x =>
    match o with
    | none => none
    | some a =>
      let old := a.get accZero (q.key x)
      match q.start with
      | 0 =>
        if old.mode ≠ q.amode ∨ (q.amode ≠ 1 ∧ old.lsb ≠ q.lsb) then none else some a
      | 1 => some (a.set (q.key x) (Acc.fresh q.amode q.lsb))
      | _ =>
        match (Acc.fresh q.amode q.lsb).merge (absorb x) with
        | .ok r => some (a.set (q.key x) r)
        | .error _ => none) (some acc)

/-- The chunk of row m against column n (R392): lanes from K on are masked. -/
def MmaReq.chunk (q : MmaReq) (t : Tile) (row scales : List Byte) (n : Nat) : List Term :=
  (List.range q.k).map fun i => Term.ofProduct (elemAt q.afmt row scales i) (t.weight n i)

/-- Add row m's chunks to its entries; none where one would exceed the limit of R98. -/
def MmaReq.addRow (q : MmaReq) (t : Tile) (acc : SMap Acc) (m : Nat) (row scales : List Byte) : Option (SMap Acc) :=
  (List.range q.n).foldl (fun o n =>
    match o with
    | none => none
    | some a =>
      match (a.get accZero (q.key (n, m))).addChunk (q.chunk t row scales n) with
      | none => none
      | some r => some (a.set (q.key (n, m)) r)) (some acc)

/-- Add rows from m on: the records, and whether a row exceeded the limit. -/
def MmaReq.addRows (q : MmaReq) (t : Tile) (row scales : Nat → List Byte) : List Nat → SMap Acc → SMap Acc × Bool
  | [], acc => (acc, false)
  | m :: ms, acc =>
    match q.addRow t acc m (row m) (scales m) with
    | none => (acc, true)
    | some a => q.addRows t row scales ms a

/-- An output of FIN (R398, R404): its bytes and flags, and whether it was formed from no terms. -/
def MmaReq.out (q : MmaReq) (bare : Bool) (a : Acc) (bias : Option W32) : List Byte × ArithFlags :=
  let b : FVal := match bias with | some x => dec32 x | none => .fin false 0 0
  if q.ofmt = 0x11 then
    (a.bytes, { inx := a.stk, inv := a.inv || (a.pinf && a.ninf), aov := a.aov })
  else
    let sz := outElemBytes q.ofmt
    let c := if bare then convVal q.ofmt q.rm q.sat b
      else ({ a with count := max 1 a.count }).output q.ofmt q.rm q.sat 1 (some b)
    (leBytes sz c.bits, c.flags)

/-- Every output row: offset and bytes, and the flags of all outputs. -/
def MmaReq.outputs (q : MmaReq) (bare : List Nat) (acc : SMap Acc) (bias : List Byte) : List (Nat × List Byte) × ArithFlags :=
  let one := fun (m n : Nat) =>
    q.out (bare.contains (q.key (n, m))) (acc.get accZero (q.key (n, m)))
      (if q.biasV then some (BitVec.ofNat 32 (leAt bias (4 * n) 4)) else none)
  ((List.range q.m).map fun m => (q.oRow m, (List.range q.n).flatMap fun n => (one m n).1),
   (q.entries.map fun x => (one x.2 x.1).2).foldl ArithFlags.or {})

/-- Handshakes an MMA holds the array: p × M × r (R396). -/
def State.mmaShakes (s : State) (k : Nat) (q : MmaReq) : Nat :=
  let w := s.coreWidth k
  (q.n + w - 1) / w * q.m * q.shape.2.1

/-- Bytes read for an MMA, all together. -/
def State.mmaRead (s : State) (k : Nat) (xs : List (Nat × Nat)) : Rd :=
  xs.foldl (fun r x =>
    let d := s.readDA (coreStoreDA k x.1) x.2
    { data := r.data ++ d.data, poison := r.poison || d.poison, unmapped := false }) {}

/-- The MMA at the head of the queue runs on its tile (R397–R404): the accumulator file at once, its outputs when it
completes. -/
def State.mmaRun (s : State) (k : Nat) (q : MmaReq) (t : Tile) : State :=
  let exc := fun (st : State) (code addr : Nat) =>
    st.deferExc k { code := code, pc := q.pc, w := wordOf 0x11 q.w, addr := addr }
  let rows := s.mmaRead k q.aRows
  let scs := s.mmaRead k q.scales
  let bias := s.mmaRead k q.biases
  let abs := s.mmaRead k q.absorbs
  if rows.poison || scs.poison || bias.poison || abs.poison then
    exc s 9 (((q.touch.reads.find? fun x => (s.readDA (coreStoreDA k x.1) x.2).poison).getD (0, 0)).1)
  else
    let rb := 64 * q.shape.2.1
    let sb := q.shape.1 / 32
    let row := fun (m : Nat) => (rows.data.drop (rb * m)).take rb
    let sc := fun (m : Nat) => (scs.data.drop (sb * m)).take sb
    let absorb := fun (x : Nat × Nat) => Acc.ofBytes ((abs.data.drop (32 * q.n * x.2 + 32 * x.1)).take 32)
    match q.begun (s.tcore k).acc absorb with
    | none => exc s 7 0
    | some a0 =>
      let keys := q.entries.map q.key
      let bare0 := match q.start with
        | 1 => keys.foldl setInsert (s.tcore k).bare
        | 2 => (s.tcore k).bare.filter fun x => !keys.contains x
        | _ => (s.tcore k).bare
      let (a1, lim) := if q.k = 0 then (a0, false) else q.addRows t row sc (List.range q.m) a0
      let bare := if q.k = 0 then bare0 else bare0.filter fun x => !keys.contains x
      let (outs, fl) := if q.fin && !lim then q.outputs bare a1 bias.data else ([], {})
      let k0 := q.fin && !lim && keys.any bare.contains
      let s1 := s.updCore k fun c => { c with
        acc := a1, bare := bare, acnt := c.acnt + s.mmaShakes k q
        run := if lim then none else some { req := q, writes := outs, flags := fl.bits, k0 := k0 } }
      if lim then exc s1 8 0 else s1

/-- MMA_START (R450): the MMA leaves the queue for the free array; with CREST it takes the staged tile, and the array
waits where staging has not completed, counting bubbles. -/
def execMmaStart (core : Fin 1200) (s : State) : Res :=
  let k := core.val
  let c := s.tcore k
  match c.mq with
  | [] => .next s
  | q :: rest =>
    let t := q.touch
    if c.run.isSome || (c.stopped && c.exc.v == false) || s.coreHeld k q.pos t.reads t.writes (q.fin) then .next s
    else if s.injFires 7 k then .next (s.injDone.coreMismatch k 0x0304)
    else
      let pop := fun (st : State) => st.updCore k fun x => { x with mq := rest }
      if q.crest then
        match c.staging with
        | .staged tile => .next ((pop (s.updCore k fun x => { x.nextStage with active := some tile })).mmaRun k q tile)
        | _ =>
          let (n, s1) := s.drawFree 32
          .next (s1.updCore k fun x => { x with bubl := x.bubl + n.toNat })
      else
        match c.active with
        | some tile => .next ((pop s).mmaRun k q tile)
        | none => .next s

/-- MMA_COMPLETE (R398, R450): the outputs are written and their flags join CORE_STS. -/
def execMmaComplete (core : Fin 1200) (s : State) : Res :=
  let k := core.val
  match (s.tcore k).run with
  | none => .next s
  | some r =>
    let s1 := r.writes.foldl (fun st x => st.csWrite k x.1 x.2) s
    .next (s1.updCore k fun c => { c with
      run := none, flags := c.flags ||| BitVec.ofNat 6 r.flags, k0 := c.k0 || r.k0 })

end Sys2Proof.Machine
end

