-- ==== Sys2Proof/Machine/Vector.lean ====
section
/-! DEFINITION. The V slot: vector arithmetic, compares, reductions, predicates, and loads and stores (R104–R108,
R408, R431–R435). -/
namespace Sys2Proof.Machine
open Sys2Proof

/-! ### Fields (R431) -/

def fVD : Nat × Nat := (55, 51)
def fVA : Nat × Nat := (50, 46)
def fVB : Nat × Nat := (45, 41)
def fVC : Nat × Nat := (40, 36)
def fPG : Nat × Nat := (35, 33)
def fPD : Nat × Nat := (32, 30)
def fRM : Nat × Nat := (29, 28)
def fSUB : Nat × Nat := (27, 22)

def vSub (w : BitVec 56) : Nat := bits w 27 22
def vRm (w : BitVec 56) : Rm := Rm.ofCode (bits w 29 28)

/-- Write lanes of VD, with the flags of each. -/
def TCore.putLanes (c : TCore) (vd : Nat) (active : Nat → Bool) (f : Nat → F32) : TCore :=
  (List.range 64).foldl (fun c i =>
    if active i then (c.setV vd i (f i).bits).orFlags (f i).flags else c) c

/-- A lane is active when its bit in PG is 1 (R432). -/
def TCore.laneOn (c : TCore) (w : BitVec 56) (i : Nat) : Bool := (c.preg (bits w 35 33)).getLsbD i

/-! ### VOP (R433) -/

/-- The vector sources an operation reads. -/
def vopSources (sub : Nat) : List (Nat × Nat) :=
  if sub = 3 then [fVA, fVB, fVC]
  else if sub ≤ 4 ∨ sub = 0x0C ∨ sub = 0x0D then [fVA, fVB]
  else [fVA]

/-- The result of VOP on one lane; none for a reserved SUB. -/
def vopLane (sub : Nat) (rm : Rm) (a b c : W32) : Option F32 :=
  match sub with
  | 0x00 => some (fAdd rm a b)
  | 0x01 => some (fSub rm a b)
  | 0x02 => some (fMul rm a b)
  | 0x03 => some (fFma rm a b c)
  | 0x04 => some (fDiv rm a b)
  | 0x05 => some (fSqrt rm a)
  | 0x06 => some (fRecip rm a)
  | 0x07 => some (fRsqrt rm a)
  | 0x08 => some (fExp rm a)
  | 0x09 => some (fLog rm a)
  | 0x0A => some (fSigmoid rm a)
  | 0x0B => some (fTanh rm a)
  | 0x0C => some { bits := fMin a b }
  | 0x0D => some { bits := fMax a b }
  | 0x0E => some { bits := if (dec32 a).isNan then nan32 else a &&& 0x7FFFFFFF }
  | 0x0F => some { bits := if (dec32 a).isNan then nan32 else a ^^^ 0x80000000 }
  | 0x10 => some { bits := a }
  | _ => none

/-- Operations that the residue check covers (R805): additions and multiplications. -/
def residueChecked (sub : Nat) : Bool := decide (sub ≤ 3)

/-- VOP. -/
def execVop (core : Fin 1200) (w : BitVec 56) (s : State) : Res :=
  let k := core.val
  s.vSlot k 0x81 w ([fVD, fPG, fRM, fSUB] ++ vopSources (vSub w)) fun s =>
    if 0x10 < vSub w then .raise 1 0
    else if residueChecked (vSub w) && s.injFires 7 k then .ok (s.injDone.coreMismatch k 0x0304)
    else
      let c := s.tcore k
      let f := fun (i : Nat) => (vopLane (vSub w) (vRm w) (c.vlane (bits w 50 46) i) (c.vlane (bits w 45 41) i)
        (c.vlane (bits w 40 36) i)).getD f32Nan
      .ok (s.updCore k fun c => c.putLanes (bits w 55 51) (c.laneOn w) f)

/-! ### Compare, select, predicates (R433) -/

/-- A predicate from a test of each lane. -/
def lanesOf (f : Nat → Bool) : W64 :=
  BitVec.ofNat 64 (((List.range 64).map fun i => if f i then 2 ^ i else 0).sum)

/-- A relation of VCMP, and whether it is invalid. -/
def vcmpLane (sub : Nat) (a b : W32) : Bool × Bool :=
  let r := fCmp a b
  match sub with
  | 0 => (r == .eq, false)
  | 1 => (r == .lt, r == .un)
  | 2 => (r == .lt || r == .eq, r == .un)
  | _ => (r == .un, false)

/-- VCMP. -/
def execVcmp (core : Fin 1200) (w : BitVec 56) (s : State) : Res :=
  let k := core.val
  s.vSlot k 0x82 w [fVA, fVB, fPG, fPD, fSUB] fun s =>
    if 3 < vSub w then .raise 1 0
    else
      let c := s.tcore k
      let r := fun (i : Nat) => vcmpLane (vSub w) (c.vlane (bits w 50 46) i) (c.vlane (bits w 45 41) i)
      let inv := (List.range 64).any fun i => c.laneOn w i && (r i).2
      .ok (s.updCore k fun c =>
        (c.setP (bits w 32 30) (lanesOf fun i => c.laneOn w i && (r i).1)).orFlags { inv := inv })

/-- VSEL. -/
def execVsel (core : Fin 1200) (w : BitVec 56) (s : State) : Res :=
  let k := core.val
  s.vSlot k 0x83 w [fVD, fVA, fVB, fPG, fSUB] fun s =>
    if vSub w ≠ 0 then .raise 1 0
    else
      let c := s.tcore k
      let f := fun (i : Nat) =>
        ({ bits := if c.laneOn w i then c.vlane (bits w 50 46) i else c.vlane (bits w 45 41) i } : F32)
      .ok (s.updCore k fun c => c.putLanes (bits w 55 51) (fun _ => true) f)

/-- VBC and VIOTA. -/
def execVbc (core : Fin 1200) (w : BitVec 56) (s : State) : Res :=
  let k := core.val
  s.vSlot k 0x85 w ([fVD, fPG, fSUB] ++ (if vSub w = 0 then [fVA] else [])) fun s =>
    if 1 < vSub w then .raise 1 0
    else
      let c := s.tcore k
      let f := fun (i : Nat) =>
        if vSub w = 0 then ({ bits := (c.sregV (bits w 50 46)).setWidth 32 } : F32) else f32Rat .rne false i 1 0
      .ok (s.updCore k fun c => c.putLanes (bits w 55 51) (c.laneOn w) f)

/-- PLOG. -/
def execPlog (core : Fin 1200) (w : BitVec 56) (s : State) : Res :=
  let k := core.val
  s.vSlot k 0x86 w [(48, 46), (43, 41), fPD, fSUB] fun s =>
    let c := s.tcore k
    let a := c.preg (bits w 48 46)
    let b := c.preg (bits w 43 41)
    match vSub w with
    | 0 => .ok (s.updCore k fun c => c.setP (bits w 32 30) (a &&& b))
    | 1 => .ok (s.updCore k fun c => c.setP (bits w 32 30) (a ||| b))
    | 2 => .ok (s.updCore k fun c => c.setP (bits w 32 30) (a ^^^ b))
    | 3 => .ok (s.updCore k fun c => c.setP (bits w 32 30) (a &&& ~~~b))
    | _ => .raise 1 0

/-! ### Reductions (R107, R433) -/

/-- The anchored sum of terms in auto mode, rounded once; no term gives +0. -/
def redSum (rm : Rm) (xs : List W32) : F32 :=
  if xs.isEmpty then f32Zero false
  else
    match (Acc.fresh 1 0).addChunk (xs.map fun x => Term.ofVal (dec32 x)) with
    | none => f32Nan
    | some a => let c := a.output 0 rm false 1 none; { bits := BitVec.ofNat 32 c.bits, flags := c.flags }

/-- The largest or smallest by exact comparison; none of the inputs gives nothing. -/
def redPick (max : Bool) : List W32 → Option W32
  | [] => none
  | x :: xs =>
    match redPick max xs with
    | none => some (canon32 x)
    | some y => some (if max then fMax x y else fMin x y)

/-- VRED. MAXL and MINL with no active lane have no stated result in lane 0: a free value. -/
def execVred (core : Fin 1200) (w : BitVec 56) (s : State) : Res :=
  let k := core.val
  s.vSlot k 0x84 w [fVD, fVA, fVC, fPG, fRM, fSUB] fun s =>
    let va := bits w 50 46
    let n := bits w 40 36 + 1
    let sub := vSub w
    if 5 < sub then .raise 1 0
    else if 31 < va + n - 1 then .raise 2 0
    else if decide (sub ≤ 1) && s.injFires 7 k then .ok (s.injDone.coreMismatch k 0x0304)
    else
      let c := s.tcore k
      let col := fun (i : Nat) => (List.range n).map fun j => c.vlane (va + j) i
      let all := ((List.range 64).filter (c.laneOn w)).flatMap col
      let one : List W32 → F32 := fun xs =>
        if sub ≤ 1 then redSum (vRm w) xs else { bits := (redPick (decide (sub ≤ 3)) xs).getD 0 }
      if sub % 2 = 0 then .ok (s.updCore k fun c => c.putLanes (bits w 55 51) (c.laneOn w) fun i => one (col i))
      else
        let (x, s1) := if 2 ≤ sub ∧ all.isEmpty then
            let (b, s1) := s.drawFree 32
            (({ bits := b } : F32), s1)
          else (one all, s)
        .ok (s1.updCore k fun c => c.putLanes (bits w 55 51) (fun _ => true) fun i => if i = 0 then x else f32Zero false)

/-! ### LDS and STS (R434, R435) -/

/-- Formats of LDS, and of STS. -/
def ldsFmt (f : Nat) : Bool := [0, 1, 2, 3, 4, 7, 8, 9].contains f
def stsFmt (f : Nat) : Bool := ldsFmt f || f == 0x10 || isMx f

/-- Bytes of an access, and its alignment. -/
def vecBytes (f : Nat) : Nat := 8 * elemBits f
def vecAlign (f : Nat) : Nat := if elemBits f = 6 then 64 else vecBytes f

/-- Byte ranges of active lanes. -/
def laneRanges (f off : Nat) (active : Nat → Bool) : List (Nat × Nat) :=
  ((List.range 64).filter active).map fun i => (off + elemBits f * i / 8, (elemBits f + 7) / 8)

/-- LDS. -/
def execLds (core : Fin 1200) (w : BitVec 56) (s : State) : Res :=
  let k := core.val
  s.vSlot k 0x88 w [fVD, fVA, fVC, fPG, (19, 0)] fun s =>
    let c := s.tcore k
    let f := bits w 40 36
    let off := csAddr (c.sregV (bits w 50 46)) (sbits w 19 0)
    if !ldsFmt f then .raise 3 0
    else
      match csCheck off (vecBytes f) (vecAlign f) with
      | some e => .raise e.1 e.2
      | none =>
        let rs := laneRanges f off (c.laneOn w)
        if s.coreHeld k c.here rs [] false then .wait
        else
          match s.csRead k off (vecBytes f) with
          | (none, s1) => .ok s1
          | (some r, s1) =>
            match rs.find? fun x => (s1.readDA (coreStoreDA k x.1) x.2).poison with
            | some x => .ok (s1.deferExc k { code := 9, pc := c.pc, w := wordOf 0x88 w, addr := x.1 })
            | none =>
              let lane := fun (i : Nat) =>
                let b := packedElem (elemBits f) r.data i
                if f = 0 then ({ bits := BitVec.ofNat 32 b } : F32)
                else ({ bits := (f32Val .rne (decodeElem f b)).bits } : F32)
              .ok (s1.updCore k fun c => c.putLanes (bits w 55 51) (c.laneOn w) lane)

/-- Put element j into packed bytes. -/
def packElem (bitsPer : Nat) (bs : List Byte) (j x : Nat) : List Byte :=
  match bitsPer with
  | 4 =>
    let o := (listGet 0 bs (j / 2)).toNat
    listSet bs (j / 2) (BitVec.ofNat 8 (if j % 2 = 0 then o / 16 * 16 + x % 16 else o % 16 + 16 * (x % 16)))
  | 6 =>
    let o := leAt bs (j / 4 * 3) 3
    let g := o - o / 64 ^ (j % 4) % 64 * 64 ^ (j % 4) + x % 64 * 64 ^ (j % 4)
    bs.take (j / 4 * 3) ++ leBytes 3 g ++ bs.drop (j / 4 * 3 + 3)
  | n => bs.take (n / 8 * j) ++ leBytes (n / 8) x ++ bs.drop (n / 8 * (j + 1))

def packAll (bitsPer : Nat) (bs : List Byte) (xs : List (Nat × Nat)) : List Byte :=
  xs.foldl (fun b x => packElem bitsPer b x.1 x.2) bs

/-- STS. -/
def execSts (core : Fin 1200) (w : BitVec 56) (s : State) : Res :=
  let k := core.val
  let f := bits w 40 36
  s.vSlot k 0x89 w ([fVD, fVA, fVC, fPG, (32, 32), (31, 30), (19, 0)] ++ (if isMx f then [fVB] else [])) fun s =>
    let c := s.tcore k
    let off := csAddr (c.sregV (bits w 50 46)) (sbits w 19 0)
    let rm := Rm.ofCode (bits w 31 30)
    let sat := bits w 32 32 == 1
    let sc := (c.sregV (bits w 45 41)).toNat
    let whole := isMx f || decide (elemBits f < 8)
    if stsFmt f && whole && bits w 35 33 != 0 then .raise 2 0
    else if !stsFmt f then .raise 3 0
    else
      match csCheck off (vecBytes f) (vecAlign f) with
      | some e => .raise e.1 e.2
      | none =>
        if isMx f ∧ mib < sc + 2 then .raise 5 sc
        else
          let rs := laneRanges f off (c.laneOn w) ++ (if isMx f then [(sc, 2)] else [])
          if s.coreHeld k c.here [] rs true then .wait
          else
            let v := fun (i : Nat) => dec32 (c.vlane (bits w 55 51) i)
            let half := fun (h : Nat) => quantBlock f rm ((List.range 32).map fun i => v (32 * h + i))
            if isMx f then
              let (x0, e0, f0) := half 0
              let (x1, e1, f1) := half 1
              let bs := packAll (elemBits f) (List.replicate (vecBytes f) 0) ((e0 ++ e1).zipIdx.map fun y => (y.2, y.1))
              .ok (((s.csWrite k off bs).csWrite k sc [BitVec.ofNat 8 x0, BitVec.ofNat 8 x1]).updCore k fun c =>
                c.orFlags (f0.or f1))
            else
              let lanes := (List.range 64).filter (c.laneOn w)
              let cv := fun (i : Nat) => convVal f rm sat (v i)
              let fl := lanes.foldl (fun a i => a.or (cv i).flags) {}
              let s1 :=
                if elemBits f = 4 then
                  s.csWrite k off (packAll 4 (List.replicate 32 0) (lanes.map fun i => (i, (cv i).bits)))
                else lanes.foldl (fun st i => st.csWrite k (off + elemBits f / 8 * i) (leBytes (elemBits f / 8) (cv i).bits)) s
              .ok (s1.updCore k fun c => c.orFlags fl)

end Sys2Proof.Machine
end

