-- ==== Sys2Proof/Machine/Dispatch.lean ====
section
/-! DEFINITION. One arm per command, each a direct call of its meaning. -/
namespace Sys2Proof.Machine
open Sys2Proof

def exec (i : Instr) (s : State) : Host.Outcome State Fault Refusal :=
  match i with
  | .por boot clk pair test => Sys2Proof.Machine.execPor boot clk pair test s
  | .perstNAssert => Sys2Proof.Machine.execPerstNAssert s
  | .perstNDeassert => Sys2Proof.Machine.execPerstNDeassert s
  | .jtagReset => Sys2Proof.Machine.execJtagReset s
  | .stewardResetRequest => Sys2Proof.Machine.execStewardResetRequest s
  | .bootImageReceived src data readError => Sys2Proof.Machine.execBootImageReceived src data readError s
  | .bootImageAbsentTimeout => Sys2Proof.Machine.execBootImageAbsentTimeout s
  | .rstcHloadGo p v => Sys2Proof.Machine.execRstcHloadGo p v s
  | .hbmTrainingComplete bad => Sys2Proof.Machine.execHbmTrainingComplete bad s
  | .zeroFillComplete => Sys2Proof.Machine.execZeroFillComplete s
  | .startupReady => Sys2Proof.Machine.execStartupReady s
  | .startupTimeout => Sys2Proof.Machine.execStartupTimeout s
  | .thermalTrip => Sys2Proof.Machine.execThermalTrip s
  | .thermalRearm => Sys2Proof.Machine.execThermalRearm s
  | .vbakLoss => Sys2Proof.Machine.execVbakLoss s
  | .vddCoreUndervolt => Sys2Proof.Machine.execVddCoreUndervolt s
  | .railFault rail latched addr page status => Sys2Proof.Machine.execRailFault rail latched addr page status s
  | .auxRailLoss => Sys2Proof.Machine.execAuxRailLoss s
  | .auxRailReturn => Sys2Proof.Machine.execAuxRailReturn s
  | .mainRailsReturn => Sys2Proof.Machine.execMainRailsReturn s
  | .pmAlert addr page status answered => Sys2Proof.Machine.execPmAlert addr page status answered s
  | .blockIdleAck block => Sys2Proof.Machine.execBlockIdleAck block s
  | .rstcIdleTimeoutExpiry block => Sys2Proof.Machine.execRstcIdleTimeoutExpiry block s
  | .dieRelease die => Sys2Proof.Machine.execDieRelease die s
  | .refClockLoss => Sys2Proof.Machine.execRefClockLoss s
  | .pllRelock => Sys2Proof.Machine.execPllRelock s
  | .hubTimeStep p v => Sys2Proof.Machine.execHubTimeStep p v s
  | .pairStepTime => Sys2Proof.Machine.execPairStepTime s
  | .timeMessageSend => Sys2Proof.Machine.execTimeMessageSend s
  | .timeMessage peerTime oneWay step lock => Sys2Proof.Machine.execTimeMessage peerTime oneWay step lock s
  | .pairLockLoss => Sys2Proof.Machine.execPairLockLoss s
  | .loReadLatch p off size => Sys2Proof.Machine.execLoReadLatch p off size s
  | .paceSample die monitors => Sys2Proof.Machine.execPaceSample die monitors s
  | .ageingUpdate die pace temp days => Sys2Proof.Machine.execAgeingUpdate die pace temp days s
  | .pwrPaceMinWrite p die => Sys2Proof.Machine.execPwrPaceMinWrite p die s
  | .pStateRequest p v => Sys2Proof.Machine.execPStateRequest p v s
  | .rampComplete => Sys2Proof.Machine.execRampComplete s
  | .powerCapSample power => Sys2Proof.Machine.execPowerCapSample power s
  | .d0IdleRequest p v => Sys2Proof.Machine.execD0IdleRequest p v s
  | .pmcsrD3hot => Sys2Proof.Machine.execPmcsrD3hot s
  | .pmcsrD0 => Sys2Proof.Machine.execPmcsrD0 s
  | .hbmReadRequest stack ch pc addr sectors demand => Sys2Proof.Machine.execHbmReadRequest stack ch pc addr sectors demand s
  | .hbmWriteRequest stack ch pc addr data poison => Sys2Proof.Machine.execHbmWriteRequest stack ch pc addr data poison s
  | .hbmReadComplete stack ch pc errors ode => Sys2Proof.Machine.execHbmReadComplete stack ch pc errors ode s
  | .sectorRereadComplete stack ch pc errors ode => Sys2Proof.Machine.execSectorRereadComplete stack ch pc errors ode s
  | .driftLockLoss stack ch pc lane => Sys2Proof.Machine.execDriftLockLoss stack ch pc lane s
  | .driftTrackingSlot stack ch pc => Sys2Proof.Machine.execDriftTrackingSlot stack ch pc s
  | .dramRefresh stack ch => Sys2Proof.Machine.execDramRefresh stack ch s
  | .calibrationWindow stack ch checkA checkB => Sys2Proof.Machine.execCalibrationWindow stack ch checkA checkB s
  | .sweepComplete stack ch => Sys2Proof.Machine.execSweepComplete stack ch s
  | .evacuationBlockCopied stack ch pc block toPc toBlock => Sys2Proof.Machine.execEvacuationBlockCopied stack ch pc block toPc toBlock s
  | .evacuationComplete stack ch => Sys2Proof.Machine.execEvacuationComplete stack ch s
  | .patrolScrubRead stack ch errors ode => Sys2Proof.Machine.execPatrolScrubRead stack ch errors ode s
  | .hubRegionAWrite p n v => Sys2Proof.Machine.execHubRegionAWrite p n v s
  | .cbkInstall c => Sys2Proof.Machine.execCbkInstall c s
  | .cbkClear c => Sys2Proof.Machine.execCbkClear c s
  | .cbkRead c => Sys2Proof.Machine.execCbkRead c s
  | .census c => Sys2Proof.Machine.execCensus c s
  | .tblCreate c => Sys2Proof.Machine.execTblCreate c s
  | .tblLoad c => Sys2Proof.Machine.execTblLoad c s
  | .tblSeal c => Sys2Proof.Machine.execTblSeal c s
  | .tblRetire c => Sys2Proof.Machine.execTblRetire c s
  | .tblDrainDone t => Sys2Proof.Machine.execTblDrainDone t s
  | .tblRetireTimeout t => Sys2Proof.Machine.execTblRetireTimeout t s
  | .tblCtrz c => Sys2Proof.Machine.execTblCtrz c s
  | .tblFlip c => Sys2Proof.Machine.execTblFlip c s
  | .hubTdaLoWrite p v => Sys2Proof.Machine.execHubTdaLoWrite p v s
  | .hubBdCtlWrite p v => Sys2Proof.Machine.execHubBdCtlWrite p v s
  | .bsnFill c => Sys2Proof.Machine.execBsnFill c s
  | .bsnDrop c => Sys2Proof.Machine.execBsnDrop c s
  | .bsnDropSettled n => Sys2Proof.Machine.execBsnDropSettled n s
  | .ftnAdd c => Sys2Proof.Machine.execFtnAdd c s
  | .ftnDrop c => Sys2Proof.Machine.execFtnDrop c s
  | .bktMove c => Sys2Proof.Machine.execBktMove c s
  | .bktMoveCopyDone bucket => Sys2Proof.Machine.execBktMoveCopyDone bucket s
  | .heatOn c => Sys2Proof.Machine.execHeatOn c s
  | .heatOff c => Sys2Proof.Machine.execHeatOff c s
  | .heatRead c => Sys2Proof.Machine.execHeatRead c s
  | .heatSample n => Sys2Proof.Machine.execHeatSample n s
  | .decayTick => Sys2Proof.Machine.execDecayTick s
  | .fillRowArrival n => Sys2Proof.Machine.execFillRowArrival n s
  | .markerRoundComplete kind n => Sys2Proof.Machine.execMarkerRoundComplete kind n s
  | .stackRowRequest stack n => Sys2Proof.Machine.execStackRowRequest stack n s
  | .rsvDeclare c => Sys2Proof.Machine.execRsvDeclare c s
  | .rsvRelease c => Sys2Proof.Machine.execRsvRelease c s
  | .reservoirReadResponse n outcome => Sys2Proof.Machine.execReservoirReadResponse n outcome s
  | .aqFormat c => Sys2Proof.Machine.execAqFormat c s
  | .aqMount c failed => Sys2Proof.Machine.execAqMount c failed s
  | .aqSync c => Sys2Proof.Machine.execAqSync c s
  | .aqExtCreate c => Sys2Proof.Machine.execAqExtCreate c s
  | .aqExtFree c => Sys2Proof.Machine.execAqExtFree c s
  | .aqAdopt c => Sys2Proof.Machine.execAqAdopt c s
  | .aqSlotOff c => Sys2Proof.Machine.execAqSlotOff c s
  | .nvmeCompletion n status => Sys2Proof.Machine.execNvmeCompletion n status s
  | .nvmeIoTimeout n => Sys2Proof.Machine.execNvmeIoTimeout n s
  | .nvmeControllerReset slot => Sys2Proof.Machine.execNvmeControllerReset slot s
  | .aqDriveInsert slot serial lbas awun => Sys2Proof.Machine.execAqDriveInsert slot serial lbas awun s
  | .aqDriveIdentified slot speed width supported => Sys2Proof.Machine.execAqDriveIdentified slot speed width supported s
  | .aqSurpriseRemoval slot present => Sys2Proof.Machine.execAqSurpriseRemoval slot present s
  | .aqLinkLoss slot retrained => Sys2Proof.Machine.execAqLinkLoss slot retrained s
  | .nvmeAsyncEvent slot pct spare crit days => Sys2Proof.Machine.execNvmeAsyncEvent slot pct spare crit days s
  | .smartPoll slot pct spare crit days => Sys2Proof.Machine.execSmartPoll slot pct spare crit days s
  | .tailWrite ordinal => Sys2Proof.Machine.execTailWrite ordinal s
  | .tailTimerExpiry ordinal => Sys2Proof.Machine.execTailTimerExpiry ordinal s
  | .compaction ordinal => Sys2Proof.Machine.execCompaction ordinal s
  | .lateTime n => Sys2Proof.Machine.execLateTime n s
  | .lkup core w => Sys2Proof.Machine.execLkup core w s
  | .dispatcherBag cluster n => Sys2Proof.Machine.execDispatcherBag cluster n s
  | .luRowArrival stack n => Sys2Proof.Machine.execLuRowArrival stack n s
  | .partialArrival core n => Sys2Proof.Machine.execPartialArrival core n s
  | .updBatch c => Sys2Proof.Machine.execUpdBatch c s
  | .updateRecord n => Sys2Proof.Machine.execUpdateRecord n s
  | .updateReadComplete n => Sys2Proof.Machine.execUpdateReadComplete n s
  | .journalSpaceFreed stack => Sys2Proof.Machine.execJournalSpaceFreed stack s
  | .batchComplete n => Sys2Proof.Machine.execBatchComplete n s
  | .flipHoldDrained n => Sys2Proof.Machine.execFlipHoldDrained n s
  | .epochTimer => Sys2Proof.Machine.execEpochTimer s
  | .updEpoch c => Sys2Proof.Machine.execUpdEpoch c s
  | .epochMarkerReached unit => Sys2Proof.Machine.execEpochMarkerReached unit s
  | .dgstRebuild c => Sys2Proof.Machine.execDgstRebuild c s
  | .hubUpdCtlWrite p v => Sys2Proof.Machine.execHubUpdCtlWrite p v s
  | .hubDgsWrite p v => Sys2Proof.Machine.execHubDgsWrite p v s
  | .uuJnlWrite p stack v => Sys2Proof.Machine.execUuJnlWrite p stack v s
  | .coreNop core v => Sys2Proof.Machine.execCoreNop core v s
  | .coreEnd core w => Sys2Proof.Machine.execCoreEnd core w s
  | .hold core w => Sys2Proof.Machine.execHold core w s
  | .sop core w => Sys2Proof.Machine.execSop core w s
  | .sopi core w => Sys2Proof.Machine.execSopi core w s
  | .sli core w => Sys2Proof.Machine.execSli core w s
  | .br core w => Sys2Proof.Machine.execBr core w s
  | .ldsS core w => Sys2Proof.Machine.execLdsS core w s
  | .stsS core w => Sys2Proof.Machine.execStsS core w s
  | .wstg core w => Sys2Proof.Machine.execWstg core w s
  | .wstgStagingComplete core => Sys2Proof.Machine.execWstgStagingComplete core s
  | .mma core w => Sys2Proof.Machine.execMma core w s
  | .mmaStart core => Sys2Proof.Machine.execMmaStart core s
  | .mmaComplete core => Sys2Proof.Machine.execMmaComplete core s
  | .pull core w => Sys2Proof.Machine.execPull core w s
  | .push core w => Sys2Proof.Machine.execPush core w s
  | .transferBlock core ch => Sys2Proof.Machine.execTransferBlock core ch s
  | .transferComplete core ch => Sys2Proof.Machine.execTransferComplete core ch s
  | .cwtWait core w => Sys2Proof.Machine.execCwtWait core w s
  | .cwtRead core w => Sys2Proof.Machine.execCwtRead core w s
  | .slw core w => Sys2Proof.Machine.execSlw core w s
  | .sls core w => Sys2Proof.Machine.execSls core w s
  | .sluiceSignalArrival n => Sys2Proof.Machine.execSluiceSignalArrival n s
  | .fncA core w => Sys2Proof.Machine.execFncA core w s
  | .fncR core w => Sys2Proof.Machine.execFncR core w s
  | .fncF core w => Sys2Proof.Machine.execFncF core w s
  | .bar core w => Sys2Proof.Machine.execBar core w s
  | .barrierRelease part bid peer => Sys2Proof.Machine.execBarrierRelease part bid peer s
  | .dgst core w => Sys2Proof.Machine.execDgst core w s
  | .vop core w => Sys2Proof.Machine.execVop core w s
  | .vcmp core w => Sys2Proof.Machine.execVcmp core w s
  | .vsel core w => Sys2Proof.Machine.execVsel core w s
  | .vred core w => Sys2Proof.Machine.execVred core w s
  | .vbc core w => Sys2Proof.Machine.execVbc core w s
  | .plog core w => Sys2Proof.Machine.execPlog core w s
  | .lds core w => Sys2Proof.Machine.execLds core w s
  | .sts core w => Sys2Proof.Machine.execSts core w s
  | .fetchLine core => Sys2Proof.Machine.execFetchLine core s
  | .coreDeferredException core => Sys2Proof.Machine.execCoreDeferredException core s
  | .taskReg c => Sys2Proof.Machine.execTaskReg c s
  | .taskUnreg c => Sys2Proof.Machine.execTaskUnreg c s
  | .taskRun c => Sys2Proof.Machine.execTaskRun c s
  | .taskPlace q => Sys2Proof.Machine.execTaskPlace q s
  | .taskStop c => Sys2Proof.Machine.execTaskStop c s
  | .taskQuantum pair => Sys2Proof.Machine.execTaskQuantum pair s
  | .ccNop pair => Sys2Proof.Machine.execCcNop pair s
  | .alu pair w => Sys2Proof.Machine.execAlu pair w s
  | .addi pair w => Sys2Proof.Machine.execAddi pair w s
  | .andi pair w => Sys2Proof.Machine.execAndi pair w s
  | .ori pair w => Sys2Proof.Machine.execOri pair w s
  | .xori pair w => Sys2Proof.Machine.execXori pair w s
  | .shi pair w => Sys2Proof.Machine.execShi pair w s
  | .movi pair w => Sys2Proof.Machine.execMovi pair w s
  | .movk pair w => Sys2Proof.Machine.execMovk pair w s
  | .ld pair w => Sys2Proof.Machine.execLd pair w s
  | .lw pair w => Sys2Proof.Machine.execLw pair w s
  | .st pair w => Sys2Proof.Machine.execSt pair w s
  | .sw pair w => Sys2Proof.Machine.execSw pair w s
  | .beq pair w => Sys2Proof.Machine.execBeq pair w s
  | .bne pair w => Sys2Proof.Machine.execBne pair w s
  | .blt pair w => Sys2Proof.Machine.execBlt pair w s
  | .bge pair w => Sys2Proof.Machine.execBge pair w s
  | .bltu pair w => Sys2Proof.Machine.execBltu pair w s
  | .bgeu pair w => Sys2Proof.Machine.execBgeu pair w s
  | .jal pair w => Sys2Proof.Machine.execJal pair w s
  | .jr pair w => Sys2Proof.Machine.execJr pair w s
  | .ccTime pair w => Sys2Proof.Machine.execCcTime pair w s
  | .sleep pair w => Sys2Proof.Machine.execSleep pair w s
  | .sleepExpiry pair slot => Sys2Proof.Machine.execSleepExpiry pair slot s
  | .waitq pair w => Sys2Proof.Machine.execWaitq pair w s
  | .waitqDelivery pair slot sel k raw ok => Sys2Proof.Machine.execWaitqDelivery pair slot sel k raw ok s
  | .issue pair w => Sys2Proof.Machine.execIssue pair w s
  | .waiti pair w => Sys2Proof.Machine.execWaiti pair w s
  | .post pair w => Sys2Proof.Machine.execPost pair w s
  | .dmov pair w => Sys2Proof.Machine.execDmov pair w s
  | .upd pair w => Sys2Proof.Machine.execUpd pair w s
  | .seqCreate pair w => Sys2Proof.Machine.execSeqCreate pair w s
  | .seqRead pair w => Sys2Proof.Machine.execSeqRead pair w s
  | .seqRetire pair w => Sys2Proof.Machine.execSeqRetire pair w s
  | .ccFault pair w => Sys2Proof.Machine.execCcFault pair w s
  | .taskEnd pair w => Sys2Proof.Machine.execTaskEnd pair w s
  | .lockstepMismatch pair memory lead check => Sys2Proof.Machine.execLockstepMismatch pair memory lead check s
  | .pairResyncComplete pair pass => Sys2Proof.Machine.execPairResyncComplete pair pass s
  | .worklistArrival wl j => Sys2Proof.Machine.execWorklistArrival wl j s
  | .streamStart cluster n => Sys2Proof.Machine.execStreamStart cluster n s
  | .streamComplete core => Sys2Proof.Machine.execStreamComplete core s
  | .partStart c => Sys2Proof.Machine.execPartStart c s
  | .partStop c => Sys2Proof.Machine.execPartStop c s
  | .partStopTimeout p => Sys2Proof.Machine.execPartStopTimeout p s
  | .partStopped p => Sys2Proof.Machine.execPartStopped p s
  | .partSnap c => Sys2Proof.Machine.execPartSnap c s
  | .snapshotGatherDeadline p => Sys2Proof.Machine.execSnapshotGatherDeadline p s
  | .snapshotComplete p => Sys2Proof.Machine.execSnapshotComplete p s
  | .mdlReg c => Sys2Proof.Machine.execMdlReg c s
  | .mdlAdmit c => Sys2Proof.Machine.execMdlAdmit c s
  | .mdlUnreg c => Sys2Proof.Machine.execMdlUnreg c s
  | .stepForm p => Sys2Proof.Machine.execStepForm p s
  | .stepWaitTimeout p => Sys2Proof.Machine.execStepWaitTimeout p s
  | .sbWorklistComplete p n => Sys2Proof.Machine.execSbWorklistComplete p n s
  | .switchComplete p => Sys2Proof.Machine.execSwitchComplete p s
  | .teardownComplete p => Sys2Proof.Machine.execTeardownComplete p s
  | .sqDb q v => Sys2Proof.Machine.execSqDb q v s
  | .cqDb q v => Sys2Proof.Machine.execCqDb q v s
  | .sqeFetch q raw ok => Sys2Proof.Machine.execSqeFetch q raw ok s
  | .sqeNop c => Sys2Proof.Machine.execSqeNop c s
  | .cqeHoldRelease q => Sys2Proof.Machine.execCqeHoldRelease q s
  | .cqeHoldTimeout q => Sys2Proof.Machine.execCqeHoldTimeout q s
  | .cqCoalesceTimeout q => Sys2Proof.Machine.execCqCoalesceTimeout q s
  | .sqCfgWrite p q v vfOn => Sys2Proof.Machine.execSqCfgWrite p q v vfOn s
  | .queueDrained q => Sys2Proof.Machine.execQueueDrained q s
  | .tokenTimeout pair n => Sys2Proof.Machine.execTokenTimeout pair n s
  | .taskTimeout pair slot => Sys2Proof.Machine.execTaskTimeout pair slot s
  | .taskRunHeadTimeout q => Sys2Proof.Machine.execTaskRunHeadTimeout q s
  | .coreWaitTimeout core => Sys2Proof.Machine.execCoreWaitTimeout core s
  | .taskWaitTimeout pair slot => Sys2Proof.Machine.execTaskWaitTimeout pair slot s
  | .globalTimeoutHiWrite p v => Sys2Proof.Machine.execGlobalTimeoutHiWrite p v s
  | .hostLinkUp speed width cxl => Sys2Proof.Machine.execHostLinkUp speed width cxl s
  | .hostLinkDown => Sys2Proof.Machine.execHostLinkDown s
  | .pfFlr => Sys2Proof.Machine.execPfFlr s
  | .vfFlr vf => Sys2Proof.Machine.execVfFlr vf s
  | .hdmDecoderCommit dec commit size oneWay => Sys2Proof.Machine.execHdmDecoderCommit dec commit size oneWay s
  | .apertureAccess off write data poison => Sys2Proof.Machine.execApertureAccess off write data poison s
  | .windowHostAccess line write poison keep => Sys2Proof.Machine.execWindowHostAccess line write poison keep s
  | .spoutHeaderWrite slot line vf => Sys2Proof.Machine.execSpoutHeaderWrite slot line vf s
  | .hostSnoop hpa kind => Sys2Proof.Machine.execHostSnoop hpa kind s
  | .cxlCacheGo n resp => Sys2Proof.Machine.execCxlCacheGo n resp s
  | .goWritepull hpa drop => Sys2Proof.Machine.execGoWritepull hpa drop s
  | .bisnpResponse n data => Sys2Proof.Machine.execBisnpResponse n data s
  | .biconflict line => Sys2Proof.Machine.execBiconflict line s
  | .hlcWritebackTimer hpa => Sys2Proof.Machine.execHlcWritebackTimer hpa s
  | .hcHlcFlush p v => Sys2Proof.Machine.execHcHlcFlush p v s
  | .hcAptWrite p v => Sys2Proof.Machine.execHcAptWrite p v s
  | .hcBflipGo p v => Sys2Proof.Machine.execHcBflipGo p v s
  | .biasFlipComplete => Sys2Proof.Machine.execBiasFlipComplete s
  | .hcLcwWrite p v => Sys2Proof.Machine.execHcLcwWrite p v s
  | .spGrpAWrite p g v => Sys2Proof.Machine.execSpGrpAWrite p g v s
  | .ideIntegrityFailure => Sys2Proof.Machine.execIdeIntegrityFailure s
  | .ideKeyRefresh => Sys2Proof.Machine.execIdeKeyRefresh s
  | .pairActive p => Sys2Proof.Machine.execPairActive p s
  | .pairStandby p => Sys2Proof.Machine.execPairStandby p s
  | .copy p peer => Sys2Proof.Machine.execCopy p peer s
  | .solo p => Sys2Proof.Machine.execSolo p s
  | .promote p => Sys2Proof.Machine.execPromote p s
  | .swap p => Sys2Proof.Machine.execSwap p s
  | .retrain p lanes => Sys2Proof.Machine.execRetrain p lanes s
  | .quefyLinkUp lanes peer peerSide peerEpoch peerHolds => Sys2Proof.Machine.execQuefyLinkUp lanes peer peerSide peerEpoch peerHolds s
  | .quefyLaneFailure lane retrained peerDown => Sys2Proof.Machine.execQuefyLaneFailure lane retrained peerDown s
  | .flitCrcFailure => Sys2Proof.Machine.execFlitCrcFailure s
  | .quefyLinkLoss silence peerDown => Sys2Proof.Machine.execQuefyLinkLoss silence peerDown s
  | .qfPrsntChange seated => Sys2Proof.Machine.execQfPrsntChange seated s
  | .peerDownSeen => Sys2Proof.Machine.execPeerDownSeen s
  | .mirrorItem n item => Sys2Proof.Machine.execMirrorItem n item s
  | .commitReceived c => Sys2Proof.Machine.execCommitReceived c s
  | .ackReceived n => Sys2Proof.Machine.execAckReceived n s
  | .compareResultReceived epoch agree bad unver => Sys2Proof.Machine.execCompareResultReceived epoch agree bad unver s
  | .verifySweepComplete => Sys2Proof.Machine.execVerifySweepComplete s
  | .verdictExchange consistent => Sys2Proof.Machine.execVerdictExchange consistent s
  | .expel p => Sys2Proof.Machine.execExpel p s
  | .rollback p => Sys2Proof.Machine.execRollback p s
  | .intVerWrite p v => Sys2Proof.Machine.execIntVerWrite p v s
  | .patrolTest kind u pass => Sys2Proof.Machine.execPatrolTest kind u pass s
  | .suspectClear kind u => Sys2Proof.Machine.execSuspectClear kind u s
  | .hubInjWrite p v => Sys2Proof.Machine.execHubInjWrite p v s
  | .hubIrqWrite p reg v => Sys2Proof.Machine.execHubIrqWrite p reg v s
  | .ccPairCfgWrite p pair v => Sys2Proof.Machine.execCcPairCfgWrite p pair v s
  | .partBarWrite p part bar word v => Sys2Proof.Machine.execPartBarWrite p part bar word v s
  | .csrWrite p off size v vfOn => Sys2Proof.Machine.execCsrWrite p off size v vfOn s
  | .getVersion doe req => Sys2Proof.Machine.execGetVersion doe req s
  | .getCapabilities doe req => Sys2Proof.Machine.execGetCapabilities doe req s
  | .negotiateAlgorithms doe req => Sys2Proof.Machine.execNegotiateAlgorithms doe req s
  | .getDigests doe req => Sys2Proof.Machine.execGetDigests doe req s
  | .getCertificate doe slot req => Sys2Proof.Machine.execGetCertificate doe slot req s
  | .challenge doe slot req => Sys2Proof.Machine.execChallenge doe slot req s
  | .getMeasurements doe req => Sys2Proof.Machine.execGetMeasurements doe req s
  | .keyExchange doe session req => Sys2Proof.Machine.execKeyExchange doe session req s
  | .finish session verified req => Sys2Proof.Machine.execFinish session verified req s
  | .endSession session req => Sys2Proof.Machine.execEndSession session req s
  | .keyUpdate session req => Sys2Proof.Machine.execKeyUpdate session req s
  | .heartbeat session req => Sys2Proof.Machine.execHeartbeat session req s
  | .spdmUnsupported doe => Sys2Proof.Machine.execSpdmUnsupported doe s
  | .lcProvision session payload => Sys2Proof.Machine.execLcProvision session payload s
  | .lcSeal session payload => Sys2Proof.Machine.execLcSeal session payload s
  | .lcRetire session payload => Sys2Proof.Machine.execLcRetire session payload s
  | .dbgReq session payload => Sys2Proof.Machine.execDbgReq session payload s
  | .dbgAuth session payload => Sys2Proof.Machine.execDbgAuth session payload s
  | .dbgRevoke session payload => Sys2Proof.Machine.execDbgRevoke session payload s
  | .fkSet session payload => Sys2Proof.Machine.execFkSet session payload s
  | .fkClear session payload => Sys2Proof.Machine.execFkClear session payload s
  | .nonceGet payload => Sys2Proof.Machine.execNonceGet payload s
  | .secAuth token => Sys2Proof.Machine.execSecAuth token s
  | .secDbgRevoke p v => Sys2Proof.Machine.execSecDbgRevoke p v s
  | .debugHalt block halt => Sys2Proof.Machine.execDebugHalt block halt s
  | .debugStep core => Sys2Proof.Machine.execDebugStep core s
  | .debugDaAccess da write n => Sys2Proof.Machine.execDebugDaAccess da write n s
  | .llCause => Sys2Proof.Machine.execLlCause s
  | .llCounters => Sys2Proof.Machine.execLlCounters s
  | .llFr n => Sys2Proof.Machine.execLlFr n s
  | .llReset arm => Sys2Proof.Machine.execLlReset arm s
  | .llPowerOff arm => Sys2Proof.Machine.execLlPowerOff arm s
  | .llPowerOn => Sys2Proof.Machine.execLlPowerOn s
  | .llStatus => Sys2Proof.Machine.execLlStatus s
  | .llIdentify on => Sys2Proof.Machine.execLlIdentify on s
  | .optRead off len => Sys2Proof.Machine.execOptRead off len s
  | .optStage off data => Sys2Proof.Machine.execOptStage off data s
  | .optCommit => Sys2Proof.Machine.execOptCommit s
  | .optDiscard => Sys2Proof.Machine.execOptDiscard s
  | .report => Sys2Proof.Machine.execReport s
  | .setEndpointId eid => Sys2Proof.Machine.execSetEndpointId eid s
  | .pldmBaseCommand code req => Sys2Proof.Machine.execPldmBaseCommand code req s
  | .getSensorReading id => Sys2Proof.Machine.execGetSensorReading id s
  | .getStateSensorReadings id => Sys2Proof.Machine.execGetStateSensorReadings id s
  | .setEventReceiver eid => Sys2Proof.Machine.execSetEventReceiver eid s
  | .pldmFruRead => Sys2Proof.Machine.execPldmFruRead s
  | .pldmFirmwareUpdate image cut => Sys2Proof.Machine.execPldmFirmwareUpdate image cut s
  | .telemetrySample temps vdd => Sys2Proof.Machine.execTelemetrySample temps vdd s
  | .stewardBusyWindow busy => Sys2Proof.Machine.execStewardBusyWindow busy s
  | .stewardWatchdog => Sys2Proof.Machine.execStewardWatchdog s
  | .hubStwKick p v => Sys2Proof.Machine.execHubStwKick p v s
  | .attnShortPress => Sys2Proof.Machine.execAttnShortPress s
  | .attnHold released => Sys2Proof.Machine.execAttnHold released s
  | .drainPartitionsStopped => Sys2Proof.Machine.execDrainPartitionsStopped s
  | .drainAbandonTimeout => Sys2Proof.Machine.execDrainAbandonTimeout s
  | .hostDrainedWrite p v => Sys2Proof.Machine.execHostDrainedWrite p v s
  | .pairPeerWindowExpiry => Sys2Proof.Machine.execPairPeerWindowExpiry s
  | .peerPairCommandReceived standby fp => Sys2Proof.Machine.execPeerPairCommandReceived standby fp s
  | .tableStoreReady => Sys2Proof.Machine.execTableStoreReady s
  | .entryBecomesUrgent p => Sys2Proof.Machine.execEntryBecomesUrgent p s
  | .busMasterEnableWrite fn on => Sys2Proof.Machine.execBusMasterEnableWrite fn on s
  | .vfPowerStateWrite vf d3hot => Sys2Proof.Machine.execVfPowerStateWrite vf d3hot s
  | .ideKmKeyProgram io cm => Sys2Proof.Machine.execIdeKmKeyProgram io cm s
  | .cxlIoCompletionTimeout q => Sys2Proof.Machine.execCxlIoCompletionTimeout q s
  | .farRowRequest n => Sys2Proof.Machine.execFarRowRequest n s
  | .pairLoadRequest => Sys2Proof.Machine.execPairLoadRequest s
  | .dynamicAddressAssignment addr => Sys2Proof.Machine.execDynamicAddressAssignment addr s
  | .sidebandBusReset => Sys2Proof.Machine.execSidebandBusReset s
  | .smbusArp assign => Sys2Proof.Machine.execSmbusArp assign s
  | .jtagTestInstruction => Sys2Proof.Machine.execJtagTestInstruction s
  | .aqDriveRemoveSafe slot => Sys2Proof.Machine.execAqDriveRemoveSafe slot s
  | .attnBlipExpiry => Sys2Proof.Machine.execAttnBlipExpiry s
  | .timeBasePllLock => Sys2Proof.Machine.execTimeBasePllLock s
  | .checkFailure c => Sys2Proof.Machine.execCheckFailure c s

end Sys2Proof.Machine
end

