-- ==== Sys2Proof/Machine/Tick.lean ====
section
/-! DEFINITION. What an empty queue does: one nanosecond of device time passes (R54), and each write buffer writes
its oldest granule to the cells (R125). Assumption log entry 2. -/
namespace Sys2Proof.Machine
open Sys2Proof

/-- Drain one granule of a write buffer, with the drain mode of R125. -/
def drainOne (w : List Nat) (mode : Bool) : List Nat × Bool :=
  let w' := w.tail
  (w', mode && decide (64 < w'.length))

def Channel.drain (c : Channel) : Channel :=
  { c with
    wbuf0 := (drainOne c.wbuf0 c.drain0).1, drain0 := (drainOne c.wbuf0 c.drain0).2
    wbuf1 := (drainOne c.wbuf1 c.drain1).1, drain1 := (drainOne c.wbuf1 c.drain1).2 }

/-- The standby corrects its time, and 999 nanoseconds or more have passed since the last correction: one of the next may
be slewed, since the rate is up to 1,000 ppm (R61). -/
def TimeBase.maySlew (t : TimeBase) : Bool := t.slewPpm != 0 && decide (999 ≤ t.slewAcc)

/-- One nanosecond of the counter; a slewed one counts 0 or 2 (R61). -/
def TimeBase.tick (t : TimeBase) (slew : Bool) : TimeBase :=
  if t.slewPpm = 0 then { t with now := t.now + 1 }
  else if slew then { t with now := t.now + (if t.slewPpm < 0 then 0 else 2), slewAcc := 0 }
  else { t with now := t.now + 1, slewAcc := t.slewAcc + 1 }

/-- Whether this nanosecond is slewed: a free bit where it may be. -/
def State.slewBit (s : State) : Bool × State := if s.time.maySlew then s.drawBit else (false, s)

/-- Start-up steps that no command ends: the steward's step 5, and the clusters' release (R702). Assumption log entry 105. -/
def Start.tick : Start → Start
  | .power => .hbmTrain
  | .clusters => .ports
  | x => x

/-- One nanosecond passes. -/
def State.tick (s : State) : State :=
  { s.slewBit.2 with
    rst := { s.rst with start := s.rst.start.tick }
    time := s.time.tick s.slewBit.1
    ch := s.ch.map fun kv => (kv.1, kv.2.drain) }

end Sys2Proof.Machine
end

