-- ==== Sys2Proof/Safety.lean ====
section
/-! DEFINITION. What a safe run is: no step stops; and what every step keeps: memory's canonical form and the ranges
of the bounded registers. -/
namespace Sys2Proof
open Sys2Proof.Machine

/-- The outcome is a next state. -/
def Running : Host.Outcome State Fault Refusal → Prop
  | .next _ => True
  | _ => False

/-- A run of steps from a state in which no step stops. -/
inductive SafeRun : State → Nat → Prop
  | here (s : State) : SafeRun s 0
  | step (s t : State) (n : Nat) (h : step s = .next t) (r : SafeRun t n) : SafeRun s (n + 1)

/-- Memory's cells in canonical form, and each bounded register in its range: the global timeout 1,000 to 2^36 ns
(R794), RSTC_IDLE_TIMEOUT at least 1,000 ns (R717), the telemetry period 10 to 1,000 ms (R774), the power cap at most
1,600 W (R748). -/
def CanonParts (m : List Host.Cell) (g : Nat) (i : W32) (p : BitVec 10) (w : BitVec 12) : Prop :=
  cellsWfFrom none m = true ∧ (1000 ≤ g ∧ g ≤ 2 ^ 36) ∧ 1000 ≤ i.toNat ∧ (10 ≤ p.toNat ∧ p.toNat ≤ 1000) ∧
    w.toNat ≤ 1600

/-- What every step keeps, of a state. -/
def Canon (s : State) : Prop := CanonParts s.mem.cells s.hub.gto s.rst.idleTmo s.stw.period s.pwr.capW

end Sys2Proof
end

