-- ==== Sys2Proof/WellFormed.lean ====
section
/-! DEFINITION. Which commands are well formed: operand lists of the lengths and values of the ranges that the rows'
rules give. Most operands are typed by their ranges (Fin, BitVec), so few checks remain. An ill-formed command stands for no
event of the hardware; its meaning still gives a next state. -/
namespace Sys2Proof

/-- An error of a read (R126): a sector of a request of at most 256 sectors, and a byte of its 72-byte codeword. -/
def errInRange (e : Nat × Nat × Byte) : Bool := decide (e.1 < 256 ∧ e.2.1 < 72)

/-- A command's operands are in the ranges of its rule: a die has a monitor (R73); an HBM write has bytes and lies within
16 KiB (R124); errors lie within codewords (R126); the sensors are 17 (R761); an aperture write lies within a line (R599);
a debug write has the length it names (R734). -/
def Instr.wf : Instr → Bool
  | .paceSample _ monitors => !monitors.isEmpty
  | .hbmWriteRequest _ _ _ addr data _ => !data.isEmpty && decide (addr.toNat % 16384 + data.length ≤ 16384)
  | .hbmReadComplete _ _ _ errors _ => errors.all errInRange
  | .sectorRereadComplete _ _ _ errors _ => errors.all errInRange
  | .patrolScrubRead _ _ errors _ => errors.all errInRange
  | .telemetrySample temps _ => decide (temps.length = 17)
  | .apertureAccess off write data _ => !write || decide (off.toNat % 64 + data.length ≤ 64)
  | .debugDaAccess _ write n => match write with | some bs => decide (bs.length = n.val) | none => true
  | _ => true

end Sys2Proof
end

