-- ==== Sys2Proof/Certificates/Slice0/Obligations.lean ====
section
/-! DEFINITION. The statements about the model: what each command does, what every command leaves alone, and the invariant that
every step keeps. -/
open Sys2Proof Sys2Proof.Machine

/-! ### The block (R777–R806; the row's own step) -/

/-- A step takes the front command and runs it with the queue's rest; on an empty queue one nanosecond passes. What an empty
queue does is the model's choice (assumption log entries 2 and 105). -/
def Obligations.StepRunsFrontCommand : Prop :=
  (∀ (c : Instr) (s : State) (rest : List Instr), step { s with pending := c :: rest } = exec c { s with pending := rest })
  ∧ (∀ (s : State), s.pending = [] → step s = .next { s.slewBit.2 with
        rst := { s.rst with start := s.rst.start.tick }, time := s.time.tick s.slewBit.1
        ch := s.ch.map fun kv => (kv.1, kv.2.drain) })

/-- Registers read as their tables' reset values in `State.reset`, an offset and its value at a time. -/
def Obligations.ResetState : Prop :=
  State.reset.time.now = 0 ∧ State.reset.pending = [] ∧ State.reset.mem = { cells := [], poison := [], redirect := [] }
  ∧ State.reset.hub.gto = 100000000 ∧ State.reset.pl.role = .solo
  ∧ (∀ q, (State.reset.queue q).st = .disabled) ∧ (∀ p, (State.reset.part p).st = .unused)
  ∧ (∀ x ∈ [(0x000010C, 0), (0x0000040, 0x05F5E100), (0x0000044, 0), (0x0000050, 0), (0x0001000, 0), (0x0001404, 0),
        (0x0001800, 0xFA30), (0x0001804, 0x0200), (0x0001808, 0x01000000), (0x0001A00, 0x07D0), (0x0001A40, 0x1908),
        (0x0001C00, 0x008803E8), (0x0001C0C, 0x04000000), (0x0100008, 0x000186A0), (0x010000C, 0x00050000),
        (0x0200014, 0), (0x0300000, 0x6408), (0x0300100, 0xFFFF0000), (0x0300120, 0xFFFF0000), (0x0300200, 0x0464),
        (0x0400010, 0x0420), (0x0600010, 0), (0x060001C, 0x14), (0x0700000, 0xC993), (0x0700028, 0x04000000),
        (0x0800000, 0x20286414), (0x080000C, 0x16000000), (0x0900008, 0x14000), (0x0900104, 0x1003), (0x0A00008, 0x01021388),
        (0x0A0000C, 0x03E8), (0x0A00020, 0x60), (0x1000000, 0x00896418), (0x1000004, 0xF7), (0x100C000, 0x01000000),
        (0x100E000, 0x2000), (0x100E018, 0x01000000), (0x2030200, 0x100)],
      State.reset.csrValue x.1 = x.2)

/-! ### Time and pace (02) -/

/-- The time base's events and HUB_TIME_STEP (R57, R58, R61–R63, R67). -/
def Obligations.TimeBaseEvents : Prop :=
  (∀ s : State, s.time.refPresent = true →
    exec .refClockLoss s =
      let s1 := State.timeFault { s with time := { s.time with refPresent := false, holdover := true, refLost := true } } 4 0x0A01
      .next (if s.time.refLost then s1 else s1.irqEvent 9))
  ∧ (∀ s : State, s.time.holdover = true →
    exec .pllRelock s = .next { s with time := { s.time with refPresent := true, holdover := false } })
  ∧ (∀ (s : State) (p : AccessPath) (v : W32), s.csrWritable p .hub = true → s.time.pairLock = false → s.pl.role ≠ .active →
    exec (.hubTimeStep p v) s = .next { s with time := { s.time with now := s.time.now + v.toNat } })
  ∧ (∀ (s : State) (p : AccessPath) (v : W32), s.csrWritable p .hub = true → s.time.pairLock = true → v ≠ 0 →
    exec (.hubTimeStep p v) s = .next { s with time := { s.time with stepRej := true } })
  ∧ (∀ (s : State) (v t : Nat), s.time.stepPend = some (v, t) →
    exec .pairStepTime s = .next (if t ≤ s.time.now
      then { s with time := { s.time with stepPend := none, now := s.time.now + v } } else s))
  ∧ (∀ s : State, rolePaired s.pl.role = true → s.pl.link = true → s.time.lastSent + 10000 ≤ s.time.now →
    s.time.stepPend = none →
    exec .timeMessageSend s = .next { s with
      time := { s.time with lastSent := s.time.now }, out := s.out ++ [.quefy "TIME" s.time.now []] })
  ∧ (∀ (s : State) (pt : W64) (ow : W32) (st : Option (W32 × W64)) (lock : Bool), s.pl.role = .active →
    exec (.timeMessage pt ow st lock) s = .next { s with time := { s.time with peerLock := lock, lastMsg := s.time.now } })

/-- Following the active's time (R61, R62). -/
def Obligations.TimeFollowing : Prop :=
  (∀ (s : State) (pt : W64) (ow : W32) (lock : Bool), roleStandby s.pl.role = true →
    ∃ t, exec (.timeMessage pt ow none lock) s = .next t ∧ s.time.now ≤ t.time.now ∧ t = { s with time := t.time })
  ∧ (∀ s : State, s.time.pairLock = true → s.time.lastMsg + 1000000 ≤ s.time.now →
    exec .pairLockLoss s =
      .next ((State.timeFault { s with time := { s.time with pairLock := false, goodMsgs := 0 } } 4 0x0A02).irqEvent 9))
  ∧ (∀ (s : State) (b : Nat), s.time.pairLock = true → s.time.badSince = some b → b + 1000000 ≤ s.time.now →
    exec .pairLockLoss s =
      .next ((State.timeFault { s with time := { s.time with pairLock := false, goodMsgs := 0 } } 4 0x0A02).irqEvent 9))

/-- Pace and ageing (R73–R77). -/
def Obligations.PaceAndAgeing : Prop :=
  (∀ (s : State) (die : Fin 5) (m : W16) (ms : List W16), ∃ cur ∈ m :: ms, (∀ x ∈ m :: ms, cur.toNat ≤ x.toNat) ∧
    exec (.paceSample die (m :: ms)) s = .next { s with pace := s.pace.set die.val { s.dieRec die.val with
      cur := cur, min := if cur.toNat < (s.dieRec die.val).min.toNat then cur else (s.dieRec die.val).min } })
  ∧ (∀ (s : State) (p : AccessPath) (die : Fin 5), s.csrWritable p .hub = true →
    exec (.pwrPaceMinWrite p die) s = .next { s with pace := s.pace.set die.val { s.dieRec die.val with min := 0xFFFF } })
  ∧ (∀ (s : State) (die : Fin 5) (pace : W16) (temp : BitVec 11) (days : Nat), s.pwr.pstate = .p0 → s.pwr.ramp = none →
    s.stewardRuns = true → s.stw.level = 0 → days < 30 →
    ∃ t, exec (.ageingUpdate die pace temp days) s = .next t ∧ (t.dieRec die.val).eolMonths = 0xFFFF
      ∧ (t.dieRec die.val).cur = (s.dieRec die.val).cur ∧ (t.dieRec die.val).min = (s.dieRec die.val).min)

/-! ### HBM4 memory (04) and exponent coding (05) -/

/-- The channel scheduler's reads (R124, R129). -/
def Obligations.HbmReads : Prop :=
  (∀ (s : State) (st : Fin 12) (ch : Fin 32) (pc : Fin 2) (addr : BitVec 30) (n : Fin 256) (d : Bool),
    let i := chanIndex st ch
    (s.chan i).st ≠ .retired → (s.chan i).readsOf pc.val < 512 → s.sectorKind st.val (ch.val * 2 + pc.val) addr.toNat = .plain →
    exec (.hbmReadRequest st ch pc addr n d) s = .next { s with ch := s.ch.set i { s.chan i with
      reads := (s.chan i).reads ++ [{ pc := pc.val, addr := addr.toNat / 64 * 64, sectors := n.val + 1, demand := d }] } })
  ∧ (∀ (s s' : State) (st : Fin 12) (ch : Fin 32) (pc : Fin 2) (errs : List (Nat × Nat × Byte)) (r : HbmRead) (rest : List HbmRead),
    let i := chanIndex st ch
    takeRead pc.val false (s.chan i).reads = some (r, rest) → r.sectors = 1 → (s.chan i).st ≠ .failed → s.hub.injArm = false →
    let s1 := s.updChan i fun c => { c with reads := rest }
    s1.decodeSector i pc.val r.addr (errsOf 0 errs) (s1.sectorWritten i pc.val r.addr r) false = .good s' →
    exec (.hbmReadComplete st ch pc errs 0) s = .next s')
  ∧ (∀ (s : State) (st : Fin 12) (ch : Fin 32) (pc : Fin 2) (errs : List (Nat × Nat × Byte)) (r : HbmRead) (rest : List HbmRead),
    let i := chanIndex st ch
    takeRead pc.val false (s.chan i).reads = some (r, rest) → r.sectors = 1 → (s.chan i).st ≠ .failed → s.hub.injArm = false →
    let s1 := s.updChan i fun c => { c with reads := rest }
    s1.decodeSector i pc.val r.addr (errsOf 0 errs) (s1.sectorWritten i pc.val r.addr r) false = .bad →
    exec (.hbmReadComplete st ch pc errs 0) s =
      .next (s1.updChan i fun c => { c with reads := { r with pc := pc.val, sectors := 1, reread := true } :: c.reads }))
  ∧ (∀ (s s' : State) (st : Fin 12) (ch : Fin 32) (pc : Fin 2) (errs : List (Nat × Nat × Byte)) (r : HbmRead) (rest : List HbmRead),
    let i := chanIndex st ch
    takeRead pc.val true (s.chan i).reads = some (r, rest) → (s.chan i).st ≠ .failed →
    let s1 := s.updChan i fun c => { c with reads := rest }
    s1.decodeSector i pc.val r.addr (errsOf 0 errs) (s1.sectorWritten i pc.val r.addr r) true = .good s' →
    exec (.sectorRereadComplete st ch pc errs 0) s = .next s')
  ∧ (∀ (s : State) (st : Fin 12) (ch : Fin 32) (pc : Fin 2) (errs : List (Nat × Nat × Byte)) (r : HbmRead) (rest : List HbmRead),
    let i := chanIndex st ch
    takeRead pc.val true (s.chan i).reads = some (r, rest) → (s.chan i).st ≠ .failed →
    let s1 := s.updChan i fun c => { c with reads := rest }
    s1.decodeSector i pc.val r.addr (errsOf 0 errs) (s1.sectorWritten i pc.val r.addr r) true = .bad →
    exec (.sectorRereadComplete st ch pc errs 0) s =
      .next (s1.sectorLost i pc.val r.addr (s1.sectorWritten i pc.val r.addr r) (!r.demand)))

/-- HBM_WRITE_REQUEST on a plain sector: its store and its frame (R124, R131). -/
def Obligations.HbmWriteReadsBack : Prop :=
  ∀ (s : State) (st : Fin 12) (ch : Fin 32) (pc : Fin 2) (addr : BitVec 30) (data : List Byte),
    let i := chanIndex st ch
    let pcx := ch.val * 2 + pc.val
    let a := s.mem.flat st.val pcx addr.toNat
    data ≠ [] → addr.toNat % 64 + data.length ≤ 64 → (s.chan i).st ≠ .retired → s.flatFailed a = false →
    s.mem.poisoned a = false → s.sectorKind st.val pcx addr.toNat = .plain →
    (if pc.val = 0 then (s.chan i).wbuf0 else (s.chan i).wbuf1).length < 256 → s.mem.wf = true →
    ∃ t, exec (.hbmWriteRequest st ch pc addr data false) s = .next t
      ∧ cellsRead t.mem.cells a data.length = data
      ∧ (∀ b, b < a ∨ a + data.length ≤ b → cellGet t.mem.cells b = cellGet s.mem.cells b)
      ∧ t.regions = s.regions ∧ t.queues = s.queues ∧ t.tda = s.tda ∧ t.sc = s.sc ∧ t.hub = s.hub

/-- Channel states (R132–R142). -/
def Obligations.HbmLanesAndChannels : Prop :=
  (∀ (s : State) (st : Fin 12) (ch : Fin 32) (pc : Fin 2) (lane : Fin 36),
    let i := chanIndex st ch
    (s.chan i).st = .healthy → (s.chan i).la = none → (s.chan i).lb = none → 1 ≤ (s.chan i).spares →
    ∃ t, exec (.driftLockLoss st ch pc lane) s = .next t ∧ (t.chan i).st = .degraded
      ∧ (t.chan i).la = some ⟨pc.val, lane.val⟩ ∧ (t.chan i).calPend = true ∧ t.mem = s.mem)
  ∧ (∀ (s : State) (st : Fin 12) (ch : Fin 32) (x : Lane) (b : Bool),
    let i := chanIndex st ch
    (s.chan i).st = .degraded → (s.chan i).calPend = true → (s.chan i).la = some x → (s.chan i).lb = none →
    0 < (s.chan i).spares →
    ∃ t, exec (.calibrationWindow st ch true b) s = .next t ∧ (t.chan i).st = .sweep ∧ (t.chan i).la = none
      ∧ (t.chan i).spares = (s.chan i).spares - 1 ∧ (t.chan i).calPend = false ∧ t.mem = s.mem)
  ∧ (∀ (s : State) (st : Fin 12) (ch : Fin 32),
    let i := chanIndex st ch
    (s.chan i).st = .sweep →
    exec (.sweepComplete st ch) s =
      .next (State.irqEvent ((s.updChan i fun c => { c with sweeping := [] }).updChan i fun c => { c with st := .healthy }) 12))
  ∧ (∀ (s : State) (st : Fin 12) (ch : Fin 32) (pc : Fin 2) (block : Byte) (toPc : Fin 64) (toBlock : Byte),
    let i := chanIndex st ch
    let src := blockId st.val (ch.val * 2 + pc.val) block.toNat
    let dst := blockId st.val toPc.val toBlock.toNat
    (s.chan i).st = .retiring → (s.leftInPlace i).contains (pc.val, block.toNat) = true →
    s.freeReserved i toPc.val toBlock.toNat = true →
    exec (.evacuationBlockCopied st ch pc block toPc toBlock) s = .next { s with
      mem := { s.mem.copyBlock src dst with redirect := s.mem.redirect.set src dst } })
  ∧ (∀ (s : State) (st : Fin 12) (ch : Fin 32),
    let i := chanIndex st ch
    (s.chan i).st = .retiring → s.leftInPlace i = [] →
    exec (.evacuationComplete st ch) s = .next (s.chanState i .retired))
  ∧ (∀ (s : State) (st : Fin 12) (ch : Fin 32) (pc : Fin 2),
    let i := chanIndex st ch
    (s.chan i).st ≠ .retired →
    (if pc.val = 0 then (s.chan i).lastDrift0 else (s.chan i).lastDrift1) + 1000000 ≤ s.time.now →
    exec (.driftTrackingSlot st ch pc) s = .next (s.updChan i fun c =>
      if pc.val = 0 then { c with lastDrift0 := s.time.now } else { c with lastDrift1 := s.time.now }))
  ∧ (∀ (s : State) (st : Fin 12) (ch : Fin 32),
    let i := chanIndex st ch
    (s.chan i).st ≠ .retired →
    exec (.dramRefresh st ch) s = .next { s with ch := s.ch.set i { s.chan i with refreshes := (s.chan i).refreshes + 1 } })
  ∧ (∀ (s s' : State) (st : Fin 12) (ch : Fin 32) (errs : List (Nat × Nat × Byte)),
    let i := chanIndex st ch
    let c := s.chan i
    (s.mcRegs st.val).scrubHours ≠ 0 → c.st ≠ .retired → c.st ≠ .failed →
    (s.updChan i fun c => { c with scrubPos := (c.scrubPos + 64) % 2 ^ 31 }).decodeSector i (c.scrubPos / 2 ^ 30)
      (c.scrubPos % 2 ^ 30) (errsOf 0 errs) false false = .good s' →
    exec (.patrolScrubRead st ch errs 0) s = .next s')

/-- The codebook commands (R161–R167). -/
def Obligations.CodebookCommands : Prop :=
  (∀ (s : State) (c : KCmd), fromMirror c = false → s.recall c.a1.toNat 256 = none →
    let s1 := s.touch c.a1.toNat 256
    let r := s1.readDA c.a1.toNat 256
    r.unmapped = false → r.poison = false → (codebookOf r.data).2 = true → (codebookOf r.data).1.installable = true →
    s1.cbkInUse c.a0.toNat = false →
    exec (.cbkInstall c) s = .next (State.done { s1 with
      cbk := s1.cbk.set c.a0.toNat { (codebookOf r.data).1 with valid := true } } c stSuccess 0 r.data))
  ∧ (∀ (s : State) (c : KCmd), s.cbkInUse c.a0.toNat = false →
    exec (.cbkClear c) s = .next (State.done { s with
      cbk := s.cbk.set c.a0.toNat { s.codebook c.a0.toNat with valid := false } } c stSuccess))
  ∧ (∀ (s : State) (c : KCmd), s.cbkInUse c.a0.toNat = true → exec (.cbkClear c) s = .next (s.done c stCbkInUse))
  ∧ (∀ (s : State) (c : KCmd), s.outBad c.a1.toNat 256 = none →
    exec (.cbkRead c) s = .next (State.done (s.wr c.a1.toNat (s.codebook c.a0.toNat).bytes) c stSuccess))
  ∧ (∀ (s : State) (c : KCmd) (cl : SymClass), fromMirror c = false → s.recall c.a0.toNat 64 = none →
    let s1 := s.touch c.a0.toNat 64
    let r := s1.readDA c.a0.toNat 64
    let base := leAt r.data 0 8 % 2 ^ 52
    let len := leAt r.data 8 8
    let s2 := s1.touch base len
    let cb : Codebook := { cls := BitVec.ofNat 4 (leAt r.data 18 1), lens := deriveLens cl.symbols (s2.census cl base (len / 512)) }
    let s3 := s2.installCbk (leAt r.data 16 2) cb
    r.unmapped = false → r.poison = false → base % 512 = 0 → len ≠ 0 → len % 512 = 0 → leAt r.data 16 2 < 4096 →
    leAt r.data 19 1 = 1 → leAt r.data 20 4 = 0 → (r.data.drop 32).all (· == 0) = true →
    s1.rangeInRegions base (len / 512) = true → symClass (leAt r.data 18 1) = some cl → s2.cbkInUse (leAt r.data 16 2) = false →
    exec (.census c) s = .next (s3.done c stSuccess 0 (r.data ++ (s3.codebook (leAt r.data 16 2)).bytes)))
  ∧ (∀ (s : State) (c : KCmd), fromMirror c = false → s.recall c.a0.toNat 64 = none →
    let s1 := s.touch c.a0.toNat 64
    let r := s1.readDA c.a0.toNat 64
    r.unmapped = false → r.poison = false → leAt r.data 20 4 ≠ 0 → exec (.census c) s = .next (s1.done c stCbkBad))

/-! ### Regions and tables (04, 06) -/

/-- HUB_REGION_A and HUB_TDA_LO (R120, R122, R216). -/
def Obligations.RegionsAndStore : Prop :=
  (∀ (s : State) (p : AccessPath) (n : Fin 64) (v : W32), s.csrWritable p .hub = true → (s.region n.val).en = false →
    bit v 24 = false → bit v 0 = true → s.regionOk n.val ((s.region n.val).withWord v) = true →
    exec (.hubRegionAWrite p n v) s =
      .next { s with regions := s.regions.set n.val { (s.region n.val).withWord v with en := true } })
  ∧ (∀ (s : State) (p : AccessPath) (n : Fin 64) (v : W32), s.csrWritable p .hub = true → (s.region n.val).en = false →
    bit v 24 = false → bit v 0 = true → s.regionOk n.val ((s.region n.val).withWord v) = false →
    exec (.hubRegionAWrite p n v) s =
      .next { s with regions := s.regions.set n.val { (s.region n.val).withWord v with err := true } })
  ∧ (∀ (s : State) (p : AccessPath) (n : Fin 64), s.csrWritable p .hub = true → (s.region n.val).en = true →
    s.regionPinned n.val = false → (s.region n.val).withWord 0 = s.region n.val →
    exec (.hubRegionAWrite p n 0) s = .next { s with
      cx := (s.dropTags (s.region n.val)).cx, regions := s.regions.set n.val { s.region n.val with en := false } })
  ∧ (∀ (s : State) (p : AccessPath) (v : W32), s.csrWritable p .hub = true → s.tda.en = false → bit v 0 = true →
    4 ≤ s.tda.size.toNat →
    let s1 := { s with tda := { s.tda with baseLo := field v 24 8, err := s.tda.err && !bit v 1 } }
    s1.inPlainRegion s1.storeBase s1.storeSize = true →
    exec (.hubTdaLoWrite p v) s = .next { s1 with
      tda := { s1.tda with en := true, rdy := false, live := [] }, heap := []
      mem := (s1.zeroRange s1.storeBase s1.storeSize).mem })
  ∧ (∀ s : State, s.tda.en = true → exec .tableStoreReady s = .next { s with tda := { s.tda with rdy := true } })

/-- TBL_CREATE and TBL_LOAD (R189–R211). -/
def Obligations.TableCreateAndLoad : Prop :=
  (∀ (s : State) (c : KCmd) (o : Nat), s.tda.rdy = true → (s.td c.a0.toNat).state = tdFree → fromMirror c = false →
    s.recall c.a1.toNat 128 = none →
    let s1 := s.touch c.a1.toNat 128
    let b := (s1.readDA c.a1.toNat 128).data
    let d := tdOf b
    let rn := if d.xlate = 2 then d.rmapN else 0
    let sh := s1.readDA d.shmap (16 * d.nshard)
    let rm := s1.readDA d.xarg (16 * rn)
    let es := mapEntries d.nshard sh.data
    (s1.readDA c.a1.toNat 128).unmapped = false → (s1.readDA c.a1.toNat 128).poison = false →
    imageLegal b d = true → d.shmap < 2 ^ 52 → (d.xlate ≠ 2 ∨ d.xarg < 2 ^ 52) →
    s1.rangeInBasin d.shmap (16 * d.nshard) = true → (rn = 0 ∨ s1.rangeInBasin d.xarg (16 * rn) = true) →
    sh.poison = false → rm.poison = false → s1.shardsLegal d es = true →
    (rn = 0 ∨ rmapLegal d.n (mapEntries rn rm.data) = true) →
    ¬((d.missPol = 0 ∧ d.defKind = 0) ∨ (d.latePol = 1 ∧ d.fbKind = 0) ∨ (d.defKind = 2 ∧ d.n ≤ d.defRow)
      ∨ (d.fbKind = 2 ∧ d.n ≤ d.fbRow)) →
    (s1.tda.live.filter fun u => (s1.td u).model == d.model).length < 65536 → s1.homeOk d es = true →
    s1.heapFit (16 * (d.nshard + rn)) = some o →
    let m0 := s1.storeBase + o
    let b1 := putAt b 40 (leBytes 8 m0)
    let b2 := if rn = 0 then b1 else putAt b1 16 (leBytes 8 (m0 + 16 * d.nshard))
    let s2 := (s1.writeDA m0 sh.data).writeDA (m0 + 16 * d.nshard) rm.data
    let s3 := ((s2.writeDA (s1.tdDA c.a0.toNat) (putAt b2 0 [0])).setTdState c.a0.toNat tdLoading).writeDA
      (s1.tctrDA c.a0.toNat) (List.replicate 64 0)
    exec (.tblCreate c) s = .next (State.done { s3 with heap := s3.heap.set c.a0.toNat (o, 16 * (d.nshard + rn)) } c stSuccess 0
      (b ++ sh.data ++ rm.data)))
  ∧ (∀ (s : State) (c : KCmd), s.tda.rdy = false → exec (.tblCreate c) s = .next (s.done c stTblNoStore))
  ∧ (∀ (s : State) (c : KCmd), s.tda.rdy = true → (s.td c.a0.toNat).state ≠ tdFree →
    exec (.tblCreate c) s = .next (s.done c stTblState))
  ∧ (∀ (s : State) (c : KCmd), (s.td c.a0.toNat).state = tdLoading → fromMirror c = false →
    c.a2.toNat + 1 ≤ (s.td c.a0.toNat).n → c.a3 = 1 → s.rangeUnmapped c.a1.toNat (s.td c.a0.toNat).rb = false →
    let d := s.td c.a0.toNat
    let s0 := s.touch c.a1.toNat d.rb
    let row := s0.readDA c.a1.toNat d.rb
    row.poison = false →
    exec (.tblLoad c) s =
      .next ((s0.loadRow c.a0.toNat d c.a2.toNat row.data false).done c stSuccess 0 (row.data ++ [0])))
  ∧ (∀ (s : State) (c : KCmd), (s.td c.a0.toNat).state = tdLoading → c.a3 = 0 → c.a2.toNat ≤ (s.td c.a0.toNat).n →
    exec (.tblLoad c) s = .next (s.done c stSuccess))
  ∧ (∀ (s : State) (c : KCmd), (s.td c.a0.toNat).state = tdLoading → (s.td c.a0.toNat).n < c.a2.toNat + c.a3.toNat →
    exec (.tblLoad c) s = .next (s.done c stTblBad))

/-- TBL_SEAL, TBL_RETIRE, its drain and its timer, and TBL_CTRZ (R212–R215). -/
def Obligations.TableLife : Prop :=
  (∀ (s : State) (c : KCmd), (s.td c.a0.toNat).state = tdLoading → (s.td c.a0.toNat).opt = 0 → (s.td c.a0.toNat).kind2 = [] →
    exec (.tblSeal c) s = .next (((State.sweep { s with upd := { s.upd with pub := s.upd.pub.set c.a0.toNat false } }
      c.a0.toNat (s.td c.a0.toNat) true).setTdState c.a0.toNat tdServing).done c stSuccess))
  ∧ (∀ (s : State) (c : KCmd), (s.td c.a0.toNat).state ≠ tdLoading → exec (.tblSeal c) s = .next (s.done c stTblState))
  ∧ (∀ (s : State) (c : KCmd), (s.td c.a0.toNat).state = tdLoading →
    exec (.tblRetire c) s = .next ((s.freeTable c.a0.toNat).done c stSuccess))
  ∧ (∀ (s : State) (c : KCmd), (s.td c.a0.toNat).state = tdServing →
    exec (.tblRetire c) s = .next { s.setTdState c.a0.toNat tdDraining with
      drains := s.drains.set c.a0.toNat { q := c.q.val, cid := c.cid, tAcc := s.time.now, due := s.time.now + s.hub.gto } })
  ∧ (∀ (s : State) (t : Fin 262144) (dr : Drain), s.drains.find t.val = some dr → (s.td t.val).state = tdDraining →
    s.modelInUse (s.td t.val).model = false → s.tableInFlight t.val = false →
    let s1 := (s.sweep t.val (s.td t.val) false).freeTable t.val
    exec (.tblDrainDone t) s = .next (State.complete { s1 with drains := s1.drains.del t.val } dr.q dr.cid stSuccess))
  ∧ (∀ (s : State) (t : Fin 262144) (dr : Drain), s.drains.find t.val = some dr → dr.due ≤ s.time.now →
    let s1 := s.setTdState t.val tdServing
    exec (.tblRetireTimeout t) s = .next (State.complete { s1 with drains := s1.drains.del t.val } dr.q dr.cid stTblBusy))
  ∧ (∀ (s : State) (t : Fin 262144) (dr : Drain), s.drains.find t.val = some dr → s.time.now < dr.due →
    exec (.tblRetireTimeout t) s = .next s)
  ∧ (∀ (s : State) (c : KCmd), s.tda.rdy = true →
    exec (.tblCtrz c) s = .next ((s.writeDA (s.tctrDA c.a0.toNat) (List.replicate 64 0)).done c stSuccess))

/-! ### The basin (07) -/

/-- List commands of the planner (R235, R236). -/
def Obligations.PlannerLists : Prop :=
  (∀ f ∈ [Instr.bsnFill, Instr.bsnDrop, Instr.ftnAdd, Instr.ftnDrop], ∀ (s : State) (c : KCmd),
    (((c.q.val == 1024) = s.bd.planner) → exec (f c) s = .next (s.done c stBdPlanner))
    ∧ (((c.q.val == 1024) ≠ s.bd.planner) → s.bd.en = false → exec (f c) s = .next (s.done c stBdOff))
    ∧ (∀ code, ((c.q.val == 1024) ≠ s.bd.planner) → s.bd.en = true → s.outBad c.a2.toNat 20 = some code →
        exec (f c) s = .next (s.done c code))
    ∧ (((c.q.val == 1024) ≠ s.bd.planner) → s.bd.en = true → s.outBad c.a2.toNat 20 = none →
        fromMirror c = false → s.recall c.a0.toNat 16 = none → c.a1 = 1 →
        let s1 := s.touch c.a0.toNat 16
        let rd := s1.readDA c.a0.toNat 16
        let p : PlanCmd := { q := c.q.val, cid := c.cid, resultDa := c.a2.toNat, bad := 1 }
        let s2 := { s1 with bd := { s1.bd with plans := s1.bd.plans.set s1.bd.nextPlan p, nextPlan := s1.bd.nextPlan + 1 } }
        let s3 := s2.wr c.a2.toNat (leBytes 4 0 ++ leBytes 4 0 ++ leBytes 4 1 ++ leBytes 4 0 ++ leBytes 4 0)
        rd.bad = none → (s1.td (leAt rd.data 0 8 / 2 ^ 40 % 2 ^ 18)).state ≠ tdServing →
        exec (f c) s = .next (State.done
          { s3 with bd := { s3.bd with plans := s3.bd.plans.del s1.bd.nextPlan } } c stSuccess))
    ∧ (((c.q.val == 1024) ≠ s.bd.planner) → s.bd.en = true → s.outBad c.a2.toNat 20 = none →
        fromMirror c = false → s.recall c.a0.toNat 0 = none → c.a1 = 0 →
        let s1 := s.touch c.a0.toNat 0
        let p : PlanCmd := { q := c.q.val, cid := c.cid, resultDa := c.a2.toNat }
        let s2 := { s1 with bd := { s1.bd with plans := s1.bd.plans.set s1.bd.nextPlan p, nextPlan := s1.bd.nextPlan + 1 } }
        let s3 := s2.wr c.a2.toNat (leBytes 4 0 ++ leBytes 4 0 ++ leBytes 4 0 ++ leBytes 4 0 ++ leBytes 4 0)
        (s1.readDA c.a0.toNat 0).bad = none →
        exec (f c) s = .next (State.done
          { s3 with bd := { s3.bd with plans := s3.bd.plans.del s1.bd.nextPlan } } c stSuccess)))
  ∧ (∀ (s : State) (c : KCmd), ((c.q.val == 1024) ≠ s.bd.planner) → s.bd.en = true → s.outBad c.a2.toNat 20 = none →
        fromMirror c = false → s.recall c.a0.toNat 16 = none → c.a1 = 1 →
        let s1 := s.touch c.a0.toNat 16
        let rd := s1.readDA c.a0.toNat 16
        let t := leAt rd.data 0 8 / 2 ^ 40 % 2 ^ 18
        let r := leAt rd.data 0 8 % 2 ^ 40
        let p : PlanCmd := { q := c.q.val, cid := c.cid, resultDa := c.a2.toNat, skipped := 1 }
        let s2 := { s1 with bd := { s1.bd with plans := s1.bd.plans.set s1.bd.nextPlan p, nextPlan := s1.bd.nextPlan + 1 } }
        let s3 := s2.wr c.a2.toNat (leBytes 4 0 ++ leBytes 4 1 ++ leBytes 4 0 ++ leBytes 4 0 ++ leBytes 4 0)
        rd.bad = none → (s1.td t).state = tdServing → r < (s1.td t).n → s1.bucketMoving (bucketOf t r) = false →
        s1.hotCopies t r = [] →
        exec (.bsnDrop c) s = .next (State.done
          { s3 with bd := { s3.bd with plans := s3.bd.plans.del s1.bd.nextPlan } } c stSuccess))
  ∧ (∀ (s : State) (n id : Nat) (p : PlanCmd), (s.bd.plans.filter fun kv => !kv.2.slots.isEmpty)[n]? = some (id, p) →
        s.bd.plans.find id = some p → p.left = 0 → p.rows = [] → p.slots.any s.slotRead = false →
        let s1 := s.wr p.resultDa p.counts
        exec (.bsnDropSettled n) s = .next (State.complete { s1 with bd := { s1.bd with plans := s1.bd.plans.del id } }
          p.q p.cid stSuccess))

/-- HUB_BD_CTL and BKT_MOVE (R220, R247, R253). -/
def Obligations.BasinControl : Prop :=
  (∀ (s : State) (p : AccessPath) (v : W32), s.csrWritable p .hub = true → s.bd.en = false → bit v 0 = true →
    let s1 := { s with bd := { s.bd with
      err := s.bd.err && !bit v 1, planner := bit v 2, heatShift := field v 3 3
      decayMs := if field v 6 10 = 0 then 1 else field v 6 10 } }
    (List.range 12).all s1.bdStackOk = true →
    ∃ t, exec (.hubBdCtlWrite p v) s = .next t ∧ t.bd.en = true ∧ t.bd.ringWp = 0 ∧ t.bd.planner = bit v 2
      ∧ t.bd.buckets = (List.range 4096).map fun b => (b, { (s.bucket b) with
          stack := BitVec.ofNat 4 (b % 12), frame := BitVec.ofNat 10 (b / 12), mig := false, v := true }))
  ∧ (∀ (s : State) (p : AccessPath) (v : W32), s.csrWritable p .hub = true → s.bd.en = false → bit v 0 = true →
    let s1 := { s with bd := { s.bd with
      err := s.bd.err && !bit v 1, planner := bit v 2, heatShift := field v 3 3
      decayMs := if field v 6 10 = 0 then 1 else field v 6 10 } }
    (List.range 12).all s1.bdStackOk = false →
    exec (.hubBdCtlWrite p v) s = .next { s1 with bd := { s1.bd with err := true } })
  ∧ (∀ (s : State) (c : KCmd), ((c.q.val == 1024) ≠ s.bd.planner) → s.bd.en = true →
    (∃ m ∈ s.bd.moves, m.bucket = c.a0.toNat) → exec (.bktMove c) s = .next (s.done c stBdBusy))
  ∧ (∀ (s : State) (c : KCmd), ((c.q.val == 1024) ≠ s.bd.planner) → s.bd.en = true →
    (∀ m ∈ s.bd.moves, m.bucket ≠ c.a0.toNat) → s.frameFree c.a1.toNat c.a2.toNat = false →
    exec (.bktMove c) s = .next (s.done c stBdFrame))
  ∧ (∀ (s : State) (c : KCmd), ((c.q.val == 1024) ≠ s.bd.planner) → s.bd.en = true →
    (∀ m ∈ s.bd.moves, m.bucket ≠ c.a0.toNat) → c.a1.toNat ≠ (s.bucket c.a0.toNat).stack.toNat →
    c.a2.toNat < (s.bdStack c.a1.toNat).nframes.toNat → s.frameFree c.a1.toNat c.a2.toNat = true →
    c.a4.toNat < (s.frameEntries (s.bucket c.a0.toNat).stack.toNat (s.bucket c.a0.toNat).frame.toNat).length →
    exec (.bktMove c) s = .next (s.done c stBdSlots))
  ∧ (∀ (s : State) (c : KCmd), ((c.q.val == 1024) ≠ s.bd.planner) → s.bd.en = true →
    (∀ m ∈ s.bd.moves, m.bucket ≠ c.a0.toNat) → c.a1.toNat ≠ (s.bucket c.a0.toNat).stack.toNat →
    c.a2.toNat < (s.bdStack c.a1.toNat).nframes.toNat → s.frameFree c.a1.toNat c.a2.toNat = true →
    (s.frameEntries (s.bucket c.a0.toNat).stack.toNat (s.bucket c.a0.toNat).frame.toNat).length ≤ c.a4.toNat →
    fromMirror c = false → s.recall c.a3.toNat (8 * c.a4.toNat) = none →
    let s1 := s.touch c.a3.toNat (8 * c.a4.toNat)
    let rd := s1.readDA c.a3.toNat (8 * c.a4.toNat)
    rd.bad = none → (∀ m ∈ s1.bd.moves, m.src ≠ (s.bucket c.a0.toNat).stack.toNat) →
    exec (.bktMove c) s = .next { s1 with bd := { s1.bd with moves := s1.bd.moves ++ [{
      bucket := c.a0.toNat, src := (s.bucket c.a0.toNat).stack.toNat, dst := c.a1.toNat, frame := c.a2.toNat
      slots := slotList c.a4.toNat rd.data, q := c.q.val, cid := c.cid, step := 1 }] } })
  ∧ (∀ (s : State) (b : Fin 4096) (m : Move), s.bd.moves = [m] → m.bucket = b.val → m.step = 1 →
    s.frameEntries m.src (s.bucket b.val).frame.toNat = [] →
    exec (.bktMoveCopyDone b) s = .next (({ s with bd := { s.bd with moves := [{ m with step := 3 }] } }).updBucket b.val
      fun x => { x with
        stack := BitVec.ofNat 4 m.dst, frame := BitVec.ofNat 10 m.frame, mig := true
        oldStack := (s.bucket b.val).stack, oldFrame := (s.bucket b.val).frame }))

/-- Heat, decay and fills (R230–R238). -/
def Obligations.HeatAndFills : Prop :=
  (∀ (s : State) (c : KCmd), ((c.q.val == 1024) ≠ s.bd.planner) →
    let s0 := { s with bd := { s.bd with sketches := s.bd.sketches.del c.a0.toNat } }
    s0.sketchesAt (c.a0.toNat % 12) < 2 * (s.bdStack (c.a0.toNat % 12)).heatMib.toNat →
    exec (.heatOn c) s = .next (State.done { s with bd := { s.bd with
      sketches := (s.bd.sketches.del c.a0.toNat).set c.a0.toNat { stack := c.a0.toNat % 12 } } } c stSuccess))
  ∧ (∀ (s : State) (c : KCmd), ((c.q.val == 1024) ≠ s.bd.planner) →
    let s0 := { s with bd := { s.bd with sketches := s.bd.sketches.del c.a0.toNat } }
    (∀ st < 12, 2 * (s.bdStack st).heatMib.toNat ≤ s0.sketchesAt st) →
    exec (.heatOn c) s = .next (s.done c stBdNoSketch))
  ∧ (∀ (s : State) (c : KCmd), ((c.q.val == 1024) ≠ s.bd.planner) →
    exec (.heatOff c) s = .next (State.done { s with bd := { s.bd with sketches := s.bd.sketches.del c.a0.toNat } } c stSuccess))
  ∧ (∀ (s : State) (c : KCmd), ((c.q.val == 1024) = s.bd.planner) →
    exec (.heatOn c) s = .next (s.done c stBdPlanner) ∧ exec (.heatOff c) s = .next (s.done c stBdPlanner))
  ∧ (∀ (s : State) (c : KCmd), s.outBad c.a2.toNat 2 = none → fromMirror c = false → c.a1 = 1 →
    s.recall c.a0.toNat 16 = none →
    let s1 := s.touch c.a0.toNat 16
    let rd := s1.readDA c.a0.toNat 16
    let t := leAt rd.data 0 8 / 2 ^ 40 % 2 ^ 18
    let r := leAt rd.data 0 8 % 2 ^ 40
    rd.bad = none →
    exec (.heatRead c) s = .next ((s1.wr c.a2.toNat (leBytes 2 (match s1.bd.sketches.find t with
      | none => 0xFFFF | some k => k.estimate t r))).done c stSuccess))
  ∧ (∀ (s : State) (n t r : Nat) (k : Sketch), s.bd.samples[n]? = some (t, r) → s.bd.sketches.find t = some k →
    s.bd.thresh = 0 →
    exec (.heatSample n) s = .next { s with bd := { s.bd with
      samples := s.bd.samples.eraseIdx n
      sketches := s.bd.sketches.set t { k with
        ctr := (sketchCols t r).foldl (fun m i => m.set i (satInc (m.get 0 i))) k.ctr } } })
  ∧ (∀ s : State, s.elapsed s.bd.lastDecay (s.bd.decayMs.toNat * 1000000) = true →
    ∃ t, exec .decayTick s = .next t ∧ t.bd.lastDecay = s.time.now
      ∧ (∀ b, (t.bucket b).load = (s.bucket b).load >>> 1)
      ∧ (∀ st, (t.bdStack st).load = (s.bdStack st).load >>> 1)
      ∧ t = { s with bd := t.bd })
  ∧ (∀ s : State, s.elapsed s.bd.lastDecay (s.bd.decayMs.toNat * 1000000) = false → exec .decayTick s = .next s)
  ∧ (∀ (s : State) (q : FarReq) (f : Fill) (bs : List Byte) (i : Nat) (e : DirEntry), s.aq.far = [q] →
    q.who = .fill f.stack → q.stage = .arrived bs → s.bd.fills = [f] → f.table = q.table → f.row = q.row → f.cmd = none →
    (s.hotCopies f.table f.row).find? (fun x => x.1 == f.stack) = some (f.stack, i) → s.dirAt f.stack i = some e →
    e.refill = false →
    let s1 := { s with aq := { s.aq with far := [] } }
    let s2 := (s1.writeCbk (s1.td f.table) e.slot bs).dirPut f.stack i { e with filling := false }
    exec (.fillRowArrival 0) s = .next { s2 with bd := { s2.bd with fills := s2.bd.fills.filter (· != f) } })

/-! ### Reservoir and aquifer (08) -/

/-- RSV_DECLARE, RSV_RELEASE and far requests (R265–R273, R286). -/
def Obligations.ReservoirAndFarRows : Prop :=
  (∀ (s : State) (c : KCmd), c.a1.toNat % 2097152 = 0 → c.a2.toNat ≠ 0 → c.a2.toNat % 2097152 = 0 →
    c.a1.toNat + c.a2.toNat ≤ 2 ^ 48 → (s.rsvRange c.a0.toNat).v = false →
    (∀ n < 64, (s.rsvRange n).v = true →
      (s.rsvRange n).hpa + (s.rsvRange n).len ≤ c.a1.toNat ∨ c.a1.toNat + c.a2.toNat ≤ (s.rsvRange n).hpa) →
    exec (.rsvDeclare c) s = .next (if s.rsvTotal + c.a2.toNat ≤ 2 ^ 44
      then State.done { s with rsv := s.rsv.set c.a0.toNat { v := true, hpa := c.a1.toNat, len := c.a2.toNat } } c stSuccess
      else s.done c stRsvLimit))
  ∧ (∀ (s : State) (c : KCmd), (s.rsvRange c.a0.toNat).v = true → exec (.rsvDeclare c) s = .next (s.done c stRsvBad))
  ∧ (∀ (s : State) (c : KCmd), (s.rsvRange c.a0.toNat).v = false → exec (.rsvRelease c) s = .next (s.done c stRsvBad))
  ∧ (∀ (s : State) (c : KCmd), (s.rsvRange c.a0.toNat).v = true →
    let r := s.rsvRange c.a0.toNat
    s.shardIn 2 (rsvBase + r.hpa) (rsvBase + r.hpa + r.len) = true →
    exec (.rsvRelease c) s = .next (s.done c stRsvInUse))
  ∧ (∀ (s : State) (c : KCmd), (s.rsvRange c.a0.toNat).v = true →
    let r := s.rsvRange c.a0.toNat
    s.shardIn 2 (rsvBase + r.hpa) (rsvBase + r.hpa + r.len) = false →
    (∀ kv ∈ s.host.hlc, kv.2.st ≠ .m) →
    exec (.rsvRelease c) s = .next (State.done { s with rsv := s.rsv.set c.a0.toNat {} } c stSuccess))
  ∧ (∀ (s : State) (t r : Nat) (w : FarFor) (da : Nat),
    s.aq.far = [{ table := t, row := r, who := w, stage := .reservoir da }] →
    exec (.reservoirReadResponse 0 0) s = .next { s with aq := { s.aq with far := [{
      table := t, row := r, who := w, stage := .arrived (cellsRead s.mem.cells da (s.td t).span) }] } }
    ∧ ∀ o : Fin 3, o ≠ 0 → exec (.reservoirReadResponse 0 o) s = .next (State.fault
      { s with aq := { s.aq with far := [{ table := t, row := r, who := w, stage := .failed }] } }
      { mkFault 5 0 0x0801 with akind := 1, addr := da }))
  ∧ (∀ (s : State) (t r : Nat) (w : FarFor), s.aq.far = [{ table := t, row := r, who := w, stage := .queued }] →
    (s.td t).tier ≠ 2 → s.aq.mounted = false →
    exec (.farRowRequest 0) s =
      .next { s with aq := { s.aq with far := [{ table := t, row := r, who := w, stage := .failed }] } })
  ∧ (∀ (s : State) (t r i o : Nat) (w : FarFor) (e : LogEntry) (l : LogRec),
    s.aq.far = [{ table := t, row := r, who := w, stage := .queued }] → (s.td t).tier ≠ 2 → s.aq.mounted = true →
    s.lidxFind t r = some (i, e) → e.place = .tail o → ((s.aqTail o).recs.find? fun x => x.seq == e.seq) = some l →
    exec (.farRowRequest 0) s =
      .next { s with aq := { s.aq with far := [{ table := t, row := r, who := w, stage := .arrived l.bytes }] } })

/-- Aquifer sets and extents (R280–R284, R296, R301). -/
def Obligations.AquiferSets : Prop :=
  (∀ (s : State) (c : KCmd), s.aq.mounted = true → exec (.aqFormat c) s = .next (s.done c stAqState))
  ∧ (∀ (s : State) (c : KCmd), s.aq.mounted = false → s.aq.set ≠ 1 → slotsOf c.a0.toNat = [] →
    exec (.aqFormat c) s = .next (s.done c stAqBad))
  ∧ (∀ (s : State) (c : KCmd) (n : Fin 8), s.aq.mounted = false → s.aq.set ≠ 1 → slotsOf c.a0.toNat = [n.val] →
    c.a0.toNat < 256 → (s.aqSlot n.val).st = .blank → 1 ≤ c.a1.toNat → c.a1.toNat ≤ 50 →
    ∃ t sid gen, exec (.aqFormat c) s = .next t ∧ (t.aqSlot n.val).st = .ident
      ∧ (t.drive n.val).label = some
          { setId := sid, ordinal := 0, gen := gen, members := 1, logSegs := (s.drive n.val).lbas * c.a1.toNat / 100 / segPages }
      ∧ (t.drive n.val).segs = [] ∧ (t.drive n.val).home = [])
  ∧ (∀ (s : State) (c : KCmd) (f : Byte), s.aq.mounted = false → s.aq.set ≠ 1 → (∀ n < 8, (s.drive n).label = none) →
    exec (.aqMount c f) s = .next (State.done
      { s with aq := { s.aq with set := 4, lidx := [], tails := [], exts := [], members := 0, cur := none } } c stAqBad))
  ∧ (∀ (s : State) (c : KCmd) (f : Byte), s.aq.mounted = true → exec (.aqMount c f) s = .next (s.done c stAqState))
  ∧ (∀ (s : State) (c : KCmd), s.aq.mounted = false →
    exec (.aqSync c) s = .next (s.done c stAqState) ∧ exec (.aqExtCreate c) s = .next (s.done c stAqState)
    ∧ exec (.aqExtFree c) s = .next (s.done c stAqState) ∧ exec (.aqAdopt c) s = .next (s.done c stAqState))
  ∧ (∀ (s : State) (c : KCmd), s.aq.mounted = true → (∀ o < 8, (s.aqTail o).recs = []) →
    exec (.aqSync c) s = .next (s.syncMark.done c stSuccess) ∧ s.syncMark.aq.gen = s.aq.gen + 1
      ∧ s.syncMark.aq.synced = s.aq.useq)
  ∧ (∀ (s : State) (c : KCmd) (lba : Nat), s.aq.mounted = true → (s.aqExt c.a0.toNat).st = 0 → c.a1.toNat < 256 →
    maskBits (BitVec.ofNat 8 c.a1.toNat) ≠ [] → 1 ≤ c.a2.toNat → c.a2.toNat ≤ 4 → c.a3.toNat ≠ 0 →
    (∀ o ∈ maskBits (BitVec.ofNat 8 c.a1.toNat), ∃ n, s.memberSlot o = some n ∧ c.a2.toNat ≤ (s.drive n).awun) →
    s.findLbas (BitVec.ofNat 8 c.a1.toNat)
      ((c.a3.toNat + (maskBits (BitVec.ofNat 8 c.a1.toNat)).length - 1) / (maskBits (BitVec.ofNat 8 c.a1.toNat)).length
        * c.a2.toNat) = some lba →
    exec (.aqExtCreate c) s = .next ((State.writeLabels { s with aq := { s.aq with
      exts := s.aq.exts.set c.a0.toNat
        { st := 1, mask := BitVec.ofNat 8 c.a1.toNat, pgn := c.a2.toNat, gen := (s.aqExt c.a0.toNat).gen + 1, pages := c.a3.toNat, homeLba := lba } } }).done c stSuccess
      (BitVec.ofNat 64 (((s.aqExt c.a0.toNat).gen + 1).toNat * 2 ^ 32 + c.a0.toNat))))
  ∧ (∀ (s : State) (c : KCmd), s.aq.mounted = true → (s.aqExt (c.a0.toNat % 4096)).st ≠ 0 →
    c.a0.toNat = (s.aqExt (c.a0.toNat % 4096)).gen.toNat * 2 ^ 32 + c.a0.toNat % 4096 →
    exec (.aqExtFree c) s = .next (if s.extInUse c.a0.toNat then s.done c stAqInUse
      else (State.writeLabels { s with aq := { s.aq with
        exts := s.aq.exts.set (c.a0.toNat % 4096) { s.aqExt (c.a0.toNat % 4096) with st := 0, lost := 0 } } }).done c stSuccess))
  ∧ (∀ (s : State) (c : KCmd), s.aq.mounted = true → (s.aqSlot c.a0.toNat).st = .blank →
    s.aq.members.getLsbD c.a1.toNat = true → s.memberSlot c.a1.toNat = none →
    ∃ t, exec (.aqAdopt c) s = .next t ∧ (t.aqSlot c.a0.toNat).st = .member
      ∧ (t.aqSlot c.a0.toNat).ordinal = BitVec.ofNat 3 c.a1.toNat ∧ t.aq.setId = s.aq.setId)

/-- Drive events, NVMe I/Os, tails and compaction (R279, R281, R291–R304). -/
def Obligations.DrivesAndTails : Prop :=
  (∀ (s : State) (c : KCmd), (s.aqSlot c.a0.toNat).st = .empty → exec (.aqSlotOff c) s = .next (s.done c stAqBad))
  ∧ (∀ (s : State) (c : KCmd), (s.aqSlot c.a0.toNat).st = .blank → (∀ x ∈ s.aq.ios, x.slot ≠ c.a0.toNat) →
    exec (.aqSlotOff c) s = .next (((s.updAqSlot c.a0.toNat fun a => { a with st := .safe, speed := 0, width := 0 }).aqSettle.emit
      (.nvme c.a0.toNat "Shutdown" 0 0)).done c stSuccess))
  ∧ (∀ (s : State) (io : AqIo) (n : Nat), s.aq.ios[n]? = some io →
    exec (.nvmeCompletion n 0) s = .next (s.ioEnd io (s.flashBytes io.slot io.op))
    ∧ exec (.nvmeCompletion n 0x281) s = .next ((s.aqFault io.slot 0x0901 2 io.lba 1 0x281).ioEnd io fun _ => .failed)
    ∧ (∀ st : W16, st ≠ 0 → st ≠ 0x281 → io.retried = false →
        let s1 := s.aqFault io.slot 0x0901 2 io.lba 1 st.toNat
        exec (.nvmeCompletion n st) s = .next (State.emit { s1 with aq := { s1.aq with
          ios := s1.aq.ios.map fun (x : AqIo) => if x.id = io.id
            then { io with retried := true, issued := s.time.now, aborted := false } else x } }
          (.nvme io.slot "Read" io.lba 1)))
    ∧ (io.aborted = false → s.elapsed io.issued (max 1 s.aq.ioTmo.toNat * 1000000) = true →
        let s1 := { s with aq := { s.aq with ios := s.aq.ios.map fun (x : AqIo) => if x.id = io.id then { x with aborted := true } else x } }
        exec (.nvmeIoTimeout n) s = .next ((s1.aqFault io.slot 0x0901 8 io.lba 1).emit (.nvme io.slot "Abort" io.lba 1)))
    ∧ (s.elapsed io.issued (max 1 s.aq.ioTmo.toNat * 1000000) = false → exec (.nvmeIoTimeout n) s = .next s))
  ∧ (∀ (s : State) (n : Fin 8) (io : AqIo), s.aq.ios = [io] → io.slot = n.val →
    s.elapsed io.issued (2 * (max 1 s.aq.ioTmo.toNat * 1000000)) = true →
    exec (.nvmeControllerReset n) s = .next (((s.ioEnd io fun _ => .failed).aqFault n.val 0x0901 2 io.lba 1).emit
      (.nvme n.val "ControllerReset" 0 0)))
  ∧ (∀ (s : State) (n : Fin 8) (ser : Nat) (lbas : BitVec 48) (awun : BitVec 8), s.slotExists n.val = true →
    (s.aqSlot n.val).st = .empty → s.aq.drives.find n.val = none → s.aq.shelf.find ser = none → s.rails.pser = true →
    s.hubRuns = true →
    ∃ t, exec (.aqDriveInsert n ser lbas awun) s = .next t ∧ (t.aqSlot n.val).st = .training
      ∧ (t.aqSlot n.val).prsnt = true ∧ (t.aqSlot n.val).pdc = true
      ∧ t.drive n.val = { serial := ser, lbas := lbas.toNat, awun := awun.toNat })
  ∧ (∀ (s : State) (n : Fin 8) (sp : BitVec 2) (w : BitVec 5) (ok : Bool), (s.aqSlot n.val).st = .training →
    (s.drive n.val).label = none →
    exec (.aqDriveIdentified n sp w ok) s = .next ((s.updAqSlot n.val fun a => { a with speed := sp, width := w }).updAqSlot
      n.val fun a => { a with st := if ok = false ∨ (s.drive n.val).awun = 0 then .unsupported else .blank }))
  ∧ (∀ (s : State) (n : Fin 8), (s.aqSlot n.val).st = .safe → exec (.aqDriveRemoveSafe n) s =
      .next ((State.updAqSlot { s with aq := { s.aq with
          drives := s.aq.drives.del n.val, shelf := s.aq.shelf.set (s.drive n.val).serial (s.drive n.val) } } n.val
        fun a => { a with st := .empty, prsnt := false, pdc := true, ordinal := 0 }).irqIf (s.aqSlot n.val).pdc 6))
  ∧ (∀ (s : State) (n : Fin 8) (b : Bool), (s.aqSlot n.val).st = .safe → exec (.aqSurpriseRemoval n b) s = .next s)
  ∧ (∀ (s : State) (n : Fin 8) (b : Bool), (s.aqSlot n.val).st ≠ .safe → (s.aqSlot n.val).st ≠ .empty →
    exec (.aqSurpriseRemoval n b) s = .next (s.driveLost n.val b))
  ∧ (∀ (s : State) (n : Fin 8) (b : Bool), (s.aqSlot n.val).speed = 0 → exec (.aqLinkLoss n b) s = .next s)
  ∧ (∀ (s : State) (n : Fin 8), (s.aqSlot n.val).speed ≠ 0 → exec (.aqLinkLoss n false) s = .next (s.driveLost n.val true))
  ∧ (∀ (s : State) (o : Fin 8), s.aq.mounted = true → (s.aqTail o.val).recs ≠ [] →
    ((s.aqTail o.val).full = true → exec (.tailWrite o) s = .next (s.tailWrite o.val).2)
    ∧ (s.elapsed (s.aqTail o.val).first (s.aq.tailUs.toNat * 1000) = true →
        exec (.tailTimerExpiry o) s = .next (s.tailWrite o.val).2)
    ∧ (s.elapsed (s.aqTail o.val).first (s.aq.tailUs.toNat * 1000) = false → exec (.tailTimerExpiry o) s = .next s))
  ∧ (∀ (s : State) (o : Fin 8), s.memberSlot o.val = none → exec (.compaction o) s = .next s)
  ∧ (∀ (s : State) (o : Fin 8) (n g : Nat) (sg : LogSeg), s.memberSlot o.val = some n → (s.drive n).segs = [(g, sg)] →
    s.aq.lidx = [] → s.aq.ios = [] →
    exec (.compaction o) s = .next (State.emit { s.updDrive n fun d => { d with segs := [] } with
      aq := { (s.updDrive n fun d => { d with segs := [] }).aq with logFull := false } } (.nvme n "Deallocate" (logLba g 0) segPages)))

/-! ### Lookups (09) -/

/-- DISPATCHER_BAG, STACK_ROW_REQUEST, LU_ROW_ARRIVAL, LATE_TIME and PARTIAL_ARRIVAL (R228, R304, R327–R340). -/
def Obligations.LookupPath : Prop :=
  (∀ (s : State) (st : Fin 12) (q : RowReq), s.lk.rows = [q] → q.stage = .stack st.val → s.rst.dieRst = [] →
    (q.route = .home → exec (.stackRowRequest st 0) s =
      .next ((s.countRow st.val (s.rowDA (s.td q.table) q.row) none).updRow q.rid fun x =>
        { x with stage := .reading st.val (s.rowDA (s.td q.table) q.row) }))
    ∧ (∀ i e t, q.route = .fountain → s.dirProbe st.val q.table q.row none = (some (i, e), t) → e.filling = false →
        exec (.stackRowRequest st 0) s = .next ((t.countRow st.val e.slot none).updRow q.rid fun x =>
          { x with stage := .reading st.val e.slot }))
    ∧ (∀ i e t, q.route = .hot → s.bd.en = true → (s.bucket (bucketOf q.table q.row)).stack.toNat = st.val →
        (s.bucket (bucketOf q.table q.row)).mig = false →
        s.dirProbe st.val q.table q.row (some (s.bucket (bucketOf q.table q.row)).frame.toNat) = (some (i, e), t) →
        e.filling = false →
        exec (.stackRowRequest st 0) s = .next ((t.countRow st.val e.slot (some (bucketOf q.table q.row))).updRow q.rid
          fun x => { x with stage := .reading st.val e.slot }))
    ∧ (q.route = .hot → s.bd.en = true → (s.bucket (bucketOf q.table q.row)).stack.toNat ≠ st.val →
        s.entriesUsed (s.bucket (bucketOf q.table q.row)).stack.toNat < 384 →
        exec (.stackRowRequest st 0) s = .next ((s.spawnFrag q).updRow q.rid fun x => { x with
          stage := .stack (s.bucket (bucketOf q.table q.row)).stack.toNat
          owner := (s.bucket (bucketOf q.table q.row)).stack.toNat, route := .hot
          entry := some (s.bucket (bucketOf q.table q.row)).stack.toNat })))
  ∧ (∀ (s : State) (st : Fin 12) (q : RowReq) (l : LList) (da : Nat), s.lk.rows = [q] → q.stage = .reading st.val da →
    s.rst.dieRst = [] → s.list? q.list = some l → q.settled = false →
    let d := s.td q.table
    let s1 := s.touch da d.span
    let x := s1.readDA da d.span
    (x.unmapped = false → x.poison = false → d.absent (l.rowBytes d x.data) = false →
      exec (.luRowArrival st 0) s = .next ((s1.rowPool q l d (some (l.rowBytes d x.data))).listTry l.id))
    ∧ (x.unmapped = false → x.poison = true → q.route = .home → q.kind2 = false → d.latePol = 1 →
      exec (.luRowArrival st 0) s = .next ((s1.substitute { q with stage := .dispatcher } l d).listTry l.id)))
  ∧ (∀ (s : State) (l : LList), s.lk.lists = [l] → l.deadline ≠ 0 → l.lateDone = false → l.deadline - l.margin ≤ s.time.now →
    exec (.lateTime 0) s = .next (((State.updList s l.id fun x => { x with lateDone := true }).lateRows l.id).listTry l.id))
  ∧ (∀ (s : State) (l : LList), s.lk.lists = [l] → (l.deadline = 0 ∨ l.lateDone = true ∨ s.time.now < l.deadline - l.margin) →
    exec (.lateTime 0) s = .next s)
  ∧ (∀ (s : State) (c : Fin 100), s.lk.rows = [] → s.openLists c.val = [] →
    exec (.dispatcherBag c 0) s =
      .next { s with lk := { s.lk with cstall := s.lk.cstall.filter (· != c.val) } })
  ∧ (∀ (s : State) (c : Fin 100) (l : LList), s.lk.rows = [] →
    let s0 := { s with lk := { s.lk with cstall := s.lk.cstall.filter (· != c.val) } }
    s0.openLists c.val = [l] → s0.mergeUsed l.core + l.mergeBytes (s0.td l.table) ≤ 262144 →
    let s1 := { s0 with lk := { s0.lk with mstall := s0.lk.mstall.filter (· != c.val) } }
    exec (.dispatcherBag c 0) s = .next (((s1.bag l).listTry l.id).dispatchSend c.val))
  ∧ (∀ (s : State) (k : Fin 1200) (f : Frag) (l : LList), s.lk.frags = [f] → f.sent = true → s.list? f.list = some l →
    l.core = k.val → (s.injFires 7 k.val = false ∨ l.slotted = true) →
    exec (.partialArrival k 0) s = .next ((((State.meshInject { s with lk := { s.lk with frags := [] } } l.cluster).absorb
      l f).bagTry f.list f.bag).listTry f.list))

/-! ### Live updates (10) -/

/-- UPD_BATCH, UPDATE_RECORD, BATCH_COMPLETE, TBL_FLIP, FLIP_HOLD_DRAINED, the flip's markers and UPDATE_READ_COMPLETE
(R348–R368). -/
def Obligations.UpdateFlow : Prop :=
  (∀ (s : State) (c : KCmd), s.batchesHeld = false → c.a0.toNat % 64 ≠ 0 →
    exec (.updBatch c) s = .next (s.done c stSqField))
  ∧ (∀ (s : State) (c : KCmd), s.pl.role = .active → s.pl.txFull = true → s.pl.hold = true →
    exec (.updBatch c) s = .next s)
  ∧ (∀ (s : State) (c : KCmd), s.batchesHeld = false → c.a0.toNat % 64 = 0 → fromMirror c = false →
    s.recall c.a0.toNat 64 = none →
    let s1 := s.touch c.a0.toNat 64
    let h := (s1.readDA c.a0.toNat 64).data
    let b := batchOf (.queue c.q.val c.cid) (s1.queue c.q.val).part.toNat c.a0.toNat h
    (s1.readDA c.a0.toNat 64).bad = none → (s1.td b.table).serves = true → (s1.td b.table).part = b.part →
    s1.pl.role ≠ .standby → s1.pl.role ≠ .standbyIncomplete → leAt h 0 4 < 2 ^ 18 → leAt h 4 1 < 4 → leAt h 6 2 = 0 →
    leAt h 12 4 = 0 → leAt h 48 8 = 0 → b.nextDa < 2 ^ 52 → b.nextDa % 8 = 0 → 1 ≤ b.count → b.count ≤ 2 ^ 24 →
    (b.flip = false ∨ (s1.td b.table).pub = true) →
    exec (.updBatch c) s = .next { s1 with upd := { s1.upd with
      batches := s1.upd.batches.set s1.upd.nextBatch b, nextBatch := s1.upd.nextBatch + 1 } })
  ∧ (∀ s : State, s.upd.batches = [] → exec (.updateRecord 0) s = .next s)
  ∧ (∀ (s : State) (id : Nat) (b : Batch), s.upd.batches = [(id, b)] → b.stopped = false → b.taken < b.count →
    s.int.rbClosing = none → s.recordPlace b.nextDa 8 = false →
    (∀ n, s.recall b.nextDa n = none) →
    exec (.updateRecord 0) s = .next { s with upd := { s.upd with batches := [(id, { b with status := 3, stopped := true })] } })
  ∧ (∀ (s : State) (id : Nat) (b : Batch), s.upd.batches = [(id, b)] → b.taken = b.count → s.upd.recs = [] →
    b.flip = false → b.close = false → s.pl.busy = false →
    exec (.batchComplete 0) s = .next (State.batchReport { s with upd := { s.upd with batches := [] } } b).swapGo)
  ∧ (∀ (s : State) (c : KCmd), (s.td c.a0.toNat).serves = false → exec (.tblFlip c) s = .next (s.done c stTblState))
  ∧ (∀ (s : State) (c : KCmd), (s.td c.a0.toNat).serves = true → (s.td c.a0.toNat).pub = false →
    exec (.tblFlip c) s = .next (s.done c stTblBad))
  ∧ (∀ (s : State) (c : KCmd), (s.td c.a0.toNat).serves = true → (s.td c.a0.toNat).pub = true → s.upd.flips = [] →
    s.int.rbClosing = none → s.pl.keeps = false →
    exec (.tblFlip c) s = .next { s with upd := { s.upd with
      flips := [{ table := c.a0.toNat, cmd := some (c.q.val, c.cid) }] } })
  ∧ (∀ (s : State) (f : Flip), s.upd.flips = [f] → f.flipped = false → (∀ x ∈ s.upd.recs, x.table = f.table → x.why = 3) →
    exec (.flipHoldDrained 0) s = .next { s with upd := { s.upd with
      pub := s.upd.pub.set f.table (!s.half f.table), flips := [{ f with flipped := true }] } })
  ∧ (∀ (s : State) (f : Flip) (q : Nat) (cid : W16), s.upd.flips = [f] → f.flipped = true → f.batch = none →
    f.cmd = some (q, cid) → (∀ l ∈ s.lk.lists, l.table = f.table → l.half = s.half f.table) →
    exec (.markerRoundComplete 2 0) s =
      .next ((State.complete { s with upd := { s.upd with flips := [] } } q cid stSuccess).releaseHeld))
  ∧ (∀ (s : State) (x : PendRec) (t r : Nat) (bs : List Byte),
    s.aq.far = [{ table := t, row := r, who := .update x.id, stage := .arrived bs }] → s.upd.recs = [x] →
    exec (.updateReadComplete 0) s = .next (State.stepRec { s with
      aq := { s.aq with far := [] }, upd := { s.upd with recs := [{ x with got := true, why := 4, old := some bs }] } } x.id))
  ∧ (∀ (s : State) (st : Fin 12), (∀ x ∈ s.upd.recs, x.why ≠ 1) → exec (.journalSpaceFreed st) s = .next s)

/-- UPD_EPOCH, EPOCH_TIMER, EPOCH_MARKER_REACHED, DGST_REBUILD, HUB_UPD_CTL, HUB_DGS and UU_JNL (R369, R379–R387). -/
def Obligations.EpochsAndDigests : Prop :=
  (∀ (s : State) (c : KCmd), s.upd.closeCmds = [] → s.upd.closing = none →
    exec (.updEpoch c) s = .next { s with upd := { s.upd with
      closeCmds := [(s.upd.accepting, c.q.val, c.cid)], closing := some s.upd.epoch, markers := List.range 96
      openedAt := s.time.now, saved := s.upd.dig.filter fun kv => kv.1 / 256 == hubUnit } })
  ∧ (∀ (s : State) (u : Fin 96) (n : Nat), s.upd.closing = some n → s.upd.markers.contains u.val = true →
    s.upd.recs = [] →
    let s1 := { s with upd := { s.upd with
      markers := s.upd.markers.filter (· != u.val)
      saved := (s.upd.dig.filter fun kv => kv.1 / 256 == u.val).foldl
        (fun (m : SMap D128) (kv : Nat × D128) => m.set kv.1 kv.2) s.upd.saved } }
    exec (.epochMarkerReached u) s = .next (if s1.upd.markers = [] then s1.epochClosed n else s1))
  ∧ (∀ s : State, (s.upd.auto = false ∨ s.elapsed s.upd.openedAt (s.upd.epochUs.toNat * 1000) = false) →
    exec .epochTimer s = .next s)
  ∧ (∀ s : State, s.upd.auto = true → s.upd.closing = none → s.elapsed s.upd.openedAt (s.upd.epochUs.toNat * 1000) = true →
    s.pl.role = .solo →
    exec .epochTimer s = .next { s with upd := { s.upd with
      closing := some s.upd.epoch, markers := List.range 96
      openedAt := s.time.now, saved := s.upd.dig.filter fun kv => kv.1 / 256 == hubUnit } })
  ∧ (∀ (s : State) (c : KCmd), s.upd.rebuild = none → s.int.rbClosing = none → s.upd.recs = [] →
    s.digestTables c.a0.toNat = [] →
    exec (.dgstRebuild c) s = .next (State.done { (s.digAdd hubUnit c.a0.toNat (0 - SMap.digSum s.upd.dig c.a0.toNat)) with
      upd := { (s.digAdd hubUnit c.a0.toNat (0 - SMap.digSum s.upd.dig c.a0.toNat)).upd with
        rebuild := none, broken := s.upd.broken.filter (· != c.a0.toNat) } } c stSuccess))
  ∧ (∀ (s : State) (p : AccessPath) (v : W32), s.csrWritable p .hub = true → field v 16 7 = s.upd.e → s.upd.e ≠ 0 →
    s.upd.e.toNat ≤ 64 → bit v 23 = false →
    exec (.hubUpdCtlWrite p v) s = .next { s with upd := { s.upd with
      epochUs := if field v 0 16 = 0 then 1 else field v 0 16, auto := false, err := s.upd.err && !bit v 24 } })
  ∧ (∀ (s : State) (p : AccessPath) (v : W32), s.csrWritable p .hub = true → s.tda.live = [] →
    exec (.hubDgsWrite p v) s = .next { s with upd := { s.upd with
      dgsBase := field v 0 24, dgsSize := if field v 24 8 = (0 : Byte) then 1 else field v 24 8, ring := [] } })
  ∧ (∀ (s : State) (p : AccessPath) (st : Fin 12) (v : W32), s.csrWritable p (.stack st.val) = true → s.tda.live = [] →
    (s.uuStack st.val).kept = [] →
    exec (.uuJnlWrite p st v) s = .next (s.updUu st.val fun x => { x with
      base := field v 0 24, size := if field v 24 8 = (0 : Byte) then 1 else field v 24 8, wp := 0, kept := [] }))
  ∧ (∀ (s : State) (p : AccessPath) (v : W32), s.csrWritable p .hub = false →
    exec (.hubUpdCtlWrite p v) s = .next s ∧ exec (.hubDgsWrite p v) s = .next s)

/-! ### Tensor cores (11, 12, 14) -/

/-- NOP, SOP, SOPI, SLI, BR, LDS.S, STS.S, END and HOLD (R419–R427). -/
def Obligations.ScalarSlot : Prop :=
  ∀ (s : State) (k : Fin 1200) (w : BitVec 56), s.coreRuns k.val = true → (s.tcore k.val).ended = false →
    (s.tcore k.val).vNext = false → s.injFires 8 k.val = false →
    (∀ e ∈ (s.tcore k.val).fbuf, e.1 = (s.tcore k.val).pc → e.2 ≠ []) →
    let c := s.tcore k.val
    let a := c.sreg (bits w 50 46)
    let iss := fun (t : State) => t.updCore k.val fun x =>
      { x.issued with vNext := true, step1 := false, sOld := c.s }
    let off := csAddr a (sbits w 19 0)
    exec (.coreNop k false) s = .next (iss s)
    ∧ (∀ v, onlyFields w [(55, 51), (50, 46), (45, 41), (40, 37)] = true →
        aluOp (bits w 40 37) a (c.sreg (bits w 45 41)) = some v →
        exec (.sop k w) s = .next (iss (s.updCore k.val fun x => x.setS (bits w 55 51) v)))
    ∧ (onlyFields w [(55, 51), (50, 46), (45, 41), (40, 37)] = false →
        exec (.sop k w) s = .next (s.coreExc k.val 1 false false c.pc (wordOf 0x08 w) none))
    ∧ (onlyFields w [(55, 51), (50, 46), (45, 41), (40, 37)] = true → 10 < bits w 40 37 →
        exec (.sop k w) s = .next (s.coreExc k.val 1 false false c.pc (wordOf 0x08 w) none))
    ∧ (∀ v, onlyFields w [(55, 51), (50, 46), (40, 37), (31, 0)] = true →
        aluOp (bits w 40 37) a (BitVec.ofInt 64 (sbits w 31 0)) = some v →
        exec (.sopi k w) s = .next (iss (s.updCore k.val fun x => x.setS (bits w 55 51) v)))
    ∧ (onlyFields w [(55, 51), (48, 48), (31, 0)] = true → exec (.sli k w) s =
        .next (iss (s.updCore k.val fun x => x.setS (bits w 55 51) (if bits w 48 48 = 1
          then setField (c.sreg (bits w 55 51)) 32 32 (BitVec.ofNat 32 (bits w 31 0))
          else BitVec.ofInt 64 (sbits w 31 0)))))
    ∧ (onlyFields w [(55, 53), (50, 46), (45, 41), (23, 0)] = true → bits w 55 53 ≠ 7 →
        (bits w 55 53 ≠ 0 ∨ bits w 50 41 = 0) →
        exec (.br k w) s = .next (iss (if condHolds (bits w 55 53) a (c.sreg (bits w 45 41))
          then s.updCore k.val fun x =>
            { x with npc := some (((c.pc : Int) + 16 * sbits w 23 0) % 2 ^ 52).toNat }
          else s)))
    ∧ (onlyFields w [(55, 51), (50, 46), (19, 0)] = true → off % 8 ≠ 0 →
        exec (.ldsS k w) s = .next (s.coreExc k.val 4 false false c.pc (wordOf 0x0C w) (some (off, false)))
        ∧ exec (.stsS k w) s = .next (s.coreExc k.val 4 false false c.pc (wordOf 0x0D w) (some (off, false))))
    ∧ (onlyFields w [(55, 51), (50, 46), (19, 0)] = true → off % 8 = 0 → off + 8 ≤ 1048576 →
        s.coreHeld k.val c.here [(off, 8)] [] false = false → s.injFires 1 k.val = false → s.injFires 2 k.val = false →
        (s.readDA (coreStoreDA k.val off) 8).poison = false →
        exec (.ldsS k w) s = .next (iss (s.updCore k.val fun x => x.setS (bits w 55 51)
          (BitVec.ofNat 64 (leNat (s.readDA (coreStoreDA k.val off) 8).data)))))
    ∧ (onlyFields w [(55, 51), (50, 46), (19, 0)] = true → off % 8 = 0 → off + 8 ≤ 1048576 →
        s.coreHeld k.val c.here [] [(off, 8)] true = false →
        exec (.stsS k w) s = .next (iss (s.writeDA (coreStoreDA k.val off) (leBytes 8 (c.sreg (bits w 55 51)).toNat))))
    ∧ (onlyFields w [] = true → s.coreDone k.val = true →
        exec (.coreEnd k w) s = .next (iss (s.updCore k.val fun x => { x with ended := true }))
        ∧ exec (.hold k w) s = .next (iss (s.updCore k.val fun x => { x with fstop := false })))
    ∧ (onlyFields w [] = true → s.coreDone k.val = false →
        exec (.coreEnd k w) s = .next (s.coreWait k.val) ∧ exec (.hold k w) s = .next (s.coreWait k.val))

/-- CWT, LKUP, SLW, SLS, FNC, BAR and DGST with their events (R436–R440, R499–R511). -/
def Obligations.SyncAndLookupSlot : Prop :=
  (∀ (s : State) (k : Fin 1200) (w : BitVec 56), s.coreRuns k.val = true → (s.tcore k.val).ended = false →
    (s.tcore k.val).vNext = false → s.injFires 8 k.val = false →
    (∀ e ∈ (s.tcore k.val).fbuf, e.1 = (s.tcore k.val).pc → e.2 ≠ []) →
    let c := s.tcore k.val
    let iss := fun (t : State) => t.updCore k.val fun x =>
      { x.issued with vNext := true, step1 := false, sOld := c.s }
    let exc := fun (code opc : Nat) => s.coreExc k.val code false false c.pc (wordOf opc w) none
    (bits w 52 52 = 0 → onlyFields w [(55, 53), (52, 52), (50, 46)] = true →
      exec (.cwtWait k w) s = .next (if (c.ctr.get 0 (bits w 55 53) - (c.sreg (bits w 50 46)).setWidth 32).toNat < 2 ^ 31
        then iss s else s.coreWait k.val))
    ∧ (bits w 52 52 = 1 → onlyFields w [(55, 53), (52, 52), (45, 41)] = true →
      exec (.cwtRead k w) s = .next (iss (s.updCore k.val fun x => x.setS (bits w 45 41)
        ((c.ctr.get 0 (bits w 55 53)).setWidth 64))))
    ∧ (onlyFields w [(55, 51)] = true → (c.sreg (bits w 55 51)).toNat % 64 = 0 → (c.sreg (bits w 55 51)).toNat + 64 ≤ 1048576 →
      s.coreHeld k.val c.here [((c.sreg (bits w 55 51)).toNat, 64)] [] false = false → s.lk.lists = [] →
      s.injFires 1 k.val = false → s.injFires 2 k.val = false →
      (s.readDA (coreStoreDA k.val (c.sreg (bits w 55 51)).toNat) 64).poison = false →
      exec (.lkup k w) s = .next (iss (s.listIssue k.val (coreStoreDA k.val (c.sreg (bits w 55 51)).toNat)
        (s.readDA (coreStoreDA k.val (c.sreg (bits w 55 51)).toNat) 64).data)))
    ∧ (onlyFields w [(55, 50), (49, 49), (48, 41)] = true → bits w 48 41 = 0 →
      exec (.slw k w) s = .next (exc 2 0x20) ∧ exec (.sls k w) s = .next (exc 2 0x21))
    ∧ (∀ side peer sl, onlyFields w [(55, 50), (49, 49), (48, 41)] = true → bits w 48 41 ≠ 0 →
      c.sluice (bits w 55 50) = some (side, peer, sl) →
      (side = bits w 49 49 → exec (.slw k w) s = .next (if bits w 48 41 ≤ (c.sem.get 0 (bits w 55 50)).toNat
          then iss (s.updCore k.val fun x => { x with
            sem := x.sem.set (bits w 55 50) (x.sem.get 0 (bits w 55 50) - BitVec.ofNat 32 (bits w 48 41)) })
          else s.coreWait k.val)
        ∧ exec (.sls k w) s = .next (exc 0x0D 0x21))
      ∧ (side ≠ bits w 49 49 → exec (.slw k w) s = .next (exc 0x0D 0x20)
        ∧ exec (.sls k w) s = .next (if s.coreDone k.val
          then iss { s with co := { s.co with
            signals := s.co.signals ++ [{ src := k.val, dst := peer, sl := sl, cnt := bits w 48 41 }] } }
          else s.coreWait k.val)))
    ∧ (onlyFields w [(55, 54)] = true →
      (bits w 55 54 = 0 → exec (.fncA k w) s = .next (iss (s.updCore k.val fun x => { x with fa := x.nextSeq })))
      ∧ (bits w 55 54 = 1 → exec (.fncR k w) s = .next (iss (s.updCore k.val fun x => { x with fr := x.nextSeq })))
      ∧ (bits w 55 54 = 2 → exec (.fncF k w) s = .next (if s.accessesDone k.val then iss s else s.coreWait k.val))
      ∧ (bits w 55 54 = 3 → exec (.fncF k w) s = .next (exc 1 0x22)))
    ∧ (let b := (s.cluster (coreCluster k.val)).bars.get 0 (bits w 55 52)
      onlyFields w [(55, 52)] = true →
      ((bit b 12 && b.getLsbD (k.val % 12)) = false → exec (.bar k w) s = .next (exc 0x0D 0x23))
      ∧ ((bit b 12 && b.getLsbD (k.val % 12)) = true → s.coreDone k.val = true →
        exec (.bar k w) s = .next (iss (s.updCore k.val fun x =>
          { x with bar := some (bits w 55 52), waitDue := some s.gtoDue }))))
    ∧ (let src := (c.sreg (bits w 55 51)).toNat
      let dst := (c.sreg (bits w 45 41)).toNat
      let n := 64 * (bits w 40 33 + 1)
      onlyFields w [(55, 51), (50, 46), (45, 41), (40, 33), (32, 32), (31, 31)] = true → src % 64 = 0 → dst % 16 = 0 →
      src + n ≤ 1048576 → dst + 16 ≤ 1048576 → bits w 32 32 = 0 →
      s.coreHeld k.val c.here [(src, n)] [(dst, 16)] true = false → s.injFires 1 k.val = false → s.injFires 2 k.val = false →
      (s.readDA (coreStoreDA k.val src) n).poison = false →
      exec (.dgst k w) s = .next (iss (s.writeDA (coreStoreDA k.val dst) (leBytes 16
        (s.tensorDigest (bits w 31 31 == 1) (c.sreg (bits w 50 46)) (s.readDA (coreStoreDA k.val src) n).data % 2 ^ 128))))))
  ∧ (∀ (s : State) (g : Signal), s.co.signals = [g] → s.partOf (coreCluster g.dst) = none →
    exec (.sluiceSignalArrival 0) s = .next (State.updCore { s with co := { s.co with signals := [] } } g.dst fun x =>
      { x with sem := x.sem.set g.sl (x.sem.get 0 g.sl + BitVec.ofNat 32 g.cnt) }))
  ∧ (∀ (s : State) (p b : Fin 16) (k : Nat), s.barCores p.val b.val = [k] → (s.tcore k).bar = some b.val →
    (s.co.bars.get {} (p.val * 16 + b.val)).pair = false →
    exec (.barrierRelease p b false) s = .next (s.updCore k fun x => { x with bar := none, waitDue := none }))

/-- WSTG, MMA, PULL and PUSH with their events (R391–R409, R430, R436, R450, R491–R494). -/
def Obligations.TilesAndTransfers : Prop :=
  (∀ (s : State) (k : Fin 1200) (w : BitVec 56), s.coreRuns k.val = true → (s.tcore k.val).ended = false →
    (s.tcore k.val).vNext = false → s.injFires 8 k.val = false →
    (∀ e ∈ (s.tcore k.val).fbuf, e.1 = (s.tcore k.val).pc → e.2 ≠ []) →
    let c := s.tcore k.val
    let iss := fun (t : State) => t.updCore k.val fun x =>
      { x.issued with vNext := true, step1 := false, sOld := c.s }
    let off := (c.sreg (bits w 55 51)).toNat
    (onlyFields w [(55, 51), (49, 45), (44, 40), (39, 35)] = true →
      (pairShape (bits w 44 40) (bits w 39 35) = none →
        exec (.wstg k w) s = .next (s.coreExc k.val 3 false false c.pc (wordOf 0x10 w) none))
      ∧ (pairShape (bits w 44 40) (bits w 39 35) ≠ none → off % 64 = 0 →
        off + 64 * tileLines (bits w 49 45 + 1) (bits w 44 40) (bits w 39 35) ≤ 1048576 →
        c.staging = .free → c.stgQ = [] →
        exec (.wstg k w) s = .next (iss (s.updCore k.val fun x => { x with
          coming := x.coming ++ [(bits w 49 45 + 1, bits w 44 40, bits w 39 35)]
          staging := .loading
            { off := off, n := bits w 49 45 + 1, afmt := bits w 44 40, wfmt := bits w 39 35, pc := c.pc
              w := wordOf 0x10 w, pos := c.here } }))))
    ∧ (onlyFields w [(55, 50), (49, 45), (44, 37), (36, 31), (30, 29), (28, 28), (27, 27), (26, 25), (24, 20)] = true →
      bits w 27 27 = 0 → c.cur = none → bits w 30 29 ≠ 3 → bits w 26 25 ≠ 3 → bits w 28 28 = 0 → bits w 30 29 ≠ 2 →
      bits w 24 20 % 2 = 0 →
      exec (.mma k w) s = .next (s.coreExc k.val 6 false false c.pc (wordOf 0x11 w) none))
    ∧ (∀ t : Nat × Nat × Nat,
      onlyFields w [(55, 50), (49, 45), (44, 37), (36, 31), (30, 29), (28, 28), (27, 27), (26, 25), (24, 20)] = true →
      bits w 27 27 = 0 → c.cur = some t → bits w 30 29 ≠ 3 → bits w 26 25 ≠ 3 → bits w 28 28 = 0 → bits w 30 29 ≠ 2 →
      bits w 24 20 % 2 = 0 → c.mq.length < 4 →
      let q : MmaReq :=
        { w := w, sx := c.sreg (bits w 24 20), sx1 := 0, tileN := t.1, afmt := t.2.1, wfmt := t.2.2
          pc := c.pc, pos := c.here }
      q.check = none →
      exec (.mma k w) s = .next (iss (s.updCore k.val fun x => { x with mq := x.mq ++ [q] })))
    ∧ (onlyFields w [(55, 51), (50, 48), (47, 47), (46, 44), (43, 43)] = true → off % 64 = 0 → off + 64 ≤ 1048576 →
      (c.chan (bits w 50 48 + 8 * bits w 47 47)).length < 4 →
      let x := fun (push : Bool) (opc : Nat) =>
        ({ push := push, desc := off, pc := c.pc, w := wordOf opc w, pos := c.here
           ctr := if bits w 43 43 = 1 then some (bits w 46 44) else none } : Xfer)
      let ch := bits w 50 48 + 8 * bits w 47 47
      exec (.pull k w) s = .next (iss (s.updCore k.val fun y => { y with
        xfer := y.xfer.set ch (y.xfer.get [] ch ++ [x false 0x18]) }))
      ∧ exec (.push k w) s = .next (iss (s.updCore k.val fun y => { y with
        xfer := y.xfer.set ch (y.xfer.get [] ch ++ [x true 0x19]) })))
    ∧ (onlyFields w [(55, 51), (50, 48), (47, 47), (46, 44), (43, 43)] = true → off % 64 ≠ 0 →
      exec (.pull k w) s = .next (s.coreExc k.val 4 false false c.pc (wordOf 0x18 w) (some (off, false)))
      ∧ exec (.push k w) s = .next (s.coreExc k.val 4 false false c.pc (wordOf 0x19 w) (some (off, false)))))
  ∧ (∀ (s : State) (k : Fin 1200) (r : WstgReq), (s.tcore k.val).staging = .loading r → (s.tcore k.val).stopped = false →
    let n := 64 * tileLines r.n r.afmt r.wfmt
    s.coreHeld k.val r.pos [(r.off, n)] [] false = false → s.injFires 1 k.val = false → s.injFires 2 k.val = false →
    (s.readDA (coreStoreDA k.val r.off) n).poison = false →
    let t : Tile := { n := r.n, afmt := r.afmt, wfmt := r.wfmt, img := (s.readDA (coreStoreDA k.val r.off) n).data }
    exec (.wstgStagingComplete k) s = .next (s.updCore k.val fun x => { x with staging := .staged t }))
  ∧ (∀ (s : State) (k : Fin 1200) (q : MmaReq) (rest : List MmaReq) (t : Tile), (s.tcore k.val).mq = q :: rest →
    (s.tcore k.val).run = none → (s.tcore k.val).stopped = false → s.injFires 7 k.val = false →
    s.coreHeld k.val q.pos q.touch.reads q.touch.writes q.fin = false →
    (q.crest = true → (s.tcore k.val).staging = .staged t → exec (.mmaStart k) s =
        .next (((s.updCore k.val fun x => { x.nextStage with active := some t }).updCore k.val fun x =>
          { x with mq := rest }).mmaRun k.val q t))
    ∧ (q.crest = false → (s.tcore k.val).active = some t → exec (.mmaStart k) s =
        .next ((s.updCore k.val fun x => { x with mq := rest }).mmaRun k.val q t)))
  ∧ (∀ (s : State) (k : Fin 1200) (r : MmaRun), (s.tcore k.val).run = some r →
    exec (.mmaComplete k) s = .next ((r.writes.foldl (fun st x => st.writeDA (coreStoreDA k.val x.1) x.2) s).updCore k.val
      fun c => { c with run := none, flags := c.flags ||| BitVec.ofNat 6 r.flags, k0 := c.k0 || r.k0 }))
  ∧ (∀ (s : State) (k : Fin 1200) (ch : Fin 16) (x : Xfer) (i : Nat), (s.tcore k.val).chan ch.val = [x] → x.moved = true →
    s.performed x.dests = true → x.ctr = some i →
    exec (.transferComplete k ch) s = .next ((s.updCore k.val fun c => { c with xfer := c.xfer.del ch.val }).bumpCtr k.val i))
  ∧ (∀ (s : State) (k : Fin 1200) (ch : Fin 16) (x : Xfer) (db eb : List Byte), (s.tcore k.val).chan ch.val = [x] →
    x.moved = false → x.push = false → x.dsc = some db → x.entry = some eb → s.xferRuns k.val = true →
    let e := entryOf eb
    let da := e.daAt x.rep
    let n := 64 * e.lines
    s.coreHeld k.val x.pos [] [] false = false →
    s.coreHeld k.val x.pos (ownRange k.val da n) (csRanges (e.csAt x.rep) n) true = false → e.comma = false →
    s.rangeCheck (s.inContext k.val) false da e.lines = none → s.recall da n = none →
    s.hub.injArm = false →
    exec (.transferBlock k ch) s = .next (s.moveBlock k.val ch.val x (descOf db) e))

/-- NOP, VOP, VCMP, VSEL, VRED, VBC, PLOG, LDS.V and STS.V (R418, R432–R435). -/
def Obligations.VectorSlot : Prop :=
  ∀ (s : State) (k : Fin 1200) (w : BitVec 56), s.coreRuns k.val = true → (s.tcore k.val).ended = false →
    (s.tcore k.val).vNext = false → s.injFires 7 k.val = false →
    let s1 := s.updCore k.val fun x => { x with sOld := x.s }
    let c := s1.tcore k.val
    let fin := fun (t : State) => (t.updCore k.val fun x => { x.issued with step1 := x.step1 && x.vNext }).closeBundle k.val
    let exc := fun (code opc : Nat) => s1.coreExc k.val code true false c.pc (wordOf opc w) none
    exec (.coreNop k true) s = .next (fin s1)
    ∧ (onlyFields w ([fVD, fPG, fRM, fSUB] ++ vopSources (vSub w)) = true →
      (vSub w ≤ 0x10 → exec (.vop k w) s = .next (fin (s1.updCore k.val fun x => x.putLanes (bits w 55 51) (c.laneOn w)
        fun i => (vopLane (vSub w) (vRm w) (c.vlane (bits w 50 46) i) (c.vlane (bits w 45 41) i)
          (c.vlane (bits w 40 36) i)).getD f32Nan)))
      ∧ (0x10 < vSub w → exec (.vop k w) s = .next (exc 1 0x81)))
    ∧ (onlyFields w [fVA, fVB, fPG, fPD, fSUB] = true → vSub w ≤ 3 →
      let r := fun (i : Nat) => vcmpLane (vSub w) (c.vlane (bits w 50 46) i) (c.vlane (bits w 45 41) i)
      exec (.vcmp k w) s = .next (fin (s1.updCore k.val fun x =>
        (x.setP (bits w 32 30) (lanesOf fun i => c.laneOn w i && (r i).1)).orFlags
          { inv := (List.range 64).any fun i => c.laneOn w i && (r i).2 })))
    ∧ (onlyFields w [fVD, fVA, fVB, fPG, fSUB] = true → vSub w = 0 →
      exec (.vsel k w) s = .next (fin (s1.updCore k.val fun x => x.putLanes (bits w 55 51) (fun _ => true) fun i =>
        { bits := if c.laneOn w i then c.vlane (bits w 50 46) i else c.vlane (bits w 45 41) i })))
    ∧ (onlyFields w [fVD, fVA, fVC, fPG, fRM, fSUB] = true → vSub w = 0 → bits w 50 46 + bits w 40 36 ≤ 31 →
      exec (.vred k w) s = .next (fin (s1.updCore k.val fun x => x.putLanes (bits w 55 51) (c.laneOn w) fun i =>
        redSum (vRm w) ((List.range (bits w 40 36 + 1)).map fun j => c.vlane (bits w 50 46 + j) i))))
    ∧ (onlyFields w [fVD, fPG, fSUB, fVA] = true → vSub w = 0 →
      exec (.vbc k w) s = .next (fin (s1.updCore k.val fun x => x.putLanes (bits w 55 51) (c.laneOn w) fun _ =>
        { bits := (c.sregV (bits w 50 46)).setWidth 32 })))
    ∧ (onlyFields w [(48, 46), (43, 41), fPD, fSUB] = true →
      let a := c.preg (bits w 48 46)
      let b := c.preg (bits w 43 41)
      let put := fun (v : W64) => fin (s1.updCore k.val fun x => x.setP (bits w 32 30) v)
      (vSub w = 0 → exec (.plog k w) s = .next (put (a &&& b)))
      ∧ (vSub w = 1 → exec (.plog k w) s = .next (put (a ||| b)))
      ∧ (vSub w = 2 → exec (.plog k w) s = .next (put (a ^^^ b)))
      ∧ (vSub w = 3 → exec (.plog k w) s = .next (put (a &&& ~~~b)))
      ∧ (3 < vSub w → exec (.plog k w) s = .next (exc 1 0x86)))
    ∧ (onlyFields w [fVD, fVA, fVC, fPG, (19, 0)] = true → bits w 40 36 = 0 →
      let off := csAddr (c.sregV (bits w 50 46)) (sbits w 19 0)
      off % vecAlign 0 = 0 → off + vecBytes 0 ≤ 1048576 →
      s1.coreHeld k.val c.here (laneRanges 0 off (c.laneOn w)) [] false = false →
      s1.injFires 1 k.val = false → s1.injFires 2 k.val = false →
      (∀ x ∈ laneRanges 0 off (c.laneOn w), (s1.readDA (coreStoreDA k.val x.1) x.2).poison = false) →
      exec (.lds k w) s = .next (fin (s1.updCore k.val fun x => x.putLanes (bits w 55 51) (c.laneOn w) fun i =>
        { bits := BitVec.ofNat 32 (packedElem 32 (s1.readDA (coreStoreDA k.val off) (vecBytes 0)).data i) })))
    ∧ (ldsFmt (bits w 40 36) = false → onlyFields w [fVD, fVA, fVC, fPG, (19, 0)] = true →
      exec (.lds k w) s = .next (exc 3 0x88))
    ∧ (onlyFields w [fVD, fVA, fVC, fPG, (32, 32), (31, 30), (19, 0)] = true → bits w 40 36 = 0 →
      let off := csAddr (c.sregV (bits w 50 46)) (sbits w 19 0)
      off % vecAlign 0 = 0 → off + vecBytes 0 ≤ 1048576 →
      s1.coreHeld k.val c.here [] (laneRanges 0 off (c.laneOn w)) true = false →
      let cv := fun (i : Nat) => convVal 0 (Rm.ofCode (bits w 31 30)) (bits w 32 32 == 1) (dec32 (c.vlane (bits w 55 51) i))
      let lanes := (List.range 64).filter (c.laneOn w)
      exec (.sts k w) s = .next (fin ((lanes.foldl (fun st i =>
        st.writeDA (coreStoreDA k.val (off + 4 * i)) (leBytes 4 (cv i).bits)) s1).updCore k.val fun x =>
          x.orFlags (lanes.foldl (fun a i => a.or (cv i).flags) {}))))

/-- FETCH_LINE, CORE_DEFERRED_EXCEPTION and what raising does (R416, R444–R447). -/
def Obligations.FetchAndExceptions : Prop :=
  (∀ (s : State) (k : Fin 1200), (s.tcore k.val).fstop = false → (s.tcore k.val).stopped = false →
    (s.tcore k.val).stream ≠ none → (s.tcore k.val).fbuf.length ≤ 60 → (s.tcore k.val).fpc < 8388608 →
    s.hub.injArm = false →
    let c := s.tcore k.val
    let n := (64 - c.fpc % 64) / 16
    let r := s.readDA (cisternDA (coreCluster k.val) c.fpc) (16 * n)
    (r.poison = true → exec (.fetchLine k) s = .next (s.updCore k.val fun x =>
      { x with fbuf := x.fbuf ++ [(x.fpc, [])], fstop := true }))
    ∧ (r.poison = false → exec (.fetchLine k) s = .next (s.updCore k.val fun x => { x with
        fbuf := x.fbuf ++ (fetchLine n c.fpc r.data).1, fstop := (fetchLine n c.fpc r.data).2
        fpc := x.fpc + 16 * (fetchLine n c.fpc r.data).1.length })))
  ∧ (∀ (s : State) (k : Fin 1200), ((s.tcore k.val).stream = none ∨ (s.tcore k.val).stopped = true) →
    exec (.fetchLine k) s = .next s)
  ∧ (∀ (s : State) (k : Fin 1200), (s.tcore k.val).defq = [] → exec (.coreDeferredException k) s = .next s)
  ∧ (∀ (s : State) (k : Fin 1200) (e : DeferExc) (rest : List DeferExc), (s.tcore k.val).defq = e :: rest → e.code = 9 →
    exec (.coreDeferredException k) s = .next ((s.updCore k.val fun x => { x with defq := rest }).coreExc k.val 9 (bit e.w 63)
      true e.pc e.w (some (e.addr, e.isDa))))
  ∧ (∀ (s : State) (k code pc : Nat) (slot defer : Bool) (w : W64) (a : Option (Nat × Bool)),
    (s.tcore k).exc.v = false → s.partOf (coreCluster k) = none →
    s.coreExc k code slot defer pc w a = State.coreFault (s.updCore k fun x => { x with
      stopped := true, waitDue := none, exc := {
        v := true, code := BitVec.ofNat 8 code, slot := slot, defer := defer, pc := BitVec.ofNat 52 (bundleDA k pc)
        addr := BitVec.ofNat 52 (a.getD (0, false)).1, isDa := (a.getD (0, false)).2 } }) k (0x0100 + code) 0 pc slot w a)
  ∧ (∀ (s : State) (k code pc : Nat) (slot defer : Bool) (w : W64) (a : Option (Nat × Bool)), (s.tcore k).exc.v = true →
    s.coreExc k code slot defer pc w a = s.updCore k fun x =>
      { x with exc := { x.exc with more := true }, stopped := true })

/-! ### Control cores (13) -/

/-- TASK_REG, TASK_UNREG, TASK_RUN, TASK_PLACE, TASK_STOP and TASK_QUANTUM (R458–R463, R481). -/
def Obligations.TaskCommands : Prop :=
  (∀ (s : State) (c : KCmd) (pr : Prog), c.a0.toNat < 512 → 64 ≤ c.a2.toNat → c.a2.toNat ≤ 65600 → fromMirror c = false →
    s.recall c.a1.toNat c.a2.toNat = none →
    let s1 := s.touch c.a1.toNat c.a2.toNat
    let r := s1.readDA c.a1.toNat c.a2.toNat
    r.bad = none → progOf r.data c.a2.toNat = some pr →
    (s1.cc.progs.find c.a0.toNat = none → s1.progBytes + pr.code.length ≤ 524288 →
      exec (.taskReg c) s = .next (State.done { s1 with cc := { s1.cc with progs := s1.cc.progs.set c.a0.toNat pr } } c
        stSuccess 0 r.data))
    ∧ (s1.cc.progs.find c.a0.toNat ≠ none → exec (.taskReg c) s = .next (s1.done c stCcInUse)))
  ∧ (∀ (s : State) (c : KCmd), 512 ≤ c.a0.toNat → exec (.taskReg c) s = .next (s.done c stSqField))
  ∧ (∀ (s : State) (c : KCmd), s.cc.progs.find c.a0.toNat = none → exec (.taskUnreg c) s = .next (s.done c stCcBad))
  ∧ (∀ (s : State) (c : KCmd), s.cc.progs.find c.a0.toNat ≠ none → s.progUsed c.a0.toNat = false →
    exec (.taskUnreg c) s =
      .next (State.done { s with cc := { s.cc with progs := s.cc.progs.del c.a0.toNat } } c stSuccess))
  ∧ (∀ (s : State) (c : KCmd), s.cc.progs.find (c.a0.toNat % 512) = none → (s.queue c.q.val).head = none →
    exec (.taskRun c) s = .next ((s.unhead c.q.val c.cid).complete c.q.val c.cid stCcBad))
  ∧ (∀ (s : State) (c : KCmd) (pr : Prog) (n : Nat), s.cc.progs.find (c.a0.toNat % 512) = some pr → 64 ≤ pr.frame →
    c.a2 = 0 → bit c.a0 16 = false → (s.queue c.q.val).head = none →
    s.placePair (s.queue c.q.val).part.toNat pr.frame = some n →
    let t : Task :=
      { prog := c.a0.toNat % 512, part := (s.queue c.q.val).part.toNat, standing := false, q := c.q.val
        raw := cmdRaw c 1, tAcc := s.time.now, pc := pr.entry, sources := [], arg := [] }
    exec (.taskRun c) s = .next ((s.unhead c.q.val c.cid).startTask n t pr.entry))
  ∧ (∀ s : State, s.cc.restarts = [] → exec (.taskPlace 1024) s = .next s)
  ∧ (∀ (s : State) (c : KCmd), c.a0.toNat < 8 → c.a1.toNat < 32 → s.task c.a0.toNat c.a1.toNat = none →
    exec (.taskStop c) s = .next (s.done c stCcBad))
  ∧ (∀ (s : State) (c : KCmd) (t : Task), c.a0.toNat < 8 → c.a1.toNat < 32 → s.task c.a0.toNat c.a1.toNat = some t →
    t.standing = true → s.taskReady c.a0.toNat t = false →
    exec (.taskStop c) s = .next ((s.setTask c.a0.toNat c.a1.toNat
      { t with stop := t.stop ++ [(c.q.val, c.cid)] }).taskEnd c.a0.toNat c.a1.toNat))
  ∧ (∀ (s : State) (n : Fin 8) (sl : Nat) (t : Task), (s.pair n.val).run = some sl → s.task n.val sl = some t → t.stop = [] →
    exec (.taskQuantum n) s = .next (s.updPair n.val fun p => { p with run := none, last := sl }))

/-- NOP, ALU … TIME, LD … SW, BEQ … BGEU, JAL and JR (R468, R469). -/
def Obligations.ControlRegisters : Prop :=
  ∀ (s : State) (n : Fin 8) (sl : Nat) (t : Task) (pr : Prog) (w : BitVec 26), s.pairRuns n.val = true →
    s.current n.val = some sl → s.task n.val sl = some t → s.cc.progs.find t.prog = some pr →
    t.pc + 4 ≤ pr.code.length → s.injFires 9 n.val = false →
    let s0 := s.updPair n.val fun p => { p with run := some sl }
    let only := fun (fs : List (Nat × Nat)) =>
      (List.range 26).all fun i => !bit w i || fs.any fun f => decide (f.2 ≤ i ∧ i ≤ f.1)
    let put := fun (v : W64) => s0.setTask n.val sl (Task.at (t.setReg (iRD w) v) (t.pc + 4))
    let exc := fun (c : Nat) => (s0.setTask n.val sl { t with wait := .ready }).taskExc n.val sl c
    let a := t.reg (iRA w)
    let off := (a + immS w).toNat
    let tgt := (t.pc : Int) + 4 * toSigned 16 (iImm w)
    exec (.ccNop n) s = .next (s0.setTask n.val sl (t.at (t.pc + 4)))
    ∧ (only [cRD, cRA, cRB, (3, 0)] = false → exec (.alu n w) s = .next (s0.taskExc n.val sl excIllegal))
    ∧ (∀ v, only [cRD, cRA, cRB, (3, 0)] = true → aluOp (iSub w) a (t.reg (iRB w)) = some v →
        exec (.alu n w) s = .next (put v))
    ∧ (only [cRD, cRA, cIMM] = true →
        exec (.addi n w) s = .next (put (a + immS w)) ∧ exec (.andi n w) s = .next (put (a &&& immZ w))
        ∧ exec (.ori n w) s = .next (put (a ||| immZ w)) ∧ exec (.xori n w) s = .next (put (a ^^^ immZ w)))
    ∧ (∀ v, only [cRD, cRA, (7, 0)] = true → cbits w 7 6 ≠ 3 →
        aluOp (6 + cbits w 7 6) a (BitVec.ofNat 64 (cbits w 5 0)) = some v → exec (.shi n w) s = .next (put v))
    ∧ (only [cRD, cIMM] = true → exec (.movi n w) s = .next (put (immS w)))
    ∧ (only [cRD, (17, 16), cIMM] = true → exec (.movk n w) s =
        .next (put (setField (t.reg (iRD w)) (16 * cbits w 17 16) 16 (BitVec.ofNat 16 (iImm w)))))
    ∧ (only [cRD] = true → exec (.ccTime n w) s = .next (put (BitVec.ofNat 64 s.time.now)))
    ∧ (only [cRD, cRA, cIMM] = true → off % 8 = 0 → off + 8 ≤ pr.frame →
        exec (.ld n w) s = .next (put (BitVec.ofNat 64 (leNat (t.readFrame off 8))))
        ∧ exec (.st n w) s = .next (s0.setTask n.val sl
          (Task.at (t.writeFrame off (leBytes 8 (t.reg (iRD w)).toNat)) (t.pc + 4))))
    ∧ (only [cRD, cRA, cIMM] = true → off % 4 = 0 → off + 4 ≤ pr.frame →
        exec (.lw n w) s = .next (put (BitVec.ofNat 64 (leNat (t.readFrame off 4))))
        ∧ exec (.sw n w) s = .next (s0.setTask n.val sl
          (Task.at (t.writeFrame off (leBytes 4 (t.reg (iRD w)).toNat)) (t.pc + 4))))
    ∧ (only [cRD, cRA, cIMM] = true → off % 8 ≠ 0 →
        exec (.ld n w) s = .next (exc excAlign) ∧ exec (.st n w) s = .next (exc excAlign))
    ∧ (only [cRD, cRA, cIMM] = true → off % 4 = 0 → pr.frame < off + 4 →
        exec (.lw n w) s = .next (exc excFrame) ∧ exec (.sw n w) s = .next (exc excFrame))
    ∧ (∀ x ∈ [(Instr.beq n w, 1), (Instr.bne n w, 2), (Instr.blt n w, 3), (Instr.bge n w, 4), (Instr.bltu n w, 5),
          (Instr.bgeu n w, 6)], only [cRD, cRA, cIMM] = true →
        (condHolds x.2 (t.reg (iRD w)) a = false → exec x.1 s = .next (s0.setTask n.val sl (t.at (t.pc + 4))))
        ∧ (condHolds x.2 (t.reg (iRD w)) a = true → targetExc pr.code.length tgt = none →
            exec x.1 s = .next (s0.setTask n.val sl (t.at tgt.toNat)))
        ∧ (∀ e, condHolds x.2 (t.reg (iRD w)) a = true → targetExc pr.code.length tgt = some e →
            exec x.1 s = .next (s0.taskExc n.val sl e)))
    ∧ (let j := (t.pc : Int) + 4 * toSigned 21 (cbits w 20 0)
      only [cRD, (20, 0)] = true → targetExc pr.code.length j = none →
        exec (.jal n w) s =
          .next (s0.setTask n.val sl (Task.at (t.setReg (iRD w) (BitVec.ofNat 64 (t.pc + 4))) j.toNat)))
    ∧ (only [cRA] = true → a.toNat % 4 = 0 → a.toNat < pr.code.length →
        exec (.jr n w) s = .next (s0.setTask n.val sl (t.at a.toNat)))

/-- SLEEP, WAITQ, ISSUE, WAITI, POST, DMOV, UPD, SEQ, FAULT and END (R470–R481, R532–R536). -/
def Obligations.ControlWaits : Prop :=
  ∀ (s : State) (n : Fin 8) (sl : Nat) (t : Task) (pr : Prog) (w : BitVec 26), s.pairRuns n.val = true →
    s.current n.val = some sl → s.task n.val sl = some t → s.cc.progs.find t.prog = some pr →
    t.pc + 4 ≤ pr.code.length → s.injFires 9 n.val = false →
    let s0 := s.updPair n.val fun p => { p with run := some sl }
    let only := fun (fs : List (Nat × Nat)) =>
      (List.range 26).all fun i => !bit w i || fs.any fun f => decide (f.2 ≤ i ∧ i ≤ f.1)
    let put := fun (v : W64) => s0.setTask n.val sl (Task.at (t.setReg (iRD w) v) (t.pc + 4))
    let exc := fun (c : Nat) => (s0.setTask n.val sl { t with wait := .ready }).taskExc n.val sl c
    let a := (t.reg (iRA w)).toNat
    (only [cRA] = true → (a ≤ s.time.now → exec (.sleep n w) s = .next (s0.setTask n.val sl (t.at (t.pc + 4))))
      ∧ (s.time.now < a → exec (.sleep n w) s =
        .next ((s0.setTask n.val sl (t.at (t.pc + 4))).taskWait n.val sl (.sleep a) false)))
    ∧ (only [cRD, cRA, (2, 0)] = true → a % 64 = 0 → t.sources ≠ [] →
      (cbits w 2 2 = 1 ∨ cbits w 1 0 < t.sources.length) →
      exec (.waitq n w) s = .next (s0.taskWait n.val sl (.waitq (cbits w 1 0) (cbits w 2 2 == 1) a (iRD w)) false))
    ∧ (only [cRD, cRA] = true → a % 64 ≠ 0 → exec (.issue n w) s = .next (exc excAlign) ∧ exec (.upd n w) s = .next (exc excAlign))
    ∧ (only [cRD, cRA] = true → a % 64 = 0 → a + 16 ≤ pr.frame →
      let k := leAt (t.readFrame a 16) 0 2
      1 ≤ k → k ≤ 100 → leAt (t.readFrame a 16) 2 1 < 2 → leAt (t.readFrame a 16) 3 13 = 0 → a + 16 + 80 * k ≤ pr.frame →
      let b := t.readFrame a (16 + 80 * k)
      let cl := (List.range k).map fun e => (wlEntryOf b 0 e).1
      (List.range k).any (wlEntryBad b) = false → dupNat cl = false → (∀ c ∈ cl, s.partOf c = some t.part) →
      t.handles.length < pr.maxh → s0.issueHeld n.val cl = false →
      exec (.issue n w) s = .next ((s0.issueList n.val sl { t with wait := .ready } t.nextHandle b k).setTask n.val sl
        (Task.at (Task.setReg { t with handles := t.handles.set t.nextHandle .pending, nextHandle := t.nextHandle + 1 } (iRD w)
          (Config.handleWord t.nextHandle)) (t.pc + 4))))
    ∧ (only [cRD, cRA, (0, 0)] = true →
      (t.handleOf (t.reg (iRA w)) = none → exec (.waiti n w) s = .next (exc 8))
      ∧ (∀ h, t.handleOf (t.reg (iRA w)) = some h → t.handles.get .pending h = .complete →
        exec (.waiti n w) s =
          .next (s0.setTask n.val sl (Task.at (Task.setReg { t with handles := t.handles.del h } (iRD w) 0) (t.pc + 4))))
      ∧ (∀ h, t.handleOf (t.reg (iRA w)) = some h → t.handles.get .pending h = .pending →
        exec (.waiti n w) s = .next (if cbits w 0 0 = 1 then put 0xFF else s0.taskWait n.val sl (.waiti h) true)))
    ∧ (only [cRA, cRB] = true → a % 32 = 0 → a + 32 ≤ pr.frame →
      let b := t.readFrame a 32
      let code := leAt b 18 2 % 4096
      (s0.owedFor n.val sl t (t.reg (iRB w)).toNat = none → exec (.post n w) s = .next (exc 9))
      ∧ (∀ o, s0.owedFor n.val sl t (t.reg (iRB w)).toNat = some o → requestStatus code = true → o.expired = false →
        o.kind = 0 → o.own = true →
        exec (.post n w) s = .next (((s0.dropOwed n.val o).postOwed o (BitVec.ofNat 12 code) (BitVec.ofNat 64 (leAt b 0 8))
          (BitVec.ofNat 32 (leAt b 8 4))).setTask n.val sl (t.at (t.pc + 4)))))
    ∧ (let da := (t.reg (iRB w)).toNat
      let k := cbits w 9 0 + 1
      only [cRA, cRB, cSUB] = true → cbits w 10 10 = 1 → da % 64 = 0 → a % 64 = 0 → a + 64 * k ≤ pr.frame →
      s0.taskDaExc t true da k = none → (s0.wr da (t.readFrame a (64 * k))).performed [(da, 64 * k)] = true →
      exec (.dmov n w) s = .next ((s0.wr da (t.readFrame a (64 * k))).setTask n.val sl (t.at (t.pc + 4))))
    ∧ (only [cRD, cRA] = true → a % 64 = 0 → pr.maxh ≤ t.handles.length → exec (.upd n w) s = .next (exc 8))
    ∧ (only [cRD, cRA] = true → a % 64 = 0 → t.handles.length < pr.maxh → s0.batchesHeld = false → s0.recall a 64 = none →
      let t1 := Task.setReg { t with
        wait := .ready, handles := t.handles.set t.nextHandle .pending, nextHandle := t.nextHandle + 1 } (iRD w)
        (Config.handleWord t.nextHandle)
      let s1 := s0.touch a 64
      (s1.readDA a 64).unmapped = false → (s1.readDA a 64).poison = false →
      let s2 := (s1.setTask n.val sl t1).batchAccept (.task n.val sl t.nextHandle) t.part a (s1.readDA a 64).data
      ∀ t2, s2.task n.val sl = some t2 → exec (.upd n w) s = .next (s2.setTask n.val sl (t2.at (t.pc + 4))))
    ∧ (only [(1, 0), cRD, cRA] = true → cbits w 1 0 = 0 → a + 64 ≤ pr.frame → s0.astAdmit t.part (t.readFrame a 64) = none →
      exec (.seqCreate n w) s = .next (put 0xFFFFFFFFFFFFFFFE))
    ∧ (only [(1, 0), cRA, cRB] = true → cbits w 1 0 = 1 →
      ((s.part t.part).owns a = false → exec (.seqRead n w) s = .next (exc excField))
      ∧ ((s.part t.part).owns a = true → (t.reg (iRB w)).toNat + 64 ≤ pr.frame →
        exec (.seqRead n w) s = .next (s0.setTask n.val sl (Task.at (t.writeFrame (t.reg (iRB w)).toNat
          (s.astE ((s.part t.part).entry a)).bytes) (t.pc + 4)))))
    ∧ (only [(1, 0), cRA] = true → cbits w 1 0 = 2 →
      ((s.part t.part).owns a = false → exec (.seqRetire n w) s = .next (exc excField))
      ∧ ((s.part t.part).owns a = true →
        exec (.seqRetire n w) s = .next ((s0.updAst ((s.part t.part).entry a) fun e =>
          match e.st with | .run => { e with cancel := true } | _ => {}).setTask n.val sl (t.at (t.pc + 4)))))
    ∧ (only [cIMM] = true → exec (.ccFault n w) s = .next (exc 0x0D))
    ∧ (only [] = true → exec (.taskEnd n w) s = .next (s0.taskEnd n.val sl))

/-- SLEEP_EXPIRY, WAITQ_DELIVERY, LOCKSTEP_MISMATCH, PAIR_RESYNC_COMPLETE and the timeouts (R466, R482–R484, R575, R576). -/
def Obligations.TaskEvents : Prop :=
  (∀ (s : State) (n : Fin 8) (sl : Fin 32) (t : Task) (u : Nat), s.task n.val sl.val = some t → t.wait = .sleep u →
    exec (.sleepExpiry n sl) s =
      .next (if u ≤ s.time.now then s.setTask n.val sl.val { t with wait := .ready } else s))
  ∧ (∀ (s : State) (n : Fin 8) (sl : Fin 32) (sel : Fin 4) (k : Nat) (raw : Line) (ok : Bool), s.task n.val sl.val = none →
    exec (.waitqDelivery n sl sel k raw ok) s = .next s)
  ∧ (∀ (s : State) (n : Fin 8) (sl : Fin 32) (sel : Fin 4) (k : Nat) (raw : Line) (ok : Bool) (t : Task) (sl0 : Nat) (addr rd q : Nat),
    s.task n.val sl.val = some t → t.wait = .waitq sl0 true addr rd → s.pairRuns n.val = true →
    ((s.pair n.val).ledger.filter fun o => o.task == sl.val).length < 1024 → t.sources[sel.val]? = some (0, q) →
    s.mayFetch q = true → s.sqeRecall q = none →
    (s.sqeAt q raw ok = none → exec (.waitqDelivery n sl sel k raw ok) s = .next (s.fetchFailed q))
    ∧ (∀ l, s.sqeAt q raw ok = some l → addr + 64 ≤ s.frameOf t →
      ∃ u, exec (.waitqDelivery n sl sel k raw ok) s = .next u ∧ (u.queue q).sqHead = ((s.queue q).sqHead + 1) % (s.queue q).sqSize))
  ∧ (∀ (s : State) (n : Fin 8) (m : Bool) (a b : W64), s.serving .pair n.val = true →
    exec (.lockstepMismatch n m a b) s = .next (s.mismatch n.val (if m then 0x0403 else 0x0303) a b))
  ∧ (∀ (s : State) (n : Fin 8), (s.pair n.val).resync = true → (s.pair n.val).stuck = false →
    s.rst.idleReqs.find (blkPair n.val) = none →
    let s1 := s.updPair n.val fun p => { p with resync := false }
    (∀ p ∈ s1.served n.val, s1.pairsOf p ≠ []) → s1.served n.val = s.served n.val →
    exec (.pairResyncComplete n true) s = .next s1)
  ∧ (∀ (s : State) (n : Fin 8) (i : Nat) (o : Owed), (s.pair n.val).ledger[i]? = some o → s.time.now < o.due →
    exec (.tokenTimeout n i) s = .next s)
  ∧ (∀ (s : State) (n : Fin 8) (i : Nat) (o : Owed), (s.pair n.val).ledger[i]? = some o → o.due ≤ s.time.now → o.own = false →
    o.expired = false → o.kind = 0 →
    let s1 := s.pairFault n.val (some o.task) 0x0B01 0 0 0
    exec (.tokenTimeout n i) s = .next ((s1.postOwed o stTimeout (faultSeq s s1)).updPair n.val fun p => { p with
      ledger := p.ledger.map fun (x : Owed) => if x = o then { x with expired := true } else x }))
  ∧ (∀ (s : State) (n : Fin 8) (sl : Fin 32) (t : Task), s.task n.val sl.val = some t → t.standing = false →
    let s1 := s.pairFault n.val (some sl.val) 0x0B02 0 0 0
    exec (.taskTimeout n sl) s =
      .next (if t.due ≤ s.time.now then s1.endTask n.val sl.val stTimeout (faultSeq s s1) false else s))
  ∧ (∀ (s : State) (n : Fin 8) (sl : Fin 32) (t : Task) (d : Nat), s.task n.val sl.val = some t → t.waitDue = some d →
    s.taskReady n.val t = false →
    let s1 := s.pairFault n.val (some sl.val) 0x0B02 0 0 0
    exec (.taskWaitTimeout n sl) s =
      .next (if d ≤ s.time.now then s1.endTask n.val sl.val stTimeout (faultSeq s s1) false else s))

/-! ### Partitions and scheduling (15) -/

/-- PART_START, PART_STOP, PART_SNAP and their events (R514, R521–R524). -/
def Obligations.PartitionCommands : Prop :=
  (∀ (s : State) (c : KCmd), 16 ≤ c.a0.toNat → exec (.partStart c) s = .next (s.done c stSqField)
    ∧ exec (.partStop c) s = .next (s.done c stSqField) ∧ exec (.partSnap c) s = .next (s.done c stSqField))
  ∧ (∀ (s : State) (c : KCmd), c.a0.toNat < 16 → s.pwr.dstate = .d0 → s.int.expelled = false →
    let pt := s.part c.a0.toNat
    (pt.st = .running → exec (.partStart c) s = .next (s.done c stPartState))
    ∧ (pt.st = .stopped → s.partCfgOk c.a0.toNat = false → exec (.partStart c) s = .next (s.done c stPartBad))
    ∧ (pt.st = .stopped → s.partCfgOk c.a0.toNat = true → s.partOverlap c.a0.toNat = true →
        exec (.partStart c) s = .next (s.done c stPartOverlap))
    ∧ (pt.st = .stopped → s.partCfgOk c.a0.toNat = true → s.partOverlap c.a0.toNat = false →
        (s.pairsOf c.a0.toNat).length < 2 → exec (.partStart c) s = .next (s.done c stPartNoPairs))
    ∧ ((pt.st = .unused ∨ pt.st = .stopped) → s.partCfgOk c.a0.toNat = true → s.partOverlap c.a0.toNat = false →
        2 ≤ (s.pairsOf c.a0.toNat).length →
        exec (.partStart c) s = .next ((s.partBegin c.a0.toNat).done c stSuccess)
        ∧ ((s.partBegin c.a0.toNat).part c.a0.toNat).st = .running
        ∧ ((s.partBegin c.a0.toNat).part c.a0.toNat).ctxV = false
        ∧ (∀ i < pt.astCount.toNat,
            ((s.partBegin c.a0.toNat).astE (((s.partBegin c.a0.toNat).part c.a0.toNat).entry i)).st = .free)))
  ∧ (∀ (s : State) (c : KCmd), c.a0.toNat < 16 → c.a1.toNat < 2 →
    let pt := s.part c.a0.toNat
    let cmd : StopCmd := { q := c.q.val, cid := c.cid, due := s.time.now + s.hub.gto, abort := c.a1 == 1 }
    (pt.st ≠ .running → exec (.partStop c) s = .next (s.done c stPartState))
    ∧ (pt.st = .running → pt.stopWait = none → pt.switching = none → pt.teardown = false →
        exec (.partStop c) s = .next (s.stopNow c.a0.toNat cmd))
    ∧ (pt.st = .running → pt.stopWait = none → pt.teardown = true →
        exec (.partStop c) s = .next (s.updPart c.a0.toNat fun x => { x with stopWait := some cmd })))
  ∧ (∀ (s : State) (p : Fin 16) (c : StopCmd), (s.part p.val).stop = some c → s.time.now < c.due →
    exec (.partStopTimeout p) s = .next s)
  ∧ (∀ (s : State) (p : Fin 16) (c : StopCmd), (s.part p.val).stop = some c → c.due ≤ s.time.now → c.forced = false →
    (s.part p.val).st = .stopping → s.used p.val = [] → (s.part p.val).teardown = true →
    exec (.partStopTimeout p) s = .next (s.updPart p.val fun x => { x with stop := some { c with forced := true } }))
  ∧ (∀ (s : State) (p : Fin 16) (c : StopCmd), (s.part p.val).stop = some c → (s.part p.val).st = .stopping →
    (s.part p.val).teardown = false → s.used p.val = [] → s.partLists p.val = [] → (s.part p.val).lists = [] →
    s.stw.st ≠ .running →
    exec (.partStopped p) s = .next (State.complete (s.updPart p.val fun x => { x with
      st := .stopped, stop := none, ctxV := false, ctx := 0, switching := none, halted := false }) c.q c.cid stSuccess))
  ∧ (∀ (s : State) (p : Fin 16), (s.part p.val).st ≠ .stopping → exec (.partStopped p) s = .next s)
  ∧ (∀ (s : State) (c : KCmd), c.a0.toNat < 16 →
    (c.a1 = 2 → exec (.partSnap c) s = .next ((s.updPart c.a0.toNat fun x => { x with halted := false }).done c stSuccess))
    ∧ (∀ h : Bool, c.a1 = (if h then 1 else 0) → (s.part c.a0.toNat).snap = none →
        exec (.partSnap c) s = .next (s.updPart c.a0.toNat fun x => { x with snap := match x.snap with
          | some y => some { y with cmds := y.cmds ++ [(c.q.val, c.cid)], halt := y.halt || h }
          | none => some { cmds := [(c.q.val, c.cid)], halt := h, start := s.time.now } })))
  ∧ (∀ (s : State) (p : Fin 16), (s.part p.val).snap = none →
    exec (.snapshotGatherDeadline p) s = .next s ∧ exec (.snapshotComplete p) s = .next s)
  ∧ (∀ (s : State) (p : Fin 16) (y : Snap), (s.part p.val).snap = some y →
    (s.elapsed y.start 3400 = true → y.pending = none → exec (.snapshotGatherDeadline p) s =
      .next (s.updPart p.val fun x => { x with
        snap := some { y with pending := some (s.gathersOf p.val true + s.gathersOf p.val false) } }))
    ∧ (s.elapsed y.start 3400 = false → exec (.snapshotGatherDeadline p) s = .next s)
    ∧ (s.mmasIn p.val = true → exec (.snapshotComplete p) s = .next s)
    ∧ (s.mmasIn p.val = false → s.gathersOf p.val false = 0 → exec (.snapshotComplete p) s =
        .next ((y.cmds.foldl (fun st c => st.complete c.1 c.2 stSuccess)
          (s.updPart p.val fun x => { x with snap := none, halted := x.halted || y.halt })).cutDone p.val)))

/-- MDL_REG, MDL_ADMIT, MDL_UNREG, the step builder's events, switches, teardowns and streams (R473, R526–R547). -/
def Obligations.ModelsAndSteps : Prop :=
  (∀ (s : State) (c : KCmd), fromMirror c = false → s.recall c.a1.toNat 128 = none →
    let s1 := s.touch c.a1.toNat 128
    let b := (s1.readDA c.a1.toNat 128).data
    let d := mdescOf b
    (s1.readDA c.a1.toNat 128).bad = none → d.part = (s1.queue c.q.val).part.toNat → c.a0.toNat < 256 →
    (s1.sc.models.find c.a0.toNat ≠ none → exec (.mdlReg c) s = .next (s1.done c stMdlInUse))
    ∧ (s1.sc.models.find c.a0.toNat = none → (s1.sc.models.filter fun kv => kv.2.part == d.part).length < 32 →
      s1.mdescOk b d = true →
      exec (.mdlReg c) s = .next (State.done { s1 with sc := { s1.sc with
        models := s1.sc.models.set c.a0.toNat { desc := b, part := d.part } } } c stSuccess 0 b)))
  ∧ (∀ (s : State) (c : KCmd), s.sc.models.find c.a0.toNat = none →
    exec (.mdlAdmit c) s = .next (s.done c stSqScope) ∧ exec (.mdlUnreg c) s = .next (s.done c stSqScope))
  ∧ (∀ (s : State) (c : KCmd) (x : Model), s.sc.models.find c.a0.toNat = some x →
    (s.int.expelled = false → exec (.mdlAdmit c) s = .next (State.done { s with sc := { s.sc with
      models := s.sc.models.set c.a0.toNat { x with admits := c.a1 == 1 } } } c stSuccess))
    ∧ (s.int.expelled = true → c.a1 = 1 → exec (.mdlAdmit c) s = .next (s.done c stPartState))
    ∧ (x.admits = true → exec (.mdlUnreg c) s = .next (s.done c stMdlBusy))
    ∧ (x.admits = false → s.modelUsed c.a0.toNat = false → exec (.mdlUnreg c) s = .next (State.done { s with sc := { s.sc with
        models := s.sc.models.del c.a0.toNat
        tags := s.sc.tags.filter fun (kv : Nat × Nat) => kv.2 != c.a0.toNat } } c stSuccess)))
  ∧ (∀ (s : State) (p : Fin 16), (((s.part p.val).st ≠ .running ∧ (s.part p.val).st ≠ .stopping)
      ∨ (s.part p.val).depth.toNat ≤ (s.part p.val).lists.length) →
    exec (.stepForm p) s = .next s ∧ exec (.stepWaitTimeout p) s = .next s ∧ exec (.entryBecomesUrgent p) s = .next s)
  ∧ (∀ (s : State) (p : Fin 16) (i m : Nat), (s.part p.val).st = .running → (s.part p.val).depth ≠ 0 → (s.part p.val).lists = [] →
    (s.part p.val).drop = false → s.waitingBy p.val = [i] → s.chooseModel p.val [i] = some m →
    (s.astE ((s.part p.val).entry i)).model = m →
    ∀ x d, s.sc.models.find m = some x → d = mdescOf x.desc → 1 ≤ d.maxSeq →
    (s.astE ((s.part p.val).entry i)).rows ≤ d.maxRows →
    ∃ t, exec (.stepForm p) s = .next t ∧ (t.part p.val).lists.map SbList.entries = [[i]]
      ∧ (t.astE ((t.part p.val).entry i)).st = .run ∧ (t.part p.val).stepNo = (s.part p.val).stepNo + 1)
  ∧ (∀ (s : State) (p : Fin 16) (l : SbList), (s.part p.val).lists = [l] →
    exec (.sbWorklistComplete p 0) s = .next (if l.fin then (s.sbFinish p.val l l.nst).trySwitch p.val else s))
  ∧ (∀ (s : State) (p : Fin 16) (w : Switch), (s.part p.val).switching = some w →
    ((s.part p.val).halted = true → exec (.switchComplete p) s = .next s)
    ∧ ((s.part p.val).halted = false → exec (.switchComplete p) s =
      .next ((((s.switchOut p.val).switchIn p.val w.model).updPart p.val fun x => { x with
        ctxV := true, ctx := BitVec.ofNat 8 w.model, switching := none, switches := satInc x.switches
        stuck := 0 }).stopResume p.val)))
  ∧ (∀ (s : State) (p : Fin 16), exec (.teardownComplete p) s =
    .next (if s.teardownReady p.val then (s.teardownEnd p.val).trySwitch p.val else s))
  ∧ (∀ (s : State) (wl cl : Nat) (w : WorkList) (e : WlEntry), s.co.wls = [(wl, w)] → w.toArrive = [(cl, e)] →
    s.entryDead w.part cl e = false → (s.cluster cl).wq.length < 16 → s.hub.injArm = false →
    exec (.worklistArrival wl 0) s = .next (State.updCluster { s with co := { s.co with wls := [(wl, { w with toArrive := [] })] } }
      cl fun c => { c with wq := c.wq ++ [e] }))
  ∧ (∀ (s : State) (cl : Fin 100) (e : WlEntry) (w : WorkList), (s.cluster cl.val).wq = [e] → s.co.wls.find e.wl = some w →
    s.entryDead w.part cl.val e = false → (∀ k ∈ e.list cl.val, (s.tcore k).stream = none) → s.mayStart w = true →
    w.sb = false →
    exec (.streamStart cl 0) s = .next ((List.range 12).foldl (fun st i =>
      if e.cores.getLsbD i then st.updCore (12 * cl.val + i) fun c => c.startStream e i (!(s.part w.part).ctxV) else st)
      (s.updCluster cl.val fun c => { c with wq := [] })))
  ∧ (∀ (s : State) (k : Fin 1200) (wl : Nat), (s.tcore k.val).stream = some wl →
    ((s.tcore k.val).ended = false → exec (.streamComplete k) s = .next s)
    ∧ ((s.tcore k.val).ended = true → s.partOf (coreCluster k.val) = none → exec (.streamComplete k) s =
      .next ((s.updCore k.val fun x => { x with stream := none, ended := false }).wlLess wl 1 false)))

/-! ### Submission and completion queues (16) -/

/-- SQ_DB, CQ_DB, SQE_FETCH, SQE_NOP, held CQEs, coalescing, SQ_CFG and the queues' timers (R560–R589). -/
def Obligations.QueueFlow : Prop :=
  (∀ (s : State) (q : Fin 1024) (v : W32), s.bellServed q.val = true → (s.queue q.val).st = .enabled →
    exec (.sqDb q v) s = .next (if (field v 0 16).toNat < (s.queue q.val).sqSize
      then s.updQ q.val fun y => { y with sqTail := (field v 0 16).toNat }
      else (s.updQ q.val fun y => { y with st := .error, errc := 2 }).queueFault q.val 0x0B05))
  ∧ (∀ (s : State) (q : Fin 1024) (v : W32), (s.queue q.val).st = .disabled →
    exec (.sqDb q v) s = .next s ∧ exec (.cqDb q v) s = .next s)
  ∧ (∀ (s : State) (q : Fin 1024) (v : W32), s.bellServed q.val = true → (s.queue q.val).st ≠ .disabled →
    let x := s.queue q.val
    let dist := fun (a : Nat) => (a + x.cqSize - x.cqHead) % x.cqSize
    let h := (field v 0 16).toNat
    exec (.cqDb q v) s = .next (if h < x.cqSize ∧ dist h ≤ dist x.cqTail
      then s.updQ q.val fun y => { y with cqHead := h } else s.updQ q.val fun y => { y with cqDberr := true }))
  ∧ (∀ (s : State) (q : Fin 1024) (raw : Line) (ok : Bool), (s.queue q.val).head = none → s.mayFetch q.val = true →
    s.taskBound q.val = false → (s.queue q.val).infl.length < 64 → s.sqeRecall q.val = none →
    (s.sqeAt q.val raw ok = none → exec (.sqeFetch q raw ok) s = .next (s.fetchFailed q.val))
    ∧ (∀ l, s.sqeAt q.val raw ok = some l →
      let s1 := s.updQ q.val fun y => { y with sqHead := (y.sqHead + 1) % y.sqSize }
      (argKinds (field l 0 8).toNat = none → exec (.sqeFetch q raw ok) s = .next (s1.postCqe q.val
        { id := cidWord q.val (field l 16 16), code := stSqOpcode, tAcc := s.time.now % 2 ^ 48 }))
      ∧ (s1.sqeCheck q.val l = none → field l 0 8 ≠ 1 → bit l 8 = false → exec (.sqeFetch q raw ok) s =
        .next (s1.updQ q.val fun x => { x with head := none, infl := x.infl ++ [
          { cid := field l 16 16, opc := field l 0 8, tAcc := s.time.now, fence := false, raw := l }] }))))
  ∧ (∀ (s : State) (q : Fin 1024) (raw : Line) (ok : Bool), (s.queue q.val).sqHead = (s.queue q.val).sqTail →
    (s.queue q.val).head = none → exec (.sqeFetch q raw ok) s = .next s)
  ∧ (∀ (s : State) (c : KCmd), exec (.sqeNop c) s = .next (s.complete c.q.val c.cid stSuccess))
  ∧ (∀ (s : State) (q : Fin 1024) (c : Cqe) (rest : List Cqe), (s.queue q.val).held = c :: rest →
    ((s.queue q.val).full = false → (s.queue q.val).loc = true → c.waits = [] → exec (.cqeHoldRelease q) s =
      .next ((s.updQ q.val fun y => { y with held := rest, cqFull := y.cqFull && !rest.isEmpty }).writeCqe q.val c))
    ∧ ((s.queue q.val).full = true → exec (.cqeHoldRelease q) s = .next s)
    ∧ (s.time.now < c.due → exec (.cqeHoldTimeout q) s = .next s)
    ∧ (c.due ≤ s.time.now → c.waits = [] → (s.queue q.val).cqLost = true → exec (.cqeHoldTimeout q) s =
      .next ((s.updQ q.val fun y => { y with held := rest, cqLost := true, cqFull := y.cqFull && !rest.isEmpty }).queueFault
        q.val 0x0B04 (some (c.id.toNat % 65536)))))
  ∧ (∀ (s : State) (q : Fin 1024), (s.queue q.val).ien = true → (s.queue q.val).coalCnt ≠ 0 →
    exec (.cqCoalesceTimeout q) s =
      .next (if s.elapsed (s.queue q.val).coalFirst (1000 * (s.queue q.val).coalUs.toNat) then s.signalQ q.val else s))
  ∧ (∀ (s : State) (q : Fin 1024) (e : Sqe) (since : Nat), (s.queue q.val).head = some (e, since) → field e.raw 0 8 = 1 →
    exec (.taskRunHeadTimeout q) s = .next (if since ≤ s.time.now
      then (s.updQ q.val fun x => { x with head := none }).postCqe q.val
        { id := cidWord q.val (field e.raw 16 16), code := stTimeout, tAcc := e.tAcc % 2 ^ 48 }
      else s))
  ∧ (∀ (s : State) (q : Fin 1024), (s.queue q.val).st = .draining → (s.queue q.val).infl = [] → (s.queue q.val).held = [] →
    s.owedTo q.val = false → exec (.queueDrained q) s = .next (s.updQ q.val fun y => { y with st := .disabled }))
  ∧ (∀ (s : State) (q : Fin 1024), (s.queue q.val).st ≠ .draining → exec (.queueDrained q) s = .next s)
  ∧ (∀ (s : State) (p : AccessPath) (q : Fin 1024) (v : W32) (vfOn : Bool), s.csrWritable p .hub = true →
    (s.queue q.val).st = .disabled → bit v 22 = false → bit v 0 = true →
    let x := (s.queue q.val).withCfg v
    exec (.sqCfgWrite p q v vfOn) s = .next (if s.queueOk x vfOn
      then s.updQ q.val fun _ => { x with
        en := true, st := .enabled, sqHead := 0, sqTail := 0, cqHead := 0, cqTail := 0, phase := true, errc := 0
        cqFull := false, coalCnt := 0 }
      else s.updQ q.val fun _ => { x with err := true }))
  ∧ (∀ (s : State) (p : AccessPath) (q : Fin 1024) (v : W32) (vfOn : Bool), s.csrWritable p .hub = true →
    (s.queue q.val).st = .enabled → (s.queue q.val).en = true → bit v 22 = false → bit v 0 = false →
    (s.queue q.val).withCfg v = s.queue q.val → (s.queue q.val).head = none →
    exec (.sqCfgWrite p q v vfOn) s =
      .next ((s.updQ q.val fun _ => s.queue q.val).updQ q.val fun x => { x with en := false, st := .draining, head := none }))
  ∧ (∀ (s : State) (k : Fin 1200), ((s.tcore k.val).waitDue = none ∨ ∃ d, (s.tcore k.val).waitDue = some d ∧ s.time.now < d) →
    exec (.coreWaitTimeout k) s = .next s)
  ∧ (∀ (s : State) (k : Fin 1200) (d : Nat), (s.tcore k.val).waitDue = some d → d ≤ s.time.now →
    s.partOf (coreCluster k.val) = none →
    exec (.coreWaitTimeout k) s = .next (((s.coreFault k.val 0x0B03 0 (s.tcore k.val).pc false 0 none).updCore k.val fun x =>
      { x with waitDue := none, stopped := true }).tearCluster (coreCluster k.val) 1 k.val))

/-! ### Host coupling (17) -/

/-- HOST_LINK_UP … VF_POWER_STATE_WRITE (R592–R597, R614, R619, R620). -/
def Obligations.HostLinkAndFunctions : Prop :=
  (∀ (s : State) (sp : BitVec 2) (w : BitVec 5) (c : Bool), s.portRuns = true →
    exec (.hostLinkUp sp w c) s = .next { s with host := { s.host with
      up := true, speed := sp, width := w, cxl := c && (decide (1 ≤ sp.toNat) && decide (4 ≤ w.toNat)) } })
  ∧ (∀ (s : State) (sp : BitVec 2) (w : BitVec 5) (c : Bool), s.portRuns = false → exec (.hostLinkUp sp w c) s = .next s)
  ∧ (∀ s : State, s.host.up = true → exec .hostLinkDown s = .next s.linkDown ∧ s.linkDown.host.up = false
      ∧ s.linkDown.host.cxl = false ∧ s.linkDown.host.hlc = [] ∧ s.linkDown.host.ldown = true)
  ∧ (∀ s : State, s.host.up = false → exec .hostLinkDown s = .next s)
  ∧ (∀ s : State, s.rst.start = .ready → exec .pfFlr s = .next (s.deviceReset 4))
  ∧ (∀ (s : State) (vf : Fin 16), s.queues = [] → s.host.groups = [] →
    exec (.vfFlr vf) s = .next (State.updHost (s.updFunc (vf.val + 1) fun x => { x with bme := false, d3hot := false })
      fun h => { h with msixPend := h.msixPend.filter fun m => m.1 != vf.val + 1 }))
  ∧ (∀ s : State, exec .ideKeyRefresh s = .next s)
  ∧ (∀ (s : State) (io cm : Bool), s.host.up = true → s.sec.sessions ≠ [] →
    exec (.ideKmKeyProgram io cm) s = .next (State.ideSettle { s with host := { s.host with
      ideIo := s.host.ideIo || io, ideCm := s.host.ideCm || (cm && s.host.cxl) } }))
  ∧ (∀ (s : State) (io cm : Bool), s.sec.sessions = [] → exec (.ideKmKeyProgram io cm) s = .next s)
  ∧ (∀ s : State, exec .ideIntegrityFailure s =
    .next (if s.host.ideIo || s.host.ideCm then (s.hostFault 0 0x1005 0).linkDown else s))
  ∧ (∀ (s : State) (fn : Fin 17) (on : Bool), exec (.busMasterEnableWrite fn on) s =
    .next (s.updFunc fn.val fun f => { f with bme := on }).msixRelease)
  ∧ (∀ (s : State) (vf : Fin 16) (d : Bool), exec (.vfPowerStateWrite vf d) s =
    .next (s.updFunc (vf.val + 1) fun f => { f with d3hot := d }).msixRelease)

/-- HDM decoders, the aperture, the window, slot headers and their registers (R598–R604, R611, R622–R624). -/
def Obligations.HostMemoryAccess : Prop :=
  (∀ (s : State) (sz : Nat) (ow : Bool), s.host.up = true → s.rst.start = .ready →
    exec (.hdmDecoderCommit 0 true sz ow) s = .next { s with host := { s.host with
      hdm0 := { committed := ow && sz == 2 ^ 32 && !s.host.ideHold, err := !(ow && sz == 2 ^ 32 && !s.host.ideHold) } } }
    ∧ exec (.hdmDecoderCommit 1 true sz ow) s = .next { s with host := { s.host with
      hdm1 := { committed := ow && sz == s.windowSize && s.host.lcwEn && !s.host.ideHold
                err := !(ow && sz == s.windowSize && s.host.lcwEn && !s.host.ideHold) } } }
    ∧ exec (.hdmDecoderCommit 0 false sz ow) s = .next { s with host := { s.host with hdm0 := {} } })
  ∧ (∀ (s : State) (off : BitVec 32) (data : List Byte) (n : Nat), s.memServed = true → s.host.hdm0.committed = true →
    let da := s.host.aptBase.toNat * 2 ^ 21 + off.toNat
    (s.host.aptEn = true → s.place da = .basin n →
      let r := s.readDA (da / 64 * 64) 64
      exec (.apertureAccess off false data false) s = .next { s with
        out := s.out ++ [.hostReply (if r.clean then "MemData" else "MemData poison") r.data] })
    ∧ (s.host.aptEn = true → s.place da = .basin n → s.inStore da = false → da % 64 + data.length ≤ 64 →
      ∀ poison, exec (.apertureAccess off true data poison) s = .next (s.writeDA da data poison))
    ∧ (s.host.aptEn = true → s.place da = .unmapped → da % 64 + data.length ≤ 64 →
      exec (.apertureAccess off true data false) s = .next (s.hostFault 0 0x1001 da))
    ∧ (s.host.aptEn = false → exec (.apertureAccess off false data false) s = .next { s with
        host := { s.host with aptOff := satInc s.host.aptOff }
        out := s.out ++ [.hostReply "MemData poison" (List.replicate 64 0)] }))
  ∧ (∀ (s : State) (l : BitVec 24) (poison : Bool), s.memServed = true → s.host.hdm1.committed = true → s.host.lcwEn = true →
    64 * l.toNat < s.windowSize → s.host.biWait = [] → s.host.snoop.length < snoopSize → ∀ keep : Option SnoopState,
    let da := s.windowDA (64 * l.toNat)
    let r := s.readDA da 64
    exec (.windowHostAccess l none poison keep) s = .next ((s.setSnoop l.toNat keep).emit
      (.hostReply (if r.clean then "MemData" else "MemData poison") r.data))
    ∧ ∀ d : Line, exec (.windowHostAccess l (some d) poison keep) s =
      .next ((s.hostLineWrite l.toNat (leBytes 64 d.toNat) poison).setSnoop l.toNat keep))
  ∧ (∀ (s : State) (n : Fin 4096) (line : Line), s.memServed = true → s.host.hdm1.committed = true → s.host.lcwEn = true →
    s.host.biWait = [] →
    exec (.spoutHeaderWrite n line false) s =
      .next ((s.hostLineWrite (32 * n.val) (leBytes 64 line.toNat) false).setSnoop (32 * n.val) none))
  ∧ (∀ (s : State) (p : AccessPath) (v : W32), s.csrWritable p .hub = true → s.host.aptEn = false → bit v 0 = true →
    s.host.lcwEn = false →
    exec (.hcAptWrite p v) s = .next { s with host := if (field v 2 19 : BitVec 19).toNat * 2 ^ 21 + 2 ^ 32 ≤ 0xC000000000
      then { s.host with aptErr := s.host.aptErr && !bit v 1, aptBase := field v 2 19, aptEn := true }
      else { s.host with aptErr := true, aptBase := field v 2 19 } })
  ∧ (∀ (s : State) (p : AccessPath) (v : W32), s.csrWritable p .hub = true → s.host.lcwEn = false → bit v 0 = false →
    exec (.hcLcwWrite p v) s = .next { s with host := { s.host with
      lcwErr := s.host.lcwErr && !bit v 1, lcwBase := field v 2 14, lcwSize := field v 16 4 } })
  ∧ (∀ (s : State) (p : AccessPath) (v : W32), s.csrWritable p .hub = true → s.host.lcwEn = true → bit v 0 = false →
    s.lcwPinned = true →
    exec (.hcLcwWrite p v) s = .next { s with host := { s.host with lcwErr := true } })
  ∧ (∀ (s : State) (p : AccessPath) (v : W32), s.csrWritable p .hub = true → s.host.bfBusy = false → bit v 12 = true →
    let h := { s.host with bfErr := s.host.bfErr && !bit v 14, bfPage := field v 0 11, bfDir := bit v 11 }
    exec (.hcBflipGo p v) s = .next (if bit v 11
      then { s with host := { h with bias := setInsert h.bias h.bfPage.toNat } }
      else { s with host := { h with bfBusy := true }, out := s.out ++ [.cxlCache "CLFlush" (h.bfPage.toNat * 2 ^ 21) []] }))
  ∧ (∀ s : State, exec .biasFlipComplete s = .next (if s.host.bfBusy
    then { s with host := { s.host with bfBusy := false, bias := s.host.bias.filter fun b => b != s.host.bfPage.toNat } }
    else s))

/-- HOST_SNOOP, CXL_CACHE_GO, GO_WRITEPULL, BISNP_RESPONSE, BICONFLICT, the write-back timer, HC_HLC and SP_GRP_A
(R604–R608, R616, R625, R628). -/
def Obligations.HostCoherence : Prop :=
  (∀ (s : State) (hpa : BitVec 46) (kind : SnoopKind), s.host.hlc.find hpa.toNat = none →
    exec (.hostSnoop hpa kind) s = .next { s with out := s.out ++ [.cxlCache "RspIHitI" (64 * hpa.toNat) []] })
  ∧ (∀ (s : State) (hpa : BitVec 46) (kind : SnoopKind) (l : HlcLine), s.host.hlc.find hpa.toNat = some l →
    l.superseded = false →
    let bytes := cellsRead s.mem.cells (rsvBase + 64 * hpa.toNat) 64
    (l.st = .e → exec (.hostSnoop hpa kind) s = .next { s with
      host := { s.host with hlc := s.host.hlc.del hpa.toNat }
      out := s.out ++ [.cxlCache "RspIHitSE" (64 * hpa.toNat) []] })
    ∧ (l.st = .m → l.evicting = true → exec (.hostSnoop hpa kind) s = .next { s with
        host := { s.host with superseded := satInc s.host.superseded
                              hlc := s.host.hlc.set hpa.toNat { l with superseded := true } }
        out := s.out ++ [.cxlCache "RspIFwdM" (64 * hpa.toNat) bytes] })
    ∧ (l.st = .m → l.evicting = false → kind = .cur → exec (.hostSnoop hpa kind) s =
        .next { s with out := s.out ++ [.cxlCache "RspVFwdV" (64 * hpa.toNat) bytes] })
    ∧ (l.st = .m → l.evicting = false → kind ≠ .cur → exec (.hostSnoop hpa kind) s = .next { s with
        host := { s.host with hlc := s.host.hlc.del hpa.toNat }
        out := s.out ++ [.cxlCache "RspIFwdM" (64 * hpa.toNat) bytes] }))
  ∧ (∀ (s : State) (r : CacheReq), s.host.cacheReqs = [r] → r.waits = false →
    (r.op ≠ .rdOwn → exec (.cxlCacheGo 0 .go) s = .next { s with host := { s.host with cacheReqs := [] } })
    ∧ (r.op = .rdOwn → exec (.cxlCacheGo 0 .go) s =
        .next ((s.install r).updHost fun h => { h with cacheReqs := h.cacheReqs.eraseIdx 0 }))
    ∧ exec (.cxlCacheGo 0 .err) s = .next ((((s.undoReq 0 r).updHost fun h =>
        { h with hlc := h.hlc.del (r.hpa / 64) }).hostFault 0 0x1003 r.hpa).breakModel r.model))
  ∧ (∀ (s : State) (hpa : BitVec 46) (l : HlcLine), s.host.hlc.find hpa.toNat = some l →
    (l.evicting = true → exec (.goWritepull hpa true) s = .next (s.evictEnd hpa.toNat))
    ∧ (l.evicting = false → ∀ d, exec (.goWritepull hpa d) s = .next s)
    ∧ (l.st = .m → l.evicting = false → s.elapsed l.dirtySince (1000 * s.host.wb) = true →
        exec (.hlcWritebackTimer hpa) s = .next (s.evictLine hpa.toNat))
    ∧ (s.elapsed l.dirtySince (1000 * s.host.wb) = false → exec (.hlcWritebackTimer hpa) s = .next s))
  ∧ (∀ (s : State) (n : Nat) (d : Option Line), s.host.biWait = [] → exec (.bisnpResponse n d) s = .next s)
  ∧ (∀ (s : State) (w : BiWait) (l : Nat), s.host.biWait = [w] → w.sent = true → s.windowLine w.da = some l →
    exec (.bisnpResponse 0 none) s =
      .next ((s.setSnoop l (if w.write then none else some .s)).biAdvance (w.da / 64) 2))
  ∧ (∀ (s : State) (l : BitVec 24), s.host.biWait = [] → exec (.biconflict l) s =
    .next { s with out := s.out ++ [.cxlMem "BIConflictAck" (s.windowDA (64 * l.toNat)) []] })
  ∧ (∀ (s : State) (p : AccessPath) (v : W32), s.csrWritable p .hub = true → bit v 16 = false →
    exec (.hcHlcFlush p v) s = .next { s with host := { s.host with wbUs := field v 0 16 } })
  ∧ (∀ (s : State) (p : AccessPath) (g : Fin 64) (v : W32), s.csrWritable p .hub = true → (s.group g.val).en = false →
    bit v 0 = true →
    let y := { s.group g.val with
      err := (s.group g.val).err && !bit v 1, first := field v 2 12, count := field v 14 13 }
    exec (.spGrpAWrite p g v) s = .next (if s.groupOk g.val y
      then s.updGroup g.val fun _ => { y with en := true, closing := false }
      else s.updGroup g.val fun _ => { y with err := true }))

/-! ### The Quefy link and redundant pairs (18) -/

/-- QUEFY_LINK_UP, QUEFY_LANE_FAILURE, FLIT_CRC_FAILURE, QUEFY_LINK_LOSS, QF_PRSNT_CHANGE, MIRROR_ITEM, COMMIT_RECEIVED,
ACK_RECEIVED and PEER_DOWN_SEEN (R632–R648). -/
def Obligations.QuefyLinkAndStream : Prop :=
  (∀ (s : State) (lanes : W16) (peer : Role) (ps : Bool) (e : Nat) (h : Bool),
    s.pl.link = false → s.pl.prsnt = true → s.linkTrains = true → s.rst.start = .ready →
    8 ≤ ({ s.pl with lanes := lanes } : PairState).laneCount →
    let up := { s with pl := { s.pl with link := true, lanes := lanes, pdnSeen := false, peerRole := peer, met := true } }
    (s.rst.effStraps.pair = false ∨ (s.pl.role ≠ .split ∧ s.pl.met = true) →
      exec (.quefyLinkUp lanes peer ps e h) s = .next up)
    ∧ (s.rst.effStraps.pair = true → s.pl.met = false → s.pl.role = .active → peer = .standbyIncomplete →
        exec (.quefyLinkUp lanes peer ps e h) s = .next up)
    ∧ (s.rst.effStraps.pair = true → s.pl.met = false → s.pl.role = .active → peer ≠ .standbyIncomplete →
        ∃ t, exec (.quefyLinkUp lanes peer ps e h) s = .next t ∧ t.pl.role = .solo ∧ t.pl.link = true)
    ∧ (s.rst.effStraps.pair = true → s.pl.role = .split → s.pl.side = true → peer = .split → ps = false → h = true →
        ∃ t, exec (.quefyLinkUp lanes peer ps e h) s = .next t ∧ t.pl.role = s.pl.former ∧ t.pl.rx = [])
    ∧ (s.rst.effStraps.pair = true → s.pl.role = .split → s.pl.side = true → peer ≠ .split →
        ∃ t, exec (.quefyLinkUp lanes peer ps e h) s = .next t ∧ t.pl.role = .standbyIncomplete ∧ t.pl.rx = []))
  ∧ (∀ (s : State) (l : Fin 16) (retrained pd : Bool), s.pl.link = true → s.pl.lanes.getLsbD l.val = true →
    ∃ t, exec (.quefyLaneFailure l retrained pd) s = .next t ∧ t.pl.degrades = satInc s.pl.degrades
      ∧ (8 < s.pl.laneCount → retrained = true →
          t.pl.link = true ∧ t.pl.lanes = setField s.pl.lanes l.val 1 0 ∧ t.pl.role = s.pl.role)
      ∧ (s.pl.laneCount ≤ 8 ∨ retrained = false → t.pl.link = false ∧ t.pl.lanes = 0))
  ∧ (∀ s : State, exec .flitCrcFailure s = .next (if s.pl.link
    then { s with pl := { s.pl with replays := satInc s.pl.replays } } else s))
  ∧ (∀ s : State, s.pl.link = true →
    exec (.quefyLinkLoss true true) s = .next s
    ∧ ∃ t, exec (.quefyLinkLoss true false) s = .next t ∧ t.pl.link = false ∧ t.pl.lanes = 0
        ∧ (rolePaired s.pl.role = true → s.pl.prsnt = true → t.pl.role = .split ∧ t.pl.side = !(s.pl.role == .active)))
  ∧ (∀ s : State, s.pl.prsnt = true → ∃ t, exec (.qfPrsntChange false) s = .next t ∧
      t.pl.prsnt = false ∧ t.pl.link = false
      ∧ (rolePaired s.pl.role = true → t.pl.role = .split ∧ t.pl.side = !(s.pl.role == .active) ∧ t.pl.former = s.pl.role
          ∧ t.pl.splits = satInc s.pl.splits)
      ∧ (rolePaired s.pl.role = false → t.pl.role = s.pl.role))
  ∧ (∀ (s : State) (n : Nat) (it : MirrorItem), exec (.mirrorItem n it) s = .next (if s.receives
    then { s with pl := { s.pl with rx := rxPut n (fun b => { b with items := b.items ++ [it] }) s.pl.rx } } else s))
  ∧ (∀ (s : State) (c : Commit), s.receives = true → s.pl.committed < c.n →
    exec (.commitReceived c) s = .next (State.rxApply { s with
      pl := { s.pl with rx := rxPut c.n (fun b => { b with commit := some (b.commit.getD c) }) s.pl.rx } }))
  ∧ (∀ (s : State) (n : Nat), s.pl.role = .active → s.pl.copyEpoch = none → s.pl.swapEpoch = none →
    ∃ t, exec (.ackReceived n) s = .next t ∧ t.pl.committed = max s.pl.committed n ∧ t.pl.role = .active
      ∧ t.pl.tx = s.pl.tx.filter fun b => decide (n < b.n))
  ∧ (∀ s : State, s.pl.prsnt = true → s.pl.pdnSeen = false → s.pl.promoting = false →
    (s.pl.role = .active → ∃ t, exec .peerDownSeen s = .next t ∧ t.pl.role = .solo ∧ t.pl.tx = [] ∧ t.pl.pdnOut = false)
    ∧ (s.pl.role = .standby → s.pl.auto = false → ∃ t, exec .peerDownSeen s = .next t ∧ t.pl.role = .standby
        ∧ t.pl.pdnSeen = true)
    ∧ (s.pl.role = .standby → s.pl.auto = true → s.pl.rx = [] → s.int.rbAuto = false →
        ∃ t, exec .peerDownSeen s = .next t ∧ t.pl.role = .solo ∧ t.pl.promo = s.pl.committed ∧ t.pl.pdnOut = false))

/-- PAIR_ACTIVE, PAIR_STANDBY, COPY, SOLO, PROMOTE, SWAP, RETRAIN, PAIR_PEER_WINDOW_EXPIRY and PEER_PAIR_COMMAND_RECEIVED
(R638). -/
def Obligations.PairCommands : Prop :=
  (∀ (s : State) (p : AccessPath) (fp : List Nat) (t0 : Nat), s.csrWritable p .hub = true → s.pl.busy = false →
    s.rst.effStraps.pair = true → s.pl.role = .solo → s.pl.link = true → s.time.now < t0 + 100000000 →
    (s.pl.peerCmd = some (2, fp, t0) → ∃ t, exec (.pairActive p) s = .next t ∧ t.pl.busy = false ∧
      (fp = s.fingerprint → t.pl.role = .active ∧ t.pl.peerRole = .standbyIncomplete ∧ t.pl.res = 0
        ∧ t.pl.pdnOut = !s.int.expelled)
      ∧ (fp ≠ s.fingerprint → t.pl.role = .solo ∧ t.pl.res = 4))
    ∧ (s.pl.peerCmd = some (1, fp, t0) → ∃ t, exec (.pairStandby p) s = .next t ∧ t.pl.busy = false ∧
      (fp = s.fingerprint → t.pl.role = .standbyIncomplete ∧ t.pl.peerRole = .active ∧ t.pl.res = 0
        ∧ t.pl.pdnOut = !s.int.expelled)
      ∧ (fp ≠ s.fingerprint → t.pl.role = .solo ∧ t.pl.res = 4)))
  ∧ (∀ (s : State) (p : AccessPath), s.csrWritable p .hub = true → s.pl.busy = false → s.rst.effStraps.pair = true →
    let at_ := fun (op : BitVec 3) => { s with pl := { s.pl with op := op, runOp := op } }
    (s.pl.role = .solo → s.pl.link = false →
      exec (.pairActive p) s = .next ((at_ 1).plEnd 5) ∧ exec (.pairStandby p) s = .next ((at_ 2).plEnd 5))
    ∧ (s.pl.role ≠ .solo →
      exec (.pairActive p) s = .next ((at_ 1).plEnd 1) ∧ exec (.pairStandby p) s = .next ((at_ 2).plEnd 1))
    ∧ (s.pl.role = .solo → s.pl.link = true → s.pl.peerCmd = none → ∃ t, exec (.pairActive p) s = .next t
        ∧ t.pl.busy = true ∧ t.pl.role = .solo ∧ t.pl.waiting = some (1, s.time.now))
    ∧ (∀ fp, s.pl.role = .active → s.pl.copy = false → s.pl.peerRole = .standbyIncomplete → s.pl.link = true →
        exec (.copy p fp) s = .next (if fp = s.fingerprint
          then ((at_ 3).plEnd 0).copyStart else (at_ 3).plEnd 4))
    ∧ (∀ fp, s.pl.role ≠ .active ∨ s.pl.copy = true → exec (.copy p fp) s = .next ((at_ 3).plEnd 1))
    ∧ (s.pl.role ≠ .solo → ∃ t, exec (.solo p) s = .next t ∧ t.pl.role = .solo ∧ t.pl.res = 0 ∧ t.pl.pdnOut = false
        ∧ t.pl.tx = [] ∧ t.pl.rx = [] ∧ (roleStandby s.pl.role = true → t.upd.broken = List.range 256))
    ∧ (s.pl.role = .solo → exec (.solo p) s = .next ((at_ 4).plEnd 1))
    ∧ (s.pl.role = .standby → s.pl.promoting = false → s.pl.rx = [] → s.int.rbAuto = false →
        ∃ t, exec (.promote p) s = .next t ∧ t.pl.role = .solo ∧ t.pl.promo = s.pl.committed ∧ t.pl.res = 0
          ∧ t.pl.busy = false ∧ t.pl.promos = satInc s.pl.promos)
    ∧ (s.pl.role = .active → s.pl.promoting = false → exec (.promote p) s = .next ((at_ 5).plEnd 1))
    ∧ (s.pl.role = .active → s.pl.copy = false → s.pl.peerRole = .standby → s.pl.link = true →
        exec (.swap p) s = .next (State.swapGo { s with
          pl := { s.pl with op := 6, runOp := 6, busy := true, res := 0 } }))
    ∧ (s.pl.role ≠ .active ∨ s.pl.copy = true → exec (.swap p) s = .next ((at_ 6).plEnd 1))
    ∧ (∀ lanes, s.pl.link = true → rolePaired s.pl.role = true →
        8 ≤ ({ s.pl with lanes := lanes } : PairState).laneCount →
        ∃ t, exec (.retrain p lanes) s = .next t ∧ t.pl.lanes = lanes ∧ t.pl.res = 0 ∧ t.pl.link = true
          ∧ t.pl.role = s.pl.role)
    ∧ (∀ lanes, s.pl.link = false → exec (.retrain p lanes) s = .next ((at_ 7).plEnd 5)))
  ∧ (∀ (s : State) (p : AccessPath), s.csrWritable p .hub = true → s.pl.busy = false → s.rst.effStraps.pair = false →
    s.pl.promoting = false →
    let fails := fun (op : BitVec 3) => State.plEnd { s with pl := { s.pl with op := op, runOp := op } } 2
    exec (.pairActive p) s = .next (fails 1) ∧ exec (.pairStandby p) s = .next (fails 2)
    ∧ (∀ fp, exec (.copy p fp) s = .next (fails 3)) ∧ exec (.solo p) s = .next (fails 4)
    ∧ exec (.promote p) s = .next (fails 5) ∧ exec (.swap p) s = .next (fails 6)
    ∧ (∀ lanes, exec (.retrain p lanes) s = .next (fails 7)))
  ∧ (∀ (s : State) (op t0 : Nat), s.pl.waiting = some (op, t0) →
    exec .pairPeerWindowExpiry s = .next (if s.elapsed t0 100000000 then s.plEnd 3 else s))
  ∧ (∀ (s : State) (fp : List Nat) (t0 : Nat), s.pl.link = true → s.pl.waiting = some (1, t0) →
    s.time.now < t0 + 100000000 → fp = s.fingerprint →
    ∃ t, exec (.peerPairCommandReceived true fp) s = .next t ∧ t.pl.role = .active ∧ t.pl.busy = false ∧ t.pl.res = 0)
  ∧ (∀ (s : State) (b : Bool) (fp : List Nat), s.pl.link = true → s.pl.waiting = none →
    exec (.peerPairCommandReceived b fp) s = .next { s with
      pl := { s.pl with peerCmd := some (if b then 2 else 1, fp, s.time.now) } })

/-! ### Silent errors and fault handling (19) -/

/-- PATROL_TEST, SUSPECT_CLEAR, CHECK_FAILURE, COMPARE_RESULT_RECEIVED, VERIFY_SWEEP_COMPLETE, VERDICT_EXCHANGE, EXPEL,
ROLLBACK and INT_VER_WRITE (R663–R682). -/
def Obligations.SilentErrors : Prop :=
  (∀ (s : State) (k : Fin 5) (i : Nat), i < (UnitKind.ofCode k.val).count → s.serving (UnitKind.ofCode k.val) i = true →
    exec (.patrolTest k i true) s = .next s
    ∧ ((s.bak.unit (UnitKind.ofCode k.val) i).health = .inService → ∃ t, exec (.patrolTest k i false) s = .next t
        ∧ t.health (UnitKind.ofCode k.val) i = .suspect))
  ∧ (∀ (s : State) (k : Fin 5) (i : Nat), i < (UnitKind.ofCode k.val).count →
    s.excluded (UnitKind.ofCode k.val) i = false → (s.bak.unit (UnitKind.ofCode k.val) i).health = .suspect →
    (s.elapsed (s.bak.unit (UnitKind.ofCode k.val) i).since (72 * hourNs) = true →
      ∃ t, exec (.suspectClear k i) s = .next t ∧ t.health (UnitKind.ofCode k.val) i = .inService)
    ∧ (s.elapsed (s.bak.unit (UnitKind.ofCode k.val) i).since (72 * hourNs) = false →
      exec (.suspectClear k i) s = .next s))
  ∧ (∀ s : State, exec (.checkFailure .astCopy) s = .next (s.intFault 0x0D09))
  ∧ (∀ (s : State) (k : Fin 1200), exec (.checkFailure (.coreResidue k)) s = .next (s.coreMismatch k.val 0x0304))
  ∧ (∀ (s : State) (k : Fin 1200),
    let live := (s.time.now :: (s.bak.unit .core k.val).ces).filter fun t => decide (s.time.now < t + hourNs)
    live.length ≤ s.int.ceLimit.toNat → exec (.checkFailure (.corrCore k)) s = .next { s with
      bak := s.bak.setUnit .core k.val { s.bak.unit .core k.val with ces := live } })
  ∧ (∀ (s : State) (epoch : Nat) (bad unver : List Nat), s.pl.role = .active →
    exec (.compareResultReceived epoch true bad unver) s = .next { s with
      pl := { s.pl with ver := epoch }, int := { s.int with ver := epoch } }
    ∧ (s.int.verify = true → s.int.dis = [] → s.int.sweep = [] → ∀ m,
        ∃ t, exec (.compareResultReceived epoch false [m] unver) s = .next t ∧ t.int.disagree = true ∧ t.int.dis = [m]
          ∧ t.int.sweep = [m] ∧ t.int.ver = s.int.ver))
  ∧ (∀ s : State, s.int.sweep = [] → exec .verifySweepComplete s = .next s)
  ∧ (∀ (s : State) (m : Nat), s.int.sweep = [m] → s.upd.recs = [] → s.int.peerVerdict = none →
    ∃ t, exec .verifySweepComplete s = .next t ∧ t.int.sweep = []
      ∧ t.int.verdict = some (!(s.sweepModel m).2 && (s.sweepModel m).1 == SMap.digSum s.upd.dig m))
  ∧ (∀ (s : State) (v : Bool), s.int.disagree = true →
    (s.int.verdict = none → exec (.verdictExchange v) s = .next { s with int := { s.int with peerVerdict := some v } })
    ∧ (∀ mine, s.int.verdict = some mine → s.int.sweep = [] →
        exec (.verdictExchange v) s = .next (s.settleVerdicts mine v)))
  ∧ (∀ (s : State) (p : AccessPath), s.csrWritable p .hub = true → s.int.busy = false →
    (s.int.expelled = true → exec (.expel p) s = .next { s with int := { s.int with op := 1, res := 1 } })
    ∧ (s.int.expelled = false → ∃ t, exec (.expel p) s = .next t ∧ t.int.expelled = true ∧ t.int.tainted = true
        ∧ t.int.res = 0 ∧ t.pl.pdnOut = false)
    ∧ (s.pl.role ≠ .solo → s.int.rbClosing = none →
        exec (.rollback p) s = .next { s with int := { s.int with op := 2, res := 1 } })
    ∧ (s.pl.role = .solo → s.int.expelled = false → s.int.rbClosing = none → s.int.rb.toNat < s.int.ver →
        exec (.rollback p) s = .next { s with int := { s.int with op := 2, res := 2 } })
    ∧ (s.pl.role = .solo → s.int.expelled = false → s.int.rbClosing = none → s.int.ver ≤ s.int.rb.toNat →
        s.int.rb.toNat ≤ s.upd.accepting → s.upd.journalFrom ≤ s.int.rb.toNat →
        exec (.rollback p) s = .next (({ s with int := { s.int with
          op := 2, busy := true, res := 0, rbClosing := some s.upd.accepting, rbTo := s.int.rb.toNat
          rbTotal := 0, rbSrc := [] } }.closeEpoch none).rollbackGo)))
  ∧ (∀ (s : State) (p : AccessPath) (v : W64), s.csrWritable p .hub = true →
    let lo := { s.int with verLo := field v 0 32 }
    let e := (field v 32 32).toNat * 2 ^ 32 + (field v 0 32).toNat
    exec (.intVerWrite p v) s = .next (if s.pl.role = .solo ∧ s.int.ver ≤ e ∧ (∃ kv ∈ s.upd.ring, kv.2.epoch = e)
      then { s with int := { lo with ver := e, disagree := false, dis := [], unver := [] } }
      else { s with int := { lo with err := true } }))

/-! ### Reset, start-up and boot (20) -/

/-- POR, PERST_N_ASSERT, PERST_N_DEASSERT, JTAG_RESET, STEWARD_RESET_REQUEST, STARTUP_TIMEOUT, THERMAL_TRIP, THERMAL_REARM and
MAIN_RAILS_RETURN (R692–R695, R710, R712). -/
def Obligations.ResetSources : Prop :=
  (∀ (s : State) (boot : BitVec 3) (clk : BitVec 2) (pair test : Bool), s.rails.aux = true → s.rails.mainEn = true →
    s.rails.powerOff = false → s.rst.heldUv = false →
    ∃ t, exec (.por boot clk pair test) s = .next t ∧ t.time.now = 0 ∧ t.bak.src = 1
      ∧ t.bak.cnt.get 0 1 = satInc (s.bak.cnt.get 0 1) ∧ t.straps = { boot := boot, clk := clk, pair := pair, test := test }
      ∧ (s.rst.heldPerst = false → t.rst.start = .clocks ∧ t.rst.rawStraps = t.straps)
      ∧ (s.rst.heldPerst = true → t.rst.start = .options))
  ∧ (∀ s : State, s.pwr.dstate = .d3cold → s.rails.mainEn = true → s.rails.powerOff = false →
    ∃ t, exec .mainRailsReturn s = .next t ∧ t.time.now = 0 ∧ t.rails.main = true ∧ t.bak.src = 1)
  ∧ (∀ s : State, s.hubPowered = true → s.rst.held = false → s.rst.start = .ready →
    (∀ t0, s.rst.lastSrcAt = some t0 → t0 + 1000 ≤ s.time.now) →
    ∃ t, exec .perstNAssert s = .next t ∧ t.rst.heldPerst = true ∧ t.rst.start = .options ∧ t.time.now = s.time.now
      ∧ t.bak.src = 2 ∧ t.bak.cnt.get 0 2 = satInc (s.bak.cnt.get 0 2) ∧ t.bak.cnt.get 0 0 = satInc (s.bak.cnt.get 0 0)
      ∧ t.queues = State.reset.queues ∧ t.sc = State.reset.sc)
  ∧ (∀ s : State, s.rst.heldPerst = true → s.rst.heldThermal = false → s.rst.heldUv = false →
    (s.hubPowered = true → exec .perstNDeassert s = .next (State.bootStart { s with rst := { s.rst with heldPerst := false } }))
    ∧ (s.hubPowered = false → exec .perstNDeassert s = .next { s with rst := { s.rst with heldPerst := false } }))
  ∧ (∀ s : State, s.hubPowered = true → exec .jtagReset s = .next (if s.rst.effStraps.test then s.deviceReset 9 else s))
  ∧ (∀ s : State, s.hubRuns = true → s.stw.st = .running → exec .stewardResetRequest s = .next (s.deviceReset 7))
  ∧ (∀ s : State, s.stw.st ≠ .running → exec .stewardResetRequest s = .next s)
  ∧ (∀ (s : State) (t0 : Nat), s.rst.timerAt = some t0 → s.rst.start.running = true → s.rst.held = false →
    s.elapsed t0 (s.rst.tmoS.toNat * 1000000000 - s.rst.timerUsed) = true →
    (3 ≤ s.rst.code8 → ∃ t, exec .startupTimeout s = .next t ∧ t.rst.start = .halted)
    ∧ (s.rst.code8 < 3 → ∃ t, exec .startupTimeout s = .next t ∧ t.rst.start = .clocks ∧ t.rst.code8 = s.rst.code8 + 1))
  ∧ (∀ s : State, s.hubPowered = true → s.rst.held = false →
    ∃ t, exec .thermalTrip s = .next t ∧ t.rst.heldThermal = true ∧ t.rails.hbm = false ∧ t.rails.pser = false
      ∧ t.rails.vddMv = 550 ∧ t.pl.pdnOut = false ∧ t.bak.cnt.get 0 5 = satInc (s.bak.cnt.get 0 5))
  ∧ (∀ s : State, s.hubPowered = true → s.rst.heldThermal = true → s.rst.heldPerst = false → s.rst.heldUv = false →
    ∃ t, exec .thermalRearm s = .next t ∧ t.rst.heldThermal = false ∧ t.rst.start = .clocks ∧ t.rails.vddMv = 750)

/-- TIME_BASE_PLL_LOCK, BOOT_IMAGE_RECEIVED, BOOT_IMAGE_ABSENT_TIMEOUT, RSTC_HLOAD_GO, HBM_TRAINING_COMPLETE,
ZERO_FILL_COMPLETE, STARTUP_READY, PAIR_LOAD_REQUEST and JTAG_TEST_INSTRUCTION (R702–R708, R720). -/
def Obligations.StartUpSteps : Prop :=
  (∀ s : State, s.rst.start = .clocks → s.hubPowered = true → s.rst.held = false →
    ∃ t, exec .timeBasePllLock s = .next t ∧ t.time.pllLocked = true
      ∧ (s.rst.effStraps.test = true → t.rst.start = .test)
      ∧ (s.rst.effStraps.test = false → s.lc = 3 → t.rst.start = .retired ∧ t.sec.aliasIssued = true)
      ∧ (s.rst.effStraps.test = false → s.lc ≠ 3 → s.rst.effStraps.boot = 0 ∨ s.rst.effStraps.boot = 2 →
          t.rst.start = .booting ∧ t.rst.xferSince = some s.time.now)
      ∧ (s.rst.effStraps.test = false → s.lc ≠ 3 → s.rst.effStraps.boot = 1 ∨ s.rst.effStraps.boot = 3 →
          t.rst.start = .bootWait ∧ t.rst.timerAt = none))
  ∧ (∀ (s : State) (src : Fin 4) (img : List Byte), s.rst.held = false → s.awaits src.val = true →
    (src.val = 0 → s.spi.a = [] ∧ s.spi.b = []) →
    (s.imageReason img = 0 → ∃ t, exec (.bootImageReceived src img false) s = .next t ∧ t.rst.start = .power
        ∧ t.stw.st = .running ∧ t.rails.hbm = true ∧ t.rails.vddMv = 750 ∧ t.rst.srcUsed = BitVec.ofNat 2 src.val
        ∧ t.sec.image = img.take (512 + leAt img 4 4))
    ∧ (s.imageReason img ≠ 0 → exec (.bootImageReceived src img false) s =
        .next (s.imageReject src.val (s.imageReason img)))
    ∧ exec (.bootImageReceived src img true) s = .next (s.imageReject src.val 6))
  ∧ (∀ (s : State) (src reason : Nat), s.rst.start = .booting → s.rst.effStraps.boot = 0 →
    (s.rst.aRejected = false → (s.imageReject src reason).rst.start = .booting
        ∧ (s.imageReject src reason).rst.aRejected = true)
    ∧ (s.rst.aRejected = true → (s.imageReject src reason).rst.start = .bootWait
        ∧ (s.imageReject src reason).rst.fail = true ∧ (s.imageReject src reason).rst.rej = BitVec.ofNat 4 reason))
  ∧ (∀ (s : State) (t0 : Nat), s.rst.xferSince = some t0 → s.rst.start = .booting → s.rst.effStraps.boot = 0 →
    exec .bootImageAbsentTimeout s = .next (if s.elapsed t0 10000000000 then s.imageReject 0 6 else s))
  ∧ (∀ (s : State) (p : AccessPath) (v : W32), s.csrWritable p .rstc = true → bit v 31 = true →
    exec (.rstcHloadGo p v) s = .next (if s.rst.start = .bootWait ∧ s.rst.hloadBusy = false
      then { s with
        rst := { s.rst with hloadLen := field v 0 25, hloadBusy := true, xferSince := some s.time.now }
        out := s.out ++ [.hostRead 0 s.rst.hloadAddr.toNat (field v 0 25).toNat] }
      else { s with rst := { s.rst with hloadLen := field v 0 25 } }))
  ∧ (∀ s : State, s.rst.start = .power → s.rst.held = false →
    ∃ t, exec (.hbmTrainingComplete []) s = .next t ∧ t.rst.start = .fill ∧ t.mem.redirect = s.mem.redirect)
  ∧ (∀ s : State, s.rst.start = .fill → s.rst.held = false → exec .zeroFillComplete s = .next { s with
      cbk := []
      mem := { s.mem with
        cells := s.mem.cells.filter fun kv => hbmEnd ≤ kv.1
        poison := s.mem.poison.filter fun l => hbmEnd ≤ 64 * l }
      hub := { s.hub with
        capClusters := BitVec.ofNat 7 ((List.range 100).filter (s.zeroFill.serving .cluster)).length
        capPairs := BitVec.ofNat 4 ((List.range 8).filter (s.zeroFill.serving .pair)).length
        capPairEn := s.rst.effStraps.pair }
      rst := { s.rst with start := .clusters } })
  ∧ (∀ s : State, s.rst.start = .clusters → s.rst.held = false → s.rst.effStraps.pair = false →
    ∃ t, exec .startupReady s = .next t ∧ t.rst.start = .ready ∧ t.rst.timerAt = none ∧ t.rst.code8 = 0
      ∧ t.rails.pser = true ∧ t.pl.role = s.pl.role)
  ∧ (∀ s : State, s.rst.start = .ready → s.pl.link = true → exec .pairLoadRequest s =
    .next { s with out := s.out ++ [.quefy "IMAGE" s.sec.image.length s.sec.image] })
  ∧ (∀ s : State, exec .jtagTestInstruction s = .next (if s.rst.start = .test
    then { s with out := s.out ++ [.sideband "JTAG_TEST" 0 []] } else s))

/-- VBAK_LOSS, VDD_CORE_UNDERVOLT, RAIL_FAULT, AUX_RAIL_LOSS, AUX_RAIL_RETURN, PM_ALERT, BLOCK_IDLE_ACK,
RSTC_IDLE_TIMEOUT_EXPIRY, DIE_RELEASE and CXL_IO_COMPLETION_TIMEOUT (R709, R711, R825, R826). -/
def Obligations.BlockResetsAndSupplies : Prop :=
  (∀ s : State, exec .vbakLoss s = .next (if s.hubPowered
    then State.timeFault { s with bak := { ({} : Backup) with bakLost := true, vbak := true } } 4 0x0F08
    else { s with bak := { ({} : Backup) with bakLost := true, vbak := false } }))
  ∧ (∀ s : State, s.hubPowered = true → ∃ t, exec .vddCoreUndervolt s = .next t ∧ t.rst.heldUv = true
      ∧ t.rst.held = true ∧ t.bak = s.bak ∧ t.time.now = 0)
  ∧ (∀ (s : State) (addr page : Byte) (st : W16), s.hubPowered = true →
    (∃ t, exec (.railFault .main false addr page st) s = .next t ∧ t.pwr.dstate = .d3cold ∧ t.rails.main = false)
    ∧ exec (.railFault .main true addr page st) s = .next (s.railFault 0x1201 addr.toNat page.toNat st.toNat)
    ∧ exec (.railFault .hbm false addr page st) s =
        .next ((s.railFault 0x1203 addr.toNat page.toNat st.toNat).deviceReset 6)
    ∧ exec (.railFault .hphy true addr page st) s =
        .next ((s.railFault 0x1201 addr.toNat page.toNat st.toNat).deviceReset 6)
    ∧ (s.pl.link = false → s.aq.slots = [] → exec (.railFault .pser false addr page st) s =
        .next (let x := s.railFault 0x1203 addr.toNat page.toNat st.toNat
          { x with rails := { x.rails with pser := false, aqPerstN := 0 } })))
  ∧ (∀ s : State, s.pwr.dstate ≠ .off → ∃ t, exec .auxRailLoss s = .next t ∧ t.pwr.dstate = .off
      ∧ t.rails.aux = false ∧ t.rails.mainEn = false ∧ t.rails.main = false ∧ t.bak = s.bak ∧ t.nvm = s.nvm)
  ∧ (∀ s : State, s.pwr.dstate = .off → exec .auxRailReturn s = .next { s with
      pwr := { s.pwr with dstate := .d3cold }, rails := { s.rails with aux := true, mainEn := true } })
  ∧ (∀ (s : State) (addr page : Byte) (st : W16), s.rails.aux = true →
    exec (.pmAlert addr page st true) s = .next (s.railFault 0x1201 addr.toNat page.toNat st.toNat)
    ∧ exec (.pmAlert addr page st false) s = .next (s.railFault 0x1202 addr.toNat page.toNat 0))
  ∧ (∀ (s : State) (b : Fin 49) (due : Nat), s.rst.idleReqs.find b.val = some due →
    (b.val < 16 → exec (.blockIdleAck b) s = .next (s.partResetEnd b.val))
    ∧ (16 ≤ b.val → b.val < 20 → exec (.blockIdleAck b) s = .next ((s.dieClear (b.val - 16)).idleEnd b.val))
    ∧ (20 ≤ b.val → b.val < 48 → exec (.blockIdleAck b) s = .next (s.idleEnd b.val))
    ∧ (b.val = 48 → exec (.blockIdleAck b) s = .next (s.againStart.stewardBack.idleEnd 48))
    ∧ (s.time.now < due → exec (.rstcIdleTimeoutExpiry b) s = .next s)
    ∧ (due ≤ s.time.now → 16 ≤ b.val → b.val < 20 → exec (.rstcIdleTimeoutExpiry b) s =
        .next ((s.fault { mkFault 8 (b.val - 16) 0x0F09 with part := 0xFF }).deviceReset 6))
    ∧ (due ≤ s.time.now → 32 ≤ b.val → b.val < 40 → ∃ t, exec (.rstcIdleTimeoutExpiry b) s = .next t
        ∧ (t.cc.pairs.get {} (b.val - 32)).stuck = true))
  ∧ (∀ (s : State) (d : Fin 4), s.rst.dieRst.contains d.val = true → exec (.dieRelease d) s =
    .next (State.dieResumes { s with
      rst := { s.rst with dieRst := s.rst.dieRst.filter fun (x : Nat) => x != d.val } }))
  ∧ (∀ (s : State) (d : Fin 4), s.rst.dieRst.contains d.val = false → exec (.dieRelease d) s = .next s)
  ∧ (∀ (s : State) (q : Fin 1024), (s.queue q.val).head = none → (s.queue q.val).loc = false → s.mayFetch q.val = true →
    s.taskBound q.val = false →
    exec (.cxlIoCompletionTimeout ⟨q.val, by omega⟩) s = .next (s.fetchFailed q.val))
  ∧ (∀ s : State, s.rst.start = .bootWait → s.rst.hloadBusy = true →
    exec (.cxlIoCompletionTimeout ⟨1024, by decide⟩) s = .next (s.imageReject 1 6))

/-! ### Security, debug and power states (21) -/

/-- P_STATE_REQUEST, RAMP_COMPLETE, POWER_CAP_SAMPLE, D0_IDLE_REQUEST, PMCSR_D3HOT and PMCSR_D0 (R739, R740, R748). -/
def Obligations.PowerStates : Prop :=
  (∀ (s : State) (p : AccessPath) (v : W32), s.csrWritable p .hub = true → s.pwr.dstate = .d0 → s.pwr.ramp = none →
    s.stw.st = .running → s.pwr.target = .ofCode s.pwr.preq.toNat → bit v 2 = false →
    let want := PState.ofCode (field v 0 2).toNat
    (want.rank = s.pwr.pstate.rank + 1 ∨ want.rank + 1 = s.pwr.pstate.rank →
      ∃ t, exec (.pStateRequest p v) s = .next t ∧ t.pwr.ramp = some want ∧ t.pwr.pstate = s.pwr.pstate
        ∧ t.rails.vddMv = want.mv ∧ t.pwr.preq = field v 0 2)
    ∧ (want = s.pwr.pstate → ∃ t, exec (.pStateRequest p v) s = .next t ∧ t.pwr.ramp = none ∧ t.rails = s.rails))
  ∧ (∀ (s : State) (x : PState), s.pwr.ramp = some x → s.pwr.target = x →
    ∃ t, exec .rampComplete s = .next t ∧ t.pwr.pstate = x ∧ t.pwr.ramp = none)
  ∧ (∀ s : State, s.pwr.ramp = none → exec .rampComplete s = .next s)
  ∧ (∀ (s : State) (w : W16), s.hubRuns = true → s.stw.st = .running → s.pwr.capEn = true →
    (s.pwr.capW.toNat < w.toNat → s.pwr.overs = 9 → s.pwr.dstate = .d0 → s.pwr.ramp = none → s.pwr.preq = 0 →
      s.pwr.pstate = .p0 → ∃ t, exec (.powerCapSample w) s = .next t ∧ t.pwr.target = .p1 ∧ t.pwr.ramp = some .p1
        ∧ t.pwr.capped = true ∧ t.pwr.overs = 0 ∧ t.pwr.powerW = w)
    ∧ (s.pwr.capW.toNat < w.toNat → s.pwr.overs < 9 → ∃ t, exec (.powerCapSample w) s = .next t
        ∧ t.pwr.overs = s.pwr.overs + 1 ∧ t.pwr.target = s.pwr.target)
    ∧ (w.toNat ≤ s.pwr.capW.toNat → 95 * s.pwr.capW.toNat ≤ w.toNat * 100 →
        ∃ t, exec (.powerCapSample w) s = .next t ∧ t.pwr.overs = 0 ∧ t.pwr.underSince = none
          ∧ t.pwr.target = s.pwr.target))
  ∧ (∀ (s : State) (p : AccessPath) (v : W32), s.csrWritable p .hub = true → s.pwr.dstate = .d0 → bit v 2 = true →
    (s.partsQuiet = true → ∃ t, exec (.d0IdleRequest p v) s = .next t ∧ t.pwr.dstate = .d0idle ∧ t.pwr.idle = true
        ∧ t.co.core = [] ∧ t.pwr.refused = s.pwr.refused)
    ∧ (s.partsQuiet = false → ∃ t, exec (.d0IdleRequest p v) s = .next t ∧ t.pwr.dstate = .d0 ∧ t.pwr.idle = false
        ∧ t.pwr.refused = true ∧ t.co = s.co))
  ∧ (∀ (s : State) (p : AccessPath) (v : W32), s.csrWritable p .hub = true → s.pwr.dstate = .d0idle → bit v 2 = false →
    ∃ t, exec (.d0IdleRequest p v) s = .next t ∧ t.pwr.dstate = .d0 ∧ t.pwr.idle = false)
  ∧ (∀ (s : State) (q : Quiesce), s.rst.start = .ready → s.rst.held = false → s.pwr.dstate = .d0 → s.pwr.d3 = some q →
    q.step = 3 → s.hostFlushed = true → ∃ t, exec .pmcsrD3hot s = .next t ∧ t.pwr.dstate = .d3hot ∧ t.pwr.d3 = none
      ∧ t.co.core = [])
  ∧ (∀ (s : State) (q : Quiesce), s.rst.start = .ready → s.rst.held = false → s.pwr.dstate = .d0 → s.pwr.d3 = some q →
    q.step = 3 → s.hostFlushed = false → s.gtoPassed q.due = false → exec .pmcsrD3hot s = .next s)
  ∧ (∀ s : State, s.pwr.dstate = .d3hot → s.rst.held = false → ∃ t, exec .pmcsrD0 s = .next t ∧ t.pwr.dstate = .d0
      ∧ t.rails.pser = true ∧ (∀ p, (s.part p).st = .running → (t.part p).st = .stopped ∧ (t.part p).ctxV = false))
  ∧ (∀ s : State, s.pwr.dstate ≠ .d3hot → exec .pmcsrD0 s = .next s)

/-- GET_VERSION, GET_CAPABILITIES, NEGOTIATE_ALGORITHMS, GET_DIGESTS, GET_CERTIFICATE, CHALLENGE, GET_MEASUREMENTS,
KEY_EXCHANGE, FINISH, END_SESSION, KEY_UPDATE, HEARTBEAT and SPDM_UNSUPPORTED (R725, R726). What the answers' bytes are is
DMTF's format and free in the model. -/
def Obligations.Attestation : Prop :=
  (∀ (s : State) (doe : Bool) (req : List Byte), s.spdmServed doe = true →
    let reply := fun (what : String) (code : Nat) => { s with
      out := s.out ++ [.sideband what 0 (Config.spdmAnswer code req s.measurements)] }
    exec (.getVersion doe req) s = .next (reply "VERSION" 0x84)
    ∧ exec (.getCapabilities doe req) s = .next (reply "CAPABILITIES" 0xE1)
    ∧ exec (.negotiateAlgorithms doe req) s = .next (reply "ALGORITHMS" 0xE3)
    ∧ exec (.getDigests doe req) s = .next (reply "DIGESTS" 0x81)
    ∧ exec (.getCertificate doe 0 req) s = .next (reply "CERTIFICATE" 0x82)
    ∧ exec (.challenge doe 0 req) s = .next (reply "CHALLENGE_AUTH" 0x83)
    ∧ (∀ n : Byte, n ≠ 0 → exec (.getCertificate doe n req) s = .next { s with out := s.out ++ [.sideband "ERROR" 1 []] }
        ∧ exec (.challenge doe n req) s = .next { s with out := s.out ++ [.sideband "ERROR" 1 []] })
    ∧ exec (.getMeasurements doe req) s = .next { s with
        out := s.out ++ [.sideband "MEASUREMENTS" 0 (s.measurements ++ Config.spdmAnswer 0xE0 req s.measurements)] }
    ∧ exec (.spdmUnsupported doe) s = .next { s with out := s.out ++ [.sideband "ERROR" 7 []] })
  ∧ (∀ (s : State) (doe : Bool) (id : W32) (req : List Byte), s.spdmServed doe = true →
    (s.sec.sessions.length < 4 → s.sec.sessions.contains id.toNat = false →
      ∃ t, exec (.keyExchange doe id req) s = .next t ∧ t.sec.sessions = s.sec.sessions ++ [id.toNat]
        ∧ t.sec.halfOpen = s.sec.halfOpen ++ [id.toNat])
    ∧ (4 ≤ s.sec.sessions.length → exec (.keyExchange doe id req) s = .next { s with
        sec := { s.sec with sessFail := satInc s.sec.sessFail }
        out := s.out ++ [.sideband "ERROR" 3 []] }))
  ∧ (∀ (s : State) (id : W32) (req : List Byte), s.sec.halfOpen.contains id.toNat = true →
    (∃ t, exec (.finish id true req) s = .next t ∧ t.sec.halfOpen = s.sec.halfOpen.filter (· != id.toNat)
      ∧ t.sec.sessions = s.sec.sessions)
    ∧ (∃ t, exec (.finish id false req) s = .next t ∧ t.sec.sessions.contains id.toNat = false
      ∧ t.sec.sessFail = satInc s.sec.sessFail))
  ∧ (∀ (s : State) (id : W32) (req : List Byte), s.inSession id.toNat = true →
    exec (.keyUpdate id req) s = .next (s.spdmSay "KEY_UPDATE_ACK" 0xE9 req)
    ∧ exec (.heartbeat id req) s = .next (s.spdmSay "HEARTBEAT_ACK" 0xE8 req)
    ∧ ∃ t, exec (.endSession id req) s = .next t ∧ t.sec.sessions = s.sec.sessions.filter (· != id.toNat))
  ∧ (∀ (s : State) (id : W32) (req : List Byte), s.inSession id.toNat = false →
    let no := { s with out := s.out ++ [.sideband "ERROR" 2 []] }
    exec (.keyUpdate id req) s = .next no ∧ exec (.heartbeat id req) s = .next no
    ∧ exec (.endSession id req) s = .next no)
  ∧ (∀ (s : State) (doe : Bool) (req : List Byte), s.spdmServed doe = false →
    exec (.getVersion doe req) s = .next s ∧ exec (.getMeasurements doe req) s = .next s
    ∧ exec (.challenge doe 0 req) s = .next s ∧ exec (.spdmUnsupported doe) s = .next s)

/-- The owner commands, NONCE_GET, SEC_AUTH, SEC_DBG_REVOKE, DEBUG_HALT, DEBUG_STEP and DEBUG_DA_ACCESS (R727–R736). -/
def Obligations.OwnerCommands : Prop :=
  (∀ (s : State) (pl : List Byte),
    let no := State.secFault { s with out := s.out ++ [.sideband "OWNER" 5 []] } 0x0F21
    exec (.lcProvision none pl) s = .next no ∧ exec (.lcSeal none pl) s = .next no ∧ exec (.lcRetire none pl) s = .next no
    ∧ exec (.dbgReq none pl) s = .next no ∧ exec (.dbgAuth none pl) s = .next no ∧ exec (.dbgRevoke none pl) s = .next no
    ∧ exec (.fkSet none pl) s = .next no ∧ exec (.fkClear none pl) s = .next no)
  ∧ (∀ (s : State) (id : W32) (pl : List Byte), s.inSession id.toNat = true → s.hubRuns = true →
    (pl.length ≠ 53 → exec (.lcProvision (some id) pl) s = .next (s.ownerReply .format))
    ∧ (pl.length = 53 → s.sec.lcRunning = false → s.lc = 0 → ∃ t, exec (.lcProvision (some id) pl) s = .next t
        ∧ t.sec.lcRunning = true ∧ t.opt = s.opt
        ∧ (s.opt.none = true → t.nvm.copyA.get 0xFF 8 = 0xA5 ∧ t.nvm.copyB = s.nvm.copyB))
    ∧ (pl = [] → s.sec.lcRunning = false → s.lc = 1 → s.rootSet = true → s.rst.verified = true →
        ∃ t, exec (.lcSeal (some id) pl) s = .next t ∧ t.sec.lcRunning = true
          ∧ t.nvm.copyA.get 0xFF 8 = (if s.opt.none || s.opt.usedB then 0x5A else s.nvm.copyA.get 0xFF 8)
          ∧ t.nvm.copyB.get 0xFF 8 = (if s.opt.none || s.opt.usedB then s.nvm.copyB.get 0xFF 8 else 0x5A))
    ∧ (pl = [] → s.sec.lcRunning = false → s.lc = 1 → s.rootSet = false ∨ s.rst.verified = false →
        exec (.lcSeal (some id) pl) s = .next (s.ownerReply .state))
    ∧ (pl = [] → s.sec.lcRunning = false → s.lc = 1 → ∃ t, exec (.lcRetire (some id) pl) s = .next t
        ∧ t.sec.lcRunning = true ∧ t.ident.fleetKey = none ∧ t.ident.retireFuse = true)
    ∧ (pl = [] → s.lc ≠ 2 → s.sec.lcRunning = true → exec (.lcRetire (some id) pl) s = .next (s.ownerReply .busy))
    ∧ (pl.length = 32 → s.lc = 1 ∨ s.lc = 2 → s.digestInUse = false → ∃ t, exec (.fkSet (some id) pl) s = .next t
        ∧ t.ident.fleetKey = some (BitVec.ofNat 256 (leNat pl)))
    ∧ (pl = [] → s.lc = 1 ∨ s.lc = 2 → s.digestInUse = false → ∃ t, exec (.fkClear (some id) pl) s = .next t
        ∧ t.ident.fleetKey = none)
    ∧ (pl = [] → s.digestInUse = true → s.lc = 1 → exec (.fkClear (some id) pl) s = .next (s.ownerReply .busy))
    ∧ (pl = [1] → 1 ≤ s.reqMax → s.sec.dbg = 0 → ∃ t, exec (.dbgReq (some id) pl) s = .next t
        ∧ t.sec.dbg = 1 ∧ t.sec.auth = false)
    ∧ (pl = [2] → s.reqMax < 2 → exec (.dbgReq (some id) pl) s = .next (s.ownerReply .state))
    ∧ (pl.length = 256 → s.lc = 1 ∨ s.lc = 2 → s.tokenOk pl 0 = true → s.sec.dbg = 0 →
        ∃ t, exec (.dbgAuth (some id) pl) s = .next t ∧ t.sec.dbg.toNat = leAt pl 4 1 ∧ t.sec.auth = true)
    ∧ (pl.length = 256 → s.lc = 1 ∨ s.lc = 2 → s.tokenOk pl 0 = false →
        ∃ t, exec (.dbgAuth (some id) pl) s = .next t ∧ t.sec.dbg = s.sec.dbg ∧ t.sec.authFail = satInc s.sec.authFail)
    ∧ (pl = [] → ∃ t, exec (.dbgRevoke (some id) pl) s = .next t ∧ t.sec.dbg = 0 ∧ t.sec.auth = false))
  ∧ (∀ s : State, s.hubRuns = true →
    exec (.nonceGet []) s = .next { s with out := s.out ++ [.sideband "OWNER" 0 (leBytes 8 s.sec.nonce.toNat)] }
    ∧ (∀ tok : List Byte, tok.length = 256 → s.lc = 1 ∨ s.lc = 2 → s.sec.dbg = 0 →
        (s.tokenOk tok 0 = true → ∃ t, exec (.secAuth tok) s = .next t ∧ t.sec.dbg.toNat = leAt tok 4 1)
        ∧ (s.tokenOk tok 0 = false → exec (.secAuth tok) s = .next s.tokenFail)))
  ∧ (∀ (s : State) (p : AccessPath) (v : W32), s.csrWritable p .hub = true → bit v 0 = true →
    ∃ t, exec (.secDbgRevoke p v) s = .next t ∧ t.sec.dbg = 0 ∧ t.sec.auth = false)
  ∧ (∀ (s : State) (halt : Bool), s.hubRuns = true → s.sec.dbg = 2 →
    exec (.debugHalt ⟨48, by decide⟩ halt) s = .next { s with sec := { s.sec with haltStw := halt } }
    ∧ (∀ n : Fin 8, exec (.debugHalt ⟨32 + n.val, by omega⟩ halt) s = .next { s with sec := { s.sec with
        haltPairs := if halt then setInsert s.sec.haltPairs n.val else s.sec.haltPairs.filter (· != n.val) } })
    ∧ (∀ p : Fin 16, s.pwr.dstate = .d0 → (s.part p.val).st.holds = true → ∃ t,
        exec (.debugHalt ⟨p.val, by omega⟩ true) s = .next t ∧ p.val ∈ t.sec.haltParts))
  ∧ (∀ (s : State) (k : Fin 1200) (p : Nat), s.hubRuns = true → s.sec.dbg = 2 → s.pwr.dstate = .d0 →
    s.partOf (coreCluster k.val) = some p → (s.part p).halted = true →
    exec (.debugStep k) s = .next (s.updCore k.val fun c => { c with step1 := true }))
  ∧ (∀ (s : State) (da : BitVec 52) (n : Fin 257), s.hubRuns = true → s.sec.dbg = 2 → s.pwr.dstate = .d0 →
    exec (.debugDaAccess da none n) s = .next { s with out := s.out ++
      [.sideband "DEBUG_READ" (if (s.readDA da.toNat n.val).clean then 0 else 1) (s.readDA da.toNat n.val).data] }
    ∧ ∀ bs, ∃ t, exec (.debugDaAccess da (some bs) n) s = .next t ∧ t.sec.dirty = true
        ∧ t.upd.broken = List.range 256)
  ∧ (∀ (s : State) (b : Fin 49) (h : Bool) (k : Fin 1200) (da : BitVec 52) (w : Option (List Byte)) (n : Fin 257),
    s.sec.dbg ≠ 2 → exec (.debugHalt b h) s = .next s ∧ exec (.debugStep k) s = .next s
      ∧ exec (.debugDaAccess da w n) s = .next s)

/-! ### The steward, the sideband and service (22) -/

/-- LL_CAUSE, LL_COUNTERS, LL_FR, LL_RESET, LL_POWER_OFF, LL_POWER_ON, LL_STATUS, LL_IDENTIFY, SET_ENDPOINT_ID,
DYNAMIC_ADDRESS_ASSIGNMENT, SIDEBAND_BUS_RESET and SMBUS_ARP (R755–R759). -/
def Obligations.LifelineAndBus : Prop :=
  (∀ s : State, s.rails.aux = true → s.pwr.dstate ≠ .off → s.rst.start ≠ .options →
    let reply := fun (what : String) (code : Nat) (bs : List Byte) =>
      (.next { s with out := s.out ++ [.sideband what code bs] } : Res)
    exec .llCause s = reply "LL_CAUSE" 0 (leBytes 4 s.bak.causeReg.toNat ++ leBytes 4 s.rst.startReg.toNat
        ++ leBytes 4 s.rst.bootReg.toNat ++ leBytes 4 s.opt.stsReg.toNat)
    ∧ exec .llCounters s = reply "LL_COUNTERS" 0 ((List.range 13).flatMap fun n => leBytes 4 (s.bak.cnt.get 0 n).toNat)
    ∧ (∀ n : Byte, 16 ≤ n.toNat → exec (.llFr n) s = reply "LL_FR" 2 [])
    ∧ (∀ (n : Byte) (r : FaultRecord), n.toNat < 16 → s.bak.last16[n.toNat]? = some r →
        exec (.llFr n) s = reply "LL_FR" 0 r.bytes)
    ∧ (∀ n : Byte, n.toNat < 16 → s.bak.last16[n.toNat]? = none → exec (.llFr n) s = reply "LL_FR" 1 [])
    ∧ (∀ arm : Byte, arm ≠ 0xA5 → exec (.llReset arm) s = reply "LL_RESET" 3 []
        ∧ exec (.llPowerOff arm) s = reply "LL_POWER_OFF" 3 [])
    ∧ (s.hubPowered = true → exec (.llReset 0xA5) s = .next ((s.deviceReset 3).emit (.sideband "LL_RESET" 0 [])))
    ∧ (∃ t, exec (.llPowerOff 0xA5) s = .next t ∧ t.pwr.dstate = .d3cold ∧ t.rails.mainEn = false
        ∧ t.rails.powerOff = true ∧ t.pl.pdnOut = (if s.hubPowered then false else s.pl.pdnOut))
    ∧ (s.pwr.dstate = .d3cold → ∃ t, exec .llPowerOn s = .next t ∧ t.rails.mainEn = true ∧ t.rails.powerOff = false)
    ∧ (s.pwr.dstate ≠ .d3cold → exec .llPowerOn s = reply "LL_POWER_ON" 1 [])
    ∧ (s.hubPowered = true → exec .llStatus s = reply "LL_STATUS" 0 (leBytes 4 s.stw.stwReg.toNat
        ++ leBytes 4 s.stw.svcSts.toNat ++ leBytes 4 s.ledReg.toNat ++ leBytes 4 s.pwr.stsReg.toNat
        ++ [if s.rst.heldThermal then 1 else 0]))
    ∧ (∀ on : Byte, s.hubPowered = true → on.toNat < 2 → ∃ t, exec (.llIdentify on) s = .next t
        ∧ t.stw.locate = (on == 1))
    ∧ (∀ on : Byte, 2 ≤ on.toNat → exec (.llIdentify on) s = reply "LL_IDENTIFY" 2 [])
    ∧ (∀ e : Byte, e ≠ 0 → e ≠ 0xFF → exec (.setEndpointId e) s =
        .next { s with stw := { s.stw with eid := e }, out := s.out ++ [.sideband "SET_ENDPOINT_ID" 0 [e]] })
    ∧ exec (.setEndpointId 0) s = reply "SET_ENDPOINT_ID" 2 [])
  ∧ (∀ s : State, s.pwr.dstate = .off → exec .llCause s = .next s ∧ exec .llStatus s = .next s
    ∧ exec .llPowerOn s = .next s ∧ exec (.llReset 0xA5) s = .next s)
  ∧ (∀ (s : State) (a : BitVec 7), s.rails.aux = true →
    exec (.dynamicAddressAssignment a) s = .next { s with stw := { s.stw with i3c := true, addr := a } }
    ∧ exec .sidebandBusReset s = .next { s with stw := { s.stw with i3c := false, addr := 0x4A } }
    ∧ exec (.smbusArp (some a)) s = .next (if s.stw.i3c then s else { s with stw := { s.stw with addr := a } })
    ∧ exec (.smbusArp none) s = .next (if s.stw.i3c then s
        else { s with out := s.out ++ [.sideband "UDID" 0 (deviceId.take 16)] }))

/-- OPT_READ, OPT_STAGE, OPT_COMMIT, OPT_DISCARD, REPORT, PLDM_BASE_COMMAND, GET_SENSOR_READING, GET_STATE_SENSOR_READINGS,
SET_EVENT_RECEIVER, PLDM_FRU_READ and PLDM_FIRMWARE_UPDATE (R701, R760–R763). -/
def Obligations.ServiceAndPldm : Prop :=
  (∀ s : State, s.rails.aux = true → s.pwr.dstate ≠ .off → s.rst.start ≠ .options → s.stewardRuns = true →
    let reply := fun (st : State) (what : String) (code : Nat) (bs : List Byte) =>
      (.next { st with out := st.out ++ [.sideband what code bs] } : Res)
    (∀ off len : W16, exec (.optRead off len) s = (if 256 < len.toNat ∨ 4096 < off.toNat + len.toNat
      then reply s "OPT_READ" 2 []
      else reply s "OPT_READ" 0 ((List.range len.toNat).map fun i => s.optInUse.get 0xFF (off.toNat + i))))
    ∧ (∀ (off : W16) (bs : List Byte), exec (.optStage off bs) s = (if 256 < bs.length ∨ 4096 < off.toNat + bs.length
        then reply s "OPT_STAGE" 2 []
        else reply { s with nvm := { s.nvm with
          staging := some (optPut (s.nvm.staging.getD s.optInUse) off.toNat bs) } } "OPT_STAGE" 0 []))
    ∧ (s.nvm.staging = none → exec .optCommit s = reply s "OPT_COMMIT" 1 [])
    ∧ (∀ m, s.nvm.staging = some m → optShape (s.commitImage m) = true → s.locked = true →
        (∃ o, o < 4096 ∧ repairChange o (s.optInUse.get 0xFF o) ((s.commitImage m).get 0xFF o) = false) →
        exec .optCommit s = reply s "OPT_COMMIT" 5 [])
    ∧ (∀ m, s.nvm.staging = some m → optShape (s.commitImage m) = true → s.locked = false →
        ∃ t, exec .optCommit s = .next t ∧ t.nvm.staging = none ∧ t.nvm.copyA = (s.optWrite (s.commitImage m)).nvm.copyA
          ∧ t.nvm.copyB = (s.optWrite (s.commitImage m)).nvm.copyB ∧ t.opt = s.opt)
    ∧ exec .optDiscard s = reply { s with nvm := { s.nvm with staging := none } } "OPT_DISCARD" 0 []
    ∧ (let t := { s with stw := { s.stw with report := s.buildReport } }
      exec .report s = reply t "REPORT" 0 s.buildReport)
    ∧ (∀ (c : Byte) (req : List Byte), exec (.pldmBaseCommand c req) s =
        reply s "PLDM_BASE" 0 (Config.spdmAnswer (256 + c.toNat) req []))
    ∧ (∀ id : W16, exec (.getSensorReading id) s = (if 1 ≤ id.toNat ∧ id.toNat ≤ 46
        then reply s "SENSOR_READING" 0 (leBytes 4 (s.stw.sensors.get 0 id.toNat).toNat)
        else reply s "SENSOR_READING" 0x80 []))
    ∧ (∀ id : W16, exec (.getStateSensorReadings id) s = (if 100 ≤ id.toNat ∧ id.toNat ≤ 105
        then reply s "STATE_SENSOR" 0 (leBytes 1 (s.stateSensor id.toNat)) else reply s "STATE_SENSOR" 0x80 []))
    ∧ (∀ e : Byte, exec (.setEventReceiver e) s =
        reply { s with stw := { s.stw with evtRecv := some e } } "EVENT_RECEIVER" 0 [])
    ∧ exec .pldmFruRead s = reply s "FRU" 0 ([if s.hub.xr then 1 else 0] ++ leBytes 8 s.hub.serial.toNat ++ deviceId)
    ∧ (∀ img : List Byte, (s.imageReason img ≠ 0 → exec (.pldmFirmwareUpdate img none) s =
          reply { s with spi := { s.spi with b := img } } "FIRMWARE_UPDATE" 1 [])
        ∧ (s.imageReason img = 0 → exec (.pldmFirmwareUpdate img none) s =
          reply { s with spi := { s.spi with a := img, b := img } } "FIRMWARE_UPDATE" 0 [])))
  ∧ (∀ s : State, s.rails.aux = true → s.pwr.dstate ≠ .off → s.rst.start ≠ .options → s.stewardRuns = false →
    let busy := fun (what : String) => (.next { s with out := s.out ++ [.sideband what 4 []] } : Res)
    (∀ o l, exec (.optRead o l) s = busy "OPT_READ") ∧ (∀ o d, exec (.optStage o d) s = busy "OPT_STAGE")
    ∧ exec .optCommit s = busy "OPT_COMMIT" ∧ exec .optDiscard s = busy "OPT_DISCARD" ∧ exec .report s = busy "REPORT"
    ∧ (∀ id, exec (.getSensorReading id) s = busy "SENSOR_READING")
    ∧ (∀ img c, exec (.pldmFirmwareUpdate img c) s = busy "FIRMWARE_UPDATE"))

/-- NVME_ASYNC_EVENT, SMART_POLL, TELEMETRY_SAMPLE, STEWARD_BUSY_WINDOW, STEWARD_WATCHDOG, HUB_STW_KICK, ATTN_SHORT_PRESS,
ATTN_HOLD, DRAIN_PARTITIONS_STOPPED, DRAIN_ABANDON_TIMEOUT, HOST_DRAINED_WRITE and ATTN_BLIP_EXPIRY (R750–R766). -/
def Obligations.StewardDuties : Prop :=
  (∀ (s : State) (n : Fin 8) (pct spare crit : Byte) (days : Nat), s.stewardRuns = true → (s.aqSlot n.val).st = .member →
    (∃ t, exec (.nvmeAsyncEvent n pct spare crit days) s = .next t ∧ (t.aqSlot n.val).pctUsed = pct
      ∧ (t.aqSlot n.val).spare = spare ∧ (t.aqSlot n.val).crit = crit ∧ (t.aqSlot n.val).lastPoll = s.time.now)
    ∧ (s.stw.level.toNat < 3 → s.elapsed (s.aqSlot n.val).lastPoll 600000000000 = true →
        ∃ t, exec (.smartPoll n pct spare crit days) s = .next t ∧ (t.aqSlot n.val).pctUsed = pct)
    ∧ (3 ≤ s.stw.level.toNat ∨ s.elapsed (s.aqSlot n.val).lastPoll 600000000000 = false →
        exec (.smartPoll n pct spare crit days) s = .next s))
  ∧ (∀ (s : State) (temps : List W16) (vdd : W16), s.stewardRuns = true → s.stw.level = 0 →
    (s.elapsed s.stw.sampledAt (s.stw.period.toNat * 1000000) = true → ∃ t, exec (.telemetrySample temps vdd) s = .next t
        ∧ t.stw.sampledAt = s.time.now ∧ t.stw.sensors.get 0 18 = vdd.setWidth 32)
    ∧ (s.elapsed s.stw.sampledAt (s.stw.period.toNat * 1000000) = false → exec (.telemetrySample temps vdd) s = .next s))
  ∧ (∀ (s : State) (b : BitVec 7), s.stewardRuns = true →
    (90 < b.toNat → s.stw.level.toNat < 4 → ∃ t, exec (.stewardBusyWindow b) s = .next t
        ∧ t.stw.level = s.stw.level + 1 ∧ t.stw.raises = satInc s.stw.raises ∧ t.stw.busy = b)
    ∧ (b.toNat < 60 → s.stw.calm = 9 → 0 < s.stw.level.toNat → ∃ t, exec (.stewardBusyWindow b) s = .next t
        ∧ t.stw.level = s.stw.level - 1 ∧ t.stw.calm = 0)
    ∧ (60 ≤ b.toNat → b.toNat ≤ 90 → exec (.stewardBusyWindow b) s = .next { s with
        stw := { s.stw with busy := b, calm := 0 } }))
  ∧ (∀ s : State, s.stewardRuns = true →
    (s.stw.starts[2]? = none → ∃ t, exec .stewardWatchdog s = .next t ∧ t.stw.st = .restarting
        ∧ t.stw.restarts = satInc s.stw.restarts ∧ t.bak.cnt.get 0 12 = satInc (s.bak.cnt.get 0 12))
    ∧ (∀ t0, s.stw.starts[2]? = some t0 → s.time.now < t0 + 600000000000 →
        ∃ t, exec .stewardWatchdog s = .next t ∧ t.stw.st = .halted ∧ t.pwr.target = .p2))
  ∧ (∀ (s : State) (p : AccessPath) (v : W32), s.csrWritable p .hub = true → bit v 10 = true →
    exec (.hubStwKick p v) s = .next (if s.stw.st = .halted then s.stewardRestart else s))
  ∧ (∀ s : State, s.pwr.dstate ≠ .off →
    (s.stw.drain ≠ .idle → exec .attnShortPress s = .next { s with stw := { s.stw with btn := false } })
    ∧ (s.stw.drain = .idle → s.rst.start ≠ .ready → ∃ t, exec .attnShortPress s = .next t ∧ t.stw.refused = true
        ∧ t.stw.drain = .idle ∧ t.stw.blip = some (s.time.now + 2000000000))
    ∧ (s.stw.drain = .idle → s.rst.start = .ready → s.pwr.dstate = .d0 → s.stw.st = .running → s.lc ≠ 3 →
        s.stw.hostDrain = true → ∃ t, exec .attnShortPress s = .next t ∧ t.stw.drain = .draining ∧ t.stw.btn = false
          ∧ t.sc = s.sc)
    ∧ exec (.attnHold true) s = .next { s with stw := { s.stw with btn := false } }
    ∧ (s.stw.drain ≠ .idle → s.stw.dr.models = [] → s.stw.dr.parts = [] → s.stw.again = [] →
        ∃ t, exec (.attnHold false) s = .next t ∧ t.stw.drain = .idle ∧ t.stw.btn = true))
  ∧ (∀ s : State, s.stw.drain = .draining → s.stewardRuns = true → s.stw.dr.step = 7 → s.hostFlushed = true →
    ∃ t, exec .drainPartitionsStopped s = .next t ∧ t.stw.drain = .drained)
  ∧ (∀ s : State, s.stw.drain ≠ .draining → exec .drainPartitionsStopped s = .next s
    ∧ exec .drainAbandonTimeout s = .next s)
  ∧ (∀ s : State, s.stw.drain = .draining → s.stw.dr.step = 5 → s.elapsed s.stw.dr.since 60000000000 = true →
    s.partsQuiet = false → ∃ t, exec .drainAbandonTimeout s = .next t ∧ t.stw.drain = .idle
      ∧ t.stw.blip = some (s.time.now + 10000000000))
  ∧ (∀ (s : State) (p : AccessPath) (v : W32), s.csrWritable p .hub = true →
    (bit v 1 = false → exec (.hostDrainedWrite p v) s = .next { s with
      stw := { s.stw with hostDrain := bit v 0, locate := bit v 2 } })
    ∧ (bit v 1 = true → s.stw.hostDrain = true → s.stw.drain = .draining → ∃ t, exec (.hostDrainedWrite p v) s = .next t
        ∧ t.stw.drain = .drained ∧ t.stw.hostDrain = bit v 0))
  ∧ (∀ (s : State) (t0 : Nat), s.stw.blip = some t0 → exec .attnBlipExpiry s =
    .next (if t0 ≤ s.time.now then { s with stw := { s.stw with blip := none } } else s))

/-! ### CSR space and the hub's globals (23) -/

/-- HUB_IRQ_WRITE, HUB_INJ_WRITE, CC_PAIR_CFG_WRITE and PART_BAR_WRITE (R795–R798, R804, R457, R515). -/
def Obligations.GlobalWrites : Prop :=
  (∀ (s : State) (b : Nat), b < 16 → (s.irqEvent b).hub.irqSts.getLsbD b = true
    ∧ (s.irqEvent b).hub.irqEn = s.hub.irqEn
    ∧ (s.hub.irqIen = true → s.hub.irqSts &&& s.hub.irqEn = 0 → s.hub.irqEn.getLsbD b = true → s.busOk 0 = true →
        (s.func 0).d3hot = false → (s.irqEvent b).out = s.out ++ [.msix 0 s.hub.irqVec.toNat])
    ∧ (s.hub.irqSts &&& s.hub.irqEn ≠ 0 → (s.irqEvent b).out = s.out))
  ∧ (∀ (s : State) (p : AccessPath) (v : W32), s.csrWritable p .hub = true →
    let sends := fun (t : State) => if t.hub.irqIen && (t.hub.irqSts &&& t.hub.irqEn) != 0
      then t.msix 0 t.hub.irqVec.toNat else t
    exec (.hubIrqWrite p 0 v) s = .next (sends { s with
      hub := { s.hub with irqSts := s.hub.irqSts &&& ~~~(field v 0 16) } })
    ∧ exec (.hubIrqWrite p 1 v) s = .next (sends { s with hub := { s.hub with irqEn := field v 0 16 } })
    ∧ exec (.hubIrqWrite p 2 v) s = .next (sends { s with
        hub := { s.hub with irqVec := field v 0 11, irqIen := bit v 11 } }))
  ∧ (∀ (s : State) (p : AccessPath) (v : W32), s.csrWritable p .hub = true →
    (s.locked = false → bit v 17 = false → bit v 16 = false ∨ injLegal (field v 0 4).toNat (field v 4 12).toNat = true →
      exec (.hubInjWrite p v) s = .next { s with
        hub := { s.hub with injKind := field v 0 4, injTarget := field v 4 12, injArm := bit v 16 } })
    ∧ (s.locked = false → bit v 16 = true → injLegal (field v 0 4).toNat (field v 4 12).toNat = false →
        exec (.hubInjWrite p v) s = .next { s with hub := { s.hub with injFired := s.hub.injFired && !bit v 17 } })
    ∧ (s.locked = true → exec (.hubInjWrite p v) s = .next { s with
        hub := { s.hub with
          injFired := s.hub.injFired && !bit v 17, locked := s.hub.locked || field v 0 17 != 0 } }))
  ∧ (∀ (s : State) (p : AccessPath) (n : Fin 8) (v : W32), s.csrWritable p .hub = true →
    (s.cc.pairs.get {} n.val).tasks = [] → s.queues = [] → s.host.groups = [] →
    ∃ t, exec (.ccPairCfgWrite p n v) s = .next t ∧ (t.cc.pairs.get {} n.val).parts = field v 0 16
      ∧ (t.cc.pairs.get {} n.val).err = ((s.cc.pairs.get {} n.val).err && !bit v 16))
  ∧ (∀ (s : State) (p : AccessPath) (n : Fin 8) (v : W32) (k : Nat) (task : Task), s.csrWritable p .hub = true →
    (s.cc.pairs.get {} n.val).tasks = [(k, task)] → bit v task.part = false → field v 0 16 ≠ (s.cc.pairs.get {} n.val).parts →
    ∃ t, exec (.ccPairCfgWrite p n v) s = .next t ∧ (t.cc.pairs.get {} n.val).err = true
      ∧ (t.cc.pairs.get {} n.val).parts = (s.cc.pairs.get {} n.val).parts)
  ∧ (∀ (s : State) (p : AccessPath) (part bar : Fin 16) (v : W32), s.csrWritable p .hub = true →
    let x := s.co.bars.get {} (16 * part.val + bar.val)
    (s.part part.val).ctxV = false →
    (v &&& ~~~((s.part part.val).cl.extractLsb' 0 32) = 0 → ∃ t, exec (.partBarWrite p part bar 0 v) s = .next t
      ∧ t.co.bars.get {} (16 * part.val + bar.val) = { x with cl := setField x.cl 0 32 v })
    ∧ (v &&& ~~~((s.part part.val).cl.extractLsb' 0 32) ≠ 0 → setField x.cl 0 32 v ≠ x.cl →
      ∃ t, exec (.partBarWrite p part bar 0 v) s = .next t
        ∧ t.co.bars.get {} (16 * part.val + bar.val) = { x with err := true }))

/-- LO_READ_LATCH and CSR_WRITE (R778, R779, R783). -/
def Obligations.CsrAccessSizes : Prop :=
  (∀ (s : State) (p : AccessPath) (off : BitVec 26), s.csrAnswers p off.toNat = true →
    let a := off.toNat
    let one := s.csrServe p (a / 4 * 4)
    let two := one.2.csrServe p (a + 4)
    let reply := fun (t : State) (bs : List Byte) => (.next { t with out := t.out ++ [.hostReply "CSR" bs] } : Res)
    let ur := (.next { s with out := s.out ++ [.hostReply "UR" []] } : Res)
    (a % 4 = 0 → exec (.loReadLatch p off 2) s = reply one.2 (leBytes 4 one.1.toNat))
    ∧ (a % 8 = 0 → exec (.loReadLatch p off 3) s = reply two.2 (leBytes 4 one.1.toNat ++ leBytes 4 two.1.toNat))
    ∧ exec (.loReadLatch p off 0) s = reply one.2 (((leBytes 4 one.1.toNat).drop (a % 4)).take 1)
    ∧ (a % 4 ≤ 2 → exec (.loReadLatch p off 1) s = reply one.2 (((leBytes 4 one.1.toNat).drop (a % 4)).take 2))
    ∧ (a % 4 = 3 → exec (.loReadLatch p off 1) s = ur)
    ∧ (a % 4 ≠ 0 → exec (.loReadLatch p off 2) s = ur)
    ∧ (a % 8 ≠ 0 → exec (.loReadLatch p off 3) s = ur))
  ∧ (∀ (s : State) (p : AccessPath) (off : BitVec 26) (k : Fin 4), s.csrAnswers p off.toNat = false →
    exec (.loReadLatch p off k) s = .next { s with out := s.out ++ [.hostReply "UR" []] })
  ∧ (∀ (s : State) (p : AccessPath) (off : BitVec 26) (v : W64) (vf : Bool),
    exec (.csrWrite p off 0 v vf) s = .next s ∧ exec (.csrWrite p off 1 v vf) s = .next s
    ∧ (off.toNat % 4 ≠ 0 → exec (.csrWrite p off 2 v vf) s = .next s)
    ∧ (off.toNat % 8 ≠ 0 → exec (.csrWrite p off 3 v vf) s = .next s)
    ∧ (off.toNat % 4 = 0 → exec (.csrWrite p off 2 v vf) s = .next (s.csrStore p off.toNat (field v 0 32) vf))
    ∧ (off.toNat % 8 = 0 → exec (.csrWrite p off 3 v vf) s =
        .next ((s.csrStore p off.toNat (field v 0 32) vf).csrStore p (off.toNat + 4) (field v 32 32) vf)))
  ∧ (∀ (s : State) (p : AccessPath) (v : W64) (vf : Bool), s.csrWritable p .hub = true →
    exec (.csrWrite p 0x0200014 2 v vf) s = .next { s with sec := { s.sec with
      authFail := if field (field v 0 32) 0 8 = 0 then 0 else s.sec.authFail
      sessFail := if field (field v 0 32) 8 8 = 0 then 0 else s.sec.sessFail } }
    ∧ exec (.csrWrite p 0x0300204 2 v vf) s = .next { s with
        stw := { s.stw with raises := if field (field v 0 32) 10 8 = 0 then 0 else s.stw.raises } }
    ∧ exec (.csrWrite p 0x0A10000 2 v vf) s = .next s)

/-- GLOBAL_TIMEOUT_LO and GLOBAL_TIMEOUT_HI (R794): its row, and the same writes as writes of CSR space. -/
def Obligations.GlobalTimeoutRegister : Prop :=
  (∀ (s : State) (p : AccessPath) (v : W32) (vf : Bool), s.csrWritable p .hub = true →
    let ns := (field v 0 5).toNat * 2 ^ 32 + s.hub.gtoLo.toNat
    let kept := if ns < 1000 then 1000 else if 2 ^ 36 < ns then 2 ^ 36 else ns
    let t := { s with hub := { s.hub with gto := kept } }
    exec (.csrWrite p 0x0000040 2 (v.setWidth 64) vf) s = .next { s with hub := { s.hub with gtoLo := v } }
    ∧ exec (.globalTimeoutHiWrite p v) s = .next t
    ∧ exec (.csrWrite p 0x0000044 2 (v.setWidth 64) vf) s = .next t
    ∧ t.gtoDue = s.time.now + kept
    ∧ t.csrValue 0x0000040 = BitVec.ofNat 32 kept ∧ t.csrValue 0x0000044 = BitVec.ofNat 32 (kept / 2 ^ 32))
  ∧ (∀ (s : State) (p : AccessPath), (s.csrRead p 0x0000040).1 = BitVec.ofNat 32 s.hub.gto
    ∧ ((s.csrRead p 0x0000040).2.csrRead p 0x0000044).1 = BitVec.ofNat 32 (s.hub.gto / 2 ^ 32))
  ∧ State.reset.hub.gto = 100000000
  ∧ State.reset.csrValue 0x0000040 = 0x05F5E100 ∧ State.reset.csrValue 0x0000044 = 0

/-- The LO latches (R781), through the reads that every path makes. -/
def Obligations.HiLatches : Prop :=
  (∀ (s : State) (p : AccessPath) (off : Nat), latchesHi off = true →
    (s.csrRead p off).1 = s.csrValue off
    ∧ ((s.csrRead p off).2.csrRead p (off + 4)).1 = s.csrValue (off + 4)
    ∧ (∀ (q : AccessPath) (o : Nat), o < 2 ^ 26 → off < 2 ^ 26 → latchesHi o = true → (q, o) ≠ (p, off) →
        ((s.csrRead p off).2.csrRead q (o + 4)).1 = (s.csrRead q (o + 4)).1)
    ∧ (s.latch.find (latchKey p (off + 4)) = none → (s.csrRead p (off + 4)).1 = 0)
    ∧ (s.csrRead p (off + 4)).2 = s)
  ∧ (∀ (s : State) (p : AccessPath) (off : Nat), latchesHi off = false → (s.csrRead p off).2 = s)
  ∧ State.reset.latch = [] ∧ (∀ s : State, s.coldKept.latch = [])
  ∧ (∀ (s : State) (p : AccessPath) (off : BitVec 26), p = .pf ∨ p = .steward ∨ p = .jtag →
    s.csrAnswers p off.toNat = true → s.blockDark (csrBlock off.toNat) = false →
    s.blockDark (csrBlock (off.toNat + 4)) = false → latchesHi off.toNat = true → off.toNat % 8 = 0 →
    ∃ t, exec (.loReadLatch p off 3) s = .next t ∧ t.out = s.out ++
      [.hostReply "CSR" (leBytes 4 (s.csrValue off.toNat).toNat ++ leBytes 4 (s.csrValue (off.toNat + 4)).toNat)])
  ∧ (∀ (s : State) (p : AccessPath) (off : BitVec 26) (k : Fin 4),
    ∃ l m, exec (.loReadLatch p off k) s = .next { s with latch := l, out := s.out ++ [m] }
      ∧ (latchesHi (off.toNat / 4 * 4) = false → latchesHi (off.toNat + 4) = false → l = s.latch))

/-- RSTC_IDLE_TIMEOUT (R717). -/
def Obligations.IdleTimeoutRegister : Prop :=
  State.reset.csrValue 0x0100008 = 0x000186A0
  ∧ ∀ (s : State) (p : AccessPath) (v : W32) (vf : Bool), s.csrWritable p .rstc = true →
    let kept : W32 := if v.toNat < 1000 then 1000 else v
    ∃ t, exec (.csrWrite p 0x0100008 2 (v.setWidth 64) vf) s = .next t
      ∧ t = { s with rst := { s.rst with idleTmo := kept } }
      ∧ t.csrValue 0x0100008 = kept
      ∧ t.rst.idleReqs = s.rst.idleReqs
      ∧ ∀ b, (t.idleRequest b).rst.idleReqs.find b = some (s.time.now + kept.toNat)

/-- TEL_CTL (R774). -/
def Obligations.TelemetryPeriod : Prop :=
  State.reset.csrValue 0x0300200 = 0x464
  ∧ (∀ (s : State) (p : AccessPath) (v : W32) (vf : Bool), s.csrWritable p .hub = true →
    let ms := (field v 0 10).toNat
    let kept := if ms < 10 then 10 else if 1000 < ms then 1000 else ms
    ∃ t, exec (.csrWrite p 0x0300200 2 (v.setWidth 64) vf) s = .next t
      ∧ t = { s with stw := { s.stw with period := BitVec.ofNat 10 kept, evtEn := bit v 10 } }
      ∧ t.csrValue 0x0300200 = BitVec.ofNat 32 (kept + 1024 * (bit v 10).toNat))
  ∧ (∀ (s : State) (what : String) (arg : Nat), s.stw.st = .running →
    s.pldmEvent what arg = if s.stw.evtEn then { s with out := s.out ++ [.event what arg] } else s)

/-- The fault record store (R582). -/
def Obligations.FaultRecords : Prop :=
  ∀ (s : State) (f : FaultRecord),
    let same := fun (e : FaultSeen) => e.unit == f.cls * 4096 + f.inst && e.code == f.code
    let prev := s.faults.seen.find? same
    let recent := ∃ e, prev = some e ∧ s.time.now < e.last + 1000000
    let r : FaultRecord := { f with
      seq := s.faults.seq, time := s.time.now, supp := prev.isSome, boot := s.bak.total.toNat
      suppressed := min 65535 (match prev with | some e => e.count | none => 0) }
    let t := s.fault f
    (f.rung = 0 → recent →
      t = { s with faults := { s.faults with seen := t.faults.seen } }
      ∧ ∀ e, prev = some e → t.faults.seen.find? same = some { e with count := e.count + 1 })
    ∧ (1 ≤ f.rung ∨ ¬recent →
      t.faults.seq = s.faults.seq + 1
      ∧ t.faults.ring.find (s.faults.seq % 1024) = some r
      ∧ (∀ w, w < 64 → t.csrValue (0x0940000 + 256 * (s.faults.seq % 1024) + 4 * w) = BitVec.ofNat 32 (leAt r.bytes (4 * w) 4))
      ∧ t.bak.last16 = (r :: s.bak.last16).take 16
      ∧ t.faults.seen.find? same = some { unit := f.cls * 4096 + f.inst, code := f.code, last := s.time.now, count := 0 }
      ∧ (f.rung = 0 → f.code / 256 ≠ 0x11 → s.host.up = true → s.busOk 0 = true → (s.func 0).d3hot = false →
          let mirror : List OutMsg := if s.faults.hen
            then [.hostWrite 0 (s.faults.hbase.toNat + 256 * (s.faults.seq % 2 ^ s.faults.hlog.toNat)) r.bytes] else []
          let vector : List OutMsg := if s.faults.ien then [.msix 0 s.faults.vec.toNat] else []
          t.out = s.out ++ mirror ++ vector))

/-- HUB_STS (R793), with the registers that it copies. -/
def Obligations.HubStatus : Prop :=
  ∀ s : State,
    let v := s.csrValue 0x0000030
    field v 0 4 = field (s.csrValue 0x010000C) 0 4
    ∧ field v 4 2 = field (s.csrValue 0x0200000) 0 2
    ∧ field v 6 2 = field (s.csrValue 0x0300004) 3 2
    ∧ field v 8 3 = field (s.csrValue 0x0700008) 0 3
    ∧ bit v 11 = bit (s.csrValue 0x0900100) 2
    ∧ bit v 12 = bit (s.csrValue 0x0900100) 4
    ∧ bit v 13 = bit (s.csrValue 0x0900100) 0
    ∧ field v 14 2 = field (s.csrValue 0x0000200) 0 2
    ∧ field v 16 2 = field (s.csrValue 0x0000208) 0 2
    ∧ field v 18 3 = field (s.csrValue 0x0300204) 0 3
    ∧ (∀ d : Fin 4, bit v (21 + d.val) = s.rst.dieRst.contains d.val)
    ∧ bit v 25 = (s.csrValue 0x0000060 != 0)
    ∧ bit v 26 = (s.csrValue 0x0000050 != 0)
    ∧ field v 27 5 = (0 : BitVec 5)

/-! ### What every step keeps -/

/-- `Canon` is kept by every step (R118, R717, R748, R774, R794). -/
def Obligations.EveryStepKeepsCanon : Prop :=
  ∀ s t : State, Canon s → step s = .next t → Canon t

/-- `Canon` holds at reset. -/
def Obligations.ResetIsCanon : Prop := Canon State.reset

/-- Every command answers a next state, in every state and with any operands (R827 and the sections cited). -/
def Obligations.NoCommandStopsTheBlock : Prop :=
  ∀ (c : Sys2Proof.Instr) (s : State), ∃ t : State, exec c s = .next t
end

