-- ==== Sys2Proof/Laws/Memory.lean ====
section
/-! SUPPORT. Every operation over memory's cells keeps their canonical form: places strictly rising, no byte listed
that equals what an unlisted place reads as (R118). -/
namespace Sys2Proof.Machine
open Sys2Proof

/-- A bound from below may be lowered. -/
theorem wf_lower {b c : Nat} (hbc : b ≤ c) {m : List Host.Cell} (h : cellsWfFrom (some c) m = true) :
    cellsWfFrom (some b) m = true := by
  cases m with
  | nil => rfl
  | cons kv m =>
    simp only [cellsWfFrom, Bool.and_eq_true, decide_eq_true_eq] at h ⊢
    exact ⟨⟨by omega, h.1.2⟩, h.2⟩

theorem wf_none {b : Nat} {m : List Host.Cell} (h : cellsWfFrom (some b) m = true) : cellsWfFrom none m = true := by
  cases m with
  | nil => rfl
  | cons kv m =>
    simp only [cellsWfFrom, Bool.and_eq_true, decide_eq_true_eq] at h ⊢
    exact ⟨⟨trivial, h.1.2⟩, h.2⟩

/-- Writing one byte keeps the form above any bound below the place. -/
theorem wf_cellSet_above {a : Nat} {b : Byte} {m : List Host.Cell} :
    ∀ {lo : Nat}, lo < a → cellsWfFrom (some lo) m = true → cellsWfFrom (some lo) (cellSet m a b) = true := by
  induction m with
  | nil =>
    intro lo hlo _
    unfold cellSet
    split
    · rfl
    · rename_i hb
      simp only [cellsWfFrom, Bool.and_eq_true, decide_eq_true_eq]
      exact ⟨⟨hlo, hb⟩, trivial⟩
  | cons kv m ih =>
    obtain ⟨k, v⟩ := kv
    intro lo hlo h
    simp only [cellsWfFrom, Bool.and_eq_true, decide_eq_true_eq] at h
    obtain ⟨⟨h1, h2⟩, h3⟩ := h
    unfold cellSet
    split
    · rename_i hk
      split
      · simp only [cellsWfFrom, Bool.and_eq_true, decide_eq_true_eq]; exact ⟨⟨h1, h2⟩, h3⟩
      · rename_i hb
        simp only [cellsWfFrom, Bool.and_eq_true, decide_eq_true_eq]; exact ⟨⟨hlo, hb⟩, ⟨hk, h2⟩, h3⟩
    · split
      · rename_i e
        subst e
        split
        · exact wf_lower (by omega) h3
        · rename_i hb
          simp only [cellsWfFrom, Bool.and_eq_true, decide_eq_true_eq]; exact ⟨⟨hlo, hb⟩, h3⟩
      · simp only [cellsWfFrom, Bool.and_eq_true, decide_eq_true_eq]
        exact ⟨⟨h1, h2⟩, ih (by omega) h3⟩

/-- Writing one byte keeps the form. -/
theorem wf_cellSet {a : Nat} {b : Byte} {m : List Host.Cell} (h : cellsWfFrom none m = true) :
    cellsWfFrom none (cellSet m a b) = true := by
  cases m with
  | nil => unfold cellSet; split <;> simp_all [cellsWfFrom]
  | cons kv m =>
    obtain ⟨k, v⟩ := kv
    simp only [cellsWfFrom, Bool.and_eq_true, decide_eq_true_eq] at h
    obtain ⟨⟨-, h2⟩, h3⟩ := h
    unfold cellSet
    split
    · split
      · simp only [cellsWfFrom, Bool.and_eq_true, decide_eq_true_eq]; exact ⟨⟨trivial, h2⟩, h3⟩
      · rename_i hk hb
        simp only [cellsWfFrom, Bool.and_eq_true, decide_eq_true_eq]; exact ⟨⟨trivial, hb⟩, ⟨hk, h2⟩, h3⟩
    · split
      · rename_i e
        subst e
        split
        · exact wf_none h3
        · rename_i hb
          simp only [cellsWfFrom, Bool.and_eq_true, decide_eq_true_eq]; exact ⟨⟨trivial, hb⟩, h3⟩
      · simp only [cellsWfFrom, Bool.and_eq_true, decide_eq_true_eq]
        exact ⟨⟨trivial, h2⟩, wf_cellSet_above (by omega) h3⟩

/-- Writing a run of bytes keeps the form. -/
theorem wf_cellsWrite {bs : List Byte} : ∀ {m : List Host.Cell} {a : Nat}, cellsWfFrom none m = true →
    cellsWfFrom none (cellsWrite m a bs) = true := by
  induction bs with
  | nil => intro m a h; exact h
  | cons b bs ih => intro m a h; exact ih (wf_cellSet h)

theorem wf_filter_above {p : Host.Cell → Bool} {m : List Host.Cell} :
    ∀ {lo : Nat}, cellsWfFrom (some lo) m = true → cellsWfFrom (some lo) (m.filter p) = true := by
  induction m with
  | nil => intro lo h; exact h
  | cons kv m ih =>
    obtain ⟨k, v⟩ := kv
    intro lo h
    simp only [cellsWfFrom, Bool.and_eq_true, decide_eq_true_eq] at h
    obtain ⟨⟨h1, h2⟩, h3⟩ := h
    rw [List.filter_cons]
    split
    · simp only [cellsWfFrom, Bool.and_eq_true, decide_eq_true_eq]; exact ⟨⟨h1, h2⟩, ih h3⟩
    · exact wf_lower (by omega) (ih h3)

/-- Keeping only some cells keeps the form. -/
theorem wf_filter {p : Host.Cell → Bool} {m : List Host.Cell} (h : cellsWfFrom none m = true) :
    cellsWfFrom none (m.filter p) = true := by
  cases m with
  | nil => exact h
  | cons kv m =>
    obtain ⟨k, v⟩ := kv
    simp only [cellsWfFrom, Bool.and_eq_true, decide_eq_true_eq] at h
    obtain ⟨⟨-, h2⟩, h3⟩ := h
    rw [List.filter_cons]
    split
    · simp only [cellsWfFrom, Bool.and_eq_true, decide_eq_true_eq]; exact ⟨⟨trivial, h2⟩, wf_filter_above h3⟩
    · exact wf_none (wf_filter_above h3)

/-- Writing cells one after another keeps the form. -/
theorem wf_foldl_cellSet {α : Type} {f : α → Nat} {g : α → Byte} {l : List α} : ∀ {m : List Host.Cell},
    cellsWfFrom none m = true → cellsWfFrom none (l.foldl (fun c x => cellSet c (f x) (g x)) m) = true := by
  induction l with
  | nil => intro m h; exact h
  | cons x l ih => intro m h; exact ih (wf_cellSet h)

theorem Memory.wf_writeCells {m : Memory} (h : m.wf = true) (a : Nat) (bs : List Byte) : (m.writeCells a bs).wf = true :=
  wf_cellsWrite h

theorem Memory.wf_setTag {m : Memory} (h : m.wf = true) (p : Nat) (hi : Bool) (t : Nat) : (m.setTag p hi t).wf = true :=
  wf_cellSet h

theorem Memory.wf_setPoison {m : Memory} (h : m.wf = true) (a : Nat) : (m.setPoison a).wf = true := h

theorem Memory.wf_clearPoison {m : Memory} (h : m.wf = true) (a : Nat) : (m.clearPoison a).wf = true := h

/-- Reset leaves memory in canonical form. -/
theorem State.reset_mem_wf : State.reset.mem.wf = true := by decide

/-! ### What a read of cells gives after a write -/

theorem cellGet_of_above {a : Nat} {m : List Host.Cell} : ∀ {lo : Nat}, a ≤ lo → cellsWfFrom (some lo) m = true →
    cellGet m a = 0 := by
  induction m with
  | nil => intro lo _ _; rfl
  | cons kv m ih =>
    obtain ⟨k, v⟩ := kv
    intro lo hlo h
    simp only [cellsWfFrom, Bool.and_eq_true, decide_eq_true_eq] at h
    obtain ⟨⟨h1, h2⟩, h3⟩ := h
    unfold cellGet
    rw [if_neg (by omega)]
    exact ih (by omega) h3

/-- A write leaves every other place alone. -/
theorem cellGet_cellSet_ne {a c : Nat} {b : Byte} (hc : c ≠ a) {m : List Host.Cell} :
    cellGet (cellSet m a b) c = cellGet m c := by
  induction m with
  | nil =>
    unfold cellSet
    split
    · rfl
    · simp only [cellGet]; rw [if_neg (Ne.symm hc)]
  | cons kv m ih =>
    obtain ⟨k, v⟩ := kv
    unfold cellSet
    split
    · split
      · rfl
      · simp only [cellGet]; rw [if_neg (Ne.symm hc)]
    · split
      · rename_i e
        subst e
        split
        · simp only [cellGet]; rw [if_neg (Ne.symm hc)]
        · simp only [cellGet]; rw [if_neg (Ne.symm hc), if_neg (Ne.symm hc)]
      · simp only [cellGet, ih]

/-- A read of the place written gives the byte written. -/
theorem cellGet_cellSet_self {a : Nat} {b : Byte} {m : List Host.Cell} : ∀ {lo : Option Nat},
    cellsWfFrom lo m = true → cellGet (cellSet m a b) a = b := by
  induction m with
  | nil =>
    intro lo _
    unfold cellSet
    split
    · rename_i e; rw [e]; rfl
    · simp only [cellGet]; rw [if_pos trivial]
  | cons kv m ih =>
    obtain ⟨k, v⟩ := kv
    intro lo h
    simp only [cellsWfFrom, Bool.and_eq_true, decide_eq_true_eq] at h
    obtain ⟨⟨-, h2⟩, h3⟩ := h
    unfold cellSet
    split
    · rename_i hk
      split
      · rename_i e
        simp only [cellGet]
        rw [if_neg (by omega), e]
        exact cellGet_of_above (by omega) h3
      · simp only [cellGet]; rw [if_pos trivial]
    · split
      · rename_i e
        subst e
        split
        · rename_i e2; rw [e2]; exact cellGet_of_above (Nat.le_refl _) h3
        · simp only [cellGet]; rw [if_pos trivial]
      · rename_i h4 h5
        simp only [cellGet]
        rw [if_neg (fun e => h5 e.symm)]
        exact ih h3

/-- A run of bytes written leaves every place outside it alone. -/
theorem cellGet_cellsWrite_out {c : Nat} {bs : List Byte} : ∀ {m : List Host.Cell} {a : Nat},
    (c < a ∨ a + bs.length ≤ c) → cellGet (cellsWrite m a bs) c = cellGet m c := by
  induction bs with
  | nil => intro m a _; rfl
  | cons b bs ih =>
    intro m a h
    simp only [List.length_cons] at h
    unfold cellsWrite
    rw [ih (by omega), cellGet_cellSet_ne (by omega)]

end Sys2Proof.Machine
end

