-- ==== Sys2Proof/Laws/CanonBase.lean ====
section
/-! SUPPORT. How `Canon` passes through the forms of a definition: updates of other fields, folds, tests, pairs and
options. The other Canon files say, one lemma a function, that the function keeps it. -/
namespace Sys2Proof.Machine
open Sys2Proof

/-- `Canon` of a state that may be absent. -/
def CanonO (o : Option State) : Prop := ∀ t, o = some t → Canon t
/-- `Canon` of a state returned beside a value, if any. -/
def CanonOP {α : Type} (o : Option (α × State)) : Prop := ∀ t, o = some t → Canon t.2
/-- `Canon` of the state of a pair. -/
def CanonP2 {α : Type} (x : α × State) : Prop := Canon x.2
theorem canonP2_snd {α : Type} {x : α × State} (h : CanonP2 x) : Canon x.2 := h
theorem canonP2_of {α : Type} {x : α × State} (h : Canon x.2) : CanonP2 x := h
theorem canonP2_ite {α : Type} {c : Prop} [Decidable c] {a b : α × State} (ha : CanonP2 a) (hb : CanonP2 b) :
    CanonP2 (if c then a else b) := by split <;> assumption
theorem canonP2_mk {α : Type} {a : α} {b : State} (h : Canon b) : CanonP2 (a, b) := h
theorem canonP2_eq {α : Type} {x : α × State} {a : α} {b : State} (e : x = (a, b)) (h : CanonP2 x) : Canon b := by
  subst e; exact h

/-- `Canon` of an outcome's next state. -/
def CanonR (r : Res) : Prop := match r with | .next t => Canon t | _ => True

/-- `Canon` of the state a core instruction leaves. -/
def CanonOut (o : CoreOut) : Prop := match o with | .ok t => Canon t | _ => True
/-- `Canon` of the state a control instruction leaves. -/
def CanonCc (o : CcOut) : Prop :=
  match o with | .ok t _ => Canon t | .then_ t _ _ => Canon t | .again t => Canon t | .exc t _ _ => Canon t | _ => True

/-- `Canon` of the state a decoded sector leaves. -/
def CanonD (o : Decoded) : Prop := match o with | .good t => Canon t | .bad => True
/-- `Canon` of a state returned with three values, if any. -/
def CanonO4 {α β γ : Type} (o : Option (α × β × γ × State)) : Prop := ∀ t, o = some t → Canon t.2.2.2

theorem canonD_good {t : State} (h : Canon t) : CanonD (.good t) := h
theorem canonD_bad : CanonD .bad := True.intro
theorem canonD_of_good {x : Decoded} {b : State} (e : x = .good b) (h : CanonD x) : Canon b := by subst e; exact h
theorem canonO4_of_some {α β γ : Type} {x : Option (α × β × γ × State)} {a : α} {b : β} {c : γ} {d : State}
    (e : x = some (a, b, c, d)) (h : CanonO4 x) : Canon d := h _ e
theorem canonO4_mapP {α β γ : Type} {x : Option (α × β × γ × State)} (h : CanonO4 x) :
    CanonOP (x.map fun y => (y.1, y.2.2.2)) := by
  intro t e
  cases x with
  | none => cases e
  | some y => cases e; exact h _ rfl
theorem canonOut_ok {t : State} (h : Canon t) : CanonOut (.ok t) := h
theorem canonOut_wait : CanonOut .wait := True.intro
theorem canonOut_raise {a b : Nat} : CanonOut (.raise a b) := True.intro
theorem canonCc_goto {k : Task} {x : Int} : CanonCc (.goto k x) := True.intro
theorem canonCc_wait {w : TaskWait} {b : Bool} : CanonCc (.wait w b) := True.intro
theorem canonCc_ends : CanonCc .ends := True.intro
theorem canonOut_of_ok {o : CoreOut} {b : State} (e : o = .ok b) (h : CanonOut o) : Canon b := by subst e; exact h
theorem canonOut_ite {c : Prop} [Decidable c] {a b : CoreOut} (ha : CanonOut a) (hb : CanonOut b) :
    CanonOut (if c then a else b) := by split <;> assumption
theorem canonCc_ok {t : State} {k : Task} (h : Canon t) : CanonCc (.ok t k) := h
theorem canonCc_then {t : State} {k : Task} {w : TaskWait} (h : Canon t) : CanonCc (.then_ t k w) := h
theorem canonCc_again {t : State} (h : Canon t) : CanonCc (.again t) := h
theorem canonCc_exc {t : State} {k : Task} {n : Nat} (h : Canon t) : CanonCc (.exc t k n) := h
theorem canonCc_ite {c : Prop} [Decidable c] {a b : CcOut} (ha : CanonCc a) (hb : CanonCc b) :
    CanonCc (if c then a else b) := by split <;> assumption

theorem wf_writeCells {m : Memory} {a : Nat} {bs : List Byte} (h : cellsWfFrom none m.cells = true) :
    cellsWfFrom none (m.writeCells a bs).cells = true := wf_cellsWrite h
theorem wf_setTag {m : Memory} {p : Nat} {hi : Bool} {t : Nat} (h : cellsWfFrom none m.cells = true) :
    cellsWfFrom none (m.setTag p hi t).cells = true := wf_cellSet h
theorem wf_setPoison {m : Memory} {a : Nat} (h : cellsWfFrom none m.cells = true) :
    cellsWfFrom none (m.setPoison a).cells = true := h
theorem wf_clearPoison {m : Memory} {a : Nat} (h : cellsWfFrom none m.cells = true) :
    cellsWfFrom none (m.clearPoison a).cells = true := h
/-- A block copied by an evacuation (R137). -/
theorem wf_copyBlock {m : Memory} {a b : Nat} (h : cellsWfFrom none m.cells = true) :
    cellsWfFrom none (m.copyBlock a b).cells = true := wf_foldl_cellSet (wf_filter h)

/-- An update of the reset controller's state keeps the idle timeout's range. -/
def RstOk (f : ResetState → ResetState) : Prop := ∀ r, 1000 ≤ r.idleTmo.toNat → 1000 ≤ (f r).idleTmo.toNat
/-- An update of the steward's state keeps the telemetry period's range. -/
def StwOk (f : StewardState → StewardState) : Prop :=
  ∀ r, 10 ≤ r.period.toNat ∧ r.period.toNat ≤ 1000 → 10 ≤ (f r).period.toNat ∧ (f r).period.toNat ≤ 1000

theorem rstOk_of {f : ResetState → ResetState} (h : ∀ r, 1000 ≤ r.idleTmo.toNat → 1000 ≤ (f r).idleTmo.toNat) : RstOk f := h
theorem stwOk_of {f : StewardState → StewardState} (h : ∀ r, 10 ≤ r.period.toNat ∧ r.period.toNat ≤ 1000 →
    10 ≤ (f r).period.toNat ∧ (f r).period.toNat ≤ 1000) : StwOk f := h

/-- Reset is in range. -/
theorem canon_reset : Canon State.reset := by
  refine ⟨State.reset_mem_wf, ?_, ?_, ?_, ?_⟩ <;> decide

theorem wf_hostOnly {m : Memory} (h : cellsWfFrom none m.cells = true) : cellsWfFrom none m.hostOnly.cells = true :=
  wf_filter h

theorem canonParts_cells {s : State} {m : List Host.Cell} (h : Canon s) (hm : cellsWfFrom none m = true) :
    CanonParts m s.hub.gto s.rst.idleTmo s.stw.period s.pwr.capW := ⟨hm, h.2⟩
theorem canon_mk_lk (s : State) (l : Lookup) (h : Canon s) : Canon { s with lk := l } := h
theorem canon_fold {s : State} (h : Canon s) : CanonParts s.mem.cells s.hub.gto s.rst.idleTmo s.stw.period s.pwr.capW := h
theorem canon_foldl {α : Type} {f : State → α → State} {s : State} {l : List α} (hf : ∀ st x, Canon st → Canon (f st x)) (h : Canon s) :
    Canon (l.foldl f s) := by
  induction l generalizing s with
  | nil => exact h
  | cons a l ih => exact ih (hf _ _ h)
theorem canon_some_intro {t : State} (h : Canon t) : CanonO (some t) := by intro u e; cases e; exact h
theorem canon_foldlM {α : Type} {f : State → α → Option State} {l : List α} (hf : ∀ st x, Canon st → CanonO (f st x)) :
    ∀ {s : State}, Canon s → CanonO (l.foldlM f s) := by
  induction l with
  | nil => intro s h; exact canon_some_intro h
  | cons a l ih =>
    intro s h t e
    rw [List.foldlM_cons] at e
    cases hx : f s a with
    | none => rw [hx] at e; cases e
    | some u => rw [hx] at e; exact ih (hf _ _ h _ hx) t e
theorem canon_mapO {α : Type} {o : Option α} {f : α → State} (h : ∀ x, Canon (f x)) : CanonO (o.map f) := by
  intro t e
  obtain ⟨y, -, rfl⟩ := Option.map_eq_some_iff.1 e
  exact h y
theorem canon_mapS {o : Option State} {f : State → State} (ho : CanonO o) (h : ∀ x, Canon x → Canon (f x)) :
    CanonO (o.map f) := by
  intro t e
  obtain ⟨y, hy, rfl⟩ := Option.map_eq_some_iff.1 e
  exact h y (ho _ hy)
theorem canon_foldr {α : Type} {f : α → State → State} {s : State} {l : List α}
    (hf : ∀ x st, Canon st → Canon (f x st)) (h : Canon s) : Canon (l.foldr f s) := by
  induction l with
  | nil => exact h
  | cons a l ih => exact hf _ _ ih
theorem canon_foldl1 {α β : Type} {f : State × β → α → State × β} {s : State × β} {l : List α} (hf : ∀ st x, Canon st.1 → Canon (f st x).1) (h : Canon s.1) :
    Canon (l.foldl f s).1 := by
  induction l generalizing s with
  | nil => exact h
  | cons a l ih => exact ih (hf _ _ h)
theorem canon_foldl2 {α β : Type} {f : β × State → α → β × State} {s : β × State} {l : List α} (hf : ∀ st x, Canon st.2 → Canon (f st x).2) (h : Canon s.2) :
    Canon (l.foldl f s).2 := by
  induction l generalizing s with
  | nil => exact h
  | cons a l ih => exact ih (hf _ _ h)
theorem canon_foldl22 {α β γ : Type} {f : β × γ × State → α → β × γ × State} {s : β × γ × State} {l : List α}
    (hf : ∀ st x, Canon st.2.2 → Canon (f st x).2.2) (h : Canon s.2.2) : Canon (l.foldl f s).2.2 := by
  induction l generalizing s with
  | nil => exact h
  | cons a l ih => exact ih (hf _ _ h)
theorem canon_foldl222 {α β γ δ : Type} {f : β × γ × δ × State → α → β × γ × δ × State} {s : β × γ × δ × State}
    {l : List α} (hf : ∀ st x, Canon st.2.2.2 → Canon (f st x).2.2.2) (h : Canon s.2.2.2) :
    Canon (l.foldl f s).2.2.2 := by
  induction l generalizing s with
  | nil => exact h
  | cons a l ih => exact ih (hf _ _ h)
theorem canon_next_intro {t : State} (h : Canon t) : CanonR (.next t) := h
theorem canon_none_intro : CanonO none := by intro u e; cases e
theorem canon_ite {c : Prop} [Decidable c] {a b : State} (ha : Canon a) (hb : Canon b) : Canon (if c then a else b) := by split <;> assumption
theorem canon_ite2 {α : Type} {c : Prop} [Decidable c] {a b : α × State} (ha : Canon a.2) (hb : Canon b.2) : Canon (if c then a else b).2 := by split <;> assumption
theorem canon_ite1 {α : Type} {c : Prop} [Decidable c] {a b : State × α} (ha : Canon a.1) (hb : Canon b.1) : Canon (if c then a else b).1 := by split <;> assumption
theorem canon_iteR {c : Prop} [Decidable c] {a b : Res} (ha : CanonR a) (hb : CanonR b) : CanonR (if c then a else b) := by split <;> assumption
theorem canon_iteO {c : Prop} [Decidable c] {a b : Option State} (ha : CanonO a) (hb : CanonO b) : CanonO (if c then a else b) := by split <;> assumption
theorem canon_snd {α : Type} {x : α × State} {a : α} {b : State} (e : x = (a, b)) (h : Canon x.2) : Canon b := by subst e; exact h
theorem canon_fst {α : Type} {x : State × α} {a : α} {b : State} (e : x = (b, a)) (h : Canon x.1) : Canon b := by subst e; exact h
theorem canon_of_some {x : Option State} {b : State} (e : x = some b) (h : CanonO x) : Canon b := h _ e
theorem canon_of_someP {α : Type} {x : Option (α × State)} {a : α} {b : State} (e : x = some (a, b)) (h : CanonOP x) : Canon b := h _ e
theorem canon_of_next {x : Res} {b : State} (e : x = .next b) (h : CanonR x) : Canon b := by subst e; exact h
theorem canon_cells {s : State} (h : Canon s) : cellsWfFrom none s.mem.cells = true := h.1
theorem canon_mk {a0 a1 a2 a3 a4 a5 a6 a7 a8 a9 a10 a11 a12 a13 a14 a15 a16 a17 a18 a19 a20 a21 a22 a23 a24 a25 a26 a27 a28 a29 a30 a31 a32 a33 a34 a35 a36 a37 a38 a39 a40 a41} (h : CanonParts (a9).cells (a7).gto (a2).idleTmo (a27).period (a24).capW) :
    Canon (State.mk a0 a1 a2 a3 a4 a5 a6 a7 a8 a9 a10 a11 a12 a13 a14 a15 a16 a17 a18 a19 a20 a21 a22 a23 a24 a25 a26 a27 a28 a29 a30 a31 a32 a33 a34 a35 a36 a37 a38 a39 a40 a41) := h
theorem canon_mk_iff {a0 a1 a2 a3 a4 a5 a6 a7 a8 a9 a10 a11 a12 a13 a14 a15 a16 a17 a18 a19 a20 a21 a22 a23 a24 a25 a26 a27 a28 a29 a30 a31 a32 a33 a34 a35 a36 a37 a38 a39 a40 a41} :
    Canon (State.mk a0 a1 a2 a3 a4 a5 a6 a7 a8 a9 a10 a11 a12 a13 a14 a15 a16 a17 a18 a19 a20 a21 a22 a23 a24 a25 a26 a27 a28 a29 a30 a31 a32 a33 a34 a35 a36 a37 a38 a39 a40 a41) ↔ CanonParts (a9).cells (a7).gto (a2).idleTmo (a27).period (a24).capW := Iff.rfl

end Sys2Proof.Machine
end

