-- ==== Sys2Proof/Laws/Canon1.lean ====
section
/-! SUPPORT. Part 1 of the lemmas that say, one a function, that it keeps `Canon`. -/
namespace Sys2Proof.Machine
open Sys2Proof
set_option maxRecDepth 4000

theorem canon_State_noteWrite (x0 : State) (x1 : Nat) (h0 : Canon x0) : Canon (State.noteWrite x0 x1) := by
  unfold State.noteWrite
  repeat' with_reducible first | assumption | apply canon_ite | (simp only [canon_mk_iff]; apply canon_fold)

theorem canon_State_updCx (x0 : State) (x1 : Nat) (x2 : CxStack → CxStack) (h0 : Canon x0)
    : Canon (State.updCx x0 x1 x2) := by
  unfold State.updCx
  repeat' with_reducible first | assumption | (simp only [canon_mk_iff]; apply canon_fold)

theorem canon_State_storeBlock (x0 : State) (x1 x2 : Nat) (x3 : Bool) (x4 : Nat) (x5 : List Byte) (x6 : Option Nat)
    (h0 : Canon x0) : Canon (State.storeBlock x0 x1 x2 x3 x4 x5 x6) := by
  unfold State.storeBlock
  repeat' with_reducible
    first | assumption | intro _ | apply canon_State_noteWrite | apply canon_State_updCx | apply canon_foldl
          | (simp only [canon_mk_iff]; refine canonParts_cells (by assumption) ?_) | refine wf_writeCells ?_
          | refine wf_setTag ?_ | exact canon_cells (by assumption)

theorem canon_State_compressBlock (x0 : State) (x1 : Region) (x2 : Option Nat) (x3 x4 : Nat) (x5 : Bool)
    (x6 : List Byte) (h0 : Canon x0) : Canon (State.compressBlock x0 x1 x2 x3 x4 x5 x6) := by
  unfold State.compressBlock
  repeat' first
    | with_reducible
        first | assumption | apply canon_State_storeBlock | apply canon_State_updCx | apply canon_ite
    | split

theorem canon_State_poisonBlock (x0 : State) (x1 x2 : Nat) (x3 : Bool) (h0 : Canon x0)
    : Canon (State.poisonBlock x0 x1 x2 x3) := by
  unfold State.poisonBlock
  repeat' with_reducible first | assumption | apply canon_State_storeBlock

theorem canon_State_writeBlock (x0 : State) (x1 : Region) (x2 : Option Nat) (x3 x4 : Nat) (x5 : List Byte) (x6 : Bool) (h0 : Canon x0) :
    Canon (State.writeBlock x0 x1 x2 x3 x4 x5 x6) := by
  unfold State.writeBlock
  generalize x0.blockPlace x1 x3 = q
  obtain ⟨p, tp, hi⟩ := q
  dsimp only
  apply canon_ite h0
  apply canon_ite (canon_State_poisonBlock _ _ _ _ h0)
  apply canon_ite (canon_State_compressBlock _ _ _ _ _ _ _ h0)
  generalize x0.readBlock p tp hi = o
  cases o with
  | none => exact canon_ite h0 (canon_State_poisonBlock _ _ _ _ h0)
  | some old => exact canon_State_compressBlock _ _ _ _ _ _ _ h0

theorem canon_State_writeFlatLine (x0 : State) (x1 : Nat) (x2 : List Byte) (x3 : Bool) (h0 : Canon x0)
    : Canon (State.writeFlatLine x0 x1 x2 x3) := by
  unfold State.writeFlatLine
  repeat' first
    | with_reducible first | assumption | apply canon_State_noteWrite | apply canon_ite
    | split
    | with_reducible
        first | (simp only [canon_mk_iff]; refine canonParts_cells (by assumption) ?_) | refine wf_writeCells ?_
              | refine wf_setPoison ?_ | refine wf_clearPoison ?_ | exact canon_cells (by assumption)
              | refine canon_cells ?_ | (simp only [canon_mk_iff]; refine canonParts_cells ?_ ?_)

theorem canon_State_clearTag (x0 : State) (x1 x2 : Nat) (h0 : Canon x0) : Canon (State.clearTag x0 x1 x2) := by
  unfold State.clearTag
  repeat' with_reducible first | assumption | (simp only [canon_mk_iff]; apply canon_fold)

theorem canon_State_noteDirty (x0 : State) (x1 x2 : Nat) (h0 : Canon x0) : Canon (State.noteDirty x0 x1 x2) := by
  unfold State.noteDirty
  repeat' with_reducible first | assumption | apply canon_ite | (simp only [canon_mk_iff]; apply canon_fold)

theorem canon_State_writePiece (x0 : State) (x1 : Option Nat) (x2 : Nat) (x3 : List Byte) (x4 : Bool) (h0 : Canon x0)
    : Canon (State.writePiece x0 x1 x2 x3 x4) := by
  unfold State.writePiece
  repeat' first
    | with_reducible
        first | assumption | apply canon_State_writeBlock | apply canon_State_clearTag
              | apply canon_State_writeFlatLine | apply canon_State_noteDirty | apply canon_ite
    | split

theorem canon_State_writeDAWith (x0 : State) (x1 : Option Nat) (x2 : Nat) (x3 : List Byte)
    (x4 : optParam Bool Bool.false) (h0 : Canon x0) : Canon (State.writeDAWith x0 x1 x2 x3 x4) := by
  unfold State.writeDAWith
  repeat' with_reducible first | assumption | intro _ | apply canon_State_writePiece | apply canon_foldl

theorem canon_State_writeDA (x0 : State) (x1 : Nat) (x2 : List Byte) (x3 : optParam Bool Bool.false) (h0 : Canon x0)
    : Canon (State.writeDA x0 x1 x2 x3) := by
  unfold State.writeDA
  repeat' with_reducible first | assumption | apply canon_State_writeDAWith

theorem canon_State_zeroRange (x0 : State) (x1 x2 : Nat) (h0 : Canon x0) : Canon (State.zeroRange x0 x1 x2) := by
  unfold State.zeroRange
  repeat' with_reducible
    first | (simp only [canon_mk_iff]; refine canonParts_cells (by assumption) ?_) | refine wf_filter ?_
          | exact canon_cells (by assumption)

theorem canon_State_drawFree (x0 : State) (x1 : Nat) (h0 : Canon x0) : Canon (State.drawFree x0 x1).2 := by
  unfold State.drawFree
  repeat' with_reducible first | assumption | (simp only [canon_mk_iff]; apply canon_fold)

theorem canon_State_drawBit (x0 : State) (h0 : Canon x0) : Canon (State.drawBit x0).2 := by
  unfold State.drawBit
  repeat' with_reducible first | assumption | apply canon_State_drawFree

theorem canon_State_emit (x0 : State) (x1 : OutMsg) (h0 : Canon x0) : Canon (State.emit x0 x1) := by
  unfold State.emit
  repeat' with_reducible first | assumption | (simp only [canon_mk_iff]; apply canon_fold)

theorem canon_State_updFunc (x0 : State) (x1 : Nat) (x2 : Func → Func) (h0 : Canon x0)
    : Canon (State.updFunc x0 x1 x2) := by
  unfold State.updFunc
  repeat' with_reducible first | assumption | (simp only [canon_mk_iff]; apply canon_fold)

theorem canon_State_msix (x0 : State) (x1 x2 : Nat) (h0 : Canon x0) : Canon (State.msix x0 x1 x2) := by
  unfold State.msix
  repeat' with_reducible
    first | assumption | apply canon_State_emit | apply canon_ite | (simp only [canon_mk_iff]; apply canon_fold)

theorem canon_State_irqEvent (x0 : State) (x1 : Nat) (h0 : Canon x0) : Canon (State.irqEvent x0 x1) := by
  unfold State.irqEvent
  repeat' with_reducible
    first | assumption | apply canon_State_msix | apply canon_ite | (simp only [canon_mk_iff]; apply canon_fold)

theorem canon_State_irqIf (x0 : State) (x1 : Bool) (x2 : Nat) (h0 : Canon x0) : Canon (State.irqIf x0 x1 x2) := by
  unfold State.irqIf
  repeat' with_reducible first | assumption | apply canon_State_irqEvent | apply canon_ite

theorem canon_State_injDone (x0 : State) (h0 : Canon x0) : Canon (State.injDone x0) := by
  unfold State.injDone
  repeat' with_reducible first | assumption | (simp only [canon_mk_iff]; apply canon_fold)

theorem canon_State_meshInject (x0 : State) (x1 : Nat) (h0 : Canon x0) : Canon (State.meshInject x0 x1) := by
  unfold State.meshInject
  repeat' with_reducible first | assumption | apply canon_State_injDone | apply canon_ite

theorem canon_State_updQ (x0 : State) (x1 : Nat) (x2 : Queue → Queue) (h0 : Canon x0)
    : Canon (State.updQ x0 x1 x2) := by
  unfold State.updQ
  repeat' with_reducible first | assumption | (simp only [canon_mk_iff]; apply canon_fold)

theorem canon_State_mirrorRecord (x0 : State) (x1 : FaultRecord) (h0 : Canon x0)
    : Canon (State.mirrorRecord x0 x1) := by
  unfold State.mirrorRecord
  repeat' with_reducible
    first | assumption | apply canon_State_emit | apply canon_ite | (simp only [canon_mk_iff]; apply canon_fold)

theorem canon_State_pldmEvent (x0 : State) (x1 : String) (x2 : Nat) (h0 : Canon x0)
    : Canon (State.pldmEvent x0 x1 x2) := by
  unfold State.pldmEvent
  repeat' with_reducible first | assumption | apply canon_State_emit | apply canon_ite

theorem canon_State_fault (x0 : State) (x1 : FaultRecord) (h0 : Canon x0) : Canon (State.fault x0 x1) := by
  unfold State.fault
  repeat' with_reducible
    first | assumption | apply canon_State_mirrorRecord | apply canon_State_pldmEvent | apply canon_State_msix
          | apply canon_State_irqEvent | apply canon_ite | (simp only [canon_mk_iff]; apply canon_fold)

theorem canon_State_queueFault (x0 : State) (x1 x2 : Nat) (x3 : optParam (Option Nat) Option.none) (h0 : Canon x0)
    : Canon (State.queueFault x0 x1 x2 x3) := by
  unfold State.queueFault
  repeat' with_reducible first | assumption | apply canon_State_fault

theorem canon_State_hostFault (x0 : State) (x1 x2 x3 : Nat) (x4 : optParam (List Byte) []) (h0 : Canon x0)
    : Canon (State.hostFault x0 x1 x2 x3 x4) := by
  unfold State.hostFault
  repeat' with_reducible first | assumption | apply canon_State_fault | apply canon_State_drawFree

theorem canon_State_breakModel (x0 : State) (x1 : Option Nat) (h0 : Canon x0) : Canon (State.breakModel x0 x1) := by
  unfold State.breakModel
  repeat' first
    | with_reducible first | assumption | (simp only [canon_mk_iff]; apply canon_fold)
    | split

theorem canon_State_rsvWriteLine (x0 : State) (x1 : Option Nat) (x2 : Nat) (x3 : List Byte) (h0 : Canon x0)
    : Canon (State.rsvWriteLine x0 x1 x2 x3) := by
  unfold State.rsvWriteLine
  repeat' first
    | with_reducible
        first | assumption | apply canon_State_hostFault | apply canon_State_writeDA | apply canon_State_breakModel
              | apply canon_State_emit | apply canon_ite | (simp only [canon_mk_iff]; apply canon_fold)
    | split
    | dsimp only

theorem canon_State_recall (x0 : State) (x1 x2 : Nat) (h0 : Canon x0) : CanonO (State.recall x0 x1 x2) := by
  unfold State.recall
  repeat' with_reducible
    first | assumption | (simp only [canon_mk_iff]; apply canon_fold) | apply canon_some_intro
          | exact canon_none_intro | apply canon_iteO

theorem canon_State_devWriteLine (x0 : State) (x1 : Nat) (x2 : List Byte) (h0 : Canon x0)
    : Canon (State.devWriteLine x0 x1 x2) := by
  unfold State.devWriteLine
  repeat' with_reducible
    first | assumption | apply canon_State_writeDA | apply canon_State_rsvWriteLine | apply canon_State_emit
          | apply canon_ite | (simp only [canon_mk_iff]; apply canon_fold)

theorem canon_State_devWrite (x0 : State) (x1 : Nat) (x2 : List Byte) (h0 : Canon x0)
    : Canon (State.devWrite x0 x1 x2) := by
  unfold State.devWrite
  repeat' with_reducible first | assumption | intro _ | apply canon_State_devWriteLine | apply canon_foldl

theorem canon_State_signalQ (x0 : State) (x1 : Nat) (h0 : Canon x0) : Canon (State.signalQ x0 x1) := by
  unfold State.signalQ
  repeat' with_reducible first | assumption | apply canon_State_updQ | apply canon_State_msix

theorem canon_State_coalesce (x0 : State) (x1 : Nat) (h0 : Canon x0) : Canon (State.coalesce x0 x1) := by
  unfold State.coalesce
  repeat' with_reducible
    first | assumption | apply canon_State_signalQ | apply canon_State_updQ | apply canon_ite

theorem canon_State_writeCqe (x0 : State) (x1 : Nat) (x2 : Cqe) (h0 : Canon x0)
    : Canon (State.writeCqe x0 x1 x2) := by
  unfold State.writeCqe
  repeat' with_reducible
    first | assumption | apply canon_State_queueFault | apply canon_State_coalesce | apply canon_State_updQ
          | apply canon_State_devWrite | apply canon_State_emit | apply canon_ite

theorem canon_State_postCqe (x0 : State) (x1 : Nat) (x2 : Cqe) (h0 : Canon x0) : Canon (State.postCqe x0 x1 x2) := by
  unfold State.postCqe
  repeat' with_reducible
    first | assumption | apply canon_State_writeCqe | apply canon_State_queueFault | apply canon_State_updQ
          | apply canon_ite

theorem canon_State_mirror (x0 : State) (x1 : Nat) (x2 : MirrorItem) (h0 : Canon x0)
    : Canon (State.mirror x0 x1 x2) := by
  unfold State.mirror
  repeat' with_reducible
    first | assumption | apply canon_State_emit | apply canon_ite | (simp only [canon_mk_iff]; apply canon_fold)

theorem canon_State_mirrorCmd (x0 : State) (x1 : Nat) (x2 : W16) (x3 : BitVec 12) (x4 : W64) (x5 : List Byte)
    (h0 : Canon x0) : Canon (State.mirrorCmd x0 x1 x2 x3 x4 x5) := by
  unfold State.mirrorCmd
  repeat' first
    | with_reducible first | assumption | apply canon_State_mirror | apply canon_ite
    | split

theorem canon_State_complete (x0 : State) (x1 : Nat) (x2 : W16) (x3 : BitVec 12) (x4 : optParam W64 0)
    (x5 : optParam (List Byte) []) (h0 : Canon x0) : Canon (State.complete x0 x1 x2 x3 x4 x5) := by
  unfold State.complete
  repeat' with_reducible
    first | assumption | apply canon_State_postCqe | apply canon_State_updQ | apply canon_State_mirrorCmd
          | apply canon_State_emit | apply canon_ite | (simp only [canon_mk_iff]; apply canon_fold)

theorem canon_State_healthFault (x0 : State) (x1 : UnitKind) (x2 x3 : Nat) (x4 x5 : Health) (x6 : optParam Nat 0)
    (h0 : Canon x0) : Canon (State.healthFault x0 x1 x2 x3 x4 x5 x6) := by
  unfold State.healthFault
  repeat' with_reducible first | assumption | apply canon_State_fault

theorem canon_State_setHealth (x0 : State) (x1 : UnitKind) (x2 : Nat) (x3 : Health) (x4 : Nat) (x5 : optParam Nat 0)
    (h0 : Canon x0) : Canon (State.setHealth x0 x1 x2 x3 x4 x5) := by
  unfold State.setHealth
  repeat' with_reducible
    first | assumption | apply canon_State_healthFault | (simp only [canon_mk_iff]; apply canon_fold)

theorem canon_State_chargeUnit (x0 : State) (x1 : UnitKind) (x2 : Nat) (x3 : optParam Nat 0) (h0 : Canon x0)
    : Canon (State.chargeUnit x0 x1 x2 x3) := by
  unfold State.chargeUnit
  repeat' first
    | with_reducible
        first | assumption | apply canon_State_setHealth | apply canon_ite
              | (simp only [canon_mk_iff]; apply canon_fold)
    | split
    | dsimp only

theorem canon_State_countCe (x0 : State) (x1 : UnitKind) (x2 : Nat) (h0 : Canon x0)
    : Canon (State.countCe x0 x1 x2) := by
  unfold State.countCe
  repeat' with_reducible
    first | assumption | apply canon_State_chargeUnit | apply canon_ite | (simp only [canon_mk_iff]; apply canon_fold)

theorem canon_State_healthAge (x0 : State) (x1 : UnitKind) (x2 : Nat) (h0 : Canon x0)
    : Canon (State.healthAge x0 x1 x2) := by
  unfold State.healthAge
  repeat' with_reducible first | assumption | apply canon_State_setHealth | apply canon_ite

theorem canon_State_onCsr (x0 : State) (x1 : AccessPath) (x2 : CsrBlock) (x3 : State → State) (h0 : Canon x0)
    (h3 : ∀ y0 : State, Canon y0 → Canon (x3 y0)) : Canon (State.onCsr x0 x1 x2 x3) := by
  unfold State.onCsr
  repeat' with_reducible first | assumption | apply h3 | apply canon_ite

theorem canon_State_updBdStack (x0 : State) (x1 : Nat) (x2 : BdStack → BdStack) (h0 : Canon x0)
    : Canon (State.updBdStack x0 x1 x2) := by
  unfold State.updBdStack
  repeat' with_reducible first | assumption | (simp only [canon_mk_iff]; apply canon_fold)

theorem canon_State_updChan (x0 : State) (x1 : Nat) (x2 : Channel → Channel) (h0 : Canon x0)
    : Canon (State.updChan x0 x1 x2) := by
  unfold State.updChan
  repeat' with_reducible first | assumption | (simp only [canon_mk_iff]; apply canon_fold)

theorem canon_State_stackFault (x0 : State) (x1 x2 : Nat) (x3 : optParam Nat 0) (x4 : optParam Nat 4)
    (x5 : optParam Nat 4294967295) (x6 : optParam Nat (2 ^ 64 - 1)) (x7 : optParam Nat 4294967295)
    (x8 x9 : optParam Nat 0) (x10 : optParam (List Byte) []) (x11 : optParam Nat 0) (h0 : Canon x0)
    : Canon (State.stackFault x0 x1 x2 x3 x4 x5 x6 x7 x8 x9 x10 x11) := by
  unfold State.stackFault
  repeat' with_reducible first | assumption | apply canon_State_fault

theorem canon_State_chanState (x0 : State) (x1 : Nat) (x2 : ChState) (h0 : Canon x0)
    : Canon (State.chanState x0 x1 x2) := by
  unfold State.chanState
  repeat' with_reducible
    first | assumption | apply canon_State_stackFault | apply canon_State_updChan | apply canon_State_irqEvent
          | apply canon_ite | (simp only [canon_mk_iff]; apply canon_fold)

theorem canon_State_laneFails (x0 : State) (x1 : Nat) (x2 : Lane) (h0 : Canon x0)
    : Canon (State.laneFails x0 x1 x2) := by
  unfold State.laneFails
  repeat' first
    | with_reducible
        first | assumption | apply canon_State_stackFault | apply canon_State_updChan | apply canon_State_chanState
              | apply canon_ite
    | split

theorem canon_State_putSector (x0 : State) (x1 : Nat) (x2 : List Nat) (h0 : Canon x0)
    : Canon (State.putSector x0 x1 x2) := by
  unfold State.putSector
  repeat' first
    | split
    | with_reducible
        first | (simp only [canon_mk_iff]; refine canonParts_cells (by assumption) ?_) | refine wf_writeCells ?_
              | refine wf_setPoison ?_ | refine wf_clearPoison ?_ | exact canon_cells (by assumption)

theorem canon_State_zeroSector (x0 : State) (x1 : Nat) (x2 : Bool) (h0 : Canon x0)
    : Canon (State.zeroSector x0 x1 x2) := by
  unfold State.zeroSector
  repeat' first
    | split
    | with_reducible
        first | (simp only [canon_mk_iff]; refine canonParts_cells (by assumption) ?_) | refine wf_writeCells ?_
              | refine wf_setPoison ?_ | refine wf_clearPoison ?_ | exact canon_cells (by assumption)

theorem canon_State_loseTags (x0 : State) (x1 x2 x3 : Nat) (h0 : Canon x0) : Canon (State.loseTags x0 x1 x2 x3) := by
  unfold State.loseTags
  repeat' with_reducible
    first | apply canon_State_stackFault | apply canon_State_updCx
          | (simp only [canon_mk_iff]; refine canonParts_cells (by assumption) ?_) | refine wf_writeCells ?_
          | refine wf_clearPoison ?_ | exact canon_cells (by assumption)

theorem canon_State_noteLanes (x0 : State) (x1 x2 : Nat) (x3 : List Nat) (h0 : Canon x0)
    : Canon (State.noteLanes x0 x1 x2 x3) := by
  unfold State.noteLanes
  repeat' with_reducible
    first | assumption | intro _ | apply canon_State_updChan | apply canon_State_laneFails | apply canon_foldl
          | apply canon_ite

theorem canon_State_decodeSector (x0 : State) (x1 x2 x3 : Nat) (x4 : List (Nat × Byte)) (x5 x6 : Bool)
    (h0 : Canon x0) : CanonD (State.decodeSector x0 x1 x2 x3 x4 x5 x6) := by
  unfold State.decodeSector
  repeat' first
    | with_reducible
        first | assumption | apply canon_State_updChan | apply canon_State_noteLanes | apply canon_State_putSector
    | split
    | with_reducible first | apply canonD_good | exact canonD_bad
    | dsimp only

theorem canon_State_countOde (x0 : State) (x1 x2 : Nat) (h0 : Canon x0) : Canon (State.countOde x0 x1 x2) := by
  unfold State.countOde
  repeat' with_reducible first | assumption | apply canon_State_updChan | apply canon_ite

theorem canon_State_sectorLost (x0 : State) (x1 x2 x3 : Nat) (x4 x5 : Bool) (h0 : Canon x0)
    : Canon (State.sectorLost x0 x1 x2 x3 x4 x5) := by
  unfold State.sectorLost
  repeat' first
    | with_reducible
        first | assumption | apply canon_State_stackFault | apply canon_State_updChan | apply canon_State_zeroSector
              | apply canon_State_loseTags | apply canon_State_poisonBlock | apply canon_State_updCx | apply canon_ite
    | split
    | dsimp only

theorem canon_State_tagLookup (x0 : State) (x1 x2 x3 : Nat) (h0 : Canon x0)
    : Canon (State.tagLookup x0 x1 x2 x3) := by
  unfold State.tagLookup
  repeat' first
    | with_reducible first | assumption | apply canon_State_updCx | apply canon_State_drawBit | apply canon_ite2
    | split

theorem canon_execHbmReadRequest (x0 : Fin 12) (x1 : Fin 32) (x2 : Fin 2) (x3 : BitVec 30) (x4 : Fin 256) (x5 : Bool)
    (x6 : State) (h6 : Canon x6) : CanonR (execHbmReadRequest x0 x1 x2 x3 x4 x5 x6) := by
  unfold execHbmReadRequest
  repeat' with_reducible
    first | assumption | apply canon_State_updChan | apply canon_State_tagLookup | apply canon_next_intro
          | apply canon_iteR

theorem canon_execHbmWriteRequest (x0 : Fin 12) (x1 : Fin 32) (x2 : Fin 2) (x3 : BitVec 30) (x4 : List Byte)
    (x5 : Bool) (x6 : State) (h6 : Canon x6) : CanonR (execHbmWriteRequest x0 x1 x2 x3 x4 x5 x6) := by
  unfold execHbmWriteRequest
  repeat' first
    | with_reducible
        first | assumption | intro _ | apply canon_State_updChan | apply canon_State_tagLookup
              | apply canon_State_writeFlatLine | apply canon_State_compressBlock | apply canon_State_poisonBlock
              | apply canon_foldl | apply canon_next_intro | apply canon_ite | apply canon_iteR
    | split

theorem canon_State_injErrs (x0 : State) (x1 : Nat) (x2 : Bool) (h0 : Canon x0)
    : Canon (State.injErrs x0 x1 x2).2 := by
  unfold State.injErrs
  repeat' with_reducible
    first | assumption | apply canon_State_injDone | apply canon_State_drawFree | apply canon_ite2

theorem canon_execHbmReadComplete (x0 : Fin 12) (x1 : Fin 32) (x2 : Fin 2) (x3 : List (Nat × Nat × Byte))
    (x4 : BitVec 12) (x5 : State) (h5 : Canon x5) : CanonR (execHbmReadComplete x0 x1 x2 x3 x4 x5) := by
  unfold execHbmReadComplete
  repeat' first
    | with_reducible
        first | assumption | intro _ | apply canon_State_updChan | apply canon_State_injErrs
              | apply canon_State_countOde | apply canon_State_decodeSector | apply canon_foldl
              | apply canon_next_intro | apply canon_iteR
    | split
    | with_reducible refine canonD_of_good (by assumption) ?_
    | dsimp only

theorem canon_execSectorRereadComplete (x0 : Fin 12) (x1 : Fin 32) (x2 : Fin 2) (x3 : List (Nat × Nat × Byte))
    (x4 : BitVec 12) (x5 : State) (h5 : Canon x5) : CanonR (execSectorRereadComplete x0 x1 x2 x3 x4 x5) := by
  unfold execSectorRereadComplete
  repeat' first
    | with_reducible
        first | assumption | apply canon_State_updChan | apply canon_State_countOde | apply canon_State_sectorLost
              | apply canon_State_decodeSector | apply canon_next_intro | apply canon_iteR
    | split
    | with_reducible refine canonD_of_good (by assumption) ?_
    | dsimp only

theorem canon_execDriftLockLoss (x0 : Fin 12) (x1 : Fin 32) (x2 : Fin 2) (x3 : Fin 36) (x4 : State) (h4 : Canon x4)
    : CanonR (execDriftLockLoss x0 x1 x2 x3 x4) := by
  unfold execDriftLockLoss
  repeat' with_reducible first | assumption | apply canon_State_laneFails | apply canon_next_intro

theorem canon_execDriftTrackingSlot (x0 : Fin 12) (x1 : Fin 32) (x2 : Fin 2) (x3 : State) (h3 : Canon x3)
    : CanonR (execDriftTrackingSlot x0 x1 x2 x3) := by
  unfold execDriftTrackingSlot
  repeat' with_reducible
    first | assumption | apply canon_State_updChan | apply canon_next_intro | apply canon_iteR

theorem canon_execDramRefresh (x0 : Fin 12) (x1 : Fin 32) (x2 : State) (h2 : Canon x2)
    : CanonR (execDramRefresh x0 x1 x2) := by
  unfold execDramRefresh
  repeat' with_reducible
    first | assumption | apply canon_State_updChan | apply canon_next_intro | apply canon_iteR

theorem canon_execCalibrationWindow (x0 : Fin 12) (x1 : Fin 32) (x2 x3 : Bool) (x4 : State) (h4 : Canon x4)
    : CanonR (execCalibrationWindow x0 x1 x2 x3 x4) := by
  unfold execCalibrationWindow
  repeat' with_reducible
    first | assumption | apply canon_State_chanState | apply canon_next_intro | apply canon_iteR
          | (simp only [canon_mk_iff]; apply canon_fold)

theorem canon_execSweepComplete (x0 : Fin 12) (x1 : Fin 32) (x2 : State) (h2 : Canon x2)
    : CanonR (execSweepComplete x0 x1 x2) := by
  unfold execSweepComplete
  repeat' with_reducible
    first | assumption | apply canon_State_updChan | apply canon_State_chanState | apply canon_next_intro
          | apply canon_iteR

theorem canon_execEvacuationBlockCopied (x0 : Fin 12) (x1 : Fin 32) (x2 : Fin 2) (x3 : Byte) (x4 : Fin 64)
    (x5 : Byte) (x6 : State) (h6 : Canon x6) : CanonR (execEvacuationBlockCopied x0 x1 x2 x3 x4 x5 x6) := by
  unfold execEvacuationBlockCopied
  repeat' with_reducible
    first | assumption | apply canon_next_intro | apply canon_iteR
          | (simp only [canon_mk_iff]; refine canonParts_cells (by assumption) ?_) | refine wf_copyBlock ?_
          | exact canon_cells (by assumption)

theorem canon_execEvacuationComplete (x0 : Fin 12) (x1 : Fin 32) (x2 : State) (h2 : Canon x2)
    : CanonR (execEvacuationComplete x0 x1 x2) := by
  unfold execEvacuationComplete
  repeat' with_reducible
    first | assumption | apply canon_State_stackFault | apply canon_State_chanState | apply canon_next_intro
          | apply canon_iteR

theorem canon_execPatrolScrubRead (x0 : Fin 12) (x1 : Fin 32) (x2 : List (Nat × Nat × Byte)) (x3 : BitVec 12)
    (x4 : State) (h4 : Canon x4) : CanonR (execPatrolScrubRead x0 x1 x2 x3 x4) := by
  unfold execPatrolScrubRead
  repeat' first
    | with_reducible
        first | assumption | apply canon_State_updChan | apply canon_State_countOde | apply canon_State_decodeSector
              | apply canon_next_intro | apply canon_iteR
    | split
    | with_reducible refine canonD_of_good (by assumption) ?_
    | dsimp only

theorem canon_State_touchBlock (x0 : State) (x1 : Nat) (h0 : Canon x0) : Canon (State.touchBlock x0 x1) := by
  unfold State.touchBlock
  repeat' first
    | with_reducible
        first | assumption | apply canon_State_stackFault | apply canon_State_poisonBlock | apply canon_State_updCx
              | apply canon_ite
    | split

theorem canon_State_touch (x0 : State) (x1 x2 : Nat) (h0 : Canon x0) : Canon (State.touch x0 x1 x2) := by
  unfold State.touch
  repeat' with_reducible
    first | assumption | intro _ | apply canon_State_touchBlock | apply canon_foldl | apply canon_ite

theorem canon_State_wr (x0 : State) (x1 : Nat) (x2 : List Byte) (h0 : Canon x0) : Canon (State.wr x0 x1 x2) := by
  unfold State.wr
  repeat' with_reducible first | assumption | apply canon_State_touch | apply canon_State_devWrite

theorem canon_State_done (x0 : State) (x1 : KCmd) (x2 : BitVec 12) (x3 : optParam W64 0)
    (x4 : optParam (List Byte) []) (h0 : Canon x0) : Canon (State.done x0 x1 x2 x3 x4) := by
  unfold State.done
  repeat' with_reducible first | assumption | apply canon_State_complete

theorem canon_State_withInput (x0 : State) (x1 : KCmd) (x2 x3 : Nat) (x4 : State → List Byte → State) (h0 : Canon x0)
    (h4 : ∀ y0 : State, Canon y0 → ∀ y1 : List Byte, Canon (x4 y0 y1)) : Canon (State.withInput x0 x1 x2 x3 x4) := by
  unfold State.withInput
  repeat' first
    | with_reducible
        first | assumption | apply h4 | apply canon_State_touch | apply canon_State_recall | apply canon_State_done
              | apply canon_ite
    | split
    | with_reducible refine canon_of_some (by assumption) ?_
    | dsimp only

theorem canon_State_setTdState (x0 : State) (x1 x2 : Nat) (h0 : Canon x0) : Canon (State.setTdState x0 x1 x2) := by
  unfold State.setTdState
  repeat' with_reducible
    first | assumption | apply canon_State_writeDA | (simp only [canon_mk_iff]; apply canon_fold)

theorem canon_State_tableCount (x0 : State) (x1 x2 x3 : Nat) (h0 : Canon x0)
    : Canon (State.tableCount x0 x1 x2 x3) := by
  unfold State.tableCount
  repeat' with_reducible first | assumption | apply canon_State_writeDA | apply canon_ite

theorem canon_State_tableFlags (x0 : State) (x1 : Nat) (x2 : ArithFlags) (h0 : Canon x0)
    : Canon (State.tableFlags x0 x1 x2) := by
  unfold State.tableFlags
  repeat' with_reducible first | assumption | apply canon_State_writeDA

theorem canon_State_updBucket (x0 : State) (x1 : Nat) (x2 : Bucket → Bucket) (h0 : Canon x0)
    : Canon (State.updBucket x0 x1 x2) := by
  unfold State.updBucket
  repeat' with_reducible first | assumption | (simp only [canon_mk_iff]; apply canon_fold)

theorem canon_State_dirFlush (x0 : State) (x1 x2 : Nat) (h0 : Canon x0) : Canon (State.dirFlush x0 x1 x2) := by
  unfold State.dirFlush
  repeat' with_reducible first | assumption | apply canon_State_writeDA

theorem canon_State_dirPut (x0 : State) (x1 x2 : Nat) (x3 : DirEntry) (h0 : Canon x0)
    : Canon (State.dirPut x0 x1 x2 x3) := by
  unfold State.dirPut
  repeat' with_reducible first | assumption | apply canon_State_dirFlush | apply canon_State_updBdStack

theorem canon_State_dirDel (x0 : State) (x1 x2 : Nat) (h0 : Canon x0) : Canon (State.dirDel x0 x1 x2) := by
  unfold State.dirDel
  repeat' with_reducible first | assumption | apply canon_State_dirFlush | apply canon_State_updBdStack

theorem canon_State_dirCheckSet (x0 : State) (x1 x2 : Nat) (h0 : Canon x0) : Canon (State.dirCheckSet x0 x1 x2) := by
  unfold State.dirCheckSet
  repeat' with_reducible
    first | assumption | apply canon_State_stackFault | apply canon_State_updBdStack | apply canon_State_writeDA
          | apply canon_ite

theorem canon_State_dirProbe (x0 : State) (x1 x2 x3 : Nat) (x4 : Option Nat) (h0 : Canon x0)
    : Canon (State.dirProbe x0 x1 x2 x3 x4).2 := by
  unfold State.dirProbe
  repeat' with_reducible first | assumption | apply canon_State_dirCheckSet

theorem canon_State_dirInserted (x0 : State) (x1 : Nat) (x2 : Option (SMap DirEntry)) (h0 : Canon x0)
    : Canon (State.dirInserted x0 x1 x2).2 := by
  unfold State.dirInserted
  repeat' first
    | with_reducible
        first | assumption | intro _ | apply canon_State_dirFlush | apply canon_State_updBdStack | apply canon_foldl
    | split

theorem canon_State_dirInsert (x0 : State) (x1 : Nat) (x2 : Option Nat) (x3 : DirEntry) (h0 : Canon x0)
    : Canon (State.dirInsert x0 x1 x2 x3).2 := by
  unfold State.dirInsert
  repeat' with_reducible first | assumption | apply canon_State_dirCheckSet | apply canon_State_dirInserted

theorem canon_State_ftnRaise (x0 : State) (x1 x2 : Nat) (h0 : Canon x0) : Canon (State.ftnRaise x0 x1 x2) := by
  unfold State.ftnRaise
  repeat' with_reducible first | assumption | (simp only [canon_mk_iff]; apply canon_fold)

theorem canon_State_ftnLower (x0 : State) (x1 x2 : Nat) (h0 : Canon x0) : Canon (State.ftnLower x0 x1 x2) := by
  unfold State.ftnLower
  repeat' with_reducible first | assumption | (simp only [canon_mk_iff]; apply canon_fold)

theorem canon_State_countRow (x0 : State) (x1 x2 : Nat) (x3 : Option Nat) (h0 : Canon x0)
    : Canon (State.countRow x0 x1 x2 x3) := by
  unfold State.countRow
  repeat' first
    | with_reducible first | assumption | apply canon_State_updBdStack | apply canon_State_updBucket
    | split

theorem canon_State_updAqSlot (x0 : State) (x1 : Nat) (x2 : AqSlot → AqSlot) (h0 : Canon x0)
    : Canon (State.updAqSlot x0 x1 x2) := by
  unfold State.updAqSlot
  repeat' with_reducible first | assumption | (simp only [canon_mk_iff]; apply canon_fold)

theorem canon_State_updDrive (x0 : State) (x1 : Nat) (x2 : Drive → Drive) (h0 : Canon x0)
    : Canon (State.updDrive x0 x1 x2) := by
  unfold State.updDrive
  repeat' with_reducible first | assumption | (simp only [canon_mk_iff]; apply canon_fold)

theorem canon_State_aqFault (x0 : State) (x1 x2 : Nat) (x3 x4 x5 x6 : optParam Nat 0) (h0 : Canon x0)
    : Canon (State.aqFault x0 x1 x2 x3 x4 x5 x6) := by
  unfold State.aqFault
  repeat' with_reducible first | assumption | apply canon_State_fault | apply canon_State_drawFree

theorem canon_State_aqSettle (x0 : State) (h0 : Canon x0) : Canon (State.aqSettle x0) := by
  unfold State.aqSettle
  repeat' with_reducible first | assumption | apply canon_ite | (simp only [canon_mk_iff]; apply canon_fold)

theorem canon_State_writeLabels (x0 : State) (h0 : Canon x0) : Canon (State.writeLabels x0) := by
  unfold State.writeLabels
  repeat' first
    | with_reducible first | assumption | intro _ | apply canon_State_updDrive | apply canon_foldl
    | split

theorem canon_State_openSeg (x0 : State) (h0 : Canon x0) : CanonO4 (State.openSeg x0) := by
  intro t e
  unfold State.openSeg at e
  obtain ⟨y, -, rfl⟩ := Option.map_eq_some_iff.1 e
  dsimp only
  repeat' (first
    | with_reducible assumption
    | ((with_reducible apply rstOk_of); exact fun r h => h)
    | ((with_reducible apply stwOk_of); exact fun r h => h)
    | with_reducible intro _
    | with_reducible apply canon_State_updDrive
    | with_reducible apply canon_foldl
    | with_reducible apply canon_next_intro
    | with_reducible apply canon_ite
    | with_reducible apply canon_ite2
    | with_reducible apply canon_iteR
    | (simp only [canon_mk_iff]; with_reducible apply canon_fold)
    | with_reducible apply canon_some_intro
    | with_reducible exact canon_none_intro
    | with_reducible apply canon_iteO
    | with_reducible apply canon_ite1
    | with_reducible apply canon_foldl1
    | with_reducible apply canon_foldl2
    | with_reducible exact True.intro
    | with_reducible apply canonOut_ok
    | with_reducible exact canonOut_wait
    | with_reducible exact canonOut_raise
    | with_reducible exact canonCc_goto
    | with_reducible exact canonCc_wait
    | with_reducible exact canonCc_ends
    | with_reducible apply canonCc_ok
    | with_reducible apply canonCc_then
    | with_reducible apply canonCc_again
    | with_reducible apply canonCc_exc
    | with_reducible apply canonOut_ite
    | with_reducible apply canonCc_ite
    | intro _
    | split
    | with_reducible refine canon_snd (by with_reducible assumption) ?_
    | with_reducible refine canon_fst (by with_reducible assumption) ?_
    | with_reducible apply canon_foldlM
    | with_reducible apply canon_mapS
    | with_reducible apply canon_mapO
    | with_reducible apply canon_foldl22
    | with_reducible apply canon_foldlM
    | with_reducible apply canon_mapS
    | with_reducible apply canon_mapO
    | with_reducible apply canon_foldl222
    | with_reducible apply canonD_good
    | with_reducible exact canonD_bad
    | with_reducible refine canonD_of_good (by with_reducible assumption) ?_
    | with_reducible refine canonO4_of_some (by with_reducible assumption) ?_
    | with_reducible refine canonO4_mapP ?_
    | with_reducible refine canon_of_some (by with_reducible assumption) ?_
    | with_reducible refine canon_of_someP (by with_reducible assumption) ?_
    | with_reducible refine canonOut_of_ok (by with_reducible assumption) ?_
    | with_reducible refine canon_of_next (by with_reducible assumption) ?_
    | (simp only [canon_mk_iff]; with_reducible refine canonParts_cells (by with_reducible assumption) ?_)
    | with_reducible refine wf_cellsWrite ?_
    | with_reducible refine wf_cellSet ?_
    | with_reducible refine wf_filter ?_
    | with_reducible refine wf_foldl_cellSet ?_
    | with_reducible refine wf_writeCells ?_
    | with_reducible refine wf_setTag ?_
    | with_reducible refine wf_setPoison ?_
    | with_reducible refine wf_clearPoison ?_
    | with_reducible refine wf_copyBlock ?_
    | with_reducible exact canon_cells (by with_reducible assumption)
    | with_reducible refine canon_cells ?_
    | (simp only [canon_mk_iff]; with_reducible refine canonParts_cells ?_ ?_)
    | dsimp only)

theorem canon_State_lidxPut (x0 : State) (x1 : LogEntry) (h0 : Canon x0) : CanonO (State.lidxPut x0 x1) := by
  unfold State.lidxPut
  generalize x0.lidxFind x1.table x1.row = o
  rcases o with _ | ⟨i, e⟩
  · intro t e
    obtain ⟨y, -, rfl⟩ := Option.map_eq_some_iff.1 e
    exact h0
  · intro t e; cases e; exact h0

theorem canon_State_lidxDel (x0 : State) (x1 x2 : Nat) (h0 : Canon x0) : Canon (State.lidxDel x0 x1 x2) := by
  unfold State.lidxDel
  repeat' first
    | with_reducible first | assumption | (simp only [canon_mk_iff]; apply canon_fold)
    | split

theorem canon_State_tailHome (x0 : State) (h0 : Canon x0) : CanonOP (State.tailHome x0) := by
  unfold State.tailHome
  cases x0.aq.cur with
  | none => exact canonO4_mapP (canon_State_openSeg _ h0)
  | some o =>
    dsimp only
    split
    · intro t e; cases e; exact h0
    · exact canonO4_mapP (canon_State_openSeg _ h0)

theorem canon_State_tailAppend (x0 : State) (x1 x2 x3 : Nat) (x4 : List Byte) (h0 : Canon x0)
    : Canon (State.tailAppend x0 x1 x2 x3 x4).2 := by
  unfold State.tailAppend
  repeat' first
    | with_reducible
        first | assumption | apply canon_State_irqIf | apply canon_State_lidxPut | apply canon_ite2
              | (simp only [canon_mk_iff]; apply canon_fold)
    | split
    | with_reducible refine canon_of_some (by assumption) ?_

theorem canon_State_aqAppend (x0 : State) (x1 x2 : Nat) (x3 : List Byte) (h0 : Canon x0)
    : Canon (State.aqAppend x0 x1 x2 x3).2 := by
  unfold State.aqAppend
  repeat' first
    | with_reducible
        first | assumption | apply canon_State_irqIf | apply canon_State_tailHome | apply canon_State_tailAppend
              | (simp only [canon_mk_iff]; apply canon_fold)
    | split
    | with_reducible refine canon_of_someP (by assumption) ?_

theorem canon_State_tailTarget (x0 : State) (x1 x2 : Nat) (h0 : Canon x0) : CanonO4 (State.tailTarget x0 x1 x2) := by
  unfold State.tailTarget
  generalize ((x0.memberSlot x1).bind fun n =>
    if (x0.aqSlot n).roMedia then none else ((x0.drive n).curSeg x2).map fun g => (n, g)) = q
  rcases q with _ | ⟨n, g⟩
  · exact canon_State_openSeg _ h0
  · intro t e; cases e; exact h0

theorem canon_State_tailIndex (x0 : State) (x1 x2 x3 x4 : Nat) (x5 : List LogRec) (h0 : Canon x0)
    : Canon (State.tailIndex x0 x1 x2 x3 x4 x5) := by
  unfold State.tailIndex
  repeat' first
    | with_reducible
        first | assumption | intro _ | apply canon_foldl | apply canon_ite
              | (simp only [canon_mk_iff]; apply canon_fold)
    | split

theorem canon_State_tailPages (x0 : State) (x1 x2 x3 x4 x5 : Nat) (x6 : List (List LogRec × Nat)) (h0 : Canon x0)
    : Canon (State.tailPages x0 x1 x2 x3 x4 x5 x6) := by
  unfold State.tailPages
  repeat' with_reducible
    first | assumption | intro _ | apply canon_State_tailIndex | apply canon_State_updDrive | apply canon_State_emit
          | apply canon_foldl | (simp only [canon_mk_iff]; apply canon_fold)

theorem canon_State_tailWrite (x0 : State) (x1 : Nat) (h0 : Canon x0) : Canon (State.tailWrite x0 x1).2 := by
  unfold State.tailWrite
  repeat' first
    | with_reducible
        first | assumption | apply canon_State_irqIf | apply canon_State_tailTarget | apply canon_State_tailPages
              | apply canon_ite2 | (simp only [canon_mk_iff]; apply canon_fold)
    | split
    | with_reducible refine canonO4_of_some (by assumption) ?_
    | dsimp only

theorem canon_State_ioEnd (x0 : State) (x1 : AqIo) (x2 : FarReq → FarStage) (h0 : Canon x0)
    : Canon (State.ioEnd x0 x1 x2) := by
  unfold State.ioEnd
  repeat' with_reducible first | assumption | (simp only [canon_mk_iff]; apply canon_fold)

theorem canon_State_slotIosFail (x0 : State) (x1 : Nat) (h0 : Canon x0) : Canon (State.slotIosFail x0 x1) := by
  unfold State.slotIosFail
  repeat' with_reducible first | assumption | intro _ | apply canon_State_ioEnd | apply canon_foldl

theorem canon_execRsvDeclare (x0 : KCmd) (x1 : State) (h1 : Canon x1) : CanonR (execRsvDeclare x0 x1) := by
  unfold execRsvDeclare
  repeat' with_reducible
    first | assumption | apply canon_State_done | apply canon_next_intro | apply canon_iteR
          | (simp only [canon_mk_iff]; apply canon_fold)

theorem canon_State_evictWhere (x0 : State) (x1 : Nat → Bool) (h0 : Canon x0) : Canon (State.evictWhere x0 x1) := by
  unfold State.evictWhere
  repeat' with_reducible
    first | assumption | intro _ | apply canon_State_emit | apply canon_foldl | apply canon_ite
          | (simp only [canon_mk_iff]; apply canon_fold)

theorem canon_execRsvRelease (x0 : KCmd) (x1 : State) (h1 : Canon x1) : CanonR (execRsvRelease x0 x1) := by
  unfold execRsvRelease
  repeat' with_reducible
    first | assumption | apply canon_State_done | apply canon_State_evictWhere | apply canon_next_intro
          | apply canon_iteR | (simp only [canon_mk_iff]; apply canon_fold)

theorem canon_State_setFar (x0 : State) (x1 : Nat) (x2 : FarStage) (h0 : Canon x0)
    : Canon (State.setFar x0 x1 x2) := by
  unfold State.setFar
  repeat' with_reducible first | assumption | (simp only [canon_mk_iff]; apply canon_fold)

theorem canon_State_farReservoir (x0 : State) (x1 : Nat) (x2 : TD) (x3 : Nat) (h0 : Canon x0)
    : Canon (State.farReservoir x0 x1 x2 x3) := by
  unfold State.farReservoir
  repeat' with_reducible
    first | assumption | intro _ | apply canon_State_setFar | apply canon_State_emit | apply canon_foldl
          | apply canon_ite

theorem canon_State_farFlash (x0 : State) (x1 x2 : Nat) (x3 : AqOp) (x4 x5 : Nat) (h0 : Canon x0)
    : Canon (State.farFlash x0 x1 x2 x3 x4 x5) := by
  unfold State.farFlash
  repeat' first
    | with_reducible
        first | assumption | apply canon_State_setFar | apply canon_State_emit | apply canon_ite
              | (simp only [canon_mk_iff]; apply canon_fold)
    | split

theorem canon_execFarRowRequest (x0 : Nat) (x1 : State) (h1 : Canon x1) : CanonR (execFarRowRequest x0 x1) := by
  unfold execFarRowRequest
  repeat' first
    | with_reducible
        first | assumption | apply canon_State_setFar | apply canon_State_farFlash | apply canon_State_farReservoir
              | apply canon_next_intro | apply canon_iteR
    | split
    | dsimp only

theorem canon_execReservoirReadResponse (x0 : Nat) (x1 : Fin 3) (x2 : State) (h2 : Canon x2)
    : CanonR (execReservoirReadResponse x0 x1 x2) := by
  unfold execReservoirReadResponse
  repeat' first
    | with_reducible
        first | assumption | apply canon_State_fault | apply canon_State_setFar | apply canon_next_intro
              | apply canon_iteR
    | split

theorem canon_execNvmeCompletion (x0 : Nat) (x1 : W16) (x2 : State) (h2 : Canon x2)
    : CanonR (execNvmeCompletion x0 x1 x2) := by
  unfold execNvmeCompletion
  repeat' first
    | with_reducible
        first | assumption | apply canon_State_ioEnd | apply canon_State_aqFault | apply canon_State_emit
              | apply canon_next_intro | apply canon_iteR | (simp only [canon_mk_iff]; apply canon_fold)
    | split

theorem canon_execNvmeIoTimeout (x0 : Nat) (x1 : State) (h1 : Canon x1) : CanonR (execNvmeIoTimeout x0 x1) := by
  unfold execNvmeIoTimeout
  repeat' first
    | with_reducible
        first | assumption | apply canon_State_aqFault | apply canon_State_emit | apply canon_next_intro
              | apply canon_iteR | (simp only [canon_mk_iff]; apply canon_fold)
    | split

theorem canon_execNvmeControllerReset (x0 : Fin 8) (x1 : State) (h1 : Canon x1)
    : CanonR (execNvmeControllerReset x0 x1) := by
  unfold execNvmeControllerReset
  repeat' first
    | with_reducible
        first | assumption | apply canon_State_slotIosFail | apply canon_State_aqFault | apply canon_State_emit
              | apply canon_next_intro
    | split

end Sys2Proof.Machine
end

