-- ==== Sys2Proof/Laws/Canon2.lean ====
section
/-! SUPPORT. Part 2 of the lemmas that say, one a function, that it keeps `Canon`. -/
namespace Sys2Proof.Machine
open Sys2Proof
set_option maxRecDepth 4000

theorem canon_execAqFormat (x0 : KCmd) (x1 : State) (h1 : Canon x1) : CanonR (execAqFormat x0 x1) := by
  unfold execAqFormat
  repeat' with_reducible
    first | assumption | intro _ | apply canon_State_updAqSlot | apply canon_State_done | apply canon_State_drawFree
          | apply canon_State_updDrive | apply canon_State_emit | apply canon_foldl | apply canon_next_intro
          | apply canon_iteR

theorem canon_State_mountFail (x0 : State) (x1 : KCmd) (x2 : BitVec 12) (h0 : Canon x0)
    : Canon (State.mountFail x0 x1 x2) := by
  unfold State.mountFail
  repeat' with_reducible
    first | assumption | apply canon_State_done | (simp only [canon_mk_iff]; apply canon_fold)

theorem canon_State_replayRec (x0 : State) (x1 x2 x3 : Nat) (x4 : LogRec) (h0 : Canon x0) :
    CanonO (State.replayRec x0 x1 x2 x3 x4) := by
  unfold State.replayRec
  generalize x0.lidxFind x4.table x4.row = q
  rcases q with _ | ⟨i, old⟩
  · exact canon_State_lidxPut _ _ h0
  · exact canon_iteO (canon_State_lidxPut _ _ h0) (canon_some_intro h0)

theorem canon_State_replaySeqs (x0 : State) (x1 : LogSeg) (h0 : Canon x0) : Canon (State.replaySeqs x0 x1) := by
  unfold State.replaySeqs
  repeat' with_reducible first | assumption | (simp only [canon_mk_iff]; apply canon_fold)

theorem canon_State_replaySeg (x0 : State) (x1 x2 : Nat) (x3 : LogSeg) (h0 : Canon x0) :
    CanonO (State.replaySeg x0 x1 x2 x3) := by
  unfold State.replaySeg
  refine canon_foldlM (fun st pg hs => ?_) (canon_State_replaySeqs _ _ h0)
  exact canon_foldlM (fun st r hs => canon_State_replayRec _ _ _ _ _ hs) hs

theorem canon_State_replay (x0 : State) (x1 x2 : Nat) (h0 : Canon x0) : CanonO (State.replay x0 x1 x2) := by
  unfold State.replay
  exact canon_foldlM (fun st kv hs => canon_State_replaySeg _ _ _ _ hs) h0

theorem canon_State_mountJoin (x0 : State) (x1 : List Nat) (x2 : W64) (x3 x4 : Nat) (h0 : Canon x0)
    : Canon (State.mountJoin x0 x1 x2 x3 x4) := by
  unfold State.mountJoin
  repeat' with_reducible
    first | assumption | intro _ | apply canon_State_updAqSlot | apply canon_foldl
          | (simp only [canon_mk_iff]; apply canon_fold)

theorem canon_State_mountSet (x0 : State) (x1 : KCmd) (x2 : List Nat) (x3 : Byte) (x4 : W64) (h0 : Canon x0) :
    Canon (State.mountSet x0 x1 x2 x3 x4) := by
  unfold State.mountSet
  extract_lets top stale cur bad mem s1 s2
  have h2 : Canon s2 := by
    apply canon_foldl
    · intro st n hs
      apply canon_State_aqFault
      apply canon_State_updAqSlot
      exact hs
    · apply canon_foldl _ h0
      intro st n hs
      apply canon_State_aqFault
      apply canon_State_updAqSlot
      exact hs
  clear_value s2 mem top
  cases mem with
  | nil => apply canon_State_mountFail; exact h2
  | cons m0 ms =>
    dsimp only
    have hf : CanonO ((m0 :: ms).foldlM (fun st n => st.replay (x0.labelOf n).ordinal n)
        (s2.mountJoin (m0 :: ms) x4 top m0)) :=
      canon_foldlM (fun st n hs => canon_State_replay _ _ _ hs) (canon_State_mountJoin _ _ _ _ _ h2)
    generalize (m0 :: ms).foldlM (fun st n => st.replay (x0.labelOf n).ordinal n)
        (s2.mountJoin (m0 :: ms) x4 top m0) = o at hf
    cases o with
    | none =>
      apply canon_State_mountFail
      apply canon_foldl _ h2
      intro st n hs
      apply canon_State_updAqSlot
      exact hs
    | some s5 =>
      apply canon_State_done
      apply canon_State_aqSettle
      have h5 : Canon s5 := hf s5 rfl
      exact h5

theorem canon_execAqMount (x0 : KCmd) (x1 : Byte) (x2 : State) (h2 : Canon x2) : CanonR (execAqMount x0 x1 x2) := by
  unfold execAqMount
  repeat' first
    | with_reducible
        first | assumption | apply canon_State_mountSet | apply canon_State_done | apply canon_State_mountFail
              | apply canon_next_intro | apply canon_iteR
    | split
    | dsimp only

theorem canon_State_tailsOut (x0 : State) (h0 : Canon x0) : Canon (State.tailsOut x0).2 := by
  unfold State.tailsOut
  repeat' with_reducible first | assumption | intro _ | apply canon_State_tailWrite | apply canon_foldl2

theorem canon_State_syncMark (x0 : State) (h0 : Canon x0) : Canon (State.syncMark x0) := by
  unfold State.syncMark
  repeat' first
    | with_reducible
        first | assumption | intro _ | apply canon_State_writeLabels | apply canon_State_emit | apply canon_foldl
              | (simp only [canon_mk_iff]; apply canon_fold)
    | split

theorem canon_execAqSync (x0 : KCmd) (x1 : State) (h1 : Canon x1) : CanonR (execAqSync x0 x1) := by
  unfold execAqSync
  repeat' with_reducible
    first | assumption | apply canon_State_syncMark | apply canon_State_done | apply canon_State_tailsOut
          | apply canon_next_intro | apply canon_iteR

theorem canon_execAqExtCreate (x0 : KCmd) (x1 : State) (h1 : Canon x1) : CanonR (execAqExtCreate x0 x1) := by
  unfold execAqExtCreate
  repeat' first
    | with_reducible
        first | assumption | apply canon_State_writeLabels | apply canon_State_done | apply canon_next_intro
              | apply canon_iteR | (simp only [canon_mk_iff]; apply canon_fold)
    | split

theorem canon_execAqExtFree (x0 : KCmd) (x1 : State) (h1 : Canon x1) : CanonR (execAqExtFree x0 x1) := by
  unfold execAqExtFree
  repeat' with_reducible
    first | assumption | apply canon_State_writeLabels | apply canon_State_done | apply canon_next_intro
          | apply canon_iteR | (simp only [canon_mk_iff]; apply canon_fold)

theorem canon_execAqAdopt (x0 : KCmd) (x1 : State) (h1 : Canon x1) : CanonR (execAqAdopt x0 x1) := by
  unfold execAqAdopt
  repeat' with_reducible
    first | assumption | apply canon_State_writeLabels | apply canon_State_updAqSlot | apply canon_State_done
          | apply canon_State_aqSettle | apply canon_State_updDrive | apply canon_next_intro | apply canon_iteR
          | (simp only [canon_mk_iff]; apply canon_fold)

theorem canon_execAqSlotOff (x0 : KCmd) (x1 : State) (h1 : Canon x1) : CanonR (execAqSlotOff x0 x1) := by
  unfold execAqSlotOff
  repeat' with_reducible
    first | assumption | apply canon_State_updAqSlot | apply canon_State_done | apply canon_State_tailsOut
          | apply canon_State_aqSettle | apply canon_State_emit | apply canon_next_intro | apply canon_ite2
          | apply canon_iteR

theorem canon_execAqDriveInsert (x0 : Fin 8) (x1 : Nat) (x2 : BitVec 48) (x3 : BitVec 8) (x4 : State) (h4 : Canon x4)
    : CanonR (execAqDriveInsert x0 x1 x2 x3 x4) := by
  unfold execAqDriveInsert
  repeat' with_reducible
    first | assumption | apply canon_State_irqIf | apply canon_State_updAqSlot | apply canon_State_updDrive
          | apply canon_next_intro | apply canon_ite | apply canon_iteR | (simp only [canon_mk_iff]; apply canon_fold)

theorem canon_execAqDriveIdentified (x0 : Fin 8) (x1 : BitVec 2) (x2 : BitVec 5) (x3 : Bool) (x4 : State)
    (h4 : Canon x4) : CanonR (execAqDriveIdentified x0 x1 x2 x3 x4) := by
  unfold execAqDriveIdentified
  repeat' first
    | with_reducible
        first | assumption | apply canon_State_updAqSlot | apply canon_State_aqSettle | apply canon_State_aqFault
              | apply canon_next_intro | apply canon_iteR
    | split

theorem canon_State_driveLost (x0 : State) (x1 : Nat) (x2 : Bool) (h0 : Canon x0)
    : Canon (State.driveLost x0 x1 x2) := by
  unfold State.driveLost
  repeat' with_reducible
    first | assumption | apply canon_State_irqIf | apply canon_State_slotIosFail | apply canon_State_updAqSlot
          | apply canon_State_aqSettle | apply canon_State_aqFault | apply canon_ite
          | (simp only [canon_mk_iff]; apply canon_fold)

theorem canon_execAqSurpriseRemoval (x0 : Fin 8) (x1 : Bool) (x2 : State) (h2 : Canon x2)
    : CanonR (execAqSurpriseRemoval x0 x1 x2) := by
  unfold execAqSurpriseRemoval
  repeat' first
    | with_reducible
        first | assumption | apply canon_State_irqIf | apply canon_State_driveLost | apply canon_State_updAqSlot
              | apply canon_next_intro | apply canon_ite | apply canon_iteR
              | (simp only [canon_mk_iff]; apply canon_fold)
    | split

theorem canon_execAqLinkLoss (x0 : Fin 8) (x1 : Bool) (x2 : State) (h2 : Canon x2)
    : CanonR (execAqLinkLoss x0 x1 x2) := by
  unfold execAqLinkLoss
  repeat' with_reducible
    first | assumption | apply canon_State_driveLost | apply canon_State_updAqSlot | apply canon_next_intro
          | apply canon_iteR

theorem canon_execAqDriveRemoveSafe (x0 : Fin 8) (x1 : State) (h1 : Canon x1)
    : CanonR (execAqDriveRemoveSafe x0 x1) := by
  unfold execAqDriveRemoveSafe
  repeat' with_reducible
    first | assumption | apply canon_State_irqIf | apply canon_State_updAqSlot | apply canon_next_intro
          | apply canon_iteR | (simp only [canon_mk_iff]; apply canon_fold)

theorem canon_execTailWrite (x0 : Fin 8) (x1 : State) (h1 : Canon x1) : CanonR (execTailWrite x0 x1) := by
  unfold execTailWrite
  repeat' with_reducible
    first | assumption | apply canon_State_tailWrite | apply canon_next_intro | apply canon_iteR

theorem canon_execTailTimerExpiry (x0 : Fin 8) (x1 : State) (h1 : Canon x1) : CanonR (execTailTimerExpiry x0 x1) := by
  unfold execTailTimerExpiry
  repeat' with_reducible
    first | assumption | apply canon_State_tailWrite | apply canon_next_intro | apply canon_iteR

theorem canon_State_compactRow (x0 : State) (x1 : LogEntry) (x2 : Nat) (h0 : Canon x0)
    : Canon (State.compactRow x0 x1 x2) := by
  unfold State.compactRow
  repeat' first
    | with_reducible
        first | assumption | apply canon_State_updDrive | apply canon_State_emit | apply canon_ite
              | (simp only [canon_mk_iff]; apply canon_fold)
    | split
    | dsimp only

theorem canon_execCompaction (x0 : Fin 8) (x1 : State) (h1 : Canon x1) : CanonR (execCompaction x0 x1) := by
  unfold execCompaction
  repeat' first
    | with_reducible
        first | assumption | intro _ | apply canon_State_compactRow | apply canon_State_updDrive
              | apply canon_State_emit | apply canon_foldl | apply canon_next_intro | apply canon_iteR
              | (simp only [canon_mk_iff]; apply canon_fold)
    | split

theorem canon_State_updPart (x0 : State) (x1 : Nat) (x2 : Part → Part) (h0 : Canon x0)
    : Canon (State.updPart x0 x1 x2) := by
  unfold State.updPart
  repeat' with_reducible first | assumption | (simp only [canon_mk_iff]; apply canon_fold)

theorem canon_State_writeCbk (x0 : State) (x1 : TD) (x2 : Nat) (x3 : List Byte) (h0 : Canon x0)
    : Canon (State.writeCbk x0 x1 x2 x3) := by
  unfold State.writeCbk
  repeat' with_reducible first | assumption | apply canon_State_touch | apply canon_State_writeDAWith

theorem canon_State_writeCopies (x0 : State) (x1 : Nat) (x2 : TD) (x3 x4 : Nat) (x5 : List Byte) (h0 : Canon x0)
    : Canon (State.writeCopies x0 x1 x2 x3 x4 x5) := by
  unfold State.writeCopies
  repeat' first
    | with_reducible
        first | assumption | intro _ | apply canon_State_writeCbk | apply canon_State_dirPut | apply canon_foldl
              | apply canon_ite
    | split

theorem canon_State_writeHome (x0 : State) (x1 : Nat) (x2 : TD) (x3 x4 : Nat) (x5 : List Byte) (h0 : Canon x0)
    : Canon (State.writeHome x0 x1 x2 x3 x4 x5).2 := by
  unfold State.writeHome
  repeat' first
    | with_reducible
        first | assumption | intro _ | apply canon_State_writeCbk | apply canon_State_writeDA
              | apply canon_State_rsvWriteLine | apply canon_State_aqAppend | apply canon_foldl
    | split

theorem canon_State_writeRow (x0 : State) (x1 : Nat) (x2 : TD) (x3 x4 : Nat) (x5 : List Byte) (h0 : Canon x0)
    : Canon (State.writeRow x0 x1 x2 x3 x4 x5).2 := by
  unfold State.writeRow
  repeat' with_reducible
    first | assumption | apply canon_State_writeHome | apply canon_State_writeCopies | apply canon_ite2

theorem canon_State_digAdd (x0 : State) (x1 x2 : Nat) (x3 : D128) (h0 : Canon x0)
    : Canon (State.digAdd x0 x1 x2 x3) := by
  unfold State.digAdd
  repeat' with_reducible first | assumption | (simp only [canon_mk_iff]; apply canon_fold)

theorem canon_State_sweep (x0 : State) (x1 : Nat) (x2 : TD) (x3 : Bool) (h0 : Canon x0)
    : Canon (State.sweep x0 x1 x2 x3) := by
  unfold State.sweep
  repeat' with_reducible
    first | assumption | apply canon_State_breakModel | apply canon_State_digAdd | apply canon_ite

theorem canon_State_ftnRemove (x0 : State) (x1 x2 : Nat) (h0 : Canon x0) : Canon (State.ftnRemove x0 x1 x2) := by
  unfold State.ftnRemove
  repeat' with_reducible first | assumption | intro _ | apply canon_State_dirDel | apply canon_foldl

theorem canon_State_ftnAdd (x0 : State) (x1 : Nat) (x2 : TD) (x3 x4 : Nat) (x5 : Bool) (h0 : Canon x0)
    : Canon (State.ftnAdd x0 x1 x2 x3 x4 x5).2 := by
  unfold State.ftnAdd
  repeat' first
    | with_reducible
        first | assumption | intro _ | apply canon_State_writeCbk | apply canon_State_ftnRemove
              | apply canon_State_dirPut | apply canon_State_dirInsert | apply canon_State_ftnRaise
              | apply canon_State_dirDel | apply canon_foldl | apply canon_ite | apply canon_ite2
              | (simp only [canon_mk_iff]; apply canon_fold) | apply canon_foldl2
    | split

theorem canon_State_ftnEnd (x0 : State) (x1 x2 : Nat) (h0 : Canon x0) : Canon (State.ftnEnd x0 x1 x2) := by
  unfold State.ftnEnd
  repeat' with_reducible
    first | assumption | apply canon_State_ftnLower | apply canon_State_ftnRemove | apply canon_ite
          | (simp only [canon_mk_iff]; apply canon_fold)

theorem canon_State_pinRow (x0 : State) (x1 : Nat) (x2 : TD) (x3 : Nat) (h0 : Canon x0)
    : Canon (State.pinRow x0 x1 x2 x3).2 := by
  unfold State.pinRow
  repeat' first
    | with_reducible
        first | assumption | apply canon_State_ftnAdd | apply canon_ite2
              | (simp only [canon_mk_iff]; apply canon_fold)
    | split
    | with_reducible refine canon_snd (by assumption) ?_

theorem canon_State_dirPurge (x0 : State) (x1 : Nat) (h0 : Canon x0) : Canon (State.dirPurge x0 x1) := by
  unfold State.dirPurge
  repeat' with_reducible
    first | assumption | intro _ | apply canon_State_ftnEnd | apply canon_State_dirDel | apply canon_foldl
          | (simp only [canon_mk_iff]; apply canon_fold)

theorem canon_State_dropTags (x0 : State) (x1 : Region) (h0 : Canon x0) : Canon (State.dropTags x0 x1) := by
  unfold State.dropTags
  repeat' with_reducible first | assumption | (simp only [canon_mk_iff]; apply canon_fold)

theorem canon_State_putRegion (x0 : State) (x1 : Nat) (x2 : Region) (h0 : Canon x0)
    : Canon (State.putRegion x0 x1 x2) := by
  unfold State.putRegion
  repeat' with_reducible first | assumption | (simp only [canon_mk_iff]; apply canon_fold)

theorem canon_State_writeRegionA (x0 : State) (x1 : Nat) (x2 : W32) (h0 : Canon x0)
    : Canon (State.writeRegionA x0 x1 x2) := by
  unfold State.writeRegionA
  repeat' with_reducible
    first | assumption | apply canon_State_putRegion | apply canon_State_dropTags | apply canon_ite

theorem canon_execHubRegionAWrite (x0 : AccessPath) (x1 : Fin 64) (x2 : W32) (x3 : State) (h3 : Canon x3)
    : CanonR (execHubRegionAWrite x0 x1 x2 x3) := by
  unfold execHubRegionAWrite
  repeat' with_reducible
    first | assumption | intro _ | apply canon_State_onCsr | apply canon_State_writeRegionA | apply canon_next_intro

theorem canon_State_writeTdaLo (x0 : State) (x1 : W32) (h0 : Canon x0) : Canon (State.writeTdaLo x0 x1) := by
  unfold State.writeTdaLo
  repeat' with_reducible
    first | assumption | apply canon_State_zeroRange | apply canon_ite | (simp only [canon_mk_iff]; apply canon_fold)

theorem canon_execHubTdaLoWrite (x0 : AccessPath) (x1 : W32) (x2 : State) (h2 : Canon x2)
    : CanonR (execHubTdaLoWrite x0 x1 x2) := by
  unfold execHubTdaLoWrite
  repeat' with_reducible
    first | assumption | intro _ | apply canon_State_writeTdaLo | apply canon_State_onCsr | apply canon_next_intro

theorem canon_execTableStoreReady (x0 : State) (h0 : Canon x0) : CanonR (execTableStoreReady x0) := by
  unfold execTableStoreReady
  repeat' with_reducible
    first | assumption | apply canon_next_intro | apply canon_iteR | (simp only [canon_mk_iff]; apply canon_fold)

theorem canon_execTblCreate (x0 : KCmd) (x1 : State) (h1 : Canon x1) : CanonR (execTblCreate x0 x1) := by
  unfold execTblCreate
  repeat' first
    | with_reducible
        first | assumption | intro _ | apply canon_State_setTdState | apply canon_State_writeDA
              | apply canon_State_done | apply canon_State_withInput | apply canon_next_intro | apply canon_ite
              | apply canon_iteR | (simp only [canon_mk_iff]; apply canon_fold)
    | split
    | dsimp only

theorem canon_State_loadRow (x0 : State) (x1 : Nat) (x2 : TD) (x3 : Nat) (x4 : List Byte) (x5 : Bool) (h0 : Canon x0)
    : Canon (State.loadRow x0 x1 x2 x3 x4 x5) := by
  unfold State.loadRow
  repeat' first
    | with_reducible
        first | assumption | intro _ | apply canon_State_touch | apply canon_State_lidxDel
              | apply canon_State_rsvWriteLine | apply canon_State_writeDAWith | apply canon_State_updDrive
              | apply canon_State_emit | apply canon_foldl | apply canon_ite
    | split
    | dsimp only

theorem canon_execTblLoad (x0 : KCmd) (x1 : State) (h1 : Canon x1) : CanonR (execTblLoad x0 x1) := by
  unfold execTblLoad
  repeat' with_reducible
    first | assumption | intro _ | apply canon_State_touch | apply canon_State_loadRow | apply canon_State_done
          | apply canon_next_intro | apply canon_ite | apply canon_iteR | apply canon_foldl1

theorem canon_State_pinAll (x1 : Nat) (x2 : TD) (x3 : List Nat) : ∀ (x0 : State) (h0 : Canon x0),
    CanonO (State.pinAll x0 x1 x2 x3) := by
  induction x3 with
  | nil => intro s h; exact canon_some_intro h
  | cons r rs ih =>
    intro s h
    unfold State.pinAll
    have hp := canon_State_pinRow s x1 x2 r h
    generalize s.pinRow x1 x2 r = q at hp
    obtain ⟨b, s1⟩ := q
    cases b
    · exact canon_none_intro
    · exact ih s1 hp

theorem canon_execTblSeal (x0 : KCmd) (x1 : State) (h1 : Canon x1) : CanonR (execTblSeal x0 x1) := by
  unfold execTblSeal
  repeat' first
    | with_reducible
        first | assumption | intro _ | apply canon_State_setTdState | apply canon_State_zeroRange
              | apply canon_State_sweep | apply canon_State_done | apply canon_State_pinAll | apply canon_foldl
              | apply canon_next_intro | apply canon_ite | apply canon_iteR
              | (simp only [canon_mk_iff]; apply canon_fold)
    | split
    | with_reducible refine canon_of_some (by assumption) ?_

theorem canon_State_freeTable (x0 : State) (x1 : Nat) (h0 : Canon x0) : Canon (State.freeTable x0 x1) := by
  unfold State.freeTable
  repeat' with_reducible
    first | assumption | apply canon_State_setTdState | apply canon_State_dirPurge
          | (simp only [canon_mk_iff]; apply canon_fold)

theorem canon_execTblRetire (x0 : KCmd) (x1 : State) (h1 : Canon x1) : CanonR (execTblRetire x0 x1) := by
  unfold execTblRetire
  repeat' with_reducible
    first | assumption | apply canon_State_setTdState | apply canon_State_done | apply canon_State_freeTable
          | apply canon_next_intro | apply canon_iteR | (simp only [canon_mk_iff]; apply canon_fold)

theorem canon_execTblDrainDone (x0 : Fin 262144) (x1 : State) (h1 : Canon x1) : CanonR (execTblDrainDone x0 x1) := by
  unfold execTblDrainDone
  repeat' first
    | with_reducible
        first | assumption | apply canon_State_complete | apply canon_State_sweep | apply canon_State_freeTable
              | apply canon_next_intro | apply canon_iteR | (simp only [canon_mk_iff]; apply canon_fold)
    | split

theorem canon_execTblRetireTimeout (x0 : Fin 262144) (x1 : State) (h1 : Canon x1)
    : CanonR (execTblRetireTimeout x0 x1) := by
  unfold execTblRetireTimeout
  repeat' first
    | with_reducible
        first | assumption | apply canon_State_setTdState | apply canon_State_complete | apply canon_next_intro
              | apply canon_iteR | (simp only [canon_mk_iff]; apply canon_fold)
    | split

theorem canon_execTblCtrz (x0 : KCmd) (x1 : State) (h1 : Canon x1) : CanonR (execTblCtrz x0 x1) := by
  unfold execTblCtrz
  repeat' with_reducible
    first | assumption | apply canon_State_writeDA | apply canon_State_done | apply canon_next_intro
          | apply canon_iteR

theorem canon_State_bdEnable (x0 : State) (h0 : Canon x0) : Canon (State.bdEnable x0) := by
  unfold State.bdEnable
  repeat' with_reducible
    first | assumption | intro _ | apply canon_State_updBdStack | apply canon_State_zeroRange | apply canon_foldl
          | (simp only [canon_mk_iff]; apply canon_fold)

theorem canon_State_writeBdCtl (x0 : State) (x1 : W32) (h0 : Canon x0) : Canon (State.writeBdCtl x0 x1) := by
  unfold State.writeBdCtl
  repeat' with_reducible
    first | assumption | apply canon_State_bdEnable | apply canon_ite | (simp only [canon_mk_iff]; apply canon_fold)

theorem canon_execHubBdCtlWrite (x0 : AccessPath) (x1 : W32) (x2 : State) (h2 : Canon x2)
    : CanonR (execHubBdCtlWrite x0 x1 x2) := by
  unfold execHubBdCtlWrite
  repeat' with_reducible
    first | assumption | intro _ | apply canon_State_writeBdCtl | apply canon_State_onCsr | apply canon_next_intro

theorem canon_State_updPlan (x0 : State) (x1 : Nat) (x2 : PlanCmd → PlanCmd) (h0 : Canon x0)
    : Canon (State.updPlan x0 x1 x2) := by
  unfold State.updPlan
  repeat' first
    | with_reducible first | assumption | (simp only [canon_mk_iff]; apply canon_fold)
    | split

theorem canon_State_planTry (x0 : State) (x1 : Nat) (h0 : Canon x0) : Canon (State.planTry x0 x1) := by
  unfold State.planTry
  repeat' first
    | with_reducible
        first | assumption | apply canon_State_complete | apply canon_State_wr | apply canon_ite
              | (simp only [canon_mk_iff]; apply canon_fold)
    | split

theorem canon_State_runList (x0 : State) (x1 : KCmd) (x2 : Nat → State → Nat × Nat × Nat → State) (h0 : Canon x0)
    (h2 : ∀ y0 : Nat, ∀ y1 : State, Canon y1 → ∀ y2 : Nat × Nat × Nat, Canon (x2 y0 y1 y2))
    : Canon (State.runList x0 x1 x2) := by
  unfold State.runList
  repeat' first
    | with_reducible
        first | assumption | intro _ | apply h2 | apply canon_State_done | apply canon_State_planTry
              | apply canon_State_withInput | apply canon_foldl | apply canon_ite
              | (simp only [canon_mk_iff]; apply canon_fold)
    | split

theorem canon_State_fillRead (x0 : State) (x1 : Fill) (h0 : Canon x0) : Canon (State.fillRead x0 x1) := by
  unfold State.fillRead
  repeat' with_reducible first | assumption | (simp only [canon_mk_iff]; apply canon_fold)

theorem canon_State_fillStart (x0 : State) (x1 : Fill) (x2 x3 : Nat) (h0 : Canon x0) : Canon (State.fillStart x0 x1 x2 x3).2 := by
  have key : ∀ q : Bool × State, CanonP2 q →
      CanonP2 (if q.1 then (true, { q.2 with bd := { q.2.bd with fills := q.2.bd.fills ++ [x1] } }) else (false, q.2)) :=
    fun q h => canonP2_ite (canonP2_mk h) (canonP2_mk h)
  have h2 := key _ (canonP2_of (canon_State_dirInsert x0 x1.stack (some x2)
    { row := x1.row, table := x1.table, filling := true, slot := x3 } h0))
  apply canonP2_snd
  unfold State.fillStart
  exact h2

theorem canon_State_bsnFillOne (x0 : State) (x1 x2 x3 x4 : Nat) (h0 : Canon x0)
    : Canon (State.bsnFillOne x0 x1 x2 x3 x4) := by
  unfold State.bsnFillOne
  repeat' first
    | with_reducible
        first | assumption | apply canon_State_updPlan | apply canon_State_fillRead | apply canon_State_fillStart
              | apply canon_ite
    | split
    | with_reducible refine canon_snd (by assumption) ?_
    | dsimp only

theorem canon_State_bsnFillEntry (x0 : Nat) (x1 : State) (x2 : Nat × Nat × Nat) (h1 : Canon x1)
    : Canon (State.bsnFillEntry x0 x1 x2) := by
  unfold State.bsnFillEntry
  repeat' with_reducible
    first | assumption | apply canon_State_updPlan | apply canon_State_bsnFillOne | apply canon_ite
          | (simp only [canon_mk_iff]; apply canon_fold)

theorem canon_execBsnFill (x0 : KCmd) (x1 : State) (h1 : Canon x1) : CanonR (execBsnFill x0 x1) := by
  unfold execBsnFill
  repeat' with_reducible
    first | assumption | intro _ | apply canon_State_runList | apply canon_State_bsnFillEntry | apply canon_next_intro

theorem canon_State_fillEnd (x0 : State) (x1 : Fill) (x2 : Bool) (h0 : Canon x0)
    : Canon (State.fillEnd x0 x1 x2) := by
  unfold State.fillEnd
  repeat' first
    | with_reducible
        first | assumption | apply canon_State_updPlan | apply canon_State_planTry
              | (simp only [canon_mk_iff]; apply canon_fold)
    | split

theorem canon_State_fillDrop (x0 : State) (x1 : Fill) (x2 : Nat) (h0 : Canon x0)
    : Canon (State.fillDrop x0 x1 x2) := by
  unfold State.fillDrop
  repeat' first
    | with_reducible first | assumption | apply canon_State_updBdStack | apply canon_State_dirDel
    | split

theorem canon_State_fillArrive (x0 : State) (x1 : Fill) (x2 : Option (List Byte)) (h0 : Canon x0)
    : Canon (State.fillArrive x0 x1 x2) := by
  unfold State.fillArrive
  repeat' first
    | with_reducible
        first | assumption | apply canon_State_writeCbk | apply canon_State_updBdStack | apply canon_State_fillEnd
              | apply canon_State_dirPut | apply canon_State_fillRead | apply canon_State_fillDrop | apply canon_ite
    | split

theorem canon_execFillRowArrival (x0 : Nat) (x1 : State) (h1 : Canon x1) : CanonR (execFillRowArrival x0 x1) := by
  unfold execFillRowArrival
  repeat' first
    | with_reducible
        first | assumption | apply canon_State_fillArrive | apply canon_next_intro
              | (simp only [canon_mk_iff]; apply canon_fold)
    | split
    | dsimp only

theorem canon_State_bsnDropOne (x0 : State) (x1 x2 x3 : Nat) (h0 : Canon x0)
    : Canon (State.bsnDropOne x0 x1 x2 x3) := by
  unfold State.bsnDropOne
  repeat' with_reducible
    first | assumption | intro _ | apply canon_State_updPlan | apply canon_State_dirDel | apply canon_foldl
          | apply canon_ite

theorem canon_State_bsnDropEntry (x0 : Nat) (x1 : State) (x2 : Nat × Nat × Nat) (h1 : Canon x1)
    : Canon (State.bsnDropEntry x0 x1 x2) := by
  unfold State.bsnDropEntry
  repeat' with_reducible
    first | assumption | apply canon_State_bsnDropOne | apply canon_State_updPlan | apply canon_ite
          | (simp only [canon_mk_iff]; apply canon_fold)

theorem canon_execBsnDrop (x0 : KCmd) (x1 : State) (h1 : Canon x1) : CanonR (execBsnDrop x0 x1) := by
  unfold execBsnDrop
  repeat' with_reducible
    first | assumption | intro _ | apply canon_State_bsnDropEntry | apply canon_State_runList | apply canon_next_intro

theorem canon_execBsnDropSettled (x0 : Nat) (x1 : State) (h1 : Canon x1) : CanonR (execBsnDropSettled x0 x1) := by
  unfold execBsnDropSettled
  repeat' first
    | with_reducible first | assumption | apply canon_State_planTry | apply canon_next_intro
    | split

theorem canon_State_ftnAddEntry (x0 : Nat) (x1 : State) (x2 : Nat × Nat × Nat) (h1 : Canon x1)
    : Canon (State.ftnAddEntry x0 x1 x2) := by
  unfold State.ftnAddEntry
  repeat' first
    | with_reducible
        first | assumption | apply canon_State_ftnAdd | apply canon_State_updPlan | apply canon_ite
    | split
    | with_reducible refine canon_snd (by assumption) ?_

theorem canon_execFtnAdd (x0 : KCmd) (x1 : State) (h1 : Canon x1) : CanonR (execFtnAdd x0 x1) := by
  unfold execFtnAdd
  repeat' with_reducible
    first | assumption | intro _ | apply canon_State_ftnAddEntry | apply canon_State_runList | apply canon_next_intro

theorem canon_State_ftnDropEntry (x0 : Nat) (x1 : State) (x2 : Nat × Nat × Nat) (h1 : Canon x1)
    : Canon (State.ftnDropEntry x0 x1 x2) := by
  unfold State.ftnDropEntry
  repeat' with_reducible
    first | assumption | apply canon_State_updPlan | apply canon_State_ftnLower | apply canon_ite
          | (simp only [canon_mk_iff]; apply canon_fold)

theorem canon_execFtnDrop (x0 : KCmd) (x1 : State) (h1 : Canon x1) : CanonR (execFtnDrop x0 x1) := by
  unfold execFtnDrop
  repeat' with_reducible
    first | assumption | intro _ | apply canon_State_ftnDropEntry | apply canon_State_runList | apply canon_next_intro

theorem canon_State_ftnDropMarkers (x0 : State) (x1 : Nat) (h0 : Canon x0) : Canon (State.ftnDropMarkers x0 x1) := by
  unfold State.ftnDropMarkers
  repeat' first
    | with_reducible
        first | assumption | intro _ | apply canon_State_updPlan | apply canon_State_ftnRemove
              | apply canon_State_planTry | apply canon_foldl | apply canon_ite
    | split

theorem canon_execBktMove (x0 : KCmd) (x1 : State) (h1 : Canon x1) : CanonR (execBktMove x0 x1) := by
  unfold execBktMove
  repeat' with_reducible
    first | assumption | intro _ | apply canon_State_done | apply canon_State_withInput | apply canon_next_intro
          | apply canon_iteR | (simp only [canon_mk_iff]; apply canon_fold)

theorem canon_State_moveCopy (x0 : State × Move) (x1 : Nat × DirEntry) (h0 : Canon x0.1)
    : Canon (State.moveCopy x0 x1).1 := by
  unfold State.moveCopy
  repeat' first
    | with_reducible
        first | assumption | apply canon_State_stackFault | apply canon_State_touch | apply canon_State_writeCbk
              | apply canon_State_dirInsert | apply canon_State_dirDel | apply canon_ite1
    | split
    | with_reducible refine canon_snd (by assumption) ?_

theorem canon_State_setMove (x0 : State) (x1 : Move) (h0 : Canon x0) : Canon (State.setMove x0 x1) := by
  unfold State.setMove
  repeat' with_reducible first | assumption | (simp only [canon_mk_iff]; apply canon_fold)

theorem canon_execBktMoveCopyDone (x0 : Fin 4096) (x1 : State) (h1 : Canon x1)
    : CanonR (execBktMoveCopyDone x0 x1) := by
  unfold execBktMoveCopyDone
  repeat' first
    | with_reducible
        first | assumption | intro _ | apply canon_State_setMove | apply canon_State_moveCopy
              | apply canon_State_updBucket | apply canon_next_intro | apply canon_iteR | apply canon_foldl1
    | split

theorem canon_State_applyHeld (x0 : State) (x1 : HeldEntry) (h0 : Canon x0) : Canon (State.applyHeld x0 x1) := by
  unfold State.applyHeld
  repeat' with_reducible
    first | assumption | apply canon_State_bsnDropOne | apply canon_State_updPlan | apply canon_State_bsnFillOne
          | apply canon_State_planTry | apply canon_ite

theorem canon_State_moveMarkers (x0 : State) (x1 : Nat) (h0 : Canon x0) : Canon (State.moveMarkers x0 x1) := by
  unfold State.moveMarkers
  repeat' first
    | with_reducible
        first | assumption | intro _ | apply canon_State_complete | apply canon_State_applyHeld
              | apply canon_State_updBucket | apply canon_State_dirDel | apply canon_foldl | apply canon_ite
              | (simp only [canon_mk_iff]; apply canon_fold)
    | split

theorem canon_execHeatOn (x0 : KCmd) (x1 : State) (h1 : Canon x1) : CanonR (execHeatOn x0 x1) := by
  unfold execHeatOn
  repeat' first
    | with_reducible
        first | assumption | apply canon_State_done | apply canon_next_intro | apply canon_iteR
              | (simp only [canon_mk_iff]; apply canon_fold)
    | split
    | dsimp only

theorem canon_execHeatOff (x0 : KCmd) (x1 : State) (h1 : Canon x1) : CanonR (execHeatOff x0 x1) := by
  unfold execHeatOff
  repeat' with_reducible
    first | assumption | apply canon_State_done | apply canon_next_intro | apply canon_iteR
          | (simp only [canon_mk_iff]; apply canon_fold)

theorem canon_execHeatRead (x0 : KCmd) (x1 : State) (h1 : Canon x1) : CanonR (execHeatRead x0 x1) := by
  unfold execHeatRead
  repeat' first
    | with_reducible
        first | assumption | intro _ | apply canon_State_wr | apply canon_State_done | apply canon_State_withInput
              | apply canon_next_intro
    | split

theorem canon_State_candidate (x0 : State) (x1 x2 x3 : Nat) (h0 : Canon x0)
    : Canon (State.candidate x0 x1 x2 x3) := by
  unfold State.candidate
  repeat' with_reducible
    first | assumption | apply canon_State_writeDA | (simp only [canon_mk_iff]; apply canon_fold)

theorem canon_execHeatSample (x0 : Nat) (x1 : State) (h1 : Canon x1) : CanonR (execHeatSample x0 x1) := by
  unfold execHeatSample
  repeat' first
    | with_reducible
        first | assumption | apply canon_State_candidate | apply canon_next_intro | apply canon_iteR
              | (simp only [canon_mk_iff]; apply canon_fold)
    | split
    | dsimp only

theorem canon_execDecayTick (x0 : State) (h0 : Canon x0) : CanonR (execDecayTick x0) := by
  unfold execDecayTick
  repeat' with_reducible
    first | assumption | apply canon_next_intro | apply canon_iteR | (simp only [canon_mk_iff]; apply canon_fold)

theorem canon_State_installCbk (x0 : State) (x1 : Nat) (x2 : Codebook) (h0 : Canon x0)
    : Canon (State.installCbk x0 x1 x2) := by
  unfold State.installCbk
  repeat' with_reducible first | assumption | (simp only [canon_mk_iff]; apply canon_fold)

theorem canon_execCbkInstall (x0 : KCmd) (x1 : State) (h1 : Canon x1) : CanonR (execCbkInstall x0 x1) := by
  unfold execCbkInstall
  repeat' with_reducible
    first | assumption | intro _ | apply canon_State_done | apply canon_State_installCbk | apply canon_State_withInput
          | apply canon_next_intro | apply canon_ite

theorem canon_execCbkClear (x0 : KCmd) (x1 : State) (h1 : Canon x1) : CanonR (execCbkClear x0 x1) := by
  unfold execCbkClear
  repeat' with_reducible
    first | assumption | apply canon_State_done | apply canon_next_intro | apply canon_iteR
          | (simp only [canon_mk_iff]; apply canon_fold)

theorem canon_execCbkRead (x0 : KCmd) (x1 : State) (h1 : Canon x1) : CanonR (execCbkRead x0 x1) := by
  unfold execCbkRead
  repeat' first
    | with_reducible
        first | assumption | apply canon_State_wr | apply canon_State_done | apply canon_next_intro
    | split

theorem canon_State_recodeBlock (x0 : State) (x1 x2 : Nat) (h0 : Canon x0) : Canon (State.recodeBlock x0 x1 x2) := by
  unfold State.recodeBlock
  split
  · refine canon_ite ?_ h0
    generalize x0.blockPlace (x0.region _) x2 = q
    obtain ⟨p, tp, hi⟩ := q
    refine canon_ite ?_ h0
    generalize x0.readBlock p tp hi = o
    cases o with
    | none => exact canon_State_touchBlock _ _ h0
    | some bs => exact canon_State_compressBlock _ _ _ _ _ _ _ h0
  · exact h0

theorem canon_execCensus (x0 : KCmd) (x1 : State) (h1 : Canon x1) : CanonR (execCensus x0 x1) := by
  unfold execCensus
  repeat' first
    | with_reducible
        first | assumption | intro _ | apply canon_State_recodeBlock | apply canon_State_touch | apply canon_State_wr
              | apply canon_State_done | apply canon_State_installCbk | apply canon_State_withInput
              | apply canon_foldl | apply canon_next_intro | apply canon_ite
    | split
    | dsimp only

theorem canon_State_updCore (x0 : State) (x1 : Nat) (x2 : TCore → TCore) (h0 : Canon x0)
    : Canon (State.updCore x0 x1 x2) := by
  unfold State.updCore
  repeat' with_reducible first | assumption | (simp only [canon_mk_iff]; apply canon_fold)

theorem canon_State_updCluster (x0 : State) (x1 : Nat) (x2 : Cluster → Cluster) (h0 : Canon x0)
    : Canon (State.updCluster x0 x1 x2) := by
  unfold State.updCluster
  repeat' with_reducible first | assumption | (simp only [canon_mk_iff]; apply canon_fold)

theorem canon_State_bumpCtr (x0 : State) (x1 x2 : Nat) (h0 : Canon x0) : Canon (State.bumpCtr x0 x1 x2) := by
  unfold State.bumpCtr
  repeat' with_reducible first | assumption | apply canon_State_updCore

theorem canon_State_updList (x0 : State) (x1 : Nat) (x2 : LList → LList) (h0 : Canon x0)
    : Canon (State.updList x0 x1 x2) := by
  unfold State.updList
  repeat' with_reducible first | assumption | (simp only [canon_mk_iff]; apply canon_fold)

theorem canon_State_updFrag (x0 : State) (x1 : Nat) (x2 : Frag → Frag) (h0 : Canon x0)
    : Canon (State.updFrag x0 x1 x2) := by
  unfold State.updFrag
  repeat' with_reducible first | assumption | (simp only [canon_mk_iff]; apply canon_fold)

theorem canon_State_updRow (x0 : State) (x1 : Nat) (x2 : RowReq → RowReq) (h0 : Canon x0)
    : Canon (State.updRow x0 x1 x2) := by
  unfold State.updRow
  repeat' with_reducible first | assumption | (simp only [canon_mk_iff]; apply canon_fold)

theorem canon_State_dropRow (x0 : State) (x1 : Nat) (h0 : Canon x0) : Canon (State.dropRow x0 x1) := by
  unfold State.dropRow
  repeat' with_reducible first | assumption | (simp only [canon_mk_iff]; apply canon_fold)

theorem canon_State_listFlags (x0 : State) (x1 : LList) (x2 : ArithFlags) (h0 : Canon x0)
    : Canon (State.listFlags x0 x1 x2) := by
  unfold State.listFlags
  repeat' with_reducible first | assumption | apply canon_State_tableFlags | apply canon_State_updList

theorem canon_State_rowSettle (x0 : State) (x1 : RowReq) (x2 : optParam Bool Bool.false) (h0 : Canon x0)
    : Canon (State.rowSettle x0 x1 x2) := by
  unfold State.rowSettle
  repeat' with_reducible
    first | assumption | apply canon_State_dropRow | apply canon_State_updFrag | apply canon_State_updRow
          | apply canon_ite

theorem canon_State_listFail (x0 : State) (x1 x2 : Nat) (h0 : Canon x0) : Canon (State.listFail x0 x1 x2) := by
  unfold State.listFail
  repeat' first
    | with_reducible
        first | assumption | intro _ | apply canon_State_tableCount | apply canon_State_rowSettle
              | apply canon_State_updList | apply canon_foldl | apply canon_ite
    | split

theorem canon_State_listTry (x0 : State) (x1 : Nat) (h0 : Canon x0) : Canon (State.listTry x0 x1) := by
  unfold State.listTry
  repeat' first
    | with_reducible
        first | assumption | apply canon_State_writeDA | apply canon_State_bumpCtr | apply canon_ite
              | (simp only [canon_mk_iff]; apply canon_fold)
    | split

theorem canon_State_outWrite (x0 : State) (x1 : LList) (x2 : Nat) (x3 : List Byte) (h0 : Canon x0)
    : Canon (State.outWrite x0 x1 x2 x3) := by
  unfold State.outWrite
  repeat' with_reducible
    first | assumption | apply canon_State_wr | apply canon_State_listFail | apply canon_ite

theorem canon_State_bagTry (x0 : State) (x1 x2 : Nat) (h0 : Canon x0) : Canon (State.bagTry x0 x1 x2) := by
  unfold State.bagTry
  repeat' first
    | with_reducible
        first | assumption | intro _ | apply canon_State_listFlags | apply canon_State_outWrite | apply canon_foldl
              | apply canon_ite | (simp only [canon_mk_iff]; apply canon_fold)
    | split

theorem canon_State_rowPool (x0 : State) (x1 : RowReq) (x2 : LList) (x3 : TD) (x4 : Option (List Byte))
    (h0 : Canon x0) : Canon (State.rowPool x0 x1 x2 x3 x4) := by
  unfold State.rowPool
  repeat' with_reducible
    first | assumption | apply canon_State_rowSettle | apply canon_State_updFrag
          | (simp only [canon_mk_iff]; apply canon_fold)

theorem canon_State_substitute (x0 : State) (x1 : RowReq) (x2 : LList) (x3 : TD) (h0 : Canon x0)
    : Canon (State.substitute x0 x1 x2 x3) := by
  unfold State.substitute
  repeat' with_reducible
    first | assumption | apply canon_State_tableCount | apply canon_State_rowSettle | apply canon_State_updFrag
          | apply canon_State_updList

theorem canon_State_cannotArrive (x0 : State) (x1 : RowReq) (x2 : LList) (x3 : TD) (h0 : Canon x0)
    : Canon (State.cannotArrive x0 x1 x2 x3) := by
  unfold State.cannotArrive
  repeat' with_reducible
    first | assumption | apply canon_State_rowSettle | apply canon_State_rowPool | apply canon_State_substitute
          | apply canon_State_listFail | apply canon_ite

theorem canon_State_rowArrived (x0 : State) (x1 : RowReq) (x2 : LList) (x3 : TD) (x4 : List Byte) (h0 : Canon x0)
    : Canon (State.rowArrived x0 x1 x2 x3 x4) := by
  unfold State.rowArrived
  repeat' with_reducible
    first | assumption | apply canon_State_tableCount | apply canon_State_rowSettle | apply canon_State_rowPool
          | apply canon_ite

theorem canon_State_listIssue (x0 : State) (x1 x2 : Nat) (x3 : List Byte) (h0 : Canon x0)
    : Canon (State.listIssue x0 x1 x2 x3) := by
  unfold State.listIssue
  repeat' with_reducible
    first | assumption | apply canon_State_listTry | (simp only [canon_mk_iff]; apply canon_fold)

theorem canon_State_newFrag (x0 : State) (x1 : Frag) (h0 : Canon x0) : Canon (State.newFrag x0 x1) := by
  unfold State.newFrag
  repeat' with_reducible first | assumption | (simp only [canon_mk_iff]; apply canon_fold)

theorem canon_State_addRow (x0 : State) (x1 : LList) (x2 x3 x4 : Nat) (x5 : W32) (x6 : RowRoute) (x7 : Nat)
    (x8 : Bool) (h0 : Canon x0) : Canon (State.addRow x0 x1 x2 x3 x4 x5 x6 x7 x8) := by
  unfold State.addRow
  repeat' first
    | with_reducible
        first | assumption | apply canon_State_updFrag | apply canon_State_newFrag
              | (simp only [canon_mk_iff]; apply canon_fold)
    | split

theorem canon_State_addPooled (x0 : State) (x1 : LList) (x2 : TD) (x3 x4 : Nat) (x5 : W32) (x6 : Option (List Byte))
    (h0 : Canon x0) : Canon (State.addPooled x0 x1 x2 x3 x4 x5 x6) := by
  unfold State.addPooled
  repeat' first
    | with_reducible first | assumption | apply canon_State_updFrag | apply canon_State_newFrag
    | split

theorem canon_State_missID (x0 : State) (x1 : LList) (x2 : TD) (x3 x4 : Nat) (x5 : W32) (x6 : Nat) (h0 : Canon x0)
    : Canon (State.missID x0 x1 x2 x3 x4 x5 x6) := by
  unfold State.missID
  repeat' with_reducible
    first | assumption | apply canon_State_tableCount | apply canon_State_addRow | apply canon_State_addPooled
          | apply canon_ite

end Sys2Proof.Machine
end

