-- ==== Sys2Proof/Laws/Canon3.lean ====
section
/-! SUPPORT. Part 3 of the lemmas that say, one a function, that it keeps `Canon`. -/
namespace Sys2Proof.Machine
open Sys2Proof
set_option maxRecDepth 4000

theorem canon_State_cisternRow (x0 : State) (x1 : LList) (x2 : TD) (x3 x4 x5 : Nat) (x6 : W32) (h0 : Canon x0)
    : Canon (State.cisternRow x0 x1 x2 x3 x4 x5 x6) := by
  unfold State.cisternRow
  repeat' with_reducible
    first | assumption | apply canon_State_touch | apply canon_State_tableCount | apply canon_State_addRow
          | apply canon_State_listFail | apply canon_State_missID | apply canon_State_updList
          | apply canon_State_addPooled | apply canon_ite

theorem canon_State_heatCount (x0 : State) (x1 x2 : Nat) (x3 : Option Nat) (h0 : Canon x0)
    : Canon (State.heatCount x0 x1 x2 x3) := by
  unfold State.heatCount
  repeat' with_reducible first | assumption | apply canon_ite | (simp only [canon_mk_iff]; apply canon_fold)

theorem canon_State_oneID (x0 : State) (x1 : LList) (x2 : TD) (x3 x4 x5 : Nat) (x6 : W32) (h0 : Canon x0) :
    Canon (State.oneID x0 x1 x2 x3 x4 x5 x6) := by
  have key : ∀ (s2 : State) (x : Xlated), Canon s2 → Canon (if (x == Xlated.null) = true then x0 else
      match x with
      | .row r =>
        if x2.tier = 0 then s2.cisternRow x1 x2 x3 x4 r x6
        else
          match s2.routeRow x1.cluster x1.table x2 r with
          | (rt, own) => s2.addRow x1 x3 x4 r x6 rt own false
      | .invalid => s2.missID x1 x2 x3 x4 x6 2
      | _ => s2.missID x1 x2 x3 x4 x6 1) := by
    intro s2 x h2
    refine canon_ite h0 ?_
    cases x with
    | row r =>
      refine canon_ite ?_ ?_
      · apply canon_State_cisternRow; exact h2
      · generalize s2.routeRow x1.cluster x1.table x2 r = q
        obtain ⟨rt, own⟩ := q
        apply canon_State_addRow
        exact h2
    | invalid => apply canon_State_missID; exact h2
    | null => apply canon_State_missID; exact h2
    | missing => apply canon_State_missID; exact h2
  unfold State.oneID
  apply key
  have h1 := canon_mk_lk (x0.tableCount x1.table 0 1) { x0.lk with ids := x0.lk.ids.upd 0 x1.cluster satInc }
    (canon_State_tableCount x0 x1.table 0 1 h0)
  exact canon_ite h1 (canon_State_heatCount _ _ _ _ h1)

theorem canon_State_sendFar (x0 : State) (x1 : RowReq) (h0 : Canon x0) : Canon (State.sendFar x0 x1) := by
  unfold State.sendFar
  repeat' with_reducible first | assumption | (simp only [canon_mk_iff]; apply canon_fold)

theorem canon_State_dispatchSend (x0 : State) (x1 : Nat) (h0 : Canon x0) : Canon (State.dispatchSend x0 x1) := by
  unfold State.dispatchSend
  repeat' with_reducible
    first | assumption | intro _ | apply canon_State_sendFar | apply canon_State_updRow | apply canon_foldl
          | apply canon_ite | (simp only [canon_mk_iff]; apply canon_fold)

theorem canon_State_lateRows (x0 : State) (x1 : Nat) (h0 : Canon x0) : Canon (State.lateRows x0 x1) := by
  unfold State.lateRows
  generalize x0.list? x1 = o
  cases o with
  | none => exact h0
  | some l =>
    refine canon_ite h0 (canon_ite ?_ (canon_ite ?_ h0))
    · apply canon_foldl _ h0
      intro st q hs
      generalize st.list? x1 = o
      cases o with
      | none => exact hs
      | some l' => apply canon_State_substitute; exact hs
    · apply canon_foldl
      · intro st q hs
        refine canon_ite ?_ hs
        apply canon_State_rowSettle; exact hs
      · apply canon_State_listFail; exact h0

theorem canon_State_bag (x0 : State) (x1 : LList) (h0 : Canon x0) : Canon (State.bag x0 x1) := by
  unfold State.bag
  repeat' first
    | with_reducible
        first | assumption | intro _ | apply canon_State_touch | apply canon_State_lateRows
              | apply canon_State_listFail | apply canon_State_oneID | apply canon_State_updList
              | apply canon_State_bagTry | apply canon_foldl | apply canon_ite
              | (simp only [canon_mk_iff]; apply canon_fold)
    | split

theorem canon_execDispatcherBag (x0 : Fin 100) (x1 : Nat) (x2 : State) (h2 : Canon x2)
    : CanonR (execDispatcherBag x0 x1 x2) := by
  unfold execDispatcherBag
  repeat' first
    | with_reducible
        first | assumption | apply canon_State_dispatchSend | apply canon_State_bag | apply canon_State_listTry
              | apply canon_next_intro | apply canon_iteR | (simp only [canon_mk_iff]; apply canon_fold)
    | split

theorem canon_State_spawnFrag (x0 : State) (x1 : RowReq) (h0 : Canon x0) : Canon (State.spawnFrag x0 x1) := by
  unfold State.spawnFrag
  repeat' first
    | with_reducible
        first | assumption | apply canon_State_updFrag | apply canon_State_newFrag | apply canon_State_updRow
              | apply canon_ite
    | split

theorem canon_State_forwardTo (x0 : State) (x1 : RowReq) (x2 : Nat) (x3 : RowRoute) (h0 : Canon x0)
    : Canon (State.forwardTo x0 x1 x2 x3) := by
  unfold State.forwardTo
  repeat' with_reducible
    first | assumption | apply canon_State_spawnFrag | apply canon_State_updRow | apply canon_ite

theorem canon_State_forwardFar (x0 : State) (x1 : RowReq) (x2 : Bool) (h0 : Canon x0)
    : Canon (State.forwardFar x0 x1 x2) := by
  unfold State.forwardFar
  repeat' with_reducible
    first | assumption | apply canon_State_sendFar | apply canon_State_spawnFrag | apply canon_State_updRow

theorem canon_State_poolTake (x0 : State) (x1 x2 x3 : Nat) (h0 : Canon x0) : CanonOP (State.poolTake x0 x1 x2 x3) := by
  unfold State.poolTake
  intro t e
  dsimp only at e
  split at e
  · cases e; apply canon_State_updBdStack; exact h0
  · split at e
    · cases e
    · cases e
      apply canon_State_updBdStack
      apply canon_State_writeDA
      exact h0

theorem canon_State_promoted (x0 x1 x2 x3 : Nat) (x4 : Bool × State) (h4 : Canon x4.2)
    : Canon (State.promoted x0 x1 x2 x3 x4).2 := by
  unfold State.promoted
  repeat' with_reducible first | assumption | apply canon_State_updBdStack | apply canon_ite2

theorem canon_State_promote (x0 : State) (x1 x2 : Nat) (x3 : TD) (x4 x5 : Nat) (h0 : Canon x0)
    : Canon (State.promote x0 x1 x2 x3 x4 x5).2 := by
  unfold State.promote
  repeat' first
    | with_reducible
        first | assumption | apply canon_State_poolTake | apply canon_State_updBdStack | apply canon_State_promoted
              | apply canon_State_fillStart | apply canon_ite2
    | split
    | with_reducible refine canon_of_someP (by assumption) ?_

theorem canon_State_rowRead (x0 : State) (x1 : RowReq) (x2 x3 : Nat) (h0 : Canon x0)
    : Canon (State.rowRead x0 x1 x2 x3) := by
  unfold State.rowRead
  repeat' with_reducible first | assumption | apply canon_State_countRow | apply canon_State_updRow

theorem canon_State_fountainMiss (x0 : State) (x1 : RowReq) (h0 : Canon x0) : Canon (State.fountainMiss x0 x1) := by
  unfold State.fountainMiss
  repeat' first
    | with_reducible
        first | assumption | apply canon_State_dropRow | apply canon_State_forwardFar | apply canon_State_forwardTo
              | apply canon_State_cannotArrive | apply canon_ite
    | split

theorem canon_State_fountainRow (x0 : RowReq) (x1 : Nat) (x2 : Option (Nat × DirEntry) × State) (h2 : Canon x2.2)
    : Canon (State.fountainRow x0 x1 x2) := by
  unfold State.fountainRow
  repeat' first
    | with_reducible
        first | assumption | apply canon_State_fountainMiss | apply canon_State_rowRead | apply canon_ite
    | split

theorem canon_State_hotRow (x0 : RowReq) (x1 x2 : Nat) (x3 : TD) (x4 : Option (Nat × DirEntry) × State)
    (h4 : Canon x4.2) : Canon (State.hotRow x0 x1 x2 x3 x4) := by
  unfold State.hotRow
  repeat' first
    | with_reducible
        first | assumption | apply canon_State_promote | apply canon_State_forwardFar | apply canon_State_rowRead
              | apply canon_ite
    | split

theorem canon_execStackRowRequest (x0 : Fin 12) (x1 : Nat) (x2 : State) (h2 : Canon x2)
    : CanonR (execStackRowRequest x0 x1 x2) := by
  unfold execStackRowRequest
  repeat' first
    | with_reducible
        first | assumption | apply canon_State_dirProbe | apply canon_State_fountainRow | apply canon_State_hotRow
              | apply canon_State_forwardFar | apply canon_State_rowRead | apply canon_State_forwardTo
              | apply canon_next_intro | apply canon_iteR
    | split
    | dsimp only

theorem canon_State_slotPoisoned (x0 : State) (x1 : Nat) (x2 : RowReq) (x3 : LList) (x4 : TD) (x5 : Nat)
    (h0 : Canon x0) : Canon (State.slotPoisoned x0 x1 x2 x3 x4 x5) := by
  unfold State.slotPoisoned
  repeat' first
    | with_reducible
        first | assumption | apply canon_State_stackFault | apply canon_State_forwardFar | apply canon_State_updRow
              | apply canon_State_cannotArrive | apply canon_State_dirDel | apply canon_ite
    | split

theorem canon_execLuRowArrival (x0 : Fin 12) (x1 : Nat) (x2 : State) (h2 : Canon x2)
    : CanonR (execLuRowArrival x0 x1 x2) := by
  unfold execLuRowArrival
  repeat' first
    | with_reducible
        first | assumption | apply canon_State_stackFault | apply canon_State_slotPoisoned | apply canon_State_touch
              | apply canon_State_rowArrived | apply canon_State_fillArrive | apply canon_State_dropRow
              | apply canon_State_listTry | apply canon_State_cannotArrive | apply canon_next_intro | apply canon_ite
              | apply canon_iteR | (simp only [canon_mk_iff]; apply canon_fold)
    | split
    | dsimp only

theorem canon_execLateTime (x0 : Nat) (x1 : State) (h1 : Canon x1) : CanonR (execLateTime x0 x1) := by
  unfold execLateTime
  repeat' first
    | with_reducible
        first | assumption | apply canon_State_lateRows | apply canon_State_updList | apply canon_State_listTry
              | apply canon_next_intro
    | split

theorem canon_State_absorb (x0 : State) (x1 : LList) (x2 : Frag) (h0 : Canon x0) : Canon (State.absorb x0 x1 x2) := by
  unfold State.absorb
  repeat' with_reducible
    first | assumption | apply canon_State_listFlags | apply canon_State_outWrite | apply canon_ite
          | (simp only [canon_mk_iff]; apply canon_fold)

theorem canon_State_tearLists (x0 : State) (x1 : Nat → Bool) (h0 : Canon x0) : Canon (State.tearLists x0 x1) := by
  unfold State.tearLists
  repeat' with_reducible
    first | assumption | intro _ | apply canon_State_rowSettle | apply canon_State_updList | apply canon_State_listTry
          | apply canon_foldl

theorem canon_State_cutLists (x0 : State) (x1 : Nat → Bool) (h0 : Canon x0) : Canon (State.cutLists x0 x1) := by
  unfold State.cutLists
  repeat' with_reducible first | assumption | (simp only [canon_mk_iff]; apply canon_fold)

theorem canon_State_timeFault (x0 : State) (x1 x2 : Nat) (x3 : optParam Nat 0) (h0 : Canon x0)
    : Canon (State.timeFault x0 x1 x2 x3) := by
  unfold State.timeFault
  repeat' with_reducible first | assumption | apply canon_State_fault

theorem canon_State_stepTime (x0 : State) (x1 : Nat) (h0 : Canon x0) : Canon (State.stepTime x0 x1) := by
  unfold State.stepTime
  repeat' with_reducible first | assumption | (simp only [canon_mk_iff]; apply canon_fold)

theorem canon_execRefClockLoss (x0 : State) (h0 : Canon x0) : CanonR (execRefClockLoss x0) := by
  unfold execRefClockLoss
  repeat' with_reducible
    first | assumption | apply canon_State_timeFault | apply canon_State_irqEvent | apply canon_next_intro
          | apply canon_ite | apply canon_iteR | (simp only [canon_mk_iff]; apply canon_fold)

theorem canon_execPllRelock (x0 : State) (h0 : Canon x0) : CanonR (execPllRelock x0) := by
  unfold execPllRelock
  repeat' with_reducible
    first | assumption | apply canon_next_intro | apply canon_iteR | (simp only [canon_mk_iff]; apply canon_fold)

theorem canon_State_applyTimeStep (x0 : State) (x1 : Nat) (h0 : Canon x0) : Canon (State.applyTimeStep x0 x1) := by
  unfold State.applyTimeStep
  repeat' first
    | with_reducible
        first | assumption | apply canon_State_stepTime | apply canon_ite
              | (simp only [canon_mk_iff]; apply canon_fold)
    | split

theorem canon_execHubTimeStep (x0 : AccessPath) (x1 : W32) (x2 : State) (h2 : Canon x2)
    : CanonR (execHubTimeStep x0 x1 x2) := by
  unfold execHubTimeStep
  repeat' with_reducible
    first | assumption | intro _ | apply canon_State_applyTimeStep | apply canon_State_onCsr | apply canon_next_intro

theorem canon_execPairStepTime (x0 : State) (h0 : Canon x0) : CanonR (execPairStepTime x0) := by
  unfold execPairStepTime
  repeat' first
    | with_reducible
        first | assumption | apply canon_State_stepTime | apply canon_next_intro | apply canon_iteR
              | (simp only [canon_mk_iff]; apply canon_fold)
    | split

theorem canon_execTimeMessageSend (x0 : State) (h0 : Canon x0) : CanonR (execTimeMessageSend x0) := by
  unfold execTimeMessageSend
  repeat' with_reducible
    first | assumption | apply canon_State_emit | apply canon_next_intro | apply canon_iteR
          | (simp only [canon_mk_iff]; apply canon_fold)

theorem canon_State_losePairLock (x0 : State) (h0 : Canon x0) : Canon (State.losePairLock x0) := by
  unfold State.losePairLock
  repeat' with_reducible
    first | assumption | apply canon_State_timeFault | apply canon_State_irqEvent | apply canon_ite
          | (simp only [canon_mk_iff]; apply canon_fold)

theorem canon_State_followTime (x0 : State) (x1 : Nat) (h0 : Canon x0) : Canon (State.followTime x0 x1) := by
  unfold State.followTime
  repeat' with_reducible first | assumption | apply canon_ite | (simp only [canon_mk_iff]; apply canon_fold)

theorem canon_execTimeMessage (x0 : W64) (x1 : W32) (x2 : Option (W32 × W64)) (x3 : Bool) (x4 : State)
    (h4 : Canon x4) : CanonR (execTimeMessage x0 x1 x2 x3 x4) := by
  unfold execTimeMessage
  repeat' first
    | with_reducible
        first | assumption | apply canon_State_followTime | apply canon_State_losePairLock | apply canon_next_intro
              | apply canon_iteR | (simp only [canon_mk_iff]; apply canon_fold)
    | split

theorem canon_execPairLockLoss (x0 : State) (h0 : Canon x0) : CanonR (execPairLockLoss x0) := by
  unfold execPairLockLoss
  repeat' with_reducible
    first | assumption | apply canon_State_losePairLock | apply canon_next_intro | apply canon_iteR

theorem canon_execPaceSample (x0 : Fin 5) (x1 : List W16) (x2 : State) (h2 : Canon x2)
    : CanonR (execPaceSample x0 x1 x2) := by
  unfold execPaceSample
  repeat' first
    | with_reducible
        first | assumption | apply canon_next_intro | (simp only [canon_mk_iff]; apply canon_fold)
    | split

theorem canon_State_writePaceMin (x0 : State) (x1 : Nat) (h0 : Canon x0) : Canon (State.writePaceMin x0 x1) := by
  unfold State.writePaceMin
  repeat' with_reducible first | assumption | (simp only [canon_mk_iff]; apply canon_fold)

theorem canon_execPwrPaceMinWrite (x0 : AccessPath) (x1 : Fin 5) (x2 : State) (h2 : Canon x2)
    : CanonR (execPwrPaceMinWrite x0 x1 x2) := by
  unfold execPwrPaceMinWrite
  repeat' with_reducible
    first | assumption | intro _ | apply canon_State_onCsr | apply canon_State_writePaceMin | apply canon_next_intro

theorem canon_State_clearMapped (x0 : State) (h0 : Canon x0) : Canon (State.clearMapped x0) := by
  unfold State.clearMapped
  repeat' with_reducible first | assumption | (simp only [canon_mk_iff]; apply canon_fold)

theorem canon_State_layOut (x0 : State) (h0 : Canon x0) : Canon (State.layOut x0) := by
  unfold State.layOut
  repeat' with_reducible first | assumption | (simp only [canon_mk_iff]; apply canon_fold)

theorem canon_State_applyStraps (x0 : State) (h0 : Canon x0) : Canon (State.applyStraps x0) := by
  unfold State.applyStraps
  repeat' with_reducible
    first | assumption | apply canon_State_timeFault | apply canon_ite | (simp only [canon_mk_iff]; apply canon_fold)

theorem canon_State_applyBifur (x0 : State) (h0 : Canon x0) : Canon (State.applyBifur x0) := by
  unfold State.applyBifur
  repeat' with_reducible first | assumption | (simp only [canon_mk_iff]; apply canon_fold)

theorem canon_State_bootStart (x0 : State) (h0 : Canon x0) : Canon (State.bootStart x0) := by
  unfold State.bootStart
  repeat' with_reducible
    first | assumption | apply canon_State_clearMapped | apply canon_State_applyBifur | apply canon_State_timeFault
          | apply canon_State_layOut | apply canon_State_applyStraps | apply canon_ite
          | (simp only [canon_mk_iff]; apply canon_fold)

theorem canon_State_coldKept (x0 : State) (h0 : Canon x0) : Canon (State.coldKept x0) := by
  obtain ⟨-, b, c, d, e⟩ := canon_reset
  exact ⟨wf_hostOnly h0.1, b, c, d, e⟩

theorem canon_State_deviceKept (x0 : State) (x1 : Bool) (h0 : Canon x0) : Canon (State.deviceKept x0 x1) := by
  have h : Canon x0.coldKept := canon_State_coldKept _ h0
  obtain ⟨a, b, c, d, e⟩ := h
  exact ⟨a, b, c, d, e⟩

theorem canon_State_countFresh (x0 : State) (x1 : Nat) (h0 : Canon x0) : Canon (State.countFresh x0 x1) := by
  unfold State.countFresh
  repeat' with_reducible first | assumption | (simp only [canon_mk_iff]; apply canon_fold)

theorem canon_State_countSource (x0 : State) (x1 : Nat) (h0 : Canon x0) : Canon (State.countSource x0 x1) := by
  unfold State.countSource
  repeat' with_reducible
    first | assumption | apply canon_State_countFresh | apply canon_ite | (simp only [canon_mk_iff]; apply canon_fold)

theorem canon_State_deviceReset (x0 : State) (x1 x2 x3 : Nat) (x4 : ResetState → ResetState) (h0 : Canon x0) (h4 : RstOk x4) :
    Canon (State.deviceReset x0 x1 x2 x3 x4) := by
  unfold State.deviceReset
  extract_lets s src s1 s2 src2 s3
  have hs : Canon s := canon_State_countSource _ _ h0
  have h1 : Canon s1 := canon_ite hs (canon_State_fault _ _ hs)
  have h2 : Canon s2 := canon_State_deviceKept _ _ h1
  have h3 : Canon s3 := by
    obtain ⟨a, b, c, d, e⟩ := h2
    exact ⟨a, b, h4 _ c, d, e⟩
  clear_value s3
  exact canon_ite h0 (canon_ite h3 (canon_State_bootStart _ h3))

theorem canon_State_coldReset (x0 : State) (h0 : Canon x0) : Canon (State.coldReset x0) := by
  unfold State.coldReset
  repeat' with_reducible
    first | assumption | apply canon_State_countFresh | apply canon_State_coldKept | apply canon_State_bootStart
          | apply canon_ite | (simp only [canon_mk_iff]; apply canon_fold)

theorem canon_State_updUu (x0 : State) (x1 : Nat) (x2 : UuStack → UuStack) (h0 : Canon x0)
    : Canon (State.updUu x0 x1 x2) := by
  unfold State.updUu
  repeat' with_reducible first | assumption | (simp only [canon_mk_iff]; apply canon_fold)

theorem canon_State_journal (x0 : State) (x1 x2 : Nat) (x3 : UpdReq) (x4 : List Byte) (h0 : Canon x0)
    : Canon (State.journal x0 x1 x2 x3 x4) := by
  unfold State.journal
  repeat' with_reducible first | assumption | apply canon_State_writeDA | apply canon_State_updUu

theorem canon_State_updPoison (x0 : State) (x1 x2 x3 : Nat) (h0 : Canon x0)
    : Canon (State.updPoison x0 x1 x2 x3) := by
  unfold State.updPoison
  repeat' with_reducible first | assumption | apply canon_State_stackFault

theorem canon_State_breakTable (x0 : State) (x1 : TD) (h0 : Canon x0) : Canon (State.breakTable x0 x1) := by
  unfold State.breakTable
  repeat' with_reducible first | assumption | apply canon_State_breakModel | apply canon_ite

theorem canon_State_applied (x0 : State) (x1 : UpdReq) (x2 : TD) (x3 x4 x5 : Nat) (x6 : Option (List Byte))
    (x7 x8 : Bool) (x9 : List Byte) (x10 : List W32) (h0 : Canon x0)
    : Canon (State.applied x0 x1 x2 x3 x4 x5 x6 x7 x8 x9 x10) := by
  unfold State.applied
  repeat' with_reducible
    first | assumption | apply canon_State_breakTable | apply canon_State_writeDA | apply canon_State_updPoison
          | apply canon_State_updUu | apply canon_State_digAdd | apply canon_State_mirror | apply canon_ite

theorem canon_State_applyRow (x0 : State) (x1 : UpdReq) (x2 : Bool) (x3 : Option (List Byte)) (x4 x5 : Bool)
    (x6 x7 : List Byte) (x8 : Nat) (h0 : Canon x0) : Canon (State.applyRow x0 x1 x2 x3 x4 x5 x6 x7 x8).2 := by
  unfold State.applyRow
  repeat' with_reducible
    first | assumption | apply canon_State_journal | apply canon_State_applied | apply canon_State_writeRow
          | apply canon_ite2 | (simp only [canon_mk_iff]; apply canon_fold)

theorem canon_State_applyUpdate (x0 : State) (x1 : UpdReq) (x2 : Option (List Byte)) (h0 : Canon x0)
    : Canon (State.applyUpdate x0 x1 x2).2 := by
  unfold State.applyUpdate
  repeat' first
    | with_reducible
        first | assumption | apply canon_State_applyRow | apply canon_State_breakTable | apply canon_State_updPoison
              | apply canon_ite2
    | split
    | dsimp only

theorem canon_State_intFault (x0 : State) (x1 : Nat) (x2 x3 : optParam (List Byte) []) (x4 : optParam Nat 0)
    (h0 : Canon x0) : Canon (State.intFault x0 x1 x2 x3 x4) := by
  unfold State.intFault
  repeat' with_reducible first | assumption | apply canon_State_fault

theorem canon_State_putSnapshot (x0 : State) (x1 : Snapshot) (h0 : Canon x0) : Canon (State.putSnapshot x0 x1) := by
  unfold State.putSnapshot
  repeat' with_reducible
    first | assumption | apply canon_State_writeDA | apply canon_State_intFault | apply canon_ite
          | (simp only [canon_mk_iff]; apply canon_fold)

theorem canon_State_journalRelease (x0 : State) (x1 : Nat) (h0 : Canon x0) : Canon (State.journalRelease x0 x1) := by
  unfold State.journalRelease
  repeat' with_reducible first | assumption | (simp only [canon_mk_iff]; apply canon_fold)

theorem canon_State_sendCommit (x0 : State) (x1 : Nat) (x2 : Option Snapshot) (h0 : Canon x0)
    : Canon (State.sendCommit x0 x1 x2) := by
  unfold State.sendCommit
  repeat' with_reducible
    first | assumption | intro _ | apply canon_State_emit | apply canon_State_mirror | apply canon_foldl
          | apply canon_ite | (simp only [canon_mk_iff]; apply canon_fold)

theorem canon_State_cut (x0 : State) (x1 : Nat) (x2 : Option Snapshot) (h0 : Canon x0)
    : Canon (State.cut x0 x1 x2) := by
  unfold State.cut
  repeat' with_reducible
    first | assumption | intro _ | apply canon_State_sendCommit | apply canon_State_updPart | apply canon_foldl
          | apply canon_ite | (simp only [canon_mk_iff]; apply canon_fold)

theorem canon_State_cutDone (x0 : State) (x1 : Nat) (h0 : Canon x0) : Canon (State.cutDone x0 x1) := by
  unfold State.cutDone
  repeat' with_reducible
    first | assumption | intro _ | apply canon_State_sendCommit | apply canon_foldl | apply canon_ite
          | (simp only [canon_mk_iff]; apply canon_fold)

theorem canon_State_closeStart (x0 : State) (h0 : Canon x0) : Canon (State.closeStart x0) := by
  unfold State.closeStart
  repeat' with_reducible first | assumption | (simp only [canon_mk_iff]; apply canon_fold)

theorem canon_State_closeEpoch (x0 : State) (x1 : Option (Nat × W16)) (h0 : Canon x0)
    : Canon (State.closeEpoch x0 x1) := by
  unfold State.closeEpoch
  repeat' first
    | with_reducible
        first | assumption | apply canon_State_closeStart | apply canon_ite
              | (simp only [canon_mk_iff]; apply canon_fold)
    | split

theorem canon_State_epochClosed (x0 : State) (x1 : Nat) (h0 : Canon x0) : Canon (State.epochClosed x0 x1) := by
  unfold State.epochClosed
  repeat' with_reducible
    first | assumption | intro _ | apply canon_State_journalRelease | apply canon_State_closeStart
          | apply canon_State_complete | apply canon_State_putSnapshot | apply canon_State_cut | apply canon_foldl
          | apply canon_ite | apply canon_ite2 | (simp only [canon_mk_iff]; apply canon_fold)

theorem canon_State_epochTimer (x0 : State) (h0 : Canon x0) : Canon (State.epochTimer x0) := by
  unfold State.epochTimer
  repeat' with_reducible first | assumption | apply canon_State_closeEpoch | apply canon_ite

theorem canon_execEpochTimer (x0 : State) (h0 : Canon x0) : CanonR (execEpochTimer x0) := by
  unfold execEpochTimer
  repeat' with_reducible first | assumption | apply canon_State_epochTimer | apply canon_next_intro

theorem canon_execUpdEpoch (x0 : KCmd) (x1 : State) (h1 : Canon x1) : CanonR (execUpdEpoch x0 x1) := by
  unfold execUpdEpoch
  repeat' with_reducible
    first | assumption | apply canon_State_closeEpoch | apply canon_next_intro | apply canon_iteR

theorem canon_execEpochMarkerReached (x0 : Fin 96) (x1 : State) (h1 : Canon x1)
    : CanonR (execEpochMarkerReached x0 x1) := by
  unfold execEpochMarkerReached
  repeat' first
    | with_reducible
        first | assumption | apply canon_State_epochClosed | apply canon_next_intro | apply canon_ite
              | apply canon_iteR | (simp only [canon_mk_iff]; apply canon_fold)
    | split

theorem canon_State_setHandle (x0 : State) (x1 x2 x3 : Nat) (x4 : HandleSt) (h0 : Canon x0)
    : Canon (State.setHandle x0 x1 x2 x3 x4) := by
  unfold State.setHandle
  repeat' first
    | with_reducible first | assumption | (simp only [canon_mk_iff]; apply canon_fold)
    | split
    | dsimp only

theorem canon_State_batchReport (x0 : State) (x1 : Batch) (h0 : Canon x0) : Canon (State.batchReport x0 x1) := by
  unfold State.batchReport
  repeat' first
    | with_reducible
        first | assumption | apply canon_State_complete | apply canon_State_setHandle | apply canon_State_devWrite
    | split

theorem canon_State_batchAccept (x0 : State) (x1 : BatchOrigin) (x2 x3 : Nat) (x4 : List Byte) (h0 : Canon x0)
    : Canon (State.batchAccept x0 x1 x2 x3 x4) := by
  unfold State.batchAccept
  repeat' with_reducible
    first | assumption | apply canon_State_batchReport | apply canon_ite
          | (simp only [canon_mk_iff]; apply canon_fold)

theorem canon_State_swapGo (x0 : State) (h0 : Canon x0) : Canon (State.swapGo x0) := by
  unfold State.swapGo
  repeat' with_reducible
    first | assumption | apply canon_State_closeEpoch | apply canon_ite | (simp only [canon_mk_iff]; apply canon_fold)

theorem canon_execUpdBatch (x0 : KCmd) (x1 : State) (h1 : Canon x1) : CanonR (execUpdBatch x0 x1) := by
  unfold execUpdBatch
  repeat' with_reducible
    first | assumption | intro _ | apply canon_State_irqIf | apply canon_State_batchAccept | apply canon_State_done
          | apply canon_State_withInput | apply canon_next_intro | apply canon_iteR
          | (simp only [canon_mk_iff]; apply canon_fold)

theorem canon_State_updBatch (x0 : State) (x1 : Nat) (x2 : Batch → Batch) (h0 : Canon x0)
    : Canon (State.updBatch x0 x1 x2) := by
  unfold State.updBatch
  repeat' first
    | with_reducible first | assumption | (simp only [canon_mk_iff]; apply canon_fold)
    | split

theorem canon_State_setRec (x0 : State) (x1 : PendRec) (h0 : Canon x0) : Canon (State.setRec x0 x1) := by
  unfold State.setRec
  repeat' with_reducible first | assumption | (simp only [canon_mk_iff]; apply canon_fold)

theorem canon_State_copyReached (x0 : State) (x1 : PendRec) (h0 : Canon x0) : Canon (State.copyReached x0 x1) := by
  unfold State.copyReached
  repeat' with_reducible first | assumption | (simp only [canon_mk_iff]; apply canon_fold)

theorem canon_State_copyPlace (x0 : State) (x1 x2 : Nat) (h0 : Canon x0) : Canon (State.copyPlace x0 x1 x2) := by
  unfold State.copyPlace
  repeat' with_reducible
    first | assumption | apply canon_State_copyReached | apply canon_State_mirror | apply canon_ite
          | (simp only [canon_mk_iff]; apply canon_fold)

theorem canon_State_stepRec (x0 : State) (x1 : Nat) (h0 : Canon x0) : Canon (State.stepRec x0 x1) := by
  unfold State.stepRec
  repeat' first
    | with_reducible
        first | assumption | apply canon_State_irqIf | apply canon_State_applyUpdate | apply canon_State_setRec
              | apply canon_State_copyReached | apply canon_State_updBatch | apply canon_ite
              | (simp only [canon_mk_iff]; apply canon_fold)
    | split
    | dsimp only

theorem canon_State_batchStop (x0 : State) (x1 x2 : Nat) (h0 : Canon x0) : Canon (State.batchStop x0 x1 x2) := by
  unfold State.batchStop
  repeat' with_reducible first | assumption | apply canon_State_updBatch

theorem canon_State_batchFault (x0 : State) (x1 : Batch) (h0 : Canon x0) : Canon (State.batchFault x0 x1) := by
  unfold State.batchFault
  repeat' first
    | with_reducible first | assumption | apply canon_State_fault | apply canon_State_queueFault
    | split

theorem canon_State_takeRecord (x0 : State) (x1 : Nat) (x2 : Batch) (h0 : Canon x0)
    : Canon (State.takeRecord x0 x1 x2) := by
  unfold State.takeRecord
  repeat' with_reducible
    first | assumption | apply canon_State_touch | apply canon_State_stepRec | apply canon_State_updBatch
          | apply canon_State_mirror | apply canon_State_batchFault | apply canon_State_batchStop | apply canon_ite
          | (simp only [canon_mk_iff]; apply canon_fold)

theorem canon_execUpdateRecord (x0 : Nat) (x1 : State) (h1 : Canon x1) : CanonR (execUpdateRecord x0 x1) := by
  unfold execUpdateRecord
  repeat' first
    | with_reducible
        first | assumption | apply canon_State_stepRec | apply canon_State_recall | apply canon_State_takeRecord
              | apply canon_next_intro | apply canon_iteR
    | split
    | with_reducible refine canon_of_some (by assumption) ?_
    | dsimp only

theorem canon_execUpdateReadComplete (x0 : Nat) (x1 : State) (h1 : Canon x1)
    : CanonR (execUpdateReadComplete x0 x1) := by
  unfold execUpdateReadComplete
  repeat' first
    | with_reducible
        first | assumption | apply canon_State_stepRec | apply canon_State_setRec | apply canon_next_intro
              | (simp only [canon_mk_iff]; apply canon_fold)
    | split
    | dsimp only

theorem canon_execJournalSpaceFreed (x0 : Fin 12) (x1 : State) (h1 : Canon x1)
    : CanonR (execJournalSpaceFreed x0 x1) := by
  unfold execJournalSpaceFreed
  repeat' with_reducible
    first | assumption | intro _ | apply canon_State_stepRec | apply canon_foldl | apply canon_next_intro

theorem canon_State_flipBegin (x0 : State) (x1 : Flip) (h0 : Canon x0) : Canon (State.flipBegin x0 x1) := by
  unfold State.flipBegin
  repeat' with_reducible
    first | assumption | apply canon_State_mirror | (simp only [canon_mk_iff]; apply canon_fold)

theorem canon_execBatchComplete (x0 : Nat) (x1 : State) (h1 : Canon x1) : CanonR (execBatchComplete x0 x1) := by
  unfold execBatchComplete
  repeat' first
    | with_reducible
        first | assumption | apply canon_State_flipBegin | apply canon_State_swapGo | apply canon_State_batchReport
              | apply canon_State_closeEpoch | apply canon_State_updBatch | apply canon_next_intro | apply canon_ite
              | apply canon_iteR | (simp only [canon_mk_iff]; apply canon_fold)
    | split

theorem canon_execTblFlip (x0 : KCmd) (x1 : State) (h1 : Canon x1) : CanonR (execTblFlip x0 x1) := by
  unfold execTblFlip
  repeat' with_reducible
    first | assumption | apply canon_State_flipBegin | apply canon_State_done | apply canon_next_intro
          | apply canon_iteR

theorem canon_execFlipHoldDrained (x0 : Nat) (x1 : State) (h1 : Canon x1) : CanonR (execFlipHoldDrained x0 x1) := by
  unfold execFlipHoldDrained
  repeat' first
    | with_reducible
        first | assumption | apply canon_next_intro | apply canon_iteR | (simp only [canon_mk_iff]; apply canon_fold)
    | split

theorem canon_State_releaseHeld (x0 : State) (h0 : Canon x0) : Canon (State.releaseHeld x0) := by
  unfold State.releaseHeld
  repeat' with_reducible first | assumption | (simp only [canon_mk_iff]; apply canon_fold)

theorem canon_State_flipMarkers (x0 : State) (x1 : Nat) (h0 : Canon x0) : Canon (State.flipMarkers x0 x1) := by
  unfold State.flipMarkers
  repeat' first
    | with_reducible
        first | assumption | apply canon_State_complete | apply canon_State_releaseHeld | apply canon_State_updBatch
              | apply canon_ite | (simp only [canon_mk_iff]; apply canon_fold)
    | split

theorem canon_execMarkerRoundComplete (x0 : Fin 3) (x1 : Nat) (x2 : State) (h2 : Canon x2)
    : CanonR (execMarkerRoundComplete x0 x1 x2) := by
  unfold execMarkerRoundComplete
  repeat' first
    | with_reducible
        first | assumption | apply canon_State_moveMarkers | apply canon_State_ftnDropMarkers
              | apply canon_State_flipMarkers | apply canon_next_intro
    | split

theorem canon_execDgstRebuild (x0 : KCmd) (x1 : State) (h1 : Canon x1) : CanonR (execDgstRebuild x0 x1) := by
  unfold execDgstRebuild
  repeat' with_reducible
    first | assumption | apply canon_State_releaseHeld | apply canon_State_done | apply canon_State_digAdd
          | apply canon_next_intro | apply canon_ite | apply canon_iteR | (simp only [canon_mk_iff]; apply canon_fold)

theorem canon_State_writeUpdCtl (x0 : State) (x1 : W32) (h0 : Canon x0) : Canon (State.writeUpdCtl x0 x1) := by
  unfold State.writeUpdCtl
  repeat' with_reducible
    first | assumption | apply canon_State_epochTimer | (simp only [canon_mk_iff]; apply canon_fold)

theorem canon_execHubUpdCtlWrite (x0 : AccessPath) (x1 : W32) (x2 : State) (h2 : Canon x2)
    : CanonR (execHubUpdCtlWrite x0 x1 x2) := by
  unfold execHubUpdCtlWrite
  repeat' with_reducible
    first | assumption | intro _ | apply canon_State_writeUpdCtl | apply canon_State_onCsr | apply canon_next_intro

theorem canon_State_writeDgs (x0 : State) (x1 : W32) (h0 : Canon x0) : Canon (State.writeDgs x0 x1) := by
  unfold State.writeDgs
  repeat' with_reducible first | assumption | apply canon_ite | (simp only [canon_mk_iff]; apply canon_fold)

theorem canon_execHubDgsWrite (x0 : AccessPath) (x1 : W32) (x2 : State) (h2 : Canon x2)
    : CanonR (execHubDgsWrite x0 x1 x2) := by
  unfold execHubDgsWrite
  repeat' with_reducible
    first | assumption | intro _ | apply canon_State_onCsr | apply canon_State_writeDgs | apply canon_next_intro

theorem canon_State_writeJnl (x0 : State) (x1 : Nat) (x2 : W32) (h0 : Canon x0)
    : Canon (State.writeJnl x0 x1 x2) := by
  unfold State.writeJnl
  repeat' with_reducible
    first | assumption | apply canon_State_updUu | apply canon_ite | (simp only [canon_mk_iff]; apply canon_fold)

theorem canon_execUuJnlWrite (x0 : AccessPath) (x1 : Fin 12) (x2 : W32) (x3 : State) (h3 : Canon x3)
    : CanonR (execUuJnlWrite x0 x1 x2 x3) := by
  unfold execUuJnlWrite
  repeat' with_reducible
    first | assumption | intro _ | apply canon_State_writeJnl | apply canon_State_onCsr | apply canon_next_intro

theorem canon_State_updAst (x0 : State) (x1 : Nat) (x2 : AstEntry → AstEntry) (h0 : Canon x0)
    : Canon (State.updAst x0 x1 x2) := by
  unfold State.updAst
  repeat' with_reducible first | assumption | (simp only [canon_mk_iff]; apply canon_fold)

theorem canon_State_astDone (x0 : State) (x1 x2 : Nat) (x3 : Nstat) (h0 : Canon x0)
    : Canon (State.astDone x0 x1 x2 x3) := by
  unfold State.astDone
  repeat' with_reducible
    first | assumption | apply canon_State_updAst | apply canon_State_updPart | apply canon_ite

theorem canon_State_stopBit (x0 : State) (x1 : Nat) (h0 : Canon x0) : Canon (State.stopBit x0 x1).2 := by
  unfold State.stopBit
  repeat' with_reducible first | assumption | apply canon_State_drawBit | apply canon_ite2

theorem canon_State_sbEntry (x0 : State) (x1 x2 : Nat) (x3 : Nstat) (x4 : Nat) (h0 : Canon x0)
    : Canon (State.sbEntry x0 x1 x2 x3 x4) := by
  unfold State.sbEntry
  repeat' with_reducible
    first | assumption | apply canon_State_updAst | apply canon_State_stopBit | apply canon_State_astDone
          | apply canon_ite

theorem canon_State_sbFinish (x0 : State) (x1 : Nat) (x2 : SbList) (x3 : Nstat) (h0 : Canon x0)
    : Canon (State.sbFinish x0 x1 x2 x3) := by
  unfold State.sbFinish
  repeat' with_reducible
    first | assumption | intro _ | apply canon_State_sbEntry | apply canon_State_updPart | apply canon_foldl

theorem canon_State_wlReport (x0 : State) (x1 : WorkList) (x2 : Nstat) (h0 : Canon x0)
    : Canon (State.wlReport x0 x1 x2) := by
  unfold State.wlReport
  repeat' first
    | with_reducible
        first | assumption | apply canon_State_setHandle | apply canon_State_updPart | apply canon_ite
    | split

theorem canon_State_wlLess (x0 : State) (x1 x2 : Nat) (x3 : Bool) (h0 : Canon x0)
    : Canon (State.wlLess x0 x1 x2 x3) := by
  unfold State.wlLess
  repeat' first
    | with_reducible
        first | assumption | apply canon_State_wlReport | apply canon_ite
              | (simp only [canon_mk_iff]; apply canon_fold)
    | split

theorem canon_State_wlTear (x0 : State) (x1 : Nat) (x2 : Nstat) (h0 : Canon x0) : Canon (State.wlTear x0 x1 x2) := by
  unfold State.wlTear
  repeat' first
    | with_reducible
        first | assumption | apply canon_State_wlReport | (simp only [canon_mk_iff]; apply canon_fold)
    | split

theorem canon_State_mapCores (x0 : State) (x1 : Nat → Bool) (x2 : TCore → TCore) (h0 : Canon x0)
    : Canon (State.mapCores x0 x1 x2) := by
  unfold State.mapCores
  repeat' with_reducible first | assumption | (simp only [canon_mk_iff]; apply canon_fold)

theorem canon_State_dropSignals (x0 : State) (x1 : Nat → Bool) (h0 : Canon x0) : Canon (State.dropSignals x0 x1) := by
  unfold State.dropSignals
  repeat' with_reducible first | assumption | (simp only [canon_mk_iff]; apply canon_fold)

theorem canon_State_dropHist (x0 : State) (x1 : Nat → Bool) (h0 : Canon x0) : Canon (State.dropHist x0 x1) := by
  unfold State.dropHist
  repeat' with_reducible first | assumption | (simp only [canon_mk_iff]; apply canon_fold)

theorem canon_State_clearTags (x0 : State) (x1 : Nat → Bool) (h0 : Canon x0) : Canon (State.clearTags x0 x1) := by
  unfold State.clearTags
  repeat' with_reducible first | assumption | (simp only [canon_mk_iff]; apply canon_fold)

theorem canon_State_unsave (x0 : State) (x1 : Nat) (h0 : Canon x0) : Canon (State.unsave x0 x1) := by
  unfold State.unsave
  repeat' first
    | with_reducible first | assumption | (simp only [canon_mk_iff]; apply canon_fold)
    | split

theorem canon_State_clearClusters (x0 : State) (x1 : Nat → Bool) (h0 : Canon x0)
    : Canon (State.clearClusters x0 x1) := by
  unfold State.clearClusters
  repeat' with_reducible
    first | assumption | apply canon_State_dropSignals | apply canon_State_clearTags | apply canon_State_dropHist
          | apply canon_State_cutLists | refine wf_filter ?_ | refine canon_cells ?_
          | (simp only [canon_mk_iff]; refine canonParts_cells ?_ ?_)

theorem canon_State_clearStacks (x0 : State) (x1 : Nat → Bool) (h0 : Canon x0) : Canon (State.clearStacks x0 x1) := by
  unfold State.clearStacks
  repeat' with_reducible first | assumption | (simp only [canon_mk_iff]; apply canon_fold)

theorem canon_State_idleRequest (x0 : State) (x1 : Nat) (h0 : Canon x0) : Canon (State.idleRequest x0 x1) := by
  unfold State.idleRequest
  repeat' with_reducible first | assumption | (simp only [canon_mk_iff]; apply canon_fold)

theorem canon_State_idleEnd (x0 : State) (x1 : Nat) (h0 : Canon x0) : Canon (State.idleEnd x0 x1) := by
  unfold State.idleEnd
  repeat' with_reducible first | assumption | (simp only [canon_mk_iff]; apply canon_fold)

theorem canon_State_countBlock (x0 : State) (x1 : Nat) (h0 : Canon x0) : Canon (State.countBlock x0 x1) := by
  unfold State.countBlock
  repeat' with_reducible first | assumption | (simp only [canon_mk_iff]; apply canon_fold)

theorem canon_State_recovery (x0 : State) (x1 x2 x3 x4 : Nat) (h0 : Canon x0)
    : Canon (State.recovery x0 x1 x2 x3 x4) := by
  unfold State.recovery
  repeat' with_reducible first | assumption | apply canon_State_fault

end Sys2Proof.Machine
end

