-- ==== Sys2Proof/Laws/Canon4.lean ====
section
/-! SUPPORT. Part 4 of the lemmas that say, one a function, that it keeps `Canon`. -/
namespace Sys2Proof.Machine
open Sys2Proof
set_option maxRecDepth 4000

theorem canon_State_tearAll (x0 : State) (x1 : Nat) (x2 : Nstat) (h0 : Canon x0)
    : Canon (State.tearAll x0 x1 x2) := by
  unfold State.tearAll
  repeat' with_reducible
    first | assumption | intro _ | apply canon_State_wlTear | apply canon_State_sbFinish | apply canon_foldl

theorem canon_State_enterReset (x0 : State) (x1 : Nat) (h0 : Canon x0) : Canon (State.enterReset x0 x1) := by
  unfold State.enterReset
  repeat' with_reducible
    first | assumption | apply canon_State_mapCores | apply canon_State_updPart | apply canon_State_irqEvent

theorem canon_State_dieReset (x0 : State) (x1 : Nat) (x2 : optParam Nat 8) (x3 : optParam Nat 9) (h0 : Canon x0)
    : Canon (State.dieReset x0 x1 x2 x3) := by
  unfold State.dieReset
  repeat' first
    | with_reducible assumption
    | exact rstOk_of fun _ h => h
    | with_reducible
        first | intro _ | apply canon_State_tearAll | apply canon_State_idleRequest | apply canon_State_idleEnd
              | apply canon_State_enterReset | apply canon_State_countBlock | apply canon_State_recovery
              | apply canon_State_deviceReset | apply canon_foldl | apply canon_ite
              | (simp only [canon_mk_iff]; apply canon_fold)

theorem canon_State_partReset (x0 : State) (x1 : Nat) (x2 : optParam Nat 8) (x3 : optParam Nat 9) (h0 : Canon x0)
    : Canon (State.partReset x0 x1 x2 x3) := by
  unfold State.partReset
  repeat' with_reducible
    first | assumption | intro _ | apply canon_State_idleRequest | apply canon_State_enterReset
          | apply canon_State_countBlock | apply canon_State_recovery | apply canon_State_updPart
          | apply canon_State_dieReset | apply canon_foldl | apply canon_ite

theorem canon_State_teardown (x0 : State) (x1 x2 x3 : Nat) (x4 : optParam Bool Bool.false) (h0 : Canon x0)
    : Canon (State.teardown x0 x1 x2 x3 x4) := by
  unfold State.teardown
  repeat' with_reducible
    first | assumption | apply canon_State_partReset | apply canon_State_dropSignals | apply canon_State_recovery
          | apply canon_State_unsave | apply canon_State_mapCores | apply canon_State_updPart
          | apply canon_State_tearLists | apply canon_ite

theorem canon_State_tearCluster (x0 : State) (x1 x2 x3 : Nat) (h0 : Canon x0)
    : Canon (State.tearCluster x0 x1 x2 x3) := by
  unfold State.tearCluster
  repeat' first
    | with_reducible first | assumption | apply canon_State_teardown
    | split

theorem canon_State_stopNow (x0 : State) (x1 : Nat) (x2 : StopCmd) (h0 : Canon x0)
    : Canon (State.stopNow x0 x1 x2) := by
  unfold State.stopNow
  repeat' with_reducible
    first | assumption | intro _ | apply canon_State_teardown | apply canon_State_updPart | apply canon_State_astDone
          | apply canon_foldl | apply canon_ite

theorem canon_State_stopResume (x0 : State) (x1 : Nat) (h0 : Canon x0) : Canon (State.stopResume x0 x1) := by
  unfold State.stopResume
  repeat' first
    | with_reducible
        first | assumption | apply canon_State_stopNow | apply canon_State_updPart | apply canon_ite
    | split

theorem canon_State_teardownEnd (x0 : State) (x1 : Nat) (h0 : Canon x0) : Canon (State.teardownEnd x0 x1) := by
  unfold State.teardownEnd
  repeat' with_reducible
    first | assumption | intro _ | apply canon_State_clearTags | apply canon_State_wlTear
          | apply canon_State_stopResume | apply canon_State_sbFinish | apply canon_State_unsave
          | apply canon_State_mapCores | apply canon_State_dropHist | apply canon_State_updPart | apply canon_foldl
          | apply canon_ite | (simp only [canon_mk_iff]; apply canon_fold)

theorem canon_State_partResetEnd (x0 : State) (x1 : Nat) (h0 : Canon x0) : Canon (State.partResetEnd x0 x1) := by
  unfold State.partResetEnd
  repeat' with_reducible
    first | assumption | apply canon_State_tearAll | apply canon_State_idleEnd | apply canon_State_clearClusters
          | apply canon_State_stopResume | apply canon_State_unsave | apply canon_State_updPart | apply canon_ite

theorem canon_State_sramFault (x0 : State) (x1 : Nat) (x2 : Option Nat) (h0 : Canon x0)
    : Canon (State.sramFault x0 x1 x2) := by
  unfold State.sramFault
  repeat' first
    | with_reducible
        first | assumption | apply canon_State_fault | apply canon_State_chargeUnit | apply canon_State_tearCluster
              | apply canon_State_updPart
    | split

theorem canon_State_coreFault (x0 : State) (x1 x2 x3 x4 : Nat) (x5 : Bool) (x6 : W64) (x7 : Option (Nat × Bool))
    (h0 : Canon x0) : Canon (State.coreFault x0 x1 x2 x3 x4 x5 x6 x7) := by
  unfold State.coreFault
  repeat' with_reducible first | assumption | apply canon_State_fault

theorem canon_State_coreExc (x0 : State) (x1 x2 : Nat) (x3 x4 : Bool) (x5 : Nat) (x6 : W64)
    (x7 : Option (Nat × Bool)) (h0 : Canon x0) : Canon (State.coreExc x0 x1 x2 x3 x4 x5 x6 x7) := by
  unfold State.coreExc
  repeat' first
    | with_reducible
        first | assumption | apply canon_State_teardown | apply canon_State_updCore | apply canon_State_coreFault
              | apply canon_ite
    | split

theorem canon_State_deferExc (x0 : State) (x1 : Nat) (x2 : DeferExc) (h0 : Canon x0)
    : Canon (State.deferExc x0 x1 x2) := by
  unfold State.deferExc
  repeat' with_reducible first | assumption | apply canon_State_updCore

theorem canon_State_coreMismatch (x0 : State) (x1 x2 : Nat) (h0 : Canon x0)
    : Canon (State.coreMismatch x0 x1 x2) := by
  unfold State.coreMismatch
  repeat' with_reducible
    first | assumption | apply canon_State_updCore | apply canon_State_chargeUnit | apply canon_State_tearCluster
          | apply canon_State_coreFault

theorem canon_State_closeBundle (x0 : State) (x1 : Nat) (h0 : Canon x0) : Canon (State.closeBundle x0 x1) := by
  unfold State.closeBundle
  repeat' with_reducible
    first | assumption | apply canon_State_deferExc | apply canon_State_updCore | apply canon_ite

theorem canon_State_coreWait (x0 : State) (x1 : Nat) (h0 : Canon x0) : Canon (State.coreWait x0 x1) := by
  unfold State.coreWait
  repeat' with_reducible first | assumption | apply canon_State_updCore

theorem canon_State_mSlot (x0 : State) (x1 x2 : Nat) (x3 : BitVec 56) (x4 : List (Nat × Nat)) (x5 : State → CoreOut)
    (h0 : Canon x0) (h5 : ∀ y0 : State, Canon y0 → CanonOut (x5 y0)) : CanonR (State.mSlot x0 x1 x2 x3 x4 x5) := by
  unfold State.mSlot
  repeat' first
    | with_reducible
        first | assumption | apply h5 | apply canon_State_coreMismatch | apply canon_State_updCore
              | apply canon_State_coreWait | apply canon_State_coreExc | apply canon_State_injDone
              | apply canon_State_closeBundle | apply canon_next_intro | apply canon_ite | apply canon_iteR
              | exact canonOut_raise | apply canonOut_ite
    | split
    | with_reducible refine canonOut_of_ok (by assumption) ?_

theorem canon_State_vSlot (x0 : State) (x1 x2 : Nat) (x3 : BitVec 56) (x4 : List (Nat × Nat)) (x5 : State → CoreOut)
    (h0 : Canon x0) (h5 : ∀ y0 : State, Canon y0 → CanonOut (x5 y0)) : CanonR (State.vSlot x0 x1 x2 x3 x4 x5) := by
  unfold State.vSlot
  repeat' first
    | with_reducible
        first | assumption | apply h5 | apply canon_State_updCore | apply canon_State_coreWait
              | apply canon_State_coreExc | apply canon_State_closeBundle | apply canon_next_intro | apply canon_iteR
    | split
    | with_reducible refine canonOut_of_ok (by assumption) ?_
    | dsimp only

theorem canon_State_csRead (x0 : State) (x1 x2 x3 : Nat) (h0 : Canon x0) : Canon (State.csRead x0 x1 x2 x3).2 := by
  unfold State.csRead
  repeat' with_reducible
    first | assumption | apply canon_State_countCe | apply canon_State_injDone | apply canon_State_sramFault
          | apply canon_ite | apply canon_ite2

theorem canon_State_csWrite (x0 : State) (x1 x2 : Nat) (x3 : List Byte) (h0 : Canon x0)
    : Canon (State.csWrite x0 x1 x2 x3) := by
  unfold State.csWrite
  repeat' with_reducible first | assumption | apply canon_State_writeDA

theorem canon_State_withCs (x0 : State) (x1 x2 x3 x4 : Nat) (x5 : BitVec 56) (x6 : State → List Byte → State)
    (h0 : Canon x0) (h6 : ∀ y0 : State, Canon y0 → ∀ y1 : List Byte, Canon (x6 y0 y1))
    : CanonOut (State.withCs x0 x1 x2 x3 x4 x5 x6) := by
  unfold State.withCs
  repeat' first
    | with_reducible
        first | assumption | apply h6 | apply canon_State_deferExc | apply canon_State_csRead | apply canonOut_ok
              | apply canonOut_ite
    | split
    | with_reducible refine canon_snd (by assumption) ?_

theorem canon_State_putS (x0 : State) (x1 x2 : Nat) (x3 : W64) (h0 : Canon x0) : Canon (State.putS x0 x1 x2 x3) := by
  unfold State.putS
  repeat' with_reducible first | assumption | apply canon_State_updCore

theorem canon_execCoreNop (x0 : Fin 1200) (x1 : Bool) (x2 : State) (h2 : Canon x2)
    : CanonR (execCoreNop x0 x1 x2) := by
  unfold execCoreNop
  repeat' with_reducible
    first | assumption | intro _ | apply canon_State_mSlot | apply canon_State_vSlot | apply canon_iteR
          | apply canonOut_ok

theorem canon_execCoreEnd (x0 : Fin 1200) (x1 : BitVec 56) (x2 : State) (h2 : Canon x2)
    : CanonR (execCoreEnd x0 x1 x2) := by
  unfold execCoreEnd
  repeat' with_reducible
    first | assumption | intro _ | apply canon_State_updCore | apply canon_State_mSlot | apply canonOut_ok
          | exact canonOut_wait | apply canonOut_ite

theorem canon_execHold (x0 : Fin 1200) (x1 : BitVec 56) (x2 : State) (h2 : Canon x2)
    : CanonR (execHold x0 x1 x2) := by
  unfold execHold
  repeat' with_reducible
    first | assumption | intro _ | apply canon_State_updCore | apply canon_State_mSlot | apply canonOut_ok
          | exact canonOut_wait | apply canonOut_ite

theorem canon_execSop (x0 : Fin 1200) (x1 : BitVec 56) (x2 : State) (h2 : Canon x2) : CanonR (execSop x0 x1 x2) := by
  unfold execSop
  repeat' first
    | with_reducible
        first | assumption | intro _ | apply canon_State_mSlot | apply canon_State_putS | apply canonOut_ok
              | exact canonOut_raise
    | split
    | dsimp only

theorem canon_execSopi (x0 : Fin 1200) (x1 : BitVec 56) (x2 : State) (h2 : Canon x2)
    : CanonR (execSopi x0 x1 x2) := by
  unfold execSopi
  repeat' first
    | with_reducible
        first | assumption | intro _ | apply canon_State_mSlot | apply canon_State_putS | apply canonOut_ok
              | exact canonOut_raise
    | split

theorem canon_execSli (x0 : Fin 1200) (x1 : BitVec 56) (x2 : State) (h2 : Canon x2) : CanonR (execSli x0 x1 x2) := by
  unfold execSli
  repeat' with_reducible
    first | assumption | intro _ | apply canon_State_mSlot | apply canon_State_putS | apply canonOut_ok

theorem canon_execBr (x0 : Fin 1200) (x1 : BitVec 56) (x2 : State) (h2 : Canon x2) : CanonR (execBr x0 x1 x2) := by
  unfold execBr
  repeat' with_reducible
    first | assumption | intro _ | apply canon_State_updCore | apply canon_State_mSlot | apply canonOut_ok
          | exact canonOut_raise | apply canonOut_ite

theorem canon_execLdsS (x0 : Fin 1200) (x1 : BitVec 56) (x2 : State) (h2 : Canon x2)
    : CanonR (execLdsS x0 x1 x2) := by
  unfold execLdsS
  repeat' first
    | with_reducible
        first | assumption | intro _ | apply canon_State_mSlot | apply canon_State_putS | apply canon_State_withCs
              | exact canonOut_wait | exact canonOut_raise | apply canonOut_ite
    | split
    | dsimp only

theorem canon_execStsS (x0 : Fin 1200) (x1 : BitVec 56) (x2 : State) (h2 : Canon x2)
    : CanonR (execStsS x0 x1 x2) := by
  unfold execStsS
  repeat' first
    | with_reducible
        first | assumption | intro _ | apply canon_State_mSlot | apply canon_State_csWrite | apply canonOut_ok
              | exact canonOut_wait | exact canonOut_raise | apply canonOut_ite
    | split
    | dsimp only

theorem canon_execCwtWait (x0 : Fin 1200) (x1 : BitVec 56) (x2 : State) (h2 : Canon x2)
    : CanonR (execCwtWait x0 x1 x2) := by
  unfold execCwtWait
  repeat' with_reducible
    first | assumption | intro _ | apply canon_State_mSlot | apply canon_next_intro | apply canon_iteR
          | apply canonOut_ok | exact canonOut_wait | apply canonOut_ite

theorem canon_execCwtRead (x0 : Fin 1200) (x1 : BitVec 56) (x2 : State) (h2 : Canon x2)
    : CanonR (execCwtRead x0 x1 x2) := by
  unfold execCwtRead
  repeat' with_reducible
    first | assumption | intro _ | apply canon_State_mSlot | apply canon_State_putS | apply canon_next_intro
          | apply canon_iteR | apply canonOut_ok

theorem canon_execLkup (x0 : Fin 1200) (x1 : BitVec 56) (x2 : State) (h2 : Canon x2)
    : CanonR (execLkup x0 x1 x2) := by
  unfold execLkup
  repeat' first
    | with_reducible
        first | assumption | intro _ | apply canon_State_mSlot | apply canon_State_listIssue
              | apply canon_State_withCs | exact canonOut_wait | exact canonOut_raise | apply canonOut_ite
    | split
    | dsimp only

theorem canon_execSlw (x0 : Fin 1200) (x1 : BitVec 56) (x2 : State) (h2 : Canon x2) : CanonR (execSlw x0 x1 x2) := by
  unfold execSlw
  repeat' first
    | with_reducible
        first | assumption | intro _ | apply canon_State_updCore | apply canon_State_mSlot | apply canonOut_ok
              | exact canonOut_wait | exact canonOut_raise | apply canonOut_ite
    | split

theorem canon_execSls (x0 : Fin 1200) (x1 : BitVec 56) (x2 : State) (h2 : Canon x2) : CanonR (execSls x0 x1 x2) := by
  unfold execSls
  repeat' first
    | with_reducible
        first | assumption | intro _ | apply canon_State_mSlot | (simp only [canon_mk_iff]; apply canon_fold)
              | apply canonOut_ok | exact canonOut_wait | exact canonOut_raise | apply canonOut_ite
    | split

theorem canon_execSluiceSignalArrival (x0 : Nat) (x1 : State) (h1 : Canon x1)
    : CanonR (execSluiceSignalArrival x0 x1) := by
  unfold execSluiceSignalArrival
  repeat' first
    | with_reducible
        first | assumption | apply canon_State_updCore | apply canon_next_intro | apply canon_ite | apply canon_iteR
              | (simp only [canon_mk_iff]; apply canon_fold)
    | split

theorem canon_execBar (x0 : Fin 1200) (x1 : BitVec 56) (x2 : State) (h2 : Canon x2) : CanonR (execBar x0 x1 x2) := by
  unfold execBar
  repeat' with_reducible
    first | assumption | intro _ | apply canon_State_updCore | apply canon_State_mSlot | apply canonOut_ok
          | exact canonOut_wait | exact canonOut_raise | apply canonOut_ite

theorem canon_execBarrierRelease (x0 x1 : Fin 16) (x2 : Bool) (x3 : State) (h3 : Canon x3)
    : CanonR (execBarrierRelease x0 x1 x2 x3) := by
  unfold execBarrierRelease
  repeat' with_reducible
    first | assumption | intro _ | apply canon_State_updCore | apply canon_foldl | apply canon_next_intro
          | apply canon_iteR

theorem canon_execFncA (x0 : Fin 1200) (x1 : BitVec 56) (x2 : State) (h2 : Canon x2)
    : CanonR (execFncA x0 x1 x2) := by
  unfold execFncA
  repeat' with_reducible
    first | assumption | intro _ | apply canon_State_updCore | apply canon_State_mSlot | apply canon_next_intro
          | apply canon_iteR | apply canonOut_ok | exact canonOut_raise | apply canonOut_ite

theorem canon_execFncR (x0 : Fin 1200) (x1 : BitVec 56) (x2 : State) (h2 : Canon x2)
    : CanonR (execFncR x0 x1 x2) := by
  unfold execFncR
  repeat' with_reducible
    first | assumption | intro _ | apply canon_State_updCore | apply canon_State_mSlot | apply canon_next_intro
          | apply canon_iteR | apply canonOut_ok | exact canonOut_raise | apply canonOut_ite

theorem canon_execFncF (x0 : Fin 1200) (x1 : BitVec 56) (x2 : State) (h2 : Canon x2)
    : CanonR (execFncF x0 x1 x2) := by
  unfold execFncF
  repeat' with_reducible
    first | assumption | intro _ | apply canon_State_mSlot | apply canon_next_intro | apply canon_iteR
          | apply canonOut_ok | exact canonOut_wait | exact canonOut_raise | apply canonOut_ite

theorem canon_execDgst (x0 : Fin 1200) (x1 : BitVec 56) (x2 : State) (h2 : Canon x2)
    : CanonR (execDgst x0 x1 x2) := by
  unfold execDgst
  repeat' first
    | with_reducible
        first | assumption | intro _ | apply canon_State_deferExc | apply canon_State_mSlot
              | apply canon_State_csWrite | apply canon_State_csRead | apply canonOut_ok | exact canonOut_wait
              | exact canonOut_raise | apply canonOut_ite
    | split
    | with_reducible refine canon_snd (by assumption) ?_

theorem canon_execFetchLine (x0 : Fin 1200) (x1 : State) (h1 : Canon x1) : CanonR (execFetchLine x0 x1) := by
  unfold execFetchLine
  repeat' with_reducible
    first | assumption | apply canon_State_updCore | apply canon_State_countCe | apply canon_State_injDone
          | apply canon_State_sramFault | apply canon_next_intro | apply canon_ite | apply canon_iteR

theorem canon_execCoreDeferredException (x0 : Fin 1200) (x1 : State) (h1 : Canon x1)
    : CanonR (execCoreDeferredException x0 x1) := by
  unfold execCoreDeferredException
  repeat' first
    | with_reducible
        first | assumption | apply canon_State_updCore | apply canon_State_coreExc | apply canon_next_intro
    | split

theorem canon_execPartialArrival (x0 : Fin 1200) (x1 : Nat) (x2 : State) (h2 : Canon x2)
    : CanonR (execPartialArrival x0 x1 x2) := by
  unfold execPartialArrival
  repeat' first
    | with_reducible
        first | assumption | apply canon_State_absorb | apply canon_State_coreMismatch | apply canon_State_meshInject
              | apply canon_State_injDone | apply canon_State_listTry | apply canon_State_bagTry
              | apply canon_next_intro | apply canon_iteR | (simp only [canon_mk_iff]; apply canon_fold)
    | split
    | dsimp only

theorem canon_execMdlReg (x0 : KCmd) (x1 : State) (h1 : Canon x1) : CanonR (execMdlReg x0 x1) := by
  unfold execMdlReg
  repeat' with_reducible
    first | assumption | intro _ | apply canon_State_done | apply canon_State_withInput | apply canon_next_intro
          | apply canon_ite | (simp only [canon_mk_iff]; apply canon_fold)

theorem canon_State_setAdmit (x0 : State) (x1 : Nat) (x2 : Bool) (h0 : Canon x0)
    : Canon (State.setAdmit x0 x1 x2) := by
  unfold State.setAdmit
  repeat' first
    | with_reducible first | assumption | (simp only [canon_mk_iff]; apply canon_fold)
    | split

theorem canon_execMdlAdmit (x0 : KCmd) (x1 : State) (h1 : Canon x1) : CanonR (execMdlAdmit x0 x1) := by
  unfold execMdlAdmit
  repeat' with_reducible
    first | assumption | apply canon_State_setAdmit | apply canon_State_done | apply canon_next_intro
          | apply canon_ite

theorem canon_execMdlUnreg (x0 : KCmd) (x1 : State) (h1 : Canon x1) : CanonR (execMdlUnreg x0 x1) := by
  unfold execMdlUnreg
  repeat' first
    | with_reducible
        first | assumption | apply canon_State_done | apply canon_next_intro | apply canon_ite
              | (simp only [canon_mk_iff]; apply canon_fold)
    | split

theorem canon_State_partBegin (x0 : State) (x1 : Nat) (h0 : Canon x0) : Canon (State.partBegin x0 x1) := by
  unfold State.partBegin
  repeat' with_reducible
    first | assumption | apply canon_State_clearTags | apply canon_State_dropHist | apply canon_State_updPart
          | (simp only [canon_mk_iff]; apply canon_fold)

theorem canon_execPartStart (x0 : KCmd) (x1 : State) (h1 : Canon x1) : CanonR (execPartStart x0 x1) := by
  unfold execPartStart
  repeat' with_reducible
    first | assumption | apply canon_State_partBegin | apply canon_State_done | apply canon_next_intro
          | apply canon_ite

theorem canon_State_againStart (x0 : State) (h0 : Canon x0) : Canon (State.againStart x0) := by
  unfold State.againStart
  repeat' with_reducible
    first | assumption | intro _ | apply canon_State_partBegin | apply canon_foldl | apply canon_ite
          | (simp only [canon_mk_iff]; apply canon_fold)

theorem canon_execPartStop (x0 : KCmd) (x1 : State) (h1 : Canon x1) : CanonR (execPartStop x0 x1) := by
  unfold execPartStop
  repeat' with_reducible
    first | assumption | apply canon_State_stopNow | apply canon_State_done | apply canon_State_updPart
          | apply canon_next_intro | apply canon_ite

theorem canon_execPartStopTimeout (x0 : Fin 16) (x1 : State) (h1 : Canon x1)
    : CanonR (execPartStopTimeout x0 x1) := by
  unfold execPartStopTimeout
  repeat' first
    | with_reducible
        first | assumption | intro _ | apply canon_State_teardown | apply canon_State_updAst
              | apply canon_State_updPart | apply canon_foldl | apply canon_next_intro | apply canon_ite
              | apply canon_iteR
    | split
    | dsimp only

theorem canon_execPartStopped (x0 : Fin 16) (x1 : State) (h1 : Canon x1) : CanonR (execPartStopped x0 x1) := by
  unfold execPartStopped
  repeat' first
    | with_reducible
        first | assumption | apply canon_State_complete | apply canon_State_updPart | apply canon_State_againStart
              | apply canon_next_intro | apply canon_ite | apply canon_iteR
    | split

theorem canon_State_snapBegin (x0 : State) (x1 : Nat) (x2 : Option (Nat × W16)) (x3 : Bool) (h0 : Canon x0)
    : Canon (State.snapBegin x0 x1 x2 x3) := by
  unfold State.snapBegin
  repeat' with_reducible first | assumption | apply canon_State_updPart

theorem canon_execPartSnap (x0 : KCmd) (x1 : State) (h1 : Canon x1) : CanonR (execPartSnap x0 x1) := by
  unfold execPartSnap
  repeat' with_reducible
    first | assumption | apply canon_State_snapBegin | apply canon_State_done | apply canon_State_updPart
          | apply canon_next_intro | apply canon_ite

theorem canon_execSnapshotGatherDeadline (x0 : Fin 16) (x1 : State) (h1 : Canon x1)
    : CanonR (execSnapshotGatherDeadline x0 x1) := by
  unfold execSnapshotGatherDeadline
  repeat' first
    | with_reducible
        first | assumption | apply canon_State_updPart | apply canon_next_intro | apply canon_iteR
    | split

theorem canon_execSnapshotComplete (x0 : Fin 16) (x1 : State) (h1 : Canon x1)
    : CanonR (execSnapshotComplete x0 x1) := by
  unfold execSnapshotComplete
  repeat' first
    | with_reducible
        first | assumption | intro _ | apply canon_State_cutDone | apply canon_State_complete
              | apply canon_State_updPart | apply canon_foldl | apply canon_next_intro | apply canon_iteR
    | split

theorem canon_State_copyLines (x0 : State) (x1 x2 x3 : Nat) (h0 : Canon x0)
    : Canon (State.copyLines x0 x1 x2 x3) := by
  unfold State.copyLines
  repeat' with_reducible
    first | assumption | intro _ | apply canon_State_wr | apply canon_State_writeDA | apply canon_foldl
          | apply canon_ite

theorem canon_State_fillFree (x0 : State) (x1 x2 : Nat) (h0 : Canon x0) : Canon (State.fillFree x0 x1 x2) := by
  unfold State.fillFree
  repeat' with_reducible first | assumption | apply canon_State_wr | apply canon_State_drawFree

theorem canon_State_spill (x0 : State) (x1 : MDesc) (x2 x3 : Nat) (h0 : Canon x0)
    : Canon (State.spill x0 x1 x2 x3) := by
  unfold State.spill
  repeat' with_reducible
    first | assumption | intro _ | apply canon_State_copyLines | apply canon_State_fillFree | apply canon_foldl
          | apply canon_ite

theorem canon_State_zeroStore (x0 : State) (x1 x2 : Nat) (h0 : Canon x0) : Canon (State.zeroStore x0 x1 x2) := by
  unfold State.zeroStore
  repeat' with_reducible first | assumption | intro _ | apply canon_State_writeDA | apply canon_foldl

theorem canon_State_loadWeights (x0 : State) (x1 : Nat) (x2 : MDesc) (x3 x4 : Nat) (h0 : Canon x0)
    : Canon (State.loadWeights x0 x1 x2 x3 x4) := by
  unfold State.loadWeights
  repeat' with_reducible
    first | assumption | intro _ | apply canon_State_copyLines | apply canon_foldl | apply canon_ite
          | (simp only [canon_mk_iff]; apply canon_fold)

theorem canon_State_loadLive (x0 : State) (x1 : MDesc) (x2 : Bool) (x3 x4 : Nat) (h0 : Canon x0)
    : Canon (State.loadLive x0 x1 x2 x3 x4) := by
  unfold State.loadLive
  repeat' with_reducible
    first | assumption | intro _ | apply canon_State_zeroStore | apply canon_State_copyLines | apply canon_foldl
          | apply canon_ite

theorem canon_State_imageWords (x0 : State) (x1 x2 : Nat) (h0 : Canon x0) : Canon (State.imageWords x0 x1 x2).2 := by
  unfold State.imageWords
  repeat' with_reducible first | assumption | apply canon_State_drawFree | apply canon_ite2

theorem canon_State_loadCore (x0 : State) (x1 : MDesc) (x2 : Nat → Bool) (x3 : Option TCore) (x4 x5 x6 : Nat)
    (h0 : Canon x0) : Canon (State.loadCore x0 x1 x2 x3 x4 x5 x6) := by
  unfold State.loadCore
  repeat' with_reducible first | assumption | apply canon_State_updCore | apply canon_State_imageWords

theorem canon_State_loadContext (x0 : State) (x1 : MDesc) (x2 : Nat → Bool) (x3 : Model) (x4 x5 : Nat)
    (h0 : Canon x0) : Canon (State.loadContext x0 x1 x2 x3 x4 x5) := by
  unfold State.loadContext
  repeat' with_reducible
    first | assumption | intro _ | apply canon_State_loadCore | apply canon_State_updCluster
          | apply canon_State_imageWords | apply canon_foldl

theorem canon_State_switchOut (x0 : State) (x1 : Nat) (h0 : Canon x0) : Canon (State.switchOut x0 x1) := by
  unfold State.switchOut
  repeat' first
    | with_reducible
        first | assumption | intro _ | apply canon_State_spill | apply canon_foldl | apply canon_ite
              | (simp only [canon_mk_iff]; apply canon_fold)
    | split
    | dsimp only

theorem canon_State_switchIn (x0 : State) (x1 x2 : Nat) (h0 : Canon x0) : Canon (State.switchIn x0 x1 x2) := by
  unfold State.switchIn
  repeat' first
    | with_reducible
        first | assumption | intro _ | apply canon_State_loadContext | apply canon_State_loadWeights
              | apply canon_State_loadLive | apply canon_foldl
    | split

theorem canon_State_trySwitch (x0 : State) (x1 : Nat) (h0 : Canon x0) : Canon (State.trySwitch x0 x1) := by
  unfold State.trySwitch
  repeat' first
    | with_reducible first | assumption | apply canon_State_updPart | apply canon_ite
    | split
    | dsimp only

theorem canon_execSwitchComplete (x0 : Fin 16) (x1 : State) (h1 : Canon x1) : CanonR (execSwitchComplete x0 x1) := by
  unfold execSwitchComplete
  repeat' first
    | with_reducible
        first | assumption | apply canon_State_switchIn | apply canon_State_stopResume | apply canon_State_switchOut
              | apply canon_State_updPart | apply canon_next_intro | apply canon_iteR
    | split
    | dsimp only

theorem canon_State_expireSteps (x0 : State) (x1 : Nat) (h0 : Canon x0) : Canon (State.expireSteps x0 x1) := by
  unfold State.expireSteps
  repeat' with_reducible
    first | assumption | intro _ | apply canon_State_astDone | apply canon_foldl | apply canon_ite

theorem canon_State_histEntry (x0 : State) (x1 : Nat) (h0 : Canon x0) : Canon (State.histEntry x0 x1).2 := by
  unfold State.histEntry
  repeat' first
    | with_reducible
        first | assumption | apply canon_State_stackFault | apply canon_State_fault | apply canon_ite2
    | split

theorem canon_State_histPage (x0 : State) (x1 x2 : Nat) (h0 : Canon x0) : Canon (State.histPage x0 x1 x2).2 := by
  unfold State.histPage
  repeat' first
    | with_reducible first | assumption | apply canon_State_histEntry
    | split
    | with_reducible refine canon_snd (by assumption) ?_

theorem canon_State_stagePage (x0 : State) (x1 : MDesc) (x2 x3 x4 : Nat) (x5 : List (Nat × Nat × Nat × Bool))
    (h0 : Canon x0) : Canon (State.stagePage x0 x1 x2 x3 x4 x5).2.2 := by
  unfold State.stagePage
  repeat' first
    | with_reducible
        first | assumption | apply canon_State_histPage | (simp only [canon_mk_iff]; apply canon_fold)
    | split
    | with_reducible refine canon_snd (by assumption) ?_
    | dsimp only

theorem canon_State_stageSeq (x0 : State) (x1 : MDesc) (x2 : AstEntry) (x3 : Nat)
    (x4 : List (Nat × Nat × Nat × Bool)) (h0 : Canon x0) : Canon (State.stageSeq x0 x1 x2 x3 x4).2.2 := by
  unfold State.stageSeq
  repeat' first
    | with_reducible first | assumption | intro _ | apply canon_State_stagePage
    | split
    | with_reducible apply canon_foldl22

theorem canon_State_batchRecords (x0 : State) (x1 : Nat) (x2 : MDesc) (x3 x4 : List Nat) (h0 : Canon x0)
    : Canon (State.batchRecords x0 x1 x2 x3 x4).2.2 := by
  unfold State.batchRecords
  repeat' with_reducible first | assumption | intro _ | apply canon_State_stageSeq | apply canon_foldl222

theorem canon_State_stepForm (x0 : State) (x1 : Nat) (x2 : List StepWhy) (h0 : Canon x0)
    : Canon (State.stepForm x0 x1 x2) := by
  unfold State.stepForm
  repeat' first
    | with_reducible
        first | assumption | intro _ | apply canon_State_expireSteps | apply canon_State_updAst
              | apply canon_State_batchRecords | apply canon_State_wr | apply canon_State_updPart
              | apply canon_State_trySwitch | apply canon_foldl | apply canon_ite
    | split
    | dsimp only

theorem canon_execStepForm (x0 : Fin 16) (x1 : State) (h1 : Canon x1) : CanonR (execStepForm x0 x1) := by
  unfold execStepForm
  repeat' with_reducible first | assumption | apply canon_State_stepForm | apply canon_next_intro

theorem canon_execStepWaitTimeout (x0 : Fin 16) (x1 : State) (h1 : Canon x1)
    : CanonR (execStepWaitTimeout x0 x1) := by
  unfold execStepWaitTimeout
  repeat' with_reducible first | assumption | apply canon_State_stepForm | apply canon_next_intro

theorem canon_execEntryBecomesUrgent (x0 : Fin 16) (x1 : State) (h1 : Canon x1)
    : CanonR (execEntryBecomesUrgent x0 x1) := by
  unfold execEntryBecomesUrgent
  repeat' with_reducible first | assumption | apply canon_State_stepForm | apply canon_next_intro

theorem canon_execSbWorklistComplete (x0 : Fin 16) (x1 : Nat) (x2 : State) (h2 : Canon x2)
    : CanonR (execSbWorklistComplete x0 x1 x2) := by
  unfold execSbWorklistComplete
  repeat' first
    | with_reducible
        first | assumption | apply canon_State_sbFinish | apply canon_State_trySwitch | apply canon_next_intro
    | split

theorem canon_execTeardownComplete (x0 : Fin 16) (x1 : State) (h1 : Canon x1)
    : CanonR (execTeardownComplete x0 x1) := by
  unfold execTeardownComplete
  repeat' with_reducible
    first | assumption | apply canon_State_teardownEnd | apply canon_State_trySwitch | apply canon_next_intro
          | apply canon_iteR

theorem canon_execWorklistArrival (x0 x1 : Nat) (x2 : State) (h2 : Canon x2)
    : CanonR (execWorklistArrival x0 x1 x2) := by
  unfold execWorklistArrival
  repeat' first
    | with_reducible
        first | assumption | apply canon_State_meshInject | apply canon_State_wlLess | apply canon_State_updCluster
              | apply canon_next_intro | apply canon_iteR | (simp only [canon_mk_iff]; apply canon_fold)
    | split

theorem canon_State_stagePages (x0 : State) (x1 x2 x3 : Nat) (h0 : Canon x0)
    : Canon (State.stagePages x0 x1 x2 x3) := by
  unfold State.stagePages
  repeat' first
    | with_reducible
        first | assumption | intro _ | apply canon_State_touch | apply canon_State_copyLines
              | apply canon_State_updPart | apply canon_foldl | apply canon_ite
    | split
    | dsimp only

theorem canon_execStreamStart (x0 : Fin 100) (x1 : Nat) (x2 : State) (h2 : Canon x2)
    : CanonR (execStreamStart x0 x1 x2) := by
  unfold execStreamStart
  repeat' first
    | with_reducible
        first | assumption | intro _ | apply canon_State_stagePages | apply canon_State_updCore
              | apply canon_State_wlLess | apply canon_State_updCluster | apply canon_foldl | apply canon_next_intro
              | apply canon_ite | apply canon_iteR
    | split
    | dsimp only

theorem canon_execStreamComplete (x0 : Fin 1200) (x1 : State) (h1 : Canon x1)
    : CanonR (execStreamComplete x0 x1) := by
  unfold execStreamComplete
  repeat' first
    | with_reducible
        first | assumption | apply canon_State_updCore | apply canon_State_wlLess | apply canon_State_trySwitch
              | apply canon_next_intro | apply canon_iteR
    | split
    | dsimp only

theorem canon_State_updSlot (x0 : State) (x1 : Nat) (x2 : Slot → Slot) (h0 : Canon x0)
    : Canon (State.updSlot x0 x1 x2) := by
  unfold State.updSlot
  repeat' with_reducible first | assumption | (simp only [canon_mk_iff]; apply canon_fold)

theorem canon_State_updGroup (x0 : State) (x1 : Nat) (x2 : SpGroup → SpGroup) (h0 : Canon x0)
    : Canon (State.updGroup x0 x1 x2) := by
  unfold State.updGroup
  repeat' with_reducible first | assumption | (simp only [canon_mk_iff]; apply canon_fold)

theorem canon_State_slotIdle (x0 : State) (x1 : Nat) (h0 : Canon x0) : Canon (State.slotIdle x0 x1) := by
  unfold State.slotIdle
  repeat' with_reducible first | assumption | apply canon_State_updSlot

theorem canon_State_groupClose (x0 : State) (x1 : Nat) (h0 : Canon x0) : Canon (State.groupClose x0 x1) := by
  unfold State.groupClose
  repeat' with_reducible
    first | assumption | intro _ | apply canon_State_updGroup | apply canon_State_updSlot | apply canon_foldl
          | apply canon_ite

theorem canon_State_slotCleared (x0 : State) (x1 : Nat) (h0 : Canon x0) : Canon (State.slotCleared x0 x1) := by
  unfold State.slotCleared
  repeat' first
    | with_reducible first | assumption | apply canon_State_groupClose | apply canon_State_slotIdle
    | split
    | dsimp only

theorem canon_State_statusWord (x0 : State) (x1 : Nat) (x2 : BitVec 12) (h0 : Canon x0)
    : Canon (State.statusWord x0 x1 x2) := by
  unfold State.statusWord
  repeat' with_reducible first | assumption | apply canon_State_devWrite

theorem canon_State_headerWrite (x0 : State) (x1 : Nat) (h0 : Canon x0) : Canon (State.headerWrite x0 x1) := by
  unfold State.headerWrite
  repeat' first
    | with_reducible first | assumption | apply canon_State_updSlot | apply canon_ite
    | split

theorem canon_State_updPair (x0 : State) (x1 : Nat) (x2 : CcPair → CcPair) (h0 : Canon x0)
    : Canon (State.updPair x0 x1 x2) := by
  unfold State.updPair
  repeat' with_reducible first | assumption | (simp only [canon_mk_iff]; apply canon_fold)

theorem canon_State_setTask (x0 : State) (x1 x2 : Nat) (x3 : Task) (h0 : Canon x0)
    : Canon (State.setTask x0 x1 x2 x3) := by
  unfold State.setTask
  repeat' with_reducible first | assumption | apply canon_State_updPair

theorem canon_State_pairFault (x0 : State) (x1 : Nat) (x2 : Option Nat) (x3 x4 : Nat) (x5 x6 : W64) (h0 : Canon x0)
    : Canon (State.pairFault x0 x1 x2 x3 x4 x5 x6) := by
  unfold State.pairFault
  repeat' with_reducible first | assumption | apply canon_State_fault

theorem canon_State_dropOwed (x0 : State) (x1 : Nat) (x2 : Owed) (h0 : Canon x0)
    : Canon (State.dropOwed x0 x1 x2) := by
  unfold State.dropOwed
  repeat' with_reducible first | assumption | apply canon_State_updPair

theorem canon_State_postOwed (x0 : State) (x1 : Owed) (x2 : BitVec 12) (x3 : W64) (x4 : optParam W32 0)
    (h0 : Canon x0) : Canon (State.postOwed x0 x1 x2 x3 x4) := by
  unfold State.postOwed
  repeat' with_reducible
    first | assumption | apply canon_State_postCqe | apply canon_State_updQ | apply canon_ite

theorem canon_State_hwComplete (x0 : State) (x1 : Nat) (x2 : Owed) (x3 : BitVec 12) (x4 : W64) (h0 : Canon x0)
    : Canon (State.hwComplete x0 x1 x2 x3 x4) := by
  unfold State.hwComplete
  repeat' with_reducible
    first | assumption | apply canon_State_slotCleared | apply canon_State_statusWord | apply canon_State_postOwed
          | apply canon_State_dropOwed | apply canon_ite

theorem canon_State_answer (x0 : State) (x1 : Nat) (h0 : Canon x0) : Canon (State.answer x0 x1) := by
  unfold State.answer
  repeat' with_reducible first | assumption | (simp only [canon_mk_iff]; apply canon_fold)

theorem canon_State_abandon (x0 : State) (x1 x2 : Nat) (h0 : Canon x0) : Canon (State.abandon x0 x1 x2) := by
  unfold State.abandon
  repeat' with_reducible first | assumption | (simp only [canon_mk_iff]; apply canon_fold)

theorem canon_State_endTask (x0 : State) (x1 x2 : Nat) (x3 : BitVec 12) (x4 : W64) (x5 : Bool) (h0 : Canon x0)
    : Canon (State.endTask x0 x1 x2 x3 x4 x5) := by
  unfold State.endTask
  repeat' first
    | with_reducible
        first | assumption | intro _ | apply canon_State_hwComplete | apply canon_State_postOwed
              | apply canon_State_complete | apply canon_State_abandon | apply canon_State_updPair | apply canon_foldl
              | apply canon_ite
    | split

theorem canon_State_taskExc (x0 : State) (x1 x2 x3 : Nat) (h0 : Canon x0) : Canon (State.taskExc x0 x1 x2 x3) := by
  unfold State.taskExc
  repeat' with_reducible first | assumption | apply canon_State_endTask | apply canon_State_pairFault

theorem canon_State_taskEnd (x0 : State) (x1 x2 : Nat) (h0 : Canon x0) : Canon (State.taskEnd x0 x1 x2) := by
  unfold State.taskEnd
  repeat' with_reducible first | assumption | apply canon_State_endTask

theorem canon_State_taskWait (x0 : State) (x1 x2 : Nat) (x3 : TaskWait) (x4 : Bool) (h0 : Canon x0)
    : Canon (State.taskWait x0 x1 x2 x3 x4) := by
  unfold State.taskWait
  repeat' first
    | with_reducible
        first | assumption | apply canon_State_setTask | apply canon_State_taskEnd | apply canon_State_updPair
              | apply canon_ite
    | split

theorem canon_execTaskReg (x0 : KCmd) (x1 : State) (h1 : Canon x1) : CanonR (execTaskReg x0 x1) := by
  unfold execTaskReg
  repeat' first
    | with_reducible
        first | assumption | intro _ | apply canon_State_done | apply canon_State_withInput | apply canon_next_intro
              | apply canon_ite | apply canon_iteR | (simp only [canon_mk_iff]; apply canon_fold)
    | split

theorem canon_execTaskUnreg (x0 : KCmd) (x1 : State) (h1 : Canon x1) : CanonR (execTaskUnreg x0 x1) := by
  unfold execTaskUnreg
  repeat' with_reducible
    first | assumption | apply canon_State_done | apply canon_next_intro | apply canon_ite
          | (simp only [canon_mk_iff]; apply canon_fold)

theorem canon_State_pickFree (x0 : State) (x1 : List Nat) (h0 : Canon x0) : Canon (State.pickFree x0 x1).2 := by
  unfold State.pickFree
  repeat' with_reducible first | assumption | apply canon_State_drawFree

theorem canon_State_startTask (x0 : State) (x1 : Nat) (x2 : Task) (x3 : Nat) (h0 : Canon x0)
    : Canon (State.startTask x0 x1 x2 x3) := by
  unfold State.startTask
  repeat' with_reducible
    first | assumption | apply canon_State_setTask | apply canon_State_updPair | apply canon_State_pickFree
          | apply canon_ite

theorem canon_State_unhead (x0 : State) (x1 : Nat) (x2 : W16) (h0 : Canon x0) : Canon (State.unhead x0 x1 x2) := by
  unfold State.unhead
  repeat' with_reducible first | assumption | apply canon_State_updQ

theorem canon_State_taskRun (x0 : State) (x1 : Nat) (x2 : Line) (x3 : Nat) (h0 : Canon x0)
    : Canon (State.taskRun x0 x1 x2 x3) := by
  unfold State.taskRun
  repeat' first
    | with_reducible
        first | assumption | apply canon_State_touch | apply canon_State_recall | apply canon_State_complete
              | apply canon_State_startTask | apply canon_State_unhead | apply canon_ite | exact canon_none_intro
              | apply canon_iteO
    | split
    | with_reducible refine canon_of_some (by assumption) ?_
    | dsimp only

theorem canon_execTaskRun (x0 : KCmd) (x1 : State) (h1 : Canon x1) : CanonR (execTaskRun x0 x1) := by
  unfold execTaskRun
  repeat' with_reducible first | assumption | apply canon_State_taskRun | apply canon_next_intro

theorem canon_execTaskPlace (x0 : Fin 1025) (x1 : State) (h1 : Canon x1) : CanonR (execTaskPlace x0 x1) := by
  unfold execTaskPlace
  repeat' first
    | with_reducible
        first | assumption | apply canon_State_taskRun | apply canon_State_startTask | apply canon_next_intro
              | apply canon_iteR | (simp only [canon_mk_iff]; apply canon_fold)
    | split

theorem canon_execTaskStop (x0 : KCmd) (x1 : State) (h1 : Canon x1) : CanonR (execTaskStop x0 x1) := by
  unfold execTaskStop
  repeat' first
    | with_reducible
        first | assumption | apply canon_State_setTask | apply canon_State_done | apply canon_State_taskEnd
              | apply canon_next_intro | apply canon_ite | apply canon_iteR
    | split

theorem canon_execTaskQuantum (x0 : Fin 8) (x1 : State) (h1 : Canon x1) : CanonR (execTaskQuantum x0 x1) := by
  unfold execTaskQuantum
  repeat' first
    | with_reducible
        first | assumption | apply canon_State_taskEnd | apply canon_State_updPair | apply canon_next_intro
              | apply canon_ite
    | split
    | dsimp only

end Sys2Proof.Machine
end

