-- ==== Sys2Proof/Laws/Canon5.lean ====
section
/-! SUPPORT. Part 5 of the lemmas that say, one a function, that it keeps `Canon`. -/
namespace Sys2Proof.Machine
open Sys2Proof
set_option maxRecDepth 4000

theorem canon_execSleepExpiry (x0 : Fin 8) (x1 : Fin 32) (x2 : State) (h2 : Canon x2)
    : CanonR (execSleepExpiry x0 x1 x2) := by
  unfold execSleepExpiry
  repeat' first
    | with_reducible
        first | assumption | apply canon_State_setTask | apply canon_next_intro | apply canon_iteR
    | split

theorem canon_State_accept (x0 : State) (x1 x2 : Nat) (x3 : Task) (x4 x5 : Nat) (x6 : List Byte) (x7 : Owed)
    (x8 : State → State) (h0 : Canon x0) (h8 : ∀ y0 : State, Canon y0 → Canon (x8 y0))
    : Canon (State.accept x0 x1 x2 x3 x4 x5 x6 x7 x8) := by
  unfold State.accept
  repeat' with_reducible
    first | assumption | apply h8 | apply canon_State_taskExc | apply canon_State_setTask | apply canon_State_updPair
          | apply canon_ite

theorem canon_State_fetchFailed (x0 : State) (x1 : Nat) (h0 : Canon x0) : Canon (State.fetchFailed x0 x1) := by
  unfold State.fetchFailed
  repeat' with_reducible
    first | assumption | apply canon_State_queueFault | apply canon_State_postCqe | apply canon_State_updQ

theorem canon_State_sqeRecall (x0 : State) (x1 : Nat) (h0 : Canon x0) : CanonO (State.sqeRecall x0 x1) := by
  unfold State.sqeRecall
  repeat' with_reducible
    first | assumption | apply canon_State_recall | exact canon_none_intro | apply canon_iteO

theorem canon_State_deliverSqe (x0 : State) (x1 x2 : Nat) (x3 : Task) (x4 x5 x6 x7 : Nat) (x8 : Line) (x9 : Bool)
    (h0 : Canon x0) : Canon (State.deliverSqe x0 x1 x2 x3 x4 x5 x6 x7 x8 x9) := by
  unfold State.deliverSqe
  repeat' first
    | with_reducible
        first | assumption | intro _ | apply canon_State_fetchFailed | apply canon_State_sqeRecall
              | apply canon_State_updQ | apply canon_State_accept | apply canon_ite
    | split
    | with_reducible refine canon_of_some (by assumption) ?_

theorem canon_State_deliverSlot (x0 : State) (x1 x2 : Nat) (x3 : Task) (x4 x5 x6 x7 x8 : Nat) (h0 : Canon x0)
    : Canon (State.deliverSlot x0 x1 x2 x3 x4 x5 x6 x7 x8) := by
  unfold State.deliverSlot
  repeat' first
    | with_reducible
        first | assumption | intro _ | apply canon_State_updSlot | apply canon_State_recall | apply canon_State_accept
    | split
    | with_reducible refine canon_of_some (by assumption) ?_
    | dsimp only

theorem canon_State_deliverSb (x0 : State) (x1 x2 : Nat) (x3 : Task) (x4 x5 x6 : Nat) (x7 : Bool) (h0 : Canon x0)
    : Canon (State.deliverSb x0 x1 x2 x3 x4 x5 x6 x7) := by
  unfold State.deliverSb
  repeat' first
    | with_reducible
        first | assumption | intro _ | apply canon_State_updPart | apply canon_State_accept
              | apply canon_State_drawFree | apply canon_ite
    | split

theorem canon_execWaitqDelivery (x0 : Fin 8) (x1 : Fin 32) (x2 : Fin 4) (x3 : Nat) (x4 : Line) (x5 : Bool)
    (x6 : State) (h6 : Canon x6) : CanonR (execWaitqDelivery x0 x1 x2 x3 x4 x5 x6) := by
  unfold execWaitqDelivery
  repeat' first
    | with_reducible
        first | assumption | apply canon_State_deliverSlot | apply canon_State_deliverSb
              | apply canon_State_deliverSqe | apply canon_next_intro | apply canon_iteR
    | split
    | dsimp only

theorem canon_execTokenTimeout (x0 : Fin 8) (x1 : Nat) (x2 : State) (h2 : Canon x2)
    : CanonR (execTokenTimeout x0 x1 x2) := by
  unfold execTokenTimeout
  repeat' first
    | with_reducible
        first | assumption | apply canon_State_statusWord | apply canon_State_updSlot | apply canon_State_postOwed
              | apply canon_State_updPair | apply canon_State_pairFault | apply canon_next_intro | apply canon_ite
              | apply canon_iteR
    | split

theorem canon_State_taskTimeout (x0 : State) (x1 x2 : Nat) (h0 : Canon x0) : Canon (State.taskTimeout x0 x1 x2) := by
  unfold State.taskTimeout
  repeat' with_reducible first | assumption | apply canon_State_endTask | apply canon_State_pairFault

theorem canon_execTaskTimeout (x0 : Fin 8) (x1 : Fin 32) (x2 : State) (h2 : Canon x2)
    : CanonR (execTaskTimeout x0 x1 x2) := by
  unfold execTaskTimeout
  repeat' first
    | with_reducible
        first | assumption | apply canon_State_taskTimeout | apply canon_next_intro | apply canon_iteR
    | split

theorem canon_execTaskWaitTimeout (x0 : Fin 8) (x1 : Fin 32) (x2 : State) (h2 : Canon x2)
    : CanonR (execTaskWaitTimeout x0 x1 x2) := by
  unfold execTaskWaitTimeout
  repeat' first
    | with_reducible
        first | assumption | apply canon_State_taskTimeout | apply canon_next_intro | apply canon_iteR
    | split

theorem canon_State_dropPairLists (x0 : State) (x1 : Nat) (h0 : Canon x0) : Canon (State.dropPairLists x0 x1) := by
  unfold State.dropPairLists
  repeat' with_reducible
    first | assumption | intro _ | apply canon_State_wlLess | apply canon_foldl | apply canon_ite
          | (simp only [canon_mk_iff]; apply canon_fold)

theorem canon_State_dropOwnerEntries (x0 : State) (x1 : Nat) (h0 : Canon x0)
    : Canon (State.dropOwnerEntries x0 x1) := by
  unfold State.dropOwnerEntries
  repeat' with_reducible first | assumption | (simp only [canon_mk_iff]; apply canon_fold)

theorem canon_State_pairDown (x0 : State) (x1 : Nat) (x2 : W64) (h0 : Canon x0)
    : Canon (State.pairDown x0 x1 x2) := by
  unfold State.pairDown
  repeat' with_reducible
    first | assumption | intro _ | apply canon_State_hwComplete | apply canon_State_postOwed
          | apply canon_State_dropPairLists | apply canon_State_complete | apply canon_State_dropOwnerEntries
          | apply canon_State_abandon | apply canon_State_updPair | apply canon_foldl | apply canon_ite
          | (simp only [canon_mk_iff]; apply canon_fold)

theorem canon_State_mismatch (x0 : State) (x1 x2 : Nat) (x3 x4 : W64) (h0 : Canon x0)
    : Canon (State.mismatch x0 x1 x2 x3 x4) := by
  unfold State.mismatch
  repeat' with_reducible
    first | assumption | intro _ | apply canon_State_idleRequest | apply canon_State_partReset
          | apply canon_State_pairDown | apply canon_State_chargeUnit | apply canon_State_updPair
          | apply canon_State_pairFault | apply canon_foldl

theorem canon_execLockstepMismatch (x0 : Fin 8) (x1 : Bool) (x2 x3 : W64) (x4 : State) (h4 : Canon x4)
    : CanonR (execLockstepMismatch x0 x1 x2 x3 x4) := by
  unfold execLockstepMismatch
  repeat' with_reducible
    first | assumption | apply canon_State_mismatch | apply canon_next_intro | apply canon_iteR

theorem canon_execPairResyncComplete (x0 : Fin 8) (x1 : Bool) (x2 : State) (h2 : Canon x2)
    : CanonR (execPairResyncComplete x0 x1 x2) := by
  unfold execPairResyncComplete
  repeat' with_reducible
    first | assumption | intro _ | apply canon_State_partReset | apply canon_State_teardown
          | apply canon_State_chargeUnit | apply canon_State_updPair | apply canon_foldl | apply canon_next_intro
          | apply canon_ite | apply canon_iteR

theorem canon_State_xferIssue (x0 : State) (x1 x2 : Nat) (x3 : Bool) (x4 : BitVec 56) (h0 : Canon x0)
    : CanonOut (State.xferIssue x0 x1 x2 x3 x4) := by
  unfold State.xferIssue
  repeat' first
    | with_reducible
        first | assumption | apply canon_State_updCore | apply canonOut_ok | exact canonOut_wait
              | exact canonOut_raise | apply canonOut_ite
    | split
    | dsimp only

theorem canon_execPull (x0 : Fin 1200) (x1 : BitVec 56) (x2 : State) (h2 : Canon x2)
    : CanonR (execPull x0 x1 x2) := by
  unfold execPull
  repeat' with_reducible first | assumption | intro _ | apply canon_State_xferIssue | apply canon_State_mSlot

theorem canon_execPush (x0 : Fin 1200) (x1 : BitVec 56) (x2 : State) (h2 : Canon x2)
    : CanonR (execPush x0 x1 x2) := by
  unfold execPush
  repeat' with_reducible first | assumption | intro _ | apply canon_State_xferIssue | apply canon_State_mSlot

theorem canon_State_csPut (x0 : State) (x1 x2 : Nat) (x3 : List Byte) (x4 : Bool) (h0 : Canon x0)
    : Canon (State.csPut x0 x1 x2 x3 x4) := by
  unfold State.csPut
  repeat' with_reducible first | assumption | apply canon_State_writeDA | apply canon_ite

theorem canon_State_setHead (x0 : State) (x1 x2 : Nat) (x3 : Option Xfer) (h0 : Canon x0)
    : Canon (State.setHead x0 x1 x2 x3) := by
  unfold State.setHead
  repeat' with_reducible first | assumption | apply canon_State_updCore

theorem canon_State_xferExc (x0 : State) (x1 x2 : Nat) (x3 : Xfer) (x4 x5 : Nat) (x6 : Bool) (h0 : Canon x0)
    : Canon (State.xferExc x0 x1 x2 x3 x4 x5 x6) := by
  unfold State.xferExc
  repeat' with_reducible first | assumption | apply canon_State_deferExc | apply canon_State_setHead

theorem canon_State_moveBlock (x0 : State) (x1 x2 : Nat) (x3 : Xfer) (x4 : BlockDesc) (x5 : BlockEntry)
    (h0 : Canon x0) : Canon (State.moveBlock x0 x1 x2 x3 x4 x5) := by
  unfold State.moveBlock
  repeat' with_reducible
    first | assumption | intro _ | apply canon_State_touch | apply canon_State_csPut | apply canon_State_xferExc
          | apply canon_State_wr | apply canon_State_writeDA | apply canon_State_setHead | apply canon_foldl
          | apply canon_ite

theorem canon_execTransferBlock (x0 : Fin 1200) (x1 : Fin 16) (x2 : State) (h2 : Canon x2)
    : CanonR (execTransferBlock x0 x1 x2) := by
  unfold execTransferBlock
  repeat' first
    | with_reducible
        first | assumption | apply canon_State_meshInject | apply canon_State_xferExc | apply canon_State_recall
              | apply canon_State_countCe | apply canon_State_injDone | apply canon_State_sramFault
              | apply canon_State_moveBlock | apply canon_State_setHead | apply canon_next_intro | apply canon_ite
              | apply canon_iteR | exact canon_none_intro | apply canon_iteO
    | split
    | with_reducible refine canon_of_some (by assumption) ?_
    | dsimp only

theorem canon_execTransferComplete (x0 : Fin 1200) (x1 : Fin 16) (x2 : State) (h2 : Canon x2)
    : CanonR (execTransferComplete x0 x1 x2) := by
  unfold execTransferComplete
  repeat' first
    | with_reducible
        first | assumption | apply canon_State_bumpCtr | apply canon_State_setHead | apply canon_next_intro
              | apply canon_iteR
    | split
    | dsimp only

theorem canon_State_ccApply (x0 : State) (x1 x2 : Nat) (x3 : Task) (x4 : Nat) (x5 : CcOut) (h0 : Canon x0) (h5 : CanonCc x5) :
    Canon (State.ccApply x0 x1 x2 x3 x4 x5) := by
  unfold State.ccApply
  split
  · apply canon_State_setTask; exact h5
  · apply canon_State_taskWait; apply canon_State_setTask; exact h5
  · split
    · apply canon_State_taskExc; exact h0
    · apply canon_State_setTask; exact h0
  · apply canon_State_taskWait; exact h0
  · apply canon_State_setTask; exact h5
  · apply canon_State_taskExc; apply canon_State_setTask; exact h5
  · apply canon_State_taskEnd; exact h0

theorem canon_State_ccInstr (x0 : State) (x1 : Nat) (x2 : BitVec 26) (x3 : List (Nat × Nat))
    (x4 : State → Nat → Task → CcOut) (h0 : Canon x0)
    (h4 : ∀ y0 : State, Canon y0 → ∀ y1 : Nat, ∀ y2 : Task, CanonCc (x4 y0 y1 y2))
    : CanonR (State.ccInstr x0 x1 x2 x3 x4) := by
  unfold State.ccInstr
  repeat' first
    | with_reducible
        first | assumption | apply h4 | apply canon_State_taskExc | apply canon_State_ccApply
              | apply canon_State_injDone | apply canon_State_updPair | apply canon_State_mismatch
              | apply canon_State_drawFree | apply canon_next_intro | apply canon_iteR
    | split

theorem canon_State_ccSet (x0 : State) (x1 : Nat) (x2 : BitVec 26) (x3 : List (Nat × Nat)) (x4 : Task → Option W64)
    (h0 : Canon x0) : CanonR (State.ccSet x0 x1 x2 x3 x4) := by
  unfold State.ccSet
  repeat' first
    | with_reducible
        first | assumption | intro _ | apply canon_State_ccInstr | apply canonCc_ok | apply canonCc_exc
    | split

theorem canon_execCcNop (x0 : Fin 8) (x1 : State) (h1 : Canon x1) : CanonR (execCcNop x0 x1) := by
  unfold execCcNop
  repeat' with_reducible first | assumption | intro _ | apply canon_State_ccInstr | apply canonCc_ok

theorem canon_execAlu (x0 : Fin 8) (x1 : BitVec 26) (x2 : State) (h2 : Canon x2) : CanonR (execAlu x0 x1 x2) := by
  unfold execAlu
  repeat' with_reducible first | assumption | apply canon_State_ccSet

theorem canon_execAddi (x0 : Fin 8) (x1 : BitVec 26) (x2 : State) (h2 : Canon x2) : CanonR (execAddi x0 x1 x2) := by
  unfold execAddi
  repeat' with_reducible first | assumption | apply canon_State_ccSet

theorem canon_execAndi (x0 : Fin 8) (x1 : BitVec 26) (x2 : State) (h2 : Canon x2) : CanonR (execAndi x0 x1 x2) := by
  unfold execAndi
  repeat' with_reducible first | assumption | apply canon_State_ccSet

theorem canon_execOri (x0 : Fin 8) (x1 : BitVec 26) (x2 : State) (h2 : Canon x2) : CanonR (execOri x0 x1 x2) := by
  unfold execOri
  repeat' with_reducible first | assumption | apply canon_State_ccSet

theorem canon_execXori (x0 : Fin 8) (x1 : BitVec 26) (x2 : State) (h2 : Canon x2) : CanonR (execXori x0 x1 x2) := by
  unfold execXori
  repeat' with_reducible first | assumption | apply canon_State_ccSet

theorem canon_execShi (x0 : Fin 8) (x1 : BitVec 26) (x2 : State) (h2 : Canon x2) : CanonR (execShi x0 x1 x2) := by
  unfold execShi
  repeat' with_reducible first | assumption | apply canon_State_ccSet

theorem canon_execMovi (x0 : Fin 8) (x1 : BitVec 26) (x2 : State) (h2 : Canon x2) : CanonR (execMovi x0 x1 x2) := by
  unfold execMovi
  repeat' with_reducible first | assumption | apply canon_State_ccSet

theorem canon_execMovk (x0 : Fin 8) (x1 : BitVec 26) (x2 : State) (h2 : Canon x2) : CanonR (execMovk x0 x1 x2) := by
  unfold execMovk
  repeat' with_reducible first | assumption | apply canon_State_ccSet

theorem canon_execCcTime (x0 : Fin 8) (x1 : BitVec 26) (x2 : State) (h2 : Canon x2)
    : CanonR (execCcTime x0 x1 x2) := by
  unfold execCcTime
  repeat' with_reducible first | assumption | apply canon_State_ccSet

theorem canon_State_ccLoad (x0 : State) (x1 : Nat) (x2 : BitVec 26) (x3 : Nat) (h0 : Canon x0)
    : CanonR (State.ccLoad x0 x1 x2 x3) := by
  unfold State.ccLoad
  repeat' first
    | with_reducible
        first | assumption | intro _ | apply canon_State_ccInstr | apply canonCc_ok | apply canonCc_exc
    | split
    | dsimp only

theorem canon_State_ccStore (x0 : State) (x1 : Nat) (x2 : BitVec 26) (x3 : Nat) (h0 : Canon x0)
    : CanonR (State.ccStore x0 x1 x2 x3) := by
  unfold State.ccStore
  repeat' first
    | with_reducible
        first | assumption | intro _ | apply canon_State_ccInstr | apply canonCc_ok | apply canonCc_exc
    | split
    | dsimp only

theorem canon_execLd (x0 : Fin 8) (x1 : BitVec 26) (x2 : State) (h2 : Canon x2) : CanonR (execLd x0 x1 x2) := by
  unfold execLd
  repeat' with_reducible first | assumption | apply canon_State_ccLoad

theorem canon_execLw (x0 : Fin 8) (x1 : BitVec 26) (x2 : State) (h2 : Canon x2) : CanonR (execLw x0 x1 x2) := by
  unfold execLw
  repeat' with_reducible first | assumption | apply canon_State_ccLoad

theorem canon_execSt (x0 : Fin 8) (x1 : BitVec 26) (x2 : State) (h2 : Canon x2) : CanonR (execSt x0 x1 x2) := by
  unfold execSt
  repeat' with_reducible first | assumption | apply canon_State_ccStore

theorem canon_execSw (x0 : Fin 8) (x1 : BitVec 26) (x2 : State) (h2 : Canon x2) : CanonR (execSw x0 x1 x2) := by
  unfold execSw
  repeat' with_reducible first | assumption | apply canon_State_ccStore

theorem canon_State_ccBranch (x0 : State) (x1 : Nat) (x2 : BitVec 26) (x3 : Nat) (h0 : Canon x0)
    : CanonR (State.ccBranch x0 x1 x2 x3) := by
  unfold State.ccBranch
  repeat' with_reducible
    first | assumption | intro _ | apply canon_State_ccInstr | exact canonCc_goto | apply canonCc_ok
          | apply canonCc_ite

theorem canon_execBeq (x0 : Fin 8) (x1 : BitVec 26) (x2 : State) (h2 : Canon x2) : CanonR (execBeq x0 x1 x2) := by
  unfold execBeq
  repeat' with_reducible first | assumption | apply canon_State_ccBranch

theorem canon_execBne (x0 : Fin 8) (x1 : BitVec 26) (x2 : State) (h2 : Canon x2) : CanonR (execBne x0 x1 x2) := by
  unfold execBne
  repeat' with_reducible first | assumption | apply canon_State_ccBranch

theorem canon_execBlt (x0 : Fin 8) (x1 : BitVec 26) (x2 : State) (h2 : Canon x2) : CanonR (execBlt x0 x1 x2) := by
  unfold execBlt
  repeat' with_reducible first | assumption | apply canon_State_ccBranch

theorem canon_execBge (x0 : Fin 8) (x1 : BitVec 26) (x2 : State) (h2 : Canon x2) : CanonR (execBge x0 x1 x2) := by
  unfold execBge
  repeat' with_reducible first | assumption | apply canon_State_ccBranch

theorem canon_execBltu (x0 : Fin 8) (x1 : BitVec 26) (x2 : State) (h2 : Canon x2) : CanonR (execBltu x0 x1 x2) := by
  unfold execBltu
  repeat' with_reducible first | assumption | apply canon_State_ccBranch

theorem canon_execBgeu (x0 : Fin 8) (x1 : BitVec 26) (x2 : State) (h2 : Canon x2) : CanonR (execBgeu x0 x1 x2) := by
  unfold execBgeu
  repeat' with_reducible first | assumption | apply canon_State_ccBranch

theorem canon_execJal (x0 : Fin 8) (x1 : BitVec 26) (x2 : State) (h2 : Canon x2) : CanonR (execJal x0 x1 x2) := by
  unfold execJal
  repeat' with_reducible first | assumption | intro _ | apply canon_State_ccInstr | exact canonCc_goto

theorem canon_execJr (x0 : Fin 8) (x1 : BitVec 26) (x2 : State) (h2 : Canon x2) : CanonR (execJr x0 x1 x2) := by
  unfold execJr
  repeat' with_reducible first | assumption | intro _ | apply canon_State_ccInstr | exact canonCc_goto

theorem canon_execSleep (x0 : Fin 8) (x1 : BitVec 26) (x2 : State) (h2 : Canon x2) : CanonR (execSleep x0 x1 x2) := by
  unfold execSleep
  repeat' with_reducible
    first | assumption | intro _ | apply canon_State_ccInstr | apply canonCc_ok | apply canonCc_then
          | apply canonCc_ite

theorem canon_execWaitq (x0 : Fin 8) (x1 : BitVec 26) (x2 : State) (h2 : Canon x2) : CanonR (execWaitq x0 x1 x2) := by
  unfold execWaitq
  repeat' with_reducible
    first | assumption | intro _ | apply canon_State_ccInstr | exact canonCc_wait | apply canonCc_exc
          | apply canonCc_ite

theorem canon_execWaiti (x0 : Fin 8) (x1 : BitVec 26) (x2 : State) (h2 : Canon x2) : CanonR (execWaiti x0 x1 x2) := by
  unfold execWaiti
  repeat' first
    | with_reducible
        first | assumption | intro _ | apply canon_State_ccInstr | exact canonCc_wait | apply canonCc_ok
              | apply canonCc_exc | apply canonCc_ite
    | split

theorem canon_State_issueList (x0 : State) (x1 x2 : Nat) (x3 : Task) (x4 : Nat) (x5 : List Byte) (x6 : Nat)
    (h0 : Canon x0) : Canon (State.issueList x0 x1 x2 x3 x4 x5 x6) := by
  unfold State.issueList
  repeat' with_reducible
    first | assumption | apply canon_State_updPart | apply canon_ite | (simp only [canon_mk_iff]; apply canon_fold)

theorem canon_execIssue (x0 : Fin 8) (x1 : BitVec 26) (x2 : State) (h2 : Canon x2) : CanonR (execIssue x0 x1 x2) := by
  unfold execIssue
  repeat' first
    | with_reducible
        first | assumption | intro _ | apply canon_State_ccInstr | apply canon_State_issueList | exact canonCc_wait
              | apply canonCc_ok | apply canonCc_exc | apply canonCc_ite
    | split
    | dsimp only

theorem canon_execPost (x0 : Fin 8) (x1 : BitVec 26) (x2 : State) (h2 : Canon x2) : CanonR (execPost x0 x1 x2) := by
  unfold execPost
  repeat' first
    | with_reducible
        first | assumption | intro _ | apply canon_State_slotCleared | apply canon_State_answer
              | apply canon_State_postOwed | apply canon_State_ccInstr | apply canon_State_dropOwed | apply canon_ite
              | apply canonCc_ok | apply canonCc_exc | apply canonCc_ite
    | split
    | dsimp only

theorem canon_State_dmovOut (x0 : State) (x1 : Task) (x2 x3 x4 : Nat) (h0 : Canon x0)
    : CanonCc (State.dmovOut x0 x1 x2 x3 x4) := by
  unfold State.dmovOut
  repeat' with_reducible
    first | assumption | apply canon_State_wr | apply canonCc_ok | apply canonCc_then | apply canonCc_ite

theorem canon_State_dmovBring (x0 : State) (x1 : Task) (x2 x3 x4 : Nat) (h0 : Canon x0)
    : CanonCc (State.dmovBring x0 x1 x2 x3 x4) := by
  unfold State.dmovBring
  repeat' first
    | with_reducible
        first | assumption | apply canon_State_touch | apply canon_State_recall | apply canonCc_ok
              | apply canonCc_again | apply canonCc_exc | apply canonCc_ite
    | split
    | with_reducible refine canon_of_some (by assumption) ?_

theorem canon_execDmov (x0 : Fin 8) (x1 : BitVec 26) (x2 : State) (h2 : Canon x2) : CanonR (execDmov x0 x1 x2) := by
  unfold execDmov
  repeat' first
    | with_reducible
        first | assumption | intro _ | apply canon_State_dmovOut | apply canon_State_ccInstr
              | apply canon_State_dmovBring | apply canonCc_exc | apply canonCc_ite
    | split

theorem canon_execUpd (x0 : Fin 8) (x1 : BitVec 26) (x2 : State) (h2 : Canon x2) : CanonR (execUpd x0 x1 x2) := by
  unfold execUpd
  repeat' first
    | with_reducible
        first | assumption | intro _ | apply canon_State_touch | apply canon_State_batchAccept
              | apply canon_State_recall | apply canon_State_ccInstr | apply canon_State_setTask
              | apply canon_State_devWrite | apply canon_ite | exact canonCc_wait | apply canonCc_ok
              | apply canonCc_again | apply canonCc_exc | apply canonCc_ite
    | split
    | with_reducible refine canon_of_some (by assumption) ?_
    | dsimp only

theorem canon_State_seqOp (x0 : State) (x1 : Nat) (x2 : BitVec 26) (x3 : Nat) (x4 : List (Nat × Nat))
    (x5 : State → Nat → Task → CcOut) (h0 : Canon x0)
    (h5 : ∀ y0 : State, Canon y0 → ∀ y1 : Nat, ∀ y2 : Task, CanonCc (x5 y0 y1 y2))
    : CanonR (State.seqOp x0 x1 x2 x3 x4 x5) := by
  unfold State.seqOp
  repeat' with_reducible
    first | assumption | intro _ | apply h5 | apply canon_State_ccInstr | apply canon_next_intro | apply canon_iteR
          | apply canonCc_exc | apply canonCc_ite

theorem canon_execSeqCreate (x0 : Fin 8) (x1 : BitVec 26) (x2 : State) (h2 : Canon x2)
    : CanonR (execSeqCreate x0 x1 x2) := by
  unfold execSeqCreate
  repeat' first
    | with_reducible
        first | assumption | intro _ | apply canon_State_seqOp | apply canon_State_updAst | apply canon_State_pickFree
              | apply canonCc_ok | apply canonCc_exc | apply canonCc_ite
    | split
    | dsimp only

theorem canon_execSeqRead (x0 : Fin 8) (x1 : BitVec 26) (x2 : State) (h2 : Canon x2)
    : CanonR (execSeqRead x0 x1 x2) := by
  unfold execSeqRead
  repeat' first
    | with_reducible
        first | assumption | intro _ | apply canon_State_seqOp | apply canonCc_ok | apply canonCc_exc
              | apply canonCc_ite
    | split

theorem canon_execSeqRetire (x0 : Fin 8) (x1 : BitVec 26) (x2 : State) (h2 : Canon x2)
    : CanonR (execSeqRetire x0 x1 x2) := by
  unfold execSeqRetire
  repeat' with_reducible
    first | assumption | intro _ | apply canon_State_seqOp | apply canon_State_updAst | apply canonCc_ok
          | apply canonCc_exc | apply canonCc_ite

theorem canon_execCcFault (x0 : Fin 8) (x1 : BitVec 26) (x2 : State) (h2 : Canon x2)
    : CanonR (execCcFault x0 x1 x2) := by
  unfold execCcFault
  repeat' with_reducible first | assumption | intro _ | apply canon_State_ccInstr | apply canonCc_exc

theorem canon_execTaskEnd (x0 : Fin 8) (x1 : BitVec 26) (x2 : State) (h2 : Canon x2)
    : CanonR (execTaskEnd x0 x1 x2) := by
  unfold execTaskEnd
  repeat' with_reducible first | assumption | intro _ | apply canon_State_ccInstr | exact canonCc_ends

theorem canon_execSqDb (x0 : Fin 1024) (x1 : W32) (x2 : State) (h2 : Canon x2) : CanonR (execSqDb x0 x1 x2) := by
  unfold execSqDb
  repeat' with_reducible
    first | assumption | apply canon_State_queueFault | apply canon_State_updQ | apply canon_next_intro
          | apply canon_iteR

theorem canon_execCqDb (x0 : Fin 1024) (x1 : W32) (x2 : State) (h2 : Canon x2) : CanonR (execCqDb x0 x1 x2) := by
  unfold execCqDb
  repeat' with_reducible
    first | assumption | apply canon_State_updQ | apply canon_next_intro | apply canon_iteR

theorem canon_State_sqeRefuse (x0 : State) (x1 : Nat) (x2 : Sqe) (x3 : BitVec 12) (h0 : Canon x0)
    : Canon (State.sqeRefuse x0 x1 x2 x3) := by
  unfold State.sqeRefuse
  repeat' with_reducible first | assumption | apply canon_State_postCqe

theorem canon_State_sqeStart (x0 : State) (x1 : Nat) (x2 : Sqe) (x3 : Nat) (h0 : Canon x0)
    : Canon (State.sqeStart x0 x1 x2 x3) := by
  unfold State.sqeStart
  repeat' with_reducible first | assumption | apply canon_State_updQ | apply canon_ite

theorem canon_execSqeFetch (x0 : Fin 1024) (x1 : Line) (x2 : Bool) (x3 : State) (h3 : Canon x3)
    : CanonR (execSqeFetch x0 x1 x2 x3) := by
  unfold execSqeFetch
  repeat' first
    | with_reducible
        first | assumption | apply canon_State_sqeStart | apply canon_State_sqeRefuse | apply canon_State_fetchFailed
              | apply canon_State_sqeRecall | apply canon_State_updQ | apply canon_next_intro | apply canon_iteR
    | split
    | with_reducible refine canon_of_some (by assumption) ?_
    | dsimp only

theorem canon_execSqeNop (x0 : KCmd) (x1 : State) (h1 : Canon x1) : CanonR (execSqeNop x0 x1) := by
  unfold execSqeNop
  repeat' with_reducible first | assumption | apply canon_State_done | apply canon_next_intro

theorem canon_execTaskRunHeadTimeout (x0 : Fin 1024) (x1 : State) (h1 : Canon x1)
    : CanonR (execTaskRunHeadTimeout x0 x1) := by
  unfold execTaskRunHeadTimeout
  repeat' first
    | with_reducible
        first | assumption | apply canon_State_sqeRefuse | apply canon_State_updQ | apply canon_next_intro
              | apply canon_iteR
    | split

theorem canon_execCqeHoldRelease (x0 : Fin 1024) (x1 : State) (h1 : Canon x1)
    : CanonR (execCqeHoldRelease x0 x1) := by
  unfold execCqeHoldRelease
  repeat' first
    | with_reducible
        first | assumption | apply canon_State_writeCqe | apply canon_State_updQ | apply canon_next_intro
              | apply canon_iteR
    | split
    | dsimp only

theorem canon_execCqeHoldTimeout (x0 : Fin 1024) (x1 : State) (h1 : Canon x1)
    : CanonR (execCqeHoldTimeout x0 x1) := by
  unfold execCqeHoldTimeout
  repeat' first
    | with_reducible
        first | assumption | apply canon_State_queueFault | apply canon_State_updQ | apply canon_State_irqEvent
              | apply canon_next_intro | apply canon_ite | apply canon_iteR
    | split

theorem canon_execCqCoalesceTimeout (x0 : Fin 1024) (x1 : State) (h1 : Canon x1)
    : CanonR (execCqCoalesceTimeout x0 x1) := by
  unfold execCqCoalesceTimeout
  repeat' with_reducible
    first | assumption | apply canon_State_signalQ | apply canon_next_intro | apply canon_iteR

theorem canon_State_queueDrain (x0 : State) (x1 : Nat) (h0 : Canon x0) : Canon (State.queueDrain x0 x1) := by
  unfold State.queueDrain
  repeat' first
    | with_reducible first | assumption | apply canon_State_sqeRefuse | apply canon_State_updQ
    | split

theorem canon_State_writeSqCfg (x0 : State) (x1 : Nat) (x2 : W32) (x3 : Bool) (h0 : Canon x0)
    : Canon (State.writeSqCfg x0 x1 x2 x3) := by
  unfold State.writeSqCfg
  repeat' with_reducible
    first | assumption | apply canon_State_queueDrain | apply canon_State_updQ | apply canon_ite

theorem canon_execSqCfgWrite (x0 : AccessPath) (x1 : Fin 1024) (x2 : W32) (x3 : Bool) (x4 : State) (h4 : Canon x4)
    : CanonR (execSqCfgWrite x0 x1 x2 x3 x4) := by
  unfold execSqCfgWrite
  repeat' with_reducible
    first | assumption | intro _ | apply canon_State_writeSqCfg | apply canon_State_onCsr | apply canon_next_intro

theorem canon_execQueueDrained (x0 : Fin 1024) (x1 : State) (h1 : Canon x1) : CanonR (execQueueDrained x0 x1) := by
  unfold execQueueDrained
  repeat' with_reducible
    first | assumption | apply canon_State_updQ | apply canon_next_intro | apply canon_iteR

theorem canon_State_queueOff (x0 : State) (x1 : Nat) (h0 : Canon x0) : Canon (State.queueOff x0 x1) := by
  unfold State.queueOff
  repeat' with_reducible
    first | assumption | intro _ | apply canon_State_slotCleared | apply canon_State_queueFault
          | apply canon_State_updQ | apply canon_State_dropOwed | apply canon_foldl | apply canon_ite

theorem canon_execCoreWaitTimeout (x0 : Fin 1200) (x1 : State) (h1 : Canon x1)
    : CanonR (execCoreWaitTimeout x0 x1) := by
  unfold execCoreWaitTimeout
  repeat' first
    | with_reducible
        first | assumption | apply canon_State_updCore | apply canon_State_tearCluster | apply canon_State_coreFault
              | apply canon_next_intro | apply canon_iteR
    | split
    | dsimp only

theorem canon_State_secFault (x0 : State) (x1 : Nat) (h0 : Canon x0) : Canon (State.secFault x0 x1) := by
  unfold State.secFault
  repeat' with_reducible first | assumption | apply canon_State_fault

theorem canon_State_msixRelease (x0 : State) (h0 : Canon x0) : Canon (State.msixRelease x0) := by
  unfold State.msixRelease
  repeat' with_reducible first | assumption | (simp only [canon_mk_iff]; apply canon_fold)

theorem canon_State_ideSettle (x0 : State) (h0 : Canon x0) : Canon (State.ideSettle x0) := by
  unfold State.ideSettle
  repeat' with_reducible
    first | assumption | apply canon_State_secFault | apply canon_State_msixRelease | apply canon_ite
          | (simp only [canon_mk_iff]; apply canon_fold)

theorem canon_State_pwrSettle (x0 : State) (h0 : Canon x0) : Canon (State.pwrSettle x0) := by
  unfold State.pwrSettle
  repeat' with_reducible first | assumption | apply canon_ite | (simp only [canon_mk_iff]; apply canon_fold)

theorem canon_State_stewardBack (x0 : State) (h0 : Canon x0) : Canon (State.stewardBack x0) := by
  unfold State.stewardBack
  repeat' with_reducible
    first | assumption | apply canon_State_pwrSettle | (simp only [canon_mk_iff]; apply canon_fold)

theorem canon_State_updHost (x0 : State) (x1 : HostState → HostState) (h0 : Canon x0)
    : Canon (State.updHost x0 x1) := by
  unfold State.updHost
  repeat' with_reducible first | assumption | (simp only [canon_mk_iff]; apply canon_fold)

theorem canon_State_hostLineWrite (x0 : State) (x1 : Nat) (x2 : List Byte) (x3 : Bool) (h0 : Canon x0)
    : Canon (State.hostLineWrite x0 x1 x2 x3) := by
  unfold State.hostLineWrite
  repeat' first
    | with_reducible first | assumption | apply canon_State_headerWrite | apply canon_State_writeDA
    | split

theorem canon_State_setSnoop (x0 : State) (x1 : Nat) (x2 : Option SnoopState) (h0 : Canon x0)
    : Canon (State.setSnoop x0 x1 x2) := by
  unfold State.setSnoop
  repeat' with_reducible first | assumption | apply canon_State_updHost

theorem canon_State_biAdvance (x1 x2 : Nat) : ∀ (x0 : State) (h0 : Canon x0), Canon (State.biAdvance x0 x1 x2) := by
  induction x2 with
  | zero => intro s h; exact h
  | succ k ih =>
    intro x0 h0
    unfold State.biAdvance
    repeat' (first
    | with_reducible assumption
    | with_reducible apply ih
    | with_reducible apply canon_State_emit
    | with_reducible apply canon_State_updHost
    | with_reducible apply canon_State_writeDA
    | with_reducible apply canon_ite
    | split)

theorem canon_execBisnpResponse (x0 : Nat) (x1 : Option Line) (x2 : State) (h2 : Canon x2)
    : CanonR (execBisnpResponse x0 x1 x2) := by
  unfold execBisnpResponse
  repeat' first
    | with_reducible
        first | assumption | apply canon_State_setSnoop | apply canon_State_biAdvance
              | apply canon_State_hostLineWrite | apply canon_next_intro
    | split

theorem canon_execBiconflict (x0 : BitVec 24) (x1 : State) (h1 : Canon x1) : CanonR (execBiconflict x0 x1) := by
  unfold execBiconflict
  repeat' with_reducible
    first | assumption | apply canon_State_updHost | apply canon_State_emit | apply canon_next_intro
          | apply canon_iteR

theorem canon_execWindowHostAccess (x0 : BitVec 24) (x1 : Option Line) (x2 : Bool) (x3 : Option SnoopState)
    (x4 : State) (h4 : Canon x4) : CanonR (execWindowHostAccess x0 x1 x2 x3 x4) := by
  unfold execWindowHostAccess
  repeat' first
    | with_reducible
        first | assumption | apply canon_State_setSnoop | apply canon_State_hostLineWrite | apply canon_State_updHost
              | apply canon_State_emit | apply canon_next_intro | apply canon_iteR
    | split

theorem canon_execSpoutHeaderWrite (x0 : Fin 4096) (x1 : Line) (x2 : Bool) (x3 : State) (h3 : Canon x3)
    : CanonR (execSpoutHeaderWrite x0 x1 x2 x3) := by
  unfold execSpoutHeaderWrite
  repeat' with_reducible
    first | assumption | apply canon_State_setSnoop | apply canon_State_hostLineWrite | apply canon_next_intro
          | apply canon_iteR

theorem canon_State_writeGrpA (x0 : State) (x1 : Nat) (x2 : W32) (h0 : Canon x0)
    : Canon (State.writeGrpA x0 x1 x2) := by
  unfold State.writeGrpA
  repeat' with_reducible
    first | assumption | apply canon_State_groupClose | apply canon_State_updGroup | apply canon_ite

theorem canon_State_writeGrpB (x0 : State) (x1 : Nat) (x2 : W32) (h0 : Canon x0)
    : Canon (State.writeGrpB x0 x1 x2) := by
  unfold State.writeGrpB
  repeat' with_reducible first | assumption | apply canon_State_updGroup

theorem canon_execSpGrpAWrite (x0 : AccessPath) (x1 : Fin 64) (x2 : W32) (x3 : State) (h3 : Canon x3)
    : CanonR (execSpGrpAWrite x0 x1 x2 x3) := by
  unfold execSpGrpAWrite
  repeat' with_reducible
    first | assumption | intro _ | apply canon_State_onCsr | apply canon_State_writeGrpA | apply canon_next_intro

theorem canon_State_undoReq (x0 : State) (x1 : Nat) (x2 : CacheReq) (h0 : Canon x0)
    : Canon (State.undoReq x0 x1 x2) := by
  unfold State.undoReq
  repeat' with_reducible
    first | assumption | intro _ | apply canon_State_updHost | apply canon_ite | apply canon_foldl1
          | (simp only [canon_mk_iff]; refine canonParts_cells (by assumption) ?_) | refine wf_writeCells ?_
          | exact canon_cells (by assumption)

theorem canon_State_evictLine (x0 : State) (x1 : Nat) (h0 : Canon x0) : Canon (State.evictLine x0 x1) := by
  unfold State.evictLine
  repeat' with_reducible first | assumption | apply canon_State_updHost | apply canon_State_emit

theorem canon_State_needWay (x0 : State) (h0 : Canon x0) : Canon (State.needWay x0) := by
  unfold State.needWay
  repeat' first
    | with_reducible
        first | assumption | apply canon_State_evictLine | apply canon_State_updHost | apply canon_State_drawFree
              | apply canon_State_drawBit | apply canon_ite2 | apply canon_ite
    | split
    | with_reducible refine canon_snd (by assumption) ?_

theorem canon_State_install (x0 : State) (x1 : CacheReq) (h0 : Canon x0) : Canon (State.install x0 x1) := by
  unfold State.install
  repeat' first
    | with_reducible first | assumption | apply canon_State_needWay | apply canon_State_updHost
    | split

theorem canon_execCxlCacheGo (x0 : Nat) (x1 : GoKind) (x2 : State) (h2 : Canon x2)
    : CanonR (execCxlCacheGo x0 x1 x2) := by
  unfold execCxlCacheGo
  repeat' first
    | with_reducible
        first | assumption | apply canon_State_hostFault | apply canon_State_install | apply canon_State_breakModel
              | apply canon_State_updHost | apply canon_State_undoReq | apply canon_State_emit
              | apply canon_next_intro | apply canon_ite | apply canon_iteR
    | split

theorem canon_State_evictEnd (x0 : State) (x1 : Nat) (h0 : Canon x0) : Canon (State.evictEnd x0 x1) := by
  unfold State.evictEnd
  repeat' with_reducible
    first | assumption | apply canon_State_updHost | apply canon_State_emit | apply canon_ite

theorem canon_execGoWritepull (x0 : BitVec 46) (x1 : Bool) (x2 : State) (h2 : Canon x2)
    : CanonR (execGoWritepull x0 x1 x2) := by
  unfold execGoWritepull
  repeat' first
    | with_reducible
        first | assumption | apply canon_State_evictEnd | apply canon_State_emit | apply canon_next_intro
              | apply canon_ite | apply canon_iteR
    | split
    | dsimp only

theorem canon_execHostSnoop (x0 : BitVec 46) (x1 : SnoopKind) (x2 : State) (h2 : Canon x2)
    : CanonR (execHostSnoop x0 x1 x2) := by
  unfold execHostSnoop
  repeat' first
    | with_reducible
        first | assumption | apply canon_State_updHost | apply canon_State_emit | apply canon_next_intro
              | apply canon_iteR
    | split
    | dsimp only

theorem canon_execHlcWritebackTimer (x0 : BitVec 46) (x1 : State) (h1 : Canon x1)
    : CanonR (execHlcWritebackTimer x0 x1) := by
  unfold execHlcWritebackTimer
  repeat' first
    | with_reducible
        first | assumption | apply canon_State_evictLine | apply canon_next_intro | apply canon_iteR
    | split

theorem canon_State_flushHlc (x0 : State) (h0 : Canon x0) : Canon (State.flushHlc x0) := by
  unfold State.flushHlc
  repeat' with_reducible first | assumption | apply canon_State_updHost | apply canon_State_evictWhere

theorem canon_State_writeHlc (x0 : State) (x1 : W32) (h0 : Canon x0) : Canon (State.writeHlc x0 x1) := by
  unfold State.writeHlc
  repeat' with_reducible
    first | assumption | apply canon_State_flushHlc | apply canon_State_updHost | apply canon_ite

theorem canon_execHcHlcFlush (x0 : AccessPath) (x1 : W32) (x2 : State) (h2 : Canon x2)
    : CanonR (execHcHlcFlush x0 x1 x2) := by
  unfold execHcHlcFlush
  repeat' with_reducible
    first | assumption | intro _ | apply canon_State_onCsr | apply canon_State_writeHlc | apply canon_next_intro

theorem canon_execHdmDecoderCommit (x0 : Fin 2) (x1 : Bool) (x2 : Nat) (x3 : Bool) (x4 : State) (h4 : Canon x4)
    : CanonR (execHdmDecoderCommit x0 x1 x2 x3 x4) := by
  unfold execHdmDecoderCommit
  repeat' with_reducible
    first | assumption | apply canon_State_updHost | apply canon_next_intro | apply canon_iteR

theorem canon_execApertureAccess (x0 : BitVec 32) (x1 : Bool) (x2 : List Byte) (x3 : Bool) (x4 : State)
    (h4 : Canon x4) : CanonR (execApertureAccess x0 x1 x2 x3 x4) := by
  unfold execApertureAccess
  repeat' with_reducible
    first | assumption | apply canon_State_hostFault | apply canon_State_writeDA | apply canon_State_updHost
          | apply canon_State_emit | apply canon_next_intro | apply canon_ite | apply canon_iteR

theorem canon_execHcAptWrite (x0 : AccessPath) (x1 : W32) (x2 : State) (h2 : Canon x2)
    : CanonR (execHcAptWrite x0 x1 x2) := by
  unfold execHcAptWrite
  repeat' with_reducible
    first | assumption | intro _ | apply canon_State_onCsr | apply canon_State_updHost | apply canon_next_intro

theorem canon_State_writeBflip (x0 : State) (x1 : W32) (h0 : Canon x0) : Canon (State.writeBflip x0 x1) := by
  unfold State.writeBflip
  repeat' with_reducible
    first | assumption | apply canon_State_emit | apply canon_ite | (simp only [canon_mk_iff]; apply canon_fold)

end Sys2Proof.Machine
end

