-- ==== Sys2Proof/Laws/Canon6.lean ====
section
/-! SUPPORT. Part 6 of the lemmas that say, one a function, that it keeps `Canon`. -/
namespace Sys2Proof.Machine
open Sys2Proof
set_option maxRecDepth 4000

theorem canon_execHcBflipGo (x0 : AccessPath) (x1 : W32) (x2 : State) (h2 : Canon x2)
    : CanonR (execHcBflipGo x0 x1 x2) := by
  unfold execHcBflipGo
  repeat' with_reducible
    first | assumption | intro _ | apply canon_State_writeBflip | apply canon_State_onCsr | apply canon_next_intro

theorem canon_execBiasFlipComplete (x0 : State) (h0 : Canon x0) : CanonR (execBiasFlipComplete x0) := by
  unfold execBiasFlipComplete
  repeat' with_reducible
    first | assumption | apply canon_State_updHost | apply canon_next_intro | apply canon_iteR

theorem canon_State_writeLcw (x0 : State) (x1 : W32) (h0 : Canon x0) : Canon (State.writeLcw x0 x1) := by
  unfold State.writeLcw
  repeat' with_reducible
    first | assumption | apply canon_State_updHost | apply canon_ite | (simp only [canon_mk_iff]; apply canon_fold)

theorem canon_execHcLcwWrite (x0 : AccessPath) (x1 : W32) (x2 : State) (h2 : Canon x2)
    : CanonR (execHcLcwWrite x0 x1 x2) := by
  unfold execHcLcwWrite
  repeat' with_reducible
    first | assumption | intro _ | apply canon_State_writeLcw | apply canon_State_onCsr | apply canon_next_intro

theorem canon_execBusMasterEnableWrite (x0 : Fin 17) (x1 : Bool) (x2 : State) (h2 : Canon x2)
    : CanonR (execBusMasterEnableWrite x0 x1 x2) := by
  unfold execBusMasterEnableWrite
  repeat' with_reducible
    first | assumption | apply canon_State_updFunc | apply canon_State_msixRelease | apply canon_next_intro

theorem canon_execVfPowerStateWrite (x0 : Fin 16) (x1 : Bool) (x2 : State) (h2 : Canon x2)
    : CanonR (execVfPowerStateWrite x0 x1 x2) := by
  unfold execVfPowerStateWrite
  repeat' with_reducible
    first | assumption | apply canon_State_updFunc | apply canon_State_msixRelease | apply canon_next_intro

theorem canon_execVfFlr (x0 : Fin 16) (x1 : State) (h1 : Canon x1) : CanonR (execVfFlr x0 x1) := by
  unfold execVfFlr
  repeat' with_reducible
    first | assumption | intro _ | apply canon_State_groupClose | apply canon_State_updGroup
          | apply canon_State_updFunc | apply canon_State_queueOff | apply canon_State_updHost | apply canon_foldl
          | apply canon_next_intro

theorem canon_execPfFlr (x0 : State) (h0 : Canon x0) : CanonR (execPfFlr x0) := by
  unfold execPfFlr
  repeat' first
    | with_reducible assumption
    | exact rstOk_of fun _ h => h
    | with_reducible first | apply canon_State_deviceReset | apply canon_next_intro | apply canon_iteR

theorem canon_execHostLinkUp (x0 : BitVec 2) (x1 : BitVec 5) (x2 : Bool) (x3 : State) (h3 : Canon x3)
    : CanonR (execHostLinkUp x0 x1 x2 x3) := by
  unfold execHostLinkUp
  repeat' with_reducible
    first | assumption | apply canon_State_updHost | apply canon_next_intro | apply canon_iteR

theorem canon_State_breakReservoir (x0 : State) (h0 : Canon x0) : Canon (State.breakReservoir x0) := by
  unfold State.breakReservoir
  repeat' with_reducible
    first | assumption | intro _ | apply canon_State_breakModel | apply canon_foldl | apply canon_ite

theorem canon_State_linkDown (x0 : State) (h0 : Canon x0) : Canon (State.linkDown x0) := by
  unfold State.linkDown
  extract_lets dirty s1 s2 s3 h
  have h1 : Canon s1 := by
    apply canon_foldr _ h0
    intro r st hs
    exact canon_mk (canonParts_cells hs (wf_writeCells (canon_cells hs)))
  have h2 : Canon s2 := by
    apply canon_foldl _ h1
    intro st r hs
    exact canon_mk (canonParts_cells hs (wf_writeCells (canon_cells hs)))
  have h3 : Canon s3 := by
    apply canon_foldl _ h2
    intro st w hs
    exact canon_ite (canon_State_writeDA _ _ _ _ hs) hs
  clear_value s1 s2 s3 h dirty
  apply canon_State_ideSettle
  apply canon_State_hostFault
  apply canon_State_breakReservoir
  exact h3

theorem canon_execHostLinkDown (x0 : State) (h0 : Canon x0) : CanonR (execHostLinkDown x0) := by
  unfold execHostLinkDown
  repeat' with_reducible
    first | assumption | apply canon_State_linkDown | apply canon_next_intro | apply canon_iteR

theorem canon_execIdeIntegrityFailure (x0 : State) (h0 : Canon x0) : CanonR (execIdeIntegrityFailure x0) := by
  unfold execIdeIntegrityFailure
  repeat' with_reducible
    first | assumption | apply canon_State_linkDown | apply canon_State_hostFault | apply canon_next_intro
          | apply canon_iteR

theorem canon_execIdeKeyRefresh (x0 : State) (h0 : Canon x0) : CanonR (execIdeKeyRefresh x0) := by
  unfold execIdeKeyRefresh
  repeat' with_reducible first | assumption | apply canon_next_intro

theorem canon_execIdeKmKeyProgram (x0 x1 : Bool) (x2 : State) (h2 : Canon x2)
    : CanonR (execIdeKmKeyProgram x0 x1 x2) := by
  unfold execIdeKmKeyProgram
  repeat' with_reducible
    first | assumption | apply canon_State_ideSettle | apply canon_State_updHost | apply canon_next_intro
          | apply canon_iteR

theorem canon_State_writeIntSts (x0 : State) (x1 : W32) (h0 : Canon x0) : Canon (State.writeIntSts x0 x1) := by
  unfold State.writeIntSts
  repeat' with_reducible first | assumption | (simp only [canon_mk_iff]; apply canon_fold)

theorem canon_State_writeIntCtl (x0 : State) (x1 : W32) (h0 : Canon x0) : Canon (State.writeIntCtl x0 x1) := by
  unfold State.writeIntCtl
  repeat' with_reducible first | assumption | (simp only [canon_mk_iff]; apply canon_fold)

theorem canon_State_unitOut (x0 : State) (x1 : UnitKind) (x2 : Nat) (h0 : Canon x0)
    : Canon (State.unitOut x0 x1 x2) := by
  unfold State.unitOut
  repeat' first
    | with_reducible
        first | assumption | intro _ | apply canon_State_partReset | apply canon_State_pairDown
              | apply canon_State_dieReset | apply canon_foldl | apply canon_ite
    | split

theorem canon_State_charge (x0 : State) (x1 : UnitKind) (x2 : Nat) (h0 : Canon x0)
    : Canon (State.charge x0 x1 x2) := by
  unfold State.charge
  repeat' with_reducible
    first | assumption | apply canon_State_chargeUnit | apply canon_State_unitOut | apply canon_ite

theorem canon_execPatrolTest (x0 : Fin 5) (x1 : Nat) (x2 : Bool) (x3 : State) (h3 : Canon x3)
    : CanonR (execPatrolTest x0 x1 x2 x3) := by
  unfold execPatrolTest
  repeat' with_reducible
    first | assumption | apply canon_State_healthFault | apply canon_State_charge | apply canon_next_intro
          | apply canon_iteR

theorem canon_execSuspectClear (x0 : Fin 5) (x1 : Nat) (x2 : State) (h2 : Canon x2)
    : CanonR (execSuspectClear x0 x1 x2) := by
  unfold execSuspectClear
  repeat' with_reducible
    first | assumption | apply canon_State_healthAge | apply canon_next_intro | apply canon_ite

theorem canon_State_fragLost (x0 : State) (x1 : Frag) (h0 : Canon x0) : Canon (State.fragLost x0 x1) := by
  unfold State.fragLost
  repeat' first
    | with_reducible
        first | assumption | intro _ | apply canon_State_tableCount | apply canon_State_updFrag
              | apply canon_State_listFail | apply canon_State_updList | apply canon_State_listTry
              | apply canon_State_cannotArrive | apply canon_foldl | apply canon_ite
    | split

theorem canon_State_fragHit (x0 : State) (x1 : Frag → Bool) (x2 : Nat) (h0 : Canon x0)
    : Canon (State.fragHit x0 x1 x2) := by
  unfold State.fragHit
  repeat' first
    | with_reducible first | assumption | apply canon_State_fragLost
    | split

theorem canon_State_unitFault (x0 : State) (x1 x2 x3 x4 : Nat) (h0 : Canon x0)
    : Canon (State.unitFault x0 x1 x2 x3 x4) := by
  unfold State.unitFault
  repeat' with_reducible first | assumption | apply canon_State_fault

theorem canon_State_updateUnitFault (x0 : State) (x1 x2 : Nat) (h0 : Canon x0)
    : Canon (State.updateUnitFault x0 x1 x2) := by
  unfold State.updateUnitFault
  repeat' with_reducible
    first | assumption | intro _ | apply canon_State_stackFault | apply canon_State_charge
          | apply canon_State_batchStop | apply canon_foldl | (simp only [canon_mk_iff]; apply canon_fold)

theorem canon_State_hostLineLost (x0 : State) (x1 : Nat) (h0 : Canon x0) : Canon (State.hostLineLost x0 x1) := by
  unfold State.hostLineLost
  repeat' first
    | with_reducible
        first | assumption | intro _ | apply canon_State_hostFault | apply canon_State_breakModel | apply canon_foldl
              | apply canon_ite
    | split
    | with_reducible
        first | (simp only [canon_mk_iff]; refine canonParts_cells (by assumption) ?_) | refine wf_writeCells ?_
              | exact canon_cells (by assumption)

theorem canon_State_otherRead (x0 : State) (x1 : Nat) (h0 : Canon x0) : Canon (State.otherRead x0 x1) := by
  unfold State.otherRead
  repeat' first
    | with_reducible first | assumption | apply canon_State_sramFault
    | split
    | with_reducible
        first | (simp only [canon_mk_iff]; refine canonParts_cells (by assumption) ?_) | refine wf_setPoison ?_
              | exact canon_cells (by assumption)

theorem canon_State_countPairCe (x0 : State) (x1 : Nat) (h0 : Canon x0) : Canon (State.countPairCe x0 x1) := by
  unfold State.countPairCe
  repeat' with_reducible
    first | assumption | apply canon_State_countCe | apply canon_State_unitOut | apply canon_ite

theorem canon_execCheckFailure (x0 : Check) (x1 : State) (h1 : Canon x1) : CanonR (execCheckFailure x0 x1) := by
  unfold execCheckFailure
  repeat' first
    | with_reducible assumption
    | exact rstOk_of fun _ h => h
    | with_reducible
        first | apply canon_State_stackFault | apply canon_State_unitFault | apply canon_State_coreMismatch
              | apply canon_State_ioEnd | apply canon_State_dirCheckSet | apply canon_State_updateUnitFault
              | apply canon_State_loseTags | apply canon_State_countCe | apply canon_State_tearCluster
              | apply canon_State_intFault | apply canon_State_otherRead | apply canon_State_hostLineLost
              | apply canon_State_charge | apply canon_State_countPairCe | apply canon_State_deviceReset
              | apply canon_State_sramFault | apply canon_State_dieReset | apply canon_State_aqFault
              | apply canon_State_fragHit | apply canon_next_intro
    | split
    | with_reducible
        first | (simp only [canon_mk_iff]; refine canonParts_cells (by assumption) ?_) | refine wf_setPoison ?_
              | exact canon_cells (by assumption)

theorem canon_State_taint (x0 : State) (x1 : Bool) (x2 : Nat) (h0 : Canon x0) : Canon (State.taint x0 x1 x2) := by
  unfold State.taint
  repeat' with_reducible
    first | assumption | apply canon_State_intFault | (simp only [canon_mk_iff]; apply canon_fold)

theorem canon_State_abortPart (x0 : State) (x1 : Nat) (h0 : Canon x0) : Canon (State.abortPart x0 x1) := by
  unfold State.abortPart
  repeat' with_reducible
    first | assumption | apply canon_State_stopNow | apply canon_State_updPart | apply canon_ite

theorem canon_State_closeAdmission (x0 : State) (h0 : Canon x0) : Canon (State.closeAdmission x0) := by
  unfold State.closeAdmission
  repeat' with_reducible first | assumption | (simp only [canon_mk_iff]; apply canon_fold)

theorem canon_State_expel (x0 : State) (x1 : Nat) (h0 : Canon x0) : Canon (State.expel x0 x1) := by
  unfold State.expel
  repeat' with_reducible
    first | assumption | intro _ | apply canon_State_taint | apply canon_State_closeAdmission
          | apply canon_State_irqEvent | apply canon_State_abortPart | apply canon_foldl
          | (simp only [canon_mk_iff]; apply canon_fold)

theorem canon_State_settleVerdicts (x0 : State) (x1 x2 : Bool) (h0 : Canon x0)
    : Canon (State.settleVerdicts x0 x1 x2) := by
  unfold State.settleVerdicts
  repeat' with_reducible
    first | assumption | apply canon_State_taint | apply canon_State_expel | apply canon_ite
          | (simp only [canon_mk_iff]; apply canon_fold)

theorem canon_State_disagreement (x0 : State) (x1 : Nat) (x2 x3 : List Nat) (h0 : Canon x0)
    : Canon (State.disagreement x0 x1 x2 x3) := by
  unfold State.disagreement
  repeat' with_reducible
    first | assumption | apply canon_State_irqIf | apply canon_State_settleVerdicts | apply canon_State_intFault
          | apply canon_ite | (simp only [canon_mk_iff]; apply canon_fold)

theorem canon_State_verified (x0 : State) (x1 : Nat) (h0 : Canon x0) : Canon (State.verified x0 x1) := by
  unfold State.verified
  repeat' with_reducible first | assumption | (simp only [canon_mk_iff]; apply canon_fold)

theorem canon_State_compared (x0 : State) (x1 : Nat) (x2 : Bool) (x3 x4 : List Nat) (h0 : Canon x0)
    : Canon (State.compared x0 x1 x2 x3 x4) := by
  unfold State.compared
  repeat' with_reducible
    first | assumption | apply canon_State_verified | apply canon_State_disagreement | apply canon_ite

theorem canon_execCompareResultReceived (x0 : Nat) (x1 : Bool) (x2 x3 : List Nat) (x4 : State) (h4 : Canon x4)
    : CanonR (execCompareResultReceived x0 x1 x2 x3 x4) := by
  unfold execCompareResultReceived
  repeat' with_reducible
    first | assumption | apply canon_State_compared | apply canon_next_intro | apply canon_iteR

theorem canon_execVerifySweepComplete (x0 : State) (h0 : Canon x0) : CanonR (execVerifySweepComplete x0) := by
  unfold execVerifySweepComplete
  repeat' first
    | with_reducible
        first | assumption | apply canon_State_settleVerdicts | apply canon_State_releaseHeld | apply canon_State_emit
              | apply canon_next_intro | apply canon_iteR | (simp only [canon_mk_iff]; apply canon_fold)
    | split

theorem canon_execVerdictExchange (x0 : Bool) (x1 : State) (h1 : Canon x1) : CanonR (execVerdictExchange x0 x1) := by
  unfold execVerdictExchange
  repeat' first
    | with_reducible
        first | assumption | apply canon_State_settleVerdicts | apply canon_next_intro | apply canon_iteR
              | (simp only [canon_mk_iff]; apply canon_fold)
    | split

theorem canon_State_poisonRow (x0 : State) (x1 : Nat) (x2 : TD) (x3 x4 : Nat) (h0 : Canon x0)
    : Canon (State.poisonRow x0 x1 x2 x3 x4) := by
  unfold State.poisonRow
  repeat' with_reducible first | assumption | intro _ | apply canon_State_writeDAWith | apply canon_foldl

theorem canon_State_undo (x0 : State) (x1 : Nat) (x2 : JRec) (h0 : Canon x0) : CanonO (State.undo x0 x1 x2) := by
  unfold State.undo
  repeat' with_reducible
    first | assumption | apply canon_State_breakTable | apply canon_State_writeDA | apply canon_State_poisonRow
          | apply canon_State_intFault | apply canon_State_writeRow | apply canon_State_digAdd | apply canon_ite
          | apply canon_ite2 | apply canon_some_intro | exact canon_none_intro | apply canon_iteO

theorem canon_State_undoAll (x0 : Nat) : ∀ (x1 : State) (h1 : Canon x1), Canon (State.undoAll x0 x1).2 := by
  induction x0 with
  | zero => intro s h; exact h
  | succ k ih =>
    intro s h
    unfold State.undoAll
    generalize s.undoNext = o
    rcases o with _ | ⟨st, j⟩
    · exact h
    · have hu := canon_State_undo s st j h
      dsimp only
      generalize s.undo st j = o at hu
      rcases o with _ | s1
      · exact h
      · apply ih
        have h2 := canon_State_updUu s1 st (fun u => { u with kept := u.kept.filter fun (x : JRec) => x != j }) (hu _ rfl)
        exact h2

theorem canon_State_rollbackEnd (x0 : State) (h0 : Canon x0) : Canon (State.rollbackEnd x0) := by
  unfold State.rollbackEnd
  repeat' with_reducible
    first | assumption | intro _ | apply canon_State_intFault | apply canon_State_breakModel
          | apply canon_State_devWrite | apply canon_foldl | apply canon_ite
          | (simp only [canon_mk_iff]; apply canon_fold)

theorem canon_State_rollbackGo (x0 : State) (h0 : Canon x0) : Canon (State.rollbackGo x0) := by
  unfold State.rollbackGo
  repeat' first
    | with_reducible
        first | assumption | apply canon_State_undoAll | apply canon_State_rollbackEnd | apply canon_ite
    | split

theorem canon_State_rollbackStart (x0 : State) (x1 : Nat) (h0 : Canon x0) : Canon (State.rollbackStart x0 x1) := by
  unfold State.rollbackStart
  repeat' with_reducible
    first | assumption | apply canon_State_rollbackGo | apply canon_State_closeEpoch | apply canon_ite
          | (simp only [canon_mk_iff]; apply canon_fold)

theorem canon_State_writeIntCmd (x0 : State) (x1 : W32) (h0 : Canon x0) : Canon (State.writeIntCmd x0 x1) := by
  unfold State.writeIntCmd
  repeat' first
    | with_reducible
        first | assumption | apply canon_State_expel | apply canon_State_rollbackStart | apply canon_ite
              | (simp only [canon_mk_iff]; apply canon_fold)
    | split

theorem canon_execExpel (x0 : AccessPath) (x1 : State) (h1 : Canon x1) : CanonR (execExpel x0 x1) := by
  unfold execExpel
  repeat' with_reducible
    first | assumption | intro _ | apply canon_State_writeIntCmd | apply canon_State_onCsr | apply canon_next_intro

theorem canon_execRollback (x0 : AccessPath) (x1 : State) (h1 : Canon x1) : CanonR (execRollback x0 x1) := by
  unfold execRollback
  repeat' with_reducible
    first | assumption | intro _ | apply canon_State_writeIntCmd | apply canon_State_rollbackGo
          | apply canon_State_onCsr | apply canon_next_intro | apply canon_iteR

theorem canon_State_writeVerLo (x0 : State) (x1 : W32) (h0 : Canon x0) : Canon (State.writeVerLo x0 x1) := by
  unfold State.writeVerLo
  repeat' with_reducible first | assumption | (simp only [canon_mk_iff]; apply canon_fold)

theorem canon_State_writeVerHi (x0 : State) (x1 : W32) (h0 : Canon x0) : Canon (State.writeVerHi x0 x1) := by
  unfold State.writeVerHi
  repeat' with_reducible first | assumption | apply canon_ite | (simp only [canon_mk_iff]; apply canon_fold)

theorem canon_execIntVerWrite (x0 : AccessPath) (x1 : W64) (x2 : State) (h2 : Canon x2)
    : CanonR (execIntVerWrite x0 x1 x2) := by
  unfold execIntVerWrite
  repeat' with_reducible
    first | assumption | intro _ | apply canon_State_writeVerLo | apply canon_State_onCsr
          | apply canon_State_writeVerHi | apply canon_next_intro

theorem canon_State_plFault (x0 : State) (x1 : Nat) (h0 : Canon x0) : Canon (State.plFault x0 x1) := by
  unfold State.plFault
  repeat' with_reducible first | assumption | apply canon_State_fault

theorem canon_State_plWrite (x0 : State) (x1 : PairState → PairState) (h0 : Canon x0)
    : Canon (State.plWrite x0 x1) := by
  unfold State.plWrite
  repeat' with_reducible first | assumption | apply canon_ite | (simp only [canon_mk_iff]; apply canon_fold)

theorem canon_State_writePlCtl (x0 : State) (x1 : W32) (h0 : Canon x0) : Canon (State.writePlCtl x0 x1) := by
  unfold State.writePlCtl
  repeat' with_reducible first | assumption | apply canon_State_plWrite

theorem canon_State_writePlTxb (x0 : State) (x1 : W32) (h0 : Canon x0) : Canon (State.writePlTxb x0 x1) := by
  unfold State.writePlTxb
  repeat' with_reducible first | assumption | apply canon_State_plWrite

theorem canon_State_writePlRxb (x0 : State) (x1 : W32) (h0 : Canon x0) : Canon (State.writePlRxb x0 x1) := by
  unfold State.writePlRxb
  repeat' with_reducible first | assumption | apply canon_State_plWrite

theorem canon_State_writePlMreg (x0 : State) (x1 : Bool) (x2 : W32) (h0 : Canon x0)
    : Canon (State.writePlMreg x0 x1 x2) := by
  unfold State.writePlMreg
  repeat' with_reducible first | assumption | apply canon_State_plWrite

theorem canon_State_writePlSts (x0 : State) (x1 : W32) (h0 : Canon x0) : Canon (State.writePlSts x0 x1) := by
  unfold State.writePlSts
  repeat' with_reducible first | assumption | (simp only [canon_mk_iff]; apply canon_fold)

theorem canon_State_writePlCnt (x0 : State) (x1 : W32) (h0 : Canon x0) : Canon (State.writePlCnt x0 x1) := by
  unfold State.writePlCnt
  repeat' with_reducible first | assumption | (simp only [canon_mk_iff]; apply canon_fold)

theorem canon_State_setRole (x0 : State) (x1 : Role) (h0 : Canon x0) : Canon (State.setRole x0 x1) := by
  unfold State.setRole
  repeat' with_reducible
    first | assumption | apply canon_State_irqEvent | apply canon_ite | (simp only [canon_mk_iff]; apply canon_fold)

theorem canon_State_dropLock (x0 : State) (h0 : Canon x0) : Canon (State.dropLock x0) := by
  unfold State.dropLock
  repeat' with_reducible
    first | assumption | apply canon_State_irqEvent | apply canon_ite | (simp only [canon_mk_iff]; apply canon_fold)

theorem canon_State_becomeSolo (x0 : State) (h0 : Canon x0) : Canon (State.becomeSolo x0) := by
  unfold State.becomeSolo
  repeat' with_reducible
    first | assumption | apply canon_State_setRole | apply canon_State_dropLock
          | (simp only [canon_mk_iff]; apply canon_fold)

theorem canon_State_enterPair (x0 : State) (x1 : Role) (h0 : Canon x0) : Canon (State.enterPair x0 x1) := by
  unfold State.enterPair
  repeat' with_reducible
    first | assumption | apply canon_State_setRole | (simp only [canon_mk_iff]; apply canon_fold)

theorem canon_State_enterSplit (x0 : State) (h0 : Canon x0) : Canon (State.enterSplit x0) := by
  unfold State.enterSplit
  repeat' with_reducible
    first | assumption | apply canon_State_setRole | apply canon_State_plFault | apply canon_ite
          | (simp only [canon_mk_iff]; apply canon_fold)

theorem canon_State_quefyDown (x0 : State) (x1 : Bool) (h0 : Canon x0) : Canon (State.quefyDown x0 x1) := by
  unfold State.quefyDown
  repeat' with_reducible
    first | assumption | apply canon_State_enterSplit | apply canon_State_plFault | apply canon_ite
          | (simp only [canon_mk_iff]; apply canon_fold)

theorem canon_State_resumePair (x0 : State) (x1 : Nat) (h0 : Canon x0) : Canon (State.resumePair x0 x1) := by
  unfold State.resumePair
  repeat' with_reducible
    first | assumption | intro _ | apply canon_State_setRole | apply canon_State_emit | apply canon_foldl
          | apply canon_ite | (simp only [canon_mk_iff]; apply canon_fold)

theorem canon_State_rejoin (x0 : State) (x1 : Role) (x2 : Bool) (h0 : Canon x0) : Canon (State.rejoin x0 x1 x2) := by
  unfold State.rejoin
  repeat' with_reducible
    first | assumption | apply canon_State_setRole | apply canon_State_plFault | apply canon_ite
          | (simp only [canon_mk_iff]; apply canon_fold)

theorem canon_State_firstMeeting (x0 : State) (x1 : Role) (h0 : Canon x0) : Canon (State.firstMeeting x0 x1) := by
  unfold State.firstMeeting
  repeat' with_reducible
    first | assumption | apply canon_State_becomeSolo | apply canon_State_plFault | apply canon_ite

theorem canon_execQuefyLinkUp (x0 : W16) (x1 : Role) (x2 : Bool) (x3 : Nat) (x4 : Bool) (x5 : State) (h5 : Canon x5)
    : CanonR (execQuefyLinkUp x0 x1 x2 x3 x4 x5) := by
  unfold execQuefyLinkUp
  repeat' with_reducible
    first | assumption | apply canon_State_resumePair | apply canon_State_firstMeeting | apply canon_State_rejoin
          | apply canon_next_intro | apply canon_ite | apply canon_iteR | (simp only [canon_mk_iff]; apply canon_fold)

theorem canon_execQuefyLaneFailure (x0 : Fin 16) (x1 x2 : Bool) (x3 : State) (h3 : Canon x3)
    : CanonR (execQuefyLaneFailure x0 x1 x2 x3) := by
  unfold execQuefyLaneFailure
  repeat' with_reducible
    first | assumption | apply canon_State_plFault | apply canon_State_quefyDown | apply canon_next_intro
          | apply canon_ite | apply canon_iteR | (simp only [canon_mk_iff]; apply canon_fold)

theorem canon_execFlitCrcFailure (x0 : State) (h0 : Canon x0) : CanonR (execFlitCrcFailure x0) := by
  unfold execFlitCrcFailure
  repeat' with_reducible
    first | assumption | apply canon_next_intro | apply canon_ite | (simp only [canon_mk_iff]; apply canon_fold)

theorem canon_execQuefyLinkLoss (x0 x1 : Bool) (x2 : State) (h2 : Canon x2)
    : CanonR (execQuefyLinkLoss x0 x1 x2) := by
  unfold execQuefyLinkLoss
  repeat' with_reducible
    first | assumption | apply canon_State_quefyDown | apply canon_next_intro | apply canon_iteR

theorem canon_execQfPrsntChange (x0 : Bool) (x1 : State) (h1 : Canon x1) : CanonR (execQfPrsntChange x0 x1) := by
  unfold execQfPrsntChange
  repeat' with_reducible
    first | assumption | apply canon_State_enterSplit | apply canon_State_plFault | apply canon_next_intro
          | apply canon_ite | apply canon_iteR | (simp only [canon_mk_iff]; apply canon_fold)

theorem canon_State_diverge (x0 : State) (h0 : Canon x0) : Canon (State.diverge x0) := by
  unfold State.diverge
  repeat' with_reducible first | assumption | apply canon_State_setRole | apply canon_State_plFault

theorem canon_State_runMirrored (x0 : State) (x1 : Nat) (x2 : KCmd) (h0 : Canon x0)
    : Canon (State.runMirrored x0 x1 x2) := by
  unfold State.runMirrored
  repeat' first
    | with_reducible
        first | assumption | apply canon_execTblFlip | apply canon_execTaskUnreg | apply canon_execAqExtFree
              | apply canon_execMdlUnreg | apply canon_execRsvDeclare | apply canon_execTaskReg
              | apply canon_execDgstRebuild | apply canon_execTblRetire | apply canon_execRsvRelease
              | apply canon_execCbkClear | apply canon_execMdlReg | apply canon_execCbkInstall
              | apply canon_execTblSeal | apply canon_execTblLoad | apply canon_execAqExtCreate
              | apply canon_execTblCreate | apply canon_execTblCtrz
    | split
    | with_reducible refine canon_of_next (by assumption) ?_
    | dsimp only

theorem canon_State_censusMirrored (x0 : State) (x1 : List Byte) (h0 : Canon x0)
    : Canon (State.censusMirrored x0 x1) := by
  unfold State.censusMirrored
  repeat' with_reducible
    first | assumption | intro _ | apply canon_State_recodeBlock | apply canon_State_installCbk | apply canon_foldl
          | apply canon_ite

theorem canon_State_applyCommand (x0 : State) (x1 : Nat) (x2 : List W64) (x3 : Nat) (x4 : W64) (x5 : List Byte)
    (h0 : Canon x0) : Canon (State.applyCommand x0 x1 x2 x3 x4 x5).2 := by
  unfold State.applyCommand
  repeat' first
    | with_reducible
        first | assumption | apply canon_State_censusMirrored | apply canon_State_diverge
              | apply canon_State_runMirrored | apply canon_ite | apply canon_ite2
              | (simp only [canon_mk_iff]; apply canon_fold)
    | split
    | dsimp only

theorem canon_State_putRow (x0 : State) (x1 x2 : Nat) (x3 x4 : List Byte) (h0 : Canon x0)
    : Canon (State.putRow x0 x1 x2 x3 x4).2 := by
  unfold State.putRow
  repeat' with_reducible
    first | assumption | apply canon_State_writeDA | apply canon_State_writeRow | apply canon_State_digAdd
          | apply canon_ite | apply canon_ite2

theorem canon_State_putCopy (x0 : State) (x1 x2 : Nat) (x3 x4 : List Byte) (h0 : Canon x0)
    : Canon (State.putCopy x0 x1 x2 x3 x4).2 := by
  unfold State.putCopy
  repeat' with_reducible
    first | assumption | apply canon_State_breakTable | apply canon_State_putRow | apply canon_State_poisonRow
          | apply canon_ite2

theorem canon_State_putPage (x0 : State) (x1 x2 : Nat) (x3 : List (List Byte)) (h0 : Canon x0)
    : Canon (State.putPage x0 x1 x2 x3) := by
  unfold State.putPage
  repeat' first
    | with_reducible
        first | assumption | intro _ | apply canon_State_breakTable | apply canon_State_lidxDel
              | apply canon_State_digAdd | apply canon_State_updDrive | apply canon_State_emit | apply canon_foldl
              | apply canon_ite
    | split
    | dsimp only

theorem canon_State_installImage (x0 : State) (x1 x2 : Nat) (x3 x4 : List Byte) (h0 : Canon x0)
    : Canon (State.installImage x0 x1 x2 x3 x4) := by
  unfold State.installImage
  repeat' with_reducible
    first | assumption | apply canon_State_setTdState | apply canon_State_writeDA
          | (simp only [canon_mk_iff]; apply canon_fold)

theorem canon_State_installServe (x0 : State) (x1 : Nat) (x2 : TD) (x3 : Bool) (x4 : List Nat) (h0 : Canon x0) :
    CanonO (State.installServe x0 x1 x2 x3 x4) := by
  unfold State.installServe
  refine canon_mapS (canon_State_pinAll _ _ _ _ h0) (fun st hs => ?_)
  apply canon_State_setTdState
  apply canon_State_sweep
  exact hs

theorem canon_State_installTable (x0 : State) (x1 : Nat) (x2 x3 : List Byte) (x4 : Bool) (x5 : List Nat) (h0 : Canon x0) :
    CanonO (State.installTable x0 x1 x2 x3 x4 x5) := by
  unfold State.installTable
  extract_lets d old s0
  have hs : Canon s0 := by
    refine canon_ite h0 ?_
    apply canon_State_freeTable
    exact canon_ite (canon_State_sweep _ _ _ _ h0) h0
  clear_value s0 old d
  refine canon_iteO canon_none_intro ?_
  generalize s0.heapFit x3.length = o
  cases o with
  | none => exact canon_none_intro
  | some o =>
    dsimp only
    have h1 := canon_State_installImage s0 x1 o x2 x3 hs
    exact canon_iteO (canon_some_intro h1) (canon_State_installServe _ _ _ _ _ h1)

theorem canon_State_applyItem (x0 : State) (x1 : Nat) (x2 : MirrorItem) (h0 : Canon x0)
    : Canon (State.applyItem x0 x1 x2).2 := by
  unfold State.applyItem
  repeat' first
    | with_reducible
        first | assumption | apply canon_State_putCopy | apply canon_State_applyCommand
              | apply canon_State_applyUpdate | apply canon_State_diverge | apply canon_State_writeDA
              | apply canon_State_installTable | apply canon_State_putRow | apply canon_State_putPage
              | apply canon_ite2 | (simp only [canon_mk_iff]; apply canon_fold)
    | split
    | with_reducible refine canon_of_some (by assumption) ?_

theorem canon_State_commitEpoch (x0 : State) (x1 : Commit) (h0 : Canon x0) : Canon (State.commitEpoch x0 x1) := by
  unfold State.commitEpoch
  repeat' first
    | with_reducible
        first | assumption | apply canon_State_journalRelease | apply canon_State_setRole
              | apply canon_State_putSnapshot | apply canon_State_dropLock | apply canon_State_compared
              | apply canon_State_emit | apply canon_ite | (simp only [canon_mk_iff]; apply canon_fold)
    | split

theorem canon_State_rxStep (x0 : State) (h0 : Canon x0) : Canon (State.rxStep x0).2 := by
  unfold State.rxStep
  repeat' first
    | with_reducible
        first | assumption | apply canon_State_applyItem | apply canon_State_commitEpoch | apply canon_ite
              | apply canon_ite2 | (simp only [canon_mk_iff]; apply canon_fold)
    | split

theorem canon_State_rxRunAll (x0 : Nat) : ∀ (x1 : State) (h1 : Canon x1), Canon (State.rxRunAll x0 x1) := by
  induction x0 with
  | zero => intro s h; exact h
  | succ k ih =>
    intro s h
    unfold State.rxRunAll
    have hp := canon_State_rxStep s h
    generalize s.rxStep = q at hp
    obtain ⟨b, s1⟩ := q
    cases b
    · exact hp
    · exact ih s1 hp

theorem canon_State_rxApply (x0 : State) (h0 : Canon x0) : Canon (State.rxApply x0) := by
  unfold State.rxApply
  repeat' with_reducible first | assumption | apply canon_State_rxRunAll

theorem canon_execMirrorItem (x0 : Nat) (x1 : MirrorItem) (x2 : State) (h2 : Canon x2)
    : CanonR (execMirrorItem x0 x1 x2) := by
  unfold execMirrorItem
  repeat' with_reducible
    first | assumption | apply canon_next_intro | apply canon_iteR | (simp only [canon_mk_iff]; apply canon_fold)

theorem canon_execCommitReceived (x0 : Commit) (x1 : State) (h1 : Canon x1) : CanonR (execCommitReceived x0 x1) := by
  unfold execCommitReceived
  repeat' with_reducible
    first | assumption | apply canon_State_rxApply | apply canon_next_intro | apply canon_iteR
          | (simp only [canon_mk_iff]; apply canon_fold)

theorem canon_execAckReceived (x0 : Nat) (x1 : State) (h1 : Canon x1) : CanonR (execAckReceived x0 x1) := by
  unfold execAckReceived
  repeat' first
    | with_reducible
        first | assumption | apply canon_State_setRole | apply canon_next_intro | apply canon_ite | apply canon_iteR
              | (simp only [canon_mk_iff]; apply canon_fold)
    | split

theorem canon_State_promoteEnd (x0 : State) (h0 : Canon x0) : Canon (State.promoteEnd x0) := by
  unfold State.promoteEnd
  repeat' with_reducible
    first | assumption | apply canon_State_becomeSolo | apply canon_State_rollbackStart | apply canon_State_plFault
          | apply canon_ite | (simp only [canon_mk_iff]; apply canon_fold)

theorem canon_State_promoteGo (x0 : State) (h0 : Canon x0) : Canon (State.promoteGo x0) := by
  unfold State.promoteGo
  repeat' with_reducible
    first | assumption | apply canon_State_promoteEnd | apply canon_State_rxApply | apply canon_ite
          | (simp only [canon_mk_iff]; apply canon_fold)

theorem canon_execPeerDownSeen (x0 : State) (h0 : Canon x0) : CanonR (execPeerDownSeen x0) := by
  unfold execPeerDownSeen
  repeat' first
    | with_reducible
        first | assumption | apply canon_State_becomeSolo | apply canon_State_promoteGo | apply canon_State_plFault
              | apply canon_next_intro | apply canon_ite | apply canon_iteR
              | (simp only [canon_mk_iff]; apply canon_fold)
    | split

theorem canon_State_plEnd (x0 : State) (x1 : BitVec 3) (h0 : Canon x0) : Canon (State.plEnd x0 x1) := by
  unfold State.plEnd
  repeat' with_reducible first | assumption | (simp only [canon_mk_iff]; apply canon_fold)

theorem canon_State_pairUp (x0 : State) (x1 : Nat) (x2 : List Nat) (h0 : Canon x0)
    : Canon (State.pairUp x0 x1 x2) := by
  unfold State.pairUp
  repeat' with_reducible
    first | assumption | apply canon_State_enterPair | apply canon_State_plEnd | apply canon_ite
          | (simp only [canon_mk_iff]; apply canon_fold)

theorem canon_State_plPair (x0 : State) (x1 : Nat) (h0 : Canon x0) : Canon (State.plPair x0 x1) := by
  unfold State.plPair
  repeat' first
    | with_reducible
        first | assumption | apply canon_State_plEnd | apply canon_State_pairUp | apply canon_State_emit
              | apply canon_ite | (simp only [canon_mk_iff]; apply canon_fold)
    | split

theorem canon_State_copyStart (x0 : State) (h0 : Canon x0) : Canon (State.copyStart x0) := by
  unfold State.copyStart
  repeat' with_reducible
    first | assumption | intro _ | apply canon_State_copyPlace | apply canon_State_mirror | apply canon_foldl
          | (simp only [canon_mk_iff]; apply canon_fold)

theorem canon_State_plCopy (x0 : State) (x1 : List Nat) (h0 : Canon x0) : Canon (State.plCopy x0 x1) := by
  unfold State.plCopy
  repeat' with_reducible
    first | assumption | apply canon_State_copyStart | apply canon_State_plEnd | apply canon_ite

theorem canon_State_leavePair (x0 : State) (h0 : Canon x0) : Canon (State.leavePair x0) := by
  unfold State.leavePair
  repeat' with_reducible
    first | assumption | apply canon_State_becomeSolo | apply canon_ite | (simp only [canon_mk_iff]; apply canon_fold)

theorem canon_State_plSolo (x0 : State) (h0 : Canon x0) : Canon (State.plSolo x0) := by
  unfold State.plSolo
  repeat' with_reducible
    first | assumption | apply canon_State_plEnd | apply canon_State_leavePair | apply canon_ite

theorem canon_State_plPromote (x0 : State) (h0 : Canon x0) : Canon (State.plPromote x0) := by
  unfold State.plPromote
  repeat' with_reducible
    first | assumption | apply canon_State_promoteGo | apply canon_State_plEnd | apply canon_ite
          | (simp only [canon_mk_iff]; apply canon_fold)

theorem canon_State_plSwap (x0 : State) (h0 : Canon x0) : Canon (State.plSwap x0) := by
  unfold State.plSwap
  repeat' with_reducible
    first | assumption | apply canon_State_swapGo | apply canon_State_plEnd | apply canon_ite
          | (simp only [canon_mk_iff]; apply canon_fold)

theorem canon_State_plRetrain (x0 : State) (x1 : W16) (h0 : Canon x0) : Canon (State.plRetrain x0 x1) := by
  unfold State.plRetrain
  repeat' with_reducible
    first | assumption | apply canon_State_plFault | apply canon_State_plEnd | apply canon_State_quefyDown
          | apply canon_ite | (simp only [canon_mk_iff]; apply canon_fold)

theorem canon_State_plCommand (x0 : State) (x1 : Nat) (x2 : List Nat) (x3 : W16) (h0 : Canon x0)
    : Canon (State.plCommand x0 x1 x2 x3) := by
  unfold State.plCommand
  repeat' first
    | with_reducible
        first | assumption | apply canon_State_plPair | apply canon_State_plPromote | apply canon_State_plSolo
              | apply canon_State_plEnd | apply canon_State_plRetrain | apply canon_State_plSwap
              | apply canon_State_plCopy | apply canon_ite | (simp only [canon_mk_iff]; apply canon_fold)
    | split

theorem canon_State_writePlCmd (x0 : State) (x1 : W32) (x2 : List Nat) (x3 : W16) (h0 : Canon x0)
    : Canon (State.writePlCmd x0 x1 x2 x3) := by
  unfold State.writePlCmd
  repeat' with_reducible
    first | assumption | apply canon_State_plCommand | apply canon_ite | (simp only [canon_mk_iff]; apply canon_fold)

theorem canon_execPairActive (x0 : AccessPath) (x1 : State) (h1 : Canon x1) : CanonR (execPairActive x0 x1) := by
  unfold execPairActive
  repeat' with_reducible
    first | assumption | intro _ | apply canon_State_plCommand | apply canon_State_onCsr | apply canon_next_intro

theorem canon_execPairStandby (x0 : AccessPath) (x1 : State) (h1 : Canon x1) : CanonR (execPairStandby x0 x1) := by
  unfold execPairStandby
  repeat' with_reducible
    first | assumption | intro _ | apply canon_State_plCommand | apply canon_State_onCsr | apply canon_next_intro

theorem canon_execCopy (x0 : AccessPath) (x1 : List Nat) (x2 : State) (h2 : Canon x2)
    : CanonR (execCopy x0 x1 x2) := by
  unfold execCopy
  repeat' with_reducible
    first | assumption | intro _ | apply canon_State_plCommand | apply canon_State_onCsr | apply canon_next_intro

theorem canon_execSolo (x0 : AccessPath) (x1 : State) (h1 : Canon x1) : CanonR (execSolo x0 x1) := by
  unfold execSolo
  repeat' with_reducible
    first | assumption | intro _ | apply canon_State_plCommand | apply canon_State_onCsr | apply canon_next_intro

theorem canon_execPromote (x0 : AccessPath) (x1 : State) (h1 : Canon x1) : CanonR (execPromote x0 x1) := by
  unfold execPromote
  repeat' with_reducible
    first | assumption | intro _ | apply canon_State_plCommand | apply canon_State_promoteGo | apply canon_State_onCsr
          | apply canon_next_intro | apply canon_iteR

theorem canon_execSwap (x0 : AccessPath) (x1 : State) (h1 : Canon x1) : CanonR (execSwap x0 x1) := by
  unfold execSwap
  repeat' with_reducible
    first | assumption | intro _ | apply canon_State_plCommand | apply canon_State_onCsr | apply canon_next_intro

theorem canon_execRetrain (x0 : AccessPath) (x1 : W16) (x2 : State) (h2 : Canon x2)
    : CanonR (execRetrain x0 x1 x2) := by
  unfold execRetrain
  repeat' with_reducible
    first | assumption | intro _ | apply canon_State_plCommand | apply canon_State_onCsr | apply canon_next_intro

theorem canon_execPairPeerWindowExpiry (x0 : State) (h0 : Canon x0) : CanonR (execPairPeerWindowExpiry x0) := by
  unfold execPairPeerWindowExpiry
  repeat' first
    | with_reducible
        first | assumption | apply canon_State_plEnd | apply canon_next_intro | apply canon_iteR
    | split

theorem canon_execPeerPairCommandReceived (x0 : Bool) (x1 : List Nat) (x2 : State) (h2 : Canon x2)
    : CanonR (execPeerPairCommandReceived x0 x1 x2) := by
  unfold execPeerPairCommandReceived
  repeat' first
    | with_reducible
        first | assumption | apply canon_State_pairUp | apply canon_next_intro | apply canon_iteR
              | (simp only [canon_mk_iff]; apply canon_fold)
    | split

theorem canon_State_updRst (x0 : State) (x1 : ResetState → ResetState) (h0 : Canon x0) (h1 : RstOk x1) :
    Canon (State.updRst x0 x1) := by
  obtain ⟨a, b, c, d, e⟩ := h0
  exact ⟨a, b, h1 _ c, d, e⟩

theorem canon_State_railFault (x0 : State) (x1 x2 x3 x4 : Nat) (h0 : Canon x0)
    : Canon (State.railFault x0 x1 x2 x3 x4) := by
  unfold State.railFault
  repeat' with_reducible first | assumption | apply canon_State_fault

theorem canon_State_mainLost (x0 : State) (x1 : DState) (h0 : Canon x0) : Canon (State.mainLost x0 x1) := by
  unfold State.mainLost
  repeat' with_reducible
    first | assumption | apply canon_State_coldKept | (simp only [canon_mk_iff]; apply canon_fold)

end Sys2Proof.Machine
end

