-- ==== Sys2Proof/Laws/Canon7.lean ====
section
/-! SUPPORT. Part 7 of the lemmas that say, one a function, that it keeps `Canon`. -/
namespace Sys2Proof.Machine
open Sys2Proof
set_option maxRecDepth 4000

theorem canon_execPor (x0 : BitVec 3) (x1 : BitVec 2) (x2 x3 : Bool) (x4 : State) (h4 : Canon x4)
    : CanonR (execPor x0 x1 x2 x3 x4) := by
  unfold execPor
  repeat' with_reducible
    first | assumption | apply canon_State_coldReset | apply canon_State_drawFree | apply canon_State_railFault
          | apply canon_next_intro | apply canon_iteR | (simp only [canon_mk_iff]; apply canon_fold)

theorem canon_execMainRailsReturn (x0 : State) (h0 : Canon x0) : CanonR (execMainRailsReturn x0) := by
  unfold execMainRailsReturn
  repeat' with_reducible
    first | assumption | apply canon_State_coldReset | apply canon_next_intro | apply canon_iteR
          | (simp only [canon_mk_iff]; apply canon_fold)

theorem canon_execPerstNAssert (x0 : State) (h0 : Canon x0) : CanonR (execPerstNAssert x0) := by
  unfold execPerstNAssert
  repeat' first
    | with_reducible assumption
    | exact rstOk_of fun _ h => h
    | with_reducible
        first | apply canon_State_updRst | apply canon_State_deviceReset | apply canon_next_intro | apply canon_iteR

theorem canon_execPerstNDeassert (x0 : State) (h0 : Canon x0) : CanonR (execPerstNDeassert x0) := by
  unfold execPerstNDeassert
  repeat' first
    | with_reducible assumption
    | exact rstOk_of fun _ h => h
    | with_reducible
        first | apply canon_State_bootStart | apply canon_State_updRst | apply canon_next_intro | apply canon_ite
              | apply canon_iteR

theorem canon_execJtagReset (x0 : State) (h0 : Canon x0) : CanonR (execJtagReset x0) := by
  unfold execJtagReset
  repeat' first
    | with_reducible assumption
    | exact rstOk_of fun _ h => h
    | with_reducible first | apply canon_State_deviceReset | apply canon_next_intro | apply canon_iteR

theorem canon_execStewardResetRequest (x0 : State) (h0 : Canon x0) : CanonR (execStewardResetRequest x0) := by
  unfold execStewardResetRequest
  repeat' first
    | with_reducible assumption
    | exact rstOk_of fun _ h => h
    | with_reducible first | apply canon_State_deviceReset | apply canon_next_intro | apply canon_iteR

theorem canon_execStartupTimeout (x0 : State) (h0 : Canon x0) : CanonR (execStartupTimeout x0) := by
  unfold execStartupTimeout
  repeat' first
    | with_reducible assumption
    | exact rstOk_of fun _ h => h
    | with_reducible
        first | apply canon_State_timeFault | apply canon_State_updRst | apply canon_State_deviceReset
              | apply canon_next_intro | apply canon_iteR
    | split

theorem canon_State_bootWait (x0 : State) (h0 : Canon x0) : Canon (State.bootWait x0) := by
  unfold State.bootWait
  repeat' first
    | with_reducible assumption
    | exact rstOk_of fun _ h => h
    | with_reducible apply canon_State_updRst

theorem canon_State_bootBegin (x0 : State) (h0 : Canon x0) : Canon (State.bootBegin x0) := by
  unfold State.bootBegin
  repeat' first
    | with_reducible assumption
    | exact rstOk_of fun _ h => h
    | with_reducible first | apply canon_State_bootWait | apply canon_State_updRst | apply canon_State_emit
    | split

theorem canon_execTimeBasePllLock (x0 : State) (h0 : Canon x0) : CanonR (execTimeBasePllLock x0) := by
  unfold execTimeBasePllLock
  repeat' first
    | with_reducible assumption
    | exact rstOk_of fun _ h => h
    | with_reducible
        first | apply canon_State_bootBegin | apply canon_State_ideSettle | apply canon_State_updRst
              | apply canon_State_drawFree | apply canon_next_intro | apply canon_iteR
              | (simp only [canon_mk_iff]; apply canon_fold)

theorem canon_State_imageReject (x0 : State) (x1 x2 : Nat) (h0 : Canon x0) : Canon (State.imageReject x0 x1 x2) := by
  unfold State.imageReject
  repeat' first
    | with_reducible assumption
    | exact rstOk_of fun _ h => h
    | with_reducible
        first | apply canon_State_bootWait | apply canon_State_timeFault | apply canon_State_updRst | apply canon_ite

theorem canon_State_imageAccept (x0 : State) (x1 : Nat) (x2 : List Byte) (h0 : Canon x0)
    : Canon (State.imageAccept x0 x1 x2) := by
  unfold State.imageAccept
  repeat' first
    | with_reducible assumption
    | exact rstOk_of fun _ h => h
    | with_reducible first | apply canon_State_updRst | (simp only [canon_mk_iff]; apply canon_fold)

theorem canon_execBootImageReceived (x0 : Fin 4) (x1 : List Byte) (x2 : Bool) (x3 : State) (h3 : Canon x3)
    : CanonR (execBootImageReceived x0 x1 x2 x3) := by
  unfold execBootImageReceived
  repeat' with_reducible
    first | assumption | apply canon_State_imageReject | apply canon_State_imageAccept | apply canon_next_intro
          | apply canon_ite | apply canon_iteR

theorem canon_execBootImageAbsentTimeout (x0 : State) (h0 : Canon x0) : CanonR (execBootImageAbsentTimeout x0) := by
  unfold execBootImageAbsentTimeout
  repeat' first
    | with_reducible
        first | assumption | apply canon_State_imageReject | apply canon_next_intro | apply canon_iteR
    | split

theorem canon_State_writeHloadLen (x0 : State) (x1 : W32) (h0 : Canon x0) : Canon (State.writeHloadLen x0 x1) := by
  unfold State.writeHloadLen
  repeat' first
    | with_reducible assumption
    | exact rstOk_of fun _ h => h
    | with_reducible first | apply canon_State_updRst | apply canon_State_emit | apply canon_ite

theorem canon_execRstcHloadGo (x0 : AccessPath) (x1 : W32) (x2 : State) (h2 : Canon x2)
    : CanonR (execRstcHloadGo x0 x1 x2) := by
  unfold execRstcHloadGo
  repeat' with_reducible
    first | assumption | intro _ | apply canon_State_writeHloadLen | apply canon_State_onCsr | apply canon_next_intro

theorem canon_execPairLoadRequest (x0 : State) (h0 : Canon x0) : CanonR (execPairLoadRequest x0) := by
  unfold execPairLoadRequest
  repeat' with_reducible
    first | assumption | apply canon_State_emit | apply canon_next_intro | apply canon_iteR

theorem canon_execCxlIoCompletionTimeout (x0 : Fin 1025) (x1 : State) (h1 : Canon x1)
    : CanonR (execCxlIoCompletionTimeout x0 x1) := by
  unfold execCxlIoCompletionTimeout
  repeat' with_reducible
    first | assumption | apply canon_State_imageReject | apply canon_State_fetchFailed | apply canon_next_intro
          | apply canon_ite | apply canon_iteR

theorem canon_State_optWrite (x0 : State) (x1 : SMap Byte) (h0 : Canon x0) : Canon (State.optWrite x0 x1) := by
  unfold State.optWrite
  repeat' with_reducible first | assumption | (simp only [canon_mk_iff]; apply canon_fold)

theorem canon_State_recordRepairs (x0 : State) (x1 : List (Nat × Byte)) (h0 : Canon x0)
    : Canon (State.recordRepairs x0 x1) := by
  unfold State.recordRepairs
  repeat' with_reducible
    first | assumption | apply canon_State_optWrite | apply canon_State_timeFault | apply canon_ite

theorem canon_State_trainRedirect (x0 : State) (x1 : Nat) (x2 : List Nat) (h0 : Canon x0)
    : Canon (State.trainRedirect x0 x1 x2) := by
  unfold State.trainRedirect
  repeat' with_reducible
    first | assumption | intro _ | apply canon_foldl | apply canon_ite | (simp only [canon_mk_iff]; apply canon_fold)

theorem canon_execHbmTrainingComplete (x0 : List BadLane) (x1 : State) (h1 : Canon x1)
    : CanonR (execHbmTrainingComplete x0 x1) := by
  unfold execHbmTrainingComplete
  repeat' first
    | with_reducible assumption
    | exact rstOk_of fun _ h => h
    | with_reducible
        first | intro _ | apply canon_State_updChan | apply canon_State_trainRedirect
              | apply canon_State_recordRepairs | apply canon_State_chanState | apply canon_State_updRst
              | apply canon_foldl | apply canon_next_intro | apply canon_ite | apply canon_iteR

theorem canon_State_zeroFill (x0 : State) (h0 : Canon x0) : Canon (State.zeroFill x0) := by
  unfold State.zeroFill
  repeat' with_reducible
    first | (simp only [canon_mk_iff]; refine canonParts_cells (by assumption) ?_) | refine wf_filter ?_
          | exact canon_cells (by assumption)

theorem canon_State_setCaps (x0 : State) (h0 : Canon x0) : Canon (State.setCaps x0) := by
  obtain ⟨a, b, c, d, e⟩ := h0
  exact ⟨a, b, c, d, e⟩

theorem canon_execZeroFillComplete (x0 : State) (h0 : Canon x0) : CanonR (execZeroFillComplete x0) := by
  unfold execZeroFillComplete
  repeat' first
    | with_reducible assumption
    | exact rstOk_of fun _ h => h
    | with_reducible
        first | apply canon_State_setCaps | apply canon_State_zeroFill | apply canon_State_updRst | apply canon_next_intro | apply canon_iteR

theorem canon_State_portsUp (x0 : State) (h0 : Canon x0) : Canon (State.portsUp x0) := by
  unfold State.portsUp
  repeat' with_reducible
    first | assumption | intro _ | apply canon_State_updAqSlot | apply canon_foldl
          | (simp only [canon_mk_iff]; apply canon_fold)

theorem canon_execStartupReady (x0 : State) (h0 : Canon x0) : CanonR (execStartupReady x0) := by
  unfold execStartupReady
  repeat' first
    | with_reducible assumption
    | exact rstOk_of fun _ h => h
    | with_reducible
        first | apply canon_State_portsUp | apply canon_State_firstMeeting | apply canon_State_enterPair
              | apply canon_State_updRst | apply canon_next_intro | apply canon_ite | apply canon_iteR
              | (simp only [canon_mk_iff]; apply canon_fold)

theorem canon_execJtagTestInstruction (x0 : State) (h0 : Canon x0) : CanonR (execJtagTestInstruction x0) := by
  unfold execJtagTestInstruction
  repeat' with_reducible
    first | assumption | apply canon_State_emit | apply canon_next_intro | apply canon_iteR

theorem canon_State_dieClear (x0 : State) (x1 : Nat) (h0 : Canon x0) : Canon (State.dieClear x0 x1) := by
  unfold State.dieClear
  repeat' with_reducible
    first | assumption | apply canon_State_clearStacks | apply canon_State_clearClusters | (simp only [canon_mk_iff]; apply canon_fold)

theorem canon_execBlockIdleAck (x0 : Fin 49) (x1 : State) (h1 : Canon x1) : CanonR (execBlockIdleAck x0 x1) := by
  unfold execBlockIdleAck
  repeat' with_reducible
    first | assumption | apply canon_State_idleEnd | apply canon_State_stewardBack | apply canon_State_partResetEnd
          | apply canon_State_dieClear | apply canon_State_againStart | apply canon_next_intro | apply canon_iteR

theorem canon_State_dieResumes (x0 : State) (h0 : Canon x0) : Canon (State.dieResumes x0) := by
  unfold State.dieResumes
  repeat' with_reducible
    first | assumption | intro _ | apply canon_State_partResetEnd | apply canon_foldl | apply canon_ite

theorem canon_execDieRelease (x0 : Fin 4) (x1 : State) (h1 : Canon x1) : CanonR (execDieRelease x0 x1) := by
  unfold execDieRelease
  repeat' first
    | with_reducible assumption
    | exact rstOk_of fun _ h => h
    | with_reducible
        first | apply canon_State_updRst | apply canon_State_dieResumes | apply canon_next_intro | apply canon_iteR

theorem canon_State_idleClimb (x0 : State) (x1 : Nat) (h0 : Canon x0) : Canon (State.idleClimb x0 x1) := by
  unfold State.idleClimb
  repeat' first
    | with_reducible assumption
    | exact rstOk_of fun _ h => h
    | with_reducible
        first | intro _ | apply canon_State_idleEnd | apply canon_State_chargeUnit | apply canon_State_deviceReset
              | apply canon_State_dieReset | apply canon_foldl | apply canon_ite
              | (simp only [canon_mk_iff]; apply canon_fold)

theorem canon_execRstcIdleTimeoutExpiry (x0 : Fin 49) (x1 : State) (h1 : Canon x1)
    : CanonR (execRstcIdleTimeoutExpiry x0 x1) := by
  unfold execRstcIdleTimeoutExpiry
  repeat' first
    | with_reducible
        first | assumption | apply canon_State_fault | apply canon_State_partReset | apply canon_State_idleClimb
              | apply canon_next_intro | apply canon_iteR
    | split
    | dsimp only

theorem canon_execThermalTrip (x0 : State) (h0 : Canon x0) : CanonR (execThermalTrip x0) := by
  unfold execThermalTrip
  repeat' first
    | with_reducible assumption
    | exact rstOk_of fun _ h => h
    | with_reducible
        first | apply canon_State_secFault | apply canon_State_deviceReset | apply canon_next_intro | apply canon_iteR
              | (simp only [canon_mk_iff]; apply canon_fold)

theorem canon_execThermalRearm (x0 : State) (h0 : Canon x0) : CanonR (execThermalRearm x0) := by
  unfold execThermalRearm
  repeat' first
    | with_reducible assumption
    | exact rstOk_of fun _ h => h
    | with_reducible
        first | apply canon_State_bootStart | apply canon_State_updRst | apply canon_next_intro | apply canon_ite
              | apply canon_iteR | (simp only [canon_mk_iff]; apply canon_fold)

theorem canon_execVbakLoss (x0 : State) (h0 : Canon x0) : CanonR (execVbakLoss x0) := by
  unfold execVbakLoss
  repeat' with_reducible
    first | assumption | apply canon_State_timeFault | apply canon_next_intro | apply canon_ite
          | (simp only [canon_mk_iff]; apply canon_fold)

theorem canon_execVddCoreUndervolt (x0 : State) (h0 : Canon x0) : CanonR (execVddCoreUndervolt x0) := by
  unfold execVddCoreUndervolt
  repeat' with_reducible
    first | assumption | apply canon_State_coldKept | apply canon_next_intro | apply canon_iteR
          | (simp only [canon_mk_iff]; apply canon_fold)

theorem canon_execRailFault (x0 : Rail) (x1 : Bool) (x2 x3 : Byte) (x4 : W16) (x5 : State) (h5 : Canon x5)
    : CanonR (execRailFault x0 x1 x2 x3 x4 x5) := by
  unfold execRailFault
  repeat' first
    | with_reducible assumption
    | exact rstOk_of fun _ h => h
    | with_reducible
        first | intro _ | apply canon_State_driveLost | apply canon_State_mainLost | apply canon_State_quefyDown
              | apply canon_State_deviceReset | apply canon_State_railFault | apply canon_foldl
              | apply canon_next_intro | apply canon_ite | apply canon_iteR
              | (simp only [canon_mk_iff]; apply canon_fold)
    | split

theorem canon_execAuxRailLoss (x0 : State) (h0 : Canon x0) : CanonR (execAuxRailLoss x0) := by
  unfold execAuxRailLoss
  refine canon_iteR h0 ?_
  have h := canon_State_mainLost x0 .off h0
  obtain ⟨a, b, c, -, e⟩ := h
  obtain ⟨-, -, -, d, -⟩ := canon_reset
  exact ⟨a, b, c, d, e⟩

theorem canon_execAuxRailReturn (x0 : State) (h0 : Canon x0) : CanonR (execAuxRailReturn x0) := by
  unfold execAuxRailReturn
  repeat' with_reducible
    first | assumption | apply canon_next_intro | apply canon_iteR | (simp only [canon_mk_iff]; apply canon_fold)

theorem canon_execPmAlert (x0 x1 : Byte) (x2 : W16) (x3 : Bool) (x4 : State) (h4 : Canon x4)
    : CanonR (execPmAlert x0 x1 x2 x3 x4) := by
  unfold execPmAlert
  repeat' with_reducible
    first | assumption | apply canon_State_railFault | apply canon_next_intro | apply canon_iteR

theorem canon_State_writePwrCtl (x0 : State) (x1 : W32) (h0 : Canon x0) : Canon (State.writePwrCtl x0 x1) := by
  unfold State.writePwrCtl
  extract_lets old cap src p0 p s1 s2
  have hc : cap.toNat ≤ 1600 := by
    show (if 1600 < (field x1 4 12).toNat then (0x640 : BitVec 12) else field x1 4 12).toNat ≤ 1600
    split
    · decide
    · rename_i h
      have : (field x1 4 12 : BitVec 12).toNat = (field x1 4 12).toNat := rfl
      omega
  have hp : p.capW.toNat ≤ 1600 := by
    show (if x0.stw.st == .running then p0.retarget old else p0).capW.toNat ≤ 1600
    split
    · exact hc
    · exact hc
  clear_value p cap p0
  have k : ∀ q : PowerState, q.capW.toNat ≤ 1600 → Canon { x0 with pwr := q } := by
    intro q hq
    obtain ⟨a, b, c, d, e⟩ := h0
    exact ⟨a, b, c, d, hq⟩
  apply canon_State_pwrSettle
  refine canon_ite (canon_ite ?_ ?_) (canon_ite ?_ ?_)
  · apply canon_State_secFault; apply canon_State_clearClusters; exact k _ hp
  · exact k _ hp
  · apply canon_State_secFault; exact k _ hp
  · exact k _ hp

theorem canon_State_writePwrSts (x0 : State) (x1 : W32) (h0 : Canon x0) : Canon (State.writePwrSts x0 x1) := by
  unfold State.writePwrSts
  repeat' with_reducible first | assumption | (simp only [canon_mk_iff]; apply canon_fold)

theorem canon_execPStateRequest (x0 : AccessPath) (x1 : W32) (x2 : State) (h2 : Canon x2)
    : CanonR (execPStateRequest x0 x1 x2) := by
  unfold execPStateRequest
  repeat' with_reducible
    first | assumption | intro _ | apply canon_State_writePwrCtl | apply canon_State_onCsr | apply canon_next_intro

theorem canon_execD0IdleRequest (x0 : AccessPath) (x1 : W32) (x2 : State) (h2 : Canon x2)
    : CanonR (execD0IdleRequest x0 x1 x2) := by
  unfold execD0IdleRequest
  repeat' with_reducible
    first | assumption | intro _ | apply canon_State_writePwrCtl | apply canon_State_onCsr | apply canon_next_intro

theorem canon_execRampComplete (x0 : State) (h0 : Canon x0) : CanonR (execRampComplete x0) := by
  unfold execRampComplete
  repeat' first
    | with_reducible
        first | assumption | apply canon_State_secFault | apply canon_State_pwrSettle | apply canon_next_intro
              | (simp only [canon_mk_iff]; apply canon_fold)
    | split

theorem canon_execPowerCapSample (x0 : W16) (x1 : State) (h1 : Canon x1) : CanonR (execPowerCapSample x0 x1) := by
  unfold execPowerCapSample
  repeat' first
    | with_reducible
        first | assumption | apply canon_State_pwrSettle | apply canon_next_intro | apply canon_iteR
              | (simp only [canon_mk_iff]; apply canon_fold)
    | split

theorem canon_State_flushHost (x0 : State) (h0 : Canon x0) : Canon (State.flushHost x0) := by
  unfold State.flushHost
  repeat' with_reducible first | assumption | apply canon_State_evictWhere

theorem canon_State_aqOff (x0 : State) (h0 : Canon x0) : Canon (State.aqOff x0).2 := by
  unfold State.aqOff
  repeat' with_reducible
    first | assumption | apply canon_State_syncMark | apply canon_State_tailsOut | apply canon_ite | apply canon_ite2
          | (simp only [canon_mk_iff]; apply canon_fold)

theorem canon_State_diesOff (x0 : State) (h0 : Canon x0) : Canon (State.diesOff x0) := by
  unfold State.diesOff
  repeat' with_reducible
    first | assumption | apply canon_State_clearStacks | apply canon_State_clearClusters | (simp only [canon_mk_iff]; apply canon_fold)

theorem canon_State_d3Step (x0 : State) (h0 : Canon x0) : Canon (State.d3Step x0) := by
  unfold State.d3Step
  repeat' first
    | with_reducible
        first | assumption | intro _ | apply canon_State_flushHost | apply canon_State_stopNow
              | apply canon_State_diesOff | apply canon_State_aqOff | apply canon_State_secFault
              | apply canon_State_updPart | apply canon_State_closeEpoch | apply canon_State_leavePair
              | apply canon_foldl | apply canon_ite | (simp only [canon_mk_iff]; apply canon_fold)
    | split

theorem canon_execPmcsrD3hot (x0 : State) (h0 : Canon x0) : CanonR (execPmcsrD3hot x0) := by
  unfold execPmcsrD3hot
  repeat' with_reducible
    first | assumption | apply canon_State_d3Step | apply canon_next_intro | apply canon_ite | apply canon_iteR
          | (simp only [canon_mk_iff]; apply canon_fold)

theorem canon_execPmcsrD0 (x0 : State) (h0 : Canon x0) : CanonR (execPmcsrD0 x0) := by
  unfold execPmcsrD0
  repeat' with_reducible
    first | assumption | apply canon_State_portsUp | apply canon_State_secFault | apply canon_State_pwrSettle
          | apply canon_next_intro | apply canon_iteR | (simp only [canon_mk_iff]; apply canon_fold)

theorem canon_State_updSec (x0 : State) (x1 : SecState → SecState) (h0 : Canon x0) : Canon (State.updSec x0 x1) := by
  unfold State.updSec
  repeat' with_reducible first | assumption | (simp only [canon_mk_iff]; apply canon_fold)

theorem canon_State_spdmSay (x0 : State) (x1 : String) (x2 : Nat) (x3 : List Byte) (h0 : Canon x0)
    : Canon (State.spdmSay x0 x1 x2 x3) := by
  unfold State.spdmSay
  repeat' with_reducible first | assumption | apply canon_State_emit

theorem canon_State_spdmError (x0 : State) (x1 : Nat) (h0 : Canon x0) : Canon (State.spdmError x0 x1) := by
  unfold State.spdmError
  repeat' with_reducible first | assumption | apply canon_State_emit

theorem canon_State_spdmPlain (x0 : State) (x1 : String) (x2 : Nat) (x3 : Bool) (x4 : List Byte) (h0 : Canon x0)
    : Canon (State.spdmPlain x0 x1 x2 x3 x4) := by
  unfold State.spdmPlain
  repeat' with_reducible first | assumption | apply canon_State_spdmSay | apply canon_ite

theorem canon_execGetVersion (x0 : Bool) (x1 : List Byte) (x2 : State) (h2 : Canon x2)
    : CanonR (execGetVersion x0 x1 x2) := by
  unfold execGetVersion
  repeat' with_reducible first | assumption | apply canon_State_spdmPlain | apply canon_next_intro

theorem canon_execGetCapabilities (x0 : Bool) (x1 : List Byte) (x2 : State) (h2 : Canon x2)
    : CanonR (execGetCapabilities x0 x1 x2) := by
  unfold execGetCapabilities
  repeat' with_reducible first | assumption | apply canon_State_spdmPlain | apply canon_next_intro

theorem canon_execNegotiateAlgorithms (x0 : Bool) (x1 : List Byte) (x2 : State) (h2 : Canon x2)
    : CanonR (execNegotiateAlgorithms x0 x1 x2) := by
  unfold execNegotiateAlgorithms
  repeat' with_reducible first | assumption | apply canon_State_spdmPlain | apply canon_next_intro

theorem canon_execGetDigests (x0 : Bool) (x1 : List Byte) (x2 : State) (h2 : Canon x2)
    : CanonR (execGetDigests x0 x1 x2) := by
  unfold execGetDigests
  repeat' with_reducible first | assumption | apply canon_State_spdmPlain | apply canon_next_intro

theorem canon_execGetCertificate (x0 : Bool) (x1 : Byte) (x2 : List Byte) (x3 : State) (h3 : Canon x3)
    : CanonR (execGetCertificate x0 x1 x2 x3) := by
  unfold execGetCertificate
  repeat' with_reducible
    first | assumption | apply canon_State_spdmError | apply canon_State_spdmPlain | apply canon_next_intro
          | apply canon_ite

theorem canon_execChallenge (x0 : Bool) (x1 : Byte) (x2 : List Byte) (x3 : State) (h3 : Canon x3)
    : CanonR (execChallenge x0 x1 x2 x3) := by
  unfold execChallenge
  repeat' with_reducible
    first | assumption | apply canon_State_spdmError | apply canon_State_spdmPlain | apply canon_next_intro
          | apply canon_ite

theorem canon_execGetMeasurements (x0 : Bool) (x1 : List Byte) (x2 : State) (h2 : Canon x2)
    : CanonR (execGetMeasurements x0 x1 x2) := by
  unfold execGetMeasurements
  repeat' with_reducible
    first | assumption | apply canon_State_emit | apply canon_next_intro | apply canon_ite

theorem canon_execKeyExchange (x0 : Bool) (x1 : W32) (x2 : List Byte) (x3 : State) (h3 : Canon x3)
    : CanonR (execKeyExchange x0 x1 x2 x3) := by
  unfold execKeyExchange
  repeat' with_reducible
    first | assumption | apply canon_State_updSec | apply canon_State_spdmError | apply canon_State_spdmSay
          | apply canon_next_intro | apply canon_iteR

theorem canon_State_sessionEnd (x0 : State) (x1 : Nat) (h0 : Canon x0) : Canon (State.sessionEnd x0 x1) := by
  unfold State.sessionEnd
  repeat' with_reducible first | assumption | apply canon_State_updSec

theorem canon_execFinish (x0 : W32) (x1 : Bool) (x2 : List Byte) (x3 : State) (h3 : Canon x3)
    : CanonR (execFinish x0 x1 x2 x3) := by
  unfold execFinish
  repeat' with_reducible
    first | assumption | apply canon_State_updSec | apply canon_State_spdmError | apply canon_State_spdmSay
          | apply canon_State_sessionEnd | apply canon_next_intro | apply canon_iteR

theorem canon_execEndSession (x0 : W32) (x1 : List Byte) (x2 : State) (h2 : Canon x2)
    : CanonR (execEndSession x0 x1 x2) := by
  unfold execEndSession
  repeat' with_reducible
    first | assumption | apply canon_State_spdmError | apply canon_State_spdmSay | apply canon_State_sessionEnd
          | apply canon_next_intro | apply canon_ite

theorem canon_execKeyUpdate (x0 : W32) (x1 : List Byte) (x2 : State) (h2 : Canon x2)
    : CanonR (execKeyUpdate x0 x1 x2) := by
  unfold execKeyUpdate
  repeat' with_reducible
    first | assumption | apply canon_State_spdmError | apply canon_State_spdmSay | apply canon_next_intro
          | apply canon_ite

theorem canon_execHeartbeat (x0 : W32) (x1 : List Byte) (x2 : State) (h2 : Canon x2)
    : CanonR (execHeartbeat x0 x1 x2) := by
  unfold execHeartbeat
  repeat' with_reducible
    first | assumption | apply canon_State_spdmError | apply canon_State_spdmSay | apply canon_next_intro
          | apply canon_ite

theorem canon_execSpdmUnsupported (x0 : Bool) (x1 : State) (h1 : Canon x1) : CanonR (execSpdmUnsupported x0 x1) := by
  unfold execSpdmUnsupported
  repeat' with_reducible
    first | assumption | apply canon_State_spdmError | apply canon_next_intro | apply canon_ite

theorem canon_State_ownerReply (x0 : State) (x1 : OwnerStatus) (x2 : optParam (List Byte) []) (h0 : Canon x0)
    : Canon (State.ownerReply x0 x1 x2) := by
  unfold State.ownerReply
  repeat' with_reducible
    first | assumption | apply canon_State_secFault | apply canon_State_emit | apply canon_ite

theorem canon_State_owner (x0 : State) (x1 : Option W32) (x2 : Bool) (x3 : State → State) (h0 : Canon x0)
    (h3 : ∀ y0 : State, Canon y0 → Canon (x3 y0)) : Canon (State.owner x0 x1 x2 x3) := by
  unfold State.owner
  repeat' first
    | with_reducible first | assumption | apply h3 | apply canon_State_ownerReply | apply canon_ite
    | split

theorem canon_State_lcChange (x0 : State) (x1 : SMap Byte) (h0 : Canon x0) : Canon (State.lcChange x0 x1) := by
  unfold State.lcChange
  repeat' with_reducible
    first | assumption | apply canon_State_ownerReply | apply canon_State_updSec | apply canon_State_optWrite
          | apply canon_State_secFault

theorem canon_execLcProvision (x0 : Option W32) (x1 : List Byte) (x2 : State) (h2 : Canon x2)
    : CanonR (execLcProvision x0 x1 x2) := by
  unfold execLcProvision
  repeat' with_reducible
    first | assumption | intro _ | apply canon_State_ownerReply | apply canon_State_owner | apply canon_State_lcChange
          | apply canon_next_intro | apply canon_ite

theorem canon_execLcSeal (x0 : Option W32) (x1 : List Byte) (x2 : State) (h2 : Canon x2)
    : CanonR (execLcSeal x0 x1 x2) := by
  unfold execLcSeal
  repeat' with_reducible
    first | assumption | intro _ | apply canon_State_ownerReply | apply canon_State_owner | apply canon_State_lcChange
          | apply canon_next_intro | apply canon_ite

theorem canon_State_tokenFail (x0 : State) (h0 : Canon x0) : Canon (State.tokenFail x0) := by
  unfold State.tokenFail
  repeat' with_reducible first | assumption | apply canon_State_updSec | apply canon_State_secFault

theorem canon_execLcRetire (x0 : Option W32) (x1 : List Byte) (x2 : State) (h2 : Canon x2)
    : CanonR (execLcRetire x0 x1 x2) := by
  unfold execLcRetire
  repeat' with_reducible
    first | assumption | intro _ | apply canon_State_ownerReply | apply canon_State_owner | apply canon_State_lcChange
          | apply canon_State_tokenFail | apply canon_next_intro | apply canon_ite
          | (simp only [canon_mk_iff]; apply canon_fold)

theorem canon_State_grant (x0 : State) (x1 : Nat) (x2 : Bool) (h0 : Canon x0) : Canon (State.grant x0 x1 x2) := by
  unfold State.grant
  repeat' with_reducible first | assumption | apply canon_State_updSec | apply canon_State_secFault

theorem canon_execDbgReq (x0 : Option W32) (x1 : List Byte) (x2 : State) (h2 : Canon x2)
    : CanonR (execDbgReq x0 x1 x2) := by
  unfold execDbgReq
  repeat' with_reducible
    first | assumption | intro _ | apply canon_State_ownerReply | apply canon_State_owner | apply canon_State_grant
          | apply canon_next_intro | apply canon_ite

theorem canon_execDbgAuth (x0 : Option W32) (x1 : List Byte) (x2 : State) (h2 : Canon x2)
    : CanonR (execDbgAuth x0 x1 x2) := by
  unfold execDbgAuth
  repeat' with_reducible
    first | assumption | intro _ | apply canon_State_ownerReply | apply canon_State_owner | apply canon_State_grant
          | apply canon_State_tokenFail | apply canon_next_intro | apply canon_ite

theorem canon_State_revoke (x0 : State) (h0 : Canon x0) : Canon (State.revoke x0) := by
  unfold State.revoke
  repeat' with_reducible first | assumption | apply canon_State_updSec | apply canon_State_secFault

theorem canon_execDbgRevoke (x0 : Option W32) (x1 : List Byte) (x2 : State) (h2 : Canon x2)
    : CanonR (execDbgRevoke x0 x1 x2) := by
  unfold execDbgRevoke
  repeat' with_reducible
    first | assumption | intro _ | apply canon_State_ownerReply | apply canon_State_owner | apply canon_State_revoke
          | apply canon_next_intro

theorem canon_execSecAuth (x0 : List Byte) (x1 : State) (h1 : Canon x1) : CanonR (execSecAuth x0 x1) := by
  unfold execSecAuth
  repeat' with_reducible
    first | assumption | apply canon_State_grant | apply canon_State_tokenFail | apply canon_next_intro
          | apply canon_iteR

theorem canon_State_writeSecDbg (x0 : State) (x1 : W32) (h0 : Canon x0) : Canon (State.writeSecDbg x0 x1) := by
  unfold State.writeSecDbg
  repeat' with_reducible first | assumption | apply canon_State_revoke | apply canon_ite

theorem canon_State_writeSecCnt (x0 : State) (x1 : W32) (h0 : Canon x0) : Canon (State.writeSecCnt x0 x1) := by
  unfold State.writeSecCnt
  repeat' with_reducible first | assumption | apply canon_State_updSec

theorem canon_execSecDbgRevoke (x0 : AccessPath) (x1 : W32) (x2 : State) (h2 : Canon x2)
    : CanonR (execSecDbgRevoke x0 x1 x2) := by
  unfold execSecDbgRevoke
  repeat' with_reducible
    first | assumption | intro _ | apply canon_State_onCsr | apply canon_State_writeSecDbg | apply canon_next_intro

theorem canon_execFkSet (x0 : Option W32) (x1 : List Byte) (x2 : State) (h2 : Canon x2)
    : CanonR (execFkSet x0 x1 x2) := by
  unfold execFkSet
  repeat' with_reducible
    first | assumption | intro _ | apply canon_State_ownerReply | apply canon_State_owner | apply canon_State_secFault
          | apply canon_next_intro | apply canon_ite | (simp only [canon_mk_iff]; apply canon_fold)

theorem canon_execFkClear (x0 : Option W32) (x1 : List Byte) (x2 : State) (h2 : Canon x2)
    : CanonR (execFkClear x0 x1 x2) := by
  unfold execFkClear
  repeat' with_reducible
    first | assumption | intro _ | apply canon_State_ownerReply | apply canon_State_owner | apply canon_State_secFault
          | apply canon_next_intro | apply canon_ite | (simp only [canon_mk_iff]; apply canon_fold)

theorem canon_execNonceGet (x0 : List Byte) (x1 : State) (h1 : Canon x1) : CanonR (execNonceGet x0 x1) := by
  unfold execNonceGet
  repeat' with_reducible
    first | assumption | apply canon_State_ownerReply | apply canon_next_intro | apply canon_ite | apply canon_iteR

theorem canon_execDebugHalt (x0 : Fin 49) (x1 : Bool) (x2 : State) (h2 : Canon x2)
    : CanonR (execDebugHalt x0 x1 x2) := by
  unfold execDebugHalt
  repeat' with_reducible
    first | assumption | apply canon_State_updSec | apply canon_State_snapBegin | apply canon_State_updPart
          | apply canon_next_intro | apply canon_iteR

theorem canon_execDebugStep (x0 : Fin 1200) (x1 : State) (h1 : Canon x1) : CanonR (execDebugStep x0 x1) := by
  unfold execDebugStep
  repeat' first
    | with_reducible
        first | assumption | apply canon_State_updCore | apply canon_next_intro | apply canon_iteR
    | split

theorem canon_execDebugDaAccess (x0 : BitVec 52) (x1 : Option (List Byte)) (x2 : Fin 257) (x3 : State)
    (h3 : Canon x3) : CanonR (execDebugDaAccess x0 x1 x2 x3) := by
  unfold execDebugDaAccess
  repeat' first
    | with_reducible
        first | assumption | apply canon_State_updSec | apply canon_State_devWrite | apply canon_State_emit
              | apply canon_next_intro | apply canon_iteR | (simp only [canon_mk_iff]; apply canon_fold)
    | split

theorem canon_State_updStw (x0 : State) (x1 : StewardState → StewardState) (h0 : Canon x0) (h1 : StwOk x1) :
    Canon (State.updStw x0 x1) := by
  obtain ⟨a, b, c, d, e⟩ := h0
  exact ⟨a, b, c, h1 _ d, e⟩

theorem canon_State_stwFault (x0 : State) (x1 : Nat) (h0 : Canon x0) : Canon (State.stwFault x0 x1) := by
  unfold State.stwFault
  repeat' with_reducible first | assumption | apply canon_State_fault

theorem canon_State_rebuildReport (x0 : State) (h0 : Canon x0) : Canon (State.rebuildReport x0) := by
  unfold State.rebuildReport
  repeat' first
    | with_reducible assumption
    | exact stwOk_of fun _ h => h
    | with_reducible apply canon_State_updStw

theorem canon_execAgeingUpdate (x0 : Fin 5) (x1 : W16) (x2 : BitVec 11) (x3 : Nat) (x4 : State) (h4 : Canon x4)
    : CanonR (execAgeingUpdate x0 x1 x2 x3 x4) := by
  unfold execAgeingUpdate
  repeat' with_reducible
    first | assumption | apply canon_State_timeFault | apply canon_State_pldmEvent | apply canon_State_drawBit
          | apply canon_State_rebuildReport | apply canon_State_irqEvent | apply canon_State_drawFree
          | apply canon_next_intro | apply canon_ite | apply canon_iteR | (simp only [canon_mk_iff]; apply canon_fold)

theorem canon_State_smartRead (x0 : State) (x1 : Nat) (x2 x3 x4 : Byte) (x5 : Nat) (h0 : Canon x0)
    : Canon (State.smartRead x0 x1 x2 x3 x4 x5) := by
  unfold State.smartRead
  repeat' with_reducible
    first | assumption | apply canon_State_updAqSlot | apply canon_State_pldmEvent | apply canon_State_aqFault
          | apply canon_State_drawFree | apply canon_ite

theorem canon_execNvmeAsyncEvent (x0 : Fin 8) (x1 x2 x3 : Byte) (x4 : Nat) (x5 : State) (h5 : Canon x5)
    : CanonR (execNvmeAsyncEvent x0 x1 x2 x3 x4 x5) := by
  unfold execNvmeAsyncEvent
  repeat' with_reducible
    first | assumption | apply canon_State_smartRead | apply canon_next_intro | apply canon_iteR

theorem canon_execSmartPoll (x0 : Fin 8) (x1 x2 x3 : Byte) (x4 : Nat) (x5 : State) (h5 : Canon x5)
    : CanonR (execSmartPoll x0 x1 x2 x3 x4 x5) := by
  unfold execSmartPoll
  repeat' with_reducible
    first | assumption | apply canon_State_smartRead | apply canon_next_intro | apply canon_iteR

theorem canon_State_takeReading (x0 : State) (x1 : Nat × W32) (h0 : Canon x0) : Canon (State.takeReading x0 x1) := by
  unfold State.takeReading
  repeat' first
    | with_reducible assumption
    | exact stwOk_of fun _ h => h
    | with_reducible
        first | apply canon_State_updStw | apply canon_State_pldmEvent | apply canon_State_railFault | apply canon_ite

theorem canon_State_takeState (x0 : State) (x1 : Nat) (h0 : Canon x0) : Canon (State.takeState x0 x1) := by
  unfold State.takeState
  repeat' first
    | with_reducible assumption
    | exact stwOk_of fun _ h => h
    | with_reducible first | apply canon_State_updStw | apply canon_State_pldmEvent | apply canon_ite

theorem canon_execTelemetrySample (x0 : List W16) (x1 : W16) (x2 : State) (h2 : Canon x2)
    : CanonR (execTelemetrySample x0 x1 x2) := by
  unfold execTelemetrySample
  repeat' first
    | with_reducible assumption
    | exact stwOk_of fun _ h => h
    | with_reducible
        first | intro _ | apply canon_State_updStw | apply canon_State_takeState | apply canon_State_takeReading
              | apply canon_foldl | apply canon_next_intro | apply canon_iteR

theorem period_range (p : Nat) : 10 ≤ (BitVec.ofNat 10 (if p < 10 then 10 else if 1000 < p then 1000 else p)).toNat ∧
    (BitVec.ofNat 10 (if p < 10 then 10 else if 1000 < p then 1000 else p)).toNat ≤ 1000 := by
  rw [BitVec.toNat_ofNat]
  split
  · decide
  · split
    · decide
    · omega
theorem canon_State_writeTelCtl (x0 : State) (x1 : W32) (h0 : Canon x0) : Canon (State.writeTelCtl x0 x1) := by
  unfold State.writeTelCtl
  exact canon_State_updStw _ _ h0 fun _ _ => period_range _

theorem canon_State_writeTelShed (x0 : State) (x1 : W32) (h0 : Canon x0) : Canon (State.writeTelShed x0 x1) := by
  unfold State.writeTelShed
  repeat' first
    | with_reducible assumption
    | exact stwOk_of fun _ h => h
    | with_reducible apply canon_State_updStw

theorem canon_execStewardBusyWindow (x0 : BitVec 7) (x1 : State) (h1 : Canon x1)
    : CanonR (execStewardBusyWindow x0 x1) := by
  unfold execStewardBusyWindow
  repeat' first
    | with_reducible assumption
    | exact stwOk_of fun _ h => h
    | with_reducible
        first | apply canon_State_updStw | apply canon_State_stwFault | apply canon_State_irqEvent
              | apply canon_next_intro | apply canon_ite | apply canon_iteR

theorem canon_State_setDrain (x0 : State) (x1 : DrainState) (h0 : Canon x0) : Canon (State.setDrain x0 x1) := by
  unfold State.setDrain
  repeat' first
    | with_reducible assumption
    | exact stwOk_of fun _ h => h
    | with_reducible first | apply canon_State_updStw | apply canon_State_irqEvent

theorem canon_State_drainAbandon (x0 : State) (h0 : Canon x0) : Canon (State.drainAbandon x0) := by
  unfold State.drainAbandon
  repeat' first
    | with_reducible assumption
    | exact stwOk_of fun _ h => h
    | with_reducible
        first | apply canon_State_updStw | apply canon_State_setDrain | apply canon_State_stwFault

theorem canon_State_stewardRestart (x0 : State) (h0 : Canon x0) : Canon (State.stewardRestart x0) := by
  unfold State.stewardRestart
  repeat' first
    | with_reducible assumption
    | exact stwOk_of fun _ h => h
    | with_reducible
        first | apply canon_State_idleRequest | apply canon_State_updStw | apply canon_State_countBlock
              | apply canon_State_stwFault | apply canon_State_irqEvent

theorem canon_State_stewardHalt (x0 : State) (h0 : Canon x0) : Canon (State.stewardHalt x0) := by
  unfold State.stewardHalt
  repeat' with_reducible
    first | assumption | apply canon_State_stwFault | apply canon_State_irqEvent | apply canon_State_pwrSettle
          | apply canon_State_drainAbandon | apply canon_ite | (simp only [canon_mk_iff]; apply canon_fold)

theorem canon_execStewardWatchdog (x0 : State) (h0 : Canon x0) : CanonR (execStewardWatchdog x0) := by
  unfold execStewardWatchdog
  repeat' first
    | with_reducible
        first | assumption | apply canon_State_stewardRestart | apply canon_State_stewardHalt | apply canon_next_intro
              | apply canon_iteR
    | split

theorem canon_State_writeStw (x0 : State) (x1 : W32) (h0 : Canon x0) : Canon (State.writeStw x0 x1) := by
  unfold State.writeStw
  repeat' with_reducible first | assumption | apply canon_State_stewardRestart | apply canon_ite

theorem canon_execHubStwKick (x0 : AccessPath) (x1 : W32) (x2 : State) (h2 : Canon x2)
    : CanonR (execHubStwKick x0 x1 x2) := by
  unfold execHubStwKick
  repeat' with_reducible
    first | assumption | intro _ | apply canon_State_writeStw | apply canon_State_onCsr | apply canon_next_intro

theorem canon_State_drainStep (x0 : State) (h0 : Canon x0) : Canon (State.drainStep x0) := by
  unfold State.drainStep
  repeat' first
    | with_reducible assumption
    | exact stwOk_of fun _ h => h
    | with_reducible
        first | intro _ | apply canon_State_syncMark | apply canon_State_flushHost | apply canon_State_updStw
              | apply canon_State_closeAdmission | apply canon_State_setDrain | apply canon_State_stopNow
              | apply canon_State_stwFault | apply canon_State_tailsOut | apply canon_State_updPart
              | apply canon_State_closeEpoch | apply canon_State_leavePair | apply canon_State_plSwap
              | apply canon_foldl | apply canon_ite | apply canon_ite2
    | split

theorem canon_execAttnShortPress (x0 : State) (h0 : Canon x0) : CanonR (execAttnShortPress x0) := by
  unfold execAttnShortPress
  repeat' first
    | with_reducible assumption
    | exact stwOk_of fun _ h => h
    | with_reducible
        first | apply canon_State_updStw | apply canon_State_pldmEvent | apply canon_State_setDrain
              | apply canon_State_drainStep | apply canon_State_stwFault | apply canon_next_intro | apply canon_iteR

theorem canon_execAttnHold (x0 : Bool) (x1 : State) (h1 : Canon x1) : CanonR (execAttnHold x0 x1) := by
  unfold execAttnHold
  repeat' first
    | with_reducible assumption
    | exact stwOk_of fun _ h => h
    | with_reducible
        first | intro _ | apply canon_State_updStw | apply canon_State_setDrain | apply canon_State_setAdmit
              | apply canon_State_stwFault | apply canon_State_againStart | apply canon_foldl | apply canon_next_intro
              | apply canon_ite | apply canon_iteR

theorem canon_execDrainPartitionsStopped (x0 : State) (h0 : Canon x0) : CanonR (execDrainPartitionsStopped x0) := by
  unfold execDrainPartitionsStopped
  repeat' with_reducible first | assumption | apply canon_State_drainStep | apply canon_next_intro

theorem canon_execDrainAbandonTimeout (x0 : State) (h0 : Canon x0) : CanonR (execDrainAbandonTimeout x0) := by
  unfold execDrainAbandonTimeout
  repeat' with_reducible
    first | assumption | apply canon_State_drainAbandon | apply canon_next_intro | apply canon_iteR

theorem canon_State_writeSvcCtl (x0 : State) (x1 : W32) (h0 : Canon x0) : Canon (State.writeSvcCtl x0 x1) := by
  unfold State.writeSvcCtl
  repeat' first
    | with_reducible assumption
    | exact stwOk_of fun _ h => h
    | with_reducible
        first | apply canon_State_updStw | apply canon_State_setDrain | apply canon_State_stwFault | apply canon_ite

end Sys2Proof.Machine
end

