-- ==== Sys2Proof/Laws/Canon8.lean ====
section
/-! SUPPORT. Part 8 of the lemmas that say, one a function, that it keeps `Canon`. -/
namespace Sys2Proof.Machine
open Sys2Proof
set_option maxRecDepth 4000

theorem canon_State_writeSvcSts (x0 : State) (x1 : W32) (h0 : Canon x0) : Canon (State.writeSvcSts x0 x1) := by
  unfold State.writeSvcSts
  repeat' first
    | with_reducible assumption
    | exact stwOk_of fun _ h => h
    | with_reducible apply canon_State_updStw

theorem canon_execHostDrainedWrite (x0 : AccessPath) (x1 : W32) (x2 : State) (h2 : Canon x2)
    : CanonR (execHostDrainedWrite x0 x1 x2) := by
  unfold execHostDrainedWrite
  repeat' with_reducible
    first | assumption | intro _ | apply canon_State_onCsr | apply canon_State_writeSvcCtl | apply canon_next_intro

theorem canon_execAttnBlipExpiry (x0 : State) (h0 : Canon x0) : CanonR (execAttnBlipExpiry x0) := by
  unfold execAttnBlipExpiry
  repeat' first
    | with_reducible assumption
    | exact stwOk_of fun _ h => h
    | with_reducible first | apply canon_State_updStw | apply canon_next_intro | apply canon_iteR
    | split

theorem canon_State_lifeline (x0 : State) (x1 : String) (x2 : Nat × List Byte × State) (h0 : Canon x0) (h2 : Canon x2.2.2) :
    Canon (State.lifeline x0 x1 x2) := by
  unfold State.lifeline
  exact canon_ite (canon_State_emit _ _ h2) h0

theorem canon_execLlCause (x0 : State) (h0 : Canon x0) : CanonR (execLlCause x0) := by
  unfold execLlCause
  repeat' with_reducible first | assumption | apply canon_State_lifeline | apply canon_next_intro

theorem canon_execLlCounters (x0 : State) (h0 : Canon x0) : CanonR (execLlCounters x0) := by
  unfold execLlCounters
  repeat' with_reducible first | assumption | apply canon_State_lifeline | apply canon_next_intro

theorem canon_execLlFr (x0 : Byte) (x1 : State) (h1 : Canon x1) : CanonR (execLlFr x0 x1) := by
  unfold execLlFr
  repeat' first
    | with_reducible
        first | assumption | apply canon_State_lifeline | apply canon_next_intro | apply canon_ite
    | split

theorem canon_execLlReset (x0 : Byte) (x1 : State) (h1 : Canon x1) : CanonR (execLlReset x0 x1) := by
  unfold execLlReset
  repeat' first
    | with_reducible assumption
    | exact rstOk_of fun _ h => h
    | with_reducible
        first | apply canon_State_deviceReset | apply canon_State_lifeline | apply canon_next_intro | apply canon_ite

theorem canon_execLlPowerOff (x0 : Byte) (x1 : State) (h1 : Canon x1) : CanonR (execLlPowerOff x0 x1) := by
  unfold execLlPowerOff
  repeat' with_reducible
    first | assumption | apply canon_State_secFault | apply canon_State_mainLost | apply canon_State_lifeline
          | apply canon_next_intro | apply canon_ite | (simp only [canon_mk_iff]; apply canon_fold)

theorem canon_execLlPowerOn (x0 : State) (h0 : Canon x0) : CanonR (execLlPowerOn x0) := by
  unfold execLlPowerOn
  repeat' with_reducible
    first | assumption | apply canon_State_lifeline | apply canon_next_intro | apply canon_ite
          | (simp only [canon_mk_iff]; apply canon_fold)

theorem canon_execLlStatus (x0 : State) (h0 : Canon x0) : CanonR (execLlStatus x0) := by
  unfold execLlStatus
  repeat' with_reducible first | assumption | apply canon_State_lifeline | apply canon_next_intro

theorem canon_execLlIdentify (x0 : Byte) (x1 : State) (h1 : Canon x1) : CanonR (execLlIdentify x0 x1) := by
  unfold execLlIdentify
  repeat' first
    | with_reducible assumption
    | exact stwOk_of fun _ h => h
    | with_reducible
        first | apply canon_State_updStw | apply canon_State_lifeline | apply canon_next_intro | apply canon_ite

theorem canon_State_service (x0 : State) (x1 : String) (x2 : State → Nat × List Byte × State) (h0 : Canon x0)
    (h2 : ∀ y0 : State, Canon y0 → Canon (x2 y0).2.2) : Canon (State.service x0 x1 x2) := by
  unfold State.service
  repeat' first
    | with_reducible first | assumption | apply h2 | apply canon_State_lifeline
    | split

theorem canon_execOptRead (x0 x1 : W16) (x2 : State) (h2 : Canon x2) : CanonR (execOptRead x0 x1 x2) := by
  unfold execOptRead
  repeat' first
    | with_reducible first | assumption | intro _ | apply canon_State_service | apply canon_next_intro
    | split

theorem canon_execOptStage (x0 : W16) (x1 : List Byte) (x2 : State) (h2 : Canon x2)
    : CanonR (execOptStage x0 x1 x2) := by
  unfold execOptStage
  repeat' first
    | with_reducible
        first | assumption | intro _ | apply canon_State_service | apply canon_next_intro
              | (simp only [canon_mk_iff]; apply canon_fold)
    | split

theorem canon_execOptCommit (x0 : State) (h0 : Canon x0) : CanonR (execOptCommit x0) := by
  unfold execOptCommit
  repeat' first
    | with_reducible
        first | assumption | intro _ | apply canon_State_optWrite | apply canon_State_service
              | apply canon_State_stwFault | apply canon_next_intro | (simp only [canon_mk_iff]; apply canon_fold)
    | split
    | dsimp only

theorem canon_execOptDiscard (x0 : State) (h0 : Canon x0) : CanonR (execOptDiscard x0) := by
  unfold execOptDiscard
  repeat' with_reducible
    first | assumption | intro _ | apply canon_State_service | apply canon_next_intro
          | (simp only [canon_mk_iff]; apply canon_fold)

theorem canon_execReport (x0 : State) (h0 : Canon x0) : CanonR (execReport x0) := by
  unfold execReport
  repeat' with_reducible
    first | assumption | intro _ | apply canon_State_service | apply canon_State_rebuildReport
          | apply canon_next_intro

theorem canon_execSetEndpointId (x0 : Byte) (x1 : State) (h1 : Canon x1) : CanonR (execSetEndpointId x0 x1) := by
  unfold execSetEndpointId
  repeat' first
    | with_reducible assumption
    | exact stwOk_of fun _ h => h
    | with_reducible
        first | apply canon_State_updStw | apply canon_State_lifeline | apply canon_next_intro | apply canon_ite

theorem canon_State_pldm (x0 : State) (x1 : String) (x2 : State → Nat × List Byte × State) (h0 : Canon x0)
    (h2 : ∀ y0 : State, Canon y0 → Canon (x2 y0).2.2) : Canon (State.pldm x0 x1 x2) := by
  unfold State.pldm
  repeat' first
    | with_reducible first | assumption | apply h2 | apply canon_State_lifeline
    | split

theorem canon_execPldmBaseCommand (x0 : Byte) (x1 : List Byte) (x2 : State) (h2 : Canon x2)
    : CanonR (execPldmBaseCommand x0 x1 x2) := by
  unfold execPldmBaseCommand
  repeat' with_reducible first | assumption | intro _ | apply canon_State_pldm | apply canon_next_intro

theorem canon_execGetSensorReading (x0 : W16) (x1 : State) (h1 : Canon x1) : CanonR (execGetSensorReading x0 x1) := by
  unfold execGetSensorReading
  repeat' first
    | with_reducible first | assumption | intro _ | apply canon_State_pldm | apply canon_next_intro
    | split

theorem canon_execGetStateSensorReadings (x0 : W16) (x1 : State) (h1 : Canon x1)
    : CanonR (execGetStateSensorReadings x0 x1) := by
  unfold execGetStateSensorReadings
  repeat' first
    | with_reducible first | assumption | intro _ | apply canon_State_pldm | apply canon_next_intro
    | split

theorem canon_execSetEventReceiver (x0 : Byte) (x1 : State) (h1 : Canon x1)
    : CanonR (execSetEventReceiver x0 x1) := by
  unfold execSetEventReceiver
  repeat' first
    | with_reducible assumption
    | exact stwOk_of fun _ h => h
    | with_reducible
        first | intro _ | apply canon_State_updStw | apply canon_State_pldm | apply canon_next_intro

theorem canon_execPldmFruRead (x0 : State) (h0 : Canon x0) : CanonR (execPldmFruRead x0) := by
  unfold execPldmFruRead
  repeat' with_reducible first | assumption | intro _ | apply canon_State_pldm | apply canon_next_intro

theorem canon_execPldmFirmwareUpdate (x0 : List Byte) (x1 : Option Nat) (x2 : State) (h2 : Canon x2)
    : CanonR (execPldmFirmwareUpdate x0 x1 x2) := by
  unfold execPldmFirmwareUpdate
  repeat' first
    | with_reducible
        first | assumption | intro _ | apply canon_State_pldm | apply canon_next_intro
              | (simp only [canon_mk_iff]; apply canon_fold)
    | split

theorem canon_execDynamicAddressAssignment (x0 : BitVec 7) (x1 : State) (h1 : Canon x1)
    : CanonR (execDynamicAddressAssignment x0 x1) := by
  unfold execDynamicAddressAssignment
  repeat' first
    | with_reducible assumption
    | exact stwOk_of fun _ h => h
    | with_reducible first | apply canon_State_updStw | apply canon_next_intro | apply canon_ite

theorem canon_execSidebandBusReset (x0 : State) (h0 : Canon x0) : CanonR (execSidebandBusReset x0) := by
  unfold execSidebandBusReset
  repeat' first
    | with_reducible assumption
    | exact stwOk_of fun _ h => h
    | with_reducible first | apply canon_State_updStw | apply canon_next_intro | apply canon_ite

theorem canon_execSmbusArp (x0 : Option (BitVec 7)) (x1 : State) (h1 : Canon x1) : CanonR (execSmbusArp x0 x1) := by
  unfold execSmbusArp
  repeat' first
    | with_reducible assumption
    | exact stwOk_of fun _ h => h
    | with_reducible
        first | apply canon_State_updStw | apply canon_State_emit | apply canon_next_intro | apply canon_ite
    | split

theorem canon_State_writeGtoLo (x0 : State) (x1 : W32) (h0 : Canon x0) : Canon (State.writeGtoLo x0 x1) := by
  unfold State.writeGtoLo
  repeat' with_reducible first | assumption | (simp only [canon_mk_iff]; apply canon_fold)

theorem gtoClamp_range (n : Nat) : 1000 ≤ gtoClamp n ∧ gtoClamp n ≤ 2 ^ 36 := by
  unfold gtoClamp; omega
theorem canon_State_writeGtoHi (x0 : State) (x1 : W32) (h0 : Canon x0) : Canon (State.writeGtoHi x0 x1) := by
  obtain ⟨a, b, c, d, e⟩ := h0
  unfold State.writeGtoHi
  generalize (field x1 0 5).toNat * 2 ^ 32 + x0.hub.gtoLo.toNat = n
  exact ⟨a, gtoClamp_range n, c, d, e⟩

theorem canon_execGlobalTimeoutHiWrite (x0 : AccessPath) (x1 : W32) (x2 : State) (h2 : Canon x2)
    : CanonR (execGlobalTimeoutHiWrite x0 x1 x2) := by
  unfold execGlobalTimeoutHiWrite
  repeat' with_reducible
    first | assumption | intro _ | apply canon_State_onCsr | apply canon_State_writeGtoHi | apply canon_next_intro

theorem canon_State_irqAfter (x0 : State) (h0 : Canon x0) : Canon (State.irqAfter x0) := by
  unfold State.irqAfter
  repeat' with_reducible first | assumption | apply canon_State_msix | apply canon_ite

theorem canon_State_writeIrqSts (x0 : State) (x1 : W32) (h0 : Canon x0) : Canon (State.writeIrqSts x0 x1) := by
  unfold State.writeIrqSts
  repeat' with_reducible
    first | assumption | apply canon_State_irqAfter | (simp only [canon_mk_iff]; apply canon_fold)

theorem canon_State_writeIrqEn (x0 : State) (x1 : W32) (h0 : Canon x0) : Canon (State.writeIrqEn x0 x1) := by
  unfold State.writeIrqEn
  repeat' with_reducible
    first | assumption | apply canon_State_irqAfter | (simp only [canon_mk_iff]; apply canon_fold)

theorem canon_State_writeIrqVec (x0 : State) (x1 : W32) (h0 : Canon x0) : Canon (State.writeIrqVec x0 x1) := by
  unfold State.writeIrqVec
  repeat' with_reducible
    first | assumption | apply canon_State_irqAfter | (simp only [canon_mk_iff]; apply canon_fold)

theorem canon_execHubIrqWrite (x0 : AccessPath) (x1 : Fin 3) (x2 : W32) (x3 : State) (h3 : Canon x3)
    : CanonR (execHubIrqWrite x0 x1 x2 x3) := by
  unfold execHubIrqWrite
  repeat' first
    | with_reducible
        first | assumption | intro _ | apply canon_State_writeIrqSts | apply canon_State_writeIrqVec
              | apply canon_State_onCsr | apply canon_State_writeIrqEn | apply canon_next_intro
    | split

theorem canon_State_writeInj (x0 : State) (x1 : W32) (h0 : Canon x0) : Canon (State.writeInj x0 x1) := by
  unfold State.writeInj
  repeat' first
    | with_reducible first | assumption | apply canon_ite | (simp only [canon_mk_iff]; apply canon_fold)
    | split

theorem canon_execHubInjWrite (x0 : AccessPath) (x1 : W32) (x2 : State) (h2 : Canon x2)
    : CanonR (execHubInjWrite x0 x1 x2) := by
  unfold execHubInjWrite
  repeat' with_reducible
    first | assumption | intro _ | apply canon_State_writeInj | apply canon_State_onCsr | apply canon_next_intro

theorem canon_State_writePairCfg (x0 : State) (x1 : Nat) (x2 : W32) (h0 : Canon x0)
    : Canon (State.writePairCfg x0 x1 x2) := by
  unfold State.writePairCfg
  repeat' with_reducible first | assumption | apply canon_ite | (simp only [canon_mk_iff]; apply canon_fold)

theorem canon_execCcPairCfgWrite (x0 : AccessPath) (x1 : Fin 8) (x2 : W32) (x3 : State) (h3 : Canon x3)
    : CanonR (execCcPairCfgWrite x0 x1 x2 x3) := by
  unfold execCcPairCfgWrite
  repeat' with_reducible
    first | assumption | intro _ | apply canon_State_writePairCfg | apply canon_State_onCsr | apply canon_next_intro

theorem canon_State_writePartBar (x0 : State) (x1 x2 x3 : Nat) (x4 : W32) (h0 : Canon x0)
    : Canon (State.writePartBar x0 x1 x2 x3 x4) := by
  unfold State.writePartBar
  repeat' with_reducible first | assumption | (simp only [canon_mk_iff]; apply canon_fold)

theorem canon_execPartBarWrite (x0 : AccessPath) (x1 x2 : Fin 16) (x3 : Fin 4) (x4 : W32) (x5 : State)
    (h5 : Canon x5) : CanonR (execPartBarWrite x0 x1 x2 x3 x4 x5) := by
  unfold execPartBarWrite
  repeat' with_reducible
    first | assumption | intro _ | apply canon_State_writePartBar | apply canon_State_onCsr | apply canon_next_intro

theorem canon_State_csrRead (x0 : State) (x1 : AccessPath) (x2 : Nat) (h0 : Canon x0)
    : Canon (State.csrRead x0 x1 x2).2 := by
  unfold State.csrRead
  repeat' with_reducible first | assumption | apply canon_ite2 | (simp only [canon_mk_iff]; apply canon_fold)

theorem canon_State_csrServe (x0 : State) (x1 : AccessPath) (x2 : Nat) (h0 : Canon x0)
    : Canon (State.csrServe x0 x1 x2).2 := by
  unfold State.csrServe
  repeat' first
    | with_reducible first | assumption | apply canon_State_csrRead | apply canon_ite2
    | split

theorem canon_execLoReadLatch (x0 : AccessPath) (x1 : BitVec 26) (x2 : Fin 4) (x3 : State) (h3 : Canon x3)
    : CanonR (execLoReadLatch x0 x1 x2 x3) := by
  unfold execLoReadLatch
  repeat' with_reducible
    first | assumption | apply canon_State_csrServe | apply canon_State_emit | apply canon_next_intro
          | apply canon_iteR

theorem canon_State_writeTimeSts (x0 : State) (x1 : W32) (h0 : Canon x0) : Canon (State.writeTimeSts x0 x1) := by
  unfold State.writeTimeSts
  repeat' with_reducible first | assumption | (simp only [canon_mk_iff]; apply canon_fold)

theorem canon_State_writeRegionB (x0 : State) (x1 : Nat) (x2 : W32) (h0 : Canon x0)
    : Canon (State.writeRegionB x0 x1 x2) := by
  unfold State.writeRegionB
  repeat' with_reducible first | assumption | apply canon_State_putRegion | apply canon_ite

theorem canon_State_writeRegionC (x0 : State) (x1 : Nat) (x2 : W32) (h0 : Canon x0)
    : Canon (State.writeRegionC x0 x1 x2) := by
  unfold State.writeRegionC
  repeat' with_reducible first | assumption | apply canon_State_putRegion

theorem canon_State_updMc (x0 : State) (x1 : Nat) (x2 : McRegs → McRegs) (h0 : Canon x0)
    : Canon (State.updMc x0 x1 x2) := by
  unfold State.updMc
  repeat' with_reducible first | assumption | (simp only [canon_mk_iff]; apply canon_fold)

theorem canon_State_writeMcCtl (x0 : State) (x1 : Nat) (x2 : W32) (h0 : Canon x0)
    : Canon (State.writeMcCtl x0 x1 x2) := by
  unfold State.writeMcCtl
  repeat' with_reducible first | assumption | apply canon_State_updMc

theorem canon_State_writeChErr (x0 : State) (x1 : Nat) (x2 : W32) (h0 : Canon x0)
    : Canon (State.writeChErr x0 x1 x2) := by
  unfold State.writeChErr
  repeat' with_reducible first | assumption | apply canon_State_updChan

theorem canon_State_writeCx (x0 : State) (x1 x2 : Nat) (x3 : W32) (h0 : Canon x0)
    : Canon (State.writeCx x0 x1 x2 x3) := by
  unfold State.writeCx
  repeat' with_reducible first | assumption | apply canon_State_updCx

theorem canon_State_writeTdaHi (x0 : State) (x1 : W32) (h0 : Canon x0) : Canon (State.writeTdaHi x0 x1) := by
  unfold State.writeTdaHi
  repeat' with_reducible first | assumption | apply canon_ite | (simp only [canon_mk_iff]; apply canon_fold)

theorem canon_State_writeBdThr (x0 : State) (x1 : W32) (h0 : Canon x0) : Canon (State.writeBdThr x0 x1) := by
  unfold State.writeBdThr
  repeat' with_reducible first | assumption | (simp only [canon_mk_iff]; apply canon_fold)

theorem canon_State_writeBdRing (x0 : State) (x1 : W32) (h0 : Canon x0) : Canon (State.writeBdRing x0 x1) := by
  unfold State.writeBdRing
  repeat' with_reducible first | assumption | apply canon_ite | (simp only [canon_mk_iff]; apply canon_fold)

theorem canon_State_writeBdArea (x0 : State) (x1 : Nat) (x2 : BdStack → BdStack) (h0 : Canon x0)
    : Canon (State.writeBdArea x0 x1 x2) := by
  unfold State.writeBdArea
  repeat' with_reducible first | assumption | apply canon_State_updBdStack

theorem canon_State_writeBdCfg (x0 : State) (x1 : Nat) (x2 : W32) (h0 : Canon x0)
    : Canon (State.writeBdCfg x0 x1 x2) := by
  unfold State.writeBdCfg
  repeat' with_reducible first | assumption | apply canon_State_updBdStack | apply canon_State_writeBdArea

theorem canon_State_writeBdErr (x0 : State) (x1 : Nat) (x2 : W32) (h0 : Canon x0)
    : Canon (State.writeBdErr x0 x1 x2) := by
  unfold State.writeBdErr
  repeat' with_reducible first | assumption | apply canon_State_updBdStack

theorem canon_State_writeLate (x0 : State) (x1 : Nat) (x2 : W32) (h0 : Canon x0)
    : Canon (State.writeLate x0 x1 x2) := by
  unfold State.writeLate
  repeat' with_reducible first | assumption | (simp only [canon_mk_iff]; apply canon_fold)

theorem canon_State_writePrm (x0 : State) (x1 : W32) (h0 : Canon x0) : Canon (State.writePrm x0 x1) := by
  unfold State.writePrm
  repeat' with_reducible first | assumption | (simp only [canon_mk_iff]; apply canon_fold)

theorem canon_State_writePrmRing (x0 : State) (x1 : Nat) (x2 : W32) (h0 : Canon x0)
    : Canon (State.writePrmRing x0 x1 x2) := by
  unfold State.writePrmRing
  repeat' with_reducible first | assumption | apply canon_State_updBdStack | apply canon_ite

theorem canon_State_writePrmIdx (x0 : State) (x1 : Nat) (x2 : W32) (h0 : Canon x0)
    : Canon (State.writePrmIdx x0 x1 x2) := by
  unfold State.writePrmIdx
  repeat' with_reducible first | assumption | apply canon_State_updBdStack

theorem canon_State_writeAqCtl (x0 : State) (x1 : W32) (h0 : Canon x0) : Canon (State.writeAqCtl x0 x1) := by
  unfold State.writeAqCtl
  repeat' with_reducible first | assumption | (simp only [canon_mk_iff]; apply canon_fold)

theorem canon_State_writeAqTail (x0 : State) (x1 : W32) (h0 : Canon x0) : Canon (State.writeAqTail x0 x1) := by
  unfold State.writeAqTail
  repeat' with_reducible first | assumption | apply canon_ite | (simp only [canon_mk_iff]; apply canon_fold)

theorem canon_State_writeAqLidx (x0 : State) (x1 : W32) (h0 : Canon x0) : Canon (State.writeAqLidx x0 x1) := by
  unfold State.writeAqLidx
  repeat' with_reducible first | assumption | apply canon_ite | (simp only [canon_mk_iff]; apply canon_fold)

theorem canon_State_writeAqSlot (x0 : State) (x1 : Nat) (x2 : W32) (h0 : Canon x0)
    : Canon (State.writeAqSlot x0 x1 x2) := by
  unfold State.writeAqSlot
  repeat' with_reducible first | assumption | apply canon_State_updAqSlot

theorem canon_State_writeAqWear (x0 : State) (x1 : Nat) (x2 : W32) (h0 : Canon x0)
    : Canon (State.writeAqWear x0 x1 x2) := by
  unfold State.writeAqWear
  repeat' with_reducible first | assumption | apply canon_State_updAqSlot

theorem canon_State_writeLdIds (x0 : State) (x1 : Nat) (x2 : W32) (h0 : Canon x0)
    : Canon (State.writeLdIds x0 x1 x2) := by
  unfold State.writeLdIds
  repeat' with_reducible first | assumption | apply canon_ite | (simp only [canon_mk_iff]; apply canon_fold)

theorem canon_State_writeLuRows (x0 : State) (x1 : Nat) (x2 : W32) (h0 : Canon x0)
    : Canon (State.writeLuRows x0 x1 x2) := by
  unfold State.writeLuRows
  repeat' with_reducible first | assumption | apply canon_ite | (simp only [canon_mk_iff]; apply canon_fold)

theorem canon_State_writeUuSts (x0 : State) (x1 : Nat) (x2 : W32) (h0 : Canon x0)
    : Canon (State.writeUuSts x0 x1 x2) := by
  unfold State.writeUuSts
  repeat' with_reducible first | assumption | apply canon_State_updUu

theorem canon_State_writeUuRows (x0 : State) (x1 : Nat) (x2 : W32) (h0 : Canon x0)
    : Canon (State.writeUuRows x0 x1 x2) := by
  unfold State.writeUuRows
  repeat' with_reducible first | assumption | apply canon_State_updUu | apply canon_ite

theorem canon_State_writeCoreSts (x0 : State) (x1 : Nat) (x2 : W32) (h0 : Canon x0)
    : Canon (State.writeCoreSts x0 x1 x2) := by
  unfold State.writeCoreSts
  repeat' with_reducible first | assumption | apply canon_State_updCore

theorem canon_State_writeCoreCnt (x0 : State) (x1 x2 : Nat) (x3 : W32) (h0 : Canon x0)
    : Canon (State.writeCoreCnt x0 x1 x2 x3) := by
  unfold State.writeCoreCnt
  repeat' with_reducible first | assumption | apply canon_State_updCore | apply canon_ite

theorem canon_State_writeXfer (x0 : State) (x1 : Nat) (x2 : W32) (h0 : Canon x0)
    : Canon (State.writeXfer x0 x1 x2) := by
  unfold State.writeXfer
  repeat' with_reducible first | assumption | apply canon_State_updCluster

theorem canon_State_writePartCfg (x0 : State) (x1 : Nat) (x2 : Part → Part) (h0 : Canon x0)
    : Canon (State.writePartCfg x0 x1 x2) := by
  unfold State.writePartCfg
  repeat' with_reducible first | assumption | apply canon_State_updPart

theorem canon_State_writePart (x0 : State) (x1 x2 : Nat) (x3 : W32) (h0 : Canon x0)
    : Canon (State.writePart x0 x1 x2 x3) := by
  unfold State.writePart
  repeat' first
    | with_reducible first | assumption | apply canon_State_updPart | apply canon_State_writePartCfg
    | split

theorem canon_State_writeSqBase (x0 : State) (x1 : Nat) (x2 : Queue → Queue) (h0 : Canon x0)
    : Canon (State.writeSqBase x0 x1 x2) := by
  unfold State.writeSqBase
  repeat' with_reducible first | assumption | apply canon_State_updQ

theorem canon_State_writeSqIrq (x0 : State) (x1 : Nat) (x2 : W32) (h0 : Canon x0)
    : Canon (State.writeSqIrq x0 x1 x2) := by
  unfold State.writeSqIrq
  repeat' with_reducible first | assumption | apply canon_State_updQ

theorem canon_State_writeSqSts (x0 : State) (x1 : Nat) (x2 : W32) (h0 : Canon x0)
    : Canon (State.writeSqSts x0 x1 x2) := by
  unfold State.writeSqSts
  repeat' with_reducible first | assumption | apply canon_State_updQ

theorem canon_State_writeSq (x0 : State) (x1 x2 : Nat) (x3 : W32) (x4 : Bool) (h0 : Canon x0)
    : Canon (State.writeSq x0 x1 x2 x3 x4) := by
  unfold State.writeSq
  repeat' first
    | with_reducible
        first | assumption | apply canon_State_writeSqIrq | apply canon_State_writeSqBase
              | apply canon_State_writeSqCfg | apply canon_State_writeSqSts
    | split

theorem canon_State_writeFrCtl (x0 : State) (x1 : W32) (h0 : Canon x0) : Canon (State.writeFrCtl x0 x1) := by
  unfold State.writeFrCtl
  repeat' with_reducible first | assumption | (simp only [canon_mk_iff]; apply canon_fold)

theorem canon_State_writeHbase (x0 : State) (x1 : Bool) (x2 : W32) (h0 : Canon x0)
    : Canon (State.writeHbase x0 x1 x2) := by
  unfold State.writeHbase
  repeat' with_reducible first | assumption | apply canon_ite | (simp only [canon_mk_iff]; apply canon_fold)

theorem canon_State_writeHcLink (x0 : State) (x1 : W32) (h0 : Canon x0) : Canon (State.writeHcLink x0 x1) := by
  unfold State.writeHcLink
  repeat' with_reducible first | assumption | apply canon_State_updHost

theorem canon_State_writeHcCnt (x0 : State) (x1 : W32) (h0 : Canon x0) : Canon (State.writeHcCnt x0 x1) := by
  unfold State.writeHcCnt
  repeat' with_reducible first | assumption | apply canon_State_updHost

theorem canon_State_writeVfCfg (x0 : State) (x1 : Nat) (x2 : W32) (x3 : Bool) (h0 : Canon x0)
    : Canon (State.writeVfCfg x0 x1 x2 x3) := by
  unfold State.writeVfCfg
  repeat' with_reducible first | assumption | apply canon_State_updFunc | apply canon_ite

theorem canon_State_writePlOp (x0 : State) (x1 : W32) (h0 : Canon x0) : Canon (State.writePlOp x0 x1) := by
  unfold State.writePlOp
  repeat' with_reducible
    first | assumption | apply canon_State_writePlCmd | apply canon_ite | (simp only [canon_mk_iff]; apply canon_fold)

theorem canon_State_writeIntWord (x0 : State) (x1 : Nat) (x2 : W32) (h0 : Canon x0)
    : Canon (State.writeIntWord x0 x1 x2) := by
  unfold State.writeIntWord
  repeat' first
    | with_reducible first | assumption | (simp only [canon_mk_iff]; apply canon_fold)
    | split

theorem idle_range (v : W32) : 1000 ≤ (if v.toNat < 1000 then (1000 : W32) else v).toNat := by
  split
  · decide
  · omega
theorem canon_State_writeRstc (x0 : State) (x1 : Nat) (x2 : W32) (h0 : Canon x0) : Canon (State.writeRstc x0 x1 x2) := by
  unfold State.writeRstc
  split
  · exact h0
  · exact canon_State_updRst _ _ h0 fun _ _ => idle_range _
  · exact canon_State_updRst _ _ h0 fun _ h => h
  · exact canon_State_updRst _ _ h0 fun _ h => h
  · exact canon_State_updRst _ _ h0 fun _ h => h
  · exact canon_State_writeHloadLen _ _ h0
  · exact h0

theorem canon_State_writeErrSum (x0 : State) (x1 : W32) (h0 : Canon x0) : Canon (State.writeErrSum x0 x1) := by
  unfold State.writeErrSum
  repeat' with_reducible first | assumption | (simp only [canon_mk_iff]; apply canon_fold)

theorem canon_State_writeHub (x0 : State) (x1 : Nat) (x2 : W32) (h0 : Canon x0)
    : Canon (State.writeHub x0 x1 x2) := by
  unfold State.writeHub
  repeat' first
    | with_reducible
        first | assumption | apply canon_State_writeInj | apply canon_State_writeBdRing | apply canon_State_writeTdaHi
              | apply canon_State_writePrm | apply canon_State_writeBdCtl | apply canon_State_writeUpdCtl
              | apply canon_State_writeTimeSts | apply canon_State_writeGtoLo | apply canon_State_applyTimeStep
              | apply canon_State_writeIrqSts | apply canon_State_writeIrqVec | apply canon_State_writeStw
              | apply canon_State_writeRegionC | apply canon_State_writeTdaLo | apply canon_State_writeSvcSts
              | apply canon_State_writeLate | apply canon_State_writeRegionA | apply canon_State_writeSvcCtl
              | apply canon_State_writeGtoHi | apply canon_State_writeBdThr | apply canon_State_writeRegionB
              | apply canon_State_writeDgs | apply canon_State_writeIrqEn | apply canon_State_writeErrSum
              | apply canon_ite
    | split

theorem canon_State_writePwr (x0 : State) (x1 : Nat) (x2 : W32) (h0 : Canon x0)
    : Canon (State.writePwr x0 x1 x2) := by
  unfold State.writePwr
  repeat' first
    | with_reducible
        first | assumption | apply canon_State_writePwrCtl | apply canon_State_writeTelShed
              | apply canon_State_writeTelCtl | apply canon_State_writePwrSts | apply canon_State_writePaceMin
              | apply canon_ite
    | split

theorem canon_State_writeHostReg (x0 : State) (x1 : Nat) (x2 : W32) (x3 : Bool) (h0 : Canon x0)
    : Canon (State.writeHostReg x0 x1 x2 x3) := by
  unfold State.writeHostReg
  repeat' first
    | with_reducible
        first | assumption | apply canon_State_writeHcCnt | apply canon_State_writeGrpB | apply canon_State_writeLcw
              | apply canon_State_writeVfCfg | apply canon_State_writeBflip | apply canon_State_writeHcLink
              | apply canon_State_writeHlc | apply canon_State_updHost | apply canon_State_writeGrpA | apply canon_ite
    | split

theorem canon_State_writePl (x0 : State) (x1 : Nat) (x2 : W32) (h0 : Canon x0) : Canon (State.writePl x0 x1 x2) := by
  unfold State.writePl
  repeat' first
    | with_reducible
        first | assumption | apply canon_State_writePlCnt | apply canon_State_writePlTxb
              | apply canon_State_writePlMreg | apply canon_State_writePlCtl | apply canon_State_writePlSts
              | apply canon_State_writePlOp | apply canon_State_writePlRxb
    | split

theorem canon_State_writeAq (x0 : State) (x1 : Nat) (x2 : W32) (h0 : Canon x0) : Canon (State.writeAq x0 x1 x2) := by
  unfold State.writeAq
  repeat' first
    | with_reducible
        first | assumption | apply canon_State_writeAqCtl | apply canon_State_writeAqSlot
              | apply canon_State_writeAqWear | apply canon_State_writeAqTail | apply canon_State_writeAqLidx
              | apply canon_ite
    | split

theorem canon_State_writeInt (x0 : State) (x1 : Nat) (x2 : W32) (h0 : Canon x0)
    : Canon (State.writeInt x0 x1 x2) := by
  unfold State.writeInt
  repeat' first
    | with_reducible
        first | assumption | apply canon_State_writeIntCmd | apply canon_State_writeHbase
              | apply canon_State_writeIntSts | apply canon_State_writeVerLo | apply canon_State_writeIntWord
              | apply canon_State_writeFrCtl | apply canon_State_writeVerHi | apply canon_State_writeIntCtl
    | split

theorem canon_State_writeSched (x0 : State) (x1 : Nat) (x2 : W32) (h0 : Canon x0)
    : Canon (State.writeSched x0 x1 x2) := by
  unfold State.writeSched
  repeat' with_reducible
    first | assumption | apply canon_State_writePartBar | apply canon_State_writePart | apply canon_ite

theorem canon_State_writeStack (x0 : State) (x1 x2 : Nat) (x3 : W32) (h0 : Canon x0)
    : Canon (State.writeStack x0 x1 x2 x3) := by
  unfold State.writeStack
  repeat' first
    | with_reducible
        first | assumption | apply canon_State_writeUuSts | apply canon_State_writeMcCtl | apply canon_State_writeJnl
              | apply canon_State_writeCx | apply canon_State_writePrmIdx | apply canon_State_writeBdErr
              | apply canon_State_writePrmRing | apply canon_State_writeBdArea | apply canon_State_writeLuRows
              | apply canon_State_writeUuRows | apply canon_State_writeChErr | apply canon_State_writeBdCfg
              | apply canon_ite
    | split

theorem canon_State_writeCluster (x0 : State) (x1 x2 : Nat) (x3 : W32) (h0 : Canon x0)
    : Canon (State.writeCluster x0 x1 x2 x3) := by
  unfold State.writeCluster
  repeat' first
    | with_reducible
        first | assumption | apply canon_State_writeLdIds | apply canon_State_writeXfer
              | apply canon_State_writeCoreSts | apply canon_State_writeCoreCnt | apply canon_ite
    | split

theorem canon_State_csrPut (x0 : State) (x1 : Nat) (x2 : W32) (x3 : Bool) (h0 : Canon x0)
    : Canon (State.csrPut x0 x1 x2 x3) := by
  unfold State.csrPut
  repeat' first
    | with_reducible
        first | assumption | apply canon_State_writeHub | apply canon_State_writePwr | apply canon_State_writeAq
              | apply canon_State_writeCluster | apply canon_State_writeSched | apply canon_State_writeSq
              | apply canon_State_writePairCfg | apply canon_State_writeInt | apply canon_State_writePl
              | apply canon_State_writeRstc | apply canon_State_writeStack | apply canon_State_writeSecDbg
              | apply canon_State_writeHostReg | apply canon_State_writeSecCnt | apply canon_ite
    | split

theorem canon_State_csrStore (x0 : State) (x1 : AccessPath) (x2 : Nat) (x3 : W32) (x4 : Bool) (h0 : Canon x0)
    : Canon (State.csrStore x0 x1 x2 x3 x4) := by
  unfold State.csrStore
  repeat' first
    | with_reducible
        first | assumption | intro _ | apply canon_State_writeSqIrq | apply canon_State_onCsr
              | apply canon_State_writeSqSts | apply canon_State_csrPut
    | split

theorem canon_execCsrWrite (x0 : AccessPath) (x1 : BitVec 26) (x2 : Fin 4) (x3 : W64) (x4 : Bool) (x5 : State)
    (h5 : Canon x5) : CanonR (execCsrWrite x0 x1 x2 x3 x4 x5) := by
  unfold execCsrWrite
  repeat' with_reducible
    first | assumption | apply canon_State_csrStore | apply canon_next_intro | apply canon_ite | apply canon_iteR

theorem canon_execWstg (x0 : Fin 1200) (x1 : BitVec 56) (x2 : State) (h2 : Canon x2)
    : CanonR (execWstg x0 x1 x2) := by
  unfold execWstg
  repeat' first
    | with_reducible
        first | assumption | intro _ | apply canon_State_updCore | apply canon_State_mSlot | apply canonOut_ok
              | exact canonOut_wait | exact canonOut_raise | apply canonOut_ite
    | split

theorem canon_execWstgStagingComplete (x0 : Fin 1200) (x1 : State) (h1 : Canon x1)
    : CanonR (execWstgStagingComplete x0 x1) := by
  unfold execWstgStagingComplete
  repeat' first
    | with_reducible
        first | assumption | apply canon_State_deferExc | apply canon_State_updCore | apply canon_State_csRead
              | apply canon_next_intro | apply canon_iteR
    | split
    | with_reducible refine canon_snd (by assumption) ?_
    | dsimp only

theorem canon_execMma (x0 : Fin 1200) (x1 : BitVec 56) (x2 : State) (h2 : Canon x2) : CanonR (execMma x0 x1 x2) := by
  unfold execMma
  repeat' first
    | with_reducible
        first | assumption | intro _ | apply canon_State_updCore | apply canon_State_mSlot | apply canonOut_ok
              | exact canonOut_wait | exact canonOut_raise | apply canonOut_ite
    | split

theorem canon_State_mmaRun (x0 : State) (x1 : Nat) (x2 : MmaReq) (x3 : Tile) (h0 : Canon x0)
    : Canon (State.mmaRun x0 x1 x2 x3) := by
  unfold State.mmaRun
  repeat' first
    | with_reducible
        first | assumption | apply canon_State_deferExc | apply canon_State_updCore | apply canon_ite
    | split
    | dsimp only

theorem canon_execMmaStart (x0 : Fin 1200) (x1 : State) (h1 : Canon x1) : CanonR (execMmaStart x0 x1) := by
  unfold execMmaStart
  repeat' first
    | with_reducible
        first | assumption | apply canon_State_coreMismatch | apply canon_State_mmaRun | apply canon_State_updCore
              | apply canon_State_injDone | apply canon_State_drawFree | apply canon_next_intro | apply canon_iteR
    | split
    | with_reducible refine canon_snd (by assumption) ?_
    | dsimp only

theorem canon_execMmaComplete (x0 : Fin 1200) (x1 : State) (h1 : Canon x1) : CanonR (execMmaComplete x0 x1) := by
  unfold execMmaComplete
  repeat' first
    | with_reducible
        first | assumption | intro _ | apply canon_State_updCore | apply canon_State_csWrite | apply canon_foldl
              | apply canon_next_intro
    | split
    | dsimp only

theorem canon_execVop (x0 : Fin 1200) (x1 : BitVec 56) (x2 : State) (h2 : Canon x2) : CanonR (execVop x0 x1 x2) := by
  unfold execVop
  repeat' with_reducible
    first | assumption | intro _ | apply canon_State_coreMismatch | apply canon_State_updCore
          | apply canon_State_injDone | apply canon_State_vSlot | apply canonOut_ok | exact canonOut_raise
          | apply canonOut_ite

theorem canon_execVcmp (x0 : Fin 1200) (x1 : BitVec 56) (x2 : State) (h2 : Canon x2)
    : CanonR (execVcmp x0 x1 x2) := by
  unfold execVcmp
  repeat' with_reducible
    first | assumption | intro _ | apply canon_State_updCore | apply canon_State_vSlot | apply canonOut_ok
          | exact canonOut_raise | apply canonOut_ite

theorem canon_execVsel (x0 : Fin 1200) (x1 : BitVec 56) (x2 : State) (h2 : Canon x2)
    : CanonR (execVsel x0 x1 x2) := by
  unfold execVsel
  repeat' with_reducible
    first | assumption | intro _ | apply canon_State_updCore | apply canon_State_vSlot | apply canonOut_ok
          | exact canonOut_raise | apply canonOut_ite

theorem canon_execVbc (x0 : Fin 1200) (x1 : BitVec 56) (x2 : State) (h2 : Canon x2) : CanonR (execVbc x0 x1 x2) := by
  unfold execVbc
  repeat' with_reducible
    first | assumption | intro _ | apply canon_State_updCore | apply canon_State_vSlot | apply canonOut_ok
          | exact canonOut_raise | apply canonOut_ite

theorem canon_execPlog (x0 : Fin 1200) (x1 : BitVec 56) (x2 : State) (h2 : Canon x2)
    : CanonR (execPlog x0 x1 x2) := by
  unfold execPlog
  repeat' first
    | with_reducible
        first | assumption | intro _ | apply canon_State_updCore | apply canon_State_vSlot | apply canonOut_ok
              | exact canonOut_raise
    | split

theorem canon_execVred (x0 : Fin 1200) (x1 : BitVec 56) (x2 : State) (h2 : Canon x2)
    : CanonR (execVred x0 x1 x2) := by
  unfold execVred
  repeat' with_reducible
    first | assumption | intro _ | apply canon_State_coreMismatch | apply canon_State_updCore
          | apply canon_State_injDone | apply canon_State_vSlot | apply canon_State_drawFree | apply canon_ite2
          | apply canonOut_ok | exact canonOut_raise | apply canonOut_ite

theorem canon_execLds (x0 : Fin 1200) (x1 : BitVec 56) (x2 : State) (h2 : Canon x2) : CanonR (execLds x0 x1 x2) := by
  unfold execLds
  repeat' first
    | with_reducible
        first | assumption | intro _ | apply canon_State_deferExc | apply canon_State_updCore
              | apply canon_State_vSlot | apply canon_State_csRead | apply canonOut_ok | exact canonOut_wait
              | exact canonOut_raise | apply canonOut_ite
    | split
    | with_reducible refine canon_snd (by assumption) ?_

theorem canon_execSts (x0 : Fin 1200) (x1 : BitVec 56) (x2 : State) (h2 : Canon x2) : CanonR (execSts x0 x1 x2) := by
  unfold execSts
  repeat' first
    | with_reducible
        first | assumption | intro _ | apply canon_State_updCore | apply canon_State_csWrite | apply canon_State_vSlot
              | apply canon_foldl | apply canon_ite | apply canonOut_ok | exact canonOut_wait | exact canonOut_raise
              | apply canonOut_ite
    | split

theorem canon_State_slewBit (x0 : State) (h0 : Canon x0) : Canon (State.slewBit x0).2 := by
  unfold State.slewBit
  repeat' with_reducible first | assumption | apply canon_State_drawBit | apply canon_ite2

theorem canon_State_tick (x0 : State) (h0 : Canon x0) : Canon (State.tick x0) := by
  obtain ⟨a, b, -, d, e⟩ := canon_State_slewBit x0 h0
  obtain ⟨-, -, c, -, -⟩ := h0
  exact ⟨a, b, c, d, e⟩

theorem canon_State_withFetchWord (x0 : State) (x1 x2 : Nat) (h0 : Canon x0)
    : Canon (State.withFetchWord x0 x1 x2) := by
  unfold State.withFetchWord
  repeat' first
    | with_reducible first | assumption | (simp only [canon_mk_iff]; apply canon_fold)
    | split

end Sys2Proof.Machine
end

