-- ==== Sys2Proof/Laws/Frames.lean ====
section
/-! SUPPORT. What the shared operations leave alone, said once for each: writes by device address change memory, the
channels, the coders, the model-cache tags and the mirroring marks; reports change the fault store, the backup records,
the hub's summary, the host interface, what is sent and the free counter. Every other field is kept:
`congrArg` of its projection on the lemma. -/
namespace Sys2Proof.Machine
open Sys2Proof
set_option maxRecDepth 4000

/-- A state but for what a write by device address may change. -/
def State.butMem (s : State) : State :=
  { s with mem := State.reset.mem, ch := State.reset.ch, cx := State.reset.cx, sc := State.reset.sc, pl := State.reset.pl }

theorem butMem_upd {t u : State} {v0 v1 v2 v3 v4} (h : t.butMem = u) :
    State.butMem { t with mem := v0, ch := v1, cx := v2, sc := v3, pl := v4 } = u := h
theorem butMem_foldl {α : Type} {f : State → α → State} {s u : State} {l : List α}
    (hf : ∀ st x, (f st x).butMem = st.butMem) (h : s.butMem = u) : (l.foldl f s).butMem = u := by
  induction l generalizing s with
  | nil => exact h
  | cons a l ih => exact ih ((hf _ _).trans h)
theorem butMem_ite {c : Prop} [Decidable c] {a b u : State} (ha : a.butMem = u) (hb : b.butMem = u) :
    (if c then a else b).butMem = u := by split <;> assumption

theorem butMem_noteWrite (x0 : State) (x1 : Nat) :
    (State.noteWrite x0 x1).butMem = x0.butMem := by
  unfold State.noteWrite
  repeat' first
    | with_reducible
        first | rfl | assumption | intro _ | apply butMem_foldl | apply butMem_ite | refine butMem_upd ?_
    | split
    | dsimp only
    | rfl

theorem butMem_updCx (x0 : State) (x1 : Nat) (x2 : CxStack → CxStack) :
    (State.updCx x0 x1 x2).butMem = x0.butMem := rfl

theorem butMem_storeBlock (x0 : State) (x1 : Nat) (x2 : Nat) (x3 : Bool) (x4 : Nat) (x5 : List Byte) (x6 : Option Nat) :
    (State.storeBlock x0 x1 x2 x3 x4 x5 x6).butMem = x0.butMem := by
  unfold State.storeBlock
  repeat' first
    | with_reducible
        first | rfl | assumption | intro _ | refine (butMem_noteWrite _ _).trans ?_
              | refine (butMem_updCx _ _ _).trans ?_ | apply butMem_foldl | apply butMem_ite
              | refine butMem_upd ?_
    | split
    | dsimp only
    | rfl

theorem butMem_compressBlock (x0 : State) (x1 : Region) (x2 : Option Nat) (x3 : Nat) (x4 : Nat) (x5 : Bool) (x6 : List Byte) :
    (State.compressBlock x0 x1 x2 x3 x4 x5 x6).butMem = x0.butMem := by
  unfold State.compressBlock
  refine butMem_ite (butMem_storeBlock _ _ _ _ _ _ _) ?_
  generalize ((x0.chooseCbk x1 x2).bind fun i => (encodeBlock i (x0.codebook i) x6).map fun e => (i, e)) = o
  rcases o with _ | ⟨i, l, enc⟩
  · exact (butMem_updCx _ _ _).trans (butMem_storeBlock _ _ _ _ _ _ _)
  · exact butMem_storeBlock _ _ _ _ _ _ _

theorem butMem_poisonBlock (x0 : State) (x1 : Nat) (x2 : Nat) (x3 : Bool) :
    (State.poisonBlock x0 x1 x2 x3).butMem = x0.butMem := by
  unfold State.poisonBlock
  repeat' first
    | with_reducible
        first | rfl | assumption | intro _ | refine (butMem_storeBlock _ _ _ _ _ _ _).trans ?_
              | apply butMem_foldl | apply butMem_ite | refine butMem_upd ?_
    | split
    | dsimp only
    | rfl

theorem butMem_writeBlock (x0 : State) (x1 : Region) (x2 : Option Nat) (x3 : Nat) (x4 : Nat) (x5 : List Byte) (x6 : Bool) :
    (State.writeBlock x0 x1 x2 x3 x4 x5 x6).butMem = x0.butMem := by
  unfold State.writeBlock
  generalize x0.blockPlace x1 x3 = q
  obtain ⟨p, tp, hi⟩ := q
  refine butMem_ite rfl (butMem_ite (butMem_poisonBlock _ _ _ _) (butMem_ite (butMem_compressBlock _ _ _ _ _ _ _) ?_))
  generalize x0.readBlock p tp hi = o
  cases o with
  | none => exact butMem_ite rfl (butMem_poisonBlock _ _ _ _)
  | some old => exact butMem_compressBlock _ _ _ _ _ _ _

theorem butMem_writeFlatLine (x0 : State) (x1 : Nat) (x2 : List Byte) (x3 : Bool) :
    (State.writeFlatLine x0 x1 x2 x3).butMem = x0.butMem := by
  unfold State.writeFlatLine
  repeat' first
    | with_reducible
        first | rfl | assumption | intro _ | refine (butMem_noteWrite _ _).trans ?_ | apply butMem_foldl
              | apply butMem_ite | refine butMem_upd ?_
    | split
    | dsimp only
    | rfl

theorem butMem_clearTag (x0 : State) (x1 : Nat) (x2 : Nat) :
    (State.clearTag x0 x1 x2).butMem = x0.butMem := rfl

theorem butMem_noteDirty (x0 : State) (x1 : Nat) (x2 : Nat) :
    (State.noteDirty x0 x1 x2).butMem = x0.butMem := by
  unfold State.noteDirty
  repeat' first
    | with_reducible
        first | rfl | assumption | intro _ | apply butMem_foldl | apply butMem_ite | refine butMem_upd ?_
    | split
    | dsimp only
    | rfl

theorem butMem_writePiece (x0 : State) (x1 : Option Nat) (x2 : Nat) (x3 : List Byte) (x4 : Bool) :
    (State.writePiece x0 x1 x2 x3 x4).butMem = x0.butMem := by
  unfold State.writePiece
  split
  · rfl
  · exact butMem_ite ((butMem_writeBlock _ _ _ _ _ _ _).trans (butMem_noteDirty _ _ _))
      ((butMem_writeFlatLine _ _ _ _).trans (butMem_noteDirty _ _ _))
  · exact (butMem_clearTag _ _ _).trans (butMem_writeFlatLine _ _ _ _)
  · exact butMem_writeFlatLine _ _ _ _

theorem butMem_writeDAWith (x0 : State) (x1 : Option Nat) (x2 : Nat) (x3 : List Byte) (x4 : optParam Bool Bool.false) :
    (State.writeDAWith x0 x1 x2 x3 x4).butMem = x0.butMem := by
  unfold State.writeDAWith
  repeat' first
    | with_reducible
        first | rfl | assumption | intro _ | refine (butMem_writePiece _ _ _ _ _).trans ?_ | apply butMem_foldl
              | apply butMem_ite | refine butMem_upd ?_
    | split
    | dsimp only
    | rfl

theorem butMem_writeDA (x0 : State) (x1 : Nat) (x2 : List Byte) (x3 : optParam Bool Bool.false) :
    (State.writeDA x0 x1 x2 x3).butMem = x0.butMem := by
  unfold State.writeDA
  repeat' first
    | with_reducible
        first | rfl | assumption | intro _ | refine (butMem_writeDAWith _ _ _ _ _).trans ?_ | apply butMem_foldl
              | apply butMem_ite | refine butMem_upd ?_
    | split
    | dsimp only
    | rfl

theorem butMem_zeroRange (x0 : State) (x1 : Nat) (x2 : Nat) :
    (State.zeroRange x0 x1 x2).butMem = x0.butMem := by
  unfold State.zeroRange
  repeat' first
    | with_reducible
        first | rfl | assumption | intro _ | apply butMem_foldl | apply butMem_ite | refine butMem_upd ?_
    | split
    | dsimp only
    | rfl

theorem butMem_updChan (x0 : State) (x1 : Nat) (x2 : Channel → Channel) :
    (State.updChan x0 x1 x2).butMem = x0.butMem := rfl

/-- A state but for what a report may change. -/
def State.butReport (s : State) : State :=
  { s with faults := State.reset.faults, bak := State.reset.bak, hub := State.reset.hub, host := State.reset.host, out := State.reset.out, freeCtr := State.reset.freeCtr }

theorem butReport_upd {t u : State} {v0 v1 v2 v3 v4 v5} (h : t.butReport = u) :
    State.butReport { t with faults := v0, bak := v1, hub := v2, host := v3, out := v4, freeCtr := v5 } = u := h
theorem butReport_foldl {α : Type} {f : State → α → State} {s u : State} {l : List α}
    (hf : ∀ st x, (f st x).butReport = st.butReport) (h : s.butReport = u) : (l.foldl f s).butReport = u := by
  induction l generalizing s with
  | nil => exact h
  | cons a l ih => exact ih ((hf _ _).trans h)
theorem butReport_ite {c : Prop} [Decidable c] {a b u : State} (ha : a.butReport = u) (hb : b.butReport = u) :
    (if c then a else b).butReport = u := by split <;> assumption

theorem butReport_emit (x0 : State) (x1 : OutMsg) :
    (State.emit x0 x1).butReport = x0.butReport := rfl

theorem butReport_msix (x0 : State) (x1 : Nat) (x2 : Nat) :
    (State.msix x0 x1 x2).butReport = x0.butReport := by
  unfold State.msix
  repeat' first
    | with_reducible
        first | rfl | assumption | intro _ | refine (butReport_emit _ _).trans ?_ | apply butReport_foldl
              | apply butReport_ite | refine butReport_upd ?_
    | split
    | dsimp only
    | rfl

theorem butReport_irqEvent (x0 : State) (x1 : Nat) :
    (State.irqEvent x0 x1).butReport = x0.butReport := by
  unfold State.irqEvent
  repeat' first
    | with_reducible
        first | rfl | assumption | intro _ | refine (butReport_msix _ _ _).trans ?_ | apply butReport_foldl
              | apply butReport_ite | refine butReport_upd ?_
    | split
    | dsimp only
    | rfl

theorem butReport_irqIf (x0 : State) (x1 : Bool) (x2 : Nat) :
    (State.irqIf x0 x1 x2).butReport = x0.butReport := by
  unfold State.irqIf
  repeat' first
    | with_reducible
        first | rfl | assumption | intro _ | refine (butReport_irqEvent _ _).trans ?_ | apply butReport_foldl
              | apply butReport_ite | refine butReport_upd ?_
    | split
    | dsimp only
    | rfl

theorem butReport_mirrorRecord (x0 : State) (x1 : FaultRecord) :
    (State.mirrorRecord x0 x1).butReport = x0.butReport := by
  unfold State.mirrorRecord
  repeat' first
    | with_reducible
        first | rfl | assumption | intro _ | refine (butReport_emit _ _).trans ?_ | apply butReport_foldl
              | apply butReport_ite | refine butReport_upd ?_
    | split
    | dsimp only
    | rfl

theorem butReport_pldmEvent (x0 : State) (x1 : String) (x2 : Nat) :
    (State.pldmEvent x0 x1 x2).butReport = x0.butReport := by
  unfold State.pldmEvent
  repeat' first
    | with_reducible
        first | rfl | assumption | intro _ | refine (butReport_emit _ _).trans ?_ | apply butReport_foldl
              | apply butReport_ite | refine butReport_upd ?_
    | split
    | dsimp only
    | rfl

theorem butReport_fault (x0 : State) (x1 : FaultRecord) :
    (State.fault x0 x1).butReport = x0.butReport := by
  unfold State.fault
  repeat' first
    | with_reducible
        first | rfl | assumption | intro _ | refine (butReport_irqEvent _ _).trans ?_
              | refine (butReport_mirrorRecord _ _).trans ?_ | refine (butReport_msix _ _ _).trans ?_
              | refine (butReport_pldmEvent _ _ _).trans ?_ | apply butReport_foldl | apply butReport_ite
              | refine butReport_upd ?_
    | split
    | dsimp only
    | rfl

theorem butReport_timeFault (x0 : State) (x1 : Nat) (x2 : Nat) (x3 : optParam Nat 0) :
    (State.timeFault x0 x1 x2 x3).butReport = x0.butReport := by
  unfold State.timeFault
  repeat' first
    | with_reducible
        first | rfl | assumption | intro _ | refine (butReport_fault _ _).trans ?_ | apply butReport_foldl
              | apply butReport_ite | refine butReport_upd ?_
    | split
    | dsimp only
    | rfl

theorem butReport_stackFault (x0 : State) (x1 : Nat) (x2 : Nat) (x3 : optParam Nat 0) (x4 : optParam Nat 4) (x5 : optParam Nat 4294967295) (x6 : optParam Nat (2 ^ 64 - 1)) (x7 : optParam Nat 4294967295) (x8 : optParam Nat 0) (x9 : optParam Nat 0) (x10 : optParam (List Byte) []) (x11 : optParam Nat 0) :
    (State.stackFault x0 x1 x2 x3 x4 x5 x6 x7 x8 x9 x10 x11).butReport = x0.butReport := by
  unfold State.stackFault
  repeat' first
    | with_reducible
        first | rfl | assumption | intro _ | refine (butReport_fault _ _).trans ?_ | apply butReport_foldl
              | apply butReport_ite | refine butReport_upd ?_
    | split
    | dsimp only
    | rfl

theorem butReport_queueFault (x0 : State) (x1 : Nat) (x2 : Nat) (x3 : optParam (Option Nat) Option.none) :
    (State.queueFault x0 x1 x2 x3).butReport = x0.butReport := by
  unfold State.queueFault
  repeat' first
    | with_reducible
        first | rfl | assumption | intro _ | refine (butReport_fault _ _).trans ?_ | apply butReport_foldl
              | apply butReport_ite | refine butReport_upd ?_
    | split
    | dsimp only
    | rfl

theorem butReport_drawFree (x0 : State) (x1 : Nat) :
    (State.drawFree x0 x1).2.butReport = x0.butReport := by
  unfold State.drawFree
  repeat' first
    | with_reducible
        first | rfl | assumption | intro _ | apply butReport_foldl | apply butReport_ite
              | refine butReport_upd ?_
    | split
    | dsimp only
    | rfl

theorem butReport_hostFault (x0 : State) (x1 : Nat) (x2 : Nat) (x3 : Nat) (x4 : optParam (List Byte) []) :
    (State.hostFault x0 x1 x2 x3 x4).butReport = x0.butReport := by
  unfold State.hostFault
  repeat' first
    | with_reducible
        first | rfl | assumption | intro _ | refine (butReport_drawFree _ _).trans ?_
              | refine (butReport_fault _ _).trans ?_ | apply butReport_foldl | apply butReport_ite
              | refine butReport_upd ?_
    | split
    | dsimp only
    | rfl

theorem butReport_aqFault (x0 : State) (x1 : Nat) (x2 : Nat) (x3 : optParam Nat 0) (x4 : optParam Nat 0) (x5 : optParam Nat 0) (x6 : optParam Nat 0) :
    (State.aqFault x0 x1 x2 x3 x4 x5 x6).butReport = x0.butReport := by
  unfold State.aqFault
  repeat' first
    | with_reducible
        first | rfl | assumption | intro _ | refine (butReport_drawFree _ _).trans ?_
              | refine (butReport_fault _ _).trans ?_ | apply butReport_foldl | apply butReport_ite
              | refine butReport_upd ?_
    | split
    | dsimp only
    | rfl

theorem butReport_pairFault (x0 : State) (x1 : Nat) (x2 : Option Nat) (x3 : Nat) (x4 : Nat) (x5 : W64) (x6 : W64) :
    (State.pairFault x0 x1 x2 x3 x4 x5 x6).butReport = x0.butReport := by
  unfold State.pairFault
  repeat' first
    | with_reducible
        first | rfl | assumption | intro _ | refine (butReport_fault _ _).trans ?_ | apply butReport_foldl
              | apply butReport_ite | refine butReport_upd ?_
    | split
    | dsimp only
    | rfl

theorem butReport_coreFault (x0 : State) (x1 : Nat) (x2 : Nat) (x3 : Nat) (x4 : Nat) (x5 : Bool) (x6 : W64) (x7 : Option (Nat × Bool)) :
    (State.coreFault x0 x1 x2 x3 x4 x5 x6 x7).butReport = x0.butReport := by
  unfold State.coreFault
  repeat' first
    | with_reducible
        first | rfl | assumption | intro _ | refine (butReport_fault _ _).trans ?_ | apply butReport_foldl
              | apply butReport_ite | refine butReport_upd ?_
    | split
    | dsimp only
    | rfl

theorem butReport_intFault (x0 : State) (x1 : Nat) (x2 : optParam (List Byte) []) (x3 : optParam (List Byte) []) (x4 : optParam Nat 0) :
    (State.intFault x0 x1 x2 x3 x4).butReport = x0.butReport := by
  unfold State.intFault
  repeat' first
    | with_reducible
        first | rfl | assumption | intro _ | refine (butReport_fault _ _).trans ?_ | apply butReport_foldl
              | apply butReport_ite | refine butReport_upd ?_
    | split
    | dsimp only
    | rfl

theorem butReport_secFault (x0 : State) (x1 : Nat) :
    (State.secFault x0 x1).butReport = x0.butReport := by
  unfold State.secFault
  repeat' first
    | with_reducible
        first | rfl | assumption | intro _ | refine (butReport_fault _ _).trans ?_ | apply butReport_foldl
              | apply butReport_ite | refine butReport_upd ?_
    | split
    | dsimp only
    | rfl

theorem butReport_plFault (x0 : State) (x1 : Nat) :
    (State.plFault x0 x1).butReport = x0.butReport := by
  unfold State.plFault
  repeat' first
    | with_reducible
        first | rfl | assumption | intro _ | refine (butReport_fault _ _).trans ?_ | apply butReport_foldl
              | apply butReport_ite | refine butReport_upd ?_
    | split
    | dsimp only
    | rfl

theorem butReport_railFault (x0 : State) (x1 : Nat) (x2 : Nat) (x3 : Nat) (x4 : Nat) :
    (State.railFault x0 x1 x2 x3 x4).butReport = x0.butReport := by
  unfold State.railFault
  repeat' first
    | with_reducible
        first | rfl | assumption | intro _ | refine (butReport_fault _ _).trans ?_ | apply butReport_foldl
              | apply butReport_ite | refine butReport_upd ?_
    | split
    | dsimp only
    | rfl

theorem butReport_stwFault (x0 : State) (x1 : Nat) :
    (State.stwFault x0 x1).butReport = x0.butReport := by
  unfold State.stwFault
  repeat' first
    | with_reducible
        first | rfl | assumption | intro _ | refine (butReport_fault _ _).trans ?_ | apply butReport_foldl
              | apply butReport_ite | refine butReport_upd ?_
    | split
    | dsimp only
    | rfl

theorem butReport_drawBit (x0 : State) :
    (State.drawBit x0).2.butReport = x0.butReport := by
  unfold State.drawBit
  repeat' first
    | with_reducible
        first | rfl | assumption | intro _ | refine (butReport_drawFree _ _).trans ?_ | apply butReport_foldl
              | apply butReport_ite | refine butReport_upd ?_
    | split
    | dsimp only
    | rfl

theorem butReport_injDone (x0 : State) :
    (State.injDone x0).butReport = x0.butReport := rfl

theorem butReport_updFunc (x0 : State) (x1 : Nat) (x2 : Func → Func) :
    (State.updFunc x0 x1 x2).butReport = x0.butReport := rfl

theorem butReport_updHost (x0 : State) (x1 : HostState → HostState) :
    (State.updHost x0 x1).butReport = x0.butReport := rfl

end Sys2Proof.Machine
end

