-- ==== Sys2Proof/Laws/SMap.lean ====
section
/-! SUPPORT. The maps of the state: a read after a write at the same key gives the value written, and a write leaves
every other key alone. -/
namespace Sys2Proof

@[simp] theorem SMap.get_set_self {α : Type} (d : α) (m : SMap α) (i : Nat) (v : α) : SMap.get d (SMap.set m i v) i = v := by
  induction m with
  | nil => simp [SMap.set, SMap.get]
  | cons kv m ih =>
    obtain ⟨k, w⟩ := kv
    simp only [SMap.set]
    split
    · simp [SMap.get]
    · split
      · simp [SMap.get]
      · rename_i h1 h2
        simp only [SMap.get]
        rw [if_neg (fun e => h2 e.symm)]
        exact ih

theorem SMap.get_set_ne {α : Type} (d : α) (m : SMap α) {i j : Nat} (v : α) (h : j ≠ i) :
    SMap.get d (SMap.set m i v) j = SMap.get d m j := by
  induction m with
  | nil => simp only [SMap.set, SMap.get]; rw [if_neg (Ne.symm h)]
  | cons kv m ih =>
    obtain ⟨k, w⟩ := kv
    simp only [SMap.set]
    split
    · simp only [SMap.get]; rw [if_neg (Ne.symm h)]
    · split
      · rename_i e
        subst e
        simp only [SMap.get]; rw [if_neg (Ne.symm h), if_neg (Ne.symm h)]
      · simp only [SMap.get, ih]

@[simp] theorem SMap.find_set_self {α : Type} (m : SMap α) (i : Nat) (v : α) : SMap.find (SMap.set m i v) i = some v := by
  induction m with
  | nil => simp [SMap.set, SMap.find]
  | cons kv m ih =>
    obtain ⟨k, w⟩ := kv
    simp only [SMap.set]
    split
    · simp [SMap.find]
    · split
      · simp [SMap.find]
      · rename_i h1 h2
        simp only [SMap.find]
        rw [if_neg (fun e => h2 e.symm)]
        exact ih

theorem SMap.find_set_ne {α : Type} (m : SMap α) {i j : Nat} (v : α) (h : j ≠ i) :
    SMap.find (SMap.set m i v) j = SMap.find m j := by
  induction m with
  | nil => simp only [SMap.set, SMap.find]; rw [if_neg (Ne.symm h)]
  | cons kv m ih =>
    obtain ⟨k, w⟩ := kv
    simp only [SMap.set]
    split
    · simp only [SMap.find]; rw [if_neg (Ne.symm h)]
    · split
      · rename_i e
        subst e
        simp only [SMap.find]; rw [if_neg (Ne.symm h), if_neg (Ne.symm h)]
      · simp only [SMap.find, ih]

@[simp] theorem SMap.set_set {α : Type} (m : SMap α) (i : Nat) (v w : α) :
    SMap.set (SMap.set m i v) i w = SMap.set m i w := by
  induction m with
  | nil => simp [SMap.set]
  | cons kv m ih =>
    obtain ⟨k, x⟩ := kv
    simp only [SMap.set]
    split
    · simp [SMap.set]
    · split
      · simp [SMap.set]
      · rename_i h1 h2
        simp only [SMap.set]
        rw [if_neg h1, if_neg h2, ih]

theorem SMap.get_of_find {α : Type} (d : α) (m : SMap α) (i : Nat) : SMap.get d m i = (SMap.find m i).getD d := by
  induction m with
  | nil => rfl
  | cons kv m ih =>
    obtain ⟨k, x⟩ := kv
    simp only [SMap.get, SMap.find]
    split
    · rfl
    · exact ih

@[simp] theorem SMap.get_upd_self {α : Type} (d : α) (m : SMap α) (i : Nat) (f : α → α) :
    SMap.get d (SMap.upd d m i f) i = f (SMap.get d m i) := SMap.get_set_self d m i _

theorem SMap.get_upd_ne {α : Type} (d : α) (m : SMap α) {i j : Nat} (f : α → α) (h : j ≠ i) :
    SMap.get d (SMap.upd d m i f) j = SMap.get d m j := SMap.get_set_ne d m _ h

end Sys2Proof
end

