-- ==== Sys2Proof/Laws/State.lean ====
section
/-! SUPPORT. Each field of the state after each update of it: the field that an update names, and every other field as it
was; and what the accessors of the banked records read after an update of theirs. -/
namespace Sys2Proof.Machine
open Sys2Proof

/-! `State.updCx` -/

@[simp] theorem State.updCx_time (s : State) (st : Nat) (f : CxStack → CxStack) : (s.updCx st f).time = s.time := rfl
@[simp] theorem State.updCx_pace (s : State) (st : Nat) (f : CxStack → CxStack) : (s.updCx st f).pace = s.pace := rfl
@[simp] theorem State.updCx_rst (s : State) (st : Nat) (f : CxStack → CxStack) : (s.updCx st f).rst = s.rst := rfl
@[simp] theorem State.updCx_bak (s : State) (st : Nat) (f : CxStack → CxStack) : (s.updCx st f).bak = s.bak := rfl
@[simp] theorem State.updCx_nvm (s : State) (st : Nat) (f : CxStack → CxStack) : (s.updCx st f).nvm = s.nvm := rfl
@[simp] theorem State.updCx_opt (s : State) (st : Nat) (f : CxStack → CxStack) : (s.updCx st f).opt = s.opt := rfl
@[simp] theorem State.updCx_straps (s : State) (st : Nat) (f : CxStack → CxStack) : (s.updCx st f).straps = s.straps := rfl
@[simp] theorem State.updCx_hub (s : State) (st : Nat) (f : CxStack → CxStack) : (s.updCx st f).hub = s.hub := rfl
@[simp] theorem State.updCx_latch (s : State) (st : Nat) (f : CxStack → CxStack) : (s.updCx st f).latch = s.latch := rfl
@[simp] theorem State.updCx_mem (s : State) (st : Nat) (f : CxStack → CxStack) : (s.updCx st f).mem = s.mem := rfl
@[simp] theorem State.updCx_regions (s : State) (st : Nat) (f : CxStack → CxStack) : (s.updCx st f).regions = s.regions := rfl
@[simp] theorem State.updCx_mc (s : State) (st : Nat) (f : CxStack → CxStack) : (s.updCx st f).mc = s.mc := rfl
@[simp] theorem State.updCx_ch (s : State) (st : Nat) (f : CxStack → CxStack) : (s.updCx st f).ch = s.ch := rfl
@[simp] theorem State.updCx_cx (s : State) (st : Nat) (f : CxStack → CxStack) : (s.updCx st f).cx = s.cx.upd {} st f := rfl
@[simp] theorem State.updCx_cbk (s : State) (st : Nat) (f : CxStack → CxStack) : (s.updCx st f).cbk = s.cbk := rfl
@[simp] theorem State.updCx_host (s : State) (st : Nat) (f : CxStack → CxStack) : (s.updCx st f).host = s.host := rfl
@[simp] theorem State.updCx_rsv (s : State) (st : Nat) (f : CxStack → CxStack) : (s.updCx st f).rsv = s.rsv := rfl
@[simp] theorem State.updCx_tda (s : State) (st : Nat) (f : CxStack → CxStack) : (s.updCx st f).tda = s.tda := rfl
@[simp] theorem State.updCx_drains (s : State) (st : Nat) (f : CxStack → CxStack) : (s.updCx st f).drains = s.drains := rfl
@[simp] theorem State.updCx_heap (s : State) (st : Nat) (f : CxStack → CxStack) : (s.updCx st f).heap = s.heap := rfl
@[simp] theorem State.updCx_upd (s : State) (st : Nat) (f : CxStack → CxStack) : (s.updCx st f).upd = s.upd := rfl
@[simp] theorem State.updCx_uu (s : State) (st : Nat) (f : CxStack → CxStack) : (s.updCx st f).uu = s.uu := rfl
@[simp] theorem State.updCx_int (s : State) (st : Nat) (f : CxStack → CxStack) : (s.updCx st f).int = s.int := rfl
@[simp] theorem State.updCx_pl (s : State) (st : Nat) (f : CxStack → CxStack) : (s.updCx st f).pl = s.pl := rfl
@[simp] theorem State.updCx_pwr (s : State) (st : Nat) (f : CxStack → CxStack) : (s.updCx st f).pwr = s.pwr := rfl
@[simp] theorem State.updCx_sec (s : State) (st : Nat) (f : CxStack → CxStack) : (s.updCx st f).sec = s.sec := rfl
@[simp] theorem State.updCx_ident (s : State) (st : Nat) (f : CxStack → CxStack) : (s.updCx st f).ident = s.ident := rfl
@[simp] theorem State.updCx_stw (s : State) (st : Nat) (f : CxStack → CxStack) : (s.updCx st f).stw = s.stw := rfl
@[simp] theorem State.updCx_spi (s : State) (st : Nat) (f : CxStack → CxStack) : (s.updCx st f).spi = s.spi := rfl
@[simp] theorem State.updCx_rails (s : State) (st : Nat) (f : CxStack → CxStack) : (s.updCx st f).rails = s.rails := rfl
@[simp] theorem State.updCx_bd (s : State) (st : Nat) (f : CxStack → CxStack) : (s.updCx st f).bd = s.bd := rfl
@[simp] theorem State.updCx_aq (s : State) (st : Nat) (f : CxStack → CxStack) : (s.updCx st f).aq = s.aq := rfl
@[simp] theorem State.updCx_late (s : State) (st : Nat) (f : CxStack → CxStack) : (s.updCx st f).late = s.late := rfl
@[simp] theorem State.updCx_lk (s : State) (st : Nat) (f : CxStack → CxStack) : (s.updCx st f).lk = s.lk := rfl
@[simp] theorem State.updCx_sc (s : State) (st : Nat) (f : CxStack → CxStack) : (s.updCx st f).sc = s.sc := rfl
@[simp] theorem State.updCx_co (s : State) (st : Nat) (f : CxStack → CxStack) : (s.updCx st f).co = s.co := rfl
@[simp] theorem State.updCx_cc (s : State) (st : Nat) (f : CxStack → CxStack) : (s.updCx st f).cc = s.cc := rfl
@[simp] theorem State.updCx_queues (s : State) (st : Nat) (f : CxStack → CxStack) : (s.updCx st f).queues = s.queues := rfl
@[simp] theorem State.updCx_faults (s : State) (st : Nat) (f : CxStack → CxStack) : (s.updCx st f).faults = s.faults := rfl
@[simp] theorem State.updCx_out (s : State) (st : Nat) (f : CxStack → CxStack) : (s.updCx st f).out = s.out := rfl
@[simp] theorem State.updCx_freeCtr (s : State) (st : Nat) (f : CxStack → CxStack) : (s.updCx st f).freeCtr = s.freeCtr := rfl
@[simp] theorem State.updCx_pending (s : State) (st : Nat) (f : CxStack → CxStack) : (s.updCx st f).pending = s.pending := rfl

/-! `State.updMc` -/

@[simp] theorem State.updMc_time (s : State) (st : Nat) (f : McRegs → McRegs) : (s.updMc st f).time = s.time := rfl
@[simp] theorem State.updMc_pace (s : State) (st : Nat) (f : McRegs → McRegs) : (s.updMc st f).pace = s.pace := rfl
@[simp] theorem State.updMc_rst (s : State) (st : Nat) (f : McRegs → McRegs) : (s.updMc st f).rst = s.rst := rfl
@[simp] theorem State.updMc_bak (s : State) (st : Nat) (f : McRegs → McRegs) : (s.updMc st f).bak = s.bak := rfl
@[simp] theorem State.updMc_nvm (s : State) (st : Nat) (f : McRegs → McRegs) : (s.updMc st f).nvm = s.nvm := rfl
@[simp] theorem State.updMc_opt (s : State) (st : Nat) (f : McRegs → McRegs) : (s.updMc st f).opt = s.opt := rfl
@[simp] theorem State.updMc_straps (s : State) (st : Nat) (f : McRegs → McRegs) : (s.updMc st f).straps = s.straps := rfl
@[simp] theorem State.updMc_hub (s : State) (st : Nat) (f : McRegs → McRegs) : (s.updMc st f).hub = s.hub := rfl
@[simp] theorem State.updMc_latch (s : State) (st : Nat) (f : McRegs → McRegs) : (s.updMc st f).latch = s.latch := rfl
@[simp] theorem State.updMc_mem (s : State) (st : Nat) (f : McRegs → McRegs) : (s.updMc st f).mem = s.mem := rfl
@[simp] theorem State.updMc_regions (s : State) (st : Nat) (f : McRegs → McRegs) : (s.updMc st f).regions = s.regions := rfl
@[simp] theorem State.updMc_mc (s : State) (st : Nat) (f : McRegs → McRegs) : (s.updMc st f).mc = s.mc.upd {} st f := rfl
@[simp] theorem State.updMc_ch (s : State) (st : Nat) (f : McRegs → McRegs) : (s.updMc st f).ch = s.ch := rfl
@[simp] theorem State.updMc_cx (s : State) (st : Nat) (f : McRegs → McRegs) : (s.updMc st f).cx = s.cx := rfl
@[simp] theorem State.updMc_cbk (s : State) (st : Nat) (f : McRegs → McRegs) : (s.updMc st f).cbk = s.cbk := rfl
@[simp] theorem State.updMc_host (s : State) (st : Nat) (f : McRegs → McRegs) : (s.updMc st f).host = s.host := rfl
@[simp] theorem State.updMc_rsv (s : State) (st : Nat) (f : McRegs → McRegs) : (s.updMc st f).rsv = s.rsv := rfl
@[simp] theorem State.updMc_tda (s : State) (st : Nat) (f : McRegs → McRegs) : (s.updMc st f).tda = s.tda := rfl
@[simp] theorem State.updMc_drains (s : State) (st : Nat) (f : McRegs → McRegs) : (s.updMc st f).drains = s.drains := rfl
@[simp] theorem State.updMc_heap (s : State) (st : Nat) (f : McRegs → McRegs) : (s.updMc st f).heap = s.heap := rfl
@[simp] theorem State.updMc_upd (s : State) (st : Nat) (f : McRegs → McRegs) : (s.updMc st f).upd = s.upd := rfl
@[simp] theorem State.updMc_uu (s : State) (st : Nat) (f : McRegs → McRegs) : (s.updMc st f).uu = s.uu := rfl
@[simp] theorem State.updMc_int (s : State) (st : Nat) (f : McRegs → McRegs) : (s.updMc st f).int = s.int := rfl
@[simp] theorem State.updMc_pl (s : State) (st : Nat) (f : McRegs → McRegs) : (s.updMc st f).pl = s.pl := rfl
@[simp] theorem State.updMc_pwr (s : State) (st : Nat) (f : McRegs → McRegs) : (s.updMc st f).pwr = s.pwr := rfl
@[simp] theorem State.updMc_sec (s : State) (st : Nat) (f : McRegs → McRegs) : (s.updMc st f).sec = s.sec := rfl
@[simp] theorem State.updMc_ident (s : State) (st : Nat) (f : McRegs → McRegs) : (s.updMc st f).ident = s.ident := rfl
@[simp] theorem State.updMc_stw (s : State) (st : Nat) (f : McRegs → McRegs) : (s.updMc st f).stw = s.stw := rfl
@[simp] theorem State.updMc_spi (s : State) (st : Nat) (f : McRegs → McRegs) : (s.updMc st f).spi = s.spi := rfl
@[simp] theorem State.updMc_rails (s : State) (st : Nat) (f : McRegs → McRegs) : (s.updMc st f).rails = s.rails := rfl
@[simp] theorem State.updMc_bd (s : State) (st : Nat) (f : McRegs → McRegs) : (s.updMc st f).bd = s.bd := rfl
@[simp] theorem State.updMc_aq (s : State) (st : Nat) (f : McRegs → McRegs) : (s.updMc st f).aq = s.aq := rfl
@[simp] theorem State.updMc_late (s : State) (st : Nat) (f : McRegs → McRegs) : (s.updMc st f).late = s.late := rfl
@[simp] theorem State.updMc_lk (s : State) (st : Nat) (f : McRegs → McRegs) : (s.updMc st f).lk = s.lk := rfl
@[simp] theorem State.updMc_sc (s : State) (st : Nat) (f : McRegs → McRegs) : (s.updMc st f).sc = s.sc := rfl
@[simp] theorem State.updMc_co (s : State) (st : Nat) (f : McRegs → McRegs) : (s.updMc st f).co = s.co := rfl
@[simp] theorem State.updMc_cc (s : State) (st : Nat) (f : McRegs → McRegs) : (s.updMc st f).cc = s.cc := rfl
@[simp] theorem State.updMc_queues (s : State) (st : Nat) (f : McRegs → McRegs) : (s.updMc st f).queues = s.queues := rfl
@[simp] theorem State.updMc_faults (s : State) (st : Nat) (f : McRegs → McRegs) : (s.updMc st f).faults = s.faults := rfl
@[simp] theorem State.updMc_out (s : State) (st : Nat) (f : McRegs → McRegs) : (s.updMc st f).out = s.out := rfl
@[simp] theorem State.updMc_freeCtr (s : State) (st : Nat) (f : McRegs → McRegs) : (s.updMc st f).freeCtr = s.freeCtr := rfl
@[simp] theorem State.updMc_pending (s : State) (st : Nat) (f : McRegs → McRegs) : (s.updMc st f).pending = s.pending := rfl

/-! `State.updChan` -/

@[simp] theorem State.updChan_time (s : State) (i : Nat) (f : Channel → Channel) : (s.updChan i f).time = s.time := rfl
@[simp] theorem State.updChan_pace (s : State) (i : Nat) (f : Channel → Channel) : (s.updChan i f).pace = s.pace := rfl
@[simp] theorem State.updChan_rst (s : State) (i : Nat) (f : Channel → Channel) : (s.updChan i f).rst = s.rst := rfl
@[simp] theorem State.updChan_bak (s : State) (i : Nat) (f : Channel → Channel) : (s.updChan i f).bak = s.bak := rfl
@[simp] theorem State.updChan_nvm (s : State) (i : Nat) (f : Channel → Channel) : (s.updChan i f).nvm = s.nvm := rfl
@[simp] theorem State.updChan_opt (s : State) (i : Nat) (f : Channel → Channel) : (s.updChan i f).opt = s.opt := rfl
@[simp] theorem State.updChan_straps (s : State) (i : Nat) (f : Channel → Channel) : (s.updChan i f).straps = s.straps := rfl
@[simp] theorem State.updChan_hub (s : State) (i : Nat) (f : Channel → Channel) : (s.updChan i f).hub = s.hub := rfl
@[simp] theorem State.updChan_latch (s : State) (i : Nat) (f : Channel → Channel) : (s.updChan i f).latch = s.latch := rfl
@[simp] theorem State.updChan_mem (s : State) (i : Nat) (f : Channel → Channel) : (s.updChan i f).mem = s.mem := rfl
@[simp] theorem State.updChan_regions (s : State) (i : Nat) (f : Channel → Channel) : (s.updChan i f).regions = s.regions := rfl
@[simp] theorem State.updChan_mc (s : State) (i : Nat) (f : Channel → Channel) : (s.updChan i f).mc = s.mc := rfl
@[simp] theorem State.updChan_ch (s : State) (i : Nat) (f : Channel → Channel) : (s.updChan i f).ch = s.ch.upd {} i f := rfl
@[simp] theorem State.updChan_cx (s : State) (i : Nat) (f : Channel → Channel) : (s.updChan i f).cx = s.cx := rfl
@[simp] theorem State.updChan_cbk (s : State) (i : Nat) (f : Channel → Channel) : (s.updChan i f).cbk = s.cbk := rfl
@[simp] theorem State.updChan_host (s : State) (i : Nat) (f : Channel → Channel) : (s.updChan i f).host = s.host := rfl
@[simp] theorem State.updChan_rsv (s : State) (i : Nat) (f : Channel → Channel) : (s.updChan i f).rsv = s.rsv := rfl
@[simp] theorem State.updChan_tda (s : State) (i : Nat) (f : Channel → Channel) : (s.updChan i f).tda = s.tda := rfl
@[simp] theorem State.updChan_drains (s : State) (i : Nat) (f : Channel → Channel) : (s.updChan i f).drains = s.drains := rfl
@[simp] theorem State.updChan_heap (s : State) (i : Nat) (f : Channel → Channel) : (s.updChan i f).heap = s.heap := rfl
@[simp] theorem State.updChan_upd (s : State) (i : Nat) (f : Channel → Channel) : (s.updChan i f).upd = s.upd := rfl
@[simp] theorem State.updChan_uu (s : State) (i : Nat) (f : Channel → Channel) : (s.updChan i f).uu = s.uu := rfl
@[simp] theorem State.updChan_int (s : State) (i : Nat) (f : Channel → Channel) : (s.updChan i f).int = s.int := rfl
@[simp] theorem State.updChan_pl (s : State) (i : Nat) (f : Channel → Channel) : (s.updChan i f).pl = s.pl := rfl
@[simp] theorem State.updChan_pwr (s : State) (i : Nat) (f : Channel → Channel) : (s.updChan i f).pwr = s.pwr := rfl
@[simp] theorem State.updChan_sec (s : State) (i : Nat) (f : Channel → Channel) : (s.updChan i f).sec = s.sec := rfl
@[simp] theorem State.updChan_ident (s : State) (i : Nat) (f : Channel → Channel) : (s.updChan i f).ident = s.ident := rfl
@[simp] theorem State.updChan_stw (s : State) (i : Nat) (f : Channel → Channel) : (s.updChan i f).stw = s.stw := rfl
@[simp] theorem State.updChan_spi (s : State) (i : Nat) (f : Channel → Channel) : (s.updChan i f).spi = s.spi := rfl
@[simp] theorem State.updChan_rails (s : State) (i : Nat) (f : Channel → Channel) : (s.updChan i f).rails = s.rails := rfl
@[simp] theorem State.updChan_bd (s : State) (i : Nat) (f : Channel → Channel) : (s.updChan i f).bd = s.bd := rfl
@[simp] theorem State.updChan_aq (s : State) (i : Nat) (f : Channel → Channel) : (s.updChan i f).aq = s.aq := rfl
@[simp] theorem State.updChan_late (s : State) (i : Nat) (f : Channel → Channel) : (s.updChan i f).late = s.late := rfl
@[simp] theorem State.updChan_lk (s : State) (i : Nat) (f : Channel → Channel) : (s.updChan i f).lk = s.lk := rfl
@[simp] theorem State.updChan_sc (s : State) (i : Nat) (f : Channel → Channel) : (s.updChan i f).sc = s.sc := rfl
@[simp] theorem State.updChan_co (s : State) (i : Nat) (f : Channel → Channel) : (s.updChan i f).co = s.co := rfl
@[simp] theorem State.updChan_cc (s : State) (i : Nat) (f : Channel → Channel) : (s.updChan i f).cc = s.cc := rfl
@[simp] theorem State.updChan_queues (s : State) (i : Nat) (f : Channel → Channel) : (s.updChan i f).queues = s.queues := rfl
@[simp] theorem State.updChan_faults (s : State) (i : Nat) (f : Channel → Channel) : (s.updChan i f).faults = s.faults := rfl
@[simp] theorem State.updChan_out (s : State) (i : Nat) (f : Channel → Channel) : (s.updChan i f).out = s.out := rfl
@[simp] theorem State.updChan_freeCtr (s : State) (i : Nat) (f : Channel → Channel) : (s.updChan i f).freeCtr = s.freeCtr := rfl
@[simp] theorem State.updChan_pending (s : State) (i : Nat) (f : Channel → Channel) : (s.updChan i f).pending = s.pending := rfl

/-! `State.putRegion` -/

@[simp] theorem State.putRegion_time (s : State) (n : Nat) (r : Region) : (s.putRegion n r).time = s.time := rfl
@[simp] theorem State.putRegion_pace (s : State) (n : Nat) (r : Region) : (s.putRegion n r).pace = s.pace := rfl
@[simp] theorem State.putRegion_rst (s : State) (n : Nat) (r : Region) : (s.putRegion n r).rst = s.rst := rfl
@[simp] theorem State.putRegion_bak (s : State) (n : Nat) (r : Region) : (s.putRegion n r).bak = s.bak := rfl
@[simp] theorem State.putRegion_nvm (s : State) (n : Nat) (r : Region) : (s.putRegion n r).nvm = s.nvm := rfl
@[simp] theorem State.putRegion_opt (s : State) (n : Nat) (r : Region) : (s.putRegion n r).opt = s.opt := rfl
@[simp] theorem State.putRegion_straps (s : State) (n : Nat) (r : Region) : (s.putRegion n r).straps = s.straps := rfl
@[simp] theorem State.putRegion_hub (s : State) (n : Nat) (r : Region) : (s.putRegion n r).hub = s.hub := rfl
@[simp] theorem State.putRegion_latch (s : State) (n : Nat) (r : Region) : (s.putRegion n r).latch = s.latch := rfl
@[simp] theorem State.putRegion_mem (s : State) (n : Nat) (r : Region) : (s.putRegion n r).mem = s.mem := rfl
@[simp] theorem State.putRegion_regions (s : State) (n : Nat) (r : Region) : (s.putRegion n r).regions = s.regions.set n r := rfl
@[simp] theorem State.putRegion_mc (s : State) (n : Nat) (r : Region) : (s.putRegion n r).mc = s.mc := rfl
@[simp] theorem State.putRegion_ch (s : State) (n : Nat) (r : Region) : (s.putRegion n r).ch = s.ch := rfl
@[simp] theorem State.putRegion_cx (s : State) (n : Nat) (r : Region) : (s.putRegion n r).cx = s.cx := rfl
@[simp] theorem State.putRegion_cbk (s : State) (n : Nat) (r : Region) : (s.putRegion n r).cbk = s.cbk := rfl
@[simp] theorem State.putRegion_host (s : State) (n : Nat) (r : Region) : (s.putRegion n r).host = s.host := rfl
@[simp] theorem State.putRegion_rsv (s : State) (n : Nat) (r : Region) : (s.putRegion n r).rsv = s.rsv := rfl
@[simp] theorem State.putRegion_tda (s : State) (n : Nat) (r : Region) : (s.putRegion n r).tda = s.tda := rfl
@[simp] theorem State.putRegion_drains (s : State) (n : Nat) (r : Region) : (s.putRegion n r).drains = s.drains := rfl
@[simp] theorem State.putRegion_heap (s : State) (n : Nat) (r : Region) : (s.putRegion n r).heap = s.heap := rfl
@[simp] theorem State.putRegion_upd (s : State) (n : Nat) (r : Region) : (s.putRegion n r).upd = s.upd := rfl
@[simp] theorem State.putRegion_uu (s : State) (n : Nat) (r : Region) : (s.putRegion n r).uu = s.uu := rfl
@[simp] theorem State.putRegion_int (s : State) (n : Nat) (r : Region) : (s.putRegion n r).int = s.int := rfl
@[simp] theorem State.putRegion_pl (s : State) (n : Nat) (r : Region) : (s.putRegion n r).pl = s.pl := rfl
@[simp] theorem State.putRegion_pwr (s : State) (n : Nat) (r : Region) : (s.putRegion n r).pwr = s.pwr := rfl
@[simp] theorem State.putRegion_sec (s : State) (n : Nat) (r : Region) : (s.putRegion n r).sec = s.sec := rfl
@[simp] theorem State.putRegion_ident (s : State) (n : Nat) (r : Region) : (s.putRegion n r).ident = s.ident := rfl
@[simp] theorem State.putRegion_stw (s : State) (n : Nat) (r : Region) : (s.putRegion n r).stw = s.stw := rfl
@[simp] theorem State.putRegion_spi (s : State) (n : Nat) (r : Region) : (s.putRegion n r).spi = s.spi := rfl
@[simp] theorem State.putRegion_rails (s : State) (n : Nat) (r : Region) : (s.putRegion n r).rails = s.rails := rfl
@[simp] theorem State.putRegion_bd (s : State) (n : Nat) (r : Region) : (s.putRegion n r).bd = s.bd := rfl
@[simp] theorem State.putRegion_aq (s : State) (n : Nat) (r : Region) : (s.putRegion n r).aq = s.aq := rfl
@[simp] theorem State.putRegion_late (s : State) (n : Nat) (r : Region) : (s.putRegion n r).late = s.late := rfl
@[simp] theorem State.putRegion_lk (s : State) (n : Nat) (r : Region) : (s.putRegion n r).lk = s.lk := rfl
@[simp] theorem State.putRegion_sc (s : State) (n : Nat) (r : Region) : (s.putRegion n r).sc = s.sc := rfl
@[simp] theorem State.putRegion_co (s : State) (n : Nat) (r : Region) : (s.putRegion n r).co = s.co := rfl
@[simp] theorem State.putRegion_cc (s : State) (n : Nat) (r : Region) : (s.putRegion n r).cc = s.cc := rfl
@[simp] theorem State.putRegion_queues (s : State) (n : Nat) (r : Region) : (s.putRegion n r).queues = s.queues := rfl
@[simp] theorem State.putRegion_faults (s : State) (n : Nat) (r : Region) : (s.putRegion n r).faults = s.faults := rfl
@[simp] theorem State.putRegion_out (s : State) (n : Nat) (r : Region) : (s.putRegion n r).out = s.out := rfl
@[simp] theorem State.putRegion_freeCtr (s : State) (n : Nat) (r : Region) : (s.putRegion n r).freeCtr = s.freeCtr := rfl
@[simp] theorem State.putRegion_pending (s : State) (n : Nat) (r : Region) : (s.putRegion n r).pending = s.pending := rfl

/-! `State.emit` -/

@[simp] theorem State.emit_time (s : State) (m : OutMsg) : (s.emit m).time = s.time := rfl
@[simp] theorem State.emit_pace (s : State) (m : OutMsg) : (s.emit m).pace = s.pace := rfl
@[simp] theorem State.emit_rst (s : State) (m : OutMsg) : (s.emit m).rst = s.rst := rfl
@[simp] theorem State.emit_bak (s : State) (m : OutMsg) : (s.emit m).bak = s.bak := rfl
@[simp] theorem State.emit_nvm (s : State) (m : OutMsg) : (s.emit m).nvm = s.nvm := rfl
@[simp] theorem State.emit_opt (s : State) (m : OutMsg) : (s.emit m).opt = s.opt := rfl
@[simp] theorem State.emit_straps (s : State) (m : OutMsg) : (s.emit m).straps = s.straps := rfl
@[simp] theorem State.emit_hub (s : State) (m : OutMsg) : (s.emit m).hub = s.hub := rfl
@[simp] theorem State.emit_latch (s : State) (m : OutMsg) : (s.emit m).latch = s.latch := rfl
@[simp] theorem State.emit_mem (s : State) (m : OutMsg) : (s.emit m).mem = s.mem := rfl
@[simp] theorem State.emit_regions (s : State) (m : OutMsg) : (s.emit m).regions = s.regions := rfl
@[simp] theorem State.emit_mc (s : State) (m : OutMsg) : (s.emit m).mc = s.mc := rfl
@[simp] theorem State.emit_ch (s : State) (m : OutMsg) : (s.emit m).ch = s.ch := rfl
@[simp] theorem State.emit_cx (s : State) (m : OutMsg) : (s.emit m).cx = s.cx := rfl
@[simp] theorem State.emit_cbk (s : State) (m : OutMsg) : (s.emit m).cbk = s.cbk := rfl
@[simp] theorem State.emit_host (s : State) (m : OutMsg) : (s.emit m).host = s.host := rfl
@[simp] theorem State.emit_rsv (s : State) (m : OutMsg) : (s.emit m).rsv = s.rsv := rfl
@[simp] theorem State.emit_tda (s : State) (m : OutMsg) : (s.emit m).tda = s.tda := rfl
@[simp] theorem State.emit_drains (s : State) (m : OutMsg) : (s.emit m).drains = s.drains := rfl
@[simp] theorem State.emit_heap (s : State) (m : OutMsg) : (s.emit m).heap = s.heap := rfl
@[simp] theorem State.emit_upd (s : State) (m : OutMsg) : (s.emit m).upd = s.upd := rfl
@[simp] theorem State.emit_uu (s : State) (m : OutMsg) : (s.emit m).uu = s.uu := rfl
@[simp] theorem State.emit_int (s : State) (m : OutMsg) : (s.emit m).int = s.int := rfl
@[simp] theorem State.emit_pl (s : State) (m : OutMsg) : (s.emit m).pl = s.pl := rfl
@[simp] theorem State.emit_pwr (s : State) (m : OutMsg) : (s.emit m).pwr = s.pwr := rfl
@[simp] theorem State.emit_sec (s : State) (m : OutMsg) : (s.emit m).sec = s.sec := rfl
@[simp] theorem State.emit_ident (s : State) (m : OutMsg) : (s.emit m).ident = s.ident := rfl
@[simp] theorem State.emit_stw (s : State) (m : OutMsg) : (s.emit m).stw = s.stw := rfl
@[simp] theorem State.emit_spi (s : State) (m : OutMsg) : (s.emit m).spi = s.spi := rfl
@[simp] theorem State.emit_rails (s : State) (m : OutMsg) : (s.emit m).rails = s.rails := rfl
@[simp] theorem State.emit_bd (s : State) (m : OutMsg) : (s.emit m).bd = s.bd := rfl
@[simp] theorem State.emit_aq (s : State) (m : OutMsg) : (s.emit m).aq = s.aq := rfl
@[simp] theorem State.emit_late (s : State) (m : OutMsg) : (s.emit m).late = s.late := rfl
@[simp] theorem State.emit_lk (s : State) (m : OutMsg) : (s.emit m).lk = s.lk := rfl
@[simp] theorem State.emit_sc (s : State) (m : OutMsg) : (s.emit m).sc = s.sc := rfl
@[simp] theorem State.emit_co (s : State) (m : OutMsg) : (s.emit m).co = s.co := rfl
@[simp] theorem State.emit_cc (s : State) (m : OutMsg) : (s.emit m).cc = s.cc := rfl
@[simp] theorem State.emit_queues (s : State) (m : OutMsg) : (s.emit m).queues = s.queues := rfl
@[simp] theorem State.emit_faults (s : State) (m : OutMsg) : (s.emit m).faults = s.faults := rfl
@[simp] theorem State.emit_out (s : State) (m : OutMsg) : (s.emit m).out = s.out ++ [m] := rfl
@[simp] theorem State.emit_freeCtr (s : State) (m : OutMsg) : (s.emit m).freeCtr = s.freeCtr := rfl
@[simp] theorem State.emit_pending (s : State) (m : OutMsg) : (s.emit m).pending = s.pending := rfl

/-! `State.updFunc` -/

@[simp] theorem State.updFunc_time (s : State) (n : Nat) (f : Func → Func) : (s.updFunc n f).time = s.time := rfl
@[simp] theorem State.updFunc_pace (s : State) (n : Nat) (f : Func → Func) : (s.updFunc n f).pace = s.pace := rfl
@[simp] theorem State.updFunc_rst (s : State) (n : Nat) (f : Func → Func) : (s.updFunc n f).rst = s.rst := rfl
@[simp] theorem State.updFunc_bak (s : State) (n : Nat) (f : Func → Func) : (s.updFunc n f).bak = s.bak := rfl
@[simp] theorem State.updFunc_nvm (s : State) (n : Nat) (f : Func → Func) : (s.updFunc n f).nvm = s.nvm := rfl
@[simp] theorem State.updFunc_opt (s : State) (n : Nat) (f : Func → Func) : (s.updFunc n f).opt = s.opt := rfl
@[simp] theorem State.updFunc_straps (s : State) (n : Nat) (f : Func → Func) : (s.updFunc n f).straps = s.straps := rfl
@[simp] theorem State.updFunc_hub (s : State) (n : Nat) (f : Func → Func) : (s.updFunc n f).hub = s.hub := rfl
@[simp] theorem State.updFunc_latch (s : State) (n : Nat) (f : Func → Func) : (s.updFunc n f).latch = s.latch := rfl
@[simp] theorem State.updFunc_mem (s : State) (n : Nat) (f : Func → Func) : (s.updFunc n f).mem = s.mem := rfl
@[simp] theorem State.updFunc_regions (s : State) (n : Nat) (f : Func → Func) : (s.updFunc n f).regions = s.regions := rfl
@[simp] theorem State.updFunc_mc (s : State) (n : Nat) (f : Func → Func) : (s.updFunc n f).mc = s.mc := rfl
@[simp] theorem State.updFunc_ch (s : State) (n : Nat) (f : Func → Func) : (s.updFunc n f).ch = s.ch := rfl
@[simp] theorem State.updFunc_cx (s : State) (n : Nat) (f : Func → Func) : (s.updFunc n f).cx = s.cx := rfl
@[simp] theorem State.updFunc_cbk (s : State) (n : Nat) (f : Func → Func) : (s.updFunc n f).cbk = s.cbk := rfl
@[simp] theorem State.updFunc_host (s : State) (n : Nat) (f : Func → Func) : (s.updFunc n f).host = { s.host with funcs := s.host.funcs.upd {} n f } := rfl
@[simp] theorem State.updFunc_rsv (s : State) (n : Nat) (f : Func → Func) : (s.updFunc n f).rsv = s.rsv := rfl
@[simp] theorem State.updFunc_tda (s : State) (n : Nat) (f : Func → Func) : (s.updFunc n f).tda = s.tda := rfl
@[simp] theorem State.updFunc_drains (s : State) (n : Nat) (f : Func → Func) : (s.updFunc n f).drains = s.drains := rfl
@[simp] theorem State.updFunc_heap (s : State) (n : Nat) (f : Func → Func) : (s.updFunc n f).heap = s.heap := rfl
@[simp] theorem State.updFunc_upd (s : State) (n : Nat) (f : Func → Func) : (s.updFunc n f).upd = s.upd := rfl
@[simp] theorem State.updFunc_uu (s : State) (n : Nat) (f : Func → Func) : (s.updFunc n f).uu = s.uu := rfl
@[simp] theorem State.updFunc_int (s : State) (n : Nat) (f : Func → Func) : (s.updFunc n f).int = s.int := rfl
@[simp] theorem State.updFunc_pl (s : State) (n : Nat) (f : Func → Func) : (s.updFunc n f).pl = s.pl := rfl
@[simp] theorem State.updFunc_pwr (s : State) (n : Nat) (f : Func → Func) : (s.updFunc n f).pwr = s.pwr := rfl
@[simp] theorem State.updFunc_sec (s : State) (n : Nat) (f : Func → Func) : (s.updFunc n f).sec = s.sec := rfl
@[simp] theorem State.updFunc_ident (s : State) (n : Nat) (f : Func → Func) : (s.updFunc n f).ident = s.ident := rfl
@[simp] theorem State.updFunc_stw (s : State) (n : Nat) (f : Func → Func) : (s.updFunc n f).stw = s.stw := rfl
@[simp] theorem State.updFunc_spi (s : State) (n : Nat) (f : Func → Func) : (s.updFunc n f).spi = s.spi := rfl
@[simp] theorem State.updFunc_rails (s : State) (n : Nat) (f : Func → Func) : (s.updFunc n f).rails = s.rails := rfl
@[simp] theorem State.updFunc_bd (s : State) (n : Nat) (f : Func → Func) : (s.updFunc n f).bd = s.bd := rfl
@[simp] theorem State.updFunc_aq (s : State) (n : Nat) (f : Func → Func) : (s.updFunc n f).aq = s.aq := rfl
@[simp] theorem State.updFunc_late (s : State) (n : Nat) (f : Func → Func) : (s.updFunc n f).late = s.late := rfl
@[simp] theorem State.updFunc_lk (s : State) (n : Nat) (f : Func → Func) : (s.updFunc n f).lk = s.lk := rfl
@[simp] theorem State.updFunc_sc (s : State) (n : Nat) (f : Func → Func) : (s.updFunc n f).sc = s.sc := rfl
@[simp] theorem State.updFunc_co (s : State) (n : Nat) (f : Func → Func) : (s.updFunc n f).co = s.co := rfl
@[simp] theorem State.updFunc_cc (s : State) (n : Nat) (f : Func → Func) : (s.updFunc n f).cc = s.cc := rfl
@[simp] theorem State.updFunc_queues (s : State) (n : Nat) (f : Func → Func) : (s.updFunc n f).queues = s.queues := rfl
@[simp] theorem State.updFunc_faults (s : State) (n : Nat) (f : Func → Func) : (s.updFunc n f).faults = s.faults := rfl
@[simp] theorem State.updFunc_out (s : State) (n : Nat) (f : Func → Func) : (s.updFunc n f).out = s.out := rfl
@[simp] theorem State.updFunc_freeCtr (s : State) (n : Nat) (f : Func → Func) : (s.updFunc n f).freeCtr = s.freeCtr := rfl
@[simp] theorem State.updFunc_pending (s : State) (n : Nat) (f : Func → Func) : (s.updFunc n f).pending = s.pending := rfl

/-! `State.updSlot` -/

@[simp] theorem State.updSlot_time (s : State) (n : Nat) (f : Slot → Slot) : (s.updSlot n f).time = s.time := rfl
@[simp] theorem State.updSlot_pace (s : State) (n : Nat) (f : Slot → Slot) : (s.updSlot n f).pace = s.pace := rfl
@[simp] theorem State.updSlot_rst (s : State) (n : Nat) (f : Slot → Slot) : (s.updSlot n f).rst = s.rst := rfl
@[simp] theorem State.updSlot_bak (s : State) (n : Nat) (f : Slot → Slot) : (s.updSlot n f).bak = s.bak := rfl
@[simp] theorem State.updSlot_nvm (s : State) (n : Nat) (f : Slot → Slot) : (s.updSlot n f).nvm = s.nvm := rfl
@[simp] theorem State.updSlot_opt (s : State) (n : Nat) (f : Slot → Slot) : (s.updSlot n f).opt = s.opt := rfl
@[simp] theorem State.updSlot_straps (s : State) (n : Nat) (f : Slot → Slot) : (s.updSlot n f).straps = s.straps := rfl
@[simp] theorem State.updSlot_hub (s : State) (n : Nat) (f : Slot → Slot) : (s.updSlot n f).hub = s.hub := rfl
@[simp] theorem State.updSlot_latch (s : State) (n : Nat) (f : Slot → Slot) : (s.updSlot n f).latch = s.latch := rfl
@[simp] theorem State.updSlot_mem (s : State) (n : Nat) (f : Slot → Slot) : (s.updSlot n f).mem = s.mem := rfl
@[simp] theorem State.updSlot_regions (s : State) (n : Nat) (f : Slot → Slot) : (s.updSlot n f).regions = s.regions := rfl
@[simp] theorem State.updSlot_mc (s : State) (n : Nat) (f : Slot → Slot) : (s.updSlot n f).mc = s.mc := rfl
@[simp] theorem State.updSlot_ch (s : State) (n : Nat) (f : Slot → Slot) : (s.updSlot n f).ch = s.ch := rfl
@[simp] theorem State.updSlot_cx (s : State) (n : Nat) (f : Slot → Slot) : (s.updSlot n f).cx = s.cx := rfl
@[simp] theorem State.updSlot_cbk (s : State) (n : Nat) (f : Slot → Slot) : (s.updSlot n f).cbk = s.cbk := rfl
@[simp] theorem State.updSlot_host (s : State) (n : Nat) (f : Slot → Slot) : (s.updSlot n f).host = { s.host with slots := s.host.slots.upd {} n f } := rfl
@[simp] theorem State.updSlot_rsv (s : State) (n : Nat) (f : Slot → Slot) : (s.updSlot n f).rsv = s.rsv := rfl
@[simp] theorem State.updSlot_tda (s : State) (n : Nat) (f : Slot → Slot) : (s.updSlot n f).tda = s.tda := rfl
@[simp] theorem State.updSlot_drains (s : State) (n : Nat) (f : Slot → Slot) : (s.updSlot n f).drains = s.drains := rfl
@[simp] theorem State.updSlot_heap (s : State) (n : Nat) (f : Slot → Slot) : (s.updSlot n f).heap = s.heap := rfl
@[simp] theorem State.updSlot_upd (s : State) (n : Nat) (f : Slot → Slot) : (s.updSlot n f).upd = s.upd := rfl
@[simp] theorem State.updSlot_uu (s : State) (n : Nat) (f : Slot → Slot) : (s.updSlot n f).uu = s.uu := rfl
@[simp] theorem State.updSlot_int (s : State) (n : Nat) (f : Slot → Slot) : (s.updSlot n f).int = s.int := rfl
@[simp] theorem State.updSlot_pl (s : State) (n : Nat) (f : Slot → Slot) : (s.updSlot n f).pl = s.pl := rfl
@[simp] theorem State.updSlot_pwr (s : State) (n : Nat) (f : Slot → Slot) : (s.updSlot n f).pwr = s.pwr := rfl
@[simp] theorem State.updSlot_sec (s : State) (n : Nat) (f : Slot → Slot) : (s.updSlot n f).sec = s.sec := rfl
@[simp] theorem State.updSlot_ident (s : State) (n : Nat) (f : Slot → Slot) : (s.updSlot n f).ident = s.ident := rfl
@[simp] theorem State.updSlot_stw (s : State) (n : Nat) (f : Slot → Slot) : (s.updSlot n f).stw = s.stw := rfl
@[simp] theorem State.updSlot_spi (s : State) (n : Nat) (f : Slot → Slot) : (s.updSlot n f).spi = s.spi := rfl
@[simp] theorem State.updSlot_rails (s : State) (n : Nat) (f : Slot → Slot) : (s.updSlot n f).rails = s.rails := rfl
@[simp] theorem State.updSlot_bd (s : State) (n : Nat) (f : Slot → Slot) : (s.updSlot n f).bd = s.bd := rfl
@[simp] theorem State.updSlot_aq (s : State) (n : Nat) (f : Slot → Slot) : (s.updSlot n f).aq = s.aq := rfl
@[simp] theorem State.updSlot_late (s : State) (n : Nat) (f : Slot → Slot) : (s.updSlot n f).late = s.late := rfl
@[simp] theorem State.updSlot_lk (s : State) (n : Nat) (f : Slot → Slot) : (s.updSlot n f).lk = s.lk := rfl
@[simp] theorem State.updSlot_sc (s : State) (n : Nat) (f : Slot → Slot) : (s.updSlot n f).sc = s.sc := rfl
@[simp] theorem State.updSlot_co (s : State) (n : Nat) (f : Slot → Slot) : (s.updSlot n f).co = s.co := rfl
@[simp] theorem State.updSlot_cc (s : State) (n : Nat) (f : Slot → Slot) : (s.updSlot n f).cc = s.cc := rfl
@[simp] theorem State.updSlot_queues (s : State) (n : Nat) (f : Slot → Slot) : (s.updSlot n f).queues = s.queues := rfl
@[simp] theorem State.updSlot_faults (s : State) (n : Nat) (f : Slot → Slot) : (s.updSlot n f).faults = s.faults := rfl
@[simp] theorem State.updSlot_out (s : State) (n : Nat) (f : Slot → Slot) : (s.updSlot n f).out = s.out := rfl
@[simp] theorem State.updSlot_freeCtr (s : State) (n : Nat) (f : Slot → Slot) : (s.updSlot n f).freeCtr = s.freeCtr := rfl
@[simp] theorem State.updSlot_pending (s : State) (n : Nat) (f : Slot → Slot) : (s.updSlot n f).pending = s.pending := rfl

/-! `State.updGroup` -/

@[simp] theorem State.updGroup_time (s : State) (n : Nat) (f : SpGroup → SpGroup) : (s.updGroup n f).time = s.time := rfl
@[simp] theorem State.updGroup_pace (s : State) (n : Nat) (f : SpGroup → SpGroup) : (s.updGroup n f).pace = s.pace := rfl
@[simp] theorem State.updGroup_rst (s : State) (n : Nat) (f : SpGroup → SpGroup) : (s.updGroup n f).rst = s.rst := rfl
@[simp] theorem State.updGroup_bak (s : State) (n : Nat) (f : SpGroup → SpGroup) : (s.updGroup n f).bak = s.bak := rfl
@[simp] theorem State.updGroup_nvm (s : State) (n : Nat) (f : SpGroup → SpGroup) : (s.updGroup n f).nvm = s.nvm := rfl
@[simp] theorem State.updGroup_opt (s : State) (n : Nat) (f : SpGroup → SpGroup) : (s.updGroup n f).opt = s.opt := rfl
@[simp] theorem State.updGroup_straps (s : State) (n : Nat) (f : SpGroup → SpGroup) : (s.updGroup n f).straps = s.straps := rfl
@[simp] theorem State.updGroup_hub (s : State) (n : Nat) (f : SpGroup → SpGroup) : (s.updGroup n f).hub = s.hub := rfl
@[simp] theorem State.updGroup_latch (s : State) (n : Nat) (f : SpGroup → SpGroup) : (s.updGroup n f).latch = s.latch := rfl
@[simp] theorem State.updGroup_mem (s : State) (n : Nat) (f : SpGroup → SpGroup) : (s.updGroup n f).mem = s.mem := rfl
@[simp] theorem State.updGroup_regions (s : State) (n : Nat) (f : SpGroup → SpGroup) : (s.updGroup n f).regions = s.regions := rfl
@[simp] theorem State.updGroup_mc (s : State) (n : Nat) (f : SpGroup → SpGroup) : (s.updGroup n f).mc = s.mc := rfl
@[simp] theorem State.updGroup_ch (s : State) (n : Nat) (f : SpGroup → SpGroup) : (s.updGroup n f).ch = s.ch := rfl
@[simp] theorem State.updGroup_cx (s : State) (n : Nat) (f : SpGroup → SpGroup) : (s.updGroup n f).cx = s.cx := rfl
@[simp] theorem State.updGroup_cbk (s : State) (n : Nat) (f : SpGroup → SpGroup) : (s.updGroup n f).cbk = s.cbk := rfl
@[simp] theorem State.updGroup_host (s : State) (n : Nat) (f : SpGroup → SpGroup) : (s.updGroup n f).host = { s.host with groups := s.host.groups.upd {} n f } := rfl
@[simp] theorem State.updGroup_rsv (s : State) (n : Nat) (f : SpGroup → SpGroup) : (s.updGroup n f).rsv = s.rsv := rfl
@[simp] theorem State.updGroup_tda (s : State) (n : Nat) (f : SpGroup → SpGroup) : (s.updGroup n f).tda = s.tda := rfl
@[simp] theorem State.updGroup_drains (s : State) (n : Nat) (f : SpGroup → SpGroup) : (s.updGroup n f).drains = s.drains := rfl
@[simp] theorem State.updGroup_heap (s : State) (n : Nat) (f : SpGroup → SpGroup) : (s.updGroup n f).heap = s.heap := rfl
@[simp] theorem State.updGroup_upd (s : State) (n : Nat) (f : SpGroup → SpGroup) : (s.updGroup n f).upd = s.upd := rfl
@[simp] theorem State.updGroup_uu (s : State) (n : Nat) (f : SpGroup → SpGroup) : (s.updGroup n f).uu = s.uu := rfl
@[simp] theorem State.updGroup_int (s : State) (n : Nat) (f : SpGroup → SpGroup) : (s.updGroup n f).int = s.int := rfl
@[simp] theorem State.updGroup_pl (s : State) (n : Nat) (f : SpGroup → SpGroup) : (s.updGroup n f).pl = s.pl := rfl
@[simp] theorem State.updGroup_pwr (s : State) (n : Nat) (f : SpGroup → SpGroup) : (s.updGroup n f).pwr = s.pwr := rfl
@[simp] theorem State.updGroup_sec (s : State) (n : Nat) (f : SpGroup → SpGroup) : (s.updGroup n f).sec = s.sec := rfl
@[simp] theorem State.updGroup_ident (s : State) (n : Nat) (f : SpGroup → SpGroup) : (s.updGroup n f).ident = s.ident := rfl
@[simp] theorem State.updGroup_stw (s : State) (n : Nat) (f : SpGroup → SpGroup) : (s.updGroup n f).stw = s.stw := rfl
@[simp] theorem State.updGroup_spi (s : State) (n : Nat) (f : SpGroup → SpGroup) : (s.updGroup n f).spi = s.spi := rfl
@[simp] theorem State.updGroup_rails (s : State) (n : Nat) (f : SpGroup → SpGroup) : (s.updGroup n f).rails = s.rails := rfl
@[simp] theorem State.updGroup_bd (s : State) (n : Nat) (f : SpGroup → SpGroup) : (s.updGroup n f).bd = s.bd := rfl
@[simp] theorem State.updGroup_aq (s : State) (n : Nat) (f : SpGroup → SpGroup) : (s.updGroup n f).aq = s.aq := rfl
@[simp] theorem State.updGroup_late (s : State) (n : Nat) (f : SpGroup → SpGroup) : (s.updGroup n f).late = s.late := rfl
@[simp] theorem State.updGroup_lk (s : State) (n : Nat) (f : SpGroup → SpGroup) : (s.updGroup n f).lk = s.lk := rfl
@[simp] theorem State.updGroup_sc (s : State) (n : Nat) (f : SpGroup → SpGroup) : (s.updGroup n f).sc = s.sc := rfl
@[simp] theorem State.updGroup_co (s : State) (n : Nat) (f : SpGroup → SpGroup) : (s.updGroup n f).co = s.co := rfl
@[simp] theorem State.updGroup_cc (s : State) (n : Nat) (f : SpGroup → SpGroup) : (s.updGroup n f).cc = s.cc := rfl
@[simp] theorem State.updGroup_queues (s : State) (n : Nat) (f : SpGroup → SpGroup) : (s.updGroup n f).queues = s.queues := rfl
@[simp] theorem State.updGroup_faults (s : State) (n : Nat) (f : SpGroup → SpGroup) : (s.updGroup n f).faults = s.faults := rfl
@[simp] theorem State.updGroup_out (s : State) (n : Nat) (f : SpGroup → SpGroup) : (s.updGroup n f).out = s.out := rfl
@[simp] theorem State.updGroup_freeCtr (s : State) (n : Nat) (f : SpGroup → SpGroup) : (s.updGroup n f).freeCtr = s.freeCtr := rfl
@[simp] theorem State.updGroup_pending (s : State) (n : Nat) (f : SpGroup → SpGroup) : (s.updGroup n f).pending = s.pending := rfl

/-! `State.updHost` -/

@[simp] theorem State.updHost_time (s : State) (f : HostState → HostState) : (s.updHost f).time = s.time := rfl
@[simp] theorem State.updHost_pace (s : State) (f : HostState → HostState) : (s.updHost f).pace = s.pace := rfl
@[simp] theorem State.updHost_rst (s : State) (f : HostState → HostState) : (s.updHost f).rst = s.rst := rfl
@[simp] theorem State.updHost_bak (s : State) (f : HostState → HostState) : (s.updHost f).bak = s.bak := rfl
@[simp] theorem State.updHost_nvm (s : State) (f : HostState → HostState) : (s.updHost f).nvm = s.nvm := rfl
@[simp] theorem State.updHost_opt (s : State) (f : HostState → HostState) : (s.updHost f).opt = s.opt := rfl
@[simp] theorem State.updHost_straps (s : State) (f : HostState → HostState) : (s.updHost f).straps = s.straps := rfl
@[simp] theorem State.updHost_hub (s : State) (f : HostState → HostState) : (s.updHost f).hub = s.hub := rfl
@[simp] theorem State.updHost_latch (s : State) (f : HostState → HostState) : (s.updHost f).latch = s.latch := rfl
@[simp] theorem State.updHost_mem (s : State) (f : HostState → HostState) : (s.updHost f).mem = s.mem := rfl
@[simp] theorem State.updHost_regions (s : State) (f : HostState → HostState) : (s.updHost f).regions = s.regions := rfl
@[simp] theorem State.updHost_mc (s : State) (f : HostState → HostState) : (s.updHost f).mc = s.mc := rfl
@[simp] theorem State.updHost_ch (s : State) (f : HostState → HostState) : (s.updHost f).ch = s.ch := rfl
@[simp] theorem State.updHost_cx (s : State) (f : HostState → HostState) : (s.updHost f).cx = s.cx := rfl
@[simp] theorem State.updHost_cbk (s : State) (f : HostState → HostState) : (s.updHost f).cbk = s.cbk := rfl
@[simp] theorem State.updHost_host (s : State) (f : HostState → HostState) : (s.updHost f).host = f s.host := rfl
@[simp] theorem State.updHost_rsv (s : State) (f : HostState → HostState) : (s.updHost f).rsv = s.rsv := rfl
@[simp] theorem State.updHost_tda (s : State) (f : HostState → HostState) : (s.updHost f).tda = s.tda := rfl
@[simp] theorem State.updHost_drains (s : State) (f : HostState → HostState) : (s.updHost f).drains = s.drains := rfl
@[simp] theorem State.updHost_heap (s : State) (f : HostState → HostState) : (s.updHost f).heap = s.heap := rfl
@[simp] theorem State.updHost_upd (s : State) (f : HostState → HostState) : (s.updHost f).upd = s.upd := rfl
@[simp] theorem State.updHost_uu (s : State) (f : HostState → HostState) : (s.updHost f).uu = s.uu := rfl
@[simp] theorem State.updHost_int (s : State) (f : HostState → HostState) : (s.updHost f).int = s.int := rfl
@[simp] theorem State.updHost_pl (s : State) (f : HostState → HostState) : (s.updHost f).pl = s.pl := rfl
@[simp] theorem State.updHost_pwr (s : State) (f : HostState → HostState) : (s.updHost f).pwr = s.pwr := rfl
@[simp] theorem State.updHost_sec (s : State) (f : HostState → HostState) : (s.updHost f).sec = s.sec := rfl
@[simp] theorem State.updHost_ident (s : State) (f : HostState → HostState) : (s.updHost f).ident = s.ident := rfl
@[simp] theorem State.updHost_stw (s : State) (f : HostState → HostState) : (s.updHost f).stw = s.stw := rfl
@[simp] theorem State.updHost_spi (s : State) (f : HostState → HostState) : (s.updHost f).spi = s.spi := rfl
@[simp] theorem State.updHost_rails (s : State) (f : HostState → HostState) : (s.updHost f).rails = s.rails := rfl
@[simp] theorem State.updHost_bd (s : State) (f : HostState → HostState) : (s.updHost f).bd = s.bd := rfl
@[simp] theorem State.updHost_aq (s : State) (f : HostState → HostState) : (s.updHost f).aq = s.aq := rfl
@[simp] theorem State.updHost_late (s : State) (f : HostState → HostState) : (s.updHost f).late = s.late := rfl
@[simp] theorem State.updHost_lk (s : State) (f : HostState → HostState) : (s.updHost f).lk = s.lk := rfl
@[simp] theorem State.updHost_sc (s : State) (f : HostState → HostState) : (s.updHost f).sc = s.sc := rfl
@[simp] theorem State.updHost_co (s : State) (f : HostState → HostState) : (s.updHost f).co = s.co := rfl
@[simp] theorem State.updHost_cc (s : State) (f : HostState → HostState) : (s.updHost f).cc = s.cc := rfl
@[simp] theorem State.updHost_queues (s : State) (f : HostState → HostState) : (s.updHost f).queues = s.queues := rfl
@[simp] theorem State.updHost_faults (s : State) (f : HostState → HostState) : (s.updHost f).faults = s.faults := rfl
@[simp] theorem State.updHost_out (s : State) (f : HostState → HostState) : (s.updHost f).out = s.out := rfl
@[simp] theorem State.updHost_freeCtr (s : State) (f : HostState → HostState) : (s.updHost f).freeCtr = s.freeCtr := rfl
@[simp] theorem State.updHost_pending (s : State) (f : HostState → HostState) : (s.updHost f).pending = s.pending := rfl

/-! `State.injDone` -/

@[simp] theorem State.injDone_time (s : State) : (s.injDone).time = s.time := rfl
@[simp] theorem State.injDone_pace (s : State) : (s.injDone).pace = s.pace := rfl
@[simp] theorem State.injDone_rst (s : State) : (s.injDone).rst = s.rst := rfl
@[simp] theorem State.injDone_bak (s : State) : (s.injDone).bak = s.bak := rfl
@[simp] theorem State.injDone_nvm (s : State) : (s.injDone).nvm = s.nvm := rfl
@[simp] theorem State.injDone_opt (s : State) : (s.injDone).opt = s.opt := rfl
@[simp] theorem State.injDone_straps (s : State) : (s.injDone).straps = s.straps := rfl
@[simp] theorem State.injDone_hub (s : State) : (s.injDone).hub = { s.hub with injArm := false, injFired := true } := rfl
@[simp] theorem State.injDone_latch (s : State) : (s.injDone).latch = s.latch := rfl
@[simp] theorem State.injDone_mem (s : State) : (s.injDone).mem = s.mem := rfl
@[simp] theorem State.injDone_regions (s : State) : (s.injDone).regions = s.regions := rfl
@[simp] theorem State.injDone_mc (s : State) : (s.injDone).mc = s.mc := rfl
@[simp] theorem State.injDone_ch (s : State) : (s.injDone).ch = s.ch := rfl
@[simp] theorem State.injDone_cx (s : State) : (s.injDone).cx = s.cx := rfl
@[simp] theorem State.injDone_cbk (s : State) : (s.injDone).cbk = s.cbk := rfl
@[simp] theorem State.injDone_host (s : State) : (s.injDone).host = s.host := rfl
@[simp] theorem State.injDone_rsv (s : State) : (s.injDone).rsv = s.rsv := rfl
@[simp] theorem State.injDone_tda (s : State) : (s.injDone).tda = s.tda := rfl
@[simp] theorem State.injDone_drains (s : State) : (s.injDone).drains = s.drains := rfl
@[simp] theorem State.injDone_heap (s : State) : (s.injDone).heap = s.heap := rfl
@[simp] theorem State.injDone_upd (s : State) : (s.injDone).upd = s.upd := rfl
@[simp] theorem State.injDone_uu (s : State) : (s.injDone).uu = s.uu := rfl
@[simp] theorem State.injDone_int (s : State) : (s.injDone).int = s.int := rfl
@[simp] theorem State.injDone_pl (s : State) : (s.injDone).pl = s.pl := rfl
@[simp] theorem State.injDone_pwr (s : State) : (s.injDone).pwr = s.pwr := rfl
@[simp] theorem State.injDone_sec (s : State) : (s.injDone).sec = s.sec := rfl
@[simp] theorem State.injDone_ident (s : State) : (s.injDone).ident = s.ident := rfl
@[simp] theorem State.injDone_stw (s : State) : (s.injDone).stw = s.stw := rfl
@[simp] theorem State.injDone_spi (s : State) : (s.injDone).spi = s.spi := rfl
@[simp] theorem State.injDone_rails (s : State) : (s.injDone).rails = s.rails := rfl
@[simp] theorem State.injDone_bd (s : State) : (s.injDone).bd = s.bd := rfl
@[simp] theorem State.injDone_aq (s : State) : (s.injDone).aq = s.aq := rfl
@[simp] theorem State.injDone_late (s : State) : (s.injDone).late = s.late := rfl
@[simp] theorem State.injDone_lk (s : State) : (s.injDone).lk = s.lk := rfl
@[simp] theorem State.injDone_sc (s : State) : (s.injDone).sc = s.sc := rfl
@[simp] theorem State.injDone_co (s : State) : (s.injDone).co = s.co := rfl
@[simp] theorem State.injDone_cc (s : State) : (s.injDone).cc = s.cc := rfl
@[simp] theorem State.injDone_queues (s : State) : (s.injDone).queues = s.queues := rfl
@[simp] theorem State.injDone_faults (s : State) : (s.injDone).faults = s.faults := rfl
@[simp] theorem State.injDone_out (s : State) : (s.injDone).out = s.out := rfl
@[simp] theorem State.injDone_freeCtr (s : State) : (s.injDone).freeCtr = s.freeCtr := rfl
@[simp] theorem State.injDone_pending (s : State) : (s.injDone).pending = s.pending := rfl

/-! `State.updQ` -/

@[simp] theorem State.updQ_time (s : State) (q : Nat) (f : Queue → Queue) : (s.updQ q f).time = s.time := rfl
@[simp] theorem State.updQ_pace (s : State) (q : Nat) (f : Queue → Queue) : (s.updQ q f).pace = s.pace := rfl
@[simp] theorem State.updQ_rst (s : State) (q : Nat) (f : Queue → Queue) : (s.updQ q f).rst = s.rst := rfl
@[simp] theorem State.updQ_bak (s : State) (q : Nat) (f : Queue → Queue) : (s.updQ q f).bak = s.bak := rfl
@[simp] theorem State.updQ_nvm (s : State) (q : Nat) (f : Queue → Queue) : (s.updQ q f).nvm = s.nvm := rfl
@[simp] theorem State.updQ_opt (s : State) (q : Nat) (f : Queue → Queue) : (s.updQ q f).opt = s.opt := rfl
@[simp] theorem State.updQ_straps (s : State) (q : Nat) (f : Queue → Queue) : (s.updQ q f).straps = s.straps := rfl
@[simp] theorem State.updQ_hub (s : State) (q : Nat) (f : Queue → Queue) : (s.updQ q f).hub = s.hub := rfl
@[simp] theorem State.updQ_latch (s : State) (q : Nat) (f : Queue → Queue) : (s.updQ q f).latch = s.latch := rfl
@[simp] theorem State.updQ_mem (s : State) (q : Nat) (f : Queue → Queue) : (s.updQ q f).mem = s.mem := rfl
@[simp] theorem State.updQ_regions (s : State) (q : Nat) (f : Queue → Queue) : (s.updQ q f).regions = s.regions := rfl
@[simp] theorem State.updQ_mc (s : State) (q : Nat) (f : Queue → Queue) : (s.updQ q f).mc = s.mc := rfl
@[simp] theorem State.updQ_ch (s : State) (q : Nat) (f : Queue → Queue) : (s.updQ q f).ch = s.ch := rfl
@[simp] theorem State.updQ_cx (s : State) (q : Nat) (f : Queue → Queue) : (s.updQ q f).cx = s.cx := rfl
@[simp] theorem State.updQ_cbk (s : State) (q : Nat) (f : Queue → Queue) : (s.updQ q f).cbk = s.cbk := rfl
@[simp] theorem State.updQ_host (s : State) (q : Nat) (f : Queue → Queue) : (s.updQ q f).host = s.host := rfl
@[simp] theorem State.updQ_rsv (s : State) (q : Nat) (f : Queue → Queue) : (s.updQ q f).rsv = s.rsv := rfl
@[simp] theorem State.updQ_tda (s : State) (q : Nat) (f : Queue → Queue) : (s.updQ q f).tda = s.tda := rfl
@[simp] theorem State.updQ_drains (s : State) (q : Nat) (f : Queue → Queue) : (s.updQ q f).drains = s.drains := rfl
@[simp] theorem State.updQ_heap (s : State) (q : Nat) (f : Queue → Queue) : (s.updQ q f).heap = s.heap := rfl
@[simp] theorem State.updQ_upd (s : State) (q : Nat) (f : Queue → Queue) : (s.updQ q f).upd = s.upd := rfl
@[simp] theorem State.updQ_uu (s : State) (q : Nat) (f : Queue → Queue) : (s.updQ q f).uu = s.uu := rfl
@[simp] theorem State.updQ_int (s : State) (q : Nat) (f : Queue → Queue) : (s.updQ q f).int = s.int := rfl
@[simp] theorem State.updQ_pl (s : State) (q : Nat) (f : Queue → Queue) : (s.updQ q f).pl = s.pl := rfl
@[simp] theorem State.updQ_pwr (s : State) (q : Nat) (f : Queue → Queue) : (s.updQ q f).pwr = s.pwr := rfl
@[simp] theorem State.updQ_sec (s : State) (q : Nat) (f : Queue → Queue) : (s.updQ q f).sec = s.sec := rfl
@[simp] theorem State.updQ_ident (s : State) (q : Nat) (f : Queue → Queue) : (s.updQ q f).ident = s.ident := rfl
@[simp] theorem State.updQ_stw (s : State) (q : Nat) (f : Queue → Queue) : (s.updQ q f).stw = s.stw := rfl
@[simp] theorem State.updQ_spi (s : State) (q : Nat) (f : Queue → Queue) : (s.updQ q f).spi = s.spi := rfl
@[simp] theorem State.updQ_rails (s : State) (q : Nat) (f : Queue → Queue) : (s.updQ q f).rails = s.rails := rfl
@[simp] theorem State.updQ_bd (s : State) (q : Nat) (f : Queue → Queue) : (s.updQ q f).bd = s.bd := rfl
@[simp] theorem State.updQ_aq (s : State) (q : Nat) (f : Queue → Queue) : (s.updQ q f).aq = s.aq := rfl
@[simp] theorem State.updQ_late (s : State) (q : Nat) (f : Queue → Queue) : (s.updQ q f).late = s.late := rfl
@[simp] theorem State.updQ_lk (s : State) (q : Nat) (f : Queue → Queue) : (s.updQ q f).lk = s.lk := rfl
@[simp] theorem State.updQ_sc (s : State) (q : Nat) (f : Queue → Queue) : (s.updQ q f).sc = s.sc := rfl
@[simp] theorem State.updQ_co (s : State) (q : Nat) (f : Queue → Queue) : (s.updQ q f).co = s.co := rfl
@[simp] theorem State.updQ_cc (s : State) (q : Nat) (f : Queue → Queue) : (s.updQ q f).cc = s.cc := rfl
@[simp] theorem State.updQ_queues (s : State) (q : Nat) (f : Queue → Queue) : (s.updQ q f).queues = s.queues.upd {} q f := rfl
@[simp] theorem State.updQ_faults (s : State) (q : Nat) (f : Queue → Queue) : (s.updQ q f).faults = s.faults := rfl
@[simp] theorem State.updQ_out (s : State) (q : Nat) (f : Queue → Queue) : (s.updQ q f).out = s.out := rfl
@[simp] theorem State.updQ_freeCtr (s : State) (q : Nat) (f : Queue → Queue) : (s.updQ q f).freeCtr = s.freeCtr := rfl
@[simp] theorem State.updQ_pending (s : State) (q : Nat) (f : Queue → Queue) : (s.updQ q f).pending = s.pending := rfl

/-! `State.updBdStack` -/

@[simp] theorem State.updBdStack_time (s : State) (st : Nat) (f : BdStack → BdStack) : (s.updBdStack st f).time = s.time := rfl
@[simp] theorem State.updBdStack_pace (s : State) (st : Nat) (f : BdStack → BdStack) : (s.updBdStack st f).pace = s.pace := rfl
@[simp] theorem State.updBdStack_rst (s : State) (st : Nat) (f : BdStack → BdStack) : (s.updBdStack st f).rst = s.rst := rfl
@[simp] theorem State.updBdStack_bak (s : State) (st : Nat) (f : BdStack → BdStack) : (s.updBdStack st f).bak = s.bak := rfl
@[simp] theorem State.updBdStack_nvm (s : State) (st : Nat) (f : BdStack → BdStack) : (s.updBdStack st f).nvm = s.nvm := rfl
@[simp] theorem State.updBdStack_opt (s : State) (st : Nat) (f : BdStack → BdStack) : (s.updBdStack st f).opt = s.opt := rfl
@[simp] theorem State.updBdStack_straps (s : State) (st : Nat) (f : BdStack → BdStack) : (s.updBdStack st f).straps = s.straps := rfl
@[simp] theorem State.updBdStack_hub (s : State) (st : Nat) (f : BdStack → BdStack) : (s.updBdStack st f).hub = s.hub := rfl
@[simp] theorem State.updBdStack_latch (s : State) (st : Nat) (f : BdStack → BdStack) : (s.updBdStack st f).latch = s.latch := rfl
@[simp] theorem State.updBdStack_mem (s : State) (st : Nat) (f : BdStack → BdStack) : (s.updBdStack st f).mem = s.mem := rfl
@[simp] theorem State.updBdStack_regions (s : State) (st : Nat) (f : BdStack → BdStack) : (s.updBdStack st f).regions = s.regions := rfl
@[simp] theorem State.updBdStack_mc (s : State) (st : Nat) (f : BdStack → BdStack) : (s.updBdStack st f).mc = s.mc := rfl
@[simp] theorem State.updBdStack_ch (s : State) (st : Nat) (f : BdStack → BdStack) : (s.updBdStack st f).ch = s.ch := rfl
@[simp] theorem State.updBdStack_cx (s : State) (st : Nat) (f : BdStack → BdStack) : (s.updBdStack st f).cx = s.cx := rfl
@[simp] theorem State.updBdStack_cbk (s : State) (st : Nat) (f : BdStack → BdStack) : (s.updBdStack st f).cbk = s.cbk := rfl
@[simp] theorem State.updBdStack_host (s : State) (st : Nat) (f : BdStack → BdStack) : (s.updBdStack st f).host = s.host := rfl
@[simp] theorem State.updBdStack_rsv (s : State) (st : Nat) (f : BdStack → BdStack) : (s.updBdStack st f).rsv = s.rsv := rfl
@[simp] theorem State.updBdStack_tda (s : State) (st : Nat) (f : BdStack → BdStack) : (s.updBdStack st f).tda = s.tda := rfl
@[simp] theorem State.updBdStack_drains (s : State) (st : Nat) (f : BdStack → BdStack) : (s.updBdStack st f).drains = s.drains := rfl
@[simp] theorem State.updBdStack_heap (s : State) (st : Nat) (f : BdStack → BdStack) : (s.updBdStack st f).heap = s.heap := rfl
@[simp] theorem State.updBdStack_upd (s : State) (st : Nat) (f : BdStack → BdStack) : (s.updBdStack st f).upd = s.upd := rfl
@[simp] theorem State.updBdStack_uu (s : State) (st : Nat) (f : BdStack → BdStack) : (s.updBdStack st f).uu = s.uu := rfl
@[simp] theorem State.updBdStack_int (s : State) (st : Nat) (f : BdStack → BdStack) : (s.updBdStack st f).int = s.int := rfl
@[simp] theorem State.updBdStack_pl (s : State) (st : Nat) (f : BdStack → BdStack) : (s.updBdStack st f).pl = s.pl := rfl
@[simp] theorem State.updBdStack_pwr (s : State) (st : Nat) (f : BdStack → BdStack) : (s.updBdStack st f).pwr = s.pwr := rfl
@[simp] theorem State.updBdStack_sec (s : State) (st : Nat) (f : BdStack → BdStack) : (s.updBdStack st f).sec = s.sec := rfl
@[simp] theorem State.updBdStack_ident (s : State) (st : Nat) (f : BdStack → BdStack) : (s.updBdStack st f).ident = s.ident := rfl
@[simp] theorem State.updBdStack_stw (s : State) (st : Nat) (f : BdStack → BdStack) : (s.updBdStack st f).stw = s.stw := rfl
@[simp] theorem State.updBdStack_spi (s : State) (st : Nat) (f : BdStack → BdStack) : (s.updBdStack st f).spi = s.spi := rfl
@[simp] theorem State.updBdStack_rails (s : State) (st : Nat) (f : BdStack → BdStack) : (s.updBdStack st f).rails = s.rails := rfl
@[simp] theorem State.updBdStack_bd (s : State) (st : Nat) (f : BdStack → BdStack) : (s.updBdStack st f).bd = { s.bd with st := s.bd.st.upd {} st f } := rfl
@[simp] theorem State.updBdStack_aq (s : State) (st : Nat) (f : BdStack → BdStack) : (s.updBdStack st f).aq = s.aq := rfl
@[simp] theorem State.updBdStack_late (s : State) (st : Nat) (f : BdStack → BdStack) : (s.updBdStack st f).late = s.late := rfl
@[simp] theorem State.updBdStack_lk (s : State) (st : Nat) (f : BdStack → BdStack) : (s.updBdStack st f).lk = s.lk := rfl
@[simp] theorem State.updBdStack_sc (s : State) (st : Nat) (f : BdStack → BdStack) : (s.updBdStack st f).sc = s.sc := rfl
@[simp] theorem State.updBdStack_co (s : State) (st : Nat) (f : BdStack → BdStack) : (s.updBdStack st f).co = s.co := rfl
@[simp] theorem State.updBdStack_cc (s : State) (st : Nat) (f : BdStack → BdStack) : (s.updBdStack st f).cc = s.cc := rfl
@[simp] theorem State.updBdStack_queues (s : State) (st : Nat) (f : BdStack → BdStack) : (s.updBdStack st f).queues = s.queues := rfl
@[simp] theorem State.updBdStack_faults (s : State) (st : Nat) (f : BdStack → BdStack) : (s.updBdStack st f).faults = s.faults := rfl
@[simp] theorem State.updBdStack_out (s : State) (st : Nat) (f : BdStack → BdStack) : (s.updBdStack st f).out = s.out := rfl
@[simp] theorem State.updBdStack_freeCtr (s : State) (st : Nat) (f : BdStack → BdStack) : (s.updBdStack st f).freeCtr = s.freeCtr := rfl
@[simp] theorem State.updBdStack_pending (s : State) (st : Nat) (f : BdStack → BdStack) : (s.updBdStack st f).pending = s.pending := rfl

/-! `State.updBucket` -/

@[simp] theorem State.updBucket_time (s : State) (b : Nat) (f : Bucket → Bucket) : (s.updBucket b f).time = s.time := rfl
@[simp] theorem State.updBucket_pace (s : State) (b : Nat) (f : Bucket → Bucket) : (s.updBucket b f).pace = s.pace := rfl
@[simp] theorem State.updBucket_rst (s : State) (b : Nat) (f : Bucket → Bucket) : (s.updBucket b f).rst = s.rst := rfl
@[simp] theorem State.updBucket_bak (s : State) (b : Nat) (f : Bucket → Bucket) : (s.updBucket b f).bak = s.bak := rfl
@[simp] theorem State.updBucket_nvm (s : State) (b : Nat) (f : Bucket → Bucket) : (s.updBucket b f).nvm = s.nvm := rfl
@[simp] theorem State.updBucket_opt (s : State) (b : Nat) (f : Bucket → Bucket) : (s.updBucket b f).opt = s.opt := rfl
@[simp] theorem State.updBucket_straps (s : State) (b : Nat) (f : Bucket → Bucket) : (s.updBucket b f).straps = s.straps := rfl
@[simp] theorem State.updBucket_hub (s : State) (b : Nat) (f : Bucket → Bucket) : (s.updBucket b f).hub = s.hub := rfl
@[simp] theorem State.updBucket_latch (s : State) (b : Nat) (f : Bucket → Bucket) : (s.updBucket b f).latch = s.latch := rfl
@[simp] theorem State.updBucket_mem (s : State) (b : Nat) (f : Bucket → Bucket) : (s.updBucket b f).mem = s.mem := rfl
@[simp] theorem State.updBucket_regions (s : State) (b : Nat) (f : Bucket → Bucket) : (s.updBucket b f).regions = s.regions := rfl
@[simp] theorem State.updBucket_mc (s : State) (b : Nat) (f : Bucket → Bucket) : (s.updBucket b f).mc = s.mc := rfl
@[simp] theorem State.updBucket_ch (s : State) (b : Nat) (f : Bucket → Bucket) : (s.updBucket b f).ch = s.ch := rfl
@[simp] theorem State.updBucket_cx (s : State) (b : Nat) (f : Bucket → Bucket) : (s.updBucket b f).cx = s.cx := rfl
@[simp] theorem State.updBucket_cbk (s : State) (b : Nat) (f : Bucket → Bucket) : (s.updBucket b f).cbk = s.cbk := rfl
@[simp] theorem State.updBucket_host (s : State) (b : Nat) (f : Bucket → Bucket) : (s.updBucket b f).host = s.host := rfl
@[simp] theorem State.updBucket_rsv (s : State) (b : Nat) (f : Bucket → Bucket) : (s.updBucket b f).rsv = s.rsv := rfl
@[simp] theorem State.updBucket_tda (s : State) (b : Nat) (f : Bucket → Bucket) : (s.updBucket b f).tda = s.tda := rfl
@[simp] theorem State.updBucket_drains (s : State) (b : Nat) (f : Bucket → Bucket) : (s.updBucket b f).drains = s.drains := rfl
@[simp] theorem State.updBucket_heap (s : State) (b : Nat) (f : Bucket → Bucket) : (s.updBucket b f).heap = s.heap := rfl
@[simp] theorem State.updBucket_upd (s : State) (b : Nat) (f : Bucket → Bucket) : (s.updBucket b f).upd = s.upd := rfl
@[simp] theorem State.updBucket_uu (s : State) (b : Nat) (f : Bucket → Bucket) : (s.updBucket b f).uu = s.uu := rfl
@[simp] theorem State.updBucket_int (s : State) (b : Nat) (f : Bucket → Bucket) : (s.updBucket b f).int = s.int := rfl
@[simp] theorem State.updBucket_pl (s : State) (b : Nat) (f : Bucket → Bucket) : (s.updBucket b f).pl = s.pl := rfl
@[simp] theorem State.updBucket_pwr (s : State) (b : Nat) (f : Bucket → Bucket) : (s.updBucket b f).pwr = s.pwr := rfl
@[simp] theorem State.updBucket_sec (s : State) (b : Nat) (f : Bucket → Bucket) : (s.updBucket b f).sec = s.sec := rfl
@[simp] theorem State.updBucket_ident (s : State) (b : Nat) (f : Bucket → Bucket) : (s.updBucket b f).ident = s.ident := rfl
@[simp] theorem State.updBucket_stw (s : State) (b : Nat) (f : Bucket → Bucket) : (s.updBucket b f).stw = s.stw := rfl
@[simp] theorem State.updBucket_spi (s : State) (b : Nat) (f : Bucket → Bucket) : (s.updBucket b f).spi = s.spi := rfl
@[simp] theorem State.updBucket_rails (s : State) (b : Nat) (f : Bucket → Bucket) : (s.updBucket b f).rails = s.rails := rfl
@[simp] theorem State.updBucket_bd (s : State) (b : Nat) (f : Bucket → Bucket) : (s.updBucket b f).bd = { s.bd with buckets := s.bd.buckets.upd {} b f } := rfl
@[simp] theorem State.updBucket_aq (s : State) (b : Nat) (f : Bucket → Bucket) : (s.updBucket b f).aq = s.aq := rfl
@[simp] theorem State.updBucket_late (s : State) (b : Nat) (f : Bucket → Bucket) : (s.updBucket b f).late = s.late := rfl
@[simp] theorem State.updBucket_lk (s : State) (b : Nat) (f : Bucket → Bucket) : (s.updBucket b f).lk = s.lk := rfl
@[simp] theorem State.updBucket_sc (s : State) (b : Nat) (f : Bucket → Bucket) : (s.updBucket b f).sc = s.sc := rfl
@[simp] theorem State.updBucket_co (s : State) (b : Nat) (f : Bucket → Bucket) : (s.updBucket b f).co = s.co := rfl
@[simp] theorem State.updBucket_cc (s : State) (b : Nat) (f : Bucket → Bucket) : (s.updBucket b f).cc = s.cc := rfl
@[simp] theorem State.updBucket_queues (s : State) (b : Nat) (f : Bucket → Bucket) : (s.updBucket b f).queues = s.queues := rfl
@[simp] theorem State.updBucket_faults (s : State) (b : Nat) (f : Bucket → Bucket) : (s.updBucket b f).faults = s.faults := rfl
@[simp] theorem State.updBucket_out (s : State) (b : Nat) (f : Bucket → Bucket) : (s.updBucket b f).out = s.out := rfl
@[simp] theorem State.updBucket_freeCtr (s : State) (b : Nat) (f : Bucket → Bucket) : (s.updBucket b f).freeCtr = s.freeCtr := rfl
@[simp] theorem State.updBucket_pending (s : State) (b : Nat) (f : Bucket → Bucket) : (s.updBucket b f).pending = s.pending := rfl

/-! `State.updAqSlot` -/

@[simp] theorem State.updAqSlot_time (s : State) (n : Nat) (f : AqSlot → AqSlot) : (s.updAqSlot n f).time = s.time := rfl
@[simp] theorem State.updAqSlot_pace (s : State) (n : Nat) (f : AqSlot → AqSlot) : (s.updAqSlot n f).pace = s.pace := rfl
@[simp] theorem State.updAqSlot_rst (s : State) (n : Nat) (f : AqSlot → AqSlot) : (s.updAqSlot n f).rst = s.rst := rfl
@[simp] theorem State.updAqSlot_bak (s : State) (n : Nat) (f : AqSlot → AqSlot) : (s.updAqSlot n f).bak = s.bak := rfl
@[simp] theorem State.updAqSlot_nvm (s : State) (n : Nat) (f : AqSlot → AqSlot) : (s.updAqSlot n f).nvm = s.nvm := rfl
@[simp] theorem State.updAqSlot_opt (s : State) (n : Nat) (f : AqSlot → AqSlot) : (s.updAqSlot n f).opt = s.opt := rfl
@[simp] theorem State.updAqSlot_straps (s : State) (n : Nat) (f : AqSlot → AqSlot) : (s.updAqSlot n f).straps = s.straps := rfl
@[simp] theorem State.updAqSlot_hub (s : State) (n : Nat) (f : AqSlot → AqSlot) : (s.updAqSlot n f).hub = s.hub := rfl
@[simp] theorem State.updAqSlot_latch (s : State) (n : Nat) (f : AqSlot → AqSlot) : (s.updAqSlot n f).latch = s.latch := rfl
@[simp] theorem State.updAqSlot_mem (s : State) (n : Nat) (f : AqSlot → AqSlot) : (s.updAqSlot n f).mem = s.mem := rfl
@[simp] theorem State.updAqSlot_regions (s : State) (n : Nat) (f : AqSlot → AqSlot) : (s.updAqSlot n f).regions = s.regions := rfl
@[simp] theorem State.updAqSlot_mc (s : State) (n : Nat) (f : AqSlot → AqSlot) : (s.updAqSlot n f).mc = s.mc := rfl
@[simp] theorem State.updAqSlot_ch (s : State) (n : Nat) (f : AqSlot → AqSlot) : (s.updAqSlot n f).ch = s.ch := rfl
@[simp] theorem State.updAqSlot_cx (s : State) (n : Nat) (f : AqSlot → AqSlot) : (s.updAqSlot n f).cx = s.cx := rfl
@[simp] theorem State.updAqSlot_cbk (s : State) (n : Nat) (f : AqSlot → AqSlot) : (s.updAqSlot n f).cbk = s.cbk := rfl
@[simp] theorem State.updAqSlot_host (s : State) (n : Nat) (f : AqSlot → AqSlot) : (s.updAqSlot n f).host = s.host := rfl
@[simp] theorem State.updAqSlot_rsv (s : State) (n : Nat) (f : AqSlot → AqSlot) : (s.updAqSlot n f).rsv = s.rsv := rfl
@[simp] theorem State.updAqSlot_tda (s : State) (n : Nat) (f : AqSlot → AqSlot) : (s.updAqSlot n f).tda = s.tda := rfl
@[simp] theorem State.updAqSlot_drains (s : State) (n : Nat) (f : AqSlot → AqSlot) : (s.updAqSlot n f).drains = s.drains := rfl
@[simp] theorem State.updAqSlot_heap (s : State) (n : Nat) (f : AqSlot → AqSlot) : (s.updAqSlot n f).heap = s.heap := rfl
@[simp] theorem State.updAqSlot_upd (s : State) (n : Nat) (f : AqSlot → AqSlot) : (s.updAqSlot n f).upd = s.upd := rfl
@[simp] theorem State.updAqSlot_uu (s : State) (n : Nat) (f : AqSlot → AqSlot) : (s.updAqSlot n f).uu = s.uu := rfl
@[simp] theorem State.updAqSlot_int (s : State) (n : Nat) (f : AqSlot → AqSlot) : (s.updAqSlot n f).int = s.int := rfl
@[simp] theorem State.updAqSlot_pl (s : State) (n : Nat) (f : AqSlot → AqSlot) : (s.updAqSlot n f).pl = s.pl := rfl
@[simp] theorem State.updAqSlot_pwr (s : State) (n : Nat) (f : AqSlot → AqSlot) : (s.updAqSlot n f).pwr = s.pwr := rfl
@[simp] theorem State.updAqSlot_sec (s : State) (n : Nat) (f : AqSlot → AqSlot) : (s.updAqSlot n f).sec = s.sec := rfl
@[simp] theorem State.updAqSlot_ident (s : State) (n : Nat) (f : AqSlot → AqSlot) : (s.updAqSlot n f).ident = s.ident := rfl
@[simp] theorem State.updAqSlot_stw (s : State) (n : Nat) (f : AqSlot → AqSlot) : (s.updAqSlot n f).stw = s.stw := rfl
@[simp] theorem State.updAqSlot_spi (s : State) (n : Nat) (f : AqSlot → AqSlot) : (s.updAqSlot n f).spi = s.spi := rfl
@[simp] theorem State.updAqSlot_rails (s : State) (n : Nat) (f : AqSlot → AqSlot) : (s.updAqSlot n f).rails = s.rails := rfl
@[simp] theorem State.updAqSlot_bd (s : State) (n : Nat) (f : AqSlot → AqSlot) : (s.updAqSlot n f).bd = s.bd := rfl
@[simp] theorem State.updAqSlot_aq (s : State) (n : Nat) (f : AqSlot → AqSlot) : (s.updAqSlot n f).aq = { s.aq with slots := s.aq.slots.upd {} n f } := rfl
@[simp] theorem State.updAqSlot_late (s : State) (n : Nat) (f : AqSlot → AqSlot) : (s.updAqSlot n f).late = s.late := rfl
@[simp] theorem State.updAqSlot_lk (s : State) (n : Nat) (f : AqSlot → AqSlot) : (s.updAqSlot n f).lk = s.lk := rfl
@[simp] theorem State.updAqSlot_sc (s : State) (n : Nat) (f : AqSlot → AqSlot) : (s.updAqSlot n f).sc = s.sc := rfl
@[simp] theorem State.updAqSlot_co (s : State) (n : Nat) (f : AqSlot → AqSlot) : (s.updAqSlot n f).co = s.co := rfl
@[simp] theorem State.updAqSlot_cc (s : State) (n : Nat) (f : AqSlot → AqSlot) : (s.updAqSlot n f).cc = s.cc := rfl
@[simp] theorem State.updAqSlot_queues (s : State) (n : Nat) (f : AqSlot → AqSlot) : (s.updAqSlot n f).queues = s.queues := rfl
@[simp] theorem State.updAqSlot_faults (s : State) (n : Nat) (f : AqSlot → AqSlot) : (s.updAqSlot n f).faults = s.faults := rfl
@[simp] theorem State.updAqSlot_out (s : State) (n : Nat) (f : AqSlot → AqSlot) : (s.updAqSlot n f).out = s.out := rfl
@[simp] theorem State.updAqSlot_freeCtr (s : State) (n : Nat) (f : AqSlot → AqSlot) : (s.updAqSlot n f).freeCtr = s.freeCtr := rfl
@[simp] theorem State.updAqSlot_pending (s : State) (n : Nat) (f : AqSlot → AqSlot) : (s.updAqSlot n f).pending = s.pending := rfl

/-! `State.updDrive` -/

@[simp] theorem State.updDrive_time (s : State) (n : Nat) (f : Drive → Drive) : (s.updDrive n f).time = s.time := rfl
@[simp] theorem State.updDrive_pace (s : State) (n : Nat) (f : Drive → Drive) : (s.updDrive n f).pace = s.pace := rfl
@[simp] theorem State.updDrive_rst (s : State) (n : Nat) (f : Drive → Drive) : (s.updDrive n f).rst = s.rst := rfl
@[simp] theorem State.updDrive_bak (s : State) (n : Nat) (f : Drive → Drive) : (s.updDrive n f).bak = s.bak := rfl
@[simp] theorem State.updDrive_nvm (s : State) (n : Nat) (f : Drive → Drive) : (s.updDrive n f).nvm = s.nvm := rfl
@[simp] theorem State.updDrive_opt (s : State) (n : Nat) (f : Drive → Drive) : (s.updDrive n f).opt = s.opt := rfl
@[simp] theorem State.updDrive_straps (s : State) (n : Nat) (f : Drive → Drive) : (s.updDrive n f).straps = s.straps := rfl
@[simp] theorem State.updDrive_hub (s : State) (n : Nat) (f : Drive → Drive) : (s.updDrive n f).hub = s.hub := rfl
@[simp] theorem State.updDrive_latch (s : State) (n : Nat) (f : Drive → Drive) : (s.updDrive n f).latch = s.latch := rfl
@[simp] theorem State.updDrive_mem (s : State) (n : Nat) (f : Drive → Drive) : (s.updDrive n f).mem = s.mem := rfl
@[simp] theorem State.updDrive_regions (s : State) (n : Nat) (f : Drive → Drive) : (s.updDrive n f).regions = s.regions := rfl
@[simp] theorem State.updDrive_mc (s : State) (n : Nat) (f : Drive → Drive) : (s.updDrive n f).mc = s.mc := rfl
@[simp] theorem State.updDrive_ch (s : State) (n : Nat) (f : Drive → Drive) : (s.updDrive n f).ch = s.ch := rfl
@[simp] theorem State.updDrive_cx (s : State) (n : Nat) (f : Drive → Drive) : (s.updDrive n f).cx = s.cx := rfl
@[simp] theorem State.updDrive_cbk (s : State) (n : Nat) (f : Drive → Drive) : (s.updDrive n f).cbk = s.cbk := rfl
@[simp] theorem State.updDrive_host (s : State) (n : Nat) (f : Drive → Drive) : (s.updDrive n f).host = s.host := rfl
@[simp] theorem State.updDrive_rsv (s : State) (n : Nat) (f : Drive → Drive) : (s.updDrive n f).rsv = s.rsv := rfl
@[simp] theorem State.updDrive_tda (s : State) (n : Nat) (f : Drive → Drive) : (s.updDrive n f).tda = s.tda := rfl
@[simp] theorem State.updDrive_drains (s : State) (n : Nat) (f : Drive → Drive) : (s.updDrive n f).drains = s.drains := rfl
@[simp] theorem State.updDrive_heap (s : State) (n : Nat) (f : Drive → Drive) : (s.updDrive n f).heap = s.heap := rfl
@[simp] theorem State.updDrive_upd (s : State) (n : Nat) (f : Drive → Drive) : (s.updDrive n f).upd = s.upd := rfl
@[simp] theorem State.updDrive_uu (s : State) (n : Nat) (f : Drive → Drive) : (s.updDrive n f).uu = s.uu := rfl
@[simp] theorem State.updDrive_int (s : State) (n : Nat) (f : Drive → Drive) : (s.updDrive n f).int = s.int := rfl
@[simp] theorem State.updDrive_pl (s : State) (n : Nat) (f : Drive → Drive) : (s.updDrive n f).pl = s.pl := rfl
@[simp] theorem State.updDrive_pwr (s : State) (n : Nat) (f : Drive → Drive) : (s.updDrive n f).pwr = s.pwr := rfl
@[simp] theorem State.updDrive_sec (s : State) (n : Nat) (f : Drive → Drive) : (s.updDrive n f).sec = s.sec := rfl
@[simp] theorem State.updDrive_ident (s : State) (n : Nat) (f : Drive → Drive) : (s.updDrive n f).ident = s.ident := rfl
@[simp] theorem State.updDrive_stw (s : State) (n : Nat) (f : Drive → Drive) : (s.updDrive n f).stw = s.stw := rfl
@[simp] theorem State.updDrive_spi (s : State) (n : Nat) (f : Drive → Drive) : (s.updDrive n f).spi = s.spi := rfl
@[simp] theorem State.updDrive_rails (s : State) (n : Nat) (f : Drive → Drive) : (s.updDrive n f).rails = s.rails := rfl
@[simp] theorem State.updDrive_bd (s : State) (n : Nat) (f : Drive → Drive) : (s.updDrive n f).bd = s.bd := rfl
@[simp] theorem State.updDrive_aq (s : State) (n : Nat) (f : Drive → Drive) : (s.updDrive n f).aq = { s.aq with drives := s.aq.drives.upd {} n f } := rfl
@[simp] theorem State.updDrive_late (s : State) (n : Nat) (f : Drive → Drive) : (s.updDrive n f).late = s.late := rfl
@[simp] theorem State.updDrive_lk (s : State) (n : Nat) (f : Drive → Drive) : (s.updDrive n f).lk = s.lk := rfl
@[simp] theorem State.updDrive_sc (s : State) (n : Nat) (f : Drive → Drive) : (s.updDrive n f).sc = s.sc := rfl
@[simp] theorem State.updDrive_co (s : State) (n : Nat) (f : Drive → Drive) : (s.updDrive n f).co = s.co := rfl
@[simp] theorem State.updDrive_cc (s : State) (n : Nat) (f : Drive → Drive) : (s.updDrive n f).cc = s.cc := rfl
@[simp] theorem State.updDrive_queues (s : State) (n : Nat) (f : Drive → Drive) : (s.updDrive n f).queues = s.queues := rfl
@[simp] theorem State.updDrive_faults (s : State) (n : Nat) (f : Drive → Drive) : (s.updDrive n f).faults = s.faults := rfl
@[simp] theorem State.updDrive_out (s : State) (n : Nat) (f : Drive → Drive) : (s.updDrive n f).out = s.out := rfl
@[simp] theorem State.updDrive_freeCtr (s : State) (n : Nat) (f : Drive → Drive) : (s.updDrive n f).freeCtr = s.freeCtr := rfl
@[simp] theorem State.updDrive_pending (s : State) (n : Nat) (f : Drive → Drive) : (s.updDrive n f).pending = s.pending := rfl

/-! `State.updPart` -/

@[simp] theorem State.updPart_time (s : State) (p : Nat) (f : Part → Part) : (s.updPart p f).time = s.time := rfl
@[simp] theorem State.updPart_pace (s : State) (p : Nat) (f : Part → Part) : (s.updPart p f).pace = s.pace := rfl
@[simp] theorem State.updPart_rst (s : State) (p : Nat) (f : Part → Part) : (s.updPart p f).rst = s.rst := rfl
@[simp] theorem State.updPart_bak (s : State) (p : Nat) (f : Part → Part) : (s.updPart p f).bak = s.bak := rfl
@[simp] theorem State.updPart_nvm (s : State) (p : Nat) (f : Part → Part) : (s.updPart p f).nvm = s.nvm := rfl
@[simp] theorem State.updPart_opt (s : State) (p : Nat) (f : Part → Part) : (s.updPart p f).opt = s.opt := rfl
@[simp] theorem State.updPart_straps (s : State) (p : Nat) (f : Part → Part) : (s.updPart p f).straps = s.straps := rfl
@[simp] theorem State.updPart_hub (s : State) (p : Nat) (f : Part → Part) : (s.updPart p f).hub = s.hub := rfl
@[simp] theorem State.updPart_latch (s : State) (p : Nat) (f : Part → Part) : (s.updPart p f).latch = s.latch := rfl
@[simp] theorem State.updPart_mem (s : State) (p : Nat) (f : Part → Part) : (s.updPart p f).mem = s.mem := rfl
@[simp] theorem State.updPart_regions (s : State) (p : Nat) (f : Part → Part) : (s.updPart p f).regions = s.regions := rfl
@[simp] theorem State.updPart_mc (s : State) (p : Nat) (f : Part → Part) : (s.updPart p f).mc = s.mc := rfl
@[simp] theorem State.updPart_ch (s : State) (p : Nat) (f : Part → Part) : (s.updPart p f).ch = s.ch := rfl
@[simp] theorem State.updPart_cx (s : State) (p : Nat) (f : Part → Part) : (s.updPart p f).cx = s.cx := rfl
@[simp] theorem State.updPart_cbk (s : State) (p : Nat) (f : Part → Part) : (s.updPart p f).cbk = s.cbk := rfl
@[simp] theorem State.updPart_host (s : State) (p : Nat) (f : Part → Part) : (s.updPart p f).host = s.host := rfl
@[simp] theorem State.updPart_rsv (s : State) (p : Nat) (f : Part → Part) : (s.updPart p f).rsv = s.rsv := rfl
@[simp] theorem State.updPart_tda (s : State) (p : Nat) (f : Part → Part) : (s.updPart p f).tda = s.tda := rfl
@[simp] theorem State.updPart_drains (s : State) (p : Nat) (f : Part → Part) : (s.updPart p f).drains = s.drains := rfl
@[simp] theorem State.updPart_heap (s : State) (p : Nat) (f : Part → Part) : (s.updPart p f).heap = s.heap := rfl
@[simp] theorem State.updPart_upd (s : State) (p : Nat) (f : Part → Part) : (s.updPart p f).upd = s.upd := rfl
@[simp] theorem State.updPart_uu (s : State) (p : Nat) (f : Part → Part) : (s.updPart p f).uu = s.uu := rfl
@[simp] theorem State.updPart_int (s : State) (p : Nat) (f : Part → Part) : (s.updPart p f).int = s.int := rfl
@[simp] theorem State.updPart_pl (s : State) (p : Nat) (f : Part → Part) : (s.updPart p f).pl = s.pl := rfl
@[simp] theorem State.updPart_pwr (s : State) (p : Nat) (f : Part → Part) : (s.updPart p f).pwr = s.pwr := rfl
@[simp] theorem State.updPart_sec (s : State) (p : Nat) (f : Part → Part) : (s.updPart p f).sec = s.sec := rfl
@[simp] theorem State.updPart_ident (s : State) (p : Nat) (f : Part → Part) : (s.updPart p f).ident = s.ident := rfl
@[simp] theorem State.updPart_stw (s : State) (p : Nat) (f : Part → Part) : (s.updPart p f).stw = s.stw := rfl
@[simp] theorem State.updPart_spi (s : State) (p : Nat) (f : Part → Part) : (s.updPart p f).spi = s.spi := rfl
@[simp] theorem State.updPart_rails (s : State) (p : Nat) (f : Part → Part) : (s.updPart p f).rails = s.rails := rfl
@[simp] theorem State.updPart_bd (s : State) (p : Nat) (f : Part → Part) : (s.updPart p f).bd = s.bd := rfl
@[simp] theorem State.updPart_aq (s : State) (p : Nat) (f : Part → Part) : (s.updPart p f).aq = s.aq := rfl
@[simp] theorem State.updPart_late (s : State) (p : Nat) (f : Part → Part) : (s.updPart p f).late = s.late := rfl
@[simp] theorem State.updPart_lk (s : State) (p : Nat) (f : Part → Part) : (s.updPart p f).lk = s.lk := rfl
@[simp] theorem State.updPart_sc (s : State) (p : Nat) (f : Part → Part) : (s.updPart p f).sc = { s.sc with parts := s.sc.parts.upd {} p f } := rfl
@[simp] theorem State.updPart_co (s : State) (p : Nat) (f : Part → Part) : (s.updPart p f).co = s.co := rfl
@[simp] theorem State.updPart_cc (s : State) (p : Nat) (f : Part → Part) : (s.updPart p f).cc = s.cc := rfl
@[simp] theorem State.updPart_queues (s : State) (p : Nat) (f : Part → Part) : (s.updPart p f).queues = s.queues := rfl
@[simp] theorem State.updPart_faults (s : State) (p : Nat) (f : Part → Part) : (s.updPart p f).faults = s.faults := rfl
@[simp] theorem State.updPart_out (s : State) (p : Nat) (f : Part → Part) : (s.updPart p f).out = s.out := rfl
@[simp] theorem State.updPart_freeCtr (s : State) (p : Nat) (f : Part → Part) : (s.updPart p f).freeCtr = s.freeCtr := rfl
@[simp] theorem State.updPart_pending (s : State) (p : Nat) (f : Part → Part) : (s.updPart p f).pending = s.pending := rfl

/-! `State.updAst` -/

@[simp] theorem State.updAst_time (s : State) (i : Nat) (f : AstEntry → AstEntry) : (s.updAst i f).time = s.time := rfl
@[simp] theorem State.updAst_pace (s : State) (i : Nat) (f : AstEntry → AstEntry) : (s.updAst i f).pace = s.pace := rfl
@[simp] theorem State.updAst_rst (s : State) (i : Nat) (f : AstEntry → AstEntry) : (s.updAst i f).rst = s.rst := rfl
@[simp] theorem State.updAst_bak (s : State) (i : Nat) (f : AstEntry → AstEntry) : (s.updAst i f).bak = s.bak := rfl
@[simp] theorem State.updAst_nvm (s : State) (i : Nat) (f : AstEntry → AstEntry) : (s.updAst i f).nvm = s.nvm := rfl
@[simp] theorem State.updAst_opt (s : State) (i : Nat) (f : AstEntry → AstEntry) : (s.updAst i f).opt = s.opt := rfl
@[simp] theorem State.updAst_straps (s : State) (i : Nat) (f : AstEntry → AstEntry) : (s.updAst i f).straps = s.straps := rfl
@[simp] theorem State.updAst_hub (s : State) (i : Nat) (f : AstEntry → AstEntry) : (s.updAst i f).hub = s.hub := rfl
@[simp] theorem State.updAst_latch (s : State) (i : Nat) (f : AstEntry → AstEntry) : (s.updAst i f).latch = s.latch := rfl
@[simp] theorem State.updAst_mem (s : State) (i : Nat) (f : AstEntry → AstEntry) : (s.updAst i f).mem = s.mem := rfl
@[simp] theorem State.updAst_regions (s : State) (i : Nat) (f : AstEntry → AstEntry) : (s.updAst i f).regions = s.regions := rfl
@[simp] theorem State.updAst_mc (s : State) (i : Nat) (f : AstEntry → AstEntry) : (s.updAst i f).mc = s.mc := rfl
@[simp] theorem State.updAst_ch (s : State) (i : Nat) (f : AstEntry → AstEntry) : (s.updAst i f).ch = s.ch := rfl
@[simp] theorem State.updAst_cx (s : State) (i : Nat) (f : AstEntry → AstEntry) : (s.updAst i f).cx = s.cx := rfl
@[simp] theorem State.updAst_cbk (s : State) (i : Nat) (f : AstEntry → AstEntry) : (s.updAst i f).cbk = s.cbk := rfl
@[simp] theorem State.updAst_host (s : State) (i : Nat) (f : AstEntry → AstEntry) : (s.updAst i f).host = s.host := rfl
@[simp] theorem State.updAst_rsv (s : State) (i : Nat) (f : AstEntry → AstEntry) : (s.updAst i f).rsv = s.rsv := rfl
@[simp] theorem State.updAst_tda (s : State) (i : Nat) (f : AstEntry → AstEntry) : (s.updAst i f).tda = s.tda := rfl
@[simp] theorem State.updAst_drains (s : State) (i : Nat) (f : AstEntry → AstEntry) : (s.updAst i f).drains = s.drains := rfl
@[simp] theorem State.updAst_heap (s : State) (i : Nat) (f : AstEntry → AstEntry) : (s.updAst i f).heap = s.heap := rfl
@[simp] theorem State.updAst_upd (s : State) (i : Nat) (f : AstEntry → AstEntry) : (s.updAst i f).upd = s.upd := rfl
@[simp] theorem State.updAst_uu (s : State) (i : Nat) (f : AstEntry → AstEntry) : (s.updAst i f).uu = s.uu := rfl
@[simp] theorem State.updAst_int (s : State) (i : Nat) (f : AstEntry → AstEntry) : (s.updAst i f).int = s.int := rfl
@[simp] theorem State.updAst_pl (s : State) (i : Nat) (f : AstEntry → AstEntry) : (s.updAst i f).pl = s.pl := rfl
@[simp] theorem State.updAst_pwr (s : State) (i : Nat) (f : AstEntry → AstEntry) : (s.updAst i f).pwr = s.pwr := rfl
@[simp] theorem State.updAst_sec (s : State) (i : Nat) (f : AstEntry → AstEntry) : (s.updAst i f).sec = s.sec := rfl
@[simp] theorem State.updAst_ident (s : State) (i : Nat) (f : AstEntry → AstEntry) : (s.updAst i f).ident = s.ident := rfl
@[simp] theorem State.updAst_stw (s : State) (i : Nat) (f : AstEntry → AstEntry) : (s.updAst i f).stw = s.stw := rfl
@[simp] theorem State.updAst_spi (s : State) (i : Nat) (f : AstEntry → AstEntry) : (s.updAst i f).spi = s.spi := rfl
@[simp] theorem State.updAst_rails (s : State) (i : Nat) (f : AstEntry → AstEntry) : (s.updAst i f).rails = s.rails := rfl
@[simp] theorem State.updAst_bd (s : State) (i : Nat) (f : AstEntry → AstEntry) : (s.updAst i f).bd = s.bd := rfl
@[simp] theorem State.updAst_aq (s : State) (i : Nat) (f : AstEntry → AstEntry) : (s.updAst i f).aq = s.aq := rfl
@[simp] theorem State.updAst_late (s : State) (i : Nat) (f : AstEntry → AstEntry) : (s.updAst i f).late = s.late := rfl
@[simp] theorem State.updAst_lk (s : State) (i : Nat) (f : AstEntry → AstEntry) : (s.updAst i f).lk = s.lk := rfl
@[simp] theorem State.updAst_sc (s : State) (i : Nat) (f : AstEntry → AstEntry) : (s.updAst i f).sc = { s.sc with ast := s.sc.ast.upd {} i f } := rfl
@[simp] theorem State.updAst_co (s : State) (i : Nat) (f : AstEntry → AstEntry) : (s.updAst i f).co = s.co := rfl
@[simp] theorem State.updAst_cc (s : State) (i : Nat) (f : AstEntry → AstEntry) : (s.updAst i f).cc = s.cc := rfl
@[simp] theorem State.updAst_queues (s : State) (i : Nat) (f : AstEntry → AstEntry) : (s.updAst i f).queues = s.queues := rfl
@[simp] theorem State.updAst_faults (s : State) (i : Nat) (f : AstEntry → AstEntry) : (s.updAst i f).faults = s.faults := rfl
@[simp] theorem State.updAst_out (s : State) (i : Nat) (f : AstEntry → AstEntry) : (s.updAst i f).out = s.out := rfl
@[simp] theorem State.updAst_freeCtr (s : State) (i : Nat) (f : AstEntry → AstEntry) : (s.updAst i f).freeCtr = s.freeCtr := rfl
@[simp] theorem State.updAst_pending (s : State) (i : Nat) (f : AstEntry → AstEntry) : (s.updAst i f).pending = s.pending := rfl

/-! `State.updCore` -/

@[simp] theorem State.updCore_time (s : State) (k : Nat) (f : TCore → TCore) : (s.updCore k f).time = s.time := rfl
@[simp] theorem State.updCore_pace (s : State) (k : Nat) (f : TCore → TCore) : (s.updCore k f).pace = s.pace := rfl
@[simp] theorem State.updCore_rst (s : State) (k : Nat) (f : TCore → TCore) : (s.updCore k f).rst = s.rst := rfl
@[simp] theorem State.updCore_bak (s : State) (k : Nat) (f : TCore → TCore) : (s.updCore k f).bak = s.bak := rfl
@[simp] theorem State.updCore_nvm (s : State) (k : Nat) (f : TCore → TCore) : (s.updCore k f).nvm = s.nvm := rfl
@[simp] theorem State.updCore_opt (s : State) (k : Nat) (f : TCore → TCore) : (s.updCore k f).opt = s.opt := rfl
@[simp] theorem State.updCore_straps (s : State) (k : Nat) (f : TCore → TCore) : (s.updCore k f).straps = s.straps := rfl
@[simp] theorem State.updCore_hub (s : State) (k : Nat) (f : TCore → TCore) : (s.updCore k f).hub = s.hub := rfl
@[simp] theorem State.updCore_latch (s : State) (k : Nat) (f : TCore → TCore) : (s.updCore k f).latch = s.latch := rfl
@[simp] theorem State.updCore_mem (s : State) (k : Nat) (f : TCore → TCore) : (s.updCore k f).mem = s.mem := rfl
@[simp] theorem State.updCore_regions (s : State) (k : Nat) (f : TCore → TCore) : (s.updCore k f).regions = s.regions := rfl
@[simp] theorem State.updCore_mc (s : State) (k : Nat) (f : TCore → TCore) : (s.updCore k f).mc = s.mc := rfl
@[simp] theorem State.updCore_ch (s : State) (k : Nat) (f : TCore → TCore) : (s.updCore k f).ch = s.ch := rfl
@[simp] theorem State.updCore_cx (s : State) (k : Nat) (f : TCore → TCore) : (s.updCore k f).cx = s.cx := rfl
@[simp] theorem State.updCore_cbk (s : State) (k : Nat) (f : TCore → TCore) : (s.updCore k f).cbk = s.cbk := rfl
@[simp] theorem State.updCore_host (s : State) (k : Nat) (f : TCore → TCore) : (s.updCore k f).host = s.host := rfl
@[simp] theorem State.updCore_rsv (s : State) (k : Nat) (f : TCore → TCore) : (s.updCore k f).rsv = s.rsv := rfl
@[simp] theorem State.updCore_tda (s : State) (k : Nat) (f : TCore → TCore) : (s.updCore k f).tda = s.tda := rfl
@[simp] theorem State.updCore_drains (s : State) (k : Nat) (f : TCore → TCore) : (s.updCore k f).drains = s.drains := rfl
@[simp] theorem State.updCore_heap (s : State) (k : Nat) (f : TCore → TCore) : (s.updCore k f).heap = s.heap := rfl
@[simp] theorem State.updCore_upd (s : State) (k : Nat) (f : TCore → TCore) : (s.updCore k f).upd = s.upd := rfl
@[simp] theorem State.updCore_uu (s : State) (k : Nat) (f : TCore → TCore) : (s.updCore k f).uu = s.uu := rfl
@[simp] theorem State.updCore_int (s : State) (k : Nat) (f : TCore → TCore) : (s.updCore k f).int = s.int := rfl
@[simp] theorem State.updCore_pl (s : State) (k : Nat) (f : TCore → TCore) : (s.updCore k f).pl = s.pl := rfl
@[simp] theorem State.updCore_pwr (s : State) (k : Nat) (f : TCore → TCore) : (s.updCore k f).pwr = s.pwr := rfl
@[simp] theorem State.updCore_sec (s : State) (k : Nat) (f : TCore → TCore) : (s.updCore k f).sec = s.sec := rfl
@[simp] theorem State.updCore_ident (s : State) (k : Nat) (f : TCore → TCore) : (s.updCore k f).ident = s.ident := rfl
@[simp] theorem State.updCore_stw (s : State) (k : Nat) (f : TCore → TCore) : (s.updCore k f).stw = s.stw := rfl
@[simp] theorem State.updCore_spi (s : State) (k : Nat) (f : TCore → TCore) : (s.updCore k f).spi = s.spi := rfl
@[simp] theorem State.updCore_rails (s : State) (k : Nat) (f : TCore → TCore) : (s.updCore k f).rails = s.rails := rfl
@[simp] theorem State.updCore_bd (s : State) (k : Nat) (f : TCore → TCore) : (s.updCore k f).bd = s.bd := rfl
@[simp] theorem State.updCore_aq (s : State) (k : Nat) (f : TCore → TCore) : (s.updCore k f).aq = s.aq := rfl
@[simp] theorem State.updCore_late (s : State) (k : Nat) (f : TCore → TCore) : (s.updCore k f).late = s.late := rfl
@[simp] theorem State.updCore_lk (s : State) (k : Nat) (f : TCore → TCore) : (s.updCore k f).lk = s.lk := rfl
@[simp] theorem State.updCore_sc (s : State) (k : Nat) (f : TCore → TCore) : (s.updCore k f).sc = s.sc := rfl
@[simp] theorem State.updCore_co (s : State) (k : Nat) (f : TCore → TCore) : (s.updCore k f).co = { s.co with core := s.co.core.upd {} k f } := rfl
@[simp] theorem State.updCore_cc (s : State) (k : Nat) (f : TCore → TCore) : (s.updCore k f).cc = s.cc := rfl
@[simp] theorem State.updCore_queues (s : State) (k : Nat) (f : TCore → TCore) : (s.updCore k f).queues = s.queues := rfl
@[simp] theorem State.updCore_faults (s : State) (k : Nat) (f : TCore → TCore) : (s.updCore k f).faults = s.faults := rfl
@[simp] theorem State.updCore_out (s : State) (k : Nat) (f : TCore → TCore) : (s.updCore k f).out = s.out := rfl
@[simp] theorem State.updCore_freeCtr (s : State) (k : Nat) (f : TCore → TCore) : (s.updCore k f).freeCtr = s.freeCtr := rfl
@[simp] theorem State.updCore_pending (s : State) (k : Nat) (f : TCore → TCore) : (s.updCore k f).pending = s.pending := rfl

/-! `State.updCluster` -/

@[simp] theorem State.updCluster_time (s : State) (c : Nat) (f : Cluster → Cluster) : (s.updCluster c f).time = s.time := rfl
@[simp] theorem State.updCluster_pace (s : State) (c : Nat) (f : Cluster → Cluster) : (s.updCluster c f).pace = s.pace := rfl
@[simp] theorem State.updCluster_rst (s : State) (c : Nat) (f : Cluster → Cluster) : (s.updCluster c f).rst = s.rst := rfl
@[simp] theorem State.updCluster_bak (s : State) (c : Nat) (f : Cluster → Cluster) : (s.updCluster c f).bak = s.bak := rfl
@[simp] theorem State.updCluster_nvm (s : State) (c : Nat) (f : Cluster → Cluster) : (s.updCluster c f).nvm = s.nvm := rfl
@[simp] theorem State.updCluster_opt (s : State) (c : Nat) (f : Cluster → Cluster) : (s.updCluster c f).opt = s.opt := rfl
@[simp] theorem State.updCluster_straps (s : State) (c : Nat) (f : Cluster → Cluster) : (s.updCluster c f).straps = s.straps := rfl
@[simp] theorem State.updCluster_hub (s : State) (c : Nat) (f : Cluster → Cluster) : (s.updCluster c f).hub = s.hub := rfl
@[simp] theorem State.updCluster_latch (s : State) (c : Nat) (f : Cluster → Cluster) : (s.updCluster c f).latch = s.latch := rfl
@[simp] theorem State.updCluster_mem (s : State) (c : Nat) (f : Cluster → Cluster) : (s.updCluster c f).mem = s.mem := rfl
@[simp] theorem State.updCluster_regions (s : State) (c : Nat) (f : Cluster → Cluster) : (s.updCluster c f).regions = s.regions := rfl
@[simp] theorem State.updCluster_mc (s : State) (c : Nat) (f : Cluster → Cluster) : (s.updCluster c f).mc = s.mc := rfl
@[simp] theorem State.updCluster_ch (s : State) (c : Nat) (f : Cluster → Cluster) : (s.updCluster c f).ch = s.ch := rfl
@[simp] theorem State.updCluster_cx (s : State) (c : Nat) (f : Cluster → Cluster) : (s.updCluster c f).cx = s.cx := rfl
@[simp] theorem State.updCluster_cbk (s : State) (c : Nat) (f : Cluster → Cluster) : (s.updCluster c f).cbk = s.cbk := rfl
@[simp] theorem State.updCluster_host (s : State) (c : Nat) (f : Cluster → Cluster) : (s.updCluster c f).host = s.host := rfl
@[simp] theorem State.updCluster_rsv (s : State) (c : Nat) (f : Cluster → Cluster) : (s.updCluster c f).rsv = s.rsv := rfl
@[simp] theorem State.updCluster_tda (s : State) (c : Nat) (f : Cluster → Cluster) : (s.updCluster c f).tda = s.tda := rfl
@[simp] theorem State.updCluster_drains (s : State) (c : Nat) (f : Cluster → Cluster) : (s.updCluster c f).drains = s.drains := rfl
@[simp] theorem State.updCluster_heap (s : State) (c : Nat) (f : Cluster → Cluster) : (s.updCluster c f).heap = s.heap := rfl
@[simp] theorem State.updCluster_upd (s : State) (c : Nat) (f : Cluster → Cluster) : (s.updCluster c f).upd = s.upd := rfl
@[simp] theorem State.updCluster_uu (s : State) (c : Nat) (f : Cluster → Cluster) : (s.updCluster c f).uu = s.uu := rfl
@[simp] theorem State.updCluster_int (s : State) (c : Nat) (f : Cluster → Cluster) : (s.updCluster c f).int = s.int := rfl
@[simp] theorem State.updCluster_pl (s : State) (c : Nat) (f : Cluster → Cluster) : (s.updCluster c f).pl = s.pl := rfl
@[simp] theorem State.updCluster_pwr (s : State) (c : Nat) (f : Cluster → Cluster) : (s.updCluster c f).pwr = s.pwr := rfl
@[simp] theorem State.updCluster_sec (s : State) (c : Nat) (f : Cluster → Cluster) : (s.updCluster c f).sec = s.sec := rfl
@[simp] theorem State.updCluster_ident (s : State) (c : Nat) (f : Cluster → Cluster) : (s.updCluster c f).ident = s.ident := rfl
@[simp] theorem State.updCluster_stw (s : State) (c : Nat) (f : Cluster → Cluster) : (s.updCluster c f).stw = s.stw := rfl
@[simp] theorem State.updCluster_spi (s : State) (c : Nat) (f : Cluster → Cluster) : (s.updCluster c f).spi = s.spi := rfl
@[simp] theorem State.updCluster_rails (s : State) (c : Nat) (f : Cluster → Cluster) : (s.updCluster c f).rails = s.rails := rfl
@[simp] theorem State.updCluster_bd (s : State) (c : Nat) (f : Cluster → Cluster) : (s.updCluster c f).bd = s.bd := rfl
@[simp] theorem State.updCluster_aq (s : State) (c : Nat) (f : Cluster → Cluster) : (s.updCluster c f).aq = s.aq := rfl
@[simp] theorem State.updCluster_late (s : State) (c : Nat) (f : Cluster → Cluster) : (s.updCluster c f).late = s.late := rfl
@[simp] theorem State.updCluster_lk (s : State) (c : Nat) (f : Cluster → Cluster) : (s.updCluster c f).lk = s.lk := rfl
@[simp] theorem State.updCluster_sc (s : State) (c : Nat) (f : Cluster → Cluster) : (s.updCluster c f).sc = s.sc := rfl
@[simp] theorem State.updCluster_co (s : State) (c : Nat) (f : Cluster → Cluster) : (s.updCluster c f).co = { s.co with clu := s.co.clu.upd {} c f } := rfl
@[simp] theorem State.updCluster_cc (s : State) (c : Nat) (f : Cluster → Cluster) : (s.updCluster c f).cc = s.cc := rfl
@[simp] theorem State.updCluster_queues (s : State) (c : Nat) (f : Cluster → Cluster) : (s.updCluster c f).queues = s.queues := rfl
@[simp] theorem State.updCluster_faults (s : State) (c : Nat) (f : Cluster → Cluster) : (s.updCluster c f).faults = s.faults := rfl
@[simp] theorem State.updCluster_out (s : State) (c : Nat) (f : Cluster → Cluster) : (s.updCluster c f).out = s.out := rfl
@[simp] theorem State.updCluster_freeCtr (s : State) (c : Nat) (f : Cluster → Cluster) : (s.updCluster c f).freeCtr = s.freeCtr := rfl
@[simp] theorem State.updCluster_pending (s : State) (c : Nat) (f : Cluster → Cluster) : (s.updCluster c f).pending = s.pending := rfl

/-! `State.updPair` -/

@[simp] theorem State.updPair_time (s : State) (n : Nat) (f : CcPair → CcPair) : (s.updPair n f).time = s.time := rfl
@[simp] theorem State.updPair_pace (s : State) (n : Nat) (f : CcPair → CcPair) : (s.updPair n f).pace = s.pace := rfl
@[simp] theorem State.updPair_rst (s : State) (n : Nat) (f : CcPair → CcPair) : (s.updPair n f).rst = s.rst := rfl
@[simp] theorem State.updPair_bak (s : State) (n : Nat) (f : CcPair → CcPair) : (s.updPair n f).bak = s.bak := rfl
@[simp] theorem State.updPair_nvm (s : State) (n : Nat) (f : CcPair → CcPair) : (s.updPair n f).nvm = s.nvm := rfl
@[simp] theorem State.updPair_opt (s : State) (n : Nat) (f : CcPair → CcPair) : (s.updPair n f).opt = s.opt := rfl
@[simp] theorem State.updPair_straps (s : State) (n : Nat) (f : CcPair → CcPair) : (s.updPair n f).straps = s.straps := rfl
@[simp] theorem State.updPair_hub (s : State) (n : Nat) (f : CcPair → CcPair) : (s.updPair n f).hub = s.hub := rfl
@[simp] theorem State.updPair_latch (s : State) (n : Nat) (f : CcPair → CcPair) : (s.updPair n f).latch = s.latch := rfl
@[simp] theorem State.updPair_mem (s : State) (n : Nat) (f : CcPair → CcPair) : (s.updPair n f).mem = s.mem := rfl
@[simp] theorem State.updPair_regions (s : State) (n : Nat) (f : CcPair → CcPair) : (s.updPair n f).regions = s.regions := rfl
@[simp] theorem State.updPair_mc (s : State) (n : Nat) (f : CcPair → CcPair) : (s.updPair n f).mc = s.mc := rfl
@[simp] theorem State.updPair_ch (s : State) (n : Nat) (f : CcPair → CcPair) : (s.updPair n f).ch = s.ch := rfl
@[simp] theorem State.updPair_cx (s : State) (n : Nat) (f : CcPair → CcPair) : (s.updPair n f).cx = s.cx := rfl
@[simp] theorem State.updPair_cbk (s : State) (n : Nat) (f : CcPair → CcPair) : (s.updPair n f).cbk = s.cbk := rfl
@[simp] theorem State.updPair_host (s : State) (n : Nat) (f : CcPair → CcPair) : (s.updPair n f).host = s.host := rfl
@[simp] theorem State.updPair_rsv (s : State) (n : Nat) (f : CcPair → CcPair) : (s.updPair n f).rsv = s.rsv := rfl
@[simp] theorem State.updPair_tda (s : State) (n : Nat) (f : CcPair → CcPair) : (s.updPair n f).tda = s.tda := rfl
@[simp] theorem State.updPair_drains (s : State) (n : Nat) (f : CcPair → CcPair) : (s.updPair n f).drains = s.drains := rfl
@[simp] theorem State.updPair_heap (s : State) (n : Nat) (f : CcPair → CcPair) : (s.updPair n f).heap = s.heap := rfl
@[simp] theorem State.updPair_upd (s : State) (n : Nat) (f : CcPair → CcPair) : (s.updPair n f).upd = s.upd := rfl
@[simp] theorem State.updPair_uu (s : State) (n : Nat) (f : CcPair → CcPair) : (s.updPair n f).uu = s.uu := rfl
@[simp] theorem State.updPair_int (s : State) (n : Nat) (f : CcPair → CcPair) : (s.updPair n f).int = s.int := rfl
@[simp] theorem State.updPair_pl (s : State) (n : Nat) (f : CcPair → CcPair) : (s.updPair n f).pl = s.pl := rfl
@[simp] theorem State.updPair_pwr (s : State) (n : Nat) (f : CcPair → CcPair) : (s.updPair n f).pwr = s.pwr := rfl
@[simp] theorem State.updPair_sec (s : State) (n : Nat) (f : CcPair → CcPair) : (s.updPair n f).sec = s.sec := rfl
@[simp] theorem State.updPair_ident (s : State) (n : Nat) (f : CcPair → CcPair) : (s.updPair n f).ident = s.ident := rfl
@[simp] theorem State.updPair_stw (s : State) (n : Nat) (f : CcPair → CcPair) : (s.updPair n f).stw = s.stw := rfl
@[simp] theorem State.updPair_spi (s : State) (n : Nat) (f : CcPair → CcPair) : (s.updPair n f).spi = s.spi := rfl
@[simp] theorem State.updPair_rails (s : State) (n : Nat) (f : CcPair → CcPair) : (s.updPair n f).rails = s.rails := rfl
@[simp] theorem State.updPair_bd (s : State) (n : Nat) (f : CcPair → CcPair) : (s.updPair n f).bd = s.bd := rfl
@[simp] theorem State.updPair_aq (s : State) (n : Nat) (f : CcPair → CcPair) : (s.updPair n f).aq = s.aq := rfl
@[simp] theorem State.updPair_late (s : State) (n : Nat) (f : CcPair → CcPair) : (s.updPair n f).late = s.late := rfl
@[simp] theorem State.updPair_lk (s : State) (n : Nat) (f : CcPair → CcPair) : (s.updPair n f).lk = s.lk := rfl
@[simp] theorem State.updPair_sc (s : State) (n : Nat) (f : CcPair → CcPair) : (s.updPair n f).sc = s.sc := rfl
@[simp] theorem State.updPair_co (s : State) (n : Nat) (f : CcPair → CcPair) : (s.updPair n f).co = s.co := rfl
@[simp] theorem State.updPair_cc (s : State) (n : Nat) (f : CcPair → CcPair) : (s.updPair n f).cc = { s.cc with pairs := s.cc.pairs.upd {} n f } := rfl
@[simp] theorem State.updPair_queues (s : State) (n : Nat) (f : CcPair → CcPair) : (s.updPair n f).queues = s.queues := rfl
@[simp] theorem State.updPair_faults (s : State) (n : Nat) (f : CcPair → CcPair) : (s.updPair n f).faults = s.faults := rfl
@[simp] theorem State.updPair_out (s : State) (n : Nat) (f : CcPair → CcPair) : (s.updPair n f).out = s.out := rfl
@[simp] theorem State.updPair_freeCtr (s : State) (n : Nat) (f : CcPair → CcPair) : (s.updPair n f).freeCtr = s.freeCtr := rfl
@[simp] theorem State.updPair_pending (s : State) (n : Nat) (f : CcPair → CcPair) : (s.updPair n f).pending = s.pending := rfl

/-! `State.updUu` -/

@[simp] theorem State.updUu_time (s : State) (st : Nat) (f : UuStack → UuStack) : (s.updUu st f).time = s.time := rfl
@[simp] theorem State.updUu_pace (s : State) (st : Nat) (f : UuStack → UuStack) : (s.updUu st f).pace = s.pace := rfl
@[simp] theorem State.updUu_rst (s : State) (st : Nat) (f : UuStack → UuStack) : (s.updUu st f).rst = s.rst := rfl
@[simp] theorem State.updUu_bak (s : State) (st : Nat) (f : UuStack → UuStack) : (s.updUu st f).bak = s.bak := rfl
@[simp] theorem State.updUu_nvm (s : State) (st : Nat) (f : UuStack → UuStack) : (s.updUu st f).nvm = s.nvm := rfl
@[simp] theorem State.updUu_opt (s : State) (st : Nat) (f : UuStack → UuStack) : (s.updUu st f).opt = s.opt := rfl
@[simp] theorem State.updUu_straps (s : State) (st : Nat) (f : UuStack → UuStack) : (s.updUu st f).straps = s.straps := rfl
@[simp] theorem State.updUu_hub (s : State) (st : Nat) (f : UuStack → UuStack) : (s.updUu st f).hub = s.hub := rfl
@[simp] theorem State.updUu_latch (s : State) (st : Nat) (f : UuStack → UuStack) : (s.updUu st f).latch = s.latch := rfl
@[simp] theorem State.updUu_mem (s : State) (st : Nat) (f : UuStack → UuStack) : (s.updUu st f).mem = s.mem := rfl
@[simp] theorem State.updUu_regions (s : State) (st : Nat) (f : UuStack → UuStack) : (s.updUu st f).regions = s.regions := rfl
@[simp] theorem State.updUu_mc (s : State) (st : Nat) (f : UuStack → UuStack) : (s.updUu st f).mc = s.mc := rfl
@[simp] theorem State.updUu_ch (s : State) (st : Nat) (f : UuStack → UuStack) : (s.updUu st f).ch = s.ch := rfl
@[simp] theorem State.updUu_cx (s : State) (st : Nat) (f : UuStack → UuStack) : (s.updUu st f).cx = s.cx := rfl
@[simp] theorem State.updUu_cbk (s : State) (st : Nat) (f : UuStack → UuStack) : (s.updUu st f).cbk = s.cbk := rfl
@[simp] theorem State.updUu_host (s : State) (st : Nat) (f : UuStack → UuStack) : (s.updUu st f).host = s.host := rfl
@[simp] theorem State.updUu_rsv (s : State) (st : Nat) (f : UuStack → UuStack) : (s.updUu st f).rsv = s.rsv := rfl
@[simp] theorem State.updUu_tda (s : State) (st : Nat) (f : UuStack → UuStack) : (s.updUu st f).tda = s.tda := rfl
@[simp] theorem State.updUu_drains (s : State) (st : Nat) (f : UuStack → UuStack) : (s.updUu st f).drains = s.drains := rfl
@[simp] theorem State.updUu_heap (s : State) (st : Nat) (f : UuStack → UuStack) : (s.updUu st f).heap = s.heap := rfl
@[simp] theorem State.updUu_upd (s : State) (st : Nat) (f : UuStack → UuStack) : (s.updUu st f).upd = s.upd := rfl
@[simp] theorem State.updUu_uu (s : State) (st : Nat) (f : UuStack → UuStack) : (s.updUu st f).uu = s.uu.upd {} st f := rfl
@[simp] theorem State.updUu_int (s : State) (st : Nat) (f : UuStack → UuStack) : (s.updUu st f).int = s.int := rfl
@[simp] theorem State.updUu_pl (s : State) (st : Nat) (f : UuStack → UuStack) : (s.updUu st f).pl = s.pl := rfl
@[simp] theorem State.updUu_pwr (s : State) (st : Nat) (f : UuStack → UuStack) : (s.updUu st f).pwr = s.pwr := rfl
@[simp] theorem State.updUu_sec (s : State) (st : Nat) (f : UuStack → UuStack) : (s.updUu st f).sec = s.sec := rfl
@[simp] theorem State.updUu_ident (s : State) (st : Nat) (f : UuStack → UuStack) : (s.updUu st f).ident = s.ident := rfl
@[simp] theorem State.updUu_stw (s : State) (st : Nat) (f : UuStack → UuStack) : (s.updUu st f).stw = s.stw := rfl
@[simp] theorem State.updUu_spi (s : State) (st : Nat) (f : UuStack → UuStack) : (s.updUu st f).spi = s.spi := rfl
@[simp] theorem State.updUu_rails (s : State) (st : Nat) (f : UuStack → UuStack) : (s.updUu st f).rails = s.rails := rfl
@[simp] theorem State.updUu_bd (s : State) (st : Nat) (f : UuStack → UuStack) : (s.updUu st f).bd = s.bd := rfl
@[simp] theorem State.updUu_aq (s : State) (st : Nat) (f : UuStack → UuStack) : (s.updUu st f).aq = s.aq := rfl
@[simp] theorem State.updUu_late (s : State) (st : Nat) (f : UuStack → UuStack) : (s.updUu st f).late = s.late := rfl
@[simp] theorem State.updUu_lk (s : State) (st : Nat) (f : UuStack → UuStack) : (s.updUu st f).lk = s.lk := rfl
@[simp] theorem State.updUu_sc (s : State) (st : Nat) (f : UuStack → UuStack) : (s.updUu st f).sc = s.sc := rfl
@[simp] theorem State.updUu_co (s : State) (st : Nat) (f : UuStack → UuStack) : (s.updUu st f).co = s.co := rfl
@[simp] theorem State.updUu_cc (s : State) (st : Nat) (f : UuStack → UuStack) : (s.updUu st f).cc = s.cc := rfl
@[simp] theorem State.updUu_queues (s : State) (st : Nat) (f : UuStack → UuStack) : (s.updUu st f).queues = s.queues := rfl
@[simp] theorem State.updUu_faults (s : State) (st : Nat) (f : UuStack → UuStack) : (s.updUu st f).faults = s.faults := rfl
@[simp] theorem State.updUu_out (s : State) (st : Nat) (f : UuStack → UuStack) : (s.updUu st f).out = s.out := rfl
@[simp] theorem State.updUu_freeCtr (s : State) (st : Nat) (f : UuStack → UuStack) : (s.updUu st f).freeCtr = s.freeCtr := rfl
@[simp] theorem State.updUu_pending (s : State) (st : Nat) (f : UuStack → UuStack) : (s.updUu st f).pending = s.pending := rfl

/-! `State.updRst` -/

@[simp] theorem State.updRst_time (s : State) (f : ResetState → ResetState) : (s.updRst f).time = s.time := rfl
@[simp] theorem State.updRst_pace (s : State) (f : ResetState → ResetState) : (s.updRst f).pace = s.pace := rfl
@[simp] theorem State.updRst_rst (s : State) (f : ResetState → ResetState) : (s.updRst f).rst = f s.rst := rfl
@[simp] theorem State.updRst_bak (s : State) (f : ResetState → ResetState) : (s.updRst f).bak = s.bak := rfl
@[simp] theorem State.updRst_nvm (s : State) (f : ResetState → ResetState) : (s.updRst f).nvm = s.nvm := rfl
@[simp] theorem State.updRst_opt (s : State) (f : ResetState → ResetState) : (s.updRst f).opt = s.opt := rfl
@[simp] theorem State.updRst_straps (s : State) (f : ResetState → ResetState) : (s.updRst f).straps = s.straps := rfl
@[simp] theorem State.updRst_hub (s : State) (f : ResetState → ResetState) : (s.updRst f).hub = s.hub := rfl
@[simp] theorem State.updRst_latch (s : State) (f : ResetState → ResetState) : (s.updRst f).latch = s.latch := rfl
@[simp] theorem State.updRst_mem (s : State) (f : ResetState → ResetState) : (s.updRst f).mem = s.mem := rfl
@[simp] theorem State.updRst_regions (s : State) (f : ResetState → ResetState) : (s.updRst f).regions = s.regions := rfl
@[simp] theorem State.updRst_mc (s : State) (f : ResetState → ResetState) : (s.updRst f).mc = s.mc := rfl
@[simp] theorem State.updRst_ch (s : State) (f : ResetState → ResetState) : (s.updRst f).ch = s.ch := rfl
@[simp] theorem State.updRst_cx (s : State) (f : ResetState → ResetState) : (s.updRst f).cx = s.cx := rfl
@[simp] theorem State.updRst_cbk (s : State) (f : ResetState → ResetState) : (s.updRst f).cbk = s.cbk := rfl
@[simp] theorem State.updRst_host (s : State) (f : ResetState → ResetState) : (s.updRst f).host = s.host := rfl
@[simp] theorem State.updRst_rsv (s : State) (f : ResetState → ResetState) : (s.updRst f).rsv = s.rsv := rfl
@[simp] theorem State.updRst_tda (s : State) (f : ResetState → ResetState) : (s.updRst f).tda = s.tda := rfl
@[simp] theorem State.updRst_drains (s : State) (f : ResetState → ResetState) : (s.updRst f).drains = s.drains := rfl
@[simp] theorem State.updRst_heap (s : State) (f : ResetState → ResetState) : (s.updRst f).heap = s.heap := rfl
@[simp] theorem State.updRst_upd (s : State) (f : ResetState → ResetState) : (s.updRst f).upd = s.upd := rfl
@[simp] theorem State.updRst_uu (s : State) (f : ResetState → ResetState) : (s.updRst f).uu = s.uu := rfl
@[simp] theorem State.updRst_int (s : State) (f : ResetState → ResetState) : (s.updRst f).int = s.int := rfl
@[simp] theorem State.updRst_pl (s : State) (f : ResetState → ResetState) : (s.updRst f).pl = s.pl := rfl
@[simp] theorem State.updRst_pwr (s : State) (f : ResetState → ResetState) : (s.updRst f).pwr = s.pwr := rfl
@[simp] theorem State.updRst_sec (s : State) (f : ResetState → ResetState) : (s.updRst f).sec = s.sec := rfl
@[simp] theorem State.updRst_ident (s : State) (f : ResetState → ResetState) : (s.updRst f).ident = s.ident := rfl
@[simp] theorem State.updRst_stw (s : State) (f : ResetState → ResetState) : (s.updRst f).stw = s.stw := rfl
@[simp] theorem State.updRst_spi (s : State) (f : ResetState → ResetState) : (s.updRst f).spi = s.spi := rfl
@[simp] theorem State.updRst_rails (s : State) (f : ResetState → ResetState) : (s.updRst f).rails = s.rails := rfl
@[simp] theorem State.updRst_bd (s : State) (f : ResetState → ResetState) : (s.updRst f).bd = s.bd := rfl
@[simp] theorem State.updRst_aq (s : State) (f : ResetState → ResetState) : (s.updRst f).aq = s.aq := rfl
@[simp] theorem State.updRst_late (s : State) (f : ResetState → ResetState) : (s.updRst f).late = s.late := rfl
@[simp] theorem State.updRst_lk (s : State) (f : ResetState → ResetState) : (s.updRst f).lk = s.lk := rfl
@[simp] theorem State.updRst_sc (s : State) (f : ResetState → ResetState) : (s.updRst f).sc = s.sc := rfl
@[simp] theorem State.updRst_co (s : State) (f : ResetState → ResetState) : (s.updRst f).co = s.co := rfl
@[simp] theorem State.updRst_cc (s : State) (f : ResetState → ResetState) : (s.updRst f).cc = s.cc := rfl
@[simp] theorem State.updRst_queues (s : State) (f : ResetState → ResetState) : (s.updRst f).queues = s.queues := rfl
@[simp] theorem State.updRst_faults (s : State) (f : ResetState → ResetState) : (s.updRst f).faults = s.faults := rfl
@[simp] theorem State.updRst_out (s : State) (f : ResetState → ResetState) : (s.updRst f).out = s.out := rfl
@[simp] theorem State.updRst_freeCtr (s : State) (f : ResetState → ResetState) : (s.updRst f).freeCtr = s.freeCtr := rfl
@[simp] theorem State.updRst_pending (s : State) (f : ResetState → ResetState) : (s.updRst f).pending = s.pending := rfl

/-! `State.updSec` -/

@[simp] theorem State.updSec_time (s : State) (f : SecState → SecState) : (s.updSec f).time = s.time := rfl
@[simp] theorem State.updSec_pace (s : State) (f : SecState → SecState) : (s.updSec f).pace = s.pace := rfl
@[simp] theorem State.updSec_rst (s : State) (f : SecState → SecState) : (s.updSec f).rst = s.rst := rfl
@[simp] theorem State.updSec_bak (s : State) (f : SecState → SecState) : (s.updSec f).bak = s.bak := rfl
@[simp] theorem State.updSec_nvm (s : State) (f : SecState → SecState) : (s.updSec f).nvm = s.nvm := rfl
@[simp] theorem State.updSec_opt (s : State) (f : SecState → SecState) : (s.updSec f).opt = s.opt := rfl
@[simp] theorem State.updSec_straps (s : State) (f : SecState → SecState) : (s.updSec f).straps = s.straps := rfl
@[simp] theorem State.updSec_hub (s : State) (f : SecState → SecState) : (s.updSec f).hub = s.hub := rfl
@[simp] theorem State.updSec_latch (s : State) (f : SecState → SecState) : (s.updSec f).latch = s.latch := rfl
@[simp] theorem State.updSec_mem (s : State) (f : SecState → SecState) : (s.updSec f).mem = s.mem := rfl
@[simp] theorem State.updSec_regions (s : State) (f : SecState → SecState) : (s.updSec f).regions = s.regions := rfl
@[simp] theorem State.updSec_mc (s : State) (f : SecState → SecState) : (s.updSec f).mc = s.mc := rfl
@[simp] theorem State.updSec_ch (s : State) (f : SecState → SecState) : (s.updSec f).ch = s.ch := rfl
@[simp] theorem State.updSec_cx (s : State) (f : SecState → SecState) : (s.updSec f).cx = s.cx := rfl
@[simp] theorem State.updSec_cbk (s : State) (f : SecState → SecState) : (s.updSec f).cbk = s.cbk := rfl
@[simp] theorem State.updSec_host (s : State) (f : SecState → SecState) : (s.updSec f).host = s.host := rfl
@[simp] theorem State.updSec_rsv (s : State) (f : SecState → SecState) : (s.updSec f).rsv = s.rsv := rfl
@[simp] theorem State.updSec_tda (s : State) (f : SecState → SecState) : (s.updSec f).tda = s.tda := rfl
@[simp] theorem State.updSec_drains (s : State) (f : SecState → SecState) : (s.updSec f).drains = s.drains := rfl
@[simp] theorem State.updSec_heap (s : State) (f : SecState → SecState) : (s.updSec f).heap = s.heap := rfl
@[simp] theorem State.updSec_upd (s : State) (f : SecState → SecState) : (s.updSec f).upd = s.upd := rfl
@[simp] theorem State.updSec_uu (s : State) (f : SecState → SecState) : (s.updSec f).uu = s.uu := rfl
@[simp] theorem State.updSec_int (s : State) (f : SecState → SecState) : (s.updSec f).int = s.int := rfl
@[simp] theorem State.updSec_pl (s : State) (f : SecState → SecState) : (s.updSec f).pl = s.pl := rfl
@[simp] theorem State.updSec_pwr (s : State) (f : SecState → SecState) : (s.updSec f).pwr = s.pwr := rfl
@[simp] theorem State.updSec_sec (s : State) (f : SecState → SecState) : (s.updSec f).sec = f s.sec := rfl
@[simp] theorem State.updSec_ident (s : State) (f : SecState → SecState) : (s.updSec f).ident = s.ident := rfl
@[simp] theorem State.updSec_stw (s : State) (f : SecState → SecState) : (s.updSec f).stw = s.stw := rfl
@[simp] theorem State.updSec_spi (s : State) (f : SecState → SecState) : (s.updSec f).spi = s.spi := rfl
@[simp] theorem State.updSec_rails (s : State) (f : SecState → SecState) : (s.updSec f).rails = s.rails := rfl
@[simp] theorem State.updSec_bd (s : State) (f : SecState → SecState) : (s.updSec f).bd = s.bd := rfl
@[simp] theorem State.updSec_aq (s : State) (f : SecState → SecState) : (s.updSec f).aq = s.aq := rfl
@[simp] theorem State.updSec_late (s : State) (f : SecState → SecState) : (s.updSec f).late = s.late := rfl
@[simp] theorem State.updSec_lk (s : State) (f : SecState → SecState) : (s.updSec f).lk = s.lk := rfl
@[simp] theorem State.updSec_sc (s : State) (f : SecState → SecState) : (s.updSec f).sc = s.sc := rfl
@[simp] theorem State.updSec_co (s : State) (f : SecState → SecState) : (s.updSec f).co = s.co := rfl
@[simp] theorem State.updSec_cc (s : State) (f : SecState → SecState) : (s.updSec f).cc = s.cc := rfl
@[simp] theorem State.updSec_queues (s : State) (f : SecState → SecState) : (s.updSec f).queues = s.queues := rfl
@[simp] theorem State.updSec_faults (s : State) (f : SecState → SecState) : (s.updSec f).faults = s.faults := rfl
@[simp] theorem State.updSec_out (s : State) (f : SecState → SecState) : (s.updSec f).out = s.out := rfl
@[simp] theorem State.updSec_freeCtr (s : State) (f : SecState → SecState) : (s.updSec f).freeCtr = s.freeCtr := rfl
@[simp] theorem State.updSec_pending (s : State) (f : SecState → SecState) : (s.updSec f).pending = s.pending := rfl

/-! `State.updStw` -/

@[simp] theorem State.updStw_time (s : State) (f : StewardState → StewardState) : (s.updStw f).time = s.time := rfl
@[simp] theorem State.updStw_pace (s : State) (f : StewardState → StewardState) : (s.updStw f).pace = s.pace := rfl
@[simp] theorem State.updStw_rst (s : State) (f : StewardState → StewardState) : (s.updStw f).rst = s.rst := rfl
@[simp] theorem State.updStw_bak (s : State) (f : StewardState → StewardState) : (s.updStw f).bak = s.bak := rfl
@[simp] theorem State.updStw_nvm (s : State) (f : StewardState → StewardState) : (s.updStw f).nvm = s.nvm := rfl
@[simp] theorem State.updStw_opt (s : State) (f : StewardState → StewardState) : (s.updStw f).opt = s.opt := rfl
@[simp] theorem State.updStw_straps (s : State) (f : StewardState → StewardState) : (s.updStw f).straps = s.straps := rfl
@[simp] theorem State.updStw_hub (s : State) (f : StewardState → StewardState) : (s.updStw f).hub = s.hub := rfl
@[simp] theorem State.updStw_latch (s : State) (f : StewardState → StewardState) : (s.updStw f).latch = s.latch := rfl
@[simp] theorem State.updStw_mem (s : State) (f : StewardState → StewardState) : (s.updStw f).mem = s.mem := rfl
@[simp] theorem State.updStw_regions (s : State) (f : StewardState → StewardState) : (s.updStw f).regions = s.regions := rfl
@[simp] theorem State.updStw_mc (s : State) (f : StewardState → StewardState) : (s.updStw f).mc = s.mc := rfl
@[simp] theorem State.updStw_ch (s : State) (f : StewardState → StewardState) : (s.updStw f).ch = s.ch := rfl
@[simp] theorem State.updStw_cx (s : State) (f : StewardState → StewardState) : (s.updStw f).cx = s.cx := rfl
@[simp] theorem State.updStw_cbk (s : State) (f : StewardState → StewardState) : (s.updStw f).cbk = s.cbk := rfl
@[simp] theorem State.updStw_host (s : State) (f : StewardState → StewardState) : (s.updStw f).host = s.host := rfl
@[simp] theorem State.updStw_rsv (s : State) (f : StewardState → StewardState) : (s.updStw f).rsv = s.rsv := rfl
@[simp] theorem State.updStw_tda (s : State) (f : StewardState → StewardState) : (s.updStw f).tda = s.tda := rfl
@[simp] theorem State.updStw_drains (s : State) (f : StewardState → StewardState) : (s.updStw f).drains = s.drains := rfl
@[simp] theorem State.updStw_heap (s : State) (f : StewardState → StewardState) : (s.updStw f).heap = s.heap := rfl
@[simp] theorem State.updStw_upd (s : State) (f : StewardState → StewardState) : (s.updStw f).upd = s.upd := rfl
@[simp] theorem State.updStw_uu (s : State) (f : StewardState → StewardState) : (s.updStw f).uu = s.uu := rfl
@[simp] theorem State.updStw_int (s : State) (f : StewardState → StewardState) : (s.updStw f).int = s.int := rfl
@[simp] theorem State.updStw_pl (s : State) (f : StewardState → StewardState) : (s.updStw f).pl = s.pl := rfl
@[simp] theorem State.updStw_pwr (s : State) (f : StewardState → StewardState) : (s.updStw f).pwr = s.pwr := rfl
@[simp] theorem State.updStw_sec (s : State) (f : StewardState → StewardState) : (s.updStw f).sec = s.sec := rfl
@[simp] theorem State.updStw_ident (s : State) (f : StewardState → StewardState) : (s.updStw f).ident = s.ident := rfl
@[simp] theorem State.updStw_stw (s : State) (f : StewardState → StewardState) : (s.updStw f).stw = f s.stw := rfl
@[simp] theorem State.updStw_spi (s : State) (f : StewardState → StewardState) : (s.updStw f).spi = s.spi := rfl
@[simp] theorem State.updStw_rails (s : State) (f : StewardState → StewardState) : (s.updStw f).rails = s.rails := rfl
@[simp] theorem State.updStw_bd (s : State) (f : StewardState → StewardState) : (s.updStw f).bd = s.bd := rfl
@[simp] theorem State.updStw_aq (s : State) (f : StewardState → StewardState) : (s.updStw f).aq = s.aq := rfl
@[simp] theorem State.updStw_late (s : State) (f : StewardState → StewardState) : (s.updStw f).late = s.late := rfl
@[simp] theorem State.updStw_lk (s : State) (f : StewardState → StewardState) : (s.updStw f).lk = s.lk := rfl
@[simp] theorem State.updStw_sc (s : State) (f : StewardState → StewardState) : (s.updStw f).sc = s.sc := rfl
@[simp] theorem State.updStw_co (s : State) (f : StewardState → StewardState) : (s.updStw f).co = s.co := rfl
@[simp] theorem State.updStw_cc (s : State) (f : StewardState → StewardState) : (s.updStw f).cc = s.cc := rfl
@[simp] theorem State.updStw_queues (s : State) (f : StewardState → StewardState) : (s.updStw f).queues = s.queues := rfl
@[simp] theorem State.updStw_faults (s : State) (f : StewardState → StewardState) : (s.updStw f).faults = s.faults := rfl
@[simp] theorem State.updStw_out (s : State) (f : StewardState → StewardState) : (s.updStw f).out = s.out := rfl
@[simp] theorem State.updStw_freeCtr (s : State) (f : StewardState → StewardState) : (s.updStw f).freeCtr = s.freeCtr := rfl
@[simp] theorem State.updStw_pending (s : State) (f : StewardState → StewardState) : (s.updStw f).pending = s.pending := rfl

/-! ### Banked records -/

@[simp] theorem State.queue_updQ (s : State) (i : Nat) (f : Queue → Queue) : (s.updQ i f).queue i = f (s.queue i) :=
  SMap.get_upd_self _ _ _ _
theorem State.queue_updQ_ne (s : State) {i j : Nat} (f : Queue → Queue) (h : j ≠ i) : (s.updQ i f).queue j = s.queue j :=
  SMap.get_upd_ne _ _ _ h
@[simp] theorem State.chan_updChan (s : State) (i : Nat) (f : Channel → Channel) : (s.updChan i f).chan i = f (s.chan i) :=
  SMap.get_upd_self _ _ _ _
theorem State.chan_updChan_ne (s : State) {i j : Nat} (f : Channel → Channel) (h : j ≠ i) : (s.updChan i f).chan j = s.chan j :=
  SMap.get_upd_ne _ _ _ h
@[simp] theorem State.mcRegs_updMc (s : State) (i : Nat) (f : McRegs → McRegs) : (s.updMc i f).mcRegs i = f (s.mcRegs i) :=
  SMap.get_upd_self _ _ _ _
theorem State.mcRegs_updMc_ne (s : State) {i j : Nat} (f : McRegs → McRegs) (h : j ≠ i) : (s.updMc i f).mcRegs j = s.mcRegs j :=
  SMap.get_upd_ne _ _ _ h
@[simp] theorem State.cxStack_updCx (s : State) (i : Nat) (f : CxStack → CxStack) : (s.updCx i f).cxStack i = f (s.cxStack i) :=
  SMap.get_upd_self _ _ _ _
theorem State.cxStack_updCx_ne (s : State) {i j : Nat} (f : CxStack → CxStack) (h : j ≠ i) : (s.updCx i f).cxStack j = s.cxStack j :=
  SMap.get_upd_ne _ _ _ h
@[simp] theorem State.func_updFunc (s : State) (i : Nat) (f : Func → Func) : (s.updFunc i f).func i = f (s.func i) :=
  SMap.get_upd_self _ _ _ _
theorem State.func_updFunc_ne (s : State) {i j : Nat} (f : Func → Func) (h : j ≠ i) : (s.updFunc i f).func j = s.func j :=
  SMap.get_upd_ne _ _ _ h
@[simp] theorem State.slot_updSlot (s : State) (i : Nat) (f : Slot → Slot) : (s.updSlot i f).slot i = f (s.slot i) :=
  SMap.get_upd_self _ _ _ _
theorem State.slot_updSlot_ne (s : State) {i j : Nat} (f : Slot → Slot) (h : j ≠ i) : (s.updSlot i f).slot j = s.slot j :=
  SMap.get_upd_ne _ _ _ h
@[simp] theorem State.group_updGroup (s : State) (i : Nat) (f : SpGroup → SpGroup) : (s.updGroup i f).group i = f (s.group i) :=
  SMap.get_upd_self _ _ _ _
theorem State.group_updGroup_ne (s : State) {i j : Nat} (f : SpGroup → SpGroup) (h : j ≠ i) : (s.updGroup i f).group j = s.group j :=
  SMap.get_upd_ne _ _ _ h
@[simp] theorem State.bdStack_updBdStack (s : State) (i : Nat) (f : BdStack → BdStack) : (s.updBdStack i f).bdStack i = f (s.bdStack i) :=
  SMap.get_upd_self _ _ _ _
theorem State.bdStack_updBdStack_ne (s : State) {i j : Nat} (f : BdStack → BdStack) (h : j ≠ i) : (s.updBdStack i f).bdStack j = s.bdStack j :=
  SMap.get_upd_ne _ _ _ h
@[simp] theorem State.bucket_updBucket (s : State) (i : Nat) (f : Bucket → Bucket) : (s.updBucket i f).bucket i = f (s.bucket i) :=
  SMap.get_upd_self _ _ _ _
theorem State.bucket_updBucket_ne (s : State) {i j : Nat} (f : Bucket → Bucket) (h : j ≠ i) : (s.updBucket i f).bucket j = s.bucket j :=
  SMap.get_upd_ne _ _ _ h
@[simp] theorem State.aqSlot_updAqSlot (s : State) (i : Nat) (f : AqSlot → AqSlot) : (s.updAqSlot i f).aqSlot i = f (s.aqSlot i) :=
  SMap.get_upd_self _ _ _ _
theorem State.aqSlot_updAqSlot_ne (s : State) {i j : Nat} (f : AqSlot → AqSlot) (h : j ≠ i) : (s.updAqSlot i f).aqSlot j = s.aqSlot j :=
  SMap.get_upd_ne _ _ _ h
@[simp] theorem State.drive_updDrive (s : State) (i : Nat) (f : Drive → Drive) : (s.updDrive i f).drive i = f (s.drive i) :=
  SMap.get_upd_self _ _ _ _
theorem State.drive_updDrive_ne (s : State) {i j : Nat} (f : Drive → Drive) (h : j ≠ i) : (s.updDrive i f).drive j = s.drive j :=
  SMap.get_upd_ne _ _ _ h
@[simp] theorem State.part_updPart (s : State) (i : Nat) (f : Part → Part) : (s.updPart i f).part i = f (s.part i) :=
  SMap.get_upd_self _ _ _ _
theorem State.part_updPart_ne (s : State) {i j : Nat} (f : Part → Part) (h : j ≠ i) : (s.updPart i f).part j = s.part j :=
  SMap.get_upd_ne _ _ _ h
@[simp] theorem State.astE_updAst (s : State) (i : Nat) (f : AstEntry → AstEntry) : (s.updAst i f).astE i = f (s.astE i) :=
  SMap.get_upd_self _ _ _ _
theorem State.astE_updAst_ne (s : State) {i j : Nat} (f : AstEntry → AstEntry) (h : j ≠ i) : (s.updAst i f).astE j = s.astE j :=
  SMap.get_upd_ne _ _ _ h
@[simp] theorem State.tcore_updCore (s : State) (i : Nat) (f : TCore → TCore) : (s.updCore i f).tcore i = f (s.tcore i) :=
  SMap.get_upd_self _ _ _ _
theorem State.tcore_updCore_ne (s : State) {i j : Nat} (f : TCore → TCore) (h : j ≠ i) : (s.updCore i f).tcore j = s.tcore j :=
  SMap.get_upd_ne _ _ _ h
@[simp] theorem State.cluster_updCluster (s : State) (i : Nat) (f : Cluster → Cluster) : (s.updCluster i f).cluster i = f (s.cluster i) :=
  SMap.get_upd_self _ _ _ _
theorem State.cluster_updCluster_ne (s : State) {i j : Nat} (f : Cluster → Cluster) (h : j ≠ i) : (s.updCluster i f).cluster j = s.cluster j :=
  SMap.get_upd_ne _ _ _ h
@[simp] theorem State.pair_updPair (s : State) (i : Nat) (f : CcPair → CcPair) : (s.updPair i f).pair i = f (s.pair i) :=
  SMap.get_upd_self _ _ _ _
theorem State.pair_updPair_ne (s : State) {i j : Nat} (f : CcPair → CcPair) (h : j ≠ i) : (s.updPair i f).pair j = s.pair j :=
  SMap.get_upd_ne _ _ _ h
@[simp] theorem State.uuStack_updUu (s : State) (i : Nat) (f : UuStack → UuStack) : (s.updUu i f).uuStack i = f (s.uuStack i) :=
  SMap.get_upd_self _ _ _ _
theorem State.uuStack_updUu_ne (s : State) {i j : Nat} (f : UuStack → UuStack) (h : j ≠ i) : (s.updUu i f).uuStack j = s.uuStack j :=
  SMap.get_upd_ne _ _ _ h

end Sys2Proof.Machine
end

