-- ==== Sys2Proof/Tests/Slice0.lean ====
section
/-! SUPPORT. Tests: ill-formed commands, the spec's worked examples, and for every statement a state and operands that
meet the hypotheses of each of its clauses. -/
namespace Sys2Proof.Tests
set_option Elab.async false
open Sys2Proof Sys2Proof.Machine

/-! ### Small states -/

/-- A part that is up: the hub runs, the host link is trained, and region 0 holds device addresses 0 to 3 GiB. -/
def tU : State :=
  { rst := { start := .ready }
    host := { up := true, cxl := true, speed := 3, width := 16, funcs := [(0, { bme := true })] }
    stw := { st := .running }
    rails := { hbm := true, pser := true }
    regions := [(0, { en := true })]
    pl := { link := true } }

/-- A command on kernel queue 0 with CID 1. -/
def tK : KCmd := { q := 0, cid := 1 }

/-- With a table store of 64 MiB at 16 MiB. -/
def tS : State := { tU with tda := { en := true, rdy := true, baseLo := 1, size := 4 } }

/-- A descriptor: state, HOME, FMT, W, STRIDE, N - 1, miss and late policies, shards and shard map. -/
def tDesc (st home fmt w stride n1 pol shmap : Nat) : List Byte :=
  leBytes 1 st ++ leBytes 1 home ++ leBytes 1 fmt ++ [0] ++ leBytes 2 w ++ leBytes 2 stride ++ leBytes 8 n1
  ++ List.replicate 16 0 ++ leBytes 1 pol ++ List.replicate 5 0 ++ leBytes 2 1 ++ leBytes 8 shmap ++ List.replicate 80 0

/-- A store with table 5 in a state: 16 rows of 64 B in the basin at 256 MiB, its shard map at byte 128. -/
def tT (st : Nat) : State :=
  (tS.writeDA (tS.tdDA 5) (tDesc st 1 7 4 8 15 1 128)).writeDA 128 (leBytes 8 0 ++ leBytes 8 0x10000000)

/-- With a directory area of 342 frames on every stack. -/
def tB : State :=
  { tS with
    regions := (0, { en := true }) :: (List.range 12).map fun i =>
      (i + 1, { en := true, placed := true, gran16 := true, stack := BitVec.ofNat 4 i, firstBlock := 1, nblocksM1 := 11
                base := BitVec.ofNat 12 (12 + 16 * i) })
    bd := { st := (List.range 12).map fun i => (i, { nframes := 342, dirBase := BitVec.ofNat 24 (12 + 16 * i)
                                                     ftnBase := BitVec.ofNat 24 (23 + 16 * i) }) } }

/-- `tB` with the directory enabled, a host planner, and table 5 SERVING with 16 rows. -/
def tP : State :=
  { tT tdServing with regions := tB.regions, bd := { tB.bd with en := true, planner := true } }

/-- A mounted aquifer set of two drives in slots 0 and 2, with a table tier-3 state to add. -/
def tA : State :=
  { tU with
    aq := { set := 2, members := 3, setId := 77, gen := 4, bifur := [(0, 1)]
            slots := [(0, { st := .member, prsnt := true, ordinal := 0, speed := 1, width := 4 }),
                      (2, { st := .member, prsnt := true, ordinal := 1, speed := 1, width := 4 })]
            drives := [(0, { serial := 10, lbas := 1000000, awun := 4, label := some
                              { setId := 77, ordinal := 0, gen := 4, members := 3, logSegs := 3 } }),
                       (2, { serial := 11, lbas := 1000000, awun := 4, label := some
                              { setId := 77, ordinal := 1, gen := 4, members := 3, logSegs := 3 } })] } }

/-- A lookup list on core 0 over table 5, its one bag open. -/
def tList : LList :=
  { id := 1, cluster := 0, core := 0, hdrDa := 0x100000, part := 0, table := 5, op := 0, ofmt := 0, rm := 0, sat := false
    ctr := 0, k := 0, nbags := 1, ostride := 64, deadline := 0, margin := 0, offDa := 0x1000, idDa := 0x2000, wtDa := 0
    outDa := 0x4000, next := 1 }

/-- Its row request for row 3, and the fragment and merge slot it belongs to. -/
def tRow : RowReq :=
  { rid := 1, list := 1, bag := 0, frag := 1, table := 5, row := 3, weight := 0x3F800000, route := .home, stage := .stack 0
    owner := 0 }
def tFrag : Frag := { id := 1, list := 1, bag := 0, stack := some 0, left := 1 }

/-- `tP` with that list in flight. -/
def tLk (q : RowReq) : State :=
  { tP with lk := { lists := [tList], rows := [q], frags := [tFrag], merges := [{ list := 1, bag := 0 }]
                    nextList := 2, nextRow := 2, nextFrag := 2 } }

/-- A slot word: values at their low bits. -/
def tW (fs : List (Nat × Nat)) : BitVec 56 := BitVec.ofNat 56 ((fs.map fun x => x.1 * 2 ^ x.2).sum)

/-- A part that is up, with one core's context. -/
def tC (k : Nat) (c : TCore) : State := { tU with co := { core := [(k, c)] } }

/-- A context: s1 = 0x40, s2 = 3, s3 = 0x47, and lanes of v1 and v2. -/
def tR : TCore :=
  { s := [(1, 0x40), (2, 3), (3, 0x47)], pc := 0x100, nextSeq := 5
    v := [(64, 0x3F800000), (65, 0x7F800001), (127, 0xC0000000), (128, 0x40000000)], p := [(1, 0x8000000000000003), (2, 5)] }

/-- A control-core instruction word. -/
def tI (fs : List (Nat × Nat)) : BitVec 26 := BitVec.ofNat 26 ((fs.map fun x => x.1 * 2 ^ x.2).sum)

/-- A task of program 511 in partition 0, and its program. -/
def tTask : Task :=
  { prog := 511, part := 0, standing := false, q := 0, raw := 0, tAcc := 0, pc := 0x10
    g := [(1, 0x40), (2, 3), (3, 0xFFFFFFFFFFFFFFFE), (4, 0x1000), (5, 0x41), (6, 0x24)] }
def tProg : Prog :=
  { entry := 0, frame := 4096, maxh := 16, standingOk := true, restart := false, code := List.replicate 64 0 }

/-- Bytes as a task's frame from an address. -/
def tFr (a : Nat) (bs : List Byte) : SMap Byte := bs.zipIdx.map fun x => (a + x.2, x.1)

/-- A part that is up, with a task in slot 31 of pair 7, which serves the running partition 0 of clusters 0 and 99. -/
def tG (t : Task) : State :=
  { tU with
    cc := { pairs := [(7, { parts := 1, tasks := [(31, t)] })], progs := [(511, tProg)] }
    sc := { parts := [(0, { st := .running, cl := 1 <<< 99 ||| 1, astCount := 4 })] } }

/-- A model descriptor of partition 0 that ranks and generates, with its weights at 16 MiB. -/
def tMd : List Byte :=
  [0, 3] ++ leBytes 2 16 ++ [4, 0] ++ leBytes 2 0xFFF ++ leBytes 4 100 ++ leBytes 4 0 ++ leBytes 4 0x10 ++ leBytes 4 0
    ++ leBytes 4 65536 ++ leBytes 8 0x1000000 ++ List.replicate 24 0 ++ leBytes 8 0x2000000 ++ leBytes 8 0x3000000
    ++ List.replicate 52 0

/-- A part that is up, with partition 15 as given and two pairs that serve it. -/
def tPt (p : Part) : State :=
  { tU with sc := { parts := [(15, p)] }, cc := { pairs := [(0, { parts := 0x8000 }), (7, { parts := 0x8000 })] } }

/-- A part that is up, with queue 1023 as given. -/
def tQ (q : Queue) : State := { tU with queues := [(1023, q)] }

/-- A part that is up, with the window at 192 MiB of device memory and both decoders committed, or a chosen host part. -/
def tH (f : HostState → HostState) : State :=
  { tU with host := f { tU.host with lcwEn := true, lcwBase := 3, hdm0 := { committed := true }, hdm1 := { committed := true }
                                     aptEn := true, aptBase := 4 } }

/-- A part that is up with PAIR_EN 1, its link up on 16 lanes, and a pair state changed as given. -/
def tX (f : PairState → PairState) : State :=
  { tU with rst := { tU.rst with effStraps := { pair := true } }
            pl := f { link := true, prsnt := true, lanes := 0xFFFF, met := true } }

/-- A part that is up with SPDM session 5 open, and its option block and security state changed as given. -/
def tO (lc : Byte) (img : SMap Byte) (f : SecState → SecState) : State :=
  { tU with opt := { lifecycle := lc, image := img }, sec := f { tU.sec with sessions := [5] } }

/-- A boot image with a payload of 4,096 bytes, and one of zeros. -/
def tImgOf (z : List Byte) : List Byte :=
  leBytes 4 1 ++ leBytes 4 4096 ++ leBytes 8 0 ++ sha384 z ++ List.replicate 192 0 ++ List.replicate 256 0 ++ z
def tImg : List Byte := tImgOf (List.replicate 4096 0)

/-- A part at a step of its start-up. -/
def tRst (st : Start) (f : ResetState → ResetState) : State := { tU with rst := f { tU.rst with start := st } }

/-- A staged option image of the right form that differs from the blank one at byte 10. -/
def tOpt : SMap Byte :=
  [(0, 1), (1, 0), (2, 0), (3, 0), (10, 7)] ++ (List.range 4).map (fun i => (28 + i, 0))
    ++ (List.range 16).map (fun i => (80 + i, 0)) ++ (List.range 28).map fun i => (100 + i, 0)

/-! ### Images and tokens -/

theorem sha_round_length (v : List W64) (k w : W64) : (shaRound v k w).length = v.length := by
  unfold shaRound; split <;> rfl

theorem sha_rounds_length (l : List (W64 × W64)) :
    ∀ v : List W64, (l.foldl (fun v kw => shaRound v kw.1 kw.2) v).length = v.length := by
  induction l with
  | nil => exact fun _ => rfl
  | cons x l ih => exact fun v => (ih _).trans (sha_round_length v x.1 x.2)

theorem sha_blocks_length (n : Nat) : ∀ (h : List W64) (m : List Byte), (shaBlocks n h m).length = h.length := by
  induction n with
  | zero => exact fun _ _ => rfl
  | succ n ih =>
    intro h m
    refine (ih _ _).trans ?_
    simp [shaBlock, sha_rounds_length]

theorem le_bytes_length (n : Nat) : ∀ v, (leBytes n v).length = n := by
  induction n with
  | zero => exact fun _ => rfl
  | succ n ih => exact fun v => congrArg (· + 1) (ih _)

theorem be_fold_length (l : List W64) :
    ∀ o : List Byte, (l.foldl (fun o w => o ++ beBytes 8 w.toNat) o).length = o.length + 8 * l.length := by
  induction l with
  | nil => exact fun _ => rfl
  | cons x l ih =>
    intro o
    refine (ih _).trans ?_
    simp [beBytes, le_bytes_length]; omega

theorem sha384_length (bs : List Byte) : (sha384 bs).length = 48 := by
  refine (be_fold_length _ []).trans ?_
  simp [sha_blocks_length, shaH0]

/-- A run of bytes inside a list built around it. -/
theorem slice_mid (a b c : List Byte) (o n : Nat) (ha : a.length = o) (hb : b.length = n) :
    sliceOf (a ++ b ++ c) o n = b := by
  subst ha hb; simp [sliceOf, List.append_assoc]

/-- An image built as `tImgOf` says passes R705 on a BLANK part. -/
theorem img_ok (s : State) (z : List Byte) (hz : z.length = 4096) (h : s.lc = 0) : s.imageReason (tImgOf z) = 0 := by
  have hl := sha384_length z
  have e (a b c : List Byte) (o n : Nat) (he : tImgOf z = a ++ b ++ c) (ha : a.length = o) (hb : b.length = n) :
      sliceOf (tImgOf z) o n = b := he ▸ slice_mid a b c o n ha hb
  have h0 : leAt (tImgOf z) 0 4 = 1 := rfl
  have h4 : leAt (tImgOf z) 4 4 = 4096 := rfl
  have h12 : sliceOf (tImgOf z) 12 4 = leBytes 4 0 := rfl
  have h256 : sliceOf (tImgOf z) 256 256 = List.replicate 256 0 :=
    e (leBytes 4 1 ++ leBytes 4 4096 ++ leBytes 8 0 ++ sha384 z ++ List.replicate 192 0) _ z 256 256
      (by simp only [tImgOf, List.append_assoc]) (by simp only [List.length_append, le_bytes_length, hl, List.length_replicate]) List.length_replicate
  have h16 : sliceOf (tImgOf z) 16 48 = sha384 z := e (leBytes 4 1 ++ leBytes 4 4096 ++ leBytes 8 0) _
    (List.replicate 192 0 ++ List.replicate 256 0 ++ z) 16 48 (by simp only [tImgOf, List.append_assoc]) rfl hl
  have h512 : sliceOf (tImgOf z) 512 4096 = z := e (leBytes 4 1 ++ leBytes 4 4096 ++ leBytes 8 0 ++ sha384 z
    ++ List.replicate 192 0 ++ List.replicate 256 0) z [] 512 4096 (by simp only [tImgOf, List.append_assoc, List.append_nil])
    (by simp only [List.length_append, le_bytes_length, hl, List.length_replicate]) hz
  have hlen : (tImgOf z).length = 4608 := by
    simp only [tImgOf, List.length_append, le_bytes_length, hl, hz, List.length_replicate]
  have hz0 : (leBytes 4 0 ++ List.replicate 256 (0 : Byte)).all (· == 0) = true := by
    rw [List.all_append, List.all_replicate]; decide
  simp only [State.imageReason, h0, h4, h12, h256, hz0, h16, h512, hlen, h]
  rw [if_neg (by decide), if_neg (by decide), if_neg (fun h => h rfl), if_pos (Or.inl trivial)]

/-- A debug token of LEVEL 1 with nonce 0, and a PROVISIONED part whose root hash is that of its key. -/
def tTok : List Byte :=
  [1, 0, 0, 0, 1, 0, 0, 0] ++ leBytes 8 0 ++ deviceId ++ List.replicate 96 0 ++ List.replicate 96 0
def tTokImg : SMap Byte := (sha384 (List.replicate 96 0)).zipIdx.map fun x => (32 + x.2, x.1)

/-- The token passes R732 wherever ECDSA accepts it (its signature check is free in the model). -/
theorem token_ok (h : Config.ecdsaVerify (List.replicate 96 0) (List.replicate 96 0) (tTok.take 160) = true) :
    (tO 0xA5 tTokImg id).tokenOk tTok 0 = true ∧ tTok.length = 256 := by
  have hd : deviceId.length = 48 := sha384_length _
  have hk : sliceOf tTok 64 96 = List.replicate 96 0 :=
    slice_mid ([1, 0, 0, 0, 1, 0, 0, 0] ++ leBytes 8 0 ++ deviceId) _ (List.replicate 96 0) 64 96
      (by simp only [List.length_append, hd]; rfl) List.length_replicate
  have hs : sliceOf tTok 160 96 = List.replicate 96 0 := by
    have := slice_mid ([1, 0, 0, 0, 1, 0, 0, 0] ++ leBytes 8 0 ++ deviceId ++ List.replicate 96 0) (List.replicate 96 (0 : Byte))
      [] 160 96 (by simp only [List.length_append, hd, List.length_replicate]; rfl) List.length_replicate
    rwa [List.append_nil] at this
  have hi : sliceOf tTok 16 48 = deviceId := by
    have := slice_mid ([1, 0, 0, 0, 1, 0, 0, 0] ++ leBytes 8 0) deviceId (List.replicate 96 0 ++ List.replicate 96 0) 16 48 rfl hd
    rwa [← List.append_assoc] at this
  have hr : sha384 (List.replicate 96 0) = (tO 0xA5 tTokImg id).rootHash := by decide +kernel
  have h0 : leAt tTok 0 4 = 1 := rfl
  have h4 : leAt tTok 4 1 = 1 := rfl
  have h5 : leAt tTok 5 1 = 0 := rfl
  have h6 : leAt tTok 6 2 = 0 := rfl
  have h8 : leAt tTok 8 8 = 0 := rfl
  have hl : (tO 0xA5 tTokImg id).lc = 1 := by decide
  have hn : (tO 0xA5 tTokImg id).sec.nonce.toNat = 0 := by decide
  refine ⟨?_, by simp only [tTok, List.length_append, hd, List.length_replicate]; rfl⟩
  simp only [State.tokenOk, h0, h4, h5, h6, h8, hk, hs, hi, ← hr, hl, hn, h]
  decide
/-! ### Ill-formed commands -/

theorem test_wf_pace : (Instr.paceSample 0 []).wf = false := by decide
theorem test_wf_hbm_write_empty : (Instr.hbmWriteRequest 0 0 0 0 [] false).wf = false := by decide
theorem test_wf_hbm_write_16k : (Instr.hbmWriteRequest 0 0 0 16383 [1, 2] false).wf = false := by decide
theorem test_wf_hbm_read : (Instr.hbmReadComplete 0 0 0 [(0, 72, 1)] 0).wf = false := by decide
theorem test_wf_reread : (Instr.sectorRereadComplete 0 0 0 [(256, 0, 1)] 0).wf = false := by decide
theorem test_wf_patrol : (Instr.patrolScrubRead 0 0 [(0, 72, 1)] 0).wf = false := by decide
theorem test_wf_sensors : (Instr.telemetrySample [] 750).wf = false := by decide
theorem test_wf_aperture : (Instr.apertureAccess 63 true [1, 2] false).wf = false := by decide
theorem test_wf_debug : (Instr.debugDaAccess 0 (some [1]) 2).wf = false := by decide
theorem test_wf_ok : (Instr.apertureAccess 62 true [1, 2] false).wf = true := by decide

/-! ### The step, and words of a table that gives no bits -/

theorem test_no_word : decodeTableWord 32 0 = none := by decide
theorem test_fetch_word : (State.reset.withFetchWord 32 0).pending = [] := by decide

/-! ### The spec's worked examples -/

/-- Chapter 03: 0x3E99999A in E4M3 and in E5M2. -/
theorem test_convert : (convVal 0x03 .rne false (dec32 0x3E99999A)).bits = 0x2A
    ∧ (convVal 0x04 .rne false (dec32 0x3E99999A)).bits = 0x35 := by decide +kernel

/-- Chapter 03: a block whose largest magnitude is 3.0, in MXFP8. -/
theorem test_quantise : (quantBlock 0x0A .rne [dec32 0x40400000, dec32 0x3E99999A]).1 = 0x78
    ∧ (quantBlock 0x0A .rne [dec32 0x40400000, dec32 0x3E99999A]).2.1 = [0x7C, 0x62] := by decide +kernel

/-- Chapter 03: the BF16 dot product in auto mode is 1.5, with INX. -/
theorem test_dot : (((Acc.fresh 1 0).addChunk ([0x5380, 0x3FC0, 0xD380, 0x2B80].map fun x =>
      Term.ofProduct (decodeElem 0x02 x) (decodeElem 0x02 0x3F80))).map fun a =>
      ((a.output 0x00 .rne false 1 none).bits, (a.output 0x00 .rne false 1 none).flags.inx)) = some (0x3FC00000, true) := by
  decide +kernel

/-- Chapter 04: DA 0x12_3456_7ABC in a striped region of 128 blocks. -/
theorem test_locate : (({ en := true, nblocksM1 := 127 } : Region).locate 0x1234567ABC) = (7, 29, 0x06117ABC) := by
  decide +kernel

/-- Chapter 05: the header, the tag, and bytes 260 and 261 of the coded block. -/
theorem test_encode : ((encodeBlock 0x2A3
    { cls := 1, valid := true
      lens := (List.range 256).map fun s => if s = 0x7B then 4 else if s = 0x7C ∨ s = 0x7D ∨ s = 0x7E then 2 else 11 }
    (([0x3E9A, 0xBE20, 0x3D40, 0x3F00] ++ List.replicate 99 0x3E80 ++ List.replicate 69 0x3E00 ++ List.replicate 59 0x3F00
      ++ List.replicate 20 0x3D80 ++ List.replicate 3 0x3D00 ++ List.replicate 2 0x3F80).flatMap fun e => leBytes 2 e)).map
    fun x => (x.1, x.2.take 8, (x.2.drop 260).take 2))
    = some (6, [0xA3, 0x12, 0, 0, 0x1A, 0xA0, 0x40, 0], [0x4D, 0xF5]) := by decide +kernel

/-- Chapter 10: the STEP record on row 9: its elements, its state and INX. -/
theorem test_step_record : (fun x : List Byte × List W32 × ArithFlags => (x.1.drop 8, x.2.1, x.2.2.inx))
    ((({ table := 0, row := 9, kind := 2, opt := [0x3E000000, 0, 0, 0x30800000], epoch := 0
         payload := leBytes 4 0x3E800000 ++ leBytes 4 0xBF000000 ++ leBytes 4 0x3F000000 ++ leBytes 4 0x3D000000 } : UpdReq)).compute
      { fmt := 8, hdr := true, w := 4, opt := 3, stride := 2 }
      (some (leBytes 2 0x2000 ++ leBytes 6 0 ++ [64, 0xE0, 10, 0])) [0x3F5BF000])
    = ([0x3C, 0xE8, 2, 0], [0x3F800000], true) := by decide +kernel

/-- Chapter 23: the part of the HUB_STS example. -/
def tSts : State :=
  { tU with
    opt := { lifecycle := 0x5A }, pl := { role := .active, link := true, lanes := 0xFFFF }
    ch := [(169, { st := .degraded, la := some { pc := 0, lane := 21 }, calPend := true })] }
theorem test_hub_sts : [0x30, 0x60, 0x64, 0x1500124].map tSts.csrValue = [0x02004129, 4, 0x20, 0x00200AB1] := by
  decide +kernel

/-- Chapter 23: 250 ms in GLOBAL_TIMEOUT. -/
theorem test_global_timeout : (match exec (.csrWrite .pf 0x40 2 0x0EE6B280 false) tU with
    | .next t => (match exec (.globalTimeoutHiWrite .pf 0) t with | .next u => u.hub.gto | _ => 0)
    | _ => 0) = 250000000 := by decide +kernel

/-! ### Every statement's hypotheses are met

One theorem for each statement of `Obligations`, with a witness for each clause that has hypotheses. -/

theorem met_step_runs_front_command : ∃ s : State, s.pending = [] := ⟨tU, rfl⟩

theorem met_every_step_keeps_canon : ∃ s t : State, Canon s ∧ step s = .next t :=
  ⟨{ tU with pending := [.stewardResetRequest] }, _, by unfold Canon CanonParts; decide, rfl⟩

/-- Where ECDSA accepts a token (which is free in the model), the hypotheses about a good token are met. -/
theorem met_debug_token (h : Config.ecdsaVerify (List.replicate 96 0) (List.replicate 96 0) (tTok.take 160) = true) :
    ∃ (s : State) (id : W32) (pl : List Byte), s.inSession id.toNat = true ∧ s.hubRuns = true ∧ pl.length = 256 ∧
      (s.lc = 1 ∨ s.lc = 2) ∧ s.tokenOk pl 0 = true ∧ s.sec.dbg = 0 :=
  ⟨tO 0xA5 tTokImg id, 5, tTok, by decide, by decide, (token_ok h).2, by decide, (token_ok h).1, by decide⟩

/-- The hypotheses of TimeBaseEvents are met. -/
theorem met_time_base_events :
    (∃ (s : State), s.time.refPresent = true)
    ∧ (∃ (s : State), s.time.holdover = true)
    ∧ (∃ (s : State) (p : AccessPath), s.csrWritable p .hub = true ∧ s.time.pairLock = false ∧ s.pl.role ≠ .active)
    ∧ (∃ (s : State) (p : AccessPath) (v : W32), s.csrWritable p .hub = true ∧ s.time.pairLock = true ∧ v ≠ 0)
    ∧ (∃ (s : State) (v : Nat) (t : Nat), s.time.stepPend = some (v, t))
    ∧ (∃ (s : State), rolePaired s.pl.role = true ∧ s.pl.link = true ∧ s.time.lastSent + 10000 ≤ s.time.now ∧
       s.time.stepPend = none)
    ∧ (∃ (s : State), s.pl.role = .active) := by
  exact ⟨⟨{ tU with time := { refPresent := true } }, by decide +kernel⟩,
    ⟨{ tU with time := { holdover := true } }, by decide +kernel⟩,
    ⟨tU, .pf, by decide +kernel, by decide +kernel, by decide +kernel⟩,
    ⟨{ tU with time := { pairLock := true } }, .pf, 1, by decide +kernel, by decide +kernel, by decide +kernel⟩,
    ⟨{ tU with time := { stepPend := some (7, 9) } }, 7, 9, by decide +kernel⟩,
    ⟨{ tU with time := { now := 10000 }, pl := { role := .active, link := true } }, by decide +kernel,
     by decide +kernel, by decide +kernel, by decide +kernel⟩,
    ⟨{ tU with pl := { role := .active, link := true } }, by decide +kernel⟩⟩

/-- The hypotheses of TimeFollowing are met. -/
theorem met_time_following :
    (∃ (s : State), roleStandby s.pl.role = true)
    ∧ (∃ (s : State), s.time.pairLock = true ∧ s.time.lastMsg + 1000000 ≤ s.time.now)
    ∧ (∃ (s : State) (b : Nat), s.time.pairLock = true ∧ s.time.badSince = some b ∧ b + 1000000 ≤ s.time.now) := by
  exact ⟨⟨{ tU with pl := { role := .standby, link := true } }, by decide +kernel⟩,
    ⟨{ tU with time := { pairLock := true, now := 1000000 }, pl := { role := .standby, link := true } },
     by decide +kernel, by decide +kernel⟩,
    ⟨{ tU with time := { pairLock := true, now := 1000005, lastMsg := 1000000, badSince := some 5 } }, 5,
     by decide +kernel, by decide +kernel, by decide +kernel⟩⟩

/-- The hypotheses of PaceAndAgeing are met. -/
theorem met_pace_and_ageing :
    (∃ (s : State) (p : AccessPath), s.csrWritable p .hub = true)
    ∧ (∃ (s : State) (days : Nat), s.pwr.pstate = .p0 ∧ s.pwr.ramp = none ∧ s.stewardRuns = true ∧ s.stw.level = 0 ∧
       days < 30) := by
  exact ⟨⟨tU, .pf, by decide +kernel⟩,
    ⟨tU, 29, by decide +kernel, by decide +kernel, by decide +kernel, by decide +kernel, by decide +kernel⟩⟩

/-- The hypotheses of HbmReads are met. -/
theorem met_hbm_reads :
    (∃ (s : State) (st : Fin 12) (ch : Fin 32) (pc : Fin 2) (addr : BitVec 30),
     let i := chanIndex st ch
     (s.chan i).st ≠ .retired ∧ (s.chan i).readsOf pc.val < 512 ∧
     s.sectorKind st.val (ch.val * 2 + pc.val) addr.toNat = .plain)
    ∧ (∃ (s : State) (s' : State) (st : Fin 12) (ch : Fin 32) (pc : Fin 2) (errs : List (Nat × Nat × Byte)) (r : HbmRead) (rest : List HbmRead),
       let i := chanIndex st ch
       takeRead pc.val false (s.chan i).reads = some (r, rest) ∧ r.sectors = 1 ∧ (s.chan i).st ≠ .failed ∧
       s.hub.injArm = false ∧
       let s1 := s.updChan i fun c => { c with reads := rest }
       s1.decodeSector i pc.val r.addr (errsOf 0 errs) (s1.sectorWritten i pc.val r.addr r) false = .good s')
    ∧ (∃ (s : State) (st : Fin 12) (ch : Fin 32) (pc : Fin 2) (errs : List (Nat × Nat × Byte)) (r : HbmRead) (rest : List HbmRead),
       let i := chanIndex st ch
       takeRead pc.val false (s.chan i).reads = some (r, rest) ∧ r.sectors = 1 ∧ (s.chan i).st ≠ .failed ∧
       s.hub.injArm = false ∧
       let s1 := s.updChan i fun c => { c with reads := rest }
       s1.decodeSector i pc.val r.addr (errsOf 0 errs) (s1.sectorWritten i pc.val r.addr r) false = .bad)
    ∧ (∃ (s : State) (s' : State) (st : Fin 12) (ch : Fin 32) (pc : Fin 2) (errs : List (Nat × Nat × Byte)) (r : HbmRead) (rest : List HbmRead),
       let i := chanIndex st ch
       takeRead pc.val true (s.chan i).reads = some (r, rest) ∧ (s.chan i).st ≠ .failed ∧
       let s1 := s.updChan i fun c => { c with reads := rest }
       s1.decodeSector i pc.val r.addr (errsOf 0 errs) (s1.sectorWritten i pc.val r.addr r) true = .good s')
    ∧ (∃ (s : State) (st : Fin 12) (ch : Fin 32) (pc : Fin 2) (errs : List (Nat × Nat × Byte)) (r : HbmRead) (rest : List HbmRead),
       let i := chanIndex st ch
       takeRead pc.val true (s.chan i).reads = some (r, rest) ∧ (s.chan i).st ≠ .failed ∧
       let s1 := s.updChan i fun c => { c with reads := rest }
       s1.decodeSector i pc.val r.addr (errsOf 0 errs) (s1.sectorWritten i pc.val r.addr r) true = .bad) := by
  exact ⟨⟨tU, 11, 31, 1, 64, by decide +kernel, by decide +kernel, by decide +kernel⟩,
    ⟨{ tU with ch := [(0, { reads := [{ pc := 0, addr := 0, sectors := 1, demand := true }] })] },
     { tU with ch := [(0, { hist0 := [[]] })] }, 0, 0, 0, [], { pc := 0, addr := 0, sectors := 1, demand := true },
     [], by decide +kernel, by decide +kernel, by decide +kernel, by decide +kernel, by decide +kernel⟩,
    ⟨{ tU with ch := [(0, { st := .sweep, sweeping := (List.range 4).map fun l => ⟨0, l⟩, reads := [{ pc := 0, addr := 0, sectors := 1, demand := true }] })] },
     0, 0, 0, [], { pc := 0, addr := 0, sectors := 1, demand := true }, [], by decide +kernel, by decide +kernel,
     by decide +kernel, by decide +kernel, by decide +kernel⟩,
    ⟨{ tU with ch := [(0, { reads := [{ pc := 0, addr := 0, sectors := 1, demand := true, reread := true }] })] },
     { tU with ch := [(0, { hist0 := [[]], corr := 1 })] }, 0, 0, 0, [],
     { pc := 0, addr := 0, sectors := 1, demand := true, reread := true }, [], by decide +kernel, by decide +kernel,
     by decide +kernel⟩,
    ⟨{ tU with ch := [(0, { st := .sweep, sweeping := (List.range 4).map fun l => ⟨0, l⟩, reads := [{ pc := 0, addr := 0, sectors := 1, demand := true, reread := true }] })] },
     0, 0, 0, [], { pc := 0, addr := 0, sectors := 1, demand := true, reread := true }, [], by decide +kernel,
     by decide +kernel, by decide +kernel⟩⟩

/-- The hypotheses of HbmWriteReadsBack are met. -/
theorem met_hbm_write_reads_back :
    (∃ (s : State) (st : Fin 12) (ch : Fin 32) (pc : Fin 2) (addr : BitVec 30) (data : List Byte),
     let i := chanIndex st ch
     let pcx := ch.val * 2 + pc.val
     let a := s.mem.flat st.val pcx addr.toNat
     data ≠ [] ∧ addr.toNat % 64 + data.length ≤ 64 ∧ (s.chan i).st ≠ .retired ∧ s.flatFailed a = false ∧
     s.mem.poisoned a = false ∧ s.sectorKind st.val pcx addr.toNat = .plain ∧
     (if pc.val = 0 then (s.chan i).wbuf0 else (s.chan i).wbuf1).length < 256 ∧ s.mem.wf = true) := by
  exact ⟨tU, 11, 31, 1, 0x3FFFFFFF, [255], by decide +kernel, by decide +kernel, by decide +kernel,
         by decide +kernel, by decide +kernel, by decide +kernel, by decide +kernel, by decide +kernel⟩

/-- The hypotheses of HbmLanesAndChannels are met. -/
theorem met_hbm_lanes_and_channels :
    (∃ (s : State) (st : Fin 12) (ch : Fin 32),
     let i := chanIndex st ch
     (s.chan i).st = .healthy ∧ (s.chan i).la = none ∧ (s.chan i).lb = none ∧ 1 ≤ (s.chan i).spares)
    ∧ (∃ (s : State) (st : Fin 12) (ch : Fin 32) (x : Lane),
       let i := chanIndex st ch
       (s.chan i).st = .degraded ∧ (s.chan i).calPend = true ∧ (s.chan i).la = some x ∧ (s.chan i).lb = none ∧
       0 < (s.chan i).spares)
    ∧ (∃ (s : State) (st : Fin 12) (ch : Fin 32),
       let i := chanIndex st ch
       (s.chan i).st = .sweep)
    ∧ (∃ (s : State) (st : Fin 12) (ch : Fin 32) (pc : Fin 2) (block : Byte) (toPc : Fin 64) (toBlock : Byte),
       let i := chanIndex st ch
       (s.chan i).st = .retiring ∧ (s.leftInPlace i).contains (pc.val, block.toNat) = true ∧
       s.freeReserved i toPc.val toBlock.toNat = true)
    ∧ (∃ (s : State) (st : Fin 12) (ch : Fin 32),
       let i := chanIndex st ch
       (s.chan i).st = .retiring ∧ s.leftInPlace i = [])
    ∧ (∃ (s : State) (st : Fin 12) (ch : Fin 32) (pc : Fin 2),
       let i := chanIndex st ch
       (s.chan i).st ≠ .retired ∧
       (if pc.val = 0 then (s.chan i).lastDrift0 else (s.chan i).lastDrift1) + 1000000 ≤ s.time.now)
    ∧ (∃ (s : State) (st : Fin 12) (ch : Fin 32),
       let i := chanIndex st ch
       (s.chan i).st ≠ .retired)
    ∧ (∃ (s : State) (s' : State) (st : Fin 12) (ch : Fin 32) (errs : List (Nat × Nat × Byte)),
       let i := chanIndex st ch
       let c := s.chan i
       (s.mcRegs st.val).scrubHours ≠ 0 ∧ c.st ≠ .retired ∧ c.st ≠ .failed ∧
       ((s.updChan i fun c => { c with scrubPos := (c.scrubPos + 64) % 2 ^ 31 }).decodeSector i (c.scrubPos / 2 ^ 30) (c.scrubPos % 2 ^ 30) (errsOf 0 errs) false false = .good s')) := by
  exact ⟨⟨{ tU with ch := [(0, { spares := 1 })] }, 0, 0, by decide +kernel, by decide +kernel, by decide +kernel,
          by decide +kernel⟩,
    ⟨{ tU with ch := [(0, { st := .degraded, calPend := true, la := some ⟨1, 35⟩, spares := 1 })] }, 0, 0, ⟨1, 35⟩,
     by decide +kernel, by decide +kernel, by decide +kernel, by decide +kernel, by decide +kernel⟩,
    ⟨{ tU with ch := [(383, { st := .sweep })] }, 11, 31, by decide +kernel⟩,
    ⟨{ tU with ch := [(0, { st := .retiring })] }, 0, 0, 1, 0, 63, 255, by decide +kernel, by decide +kernel,
     by decide +kernel⟩,
    ⟨{ tU with regions := [], ch := [(0, { st := .retiring })] }, 0, 0, by decide +kernel, by decide +kernel⟩,
    ⟨{ tU with time := { now := 1000000 } }, 0, 0, 1, by decide +kernel, by decide +kernel⟩,
    ⟨tU, 11, 31, by decide +kernel⟩,
    ⟨{ tU with mc := [(0, { scrubHours := 1 })] },
     { tU with mc := [(0, { scrubHours := 1 })], ch := [(0, { scrubPos := 64, hist0 := [[]] })] }, 0, 0, [],
     by decide +kernel, by decide +kernel, by decide +kernel, by decide +kernel⟩⟩

/-- The hypotheses of CodebookCommands are met. -/
theorem met_codebook_commands :
    (∃ (s : State) (c : KCmd), fromMirror c = false ∧ s.recall c.a1.toNat 256 = none ∧
     let s1 := s.touch c.a1.toNat 256
     let r := s1.readDA c.a1.toNat 256
     r.unmapped = false ∧ r.poison = false ∧ (codebookOf r.data).2 = true ∧
     (codebookOf r.data).1.installable = true ∧ s1.cbkInUse c.a0.toNat = false)
    ∧ (∃ (s : State) (c : KCmd), s.cbkInUse c.a0.toNat = false)
    ∧ (∃ (s : State) (c : KCmd), s.cbkInUse c.a0.toNat = true)
    ∧ (∃ (s : State) (c : KCmd), s.outBad c.a1.toNat 256 = none)
    ∧ (∃ (s : State) (c : KCmd) (cl : SymClass), fromMirror c = false ∧ s.recall c.a0.toNat 64 = none ∧
       let s1 := s.touch c.a0.toNat 64
       let r := s1.readDA c.a0.toNat 64
       let base := leAt r.data 0 8 % 2 ^ 52
       let len := leAt r.data 8 8
       let s2 := s1.touch base len
       r.unmapped = false ∧ r.poison = false ∧ base % 512 = 0 ∧ len ≠ 0 ∧ len % 512 = 0 ∧ leAt r.data 16 2 < 4096 ∧
       leAt r.data 19 1 = 1 ∧ leAt r.data 20 4 = 0 ∧ (r.data.drop 32).all (· == 0) = true ∧
       s1.rangeInRegions base (len / 512) = true ∧ symClass (leAt r.data 18 1) = some cl ∧
       s2.cbkInUse (leAt r.data 16 2) = false)
    ∧ (∃ (s : State) (c : KCmd), fromMirror c = false ∧ s.recall c.a0.toNat 64 = none ∧
       let s1 := s.touch c.a0.toNat 64
       let r := s1.readDA c.a0.toNat 64
       r.unmapped = false ∧ r.poison = false ∧ leAt r.data 20 4 ≠ 0) := by
  exact ⟨⟨tU.writeDA 0 ([3, 0] ++ List.replicate 14 0 ++ List.replicate 8 0x44 ++ List.replicate 232 0),
          { tK with a0 := 4095 }, by decide +kernel, by decide +kernel, by decide +kernel, by decide +kernel,
          by decide +kernel, by decide +kernel, by decide +kernel⟩,
    ⟨tU, { tK with a0 := 4095 }, by decide +kernel⟩,
    ⟨{ tU with cx := [(11, { use := [(4095, 1)] })] }, { tK with a0 := 4095 }, by decide +kernel⟩,
    ⟨tU, { tK with a1 := 0xBFFFFF00 }, by decide +kernel⟩,
    ⟨tU.writeDA 0 (leBytes 8 8192 ++ leBytes 8 512 ++ leBytes 2 4095 ++ [3, 1] ++ List.replicate 44 0), tK,
     ⟨1, 3, 4⟩, by decide +kernel, by decide +kernel, by decide +kernel, by decide +kernel, by decide +kernel,
     by decide +kernel, by decide +kernel, by decide +kernel, by decide +kernel, by decide +kernel,
     by decide +kernel, by decide +kernel, by decide +kernel, by decide +kernel⟩,
    ⟨tU.writeDA 20 [1], tK, by decide +kernel, by decide +kernel, by decide +kernel, by decide +kernel,
     by decide +kernel⟩⟩

/-- The hypotheses of RegionsAndStore are met. -/
theorem met_regions_and_store :
    (∃ (s : State) (p : AccessPath) (n : Fin 64) (v : W32), s.csrWritable p .hub = true ∧
     (s.region n.val).en = false ∧ bit v 24 = false ∧ bit v 0 = true ∧
     s.regionOk n.val ((s.region n.val).withWord v) = true)
    ∧ (∃ (s : State) (p : AccessPath) (n : Fin 64) (v : W32), s.csrWritable p .hub = true ∧
       (s.region n.val).en = false ∧ bit v 24 = false ∧ bit v 0 = true ∧
       s.regionOk n.val ((s.region n.val).withWord v) = false)
    ∧ (∃ (s : State) (p : AccessPath) (n : Fin 64), s.csrWritable p .hub = true ∧ (s.region n.val).en = true ∧
       s.regionPinned n.val = false ∧ (s.region n.val).withWord 0 = s.region n.val)
    ∧ (∃ (s : State) (p : AccessPath) (v : W32), s.csrWritable p .hub = true ∧ s.tda.en = false ∧ bit v 0 = true ∧
       4 ≤ s.tda.size.toNat ∧
       let s1 := { s with tda := { s.tda with baseLo := field v 24 8, err := s.tda.err && !bit v 1 } }
       s1.inPlainRegion s1.storeBase s1.storeSize = true)
    ∧ (∃ (s : State), s.tda.en = true) := by
  exact ⟨⟨{ tU with regions := [(0, { en := true }), (63, { base := 12 })] }, .pf, 63, 0x101, by decide +kernel,
          by decide +kernel, by decide +kernel, by decide +kernel, by decide +kernel⟩,
    ⟨tU, .pf, 63, 9, by decide +kernel, by decide +kernel, by decide +kernel, by decide +kernel, by decide +kernel⟩,
    ⟨tU, .pf, 0, by decide +kernel, by decide +kernel, by decide +kernel, by decide +kernel⟩,
    ⟨{ tU with tda := { size := 4 } }, .pf, 0x01000001, by decide +kernel, by decide +kernel, by decide +kernel,
     by decide +kernel, by decide +kernel⟩,
    ⟨tS, by decide +kernel⟩⟩

/-- The hypotheses of TableCreateAndLoad are met. -/
theorem met_table_create_and_load :
    (∃ (s : State) (c : KCmd) (o : Nat), s.tda.rdy = true ∧ (s.td c.a0.toNat).state = tdFree ∧
     fromMirror c = false ∧ s.recall c.a1.toNat 128 = none ∧
     let s1 := s.touch c.a1.toNat 128
     let b := (s1.readDA c.a1.toNat 128).data
     let d := tdOf b
     let rn := if d.xlate = 2 then d.rmapN else 0
     let sh := s1.readDA d.shmap (16 * d.nshard)
     let rm := s1.readDA d.xarg (16 * rn)
     let es := mapEntries d.nshard sh.data
     (s1.readDA c.a1.toNat 128).unmapped = false ∧ (s1.readDA c.a1.toNat 128).poison = false ∧
     imageLegal b d = true ∧ d.shmap < 2 ^ 52 ∧ ((d.xlate ≠ 2 ∨ d.xarg < 2 ^ 52)) ∧
     s1.rangeInBasin d.shmap (16 * d.nshard) = true ∧ ((rn = 0 ∨ s1.rangeInBasin d.xarg (16 * rn) = true)) ∧
     sh.poison = false ∧ rm.poison = false ∧ s1.shardsLegal d es = true ∧
     ((rn = 0 ∨ rmapLegal d.n (mapEntries rn rm.data) = true)) ∧
     (¬((d.missPol = 0 ∧ d.defKind = 0) ∨ (d.latePol = 1 ∧ d.fbKind = 0) ∨ (d.defKind = 2 ∧ d.n ≤ d.defRow) ∨ (d.fbKind = 2 ∧ d.n ≤ d.fbRow))) ∧
     ((s1.tda.live.filter fun u => (s1.td u).model == d.model).length < 65536) ∧ s1.homeOk d es = true ∧
     s1.heapFit (16 * (d.nshard + rn)) = some o)
    ∧ (∃ (s : State), s.tda.rdy = false)
    ∧ (∃ (s : State) (c : KCmd), s.tda.rdy = true ∧ (s.td c.a0.toNat).state ≠ tdFree)
    ∧ (∃ (s : State) (c : KCmd), (s.td c.a0.toNat).state = tdLoading ∧ fromMirror c = false ∧
       c.a2.toNat + 1 ≤ (s.td c.a0.toNat).n ∧ c.a3 = 1 ∧ s.rangeUnmapped c.a1.toNat (s.td c.a0.toNat).rb = false ∧
       let d := s.td c.a0.toNat
       let s0 := s.touch c.a1.toNat d.rb
       let row := s0.readDA c.a1.toNat d.rb
       row.poison = false)
    ∧ (∃ (s : State) (c : KCmd), (s.td c.a0.toNat).state = tdLoading ∧ c.a3 = 0 ∧ c.a2.toNat ≤ (s.td c.a0.toNat).n)
    ∧ (∃ (s : State) (c : KCmd), (s.td c.a0.toNat).state = tdLoading ∧ (s.td c.a0.toNat).n < c.a2.toNat + c.a3.toNat) := by
  exact ⟨⟨tS.writeDA 0 (tDesc 0 1 7 4 8 15 1 128 ++ leBytes 8 0 ++ leBytes 8 0x10000000), { tK with a0 := 5 },
          48 * mib, by decide +kernel, by decide +kernel, by decide +kernel, by decide +kernel, by decide +kernel,
          by decide +kernel, by decide +kernel, by decide +kernel, by decide +kernel, by decide +kernel,
          by decide +kernel, by decide +kernel, by decide +kernel, by decide +kernel, by decide +kernel,
          by decide +kernel, by decide +kernel, by decide +kernel, by decide +kernel⟩,
    ⟨tU, by decide +kernel⟩,
    ⟨tT tdLoading, { tK with a0 := 5 }, by decide +kernel, by decide +kernel⟩,
    ⟨tT tdLoading, { tK with a0 := 5, a1 := 0x2000, a2 := 15, a3 := 1 }, by decide +kernel, by decide +kernel,
     by decide +kernel, by decide +kernel, by decide +kernel, by decide +kernel⟩,
    ⟨tT tdLoading, { tK with a0 := 5, a2 := 16 }, by decide +kernel, by decide +kernel, by decide +kernel⟩,
    ⟨tT tdLoading, { tK with a0 := 5, a2 := 15, a3 := 2 }, by decide +kernel, by decide +kernel⟩⟩

/-- The hypotheses of TableLife are met. -/
theorem met_table_life :
    (∃ (s : State) (c : KCmd), (s.td c.a0.toNat).state = tdLoading ∧ (s.td c.a0.toNat).opt = 0 ∧
     (s.td c.a0.toNat).kind2 = [])
    ∧ (∃ (s : State) (c : KCmd), (s.td c.a0.toNat).state ≠ tdLoading)
    ∧ (∃ (s : State) (c : KCmd), (s.td c.a0.toNat).state = tdLoading)
    ∧ (∃ (s : State) (c : KCmd), (s.td c.a0.toNat).state = tdServing)
    ∧ (∃ (s : State) (t : Fin 262144) (dr : Drain), s.drains.find t.val = some dr ∧
       (s.td t.val).state = tdDraining ∧ s.modelInUse (s.td t.val).model = false ∧ s.tableInFlight t.val = false)
    ∧ (∃ (s : State) (t : Fin 262144) (dr : Drain), s.drains.find t.val = some dr ∧ dr.due ≤ s.time.now)
    ∧ (∃ (s : State) (t : Fin 262144) (dr : Drain), s.drains.find t.val = some dr ∧ s.time.now < dr.due)
    ∧ (∃ (s : State), s.tda.rdy = true) := by
  exact ⟨⟨tT tdLoading, { tK with a0 := 5 }, by decide +kernel, by decide +kernel, by decide +kernel⟩,
    ⟨tT tdServing, { tK with a0 := 5 }, by decide +kernel⟩,
    ⟨tT tdLoading, { tK with a0 := 5 }, by decide +kernel⟩,
    ⟨tT tdServing, { tK with a0 := 5 }, by decide +kernel⟩,
    ⟨{ tT tdDraining with drains := [(5, { q := 0, cid := 1, tAcc := 0, due := 9 })] }, 5,
     { q := 0, cid := 1, tAcc := 0, due := 9 }, by decide +kernel, by decide +kernel, by decide +kernel,
     by decide +kernel⟩,
    ⟨{ tT tdDraining with drains := [(5, { q := 0, cid := 1, tAcc := 0, due := 0 })] }, 5,
     { q := 0, cid := 1, tAcc := 0, due := 0 }, by decide +kernel, by decide +kernel⟩,
    ⟨{ tT tdDraining with drains := [(5, { q := 0, cid := 1, tAcc := 0, due := 1 })] }, 5,
     { q := 0, cid := 1, tAcc := 0, due := 1 }, by decide +kernel, by decide +kernel⟩,
    ⟨tT tdServing, by decide +kernel⟩⟩

/-- The hypotheses of PlannerLists are met. -/
theorem met_planner_lists :
    (∃ f, f ∈ [Instr.bsnFill, Instr.bsnDrop, Instr.ftnAdd, Instr.ftnDrop] ∧ ∃ (s : State) (c : KCmd),
     ((c.q.val == 1024) = s.bd.planner))
    ∧ (∃ f, f ∈ [Instr.bsnFill, Instr.bsnDrop, Instr.ftnAdd, Instr.ftnDrop] ∧ ∃ (s : State) (c : KCmd),
       ((c.q.val == 1024) ≠ s.bd.planner) ∧ s.bd.en = false)
    ∧ (∃ f, f ∈ [Instr.bsnFill, Instr.bsnDrop, Instr.ftnAdd, Instr.ftnDrop] ∧ ∃ (s : State) (c : KCmd) (code : _),
       ((c.q.val == 1024) ≠ s.bd.planner) ∧ s.bd.en = true ∧ s.outBad c.a2.toNat 20 = some code)
    ∧ (∃ f, f ∈ [Instr.bsnFill, Instr.bsnDrop, Instr.ftnAdd, Instr.ftnDrop] ∧ ∃ (s : State) (c : KCmd),
       ((c.q.val == 1024) ≠ s.bd.planner) ∧ s.bd.en = true ∧ s.outBad c.a2.toNat 20 = none ∧ fromMirror c = false ∧
       s.recall c.a0.toNat 16 = none ∧ c.a1 = 1 ∧
       let s1 := s.touch c.a0.toNat 16
       let rd := s1.readDA c.a0.toNat 16
       rd.bad = none ∧ (s1.td (leAt rd.data 0 8 / 2 ^ 40 % 2 ^ 18)).state ≠ tdServing)
    ∧ (∃ f, f ∈ [Instr.bsnFill, Instr.bsnDrop, Instr.ftnAdd, Instr.ftnDrop] ∧ ∃ (s : State) (c : KCmd),
       ((c.q.val == 1024) ≠ s.bd.planner) ∧ s.bd.en = true ∧ s.outBad c.a2.toNat 20 = none ∧ fromMirror c = false ∧
       s.recall c.a0.toNat 0 = none ∧ c.a1 = 0 ∧
       let s1 := s.touch c.a0.toNat 0
       (s1.readDA c.a0.toNat 0).bad = none)
    ∧ (∃ (s : State) (c : KCmd), ((c.q.val == 1024) ≠ s.bd.planner) ∧ s.bd.en = true ∧
       s.outBad c.a2.toNat 20 = none ∧ fromMirror c = false ∧ s.recall c.a0.toNat 16 = none ∧ c.a1 = 1 ∧
       let s1 := s.touch c.a0.toNat 16
       let rd := s1.readDA c.a0.toNat 16
       let t := leAt rd.data 0 8 / 2 ^ 40 % 2 ^ 18
       let r := leAt rd.data 0 8 % 2 ^ 40
       rd.bad = none ∧ (s1.td t).state = tdServing ∧ r < (s1.td t).n ∧ s1.bucketMoving (bucketOf t r) = false ∧
       s1.hotCopies t r = [])
    ∧ (∃ (s : State) (n : Nat) (id : Nat) (p : PlanCmd),
       ((s.bd.plans.filter fun kv => !kv.2.slots.isEmpty)[n]? = some (id, p)) ∧ s.bd.plans.find id = some p ∧
       p.left = 0 ∧ p.rows = [] ∧ p.slots.any s.slotRead = false) := by
  exact ⟨⟨Instr.bsnFill, by simp, tB, tK, by decide +kernel⟩,
    ⟨Instr.bsnDrop, by simp, { tB with bd := { tB.bd with planner := true } }, tK, by decide +kernel,
     by decide +kernel⟩,
    ⟨Instr.ftnAdd, by simp, tP, { tK with a2 := 0xFFFFFFF000 }, stDaUnmapped, by decide +kernel, by decide +kernel,
     by decide +kernel⟩,
    ⟨Instr.bsnFill, by simp, tP.writeDA 0x2000 (leBytes 8 (6 * 2 ^ 40 + 3)),
     { tK with a0 := 0x2000, a1 := 1, a2 := 0x3000 }, by decide +kernel, by decide +kernel, by decide +kernel,
     by decide +kernel, by decide +kernel, by decide +kernel, by decide +kernel, by decide +kernel⟩,
    ⟨Instr.ftnDrop, by simp, tP, { tK with a0 := 0x2000, a2 := 0x3000 }, by decide +kernel, by decide +kernel,
     by decide +kernel, by decide +kernel, by decide +kernel, by decide +kernel, by decide +kernel⟩,
    ⟨tP.writeDA 0x2000 (leBytes 8 (5 * 2 ^ 40 + 15)), { tK with a0 := 0x2000, a1 := 1, a2 := 0x3000 },
     by decide +kernel, by decide +kernel, by decide +kernel, by decide +kernel, by decide +kernel,
     by decide +kernel, by decide +kernel, by decide +kernel, by decide +kernel, by decide +kernel,
     by decide +kernel⟩,
    ⟨{ tP with bd := { tP.bd with plans := [(4, { q := 0, cid := 9, resultDa := 0x3000, done := 2, slots := [64] })] } },
     0, 4, { q := 0, cid := 9, resultDa := 0x3000, done := 2, slots := [64] }, by decide +kernel, by decide +kernel,
     by decide +kernel, by decide +kernel, by decide +kernel⟩⟩

/-- The hypotheses of BasinControl are met. -/
theorem met_basin_control :
    (∃ (s : State) (p : AccessPath) (v : W32), s.csrWritable p .hub = true ∧ s.bd.en = false ∧ bit v 0 = true ∧
     let s1 := { s with bd := { s.bd with err := s.bd.err && !bit v 1, planner := bit v 2, heatShift := field v 3 3, decayMs := if field v 6 10 = 0 then 1 else field v 6 10 } }
     (List.range 12).all s1.bdStackOk = true)
    ∧ (∃ (s : State) (p : AccessPath) (v : W32), s.csrWritable p .hub = true ∧ s.bd.en = false ∧ bit v 0 = true ∧
       let s1 := { s with bd := { s.bd with err := s.bd.err && !bit v 1, planner := bit v 2, heatShift := field v 3 3, decayMs := if field v 6 10 = 0 then 1 else field v 6 10 } }
       (List.range 12).all s1.bdStackOk = false)
    ∧ (∃ (s : State) (c : KCmd), ((c.q.val == 1024) ≠ s.bd.planner) ∧ s.bd.en = true ∧
       ((∃ m ∈ s.bd.moves, m.bucket = c.a0.toNat)))
    ∧ (∃ (s : State) (c : KCmd), ((c.q.val == 1024) ≠ s.bd.planner) ∧ s.bd.en = true ∧
       ((∀ m ∈ s.bd.moves, m.bucket ≠ c.a0.toNat)) ∧ s.frameFree c.a1.toNat c.a2.toNat = false)
    ∧ (∃ (s : State) (c : KCmd), ((c.q.val == 1024) ≠ s.bd.planner) ∧ s.bd.en = true ∧
       ((∀ m ∈ s.bd.moves, m.bucket ≠ c.a0.toNat)) ∧ c.a1.toNat ≠ (s.bucket c.a0.toNat).stack.toNat ∧
       c.a2.toNat < (s.bdStack c.a1.toNat).nframes.toNat ∧ s.frameFree c.a1.toNat c.a2.toNat = true ∧
       c.a4.toNat < (s.frameEntries (s.bucket c.a0.toNat).stack.toNat (s.bucket c.a0.toNat).frame.toNat).length)
    ∧ (∃ (s : State) (c : KCmd), ((c.q.val == 1024) ≠ s.bd.planner) ∧ s.bd.en = true ∧
       ((∀ m ∈ s.bd.moves, m.bucket ≠ c.a0.toNat)) ∧ c.a1.toNat ≠ (s.bucket c.a0.toNat).stack.toNat ∧
       c.a2.toNat < (s.bdStack c.a1.toNat).nframes.toNat ∧ s.frameFree c.a1.toNat c.a2.toNat = true ∧
       (s.frameEntries (s.bucket c.a0.toNat).stack.toNat (s.bucket c.a0.toNat).frame.toNat).length ≤ c.a4.toNat ∧
       fromMirror c = false ∧ s.recall c.a3.toNat (8 * c.a4.toNat) = none ∧
       let s1 := s.touch c.a3.toNat (8 * c.a4.toNat)
       let rd := s1.readDA c.a3.toNat (8 * c.a4.toNat)
       rd.bad = none ∧ ((∀ m ∈ s1.bd.moves, m.src ≠ (s.bucket c.a0.toNat).stack.toNat)))
    ∧ (∃ (s : State) (b : Fin 4096) (m : Move), s.bd.moves = [m] ∧ m.bucket = b.val ∧ m.step = 1 ∧
       s.frameEntries m.src (s.bucket b.val).frame.toNat = []) := by
  exact ⟨⟨tB, .pf, 0x3F, by decide +kernel, by decide +kernel, by decide +kernel, by decide +kernel⟩,
    ⟨tU, .pf, 1, by decide +kernel, by decide +kernel, by decide +kernel, by decide +kernel⟩,
    ⟨{ tP with bd := { tP.bd with moves := [{ bucket := 4095, src := 1, dst := 2, frame := 0, slots := [], q := 0, cid := 3 }] } },
     { tK with a0 := 4095 }, by decide +kernel, by decide +kernel, by decide +kernel⟩,
    ⟨{ tP with bd := { tP.bd with buckets := [(9, { stack := 3, frame := 341, v := true })] } },
     { tK with a0 := 8, a1 := 3, a2 := 341 }, by decide +kernel, by decide +kernel, by decide +kernel,
     by decide +kernel⟩,
    ⟨{ tP with bd := { tP.bd with st := (0, { nframes := 342, dir := [(4 * 2 ^ 19, { row := 3, table := 5 })] }) :: tP.bd.st.tail } },
     { tK with a0 := 0, a1 := 1, a2 := 341, a4 := 0 }, by decide +kernel, by decide +kernel, by decide +kernel,
     by decide +kernel, by decide +kernel, by decide +kernel, by decide +kernel⟩,
    ⟨tP, { tK with a0 := 0, a1 := 1, a2 := 341, a3 := 0x2000, a4 := 2 }, by decide +kernel, by decide +kernel,
     by decide +kernel, by decide +kernel, by decide +kernel, by decide +kernel, by decide +kernel,
     by decide +kernel, by decide +kernel, by decide +kernel, by decide +kernel⟩,
    ⟨{ tP with bd := { tP.bd with moves := [{ bucket := 7, src := 7, dst := 2, frame := 5, slots := [], q := 0, cid := 3, step := 1 }] } },
     7, { bucket := 7, src := 7, dst := 2, frame := 5, slots := [], q := 0, cid := 3, step := 1 },
     by decide +kernel, by decide +kernel, by decide +kernel, by decide +kernel⟩⟩

/-- The hypotheses of HeatAndFills are met. -/
theorem met_heat_and_fills :
    (∃ (s : State) (c : KCmd), ((c.q.val == 1024) ≠ s.bd.planner) ∧
     let s0 := { s with bd := { s.bd with sketches := s.bd.sketches.del c.a0.toNat } }
     s0.sketchesAt (c.a0.toNat % 12) < 2 * (s.bdStack (c.a0.toNat % 12)).heatMib.toNat)
    ∧ (∃ (s : State) (c : KCmd), ((c.q.val == 1024) ≠ s.bd.planner) ∧
       let s0 := { s with bd := { s.bd with sketches := s.bd.sketches.del c.a0.toNat } }
       ((∀ st < 12, 2 * (s.bdStack st).heatMib.toNat ≤ s0.sketchesAt st)))
    ∧ (∃ (s : State) (c : KCmd), ((c.q.val == 1024) ≠ s.bd.planner))
    ∧ (∃ (s : State) (c : KCmd), ((c.q.val == 1024) = s.bd.planner))
    ∧ (∃ (s : State) (c : KCmd), s.outBad c.a2.toNat 2 = none ∧ fromMirror c = false ∧ c.a1 = 1 ∧
       s.recall c.a0.toNat 16 = none ∧
       let s1 := s.touch c.a0.toNat 16
       let rd := s1.readDA c.a0.toNat 16
       rd.bad = none)
    ∧ (∃ (s : State) (n : Nat) (t : Nat) (r : Nat) (k : Sketch), s.bd.samples[n]? = some (t, r) ∧
       s.bd.sketches.find t = some k ∧ s.bd.thresh = 0)
    ∧ (∃ (s : State), s.elapsed s.bd.lastDecay (s.bd.decayMs.toNat * 1000000) = true)
    ∧ (∃ (s : State), s.elapsed s.bd.lastDecay (s.bd.decayMs.toNat * 1000000) = false)
    ∧ (∃ (s : State) (q : FarReq) (f : Fill) (bs : List Byte) (i : Nat) (e : DirEntry), s.aq.far = [q] ∧
       q.who = .fill f.stack ∧ q.stage = .arrived bs ∧ s.bd.fills = [f] ∧ f.table = q.table ∧ f.row = q.row ∧
       f.cmd = none ∧ ((s.hotCopies f.table f.row).find? (fun x => x.1 == f.stack) = some (f.stack, i)) ∧
       s.dirAt f.stack i = some e ∧ e.refill = false) := by
  exact ⟨⟨tP, { tK with a0 := 5 }, by decide +kernel, by decide +kernel⟩,
    ⟨{ tP with bd := { tP.bd with st := (List.range 12).map fun i => (i, { heatMib := 0 }) } }, { tK with a0 := 5 },
     by decide +kernel, by decide +kernel⟩,
    ⟨{ tP with bd := { tP.bd with sketches := [(5, { stack := 5 })] } }, { tK with a0 := 5 }, by decide +kernel⟩,
    ⟨tB, tK, by decide +kernel⟩,
    ⟨tP.writeDA 0x2000 (leBytes 8 (5 * 2 ^ 40 + 15)), { tK with a0 := 0x2000, a1 := 1, a2 := 0x3000 },
     by decide +kernel, by decide +kernel, by decide +kernel, by decide +kernel, by decide +kernel⟩,
    ⟨{ tP with bd := { tP.bd with sketches := [(5, { stack := 5 })], samples := [(5, 3)], thresh := 0 } }, 0, 5, 3,
     { stack := 5 }, by decide +kernel, by decide +kernel, by decide +kernel⟩,
    ⟨{ tP with time := { tP.time with now := 1000000000 } }, by decide +kernel⟩,
    ⟨{ tP with time := { tP.time with now := 999999999 } }, by decide +kernel⟩,
    ⟨{ tP with bd := { tP.bd with fills := [{ table := 5, row := 3, stack := 0, cmd := none, slot := 0x4000 }], st := (0, { nframes := 342, dir := [(4 * (dirSets 5 3 (some 0)).1, { row := 3, table := 5, filling := true, slot := 0x4000 })] }) :: tP.bd.st.tail }, aq := { tP.aq with far := [{ table := 5, row := 3, who := .fill 0, stage := .arrived (List.replicate 64 7) }] } },
     { table := 5, row := 3, who := .fill 0, stage := .arrived (List.replicate 64 7) },
     { table := 5, row := 3, stack := 0, cmd := none, slot := 0x4000 }, List.replicate 64 7,
     4 * (dirSets 5 3 (some 0)).1, { row := 3, table := 5, filling := true, slot := 0x4000 }, by decide +kernel,
     by decide +kernel, by decide +kernel, by decide +kernel, by decide +kernel, by decide +kernel,
     by decide +kernel, by decide +kernel, by decide +kernel, by decide +kernel⟩⟩

/-- The hypotheses of ReservoirAndFarRows are met. -/
theorem met_reservoir_and_far_rows :
    (∃ (s : State) (c : KCmd), c.a1.toNat % 2097152 = 0 ∧ c.a2.toNat ≠ 0 ∧ c.a2.toNat % 2097152 = 0 ∧
     c.a1.toNat + c.a2.toNat ≤ 2 ^ 48 ∧ (s.rsvRange c.a0.toNat).v = false ∧
     ((∀ n < 64, (s.rsvRange n).v = true → (s.rsvRange n).hpa + (s.rsvRange n).len ≤ c.a1.toNat ∨ c.a1.toNat + c.a2.toNat ≤ (s.rsvRange n).hpa)))
    ∧ (∃ (s : State) (c : KCmd), (s.rsvRange c.a0.toNat).v = true)
    ∧ (∃ (s : State) (c : KCmd), (s.rsvRange c.a0.toNat).v = false)
    ∧ (∃ (s : State) (c : KCmd), (s.rsvRange c.a0.toNat).v = true ∧
       let r := s.rsvRange c.a0.toNat
       s.shardIn 2 (rsvBase + r.hpa) (rsvBase + r.hpa + r.len) = true)
    ∧ (∃ (s : State) (c : KCmd), (s.rsvRange c.a0.toNat).v = true ∧
       let r := s.rsvRange c.a0.toNat
       s.shardIn 2 (rsvBase + r.hpa) (rsvBase + r.hpa + r.len) = false ∧ ((∀ kv ∈ s.host.hlc, kv.2.st ≠ .m)))
    ∧ (∃ (s : State) (t : Nat) (r : Nat) (w : FarFor) (da : Nat),
       s.aq.far = [{ table := t, row := r, who := w, stage := .reservoir da }] ∧ ∃ (o : Fin 3), o ≠ 0)
    ∧ (∃ (s : State) (t : Nat) (r : Nat) (w : FarFor) (da : Nat),
       s.aq.far = [{ table := t, row := r, who := w, stage := .reservoir da }])
    ∧ (∃ (s : State) (t : Nat) (r : Nat) (w : FarFor),
       s.aq.far = [{ table := t, row := r, who := w, stage := .queued }] ∧ (s.td t).tier ≠ 2 ∧ s.aq.mounted = false)
    ∧ (∃ (s : State) (t : Nat) (r : Nat) (i : Nat) (o : Nat) (w : FarFor) (e : LogEntry) (l : LogRec),
       s.aq.far = [{ table := t, row := r, who := w, stage := .queued }] ∧ (s.td t).tier ≠ 2 ∧ s.aq.mounted = true ∧
       s.lidxFind t r = some (i, e) ∧ e.place = .tail o ∧
       (((s.aqTail o).recs.find? fun x => x.seq == e.seq) = some l)) := by
  exact ⟨⟨{ tU with rsv := [(0, { v := true, hpa := 0, len := 2 ^ 44 - 0x200000 })] },
          { tK with a0 := 63, a1 := 0xFFFFFFE00000, a2 := 0x200000 }, by decide +kernel, by decide +kernel,
          by decide +kernel, by decide +kernel, by decide +kernel, by decide +kernel⟩,
    ⟨{ tU with rsv := [(63, { v := true, hpa := 0, len := 0x200000 })] },
     { tK with a0 := 63, a2 := 0x200000, a1 := 0x400000 }, by decide +kernel⟩,
    ⟨tU, { tK with a0 := 63 }, by decide +kernel⟩,
    ⟨{ (tT tdServing).writeDA (tS.tdDA 5) (tDesc tdServing 2 7 4 8 15 1 128) with rsv := [(1, { v := true, hpa := 0x200000, len := 0x200000 })], mem := (({ tT tdServing with tda := { tS.tda with live := [5] } }.writeDA (tS.tdDA 5) (tDesc tdServing 2 7 4 8 15 1 128)).writeDA 128 (leBytes 8 0 ++ leBytes 8 (rsvBase + 0x3FFC00))).mem, tda := { tS.tda with live := [5] } },
     { tK with a0 := 1 }, by decide +kernel, by decide +kernel⟩,
    ⟨{ tU with rsv := [(1, { v := true, hpa := 0x200000, len := 0x200000 })], host := { tU.host with hlc := [(0x200000, {})] } },
     { tK with a0 := 1 }, by decide +kernel, by decide +kernel, by decide +kernel⟩,
    ⟨{ tT tdServing with aq := { far := [{ table := 5, row := 3, who := .update 4, stage := .reservoir (rsvBase + 0x200000) }] } },
     5, 3, .update 4, rsvBase + 0x200000, by decide +kernel, 1, by decide +kernel⟩,
    ⟨{ tT tdServing with aq := { far := [{ table := 5, row := 3, who := .update 4, stage := .reservoir (rsvBase + 0x200000) }] } },
     5, 3, .update 4, rsvBase + 0x200000, by decide +kernel⟩,
    ⟨{ tU with aq := { far := [{ table := 5, row := 3, who := .lookup 4 }] } }, 5, 3, .lookup 4, by decide +kernel,
     by decide +kernel, by decide +kernel⟩,
    ⟨{ tA with aq := { tA.aq with far := [{ table := 5, row := 3, who := .lookup 4 }], lidx := [(4 * (candSets tA.aq.lidxSize.toNat (rowKey 5 3)).1, { table := 5, row := 3, seq := 8, place := .tail 1 })], tails := [(1, { recs := [{ table := 5, row := 3, seq := 8, bytes := [1, 2] }] })] } },
     5, 3, 4 * (candSets tA.aq.lidxSize.toNat (rowKey 5 3)).1, 1, .lookup 4,
     { table := 5, row := 3, seq := 8, place := .tail 1 }, { table := 5, row := 3, seq := 8, bytes := [1, 2] },
     by decide +kernel, by decide +kernel, by decide +kernel, by decide +kernel, by decide +kernel,
     by decide +kernel⟩⟩

/-- The hypotheses of AquiferSets are met. -/
theorem met_aquifer_sets :
    (∃ (s : State), s.aq.mounted = true)
    ∧ (∃ (s : State) (c : KCmd), s.aq.mounted = false ∧ s.aq.set ≠ 1 ∧ slotsOf c.a0.toNat = [])
    ∧ (∃ (s : State) (c : KCmd) (n : Fin 8), s.aq.mounted = false ∧ s.aq.set ≠ 1 ∧ slotsOf c.a0.toNat = [n.val] ∧
       c.a0.toNat < 256 ∧ (s.aqSlot n.val).st = .blank ∧ 1 ≤ c.a1.toNat ∧ c.a1.toNat ≤ 50)
    ∧ (∃ (s : State), s.aq.mounted = false ∧ s.aq.set ≠ 1 ∧ ((∀ n < 8, (s.drive n).label = none)))
    ∧ (∃ (s : State), s.aq.mounted = false)
    ∧ (∃ (s : State), s.aq.mounted = true ∧ ((∀ o < 8, (s.aqTail o).recs = [])))
    ∧ (∃ (s : State) (c : KCmd) (lba : Nat), s.aq.mounted = true ∧ (s.aqExt c.a0.toNat).st = 0 ∧ c.a1.toNat < 256 ∧
       maskBits (BitVec.ofNat 8 c.a1.toNat) ≠ [] ∧ 1 ≤ c.a2.toNat ∧ c.a2.toNat ≤ 4 ∧ c.a3.toNat ≠ 0 ∧
       ((∀ o ∈ maskBits (BitVec.ofNat 8 c.a1.toNat), ∃ n, s.memberSlot o = some n ∧ c.a2.toNat ≤ (s.drive n).awun)) ∧
       s.findLbas (BitVec.ofNat 8 c.a1.toNat) ((c.a3.toNat + (maskBits (BitVec.ofNat 8 c.a1.toNat)).length - 1) / (maskBits (BitVec.ofNat 8 c.a1.toNat)).length * c.a2.toNat) = some lba)
    ∧ (∃ (s : State) (c : KCmd), s.aq.mounted = true ∧ (s.aqExt (c.a0.toNat % 4096)).st ≠ 0 ∧
       c.a0.toNat = (s.aqExt (c.a0.toNat % 4096)).gen.toNat * 2 ^ 32 + c.a0.toNat % 4096)
    ∧ (∃ (s : State) (c : KCmd), s.aq.mounted = true ∧ (s.aqSlot c.a0.toNat).st = .blank ∧
       s.aq.members.getLsbD c.a1.toNat = true ∧ s.memberSlot c.a1.toNat = none) := by
  exact ⟨⟨tA, by decide +kernel⟩,
    ⟨tU, { tK with a0 := 256 }, by decide +kernel, by decide +kernel, by decide +kernel⟩,
    ⟨{ tU with aq := { slots := [(7, { st := .blank })], drives := [(7, { serial := 3, lbas := 1000000, awun := 1 })] } },
     { tK with a0 := 128, a1 := 50 }, 7, by decide +kernel, by decide +kernel, by decide +kernel, by decide +kernel,
     by decide +kernel, by decide +kernel, by decide +kernel⟩,
    ⟨{ tU with aq := { slots := [(7, { st := .blank })], drives := [(7, { serial := 3, lbas := 1000000, awun := 1 })] } },
     by decide +kernel, by decide +kernel, by decide +kernel⟩,
    ⟨{ tU with aq := { set := 4 } }, by decide +kernel⟩,
    ⟨tA, by decide +kernel, by decide +kernel⟩,
    ⟨tA, { tK with a0 := 4095, a1 := 3, a2 := 4, a3 := 100 }, 49408, by decide +kernel, by decide +kernel,
     by decide +kernel, by decide +kernel, by decide +kernel, by decide +kernel, by decide +kernel,
     by decide +kernel, by decide +kernel⟩,
    ⟨{ tA with aq := { tA.aq with exts := [(4095, { st := 1, gen := 7 })] } }, { tK with a0 := 7 * 2 ^ 32 + 4095 },
     by decide +kernel, by decide +kernel, by decide +kernel⟩,
    ⟨{ tA with aq := { tA.aq with members := 7, slots := tA.aq.slots ++ [(1, { st := .blank })], drives := [(1, { serial := 9, lbas := 2000000, awun := 4 })] ++ tA.aq.drives } },
     { tK with a0 := 1, a1 := 2 }, by decide +kernel, by decide +kernel, by decide +kernel, by decide +kernel⟩⟩

/-- The hypotheses of DrivesAndTails are met. -/
theorem met_drives_and_tails :
    (∃ (s : State) (c : KCmd), (s.aqSlot c.a0.toNat).st = .empty)
    ∧ (∃ (s : State) (c : KCmd), (s.aqSlot c.a0.toNat).st = .blank ∧ ((∀ x ∈ s.aq.ios, x.slot ≠ c.a0.toNat)))
    ∧ (∃ (s : State) (io : AqIo) (n : Nat), s.aq.ios[n]? = some io ∧ ∃ (st : W16), st ≠ 0 ∧ st ≠ 0x281 ∧
       io.retried = false)
    ∧ (∃ (s : State) (io : AqIo) (n : Nat), s.aq.ios[n]? = some io ∧ io.aborted = false ∧
       s.elapsed io.issued (max 1 s.aq.ioTmo.toNat * 1000000) = true)
    ∧ (∃ (s : State) (io : AqIo) (n : Nat), s.aq.ios[n]? = some io ∧
       s.elapsed io.issued (max 1 s.aq.ioTmo.toNat * 1000000) = false)
    ∧ (∃ (s : State) (io : AqIo) (n : Nat), s.aq.ios[n]? = some io)
    ∧ (∃ (s : State) (n : Fin 8) (io : AqIo), s.aq.ios = [io] ∧ io.slot = n.val ∧
       s.elapsed io.issued (2 * (max 1 s.aq.ioTmo.toNat * 1000000)) = true)
    ∧ (∃ (s : State) (n : Fin 8) (ser : Nat), s.slotExists n.val = true ∧ (s.aqSlot n.val).st = .empty ∧
       s.aq.drives.find n.val = none ∧ s.aq.shelf.find ser = none ∧ s.rails.pser = true ∧ s.hubRuns = true)
    ∧ (∃ (s : State) (n : Fin 8), (s.aqSlot n.val).st = .training ∧ (s.drive n.val).label = none)
    ∧ (∃ (s : State) (n : Fin 8), (s.aqSlot n.val).st = .safe)
    ∧ (∃ (s : State) (n : Fin 8), (s.aqSlot n.val).st ≠ .safe ∧ (s.aqSlot n.val).st ≠ .empty)
    ∧ (∃ (s : State) (n : Fin 8), (s.aqSlot n.val).speed = 0)
    ∧ (∃ (s : State) (n : Fin 8), (s.aqSlot n.val).speed ≠ 0)
    ∧ (∃ (s : State) (o : Fin 8), s.aq.mounted = true ∧ (s.aqTail o.val).recs ≠ [] ∧ (s.aqTail o.val).full = true)
    ∧ (∃ (s : State) (o : Fin 8), s.aq.mounted = true ∧ (s.aqTail o.val).recs ≠ [] ∧
       s.elapsed (s.aqTail o.val).first (s.aq.tailUs.toNat * 1000) = true)
    ∧ (∃ (s : State) (o : Fin 8), s.aq.mounted = true ∧ (s.aqTail o.val).recs ≠ [] ∧
       s.elapsed (s.aqTail o.val).first (s.aq.tailUs.toNat * 1000) = false)
    ∧ (∃ (s : State) (o : Fin 8), s.memberSlot o.val = none)
    ∧ (∃ (s : State) (o : Fin 8) (n : Nat) (g : Nat) (sg : LogSeg), s.memberSlot o.val = some n ∧
       (s.drive n).segs = [(g, sg)] ∧ s.aq.lidx = [] ∧ s.aq.ios = []) := by
  exact ⟨⟨tA, { tK with a0 := 7 }, by decide +kernel⟩,
    ⟨{ tU with aq := { slots := [(7, { st := .blank })], drives := [(7, { serial := 3, lbas := 1000000, awun := 1 })] } },
     { tK with a0 := 7 }, by decide +kernel, by decide +kernel⟩,
    ⟨{ tA with aq := { tA.aq with ios := [{ id := 3, slot := 0, op := .readHome 1 2, lba := 300, issued := 0 }] } },
     { id := 3, slot := 0, op := .readHome 1 2, lba := 300, issued := 0 }, 0, by decide +kernel, 1,
     by decide +kernel, by decide +kernel, by decide +kernel⟩,
    ⟨{ tA with time := { now := 10000000 }, aq := { tA.aq with ios := [{ id := 3, slot := 0, op := .readHome 1 2, lba := 300, issued := 0 }] } },
     { id := 3, slot := 0, op := .readHome 1 2, lba := 300, issued := 0 }, 0, by decide +kernel, by decide +kernel,
     by decide +kernel⟩,
    ⟨{ tA with time := { now := 9999999 }, aq := { tA.aq with ios := [{ id := 3, slot := 0, op := .readHome 1 2, lba := 300, issued := 0 }] } },
     { id := 3, slot := 0, op := .readHome 1 2, lba := 300, issued := 0 }, 0, by decide +kernel, by decide +kernel⟩,
    ⟨{ tA with aq := { tA.aq with ios := [{ id := 3, slot := 0, op := .readHome 1 2, lba := 300, issued := 0 }] } },
     { id := 3, slot := 0, op := .readHome 1 2, lba := 300, issued := 0 }, 0, by decide +kernel⟩,
    ⟨{ tA with time := { now := 20000000 }, aq := { tA.aq with ios := [{ id := 3, slot := 2, op := .readHome 1 2, lba := 300, issued := 0 }] } },
     2, { id := 3, slot := 2, op := .readHome 1 2, lba := 300, issued := 0 }, by decide +kernel, by decide +kernel,
     by decide +kernel⟩,
    ⟨tA, 4, 55, by decide +kernel, by decide +kernel, by decide +kernel, by decide +kernel, by decide +kernel,
     by decide +kernel⟩,
    ⟨{ tU with aq := { slots := [(7, { st := .training })], drives := [(7, { serial := 3, lbas := 1000000, awun := 0 })] } },
     7, by decide +kernel, by decide +kernel⟩,
    ⟨{ tU with aq := { slots := [(7, { st := .safe, prsnt := true })], drives := [(7, { serial := 3, lbas := 1000000, awun := 1 })] } },
     7, by decide +kernel⟩,
    ⟨tA, 0, by decide +kernel, by decide +kernel⟩,
    ⟨tA, 7, by decide +kernel⟩,
    ⟨tA, 2, by decide +kernel⟩,
    ⟨{ tA with aq := { tA.aq with tails := [(1, { recs := [{ table := 5, row := 3, seq := 8, bytes := [1, 2] }], full := true })] } },
     1, by decide +kernel, by decide +kernel, by decide +kernel⟩,
    ⟨{ tA with time := { now := 200000 }, aq := { tA.aq with tails := [(1, { recs := [{ table := 5, row := 3, seq := 8, bytes := [1, 2] }] })] } },
     1, by decide +kernel, by decide +kernel, by decide +kernel⟩,
    ⟨{ tA with time := { now := 199999 }, aq := { tA.aq with tails := [(1, { recs := [{ table := 5, row := 3, seq := 8, bytes := [1, 2] }] })] } },
     1, by decide +kernel, by decide +kernel, by decide +kernel⟩,
    ⟨tA, 7, by decide +kernel⟩,
    ⟨{ tA with aq := { tA.aq with drives := tA.aq.drives.map fun x => if x.1 = 0 then (x.1, { x.2 with segs := [(2, { seq := 5 })] }) else x } },
     0, 0, 2, { seq := 5 }, by decide +kernel, by decide +kernel, by decide +kernel, by decide +kernel⟩⟩

/-- The hypotheses of LookupPath are met. -/
theorem met_lookup_path :
    (∃ (s : State) (st : Fin 12) (q : RowReq), s.lk.rows = [q] ∧ q.stage = .stack st.val ∧ s.rst.dieRst = [] ∧
     q.route = .home)
    ∧ (∃ (s : State) (st : Fin 12) (q : RowReq), s.lk.rows = [q] ∧ q.stage = .stack st.val ∧ s.rst.dieRst = [] ∧
       ∃ i, ∃ (e : DirEntry) (t : State), q.route = .fountain ∧
       s.dirProbe st.val q.table q.row none = (some (i, e), t) ∧ e.filling = false)
    ∧ (∃ (s : State) (st : Fin 12) (q : RowReq), s.lk.rows = [q] ∧ q.stage = .stack st.val ∧ s.rst.dieRst = [] ∧
       ∃ i, ∃ (e : DirEntry) (t : State), q.route = .hot ∧ s.bd.en = true ∧
       (s.bucket (bucketOf q.table q.row)).stack.toNat = st.val ∧ (s.bucket (bucketOf q.table q.row)).mig = false ∧
       s.dirProbe st.val q.table q.row (some (s.bucket (bucketOf q.table q.row)).frame.toNat) = (some (i, e), t) ∧
       e.filling = false)
    ∧ (∃ (s : State) (st : Fin 12) (q : RowReq), s.lk.rows = [q] ∧ q.stage = .stack st.val ∧ s.rst.dieRst = [] ∧
       q.route = .hot ∧ s.bd.en = true ∧ (s.bucket (bucketOf q.table q.row)).stack.toNat ≠ st.val ∧
       s.entriesUsed (s.bucket (bucketOf q.table q.row)).stack.toNat < 384)
    ∧ (∃ (s : State) (st : Fin 12) (q : RowReq) (l : LList) (da : Nat), s.lk.rows = [q] ∧
       q.stage = .reading st.val da ∧ s.rst.dieRst = [] ∧ s.list? q.list = some l ∧ q.settled = false ∧
       let d := s.td q.table
       let s1 := s.touch da d.span
       let x := s1.readDA da d.span
       x.unmapped = false ∧ x.poison = false ∧ d.absent (l.rowBytes d x.data) = false)
    ∧ (∃ (s : State) (st : Fin 12) (q : RowReq) (l : LList) (da : Nat), s.lk.rows = [q] ∧
       q.stage = .reading st.val da ∧ s.rst.dieRst = [] ∧ s.list? q.list = some l ∧ q.settled = false ∧
       let d := s.td q.table
       let s1 := s.touch da d.span
       let x := s1.readDA da d.span
       x.unmapped = false ∧ x.poison = true ∧ q.route = .home ∧ q.kind2 = false ∧ d.latePol = 1)
    ∧ (∃ (s : State) (l : LList), s.lk.lists = [l] ∧ l.deadline ≠ 0 ∧ l.lateDone = false ∧
       l.deadline - l.margin ≤ s.time.now)
    ∧ (∃ (s : State) (l : LList), s.lk.lists = [l] ∧
       ((l.deadline = 0 ∨ l.lateDone = true ∨ s.time.now < l.deadline - l.margin)))
    ∧ (∃ (s : State) (c : Fin 100), s.lk.rows = [] ∧ s.openLists c.val = [])
    ∧ (∃ (s : State) (c : Fin 100) (l : LList), s.lk.rows = [] ∧
       let s0 := { s with lk := { s.lk with cstall := s.lk.cstall.filter (· != c.val) } }
       s0.openLists c.val = [l] ∧ s0.mergeUsed l.core + l.mergeBytes (s0.td l.table) ≤ 262144)
    ∧ (∃ (s : State) (k : Fin 1200) (f : Frag) (l : LList), s.lk.frags = [f] ∧ f.sent = true ∧
       s.list? f.list = some l ∧ l.core = k.val ∧ ((s.injFires 7 k.val = false ∨ l.slotted = true))) := by
  exact ⟨⟨tLk tRow, 0, tRow, by decide +kernel, by decide +kernel, by decide +kernel, by decide +kernel⟩,
    ⟨{ tLk { tRow with route := .fountain } with bd := { tP.bd with st := (0, { nframes := 342, dir := [(4 * (dirSets 5 3 none).1, { row := 3, table := 5, fountain := true, slot := 0x8000 })] }) :: tP.bd.st.tail } },
     0, { tRow with route := .fountain }, by decide +kernel, by decide +kernel, by decide +kernel,
     4 * (dirSets 5 3 none).1, { row := 3, table := 5, fountain := true, slot := 0x8000 },
     { tLk { tRow with route := .fountain } with bd := { tP.bd with st := (0, { nframes := 342, dir := [(4 * (dirSets 5 3 none).1, { row := 3, table := 5, fountain := true, slot := 0x8000 })] }) :: tP.bd.st.tail } },
     by decide +kernel, by decide +kernel, by decide +kernel⟩,
    ⟨{ tLk { tRow with route := .hot } with bd := { tP.bd with st := (0, { nframes := 342, dir := [(4 * (dirSets 5 3 (some 0)).1, { row := 3, table := 5, slot := 0x8000 })] }) :: tP.bd.st.tail } },
     0, { tRow with route := .hot }, by decide +kernel, by decide +kernel, by decide +kernel,
     4 * (dirSets 5 3 (some 0)).1, { row := 3, table := 5, slot := 0x8000 },
     { tLk { tRow with route := .hot } with bd := { tP.bd with st := (0, { nframes := 342, dir := [(4 * (dirSets 5 3 (some 0)).1, { row := 3, table := 5, slot := 0x8000 })] }) :: tP.bd.st.tail } },
     by decide +kernel, by decide +kernel, by decide +kernel, by decide +kernel, by decide +kernel,
     by decide +kernel⟩,
    ⟨tLk { tRow with route := .hot, stage := .stack 11 }, 11, { tRow with route := .hot, stage := .stack 11 },
     by decide +kernel, by decide +kernel, by decide +kernel, by decide +kernel, by decide +kernel,
     by decide +kernel, by decide +kernel⟩,
    ⟨tLk { tRow with stage := .reading 0 0x100000C0 }, 0, { tRow with stage := .reading 0 0x100000C0 }, tList,
     0x100000C0, by decide +kernel, by decide +kernel, by decide +kernel, by decide +kernel, by decide +kernel,
     by decide +kernel, by decide +kernel, by decide +kernel⟩,
    ⟨{ (tLk { tRow with stage := .reading 0 0x100000C0 }).writeDA (tS.tdDA 5 + 32) [4] with mem := ((tLk tRow).writeDA (tS.tdDA 5 + 32) [4]).mem.setPoison (tP.flatOf 0x100000C0) },
     0, { tRow with stage := .reading 0 0x100000C0 }, tList, 0x100000C0, by decide +kernel, by decide +kernel,
     by decide +kernel, by decide +kernel, by decide +kernel, by decide +kernel, by decide +kernel,
     by decide +kernel, by decide +kernel, by decide +kernel⟩,
    ⟨{ tLk tRow with time := { now := 900 }, lk := { (tLk tRow).lk with lists := [{ tList with deadline := 1000, margin := 100 }] } },
     { tList with deadline := 1000, margin := 100 }, by decide +kernel, by decide +kernel, by decide +kernel,
     by decide +kernel⟩,
    ⟨{ tLk tRow with time := { now := 899 }, lk := { (tLk tRow).lk with lists := [{ tList with deadline := 1000, margin := 100 }] } },
     { tList with deadline := 1000, margin := 100 }, by decide +kernel, by decide +kernel⟩,
    ⟨{ tLk tRow with lk := { lists := [tList], cstall := [99] } }, 99, by decide +kernel, by decide +kernel⟩,
    ⟨{ tLk tRow with lk := { lists := [{ tList with next := 0 }], cstall := [0] } }, 0, { tList with next := 0 },
     by decide +kernel, by decide +kernel, by decide +kernel⟩,
    ⟨{ tLk tRow with lk := { (tLk tRow).lk with rows := [], frags := [{ tFrag with sent := true, left := 0 }] } },
     0, { tFrag with sent := true, left := 0 }, tList, by decide +kernel, by decide +kernel, by decide +kernel,
     by decide +kernel, by decide +kernel⟩⟩

/-- The hypotheses of UpdateFlow are met. -/
theorem met_update_flow :
    (∃ (s : State) (c : KCmd), s.batchesHeld = false ∧ c.a0.toNat % 64 ≠ 0)
    ∧ (∃ (s : State), s.pl.role = .active ∧ s.pl.txFull = true ∧ s.pl.hold = true)
    ∧ (∃ (s : State) (c : KCmd), s.batchesHeld = false ∧ c.a0.toNat % 64 = 0 ∧ fromMirror c = false ∧
       s.recall c.a0.toNat 64 = none ∧
       let s1 := s.touch c.a0.toNat 64
       let h := (s1.readDA c.a0.toNat 64).data
       let b := batchOf (.queue c.q.val c.cid) (s1.queue c.q.val).part.toNat c.a0.toNat h
       (s1.readDA c.a0.toNat 64).bad = none ∧ (s1.td b.table).serves = true ∧ (s1.td b.table).part = b.part ∧
       s1.pl.role ≠ .standby ∧ s1.pl.role ≠ .standbyIncomplete ∧ leAt h 0 4 < 2 ^ 18 ∧ leAt h 4 1 < 4 ∧
       leAt h 6 2 = 0 ∧ leAt h 12 4 = 0 ∧ leAt h 48 8 = 0 ∧ b.nextDa < 2 ^ 52 ∧ b.nextDa % 8 = 0 ∧ 1 ≤ b.count ∧
       b.count ≤ 2 ^ 24 ∧ ((b.flip = false ∨ (s1.td b.table).pub = true)))
    ∧ (∃ (s : State), s.upd.batches = [])
    ∧ (∃ (s : State) (id : Nat) (b : Batch), s.upd.batches = [(id, b)] ∧ b.stopped = false ∧ b.taken < b.count ∧
       s.int.rbClosing = none ∧ s.recordPlace b.nextDa 8 = false ∧ ((∀ n, s.recall b.nextDa n = none)))
    ∧ (∃ (s : State) (id : Nat) (b : Batch), s.upd.batches = [(id, b)] ∧ b.taken = b.count ∧ s.upd.recs = [] ∧
       b.flip = false ∧ b.close = false ∧ s.pl.busy = false)
    ∧ (∃ (s : State) (c : KCmd), (s.td c.a0.toNat).serves = false)
    ∧ (∃ (s : State) (c : KCmd), (s.td c.a0.toNat).serves = true ∧ (s.td c.a0.toNat).pub = false)
    ∧ (∃ (s : State) (c : KCmd), (s.td c.a0.toNat).serves = true ∧ (s.td c.a0.toNat).pub = true ∧ s.upd.flips = [] ∧
       s.int.rbClosing = none ∧ s.pl.keeps = false)
    ∧ (∃ (s : State) (f : Flip), s.upd.flips = [f] ∧ f.flipped = false ∧
       ((∀ x ∈ s.upd.recs, x.table = f.table → x.why = 3)))
    ∧ (∃ (s : State) (f : Flip) (q : Nat) (cid : W16), s.upd.flips = [f] ∧ f.flipped = true ∧ f.batch = none ∧
       f.cmd = some (q, cid) ∧ ((∀ l ∈ s.lk.lists, l.table = f.table → l.half = s.half f.table)))
    ∧ (∃ (s : State) (x : PendRec) (t : Nat) (r : Nat) (bs : List Byte),
       s.aq.far = [{ table := t, row := r, who := .update x.id, stage := .arrived bs }] ∧ s.upd.recs = [x])
    ∧ (∃ (s : State), ((∀ x ∈ s.upd.recs, x.why ≠ 1))) := by
  exact ⟨⟨tU, { tK with a0 := 63 }, by decide +kernel, by decide +kernel⟩,
    ⟨{ tU with pl := { role := .active, hold := true, txbSize := 0 } }, by decide +kernel, by decide +kernel,
     by decide +kernel⟩,
    ⟨(tT tdServing).writeDA 0x3000 (leBytes 8 5 ++ leBytes 4 (2 ^ 24) ++ leBytes 4 0 ++ leBytes 8 0x5000),
     { tK with a0 := 0x3000 }, by decide +kernel, by decide +kernel, by decide +kernel, by decide +kernel,
     by decide +kernel, by decide +kernel, by decide +kernel, by decide +kernel, by decide +kernel,
     by decide +kernel, by decide +kernel, by decide +kernel, by decide +kernel, by decide +kernel,
     by decide +kernel, by decide +kernel, by decide +kernel, by decide +kernel, by decide +kernel⟩,
    ⟨tU, by decide +kernel⟩,
    ⟨{ tU with upd := { tU.upd with batches := [(3, { origin := .queue 0 7, part := 0, descDa := 0x3000, table := 5, count := 2, taken := 1, nextDa := 0xFFFFFFF000 })] } },
     3,
     { origin := .queue 0 7, part := 0, descDa := 0x3000, table := 5, count := 2, taken := 1, nextDa := 0xFFFFFFF000 },
     by decide +kernel, by decide +kernel, by decide +kernel, by decide +kernel, by decide +kernel, fun _ => rfl⟩,
    ⟨{ tU with upd := { tU.upd with batches := [(3, { origin := .queue 0 7, part := 0, descDa := 0x3000, table := 5, count := 2, taken := 2, nextDa := 0x5000 })] } },
     3, { origin := .queue 0 7, part := 0, descDa := 0x3000, table := 5, count := 2, taken := 2, nextDa := 0x5000 },
     by decide +kernel, by decide +kernel, by decide +kernel, by decide +kernel, by decide +kernel,
     by decide +kernel⟩,
    ⟨tT tdLoading, { tK with a0 := 5 }, by decide +kernel⟩,
    ⟨tT tdDraining, { tK with a0 := 5 }, by decide +kernel, by decide +kernel⟩,
    ⟨(tT tdServing).writeDA (tS.tdDA 5 + 33) [8], { tK with a0 := 5 }, by decide +kernel, by decide +kernel,
     by decide +kernel, by decide +kernel, by decide +kernel⟩,
    ⟨{ tU with upd := { tU.upd with flips := [{ table := 5, cmd := some (0, 9) }], recs := [{ id := 1, batch := 3, table := 5, row := 3, kind := 1, epoch := 0, why := 3 }] } },
     { table := 5, cmd := some (0, 9) }, by decide +kernel, by decide +kernel, by decide +kernel⟩,
    ⟨{ tLk tRow with upd := { flips := [{ table := 5, cmd := some (0, 9), flipped := true }] } },
     { table := 5, cmd := some (0, 9), flipped := true }, 0, 9, by decide +kernel, by decide +kernel,
     by decide +kernel, by decide +kernel, by decide +kernel⟩,
    ⟨{ tT tdServing with upd := { recs := [{ id := 4, batch := 3, table := 5, row := 3, kind := 0, epoch := 0, payload := List.replicate 64 1 }], batches := [(3, { origin := .queue 0 7, part := 0, descDa := 0x3000, table := 5, count := 2, taken := 2, nextDa := 0x5000 })] }, aq := { far := [{ table := 5, row := 3, who := .update 4, stage := .arrived (List.replicate 64 7) }] } },
     { id := 4, batch := 3, table := 5, row := 3, kind := 0, epoch := 0, payload := List.replicate 64 1 }, 5, 3,
     List.replicate 64 7, by decide +kernel, by decide +kernel⟩,
    ⟨{ tU with upd := { recs := [{ id := 4, batch := 3, table := 5, row := 3, kind := 0, epoch := 0, why := 2 }] } },
     by decide +kernel⟩⟩

/-- The hypotheses of EpochsAndDigests are met. -/
theorem met_epochs_and_digests :
    (∃ (s : State), s.upd.closeCmds = [] ∧ s.upd.closing = none)
    ∧ (∃ (s : State) (u : Fin 96) (n : Nat), s.upd.closing = some n ∧ s.upd.markers.contains u.val = true ∧
       s.upd.recs = [])
    ∧ (∃ (s : State), ((s.upd.auto = false ∨ s.elapsed s.upd.openedAt (s.upd.epochUs.toNat * 1000) = false)))
    ∧ (∃ (s : State), s.upd.auto = true ∧ s.upd.closing = none ∧
       s.elapsed s.upd.openedAt (s.upd.epochUs.toNat * 1000) = true ∧ s.pl.role = .solo)
    ∧ (∃ (s : State) (c : KCmd), s.upd.rebuild = none ∧ s.int.rbClosing = none ∧ s.upd.recs = [] ∧
       s.digestTables c.a0.toNat = [])
    ∧ (∃ (s : State) (p : AccessPath) (v : W32), s.csrWritable p .hub = true ∧ field v 16 7 = s.upd.e ∧
       s.upd.e ≠ 0 ∧ s.upd.e.toNat ≤ 64 ∧ bit v 23 = false)
    ∧ (∃ (s : State) (p : AccessPath), s.csrWritable p .hub = true ∧ s.tda.live = [])
    ∧ (∃ (s : State) (p : AccessPath) (st : Fin 12), s.csrWritable p (.stack st.val) = true ∧ s.tda.live = [] ∧
       (s.uuStack st.val).kept = [])
    ∧ (∃ (s : State) (p : AccessPath), s.csrWritable p .hub = false) := by
  exact ⟨⟨{ tU with upd := { epoch := 7 } }, by decide +kernel, by decide +kernel⟩,
    ⟨{ tU with upd := { closing := some 7, markers := [95], dig := [(95 * 256 + 3, 77)] } }, 95, 7,
     by decide +kernel, by decide +kernel, by decide +kernel⟩,
    ⟨{ tU with time := { now := 999999 } }, by decide +kernel⟩,
    ⟨{ tU with time := { now := 1000000 } }, by decide +kernel, by decide +kernel, by decide +kernel,
     by decide +kernel⟩,
    ⟨{ tU with upd := { dig := [(95 * 256 + 3, 77)], broken := [3] } }, { tK with a0 := 3 }, by decide +kernel,
     by decide +kernel, by decide +kernel, by decide +kernel⟩,
    ⟨tU, .pf, 0x00080000, by decide +kernel, by decide +kernel, by decide +kernel, by decide +kernel,
     by decide +kernel⟩,
    ⟨{ tU with upd := { ring := [(0, { epoch := 8, time := 3, total := 0, broken := [], d := [] })] } }, .pf,
     by decide +kernel, by decide +kernel⟩,
    ⟨tU, .pf, 11, by decide +kernel, by decide +kernel, by decide +kernel⟩,
    ⟨tU, .vf 0, by decide +kernel⟩⟩

/-- The hypotheses of ScalarSlot are met. -/
theorem met_scalar_slot :
    (∃ (s : State) (k : Fin 1200) (w : BitVec 56), s.coreRuns k.val = true ∧ (s.tcore k.val).ended = false ∧
     (s.tcore k.val).vNext = false ∧ s.injFires 8 k.val = false ∧
     ((∀ e ∈ (s.tcore k.val).fbuf, e.1 = (s.tcore k.val).pc → e.2 ≠ [])) ∧
     let c := s.tcore k.val
     let a := c.sreg (bits w 50 46)
     ∃ v, onlyFields w [(55, 51), (50, 46), (45, 41), (40, 37)] = true ∧
     aluOp (bits w 40 37) a (c.sreg (bits w 45 41)) = some v)
    ∧ (∃ (s : State) (k : Fin 1200) (w : BitVec 56), s.coreRuns k.val = true ∧ (s.tcore k.val).ended = false ∧
       (s.tcore k.val).vNext = false ∧ s.injFires 8 k.val = false ∧
       ((∀ e ∈ (s.tcore k.val).fbuf, e.1 = (s.tcore k.val).pc → e.2 ≠ [])) ∧
       onlyFields w [(55, 51), (50, 46), (45, 41), (40, 37)] = false)
    ∧ (∃ (s : State) (k : Fin 1200) (w : BitVec 56), s.coreRuns k.val = true ∧ (s.tcore k.val).ended = false ∧
       (s.tcore k.val).vNext = false ∧ s.injFires 8 k.val = false ∧
       ((∀ e ∈ (s.tcore k.val).fbuf, e.1 = (s.tcore k.val).pc → e.2 ≠ [])) ∧
       onlyFields w [(55, 51), (50, 46), (45, 41), (40, 37)] = true ∧ 10 < bits w 40 37)
    ∧ (∃ (s : State) (k : Fin 1200) (w : BitVec 56), s.coreRuns k.val = true ∧ (s.tcore k.val).ended = false ∧
       (s.tcore k.val).vNext = false ∧ s.injFires 8 k.val = false ∧
       ((∀ e ∈ (s.tcore k.val).fbuf, e.1 = (s.tcore k.val).pc → e.2 ≠ [])) ∧
       let c := s.tcore k.val
       let a := c.sreg (bits w 50 46)
       ∃ v, onlyFields w [(55, 51), (50, 46), (40, 37), (31, 0)] = true ∧
       aluOp (bits w 40 37) a (BitVec.ofInt 64 (sbits w 31 0)) = some v)
    ∧ (∃ (s : State) (k : Fin 1200) (w : BitVec 56), s.coreRuns k.val = true ∧ (s.tcore k.val).ended = false ∧
       (s.tcore k.val).vNext = false ∧ s.injFires 8 k.val = false ∧
       ((∀ e ∈ (s.tcore k.val).fbuf, e.1 = (s.tcore k.val).pc → e.2 ≠ [])) ∧
       onlyFields w [(55, 51), (48, 48), (31, 0)] = true)
    ∧ (∃ (s : State) (k : Fin 1200) (w : BitVec 56), s.coreRuns k.val = true ∧ (s.tcore k.val).ended = false ∧
       (s.tcore k.val).vNext = false ∧ s.injFires 8 k.val = false ∧
       ((∀ e ∈ (s.tcore k.val).fbuf, e.1 = (s.tcore k.val).pc → e.2 ≠ [])) ∧
       onlyFields w [(55, 53), (50, 46), (45, 41), (23, 0)] = true ∧ bits w 55 53 ≠ 7 ∧
       ((bits w 55 53 ≠ 0 ∨ bits w 50 41 = 0)))
    ∧ (∃ (s : State) (k : Fin 1200) (w : BitVec 56), s.coreRuns k.val = true ∧ (s.tcore k.val).ended = false ∧
       (s.tcore k.val).vNext = false ∧ s.injFires 8 k.val = false ∧
       ((∀ e ∈ (s.tcore k.val).fbuf, e.1 = (s.tcore k.val).pc → e.2 ≠ [])) ∧
       let c := s.tcore k.val
       let a := c.sreg (bits w 50 46)
       let off := csAddr a (sbits w 19 0)
       onlyFields w [(55, 51), (50, 46), (19, 0)] = true ∧ off % 8 ≠ 0)
    ∧ (∃ (s : State) (k : Fin 1200) (w : BitVec 56), s.coreRuns k.val = true ∧ (s.tcore k.val).ended = false ∧
       (s.tcore k.val).vNext = false ∧ s.injFires 8 k.val = false ∧
       ((∀ e ∈ (s.tcore k.val).fbuf, e.1 = (s.tcore k.val).pc → e.2 ≠ [])) ∧
       let c := s.tcore k.val
       let a := c.sreg (bits w 50 46)
       let off := csAddr a (sbits w 19 0)
       onlyFields w [(55, 51), (50, 46), (19, 0)] = true ∧ off % 8 = 0 ∧ off + 8 ≤ 1048576 ∧
       s.coreHeld k.val c.here [(off, 8)] [] false = false ∧ s.injFires 1 k.val = false ∧
       s.injFires 2 k.val = false ∧ (s.readDA (coreStoreDA k.val off) 8).poison = false)
    ∧ (∃ (s : State) (k : Fin 1200) (w : BitVec 56), s.coreRuns k.val = true ∧ (s.tcore k.val).ended = false ∧
       (s.tcore k.val).vNext = false ∧ s.injFires 8 k.val = false ∧
       ((∀ e ∈ (s.tcore k.val).fbuf, e.1 = (s.tcore k.val).pc → e.2 ≠ [])) ∧
       let c := s.tcore k.val
       let a := c.sreg (bits w 50 46)
       let off := csAddr a (sbits w 19 0)
       onlyFields w [(55, 51), (50, 46), (19, 0)] = true ∧ off % 8 = 0 ∧ off + 8 ≤ 1048576 ∧
       s.coreHeld k.val c.here [] [(off, 8)] true = false)
    ∧ (∃ (s : State) (k : Fin 1200) (w : BitVec 56), s.coreRuns k.val = true ∧ (s.tcore k.val).ended = false ∧
       (s.tcore k.val).vNext = false ∧ s.injFires 8 k.val = false ∧
       ((∀ e ∈ (s.tcore k.val).fbuf, e.1 = (s.tcore k.val).pc → e.2 ≠ [])) ∧ onlyFields w [] = true ∧
       s.coreDone k.val = true)
    ∧ (∃ (s : State) (k : Fin 1200) (w : BitVec 56), s.coreRuns k.val = true ∧ (s.tcore k.val).ended = false ∧
       (s.tcore k.val).vNext = false ∧ s.injFires 8 k.val = false ∧
       ((∀ e ∈ (s.tcore k.val).fbuf, e.1 = (s.tcore k.val).pc → e.2 ≠ [])) ∧ onlyFields w [] = true ∧
       s.coreDone k.val = false)
    ∧ (∃ (s : State) (k : Fin 1200), s.coreRuns k.val = true ∧ (s.tcore k.val).ended = false ∧
       (s.tcore k.val).vNext = false ∧ s.injFires 8 k.val = false ∧
       ((∀ e ∈ (s.tcore k.val).fbuf, e.1 = (s.tcore k.val).pc → e.2 ≠ []))) := by
  exact ⟨⟨tC 1199 tR, 1199, tW [(4, 51), (1, 46), (2, 41), (10, 37)], by decide +kernel, by decide +kernel,
          by decide +kernel, by decide +kernel, by decide +kernel, 0, by decide +kernel, by decide +kernel⟩,
    ⟨tC 1199 tR, 1199, 1, by decide +kernel, by decide +kernel, by decide +kernel, by decide +kernel,
     by decide +kernel, by decide +kernel⟩,
    ⟨tC 1199 tR, 1199, tW [(11, 37)], by decide +kernel, by decide +kernel, by decide +kernel, by decide +kernel,
     by decide +kernel, by decide +kernel, by decide +kernel⟩,
    ⟨tC 1199 tR, 1199, tW [(4, 51), (1, 46), (1, 37), (0xFFFFFFFF, 0)], by decide +kernel, by decide +kernel,
     by decide +kernel, by decide +kernel, by decide +kernel, 0x41, by decide +kernel, by decide +kernel⟩,
    ⟨tC 1199 tR, 1199, tW [(1, 51), (1, 48), (0x80000000, 0)], by decide +kernel, by decide +kernel,
     by decide +kernel, by decide +kernel, by decide +kernel, by decide +kernel⟩,
    ⟨tC 1199 tR, 1199, tW [(6, 53), (1, 46), (2, 41), (0xFFFFFF, 0)], by decide +kernel, by decide +kernel,
     by decide +kernel, by decide +kernel, by decide +kernel, by decide +kernel, by decide +kernel,
     by decide +kernel⟩,
    ⟨tC 1199 tR, 1199, tW [(4, 51), (1, 46), (0xFFFFF, 0)], by decide +kernel, by decide +kernel, by decide +kernel,
     by decide +kernel, by decide +kernel, by decide +kernel, by decide +kernel⟩,
    ⟨(tC 1199 tR).writeDA (coreStoreDA 1199 0xFFFF8) [1, 2, 3, 4, 5, 6, 7, 8], 1199,
     tW [(4, 51), (0, 46), (0x7FFF8, 0)], by decide +kernel, by decide +kernel, by decide +kernel,
     by decide +kernel, by decide +kernel, by decide +kernel, by decide +kernel, by decide +kernel,
     by decide +kernel, by decide +kernel, by decide +kernel, by decide +kernel⟩,
    ⟨tC 1199 tR, 1199, tW [(1, 51), (1, 46), (0xFFFC0, 0)], by decide +kernel, by decide +kernel, by decide +kernel,
     by decide +kernel, by decide +kernel, by decide +kernel, by decide +kernel, by decide +kernel,
     by decide +kernel⟩,
    ⟨tC 1199 tR, 1199, 0, by decide +kernel, by decide +kernel, by decide +kernel, by decide +kernel,
     by decide +kernel, by decide +kernel, by decide +kernel⟩,
    ⟨tC 1199 { tR with defq := [{ code := 9, pc := 3, w := 4 }] }, 1199, 0, by decide +kernel, by decide +kernel,
     by decide +kernel, by decide +kernel, by decide +kernel, by decide +kernel, by decide +kernel⟩,
    ⟨tC 1199 { tR with fbuf := [(0x100, [1])] }, 1199, by decide +kernel, by decide +kernel, by decide +kernel,
     by decide +kernel, by decide +kernel⟩⟩

/-- The hypotheses of SyncAndLookupSlot are met. -/
theorem met_sync_and_lookup_slot :
    (∃ (s : State) (k : Fin 1200) (w : BitVec 56), s.coreRuns k.val = true ∧ (s.tcore k.val).ended = false ∧
     (s.tcore k.val).vNext = false ∧ s.injFires 8 k.val = false ∧
     ((∀ e ∈ (s.tcore k.val).fbuf, e.1 = (s.tcore k.val).pc → e.2 ≠ [])) ∧ bits w 52 52 = 0 ∧
     onlyFields w [(55, 53), (52, 52), (50, 46)] = true)
    ∧ (∃ (s : State) (k : Fin 1200) (w : BitVec 56), s.coreRuns k.val = true ∧ (s.tcore k.val).ended = false ∧
       (s.tcore k.val).vNext = false ∧ s.injFires 8 k.val = false ∧
       ((∀ e ∈ (s.tcore k.val).fbuf, e.1 = (s.tcore k.val).pc → e.2 ≠ [])) ∧ bits w 52 52 = 1 ∧
       onlyFields w [(55, 53), (52, 52), (45, 41)] = true)
    ∧ (∃ (s : State) (k : Fin 1200) (w : BitVec 56), s.coreRuns k.val = true ∧ (s.tcore k.val).ended = false ∧
       (s.tcore k.val).vNext = false ∧ s.injFires 8 k.val = false ∧
       ((∀ e ∈ (s.tcore k.val).fbuf, e.1 = (s.tcore k.val).pc → e.2 ≠ [])) ∧
       let c := s.tcore k.val
       onlyFields w [(55, 51)] = true ∧ (c.sreg (bits w 55 51)).toNat % 64 = 0 ∧
       (c.sreg (bits w 55 51)).toNat + 64 ≤ 1048576 ∧
       s.coreHeld k.val c.here [((c.sreg (bits w 55 51)).toNat, 64)] [] false = false ∧ s.lk.lists = [] ∧
       s.injFires 1 k.val = false ∧ s.injFires 2 k.val = false ∧
       (s.readDA (coreStoreDA k.val (c.sreg (bits w 55 51)).toNat) 64).poison = false)
    ∧ (∃ (s : State) (k : Fin 1200) (w : BitVec 56), s.coreRuns k.val = true ∧ (s.tcore k.val).ended = false ∧
       (s.tcore k.val).vNext = false ∧ s.injFires 8 k.val = false ∧
       ((∀ e ∈ (s.tcore k.val).fbuf, e.1 = (s.tcore k.val).pc → e.2 ≠ [])) ∧
       onlyFields w [(55, 50), (49, 49), (48, 41)] = true ∧ bits w 48 41 = 0)
    ∧ (∃ (s : State) (k : Fin 1200) (w : BitVec 56), s.coreRuns k.val = true ∧ (s.tcore k.val).ended = false ∧
       (s.tcore k.val).vNext = false ∧ s.injFires 8 k.val = false ∧
       ((∀ e ∈ (s.tcore k.val).fbuf, e.1 = (s.tcore k.val).pc → e.2 ≠ [])) ∧
       let c := s.tcore k.val
       ∃ side, ∃ peer, ∃ sl, onlyFields w [(55, 50), (49, 49), (48, 41)] = true ∧ bits w 48 41 ≠ 0 ∧
       c.sluice (bits w 55 50) = some (side, peer, sl) ∧ side = bits w 49 49)
    ∧ (∃ (s : State) (k : Fin 1200) (w : BitVec 56), s.coreRuns k.val = true ∧ (s.tcore k.val).ended = false ∧
       (s.tcore k.val).vNext = false ∧ s.injFires 8 k.val = false ∧
       ((∀ e ∈ (s.tcore k.val).fbuf, e.1 = (s.tcore k.val).pc → e.2 ≠ [])) ∧
       let c := s.tcore k.val
       ∃ side, ∃ peer, ∃ sl, onlyFields w [(55, 50), (49, 49), (48, 41)] = true ∧ bits w 48 41 ≠ 0 ∧
       c.sluice (bits w 55 50) = some (side, peer, sl) ∧ side ≠ bits w 49 49)
    ∧ (∃ (s : State) (k : Fin 1200) (w : BitVec 56), s.coreRuns k.val = true ∧ (s.tcore k.val).ended = false ∧
       (s.tcore k.val).vNext = false ∧ s.injFires 8 k.val = false ∧
       ((∀ e ∈ (s.tcore k.val).fbuf, e.1 = (s.tcore k.val).pc → e.2 ≠ [])) ∧ onlyFields w [(55, 54)] = true ∧
       bits w 55 54 = 0)
    ∧ (∃ (s : State) (k : Fin 1200) (w : BitVec 56), s.coreRuns k.val = true ∧ (s.tcore k.val).ended = false ∧
       (s.tcore k.val).vNext = false ∧ s.injFires 8 k.val = false ∧
       ((∀ e ∈ (s.tcore k.val).fbuf, e.1 = (s.tcore k.val).pc → e.2 ≠ [])) ∧ onlyFields w [(55, 54)] = true ∧
       bits w 55 54 = 1)
    ∧ (∃ (s : State) (k : Fin 1200) (w : BitVec 56), s.coreRuns k.val = true ∧ (s.tcore k.val).ended = false ∧
       (s.tcore k.val).vNext = false ∧ s.injFires 8 k.val = false ∧
       ((∀ e ∈ (s.tcore k.val).fbuf, e.1 = (s.tcore k.val).pc → e.2 ≠ [])) ∧ onlyFields w [(55, 54)] = true ∧
       bits w 55 54 = 2)
    ∧ (∃ (s : State) (k : Fin 1200) (w : BitVec 56), s.coreRuns k.val = true ∧ (s.tcore k.val).ended = false ∧
       (s.tcore k.val).vNext = false ∧ s.injFires 8 k.val = false ∧
       ((∀ e ∈ (s.tcore k.val).fbuf, e.1 = (s.tcore k.val).pc → e.2 ≠ [])) ∧ onlyFields w [(55, 54)] = true ∧
       bits w 55 54 = 3)
    ∧ (∃ (s : State) (k : Fin 1200) (w : BitVec 56), s.coreRuns k.val = true ∧ (s.tcore k.val).ended = false ∧
       (s.tcore k.val).vNext = false ∧ s.injFires 8 k.val = false ∧
       ((∀ e ∈ (s.tcore k.val).fbuf, e.1 = (s.tcore k.val).pc → e.2 ≠ [])) ∧
       let b := (s.cluster (coreCluster k.val)).bars.get 0 (bits w 55 52)
       onlyFields w [(55, 52)] = true ∧ (bit b 12 && b.getLsbD (k.val % 12)) = false)
    ∧ (∃ (s : State) (k : Fin 1200) (w : BitVec 56), s.coreRuns k.val = true ∧ (s.tcore k.val).ended = false ∧
       (s.tcore k.val).vNext = false ∧ s.injFires 8 k.val = false ∧
       ((∀ e ∈ (s.tcore k.val).fbuf, e.1 = (s.tcore k.val).pc → e.2 ≠ [])) ∧
       let b := (s.cluster (coreCluster k.val)).bars.get 0 (bits w 55 52)
       onlyFields w [(55, 52)] = true ∧ (bit b 12 && b.getLsbD (k.val % 12)) = true ∧ s.coreDone k.val = true)
    ∧ (∃ (s : State) (k : Fin 1200) (w : BitVec 56), s.coreRuns k.val = true ∧ (s.tcore k.val).ended = false ∧
       (s.tcore k.val).vNext = false ∧ s.injFires 8 k.val = false ∧
       ((∀ e ∈ (s.tcore k.val).fbuf, e.1 = (s.tcore k.val).pc → e.2 ≠ [])) ∧
       let c := s.tcore k.val
       let src := (c.sreg (bits w 55 51)).toNat
       let dst := (c.sreg (bits w 45 41)).toNat
       let n := 64 * (bits w 40 33 + 1)
       onlyFields w [(55, 51), (50, 46), (45, 41), (40, 33), (32, 32), (31, 31)] = true ∧ src % 64 = 0 ∧
       dst % 16 = 0 ∧ src + n ≤ 1048576 ∧ dst + 16 ≤ 1048576 ∧ bits w 32 32 = 0 ∧
       s.coreHeld k.val c.here [(src, n)] [(dst, 16)] true = false ∧ s.injFires 1 k.val = false ∧
       s.injFires 2 k.val = false ∧ (s.readDA (coreStoreDA k.val src) n).poison = false)
    ∧ (∃ (s : State) (g : Signal), s.co.signals = [g] ∧ s.partOf (coreCluster g.dst) = none)
    ∧ (∃ (s : State) (p : Fin 16) (b : Fin 16) (k : Nat), s.barCores p.val b.val = [k] ∧
       (s.tcore k).bar = some b.val ∧ (s.co.bars.get {} (p.val * 16 + b.val)).pair = false) := by
  exact ⟨⟨tC 1199 { tR with ctr := [(7, 0x40)] }, 1199, tW [(7, 53), (1, 46)], by decide +kernel, by decide +kernel,
          by decide +kernel, by decide +kernel, by decide +kernel, by decide +kernel, by decide +kernel⟩,
    ⟨tC 1199 { tR with ctr := [(7, 0xFFFFFFFF)] }, 1199, tW [(7, 53), (1, 52), (31, 41)], by decide +kernel,
     by decide +kernel, by decide +kernel, by decide +kernel, by decide +kernel, by decide +kernel,
     by decide +kernel⟩,
    ⟨tC 1199 { tR with s := [(1, 0xFFFC0)] }, 1199, tW [(1, 51)], by decide +kernel, by decide +kernel,
     by decide +kernel, by decide +kernel, by decide +kernel, by decide +kernel, by decide +kernel,
     by decide +kernel, by decide +kernel, by decide +kernel, by decide +kernel, by decide +kernel,
     by decide +kernel⟩,
    ⟨tC 1199 tR, 1199, tW [(3, 50)], by decide +kernel, by decide +kernel, by decide +kernel, by decide +kernel,
     by decide +kernel, by decide +kernel, by decide +kernel⟩,
    ⟨tC 1199 { tR with slt := [(63, 3 + 4 * 1198 + 8192 * 9)], sem := [(63, 255)] }, 1199,
     tW [(63, 50), (1, 49), (255, 41)], by decide +kernel, by decide +kernel, by decide +kernel, by decide +kernel,
     by decide +kernel, 1, 1198, 9, by decide +kernel, by decide +kernel, by decide +kernel, by decide +kernel⟩,
    ⟨tC 1199 { tR with slt := [(63, 1 + 4 * 1198 + 8192 * 9)] }, 1199, tW [(63, 50), (1, 49), (255, 41)],
     by decide +kernel, by decide +kernel, by decide +kernel, by decide +kernel, by decide +kernel, 0, 1198, 9,
     by decide +kernel, by decide +kernel, by decide +kernel, by decide +kernel⟩,
    ⟨tC 1199 tR, 1199, tW [(0, 54)], by decide +kernel, by decide +kernel, by decide +kernel, by decide +kernel,
     by decide +kernel, by decide +kernel, by decide +kernel⟩,
    ⟨tC 1199 tR, 1199, tW [(1, 54)], by decide +kernel, by decide +kernel, by decide +kernel, by decide +kernel,
     by decide +kernel, by decide +kernel, by decide +kernel⟩,
    ⟨tC 1199 tR, 1199, tW [(2, 54)], by decide +kernel, by decide +kernel, by decide +kernel, by decide +kernel,
     by decide +kernel, by decide +kernel, by decide +kernel⟩,
    ⟨tC 1199 tR, 1199, tW [(3, 54)], by decide +kernel, by decide +kernel, by decide +kernel, by decide +kernel,
     by decide +kernel, by decide +kernel, by decide +kernel⟩,
    ⟨tC 1199 tR, 1199, tW [(15, 52)], by decide +kernel, by decide +kernel, by decide +kernel, by decide +kernel,
     by decide +kernel, by decide +kernel, by decide +kernel⟩,
    ⟨{ tC 1199 tR with co := { (tC 1199 tR).co with clu := [(99, { bars := [(15, 0x1800)] })] } }, 1199,
     tW [(15, 52)], by decide +kernel, by decide +kernel, by decide +kernel, by decide +kernel, by decide +kernel,
     by decide +kernel, by decide +kernel, by decide +kernel⟩,
    ⟨(tC 1199 { tR with s := [(1, 0x40), (2, 77), (3, 0x50)] }).writeDA (coreStoreDA 1199 0x40) (List.replicate 64 9),
     1199, tW [(1, 51), (2, 46), (3, 41)], by decide +kernel, by decide +kernel, by decide +kernel,
     by decide +kernel, by decide +kernel, by decide +kernel, by decide +kernel, by decide +kernel,
     by decide +kernel, by decide +kernel, by decide +kernel, by decide +kernel, by decide +kernel,
     by decide +kernel, by decide +kernel⟩,
    ⟨{ tU with co := { signals := [{ src := 4, dst := 1199, sl := 63, cnt := 255 }] } },
     { src := 4, dst := 1199, sl := 63, cnt := 255 }, by decide +kernel, by decide +kernel⟩,
    ⟨{ tU with co := { core := [(1199, { tR with bar := some 15 })], clu := [(99, { bars := [(15, 0x1800)] })], bars := [(15 * 16 + 15, { cl := 1 <<< 99 })] } },
     15, 15, 1199, by decide +kernel, by decide +kernel, by decide +kernel⟩⟩

/-- The hypotheses of TilesAndTransfers are met. -/
theorem met_tiles_and_transfers :
    (∃ (s : State) (k : Fin 1200) (w : BitVec 56), s.coreRuns k.val = true ∧ (s.tcore k.val).ended = false ∧
     (s.tcore k.val).vNext = false ∧ s.injFires 8 k.val = false ∧
     ((∀ e ∈ (s.tcore k.val).fbuf, e.1 = (s.tcore k.val).pc → e.2 ≠ [])) ∧
     onlyFields w [(55, 51), (49, 45), (44, 40), (39, 35)] = true ∧ pairShape (bits w 44 40) (bits w 39 35) = none)
    ∧ (∃ (s : State) (k : Fin 1200) (w : BitVec 56), s.coreRuns k.val = true ∧ (s.tcore k.val).ended = false ∧
       (s.tcore k.val).vNext = false ∧ s.injFires 8 k.val = false ∧
       ((∀ e ∈ (s.tcore k.val).fbuf, e.1 = (s.tcore k.val).pc → e.2 ≠ [])) ∧
       let c := s.tcore k.val
       let off := (c.sreg (bits w 55 51)).toNat
       onlyFields w [(55, 51), (49, 45), (44, 40), (39, 35)] = true ∧
       pairShape (bits w 44 40) (bits w 39 35) ≠ none ∧ off % 64 = 0 ∧
       off + 64 * tileLines (bits w 49 45 + 1) (bits w 44 40) (bits w 39 35) ≤ 1048576 ∧ c.staging = .free ∧
       c.stgQ = [])
    ∧ (∃ (s : State) (k : Fin 1200) (w : BitVec 56), s.coreRuns k.val = true ∧ (s.tcore k.val).ended = false ∧
       (s.tcore k.val).vNext = false ∧ s.injFires 8 k.val = false ∧
       ((∀ e ∈ (s.tcore k.val).fbuf, e.1 = (s.tcore k.val).pc → e.2 ≠ [])) ∧
       let c := s.tcore k.val
       onlyFields w [(55, 50), (49, 45), (44, 37), (36, 31), (30, 29), (28, 28), (27, 27), (26, 25), (24, 20)] = true ∧
       bits w 27 27 = 0 ∧ c.cur = none ∧ bits w 30 29 ≠ 3 ∧ bits w 26 25 ≠ 3 ∧ bits w 28 28 = 0 ∧ bits w 30 29 ≠ 2 ∧
       bits w 24 20 % 2 = 0)
    ∧ (∃ (s : State) (k : Fin 1200) (w : BitVec 56), s.coreRuns k.val = true ∧ (s.tcore k.val).ended = false ∧
       (s.tcore k.val).vNext = false ∧ s.injFires 8 k.val = false ∧
       ((∀ e ∈ (s.tcore k.val).fbuf, e.1 = (s.tcore k.val).pc → e.2 ≠ [])) ∧
       let c := s.tcore k.val
       ∃ (t : Nat × Nat × Nat),
       onlyFields w [(55, 50), (49, 45), (44, 37), (36, 31), (30, 29), (28, 28), (27, 27), (26, 25), (24, 20)] = true ∧
       bits w 27 27 = 0 ∧ c.cur = some t ∧ bits w 30 29 ≠ 3 ∧ bits w 26 25 ≠ 3 ∧ bits w 28 28 = 0 ∧
       bits w 30 29 ≠ 2 ∧ bits w 24 20 % 2 = 0 ∧ c.mq.length < 4 ∧
       let q : MmaReq := { w := w, sx := c.sreg (bits w 24 20), sx1 := 0, tileN := t.1, afmt := t.2.1, wfmt := t.2.2, pc := c.pc, pos := c.here }
       q.check = none)
    ∧ (∃ (s : State) (k : Fin 1200) (w : BitVec 56), s.coreRuns k.val = true ∧ (s.tcore k.val).ended = false ∧
       (s.tcore k.val).vNext = false ∧ s.injFires 8 k.val = false ∧
       ((∀ e ∈ (s.tcore k.val).fbuf, e.1 = (s.tcore k.val).pc → e.2 ≠ [])) ∧
       let c := s.tcore k.val
       let off := (c.sreg (bits w 55 51)).toNat
       onlyFields w [(55, 51), (50, 48), (47, 47), (46, 44), (43, 43)] = true ∧ off % 64 = 0 ∧ off + 64 ≤ 1048576 ∧
       (c.chan (bits w 50 48 + 8 * bits w 47 47)).length < 4)
    ∧ (∃ (s : State) (k : Fin 1200) (w : BitVec 56), s.coreRuns k.val = true ∧ (s.tcore k.val).ended = false ∧
       (s.tcore k.val).vNext = false ∧ s.injFires 8 k.val = false ∧
       ((∀ e ∈ (s.tcore k.val).fbuf, e.1 = (s.tcore k.val).pc → e.2 ≠ [])) ∧
       let c := s.tcore k.val
       let off := (c.sreg (bits w 55 51)).toNat
       onlyFields w [(55, 51), (50, 48), (47, 47), (46, 44), (43, 43)] = true ∧ off % 64 ≠ 0)
    ∧ (∃ (s : State) (k : Fin 1200) (r : WstgReq), (s.tcore k.val).staging = .loading r ∧
       (s.tcore k.val).stopped = false ∧
       let n := 64 * tileLines r.n r.afmt r.wfmt
       s.coreHeld k.val r.pos [(r.off, n)] [] false = false ∧ s.injFires 1 k.val = false ∧
       s.injFires 2 k.val = false ∧ (s.readDA (coreStoreDA k.val r.off) n).poison = false)
    ∧ (∃ (s : State) (k : Fin 1200) (q : MmaReq) (rest : List MmaReq) (t : Tile), (s.tcore k.val).mq = q :: rest ∧
       (s.tcore k.val).run = none ∧ (s.tcore k.val).stopped = false ∧ s.injFires 7 k.val = false ∧
       s.coreHeld k.val q.pos q.touch.reads q.touch.writes q.fin = false ∧ q.crest = true ∧
       (s.tcore k.val).staging = .staged t)
    ∧ (∃ (s : State) (k : Fin 1200) (q : MmaReq) (rest : List MmaReq) (t : Tile), (s.tcore k.val).mq = q :: rest ∧
       (s.tcore k.val).run = none ∧ (s.tcore k.val).stopped = false ∧ s.injFires 7 k.val = false ∧
       s.coreHeld k.val q.pos q.touch.reads q.touch.writes q.fin = false ∧ q.crest = false ∧
       (s.tcore k.val).active = some t)
    ∧ (∃ (s : State) (k : Fin 1200) (r : MmaRun), (s.tcore k.val).run = some r)
    ∧ (∃ (s : State) (k : Fin 1200) (ch : Fin 16) (x : Xfer) (i : Nat), (s.tcore k.val).chan ch.val = [x] ∧
       x.moved = true ∧ s.performed x.dests = true ∧ x.ctr = some i)
    ∧ (∃ (s : State) (k : Fin 1200) (ch : Fin 16) (x : Xfer) (db : List Byte) (eb : List Byte),
       (s.tcore k.val).chan ch.val = [x] ∧ x.moved = false ∧ x.push = false ∧ x.dsc = some db ∧ x.entry = some eb ∧
       s.xferRuns k.val = true ∧
       let e := entryOf eb
       let da := e.daAt x.rep
       let n := 64 * e.lines
       s.coreHeld k.val x.pos [] [] false = false ∧
       s.coreHeld k.val x.pos (ownRange k.val da n) (csRanges (e.csAt x.rep) n) true = false ∧ e.comma = false ∧
       s.rangeCheck (s.inContext k.val) false da e.lines = none ∧ s.recall da n = none ∧ s.hub.injArm = false) := by
  exact ⟨⟨tC 1199 tR, 1199, tW [(1, 51), (0, 40), (0, 35)], by decide +kernel, by decide +kernel, by decide +kernel,
          by decide +kernel, by decide +kernel, by decide +kernel, by decide +kernel⟩,
    ⟨tC 1199 tR, 1199, tW [(1, 51), (31, 45), (7, 40), (9, 35)], by decide +kernel, by decide +kernel,
     by decide +kernel, by decide +kernel, by decide +kernel, by decide +kernel, by decide +kernel,
     by decide +kernel, by decide +kernel, by decide +kernel, by decide +kernel⟩,
    ⟨tC 1199 tR, 1199, tW [(4, 20)], by decide +kernel, by decide +kernel, by decide +kernel, by decide +kernel,
     by decide +kernel, by decide +kernel, by decide +kernel, by decide +kernel, by decide +kernel,
     by decide +kernel, by decide +kernel, by decide +kernel, by decide +kernel⟩,
    ⟨tC 1199 { tR with cur := some (32, 7, 7), s := [(4, 0x40)] }, 1199,
     tW [(0, 50), (31, 45), (0, 37), (0, 31), (1, 29), (1, 25), (4, 20)], by decide +kernel, by decide +kernel,
     by decide +kernel, by decide +kernel, by decide +kernel, (32, 7, 7), by decide +kernel, by decide +kernel,
     by decide +kernel, by decide +kernel, by decide +kernel, by decide +kernel, by decide +kernel,
     by decide +kernel, by decide +kernel, by decide +kernel⟩,
    ⟨tC 1199 tR, 1199, tW [(1, 51), (7, 48), (1, 47), (7, 44), (1, 43)], by decide +kernel, by decide +kernel,
     by decide +kernel, by decide +kernel, by decide +kernel, by decide +kernel, by decide +kernel,
     by decide +kernel, by decide +kernel⟩,
    ⟨tC 1199 tR, 1199, tW [(2, 51), (7, 48), (1, 47), (7, 44), (1, 43)], by decide +kernel, by decide +kernel,
     by decide +kernel, by decide +kernel, by decide +kernel, by decide +kernel, by decide +kernel⟩,
    ⟨(tC 1199 { tR with staging := .loading { off := 0x40, n := 32, afmt := 7, wfmt := 7, pc := 3, w := 4 } }).writeDA (coreStoreDA 1199 0x40) (List.replicate 64 9),
     1199, { off := 0x40, n := 32, afmt := 7, wfmt := 7, pc := 3, w := 4 }, by decide +kernel, by decide +kernel,
     by decide +kernel, by decide +kernel, by decide +kernel, by decide +kernel⟩,
    ⟨tC 1199 { tR with staging := .staged { n := 32, afmt := 7, wfmt := 7, img := List.replicate 2048 1 }, mq := [{ w := tW [(0, 50), (0, 45), (0, 37), (1, 29), (1, 27), (1, 25), (4, 20)], sx := 0x40, sx1 := 0, tileN := 32, afmt := 7, wfmt := 7, pc := 3 }] },
     1199,
     { w := tW [(0, 50), (0, 45), (0, 37), (1, 29), (1, 27), (1, 25), (4, 20)], sx := 0x40, sx1 := 0, tileN := 32, afmt := 7, wfmt := 7, pc := 3 },
     [], { n := 32, afmt := 7, wfmt := 7, img := List.replicate 2048 1 }, by decide +kernel, by decide +kernel,
     by decide +kernel, by decide +kernel, by decide +kernel, by decide +kernel, by decide +kernel⟩,
    ⟨tC 1199 { tR with active := some { n := 32, afmt := 7, wfmt := 7, img := List.replicate 2048 1 }, mq := [{ w := tW [(1, 29), (1, 25), (4, 20)], sx := 0x40, sx1 := 0, tileN := 32, afmt := 7, wfmt := 7, pc := 3 }] },
     1199,
     { w := tW [(1, 29), (1, 25), (4, 20)], sx := 0x40, sx1 := 0, tileN := 32, afmt := 7, wfmt := 7, pc := 3 }, [],
     { n := 32, afmt := 7, wfmt := 7, img := List.replicate 2048 1 }, by decide +kernel, by decide +kernel,
     by decide +kernel, by decide +kernel, by decide +kernel, by decide +kernel, by decide +kernel⟩,
    ⟨tC 1199 { tR with run := some { req := { w := 0, sx := 0, sx1 := 0, tileN := 1, afmt := 7, wfmt := 7, pc := 3 }, writes := [(0x80, [1, 2])], flags := 9, k0 := true } },
     1199,
     { req := { w := 0, sx := 0, sx1 := 0, tileN := 1, afmt := 7, wfmt := 7, pc := 3 }, writes := [(0x80, [1, 2])], flags := 9, k0 := true },
     by decide +kernel⟩,
    ⟨tC 1199 { tR with xfer := [(15, [{ push := true, desc := 64, pc := 3, w := 4, moved := true, ctr := some 7 }])] },
     1199, 15, { push := true, desc := 64, pc := 3, w := 4, moved := true, ctr := some 7 }, 7, by decide +kernel,
     by decide +kernel, by decide +kernel, by decide +kernel⟩,
    ⟨tC 1199 { tR with xfer := [(15, [{ push := false, desc := 64, pc := 3, w := 4, dsc := some (List.replicate 64 0), entry := some (leBytes 8 0x2000 ++ leBytes 4 0xFFFC0 ++ leBytes 2 1 ++ leBytes 2 0 ++ leBytes 9 0) }])] },
     1199, 15,
     { push := false, desc := 64, pc := 3, w := 4, dsc := some (List.replicate 64 0), entry := some (leBytes 8 0x2000 ++ leBytes 4 0xFFFC0 ++ leBytes 2 1 ++ leBytes 2 0 ++ leBytes 9 0) },
     List.replicate 64 0, leBytes 8 0x2000 ++ leBytes 4 0xFFFC0 ++ leBytes 2 1 ++ leBytes 2 0 ++ leBytes 9 0,
     by decide +kernel, by decide +kernel, by decide +kernel, by decide +kernel, by decide +kernel,
     by decide +kernel, by decide +kernel, by decide +kernel, by decide +kernel, by decide +kernel,
     by decide +kernel, by decide +kernel⟩⟩

/-- The hypotheses of VectorSlot are met. -/
theorem met_vector_slot :
    (∃ (s : State) (k : Fin 1200) (w : BitVec 56), s.coreRuns k.val = true ∧ (s.tcore k.val).ended = false ∧
     (s.tcore k.val).vNext = false ∧ s.injFires 7 k.val = false ∧
     onlyFields w ([fVD, fPG, fRM, fSUB] ++ vopSources (vSub w)) = true ∧ vSub w ≤ 0x10)
    ∧ (∃ (s : State) (k : Fin 1200) (w : BitVec 56), s.coreRuns k.val = true ∧ (s.tcore k.val).ended = false ∧
       (s.tcore k.val).vNext = false ∧ s.injFires 7 k.val = false ∧
       onlyFields w ([fVD, fPG, fRM, fSUB] ++ vopSources (vSub w)) = true ∧ 0x10 < vSub w)
    ∧ (∃ (s : State) (k : Fin 1200) (w : BitVec 56), s.coreRuns k.val = true ∧ (s.tcore k.val).ended = false ∧
       (s.tcore k.val).vNext = false ∧ s.injFires 7 k.val = false ∧ onlyFields w [fVA, fVB, fPG, fPD, fSUB] = true ∧
       vSub w ≤ 3)
    ∧ (∃ (s : State) (k : Fin 1200) (w : BitVec 56), s.coreRuns k.val = true ∧ (s.tcore k.val).ended = false ∧
       (s.tcore k.val).vNext = false ∧ s.injFires 7 k.val = false ∧ onlyFields w [fVD, fVA, fVB, fPG, fSUB] = true ∧
       vSub w = 0)
    ∧ (∃ (s : State) (k : Fin 1200) (w : BitVec 56), s.coreRuns k.val = true ∧ (s.tcore k.val).ended = false ∧
       (s.tcore k.val).vNext = false ∧ s.injFires 7 k.val = false ∧
       onlyFields w [fVD, fVA, fVC, fPG, fRM, fSUB] = true ∧ vSub w = 0 ∧ bits w 50 46 + bits w 40 36 ≤ 31)
    ∧ (∃ (s : State) (k : Fin 1200) (w : BitVec 56), s.coreRuns k.val = true ∧ (s.tcore k.val).ended = false ∧
       (s.tcore k.val).vNext = false ∧ s.injFires 7 k.val = false ∧ onlyFields w [fVD, fPG, fSUB, fVA] = true ∧
       vSub w = 0)
    ∧ (∃ (s : State) (k : Fin 1200) (w : BitVec 56), s.coreRuns k.val = true ∧ (s.tcore k.val).ended = false ∧
       (s.tcore k.val).vNext = false ∧ s.injFires 7 k.val = false ∧
       onlyFields w [(48, 46), (43, 41), fPD, fSUB] = true ∧ vSub w = 0)
    ∧ (∃ (s : State) (k : Fin 1200) (w : BitVec 56), s.coreRuns k.val = true ∧ (s.tcore k.val).ended = false ∧
       (s.tcore k.val).vNext = false ∧ s.injFires 7 k.val = false ∧
       onlyFields w [(48, 46), (43, 41), fPD, fSUB] = true ∧ vSub w = 1)
    ∧ (∃ (s : State) (k : Fin 1200) (w : BitVec 56), s.coreRuns k.val = true ∧ (s.tcore k.val).ended = false ∧
       (s.tcore k.val).vNext = false ∧ s.injFires 7 k.val = false ∧
       onlyFields w [(48, 46), (43, 41), fPD, fSUB] = true ∧ vSub w = 2)
    ∧ (∃ (s : State) (k : Fin 1200) (w : BitVec 56), s.coreRuns k.val = true ∧ (s.tcore k.val).ended = false ∧
       (s.tcore k.val).vNext = false ∧ s.injFires 7 k.val = false ∧
       onlyFields w [(48, 46), (43, 41), fPD, fSUB] = true ∧ vSub w = 3)
    ∧ (∃ (s : State) (k : Fin 1200) (w : BitVec 56), s.coreRuns k.val = true ∧ (s.tcore k.val).ended = false ∧
       (s.tcore k.val).vNext = false ∧ s.injFires 7 k.val = false ∧
       onlyFields w [(48, 46), (43, 41), fPD, fSUB] = true ∧ 3 < vSub w)
    ∧ (∃ (s : State) (k : Fin 1200) (w : BitVec 56), s.coreRuns k.val = true ∧ (s.tcore k.val).ended = false ∧
       (s.tcore k.val).vNext = false ∧ s.injFires 7 k.val = false ∧
       let s1 := s.updCore k.val fun x => { x with sOld := x.s }
       let c := s1.tcore k.val
       onlyFields w [fVD, fVA, fVC, fPG, (19, 0)] = true ∧ bits w 40 36 = 0 ∧
       let off := csAddr (c.sregV (bits w 50 46)) (sbits w 19 0)
       off % vecAlign 0 = 0 ∧ off + vecBytes 0 ≤ 1048576 ∧
       s1.coreHeld k.val c.here (laneRanges 0 off (c.laneOn w)) [] false = false ∧ s1.injFires 1 k.val = false ∧
       s1.injFires 2 k.val = false ∧
       ((∀ x ∈ laneRanges 0 off (c.laneOn w), (s1.readDA (coreStoreDA k.val x.1) x.2).poison = false)))
    ∧ (∃ (s : State) (k : Fin 1200) (w : BitVec 56), s.coreRuns k.val = true ∧ (s.tcore k.val).ended = false ∧
       (s.tcore k.val).vNext = false ∧ s.injFires 7 k.val = false ∧ ldsFmt (bits w 40 36) = false ∧
       onlyFields w [fVD, fVA, fVC, fPG, (19, 0)] = true)
    ∧ (∃ (s : State) (k : Fin 1200) (w : BitVec 56), s.coreRuns k.val = true ∧ (s.tcore k.val).ended = false ∧
       (s.tcore k.val).vNext = false ∧ s.injFires 7 k.val = false ∧
       let s1 := s.updCore k.val fun x => { x with sOld := x.s }
       let c := s1.tcore k.val
       onlyFields w [fVD, fVA, fVC, fPG, (32, 32), (31, 30), (19, 0)] = true ∧ bits w 40 36 = 0 ∧
       let off := csAddr (c.sregV (bits w 50 46)) (sbits w 19 0)
       off % vecAlign 0 = 0 ∧ off + vecBytes 0 ≤ 1048576 ∧
       s1.coreHeld k.val c.here [] (laneRanges 0 off (c.laneOn w)) true = false)
    ∧ (∃ (s : State) (k : Fin 1200), s.coreRuns k.val = true ∧ (s.tcore k.val).ended = false ∧
       (s.tcore k.val).vNext = false ∧ s.injFires 7 k.val = false) := by
  exact ⟨⟨tC 1199 tR, 1199, tW [(3, 51), (1, 46), (2, 41), (1, 33), (3, 28)], by decide +kernel, by decide +kernel,
          by decide +kernel, by decide +kernel, by decide +kernel, by decide +kernel⟩,
    ⟨tC 1199 tR, 1199, tW [(3, 51), (1, 46), (17, 22)], by decide +kernel, by decide +kernel, by decide +kernel,
     by decide +kernel, by decide +kernel, by decide +kernel⟩,
    ⟨tC 1199 tR, 1199, tW [(1, 46), (2, 41), (1, 33), (7, 30), (3, 22)], by decide +kernel, by decide +kernel,
     by decide +kernel, by decide +kernel, by decide +kernel, by decide +kernel⟩,
    ⟨tC 1199 tR, 1199, tW [(1, 51), (1, 46), (2, 41), (1, 33)], by decide +kernel, by decide +kernel,
     by decide +kernel, by decide +kernel, by decide +kernel, by decide +kernel⟩,
    ⟨tC 1199 tR, 1199, tW [(3, 51), (1, 46), (30, 36), (1, 33)], by decide +kernel, by decide +kernel,
     by decide +kernel, by decide +kernel, by decide +kernel, by decide +kernel, by decide +kernel⟩,
    ⟨tC 1199 tR, 1199, tW [(3, 51), (1, 46), (1, 33)], by decide +kernel, by decide +kernel, by decide +kernel,
     by decide +kernel, by decide +kernel, by decide +kernel⟩,
    ⟨tC 1199 tR, 1199, tW [(1, 46), (2, 41), (3, 30)], by decide +kernel, by decide +kernel, by decide +kernel,
     by decide +kernel, by decide +kernel, by decide +kernel⟩,
    ⟨tC 1199 tR, 1199, tW [(1, 46), (2, 41), (3, 30), (1, 22)], by decide +kernel, by decide +kernel,
     by decide +kernel, by decide +kernel, by decide +kernel, by decide +kernel⟩,
    ⟨tC 1199 tR, 1199, tW [(1, 46), (2, 41), (1, 30), (2, 22)], by decide +kernel, by decide +kernel,
     by decide +kernel, by decide +kernel, by decide +kernel, by decide +kernel⟩,
    ⟨tC 1199 tR, 1199, tW [(0, 46), (2, 41), (7, 30), (3, 22)], by decide +kernel, by decide +kernel,
     by decide +kernel, by decide +kernel, by decide +kernel, by decide +kernel⟩,
    ⟨tC 1199 tR, 1199, tW [(1, 46), (4, 22)], by decide +kernel, by decide +kernel, by decide +kernel,
     by decide +kernel, by decide +kernel, by decide +kernel⟩,
    ⟨(tC 1199 { tR with s := [(1, 0xFFF00)] }).writeDA (coreStoreDA 1199 0xFFF00) [1, 2, 3, 4], 1199,
     tW [(3, 51), (1, 46), (1, 33)], by decide +kernel, by decide +kernel, by decide +kernel, by decide +kernel,
     by decide +kernel, by decide +kernel, by decide +kernel, by decide +kernel, by decide +kernel,
     by decide +kernel, by decide +kernel, by decide +kernel⟩,
    ⟨tC 1199 tR, 1199, tW [(3, 51), (1, 46), (5, 36), (1, 33)], by decide +kernel, by decide +kernel,
     by decide +kernel, by decide +kernel, by decide +kernel, by decide +kernel⟩,
    ⟨tC 1199 { tR with s := [(1, 0xFFF00)] }, 1199, tW [(1, 51), (1, 46), (0, 33), (1, 32)], by decide +kernel,
     by decide +kernel, by decide +kernel, by decide +kernel, by decide +kernel, by decide +kernel,
     by decide +kernel, by decide +kernel, by decide +kernel⟩,
    ⟨tC 1199 { tR with npc := some 0x40 }, 1199, by decide +kernel, by decide +kernel, by decide +kernel,
     by decide +kernel⟩⟩

/-- The hypotheses of FetchAndExceptions are met. -/
theorem met_fetch_and_exceptions :
    (∃ (s : State) (k : Fin 1200), (s.tcore k.val).fstop = false ∧ (s.tcore k.val).stopped = false ∧
     (s.tcore k.val).stream ≠ none ∧ (s.tcore k.val).fbuf.length ≤ 60 ∧ (s.tcore k.val).fpc < 8388608 ∧
     s.hub.injArm = false ∧
     let c := s.tcore k.val
     let n := (64 - c.fpc % 64) / 16
     let r := s.readDA (cisternDA (coreCluster k.val) c.fpc) (16 * n)
     r.poison = true)
    ∧ (∃ (s : State) (k : Fin 1200), (s.tcore k.val).fstop = false ∧ (s.tcore k.val).stopped = false ∧
       (s.tcore k.val).stream ≠ none ∧ (s.tcore k.val).fbuf.length ≤ 60 ∧ (s.tcore k.val).fpc < 8388608 ∧
       s.hub.injArm = false ∧
       let c := s.tcore k.val
       let n := (64 - c.fpc % 64) / 16
       let r := s.readDA (cisternDA (coreCluster k.val) c.fpc) (16 * n)
       r.poison = false)
    ∧ (∃ (s : State) (k : Fin 1200), (((s.tcore k.val).stream = none ∨ (s.tcore k.val).stopped = true)))
    ∧ (∃ (s : State) (k : Fin 1200), (s.tcore k.val).defq = [])
    ∧ (∃ (s : State) (k : Fin 1200) (e : DeferExc) (rest : List DeferExc), (s.tcore k.val).defq = e :: rest ∧
       e.code = 9)
    ∧ (∃ (s : State) (k : Nat), (s.tcore k).exc.v = false ∧ s.partOf (coreCluster k) = none)
    ∧ (∃ (s : State) (k : Nat), (s.tcore k).exc.v = true) := by
  exact ⟨⟨{ (tC 1199 { tR with stream := some 3, fpc := 0x7FFFF0 }) with mem := tU.mem.setPoison (cisternDA 99 0x7FFFF0) },
          1199, by decide +kernel, by decide +kernel, by decide +kernel, by decide +kernel, by decide +kernel,
          by decide +kernel, by decide +kernel⟩,
    ⟨(tC 1199 { tR with stream := some 3, fpc := 0x10 }).writeDA (cisternDA 99 0x20) [0, 0, 0, 0, 0, 0, 0, 2], 1199,
     by decide +kernel, by decide +kernel, by decide +kernel, by decide +kernel, by decide +kernel,
     by decide +kernel, by decide +kernel⟩,
    ⟨tC 1199 tR, 1199, by decide +kernel⟩,
    ⟨tC 1199 tR, 1199, by decide +kernel⟩,
    ⟨tC 1199 { tR with defq := [{ code := 9, pc := 16, w := 0x8000000000000001, addr := 3 }, { code := 4, pc := 3, w := 4 }] },
     1199, { code := 9, pc := 16, w := 0x8000000000000001, addr := 3 }, [{ code := 4, pc := 3, w := 4 }],
     by decide +kernel, by decide +kernel⟩,
    ⟨tC 1199 tR, 1199, by decide +kernel, by decide +kernel⟩,
    ⟨tC 1199 { tR with exc := { v := true } }, 1199, by decide +kernel⟩⟩

/-- The hypotheses of TaskCommands are met. -/
theorem met_task_commands :
    (∃ (s : State) (c : KCmd) (pr : Prog), c.a0.toNat < 512 ∧ 64 ≤ c.a2.toNat ∧ c.a2.toNat ≤ 65600 ∧
     fromMirror c = false ∧ s.recall c.a1.toNat c.a2.toNat = none ∧
     let s1 := s.touch c.a1.toNat c.a2.toNat
     let r := s1.readDA c.a1.toNat c.a2.toNat
     r.bad = none ∧ progOf r.data c.a2.toNat = some pr ∧ s1.cc.progs.find c.a0.toNat = none ∧
     s1.progBytes + pr.code.length ≤ 524288)
    ∧ (∃ (s : State) (c : KCmd) (pr : Prog), c.a0.toNat < 512 ∧ 64 ≤ c.a2.toNat ∧ c.a2.toNat ≤ 65600 ∧
       fromMirror c = false ∧ s.recall c.a1.toNat c.a2.toNat = none ∧
       let s1 := s.touch c.a1.toNat c.a2.toNat
       let r := s1.readDA c.a1.toNat c.a2.toNat
       r.bad = none ∧ progOf r.data c.a2.toNat = some pr ∧ s1.cc.progs.find c.a0.toNat ≠ none)
    ∧ (∃ (c : KCmd), 512 ≤ c.a0.toNat)
    ∧ (∃ (s : State) (c : KCmd), s.cc.progs.find c.a0.toNat = none)
    ∧ (∃ (s : State) (c : KCmd), s.cc.progs.find c.a0.toNat ≠ none ∧ s.progUsed c.a0.toNat = false)
    ∧ (∃ (s : State) (c : KCmd), s.cc.progs.find (c.a0.toNat % 512) = none ∧ (s.queue c.q.val).head = none)
    ∧ (∃ (s : State) (c : KCmd) (pr : Prog) (n : Nat), s.cc.progs.find (c.a0.toNat % 512) = some pr ∧
       64 ≤ pr.frame ∧ c.a2 = 0 ∧ bit c.a0 16 = false ∧ (s.queue c.q.val).head = none ∧
       s.placePair (s.queue c.q.val).part.toNat pr.frame = some n)
    ∧ (∃ (s : State), s.cc.restarts = [])
    ∧ (∃ (s : State) (c : KCmd), c.a0.toNat < 8 ∧ c.a1.toNat < 32 ∧ s.task c.a0.toNat c.a1.toNat = none)
    ∧ (∃ (s : State) (c : KCmd) (t : Task), c.a0.toNat < 8 ∧ c.a1.toNat < 32 ∧
       s.task c.a0.toNat c.a1.toNat = some t ∧ t.standing = true ∧ s.taskReady c.a0.toNat t = false)
    ∧ (∃ (s : State) (n : Fin 8) (sl : Nat) (t : Task), (s.pair n.val).run = some sl ∧ s.task n.val sl = some t ∧
       t.stop = []) := by
  exact ⟨⟨tU.writeDA 0x2000 (leBytes 4 4 ++ leBytes 4 0 ++ [1, 1, 3] ++ List.replicate 53 0 ++ [1, 2, 3, 4]),
          { tK with a0 := 511, a1 := 0x2000, a2 := 68 },
          { entry := 0, frame := 4096, maxh := 1, standingOk := true, restart := true, code := [1, 2, 3, 4] },
          by decide +kernel, by decide +kernel, by decide +kernel, by decide +kernel, by decide +kernel,
          by decide +kernel, by decide +kernel, by decide +kernel, by decide +kernel⟩,
    ⟨(tG tTask).writeDA 0x2000 (leBytes 4 4 ++ leBytes 4 0 ++ [1, 1, 3] ++ List.replicate 53 0 ++ [1, 2, 3, 4]),
     { tK with a0 := 511, a1 := 0x2000, a2 := 68 },
     { entry := 0, frame := 4096, maxh := 1, standingOk := true, restart := true, code := [1, 2, 3, 4] },
     by decide +kernel, by decide +kernel, by decide +kernel, by decide +kernel, by decide +kernel,
     by decide +kernel, by decide +kernel, by decide +kernel⟩,
    ⟨{ tK with a0 := 512 }, by decide +kernel⟩,
    ⟨tU, { tK with a0 := 511 }, by decide +kernel⟩,
    ⟨{ tG tTask with cc := { pairs := [], progs := [(511, tProg)] } }, { tK with a0 := 511 }, by decide +kernel,
     by decide +kernel⟩,
    ⟨tU, { tK with a0 := 511 }, by decide +kernel, by decide +kernel⟩,
    ⟨{ tG tTask with sc := { parts := [(0, { st := .running })] } }, { tK with a0 := 511 }, tProg, 7,
     by decide +kernel, by decide +kernel, by decide +kernel, by decide +kernel, by decide +kernel,
     by decide +kernel⟩,
    ⟨tG tTask, by decide +kernel⟩,
    ⟨tG tTask, { tK with a0 := 7, a1 := 30 }, by decide +kernel, by decide +kernel, by decide +kernel⟩,
    ⟨tG { tTask with standing := true, wait := .sleep 7 }, { tK with a0 := 7, a1 := 31 },
     { tTask with standing := true, wait := .sleep 7 }, by decide +kernel, by decide +kernel, by decide +kernel,
     by decide +kernel, by decide +kernel⟩,
    ⟨{ tG tTask with cc := { pairs := [(7, { parts := 1, tasks := [(31, tTask)], run := some 31 })], progs := [(511, tProg)] } },
     7, 31, tTask, by decide +kernel, by decide +kernel, by decide +kernel⟩⟩

/-- The hypotheses of ControlRegisters are met. -/
theorem met_control_registers :
    (∃ (s : State) (n : Fin 8) (sl : Nat) (t : Task) (pr : Prog) (w : BitVec 26), s.pairRuns n.val = true ∧
     s.current n.val = some sl ∧ s.task n.val sl = some t ∧ s.cc.progs.find t.prog = some pr ∧
     t.pc + 4 ≤ pr.code.length ∧ s.injFires 9 n.val = false ∧
     let only := fun (fs : List (Nat × Nat)) => (List.range 26).all fun i => !bit w i || fs.any fun f => decide (f.2 ≤ i ∧ i ≤ f.1)
     only [cRD, cRA, cRB, (3, 0)] = false)
    ∧ (∃ (s : State) (n : Fin 8) (sl : Nat) (t : Task) (pr : Prog) (w : BitVec 26), s.pairRuns n.val = true ∧
       s.current n.val = some sl ∧ s.task n.val sl = some t ∧ s.cc.progs.find t.prog = some pr ∧
       t.pc + 4 ≤ pr.code.length ∧ s.injFires 9 n.val = false ∧
       let only := fun (fs : List (Nat × Nat)) => (List.range 26).all fun i => !bit w i || fs.any fun f => decide (f.2 ≤ i ∧ i ≤ f.1)
       let a := t.reg (iRA w)
       ∃ v, only [cRD, cRA, cRB, (3, 0)] = true ∧ aluOp (iSub w) a (t.reg (iRB w)) = some v)
    ∧ (∃ (s : State) (n : Fin 8) (sl : Nat) (t : Task) (pr : Prog) (w : BitVec 26), s.pairRuns n.val = true ∧
       s.current n.val = some sl ∧ s.task n.val sl = some t ∧ s.cc.progs.find t.prog = some pr ∧
       t.pc + 4 ≤ pr.code.length ∧ s.injFires 9 n.val = false ∧
       let only := fun (fs : List (Nat × Nat)) => (List.range 26).all fun i => !bit w i || fs.any fun f => decide (f.2 ≤ i ∧ i ≤ f.1)
       only [cRD, cRA, cIMM] = true)
    ∧ (∃ (s : State) (n : Fin 8) (sl : Nat) (t : Task) (pr : Prog) (w : BitVec 26), s.pairRuns n.val = true ∧
       s.current n.val = some sl ∧ s.task n.val sl = some t ∧ s.cc.progs.find t.prog = some pr ∧
       t.pc + 4 ≤ pr.code.length ∧ s.injFires 9 n.val = false ∧
       let only := fun (fs : List (Nat × Nat)) => (List.range 26).all fun i => !bit w i || fs.any fun f => decide (f.2 ≤ i ∧ i ≤ f.1)
       let a := t.reg (iRA w)
       ∃ v, only [cRD, cRA, (7, 0)] = true ∧ cbits w 7 6 ≠ 3 ∧
       aluOp (6 + cbits w 7 6) a (BitVec.ofNat 64 (cbits w 5 0)) = some v)
    ∧ (∃ (s : State) (n : Fin 8) (sl : Nat) (t : Task) (pr : Prog) (w : BitVec 26), s.pairRuns n.val = true ∧
       s.current n.val = some sl ∧ s.task n.val sl = some t ∧ s.cc.progs.find t.prog = some pr ∧
       t.pc + 4 ≤ pr.code.length ∧ s.injFires 9 n.val = false ∧
       let only := fun (fs : List (Nat × Nat)) => (List.range 26).all fun i => !bit w i || fs.any fun f => decide (f.2 ≤ i ∧ i ≤ f.1)
       only [cRD, cIMM] = true)
    ∧ (∃ (s : State) (n : Fin 8) (sl : Nat) (t : Task) (pr : Prog) (w : BitVec 26), s.pairRuns n.val = true ∧
       s.current n.val = some sl ∧ s.task n.val sl = some t ∧ s.cc.progs.find t.prog = some pr ∧
       t.pc + 4 ≤ pr.code.length ∧ s.injFires 9 n.val = false ∧
       let only := fun (fs : List (Nat × Nat)) => (List.range 26).all fun i => !bit w i || fs.any fun f => decide (f.2 ≤ i ∧ i ≤ f.1)
       only [cRD, (17, 16), cIMM] = true)
    ∧ (∃ (s : State) (n : Fin 8) (sl : Nat) (t : Task) (pr : Prog) (w : BitVec 26), s.pairRuns n.val = true ∧
       s.current n.val = some sl ∧ s.task n.val sl = some t ∧ s.cc.progs.find t.prog = some pr ∧
       t.pc + 4 ≤ pr.code.length ∧ s.injFires 9 n.val = false ∧
       let only := fun (fs : List (Nat × Nat)) => (List.range 26).all fun i => !bit w i || fs.any fun f => decide (f.2 ≤ i ∧ i ≤ f.1)
       only [cRD] = true)
    ∧ (∃ (s : State) (n : Fin 8) (sl : Nat) (t : Task) (pr : Prog) (w : BitVec 26), s.pairRuns n.val = true ∧
       s.current n.val = some sl ∧ s.task n.val sl = some t ∧ s.cc.progs.find t.prog = some pr ∧
       t.pc + 4 ≤ pr.code.length ∧ s.injFires 9 n.val = false ∧
       let only := fun (fs : List (Nat × Nat)) => (List.range 26).all fun i => !bit w i || fs.any fun f => decide (f.2 ≤ i ∧ i ≤ f.1)
       let a := t.reg (iRA w)
       let off := (a + immS w).toNat
       only [cRD, cRA, cIMM] = true ∧ off % 8 = 0 ∧ off + 8 ≤ pr.frame)
    ∧ (∃ (s : State) (n : Fin 8) (sl : Nat) (t : Task) (pr : Prog) (w : BitVec 26), s.pairRuns n.val = true ∧
       s.current n.val = some sl ∧ s.task n.val sl = some t ∧ s.cc.progs.find t.prog = some pr ∧
       t.pc + 4 ≤ pr.code.length ∧ s.injFires 9 n.val = false ∧
       let only := fun (fs : List (Nat × Nat)) => (List.range 26).all fun i => !bit w i || fs.any fun f => decide (f.2 ≤ i ∧ i ≤ f.1)
       let a := t.reg (iRA w)
       let off := (a + immS w).toNat
       only [cRD, cRA, cIMM] = true ∧ off % 4 = 0 ∧ off + 4 ≤ pr.frame)
    ∧ (∃ (s : State) (n : Fin 8) (sl : Nat) (t : Task) (pr : Prog) (w : BitVec 26), s.pairRuns n.val = true ∧
       s.current n.val = some sl ∧ s.task n.val sl = some t ∧ s.cc.progs.find t.prog = some pr ∧
       t.pc + 4 ≤ pr.code.length ∧ s.injFires 9 n.val = false ∧
       let only := fun (fs : List (Nat × Nat)) => (List.range 26).all fun i => !bit w i || fs.any fun f => decide (f.2 ≤ i ∧ i ≤ f.1)
       let a := t.reg (iRA w)
       let off := (a + immS w).toNat
       only [cRD, cRA, cIMM] = true ∧ off % 8 ≠ 0)
    ∧ (∃ (s : State) (n : Fin 8) (sl : Nat) (t : Task) (pr : Prog) (w : BitVec 26), s.pairRuns n.val = true ∧
       s.current n.val = some sl ∧ s.task n.val sl = some t ∧ s.cc.progs.find t.prog = some pr ∧
       t.pc + 4 ≤ pr.code.length ∧ s.injFires 9 n.val = false ∧
       let only := fun (fs : List (Nat × Nat)) => (List.range 26).all fun i => !bit w i || fs.any fun f => decide (f.2 ≤ i ∧ i ≤ f.1)
       let a := t.reg (iRA w)
       let off := (a + immS w).toNat
       only [cRD, cRA, cIMM] = true ∧ off % 4 = 0 ∧ pr.frame < off + 4)
    ∧ (∃ (s : State) (n : Fin 8) (sl : Nat) (t : Task) (pr : Prog) (w : BitVec 26), s.pairRuns n.val = true ∧
       s.current n.val = some sl ∧ s.task n.val sl = some t ∧ s.cc.progs.find t.prog = some pr ∧
       t.pc + 4 ≤ pr.code.length ∧ s.injFires 9 n.val = false ∧
       let only := fun (fs : List (Nat × Nat)) => (List.range 26).all fun i => !bit w i || fs.any fun f => decide (f.2 ≤ i ∧ i ≤ f.1)
       let a := t.reg (iRA w)
       ∃ x,
       x ∈ [(Instr.beq n w, 1), (Instr.bne n w, 2), (Instr.blt n w, 3), (Instr.bge n w, 4), (Instr.bltu n w, 5), (Instr.bgeu n w, 6)] ∧
       only [cRD, cRA, cIMM] = true ∧ condHolds x.2 (t.reg (iRD w)) a = false)
    ∧ (∃ (s : State) (n : Fin 8) (sl : Nat) (t : Task) (pr : Prog) (w : BitVec 26), s.pairRuns n.val = true ∧
       s.current n.val = some sl ∧ s.task n.val sl = some t ∧ s.cc.progs.find t.prog = some pr ∧
       t.pc + 4 ≤ pr.code.length ∧ s.injFires 9 n.val = false ∧
       let only := fun (fs : List (Nat × Nat)) => (List.range 26).all fun i => !bit w i || fs.any fun f => decide (f.2 ≤ i ∧ i ≤ f.1)
       let a := t.reg (iRA w)
       let tgt := (t.pc : Int) + 4 * toSigned 16 (iImm w)
       ∃ x,
       x ∈ [(Instr.beq n w, 1), (Instr.bne n w, 2), (Instr.blt n w, 3), (Instr.bge n w, 4), (Instr.bltu n w, 5), (Instr.bgeu n w, 6)] ∧
       only [cRD, cRA, cIMM] = true ∧ condHolds x.2 (t.reg (iRD w)) a = true ∧ targetExc pr.code.length tgt = none)
    ∧ (∃ (s : State) (n : Fin 8) (sl : Nat) (t : Task) (pr : Prog) (w : BitVec 26), s.pairRuns n.val = true ∧
       s.current n.val = some sl ∧ s.task n.val sl = some t ∧ s.cc.progs.find t.prog = some pr ∧
       t.pc + 4 ≤ pr.code.length ∧ s.injFires 9 n.val = false ∧
       let only := fun (fs : List (Nat × Nat)) => (List.range 26).all fun i => !bit w i || fs.any fun f => decide (f.2 ≤ i ∧ i ≤ f.1)
       let a := t.reg (iRA w)
       let tgt := (t.pc : Int) + 4 * toSigned 16 (iImm w)
       ∃ x,
       x ∈ [(Instr.beq n w, 1), (Instr.bne n w, 2), (Instr.blt n w, 3), (Instr.bge n w, 4), (Instr.bltu n w, 5), (Instr.bgeu n w, 6)] ∧
       only [cRD, cRA, cIMM] = true ∧ ∃ e, condHolds x.2 (t.reg (iRD w)) a = true ∧
       targetExc pr.code.length tgt = some e)
    ∧ (∃ (s : State) (n : Fin 8) (sl : Nat) (t : Task) (pr : Prog) (w : BitVec 26), s.pairRuns n.val = true ∧
       s.current n.val = some sl ∧ s.task n.val sl = some t ∧ s.cc.progs.find t.prog = some pr ∧
       t.pc + 4 ≤ pr.code.length ∧ s.injFires 9 n.val = false ∧
       let only := fun (fs : List (Nat × Nat)) => (List.range 26).all fun i => !bit w i || fs.any fun f => decide (f.2 ≤ i ∧ i ≤ f.1)
       let j := (t.pc : Int) + 4 * toSigned 21 (cbits w 20 0)
       only [cRD, (20, 0)] = true ∧ targetExc pr.code.length j = none)
    ∧ (∃ (s : State) (n : Fin 8) (sl : Nat) (t : Task) (pr : Prog) (w : BitVec 26), s.pairRuns n.val = true ∧
       s.current n.val = some sl ∧ s.task n.val sl = some t ∧ s.cc.progs.find t.prog = some pr ∧
       t.pc + 4 ≤ pr.code.length ∧ s.injFires 9 n.val = false ∧
       let only := fun (fs : List (Nat × Nat)) => (List.range 26).all fun i => !bit w i || fs.any fun f => decide (f.2 ≤ i ∧ i ≤ f.1)
       let a := t.reg (iRA w)
       only [cRA] = true ∧ a.toNat % 4 = 0 ∧ a.toNat < pr.code.length)
    ∧ (∃ (s : State) (n : Fin 8) (sl : Nat) (t : Task) (pr : Prog), s.pairRuns n.val = true ∧
       s.current n.val = some sl ∧ s.task n.val sl = some t ∧ s.cc.progs.find t.prog = some pr ∧
       t.pc + 4 ≤ pr.code.length ∧ s.injFires 9 n.val = false) := by
  exact ⟨⟨tG tTask, 7, 31, tTask, tProg, 0x10, by decide +kernel, by decide +kernel, by decide +kernel,
          by decide +kernel, by decide +kernel, by decide +kernel, by decide +kernel⟩,
    ⟨tG tTask, 7, 31, tTask, tProg, tI [(7, 21), (3, 16), (2, 11), (9, 0)], by decide +kernel, by decide +kernel,
     by decide +kernel, by decide +kernel, by decide +kernel, by decide +kernel, 1, by decide +kernel,
     by decide +kernel⟩,
    ⟨tG tTask, 7, 31, tTask, tProg, tI [(7, 21), (3, 16), (0x8000, 0)], by decide +kernel, by decide +kernel,
     by decide +kernel, by decide +kernel, by decide +kernel, by decide +kernel, by decide +kernel⟩,
    ⟨tG tTask, 7, 31, tTask, tProg, tI [(7, 21), (3, 16), (2, 6), (63, 0)], by decide +kernel, by decide +kernel,
     by decide +kernel, by decide +kernel, by decide +kernel, by decide +kernel, 0xFFFFFFFFFFFFFFFF,
     by decide +kernel, by decide +kernel, by decide +kernel⟩,
    ⟨tG tTask, 7, 31, tTask, tProg, tI [(31, 21), (0xFFFF, 0)], by decide +kernel, by decide +kernel,
     by decide +kernel, by decide +kernel, by decide +kernel, by decide +kernel, by decide +kernel⟩,
    ⟨tG tTask, 7, 31, tTask, tProg, tI [(3, 21), (3, 16), (0xFFFF, 0)], by decide +kernel, by decide +kernel,
     by decide +kernel, by decide +kernel, by decide +kernel, by decide +kernel, by decide +kernel⟩,
    ⟨{ tG tTask with time := { now := 2 ^ 64 + 5 } }, 7, 31, tTask, tProg, tI [(3, 21)], by decide +kernel,
     by decide +kernel, by decide +kernel, by decide +kernel, by decide +kernel, by decide +kernel,
     by decide +kernel⟩,
    ⟨tG { tTask with frame := tFr 0xFF8 [1, 2, 3, 4, 5, 6, 7, 8] }, 7, 31,
     { tTask with frame := tFr 0xFF8 [1, 2, 3, 4, 5, 6, 7, 8] }, tProg, tI [(3, 21), (4, 16), (0xFFF8, 0)],
     by decide +kernel, by decide +kernel, by decide +kernel, by decide +kernel, by decide +kernel,
     by decide +kernel, by decide +kernel, by decide +kernel, by decide +kernel⟩,
    ⟨tG { tTask with frame := tFr 0xFF8 [1, 2, 3, 4, 5, 6, 7, 8] }, 7, 31,
     { tTask with frame := tFr 0xFF8 [1, 2, 3, 4, 5, 6, 7, 8] }, tProg, tI [(3, 21), (4, 16), (0xFFFC, 0)],
     by decide +kernel, by decide +kernel, by decide +kernel, by decide +kernel, by decide +kernel,
     by decide +kernel, by decide +kernel, by decide +kernel, by decide +kernel⟩,
    ⟨tG tTask, 7, 31, tTask, tProg, tI [(3, 21), (1, 16), (4, 0)], by decide +kernel, by decide +kernel,
     by decide +kernel, by decide +kernel, by decide +kernel, by decide +kernel, by decide +kernel,
     by decide +kernel⟩,
    ⟨tG tTask, 7, 31, tTask, tProg, tI [(3, 21), (4, 16), (0, 0)], by decide +kernel, by decide +kernel,
     by decide +kernel, by decide +kernel, by decide +kernel, by decide +kernel, by decide +kernel,
     by decide +kernel, by decide +kernel⟩,
    ⟨tG tTask, 7, 31, tTask, tProg, tI [(1, 21), (2, 16), (2, 0)], by decide +kernel, by decide +kernel,
     by decide +kernel, by decide +kernel, by decide +kernel, by decide +kernel,
     (Instr.beq 7 (tI [(1, 21), (2, 16), (2, 0)]), 1), by decide +kernel, by decide +kernel, by decide +kernel⟩,
    ⟨tG tTask, 7, 31, tTask, tProg, tI [(1, 21), (2, 16), (11, 0)], by decide +kernel, by decide +kernel,
     by decide +kernel, by decide +kernel, by decide +kernel, by decide +kernel,
     (Instr.bgeu 7 (tI [(1, 21), (2, 16), (11, 0)]), 6), by decide +kernel, by decide +kernel, by decide +kernel,
     by decide +kernel⟩,
    ⟨tG tTask, 7, 31, tTask, tProg, tI [(1, 21), (2, 16), (12, 0)], by decide +kernel, by decide +kernel,
     by decide +kernel, by decide +kernel, by decide +kernel, by decide +kernel,
     (Instr.bne 7 (tI [(1, 21), (2, 16), (12, 0)]), 2), by decide +kernel, by decide +kernel, 5, by decide +kernel,
     by decide +kernel⟩,
    ⟨tG tTask, 7, 31, tTask, tProg, tI [(8, 21), (0x1FFFFC, 0)], by decide +kernel, by decide +kernel,
     by decide +kernel, by decide +kernel, by decide +kernel, by decide +kernel, by decide +kernel,
     by decide +kernel⟩,
    ⟨tG tTask, 7, 31, tTask, tProg, tI [(6, 16)], by decide +kernel, by decide +kernel, by decide +kernel,
     by decide +kernel, by decide +kernel, by decide +kernel, by decide +kernel, by decide +kernel,
     by decide +kernel⟩,
    ⟨tG { tTask with handles := [(3, .complete)] }, 7, 31, { tTask with handles := [(3, .complete)] }, tProg,
     by decide +kernel, by decide +kernel, by decide +kernel, by decide +kernel, by decide +kernel,
     by decide +kernel⟩⟩

/-- The hypotheses of ControlWaits are met. -/
theorem met_control_waits :
    (∃ (s : State) (n : Fin 8) (sl : Nat) (t : Task) (pr : Prog) (w : BitVec 26), s.pairRuns n.val = true ∧
     s.current n.val = some sl ∧ s.task n.val sl = some t ∧ s.cc.progs.find t.prog = some pr ∧
     t.pc + 4 ≤ pr.code.length ∧ s.injFires 9 n.val = false ∧
     let only := fun (fs : List (Nat × Nat)) => (List.range 26).all fun i => !bit w i || fs.any fun f => decide (f.2 ≤ i ∧ i ≤ f.1)
     let a := (t.reg (iRA w)).toNat
     only [cRA] = true ∧ a ≤ s.time.now)
    ∧ (∃ (s : State) (n : Fin 8) (sl : Nat) (t : Task) (pr : Prog) (w : BitVec 26), s.pairRuns n.val = true ∧
       s.current n.val = some sl ∧ s.task n.val sl = some t ∧ s.cc.progs.find t.prog = some pr ∧
       t.pc + 4 ≤ pr.code.length ∧ s.injFires 9 n.val = false ∧
       let only := fun (fs : List (Nat × Nat)) => (List.range 26).all fun i => !bit w i || fs.any fun f => decide (f.2 ≤ i ∧ i ≤ f.1)
       let a := (t.reg (iRA w)).toNat
       only [cRA] = true ∧ s.time.now < a)
    ∧ (∃ (s : State) (n : Fin 8) (sl : Nat) (t : Task) (pr : Prog) (w : BitVec 26), s.pairRuns n.val = true ∧
       s.current n.val = some sl ∧ s.task n.val sl = some t ∧ s.cc.progs.find t.prog = some pr ∧
       t.pc + 4 ≤ pr.code.length ∧ s.injFires 9 n.val = false ∧
       let only := fun (fs : List (Nat × Nat)) => (List.range 26).all fun i => !bit w i || fs.any fun f => decide (f.2 ≤ i ∧ i ≤ f.1)
       let a := (t.reg (iRA w)).toNat
       only [cRD, cRA, (2, 0)] = true ∧ a % 64 = 0 ∧ t.sources ≠ [] ∧
       ((cbits w 2 2 = 1 ∨ cbits w 1 0 < t.sources.length)))
    ∧ (∃ (s : State) (n : Fin 8) (sl : Nat) (t : Task) (pr : Prog) (w : BitVec 26), s.pairRuns n.val = true ∧
       s.current n.val = some sl ∧ s.task n.val sl = some t ∧ s.cc.progs.find t.prog = some pr ∧
       t.pc + 4 ≤ pr.code.length ∧ s.injFires 9 n.val = false ∧
       let only := fun (fs : List (Nat × Nat)) => (List.range 26).all fun i => !bit w i || fs.any fun f => decide (f.2 ≤ i ∧ i ≤ f.1)
       let a := (t.reg (iRA w)).toNat
       only [cRD, cRA] = true ∧ a % 64 ≠ 0)
    ∧ (∃ (s : State) (n : Fin 8) (sl : Nat) (t : Task) (pr : Prog) (w : BitVec 26), s.pairRuns n.val = true ∧
       s.current n.val = some sl ∧ s.task n.val sl = some t ∧ s.cc.progs.find t.prog = some pr ∧
       t.pc + 4 ≤ pr.code.length ∧ s.injFires 9 n.val = false ∧
       let s0 := s.updPair n.val fun p => { p with run := some sl }
       let only := fun (fs : List (Nat × Nat)) => (List.range 26).all fun i => !bit w i || fs.any fun f => decide (f.2 ≤ i ∧ i ≤ f.1)
       let a := (t.reg (iRA w)).toNat
       only [cRD, cRA] = true ∧ a % 64 = 0 ∧ a + 16 ≤ pr.frame ∧
       let k := leAt (t.readFrame a 16) 0 2
       1 ≤ k ∧ k ≤ 100 ∧ leAt (t.readFrame a 16) 2 1 < 2 ∧ leAt (t.readFrame a 16) 3 13 = 0 ∧
       a + 16 + 80 * k ≤ pr.frame ∧
       let b := t.readFrame a (16 + 80 * k)
       let cl := (List.range k).map fun e => (wlEntryOf b 0 e).1
       (List.range k).any (wlEntryBad b) = false ∧ dupNat cl = false ∧ ((∀ c ∈ cl, s.partOf c = some t.part)) ∧
       t.handles.length < pr.maxh ∧ s0.issueHeld n.val cl = false)
    ∧ (∃ (s : State) (n : Fin 8) (sl : Nat) (t : Task) (pr : Prog) (w : BitVec 26), s.pairRuns n.val = true ∧
       s.current n.val = some sl ∧ s.task n.val sl = some t ∧ s.cc.progs.find t.prog = some pr ∧
       t.pc + 4 ≤ pr.code.length ∧ s.injFires 9 n.val = false ∧
       let only := fun (fs : List (Nat × Nat)) => (List.range 26).all fun i => !bit w i || fs.any fun f => decide (f.2 ≤ i ∧ i ≤ f.1)
       only [cRD, cRA, (0, 0)] = true ∧ t.handleOf (t.reg (iRA w)) = none)
    ∧ (∃ (s : State) (n : Fin 8) (sl : Nat) (t : Task) (pr : Prog) (w : BitVec 26), s.pairRuns n.val = true ∧
       s.current n.val = some sl ∧ s.task n.val sl = some t ∧ s.cc.progs.find t.prog = some pr ∧
       t.pc + 4 ≤ pr.code.length ∧ s.injFires 9 n.val = false ∧
       let only := fun (fs : List (Nat × Nat)) => (List.range 26).all fun i => !bit w i || fs.any fun f => decide (f.2 ≤ i ∧ i ≤ f.1)
       only [cRD, cRA, (0, 0)] = true ∧ ∃ h, t.handleOf (t.reg (iRA w)) = some h ∧
       t.handles.get .pending h = .complete)
    ∧ (∃ (s : State) (n : Fin 8) (sl : Nat) (t : Task) (pr : Prog) (w : BitVec 26), s.pairRuns n.val = true ∧
       s.current n.val = some sl ∧ s.task n.val sl = some t ∧ s.cc.progs.find t.prog = some pr ∧
       t.pc + 4 ≤ pr.code.length ∧ s.injFires 9 n.val = false ∧
       let only := fun (fs : List (Nat × Nat)) => (List.range 26).all fun i => !bit w i || fs.any fun f => decide (f.2 ≤ i ∧ i ≤ f.1)
       only [cRD, cRA, (0, 0)] = true ∧ ∃ h, t.handleOf (t.reg (iRA w)) = some h ∧
       t.handles.get .pending h = .pending)
    ∧ (∃ (s : State) (n : Fin 8) (sl : Nat) (t : Task) (pr : Prog) (w : BitVec 26), s.pairRuns n.val = true ∧
       s.current n.val = some sl ∧ s.task n.val sl = some t ∧ s.cc.progs.find t.prog = some pr ∧
       t.pc + 4 ≤ pr.code.length ∧ s.injFires 9 n.val = false ∧
       let s0 := s.updPair n.val fun p => { p with run := some sl }
       let only := fun (fs : List (Nat × Nat)) => (List.range 26).all fun i => !bit w i || fs.any fun f => decide (f.2 ≤ i ∧ i ≤ f.1)
       let a := (t.reg (iRA w)).toNat
       only [cRA, cRB] = true ∧ a % 32 = 0 ∧ a + 32 ≤ pr.frame ∧ s0.owedFor n.val sl t (t.reg (iRB w)).toNat = none)
    ∧ (∃ (s : State) (n : Fin 8) (sl : Nat) (t : Task) (pr : Prog) (w : BitVec 26), s.pairRuns n.val = true ∧
       s.current n.val = some sl ∧ s.task n.val sl = some t ∧ s.cc.progs.find t.prog = some pr ∧
       t.pc + 4 ≤ pr.code.length ∧ s.injFires 9 n.val = false ∧
       let s0 := s.updPair n.val fun p => { p with run := some sl }
       let only := fun (fs : List (Nat × Nat)) => (List.range 26).all fun i => !bit w i || fs.any fun f => decide (f.2 ≤ i ∧ i ≤ f.1)
       let a := (t.reg (iRA w)).toNat
       only [cRA, cRB] = true ∧ a % 32 = 0 ∧ a + 32 ≤ pr.frame ∧
       let b := t.readFrame a 32
       let code := leAt b 18 2 % 4096
       ∃ (o : Owed), s0.owedFor n.val sl t (t.reg (iRB w)).toNat = some o ∧ requestStatus code = true ∧
       o.expired = false ∧ o.kind = 0 ∧ o.own = true)
    ∧ (∃ (s : State) (n : Fin 8) (sl : Nat) (t : Task) (pr : Prog) (w : BitVec 26), s.pairRuns n.val = true ∧
       s.current n.val = some sl ∧ s.task n.val sl = some t ∧ s.cc.progs.find t.prog = some pr ∧
       t.pc + 4 ≤ pr.code.length ∧ s.injFires 9 n.val = false ∧
       let s0 := s.updPair n.val fun p => { p with run := some sl }
       let only := fun (fs : List (Nat × Nat)) => (List.range 26).all fun i => !bit w i || fs.any fun f => decide (f.2 ≤ i ∧ i ≤ f.1)
       let a := (t.reg (iRA w)).toNat
       let da := (t.reg (iRB w)).toNat
       let k := cbits w 9 0 + 1
       only [cRA, cRB, cSUB] = true ∧ cbits w 10 10 = 1 ∧ da % 64 = 0 ∧ a % 64 = 0 ∧ a + 64 * k ≤ pr.frame ∧
       s0.taskDaExc t true da k = none ∧ (s0.wr da (t.readFrame a (64 * k))).performed [(da, 64 * k)] = true)
    ∧ (∃ (s : State) (n : Fin 8) (sl : Nat) (t : Task) (pr : Prog) (w : BitVec 26), s.pairRuns n.val = true ∧
       s.current n.val = some sl ∧ s.task n.val sl = some t ∧ s.cc.progs.find t.prog = some pr ∧
       t.pc + 4 ≤ pr.code.length ∧ s.injFires 9 n.val = false ∧
       let only := fun (fs : List (Nat × Nat)) => (List.range 26).all fun i => !bit w i || fs.any fun f => decide (f.2 ≤ i ∧ i ≤ f.1)
       let a := (t.reg (iRA w)).toNat
       only [cRD, cRA] = true ∧ a % 64 = 0 ∧ pr.maxh ≤ t.handles.length)
    ∧ (∃ (s : State) (n : Fin 8) (sl : Nat) (t : Task) (pr : Prog) (w : BitVec 26), s.pairRuns n.val = true ∧
       s.current n.val = some sl ∧ s.task n.val sl = some t ∧ s.cc.progs.find t.prog = some pr ∧
       t.pc + 4 ≤ pr.code.length ∧ s.injFires 9 n.val = false ∧
       let s0 := s.updPair n.val fun p => { p with run := some sl }
       let only := fun (fs : List (Nat × Nat)) => (List.range 26).all fun i => !bit w i || fs.any fun f => decide (f.2 ≤ i ∧ i ≤ f.1)
       let a := (t.reg (iRA w)).toNat
       only [cRD, cRA] = true ∧ a % 64 = 0 ∧ t.handles.length < pr.maxh ∧ s0.batchesHeld = false ∧
       s0.recall a 64 = none ∧
       let t1 := Task.setReg { t with wait := .ready, handles := t.handles.set t.nextHandle .pending, nextHandle := t.nextHandle + 1 } (iRD w) (Config.handleWord t.nextHandle)
       let s1 := s0.touch a 64
       (s1.readDA a 64).unmapped = false ∧ (s1.readDA a 64).poison = false ∧
       let s2 := (s1.setTask n.val sl t1).batchAccept (.task n.val sl t.nextHandle) t.part a (s1.readDA a 64).data
       ∃ t2, s2.task n.val sl = some t2)
    ∧ (∃ (s : State) (n : Fin 8) (sl : Nat) (t : Task) (pr : Prog) (w : BitVec 26), s.pairRuns n.val = true ∧
       s.current n.val = some sl ∧ s.task n.val sl = some t ∧ s.cc.progs.find t.prog = some pr ∧
       t.pc + 4 ≤ pr.code.length ∧ s.injFires 9 n.val = false ∧
       let s0 := s.updPair n.val fun p => { p with run := some sl }
       let only := fun (fs : List (Nat × Nat)) => (List.range 26).all fun i => !bit w i || fs.any fun f => decide (f.2 ≤ i ∧ i ≤ f.1)
       let a := (t.reg (iRA w)).toNat
       only [(1, 0), cRD, cRA] = true ∧ cbits w 1 0 = 0 ∧ a + 64 ≤ pr.frame ∧
       s0.astAdmit t.part (t.readFrame a 64) = none)
    ∧ (∃ (s : State) (n : Fin 8) (sl : Nat) (t : Task) (pr : Prog) (w : BitVec 26), s.pairRuns n.val = true ∧
       s.current n.val = some sl ∧ s.task n.val sl = some t ∧ s.cc.progs.find t.prog = some pr ∧
       t.pc + 4 ≤ pr.code.length ∧ s.injFires 9 n.val = false ∧
       let only := fun (fs : List (Nat × Nat)) => (List.range 26).all fun i => !bit w i || fs.any fun f => decide (f.2 ≤ i ∧ i ≤ f.1)
       let a := (t.reg (iRA w)).toNat
       only [(1, 0), cRA, cRB] = true ∧ cbits w 1 0 = 1 ∧ (s.part t.part).owns a = false)
    ∧ (∃ (s : State) (n : Fin 8) (sl : Nat) (t : Task) (pr : Prog) (w : BitVec 26), s.pairRuns n.val = true ∧
       s.current n.val = some sl ∧ s.task n.val sl = some t ∧ s.cc.progs.find t.prog = some pr ∧
       t.pc + 4 ≤ pr.code.length ∧ s.injFires 9 n.val = false ∧
       let only := fun (fs : List (Nat × Nat)) => (List.range 26).all fun i => !bit w i || fs.any fun f => decide (f.2 ≤ i ∧ i ≤ f.1)
       let a := (t.reg (iRA w)).toNat
       only [(1, 0), cRA, cRB] = true ∧ cbits w 1 0 = 1 ∧ (s.part t.part).owns a = true ∧
       (t.reg (iRB w)).toNat + 64 ≤ pr.frame)
    ∧ (∃ (s : State) (n : Fin 8) (sl : Nat) (t : Task) (pr : Prog) (w : BitVec 26), s.pairRuns n.val = true ∧
       s.current n.val = some sl ∧ s.task n.val sl = some t ∧ s.cc.progs.find t.prog = some pr ∧
       t.pc + 4 ≤ pr.code.length ∧ s.injFires 9 n.val = false ∧
       let only := fun (fs : List (Nat × Nat)) => (List.range 26).all fun i => !bit w i || fs.any fun f => decide (f.2 ≤ i ∧ i ≤ f.1)
       let a := (t.reg (iRA w)).toNat
       only [(1, 0), cRA] = true ∧ cbits w 1 0 = 2 ∧ (s.part t.part).owns a = false)
    ∧ (∃ (s : State) (n : Fin 8) (sl : Nat) (t : Task) (pr : Prog) (w : BitVec 26), s.pairRuns n.val = true ∧
       s.current n.val = some sl ∧ s.task n.val sl = some t ∧ s.cc.progs.find t.prog = some pr ∧
       t.pc + 4 ≤ pr.code.length ∧ s.injFires 9 n.val = false ∧
       let only := fun (fs : List (Nat × Nat)) => (List.range 26).all fun i => !bit w i || fs.any fun f => decide (f.2 ≤ i ∧ i ≤ f.1)
       let a := (t.reg (iRA w)).toNat
       only [(1, 0), cRA] = true ∧ cbits w 1 0 = 2 ∧ (s.part t.part).owns a = true)
    ∧ (∃ (s : State) (n : Fin 8) (sl : Nat) (t : Task) (pr : Prog) (w : BitVec 26), s.pairRuns n.val = true ∧
       s.current n.val = some sl ∧ s.task n.val sl = some t ∧ s.cc.progs.find t.prog = some pr ∧
       t.pc + 4 ≤ pr.code.length ∧ s.injFires 9 n.val = false ∧
       let only := fun (fs : List (Nat × Nat)) => (List.range 26).all fun i => !bit w i || fs.any fun f => decide (f.2 ≤ i ∧ i ≤ f.1)
       only [cIMM] = true)
    ∧ (∃ (s : State) (n : Fin 8) (sl : Nat) (t : Task) (pr : Prog) (w : BitVec 26), s.pairRuns n.val = true ∧
       s.current n.val = some sl ∧ s.task n.val sl = some t ∧ s.cc.progs.find t.prog = some pr ∧
       t.pc + 4 ≤ pr.code.length ∧ s.injFires 9 n.val = false ∧
       let only := fun (fs : List (Nat × Nat)) => (List.range 26).all fun i => !bit w i || fs.any fun f => decide (f.2 ≤ i ∧ i ≤ f.1)
       only [] = true) := by
  exact ⟨⟨{ tG tTask with time := { now := 0x40 } }, 7, 31, tTask, tProg, tI [(1, 16)], by decide +kernel,
          by decide +kernel, by decide +kernel, by decide +kernel, by decide +kernel, by decide +kernel,
          by decide +kernel, by decide +kernel⟩,
    ⟨{ tG tTask with time := { now := 0x3F } }, 7, 31, tTask, tProg, tI [(1, 16)], by decide +kernel,
     by decide +kernel, by decide +kernel, by decide +kernel, by decide +kernel, by decide +kernel,
     by decide +kernel, by decide +kernel⟩,
    ⟨tG { tTask with sources := [(0, 3)] }, 7, 31, { tTask with sources := [(0, 3)] }, tProg,
     tI [(7, 21), (1, 16), (0, 0)], by decide +kernel, by decide +kernel, by decide +kernel, by decide +kernel,
     by decide +kernel, by decide +kernel, by decide +kernel, by decide +kernel, by decide +kernel,
     by decide +kernel⟩,
    ⟨tG tTask, 7, 31, tTask, tProg, tI [(7, 21), (5, 16)], by decide +kernel, by decide +kernel, by decide +kernel,
     by decide +kernel, by decide +kernel, by decide +kernel, by decide +kernel, by decide +kernel⟩,
    ⟨tG { tTask with frame := tFr 0 (leBytes 2 2 ++ [1] ++ List.replicate 13 0 ++ [0, 0, 1, 0, 0x10, 0, 0, 0, 9] ++ List.replicate 71 0 ++ [99, 0, 0xFF, 0x0F, 0xF0, 0xFF, 0x7F, 0]) },
     7, 31,
     { tTask with frame := tFr 0 (leBytes 2 2 ++ [1] ++ List.replicate 13 0 ++ [0, 0, 1, 0, 0x10, 0, 0, 0, 9] ++ List.replicate 71 0 ++ [99, 0, 0xFF, 0x0F, 0xF0, 0xFF, 0x7F, 0]) },
     tProg, tI [(7, 21), (0, 16)], by decide +kernel, by decide +kernel, by decide +kernel, by decide +kernel,
     by decide +kernel, by decide +kernel, by decide +kernel, by decide +kernel, by decide +kernel,
     by decide +kernel, by decide +kernel, by decide +kernel, by decide +kernel, by decide +kernel,
     by decide +kernel, by decide +kernel, by decide +kernel, by decide +kernel, by decide +kernel⟩,
    ⟨tG tTask, 7, 31, tTask, tProg, tI [(7, 21), (1, 16)], by decide +kernel, by decide +kernel, by decide +kernel,
     by decide +kernel, by decide +kernel, by decide +kernel, by decide +kernel, rfl⟩,
    ⟨tG { tTask with g := [(1, Config.handleWord 3)], handles := [(3, .complete)] }, 7, 31,
     { tTask with g := [(1, Config.handleWord 3)], handles := [(3, .complete)] }, tProg,
     tI [(7, 21), (1, 16), (1, 0)], by decide +kernel, by decide +kernel, rfl, by decide +kernel, by decide +kernel,
     by decide +kernel, by decide +kernel, 3,
     by show ((_ : List (Nat × HandleSt)).find? fun kv => Config.handleWord kv.1 == Config.handleWord 3).map Prod.fst = some 3; simp,
     by decide +kernel⟩,
    ⟨tG { tTask with g := [(1, Config.handleWord 3)], handles := [(3, .pending)] }, 7, 31,
     { tTask with g := [(1, Config.handleWord 3)], handles := [(3, .pending)] }, tProg,
     tI [(7, 21), (1, 16), (1, 0)], by decide +kernel, by decide +kernel, rfl, by decide +kernel, by decide +kernel,
     by decide +kernel, by decide +kernel, 3,
     by show ((_ : List (Nat × HandleSt)).find? fun kv => Config.handleWord kv.1 == Config.handleWord 3).map Prod.fst = some 3; simp,
     by decide +kernel⟩,
    ⟨tG tTask, 7, 31, tTask, tProg, tI [(1, 16), (2, 11)], by decide +kernel, by decide +kernel, by decide +kernel,
     by decide +kernel, by decide +kernel, by decide +kernel, by decide +kernel, by decide +kernel,
     by decide +kernel, by decide +kernel⟩,
    ⟨{ tG tTask with cc := { pairs := [(7, { parts := 1, tasks := [(31, tTask)], ledger := [{ index := 0, kind := 0, sel := 0, part := 0, task := 31, own := true, q := 0, id := 5, tAcc := 0, due := 9 }] })], progs := [(511, tProg)] } },
     7, 31, tTask, tProg, tI [(1, 16), (0, 11)], by decide +kernel, by decide +kernel, by decide +kernel,
     by decide +kernel, by decide +kernel, by decide +kernel, by decide +kernel, by decide +kernel,
     by decide +kernel,
     { index := 0, kind := 0, sel := 0, part := 0, task := 31, own := true, q := 0, id := 5, tAcc := 0, due := 9 },
     by decide +kernel, by decide +kernel, by decide +kernel, by decide +kernel, by decide +kernel⟩,
    ⟨tG { tTask with g := [(1, 0xFC0), (2, 0x2000)] }, 7, 31, { tTask with g := [(1, 0xFC0), (2, 0x2000)] }, tProg,
     tI [(1, 16), (2, 11), (1, 10), (0, 0)], by decide +kernel, by decide +kernel, by decide +kernel,
     by decide +kernel, by decide +kernel, by decide +kernel, by decide +kernel, by decide +kernel,
     by decide +kernel, by decide +kernel, by decide +kernel, by decide +kernel, by decide +kernel⟩,
    ⟨tG { tTask with handles := (List.range 16).map fun i => (i, .pending) }, 7, 31,
     { tTask with handles := (List.range 16).map fun i => (i, .pending) }, tProg, tI [(7, 21), (1, 16)],
     by decide +kernel, by decide +kernel, by decide +kernel, by decide +kernel, by decide +kernel,
     by decide +kernel, by decide +kernel, by decide +kernel, by decide +kernel⟩,
    ⟨tG { tTask with g := [(1, 0x3000)] }, 7, 31, { tTask with g := [(1, 0x3000)] }, tProg, tI [(7, 21), (1, 16)],
     by decide +kernel, by decide +kernel, by decide +kernel, by decide +kernel, by decide +kernel,
     by decide +kernel, by decide +kernel, by decide +kernel, by decide +kernel, by decide +kernel,
     by decide +kernel, by decide +kernel, by decide +kernel,
     (((((tG { tTask with g := [(1, 0x3000)] }).updPair 7 fun p => { p with run := some 31 }).setTask 7 31 (Task.setReg { tTask with g := [(1, 0x3000)], handles := [(1, .pending)], nextHandle := 2 } 7 (Config.handleWord 1))).batchAccept (.task 7 31 1) 0 0x3000 (List.replicate 64 0)).task 7 31).getD tTask,
     rfl⟩,
    ⟨tG { tTask with g := [(1, 0xFC0)] }, 7, 31, { tTask with g := [(1, 0xFC0)] }, tProg,
     tI [(0, 0), (7, 21), (1, 16)], by decide +kernel, by decide +kernel, by decide +kernel, by decide +kernel,
     by decide +kernel, by decide +kernel, by decide +kernel, by decide +kernel, by decide +kernel,
     by decide +kernel⟩,
    ⟨tG { tTask with g := [(1, 4)] }, 7, 31, { tTask with g := [(1, 4)] }, tProg, tI [(1, 0), (1, 16)],
     by decide +kernel, by decide +kernel, by decide +kernel, by decide +kernel, by decide +kernel,
     by decide +kernel, by decide +kernel, by decide +kernel, by decide +kernel⟩,
    ⟨tG { tTask with g := [(1, 3), (2, 0xFC0)] }, 7, 31, { tTask with g := [(1, 3), (2, 0xFC0)] }, tProg,
     tI [(1, 0), (1, 16), (2, 11)], by decide +kernel, by decide +kernel, by decide +kernel, by decide +kernel,
     by decide +kernel, by decide +kernel, by decide +kernel, by decide +kernel, by decide +kernel,
     by decide +kernel⟩,
    ⟨tG { tTask with g := [(1, 4)] }, 7, 31, { tTask with g := [(1, 4)] }, tProg, tI [(2, 0), (1, 16)],
     by decide +kernel, by decide +kernel, by decide +kernel, by decide +kernel, by decide +kernel,
     by decide +kernel, by decide +kernel, by decide +kernel, by decide +kernel⟩,
    ⟨tG { tTask with g := [(1, 3)] }, 7, 31, { tTask with g := [(1, 3)] }, tProg, tI [(2, 0), (1, 16)],
     by decide +kernel, by decide +kernel, by decide +kernel, by decide +kernel, by decide +kernel,
     by decide +kernel, by decide +kernel, by decide +kernel, by decide +kernel⟩,
    ⟨tG tTask, 7, 31, tTask, tProg, tI [(0xFFFF, 0)], by decide +kernel, by decide +kernel, by decide +kernel,
     by decide +kernel, by decide +kernel, by decide +kernel, by decide +kernel⟩,
    ⟨tG tTask, 7, 31, tTask, tProg, 0, by decide +kernel, by decide +kernel, by decide +kernel, by decide +kernel,
     by decide +kernel, by decide +kernel, by decide +kernel⟩⟩

/-- The hypotheses of TaskEvents are met. -/
theorem met_task_events :
    (∃ (s : State) (n : Fin 8) (sl : Fin 32) (t : Task) (u : Nat), s.task n.val sl.val = some t ∧ t.wait = .sleep u)
    ∧ (∃ (s : State) (n : Fin 8) (sl : Fin 32), s.task n.val sl.val = none)
    ∧ (∃ (s : State) (n : Fin 8) (sl : Fin 32) (sel : Fin 4) (raw : Line) (ok : Bool) (t : Task) (sl0 : Nat) (addr : Nat) (rd : Nat) (q : Nat),
       s.task n.val sl.val = some t ∧ t.wait = .waitq sl0 true addr rd ∧ s.pairRuns n.val = true ∧
       (((s.pair n.val).ledger.filter fun o => o.task == sl.val).length < 1024) ∧
       t.sources[sel.val]? = some (0, q) ∧ s.mayFetch q = true ∧ s.sqeRecall q = none ∧ s.sqeAt q raw ok = none)
    ∧ (∃ (s : State) (n : Fin 8) (sl : Fin 32) (sel : Fin 4) (raw : Line) (ok : Bool) (t : Task) (sl0 : Nat) (addr : Nat) (rd : Nat) (q : Nat),
       s.task n.val sl.val = some t ∧ t.wait = .waitq sl0 true addr rd ∧ s.pairRuns n.val = true ∧
       (((s.pair n.val).ledger.filter fun o => o.task == sl.val).length < 1024) ∧
       t.sources[sel.val]? = some (0, q) ∧ s.mayFetch q = true ∧ s.sqeRecall q = none ∧ ∃ l,
       s.sqeAt q raw ok = some l ∧ addr + 64 ≤ s.frameOf t)
    ∧ (∃ (s : State) (n : Fin 8), s.serving .pair n.val = true)
    ∧ (∃ (s : State) (n : Fin 8), (s.pair n.val).resync = true ∧ (s.pair n.val).stuck = false ∧
       s.rst.idleReqs.find (blkPair n.val) = none ∧
       let s1 := s.updPair n.val fun p => { p with resync := false }
       ((∀ p ∈ s1.served n.val, s1.pairsOf p ≠ [])) ∧ s1.served n.val = s.served n.val)
    ∧ (∃ (s : State) (n : Fin 8) (i : Nat) (o : Owed), (s.pair n.val).ledger[i]? = some o ∧ s.time.now < o.due)
    ∧ (∃ (s : State) (n : Fin 8) (i : Nat) (o : Owed), (s.pair n.val).ledger[i]? = some o ∧ o.due ≤ s.time.now ∧
       o.own = false ∧ o.expired = false ∧ o.kind = 0)
    ∧ (∃ (s : State) (n : Fin 8) (sl : Fin 32) (t : Task), s.task n.val sl.val = some t ∧ t.standing = false)
    ∧ (∃ (s : State) (n : Fin 8) (sl : Fin 32) (t : Task) (d : Nat), s.task n.val sl.val = some t ∧
       t.waitDue = some d ∧ s.taskReady n.val t = false) := by
  exact ⟨⟨tG { tTask with wait := .sleep 7 }, 7, 31, { tTask with wait := .sleep 7 }, 7, by decide +kernel,
          by decide +kernel⟩,
    ⟨tG tTask, 7, 30, by decide +kernel⟩,
    ⟨{ tG { tTask with sources := [(0, 3)], wait := .waitq 0 true 0xFC0 7 } with queues := [(3, { en := true, st := .enabled, sqTail := 1 })] },
     7, 31, 0, 1, false, { tTask with sources := [(0, 3)], wait := .waitq 0 true 0xFC0 7 }, 0, 0xFC0, 7, 3,
     by decide +kernel, by decide +kernel, by decide +kernel, by decide +kernel, by decide +kernel,
     by decide +kernel, by decide +kernel, by decide +kernel⟩,
    ⟨{ tG { tTask with sources := [(0, 3)], wait := .waitq 0 true 0xFC0 7 } with queues := [(3, { en := true, st := .enabled, sqTail := 1 })] },
     7, 31, 0, 0x00050100, true, { tTask with sources := [(0, 3)], wait := .waitq 0 true 0xFC0 7 }, 0, 0xFC0, 7, 3,
     by decide +kernel, by decide +kernel, by decide +kernel, by decide +kernel, by decide +kernel,
     by decide +kernel, by decide +kernel, 0x00050100, by decide +kernel, by decide +kernel⟩,
    ⟨tG tTask, 7, by decide +kernel⟩,
    ⟨{ tU with cc := { pairs := [(7, { resync := true, parts := 1 })] } }, 7, by decide +kernel, by decide +kernel,
     by decide +kernel, by decide +kernel, by decide +kernel⟩,
    ⟨{ tG tTask with time := { now := 8 }, cc := { pairs := [(7, { parts := 1, ledger := [{ index := 0, kind := 0, sel := 0, part := 0, task := 31, own := true, q := 0, id := 5, tAcc := 0, due := 9 }] })] } },
     7, 0,
     { index := 0, kind := 0, sel := 0, part := 0, task := 31, own := true, q := 0, id := 5, tAcc := 0, due := 9 },
     by decide +kernel, by decide +kernel⟩,
    ⟨{ tG tTask with time := { now := 9 }, cc := { pairs := [(7, { parts := 1, ledger := [{ index := 5, kind := 0, sel := 1, part := 0, task := 31, q := 0, id := 5, tAcc := 0, due := 9 }] })] } },
     7, 0, { index := 5, kind := 0, sel := 1, part := 0, task := 31, q := 0, id := 5, tAcc := 0, due := 9 },
     by decide +kernel, by decide +kernel, by decide +kernel, by decide +kernel, by decide +kernel⟩,
    ⟨{ tG { tTask with due := 9 } with time := { now := 9 } }, 7, 31, { tTask with due := 9 }, by decide +kernel,
     by decide +kernel⟩,
    ⟨{ tG { tTask with wait := .waiti 3, handles := [(3, .pending)], waitDue := some 9 } with time := { now := 9 } },
     7, 31, { tTask with wait := .waiti 3, handles := [(3, .pending)], waitDue := some 9 }, 9, by decide +kernel,
     by decide +kernel, by decide +kernel⟩⟩

/-- The hypotheses of PartitionCommands are met. -/
theorem met_partition_commands :
    (∃ (c : KCmd), 16 ≤ c.a0.toNat)
    ∧ (∃ (s : State) (c : KCmd), c.a0.toNat < 16 ∧ s.pwr.dstate = .d0 ∧ s.int.expelled = false ∧
       let pt := s.part c.a0.toNat
       pt.st = .running)
    ∧ (∃ (s : State) (c : KCmd), c.a0.toNat < 16 ∧ s.pwr.dstate = .d0 ∧ s.int.expelled = false ∧
       let pt := s.part c.a0.toNat
       pt.st = .stopped ∧ s.partCfgOk c.a0.toNat = false)
    ∧ (∃ (s : State) (c : KCmd), c.a0.toNat < 16 ∧ s.pwr.dstate = .d0 ∧ s.int.expelled = false ∧
       let pt := s.part c.a0.toNat
       pt.st = .stopped ∧ s.partCfgOk c.a0.toNat = true ∧ s.partOverlap c.a0.toNat = true)
    ∧ (∃ (s : State) (c : KCmd), c.a0.toNat < 16 ∧ s.pwr.dstate = .d0 ∧ s.int.expelled = false ∧
       let pt := s.part c.a0.toNat
       pt.st = .stopped ∧ s.partCfgOk c.a0.toNat = true ∧ s.partOverlap c.a0.toNat = false ∧
       (s.pairsOf c.a0.toNat).length < 2)
    ∧ (∃ (s : State) (c : KCmd), c.a0.toNat < 16 ∧ s.pwr.dstate = .d0 ∧ s.int.expelled = false ∧
       let pt := s.part c.a0.toNat
       ((pt.st = .unused ∨ pt.st = .stopped)) ∧ s.partCfgOk c.a0.toNat = true ∧ s.partOverlap c.a0.toNat = false ∧
       2 ≤ (s.pairsOf c.a0.toNat).length ∧ ∃ (i : Nat), i < pt.astCount.toNat)
    ∧ (∃ (s : State) (c : KCmd), c.a0.toNat < 16 ∧ s.pwr.dstate = .d0 ∧ s.int.expelled = false ∧
       let pt := s.part c.a0.toNat
       ((pt.st = .unused ∨ pt.st = .stopped)) ∧ s.partCfgOk c.a0.toNat = true ∧ s.partOverlap c.a0.toNat = false ∧
       2 ≤ (s.pairsOf c.a0.toNat).length)
    ∧ (∃ (s : State) (c : KCmd), c.a0.toNat < 16 ∧ c.a1.toNat < 2 ∧
       let pt := s.part c.a0.toNat
       pt.st ≠ .running)
    ∧ (∃ (s : State) (c : KCmd), c.a0.toNat < 16 ∧ c.a1.toNat < 2 ∧
       let pt := s.part c.a0.toNat
       pt.st = .running ∧ pt.stopWait = none ∧ pt.switching = none ∧ pt.teardown = false)
    ∧ (∃ (s : State) (c : KCmd), c.a0.toNat < 16 ∧ c.a1.toNat < 2 ∧
       let pt := s.part c.a0.toNat
       pt.st = .running ∧ pt.stopWait = none ∧ pt.teardown = true)
    ∧ (∃ (s : State) (p : Fin 16) (c : StopCmd), (s.part p.val).stop = some c ∧ s.time.now < c.due)
    ∧ (∃ (s : State) (p : Fin 16) (c : StopCmd), (s.part p.val).stop = some c ∧ c.due ≤ s.time.now ∧
       c.forced = false ∧ (s.part p.val).st = .stopping ∧ s.used p.val = [] ∧ (s.part p.val).teardown = true)
    ∧ (∃ (s : State) (p : Fin 16) (c : StopCmd), (s.part p.val).stop = some c ∧ (s.part p.val).st = .stopping ∧
       (s.part p.val).teardown = false ∧ s.used p.val = [] ∧ s.partLists p.val = [] ∧ (s.part p.val).lists = [] ∧
       s.stw.st ≠ .running)
    ∧ (∃ (s : State) (p : Fin 16), (s.part p.val).st ≠ .stopping)
    ∧ (∃ (c : KCmd), c.a0.toNat < 16 ∧ c.a1 = 2)
    ∧ (∃ (s : State) (c : KCmd), c.a0.toNat < 16 ∧ ∃ (h : Bool), c.a1 = (if h then 1 else 0) ∧
       (s.part c.a0.toNat).snap = none)
    ∧ (∃ (s : State) (p : Fin 16), (s.part p.val).snap = none)
    ∧ (∃ (s : State) (p : Fin 16) (y : Snap), (s.part p.val).snap = some y ∧ s.elapsed y.start 3400 = true ∧
       y.pending = none)
    ∧ (∃ (s : State) (p : Fin 16) (y : Snap), (s.part p.val).snap = some y ∧ s.elapsed y.start 3400 = false)
    ∧ (∃ (s : State) (p : Fin 16) (y : Snap), (s.part p.val).snap = some y ∧ s.mmasIn p.val = true)
    ∧ (∃ (s : State) (p : Fin 16) (y : Snap), (s.part p.val).snap = some y ∧ s.mmasIn p.val = false ∧
       s.gathersOf p.val false = 0) := by
  exact ⟨⟨{ tK with a0 := 16 }, by decide +kernel⟩,
    ⟨tPt { st := .running }, { tK with a0 := 15 }, by decide +kernel, by decide +kernel, by decide +kernel,
     by decide +kernel⟩,
    ⟨tPt { st := .stopped, cl := 1, astCount := 4, astBase := 16381 }, { tK with a0 := 15 }, by decide +kernel,
     by decide +kernel, by decide +kernel, by decide +kernel, by decide +kernel⟩,
    ⟨{ tPt { st := .stopped, cl := 1, astCount := 4, astBase := 16380 } with sc := { parts := [(14, { st := .running, astBase := 16383, astCount := 1 }), (15, { st := .stopped, cl := 1, astCount := 4, astBase := 16380 })] } },
     { tK with a0 := 15 }, by decide +kernel, by decide +kernel, by decide +kernel, by decide +kernel,
     by decide +kernel, by decide +kernel⟩,
    ⟨{ tPt { st := .stopped, cl := 1, astCount := 4 } with cc := { pairs := [(7, { parts := 0x8000 })] } },
     { tK with a0 := 15 }, by decide +kernel, by decide +kernel, by decide +kernel, by decide +kernel,
     by decide +kernel, by decide +kernel, by decide +kernel⟩,
    ⟨tPt { st := .unused, cl := 1, astCount := 4, astBase := 16380 }, { tK with a0 := 15 }, by decide +kernel,
     by decide +kernel, by decide +kernel, by decide +kernel, by decide +kernel, by decide +kernel,
     by decide +kernel, 3, by decide +kernel⟩,
    ⟨tPt { st := .unused, cl := 1, astCount := 4, astBase := 16380 }, { tK with a0 := 15 }, by decide +kernel,
     by decide +kernel, by decide +kernel, by decide +kernel, by decide +kernel, by decide +kernel,
     by decide +kernel⟩,
    ⟨tPt { st := .stopping }, { tK with a0 := 15, a1 := 1 }, by decide +kernel, by decide +kernel,
     by decide +kernel⟩,
    ⟨tPt { st := .running, cl := 1, astCount := 4 }, { tK with a0 := 15, a1 := 1 }, by decide +kernel,
     by decide +kernel, by decide +kernel, by decide +kernel, by decide +kernel, by decide +kernel⟩,
    ⟨tPt { st := .running, teardown := true }, { tK with a0 := 15, a1 := 1 }, by decide +kernel, by decide +kernel,
     by decide +kernel, by decide +kernel, by decide +kernel⟩,
    ⟨{ tPt { st := .stopping, stop := some { q := 0, cid := 3, due := 9, abort := false } } with time := { now := 8 } },
     15, { q := 0, cid := 3, due := 9, abort := false }, by decide +kernel, by decide +kernel⟩,
    ⟨{ tPt { st := .stopping, teardown := true, stop := some { q := 0, cid := 3, due := 9, abort := false } } with time := { now := 9 } },
     15, { q := 0, cid := 3, due := 9, abort := false }, by decide +kernel, by decide +kernel, by decide +kernel,
     by decide +kernel, by decide +kernel, by decide +kernel⟩,
    ⟨{ tPt { st := .stopping, ctxV := true, stop := some { q := 0, cid := 3, due := 9, abort := false } } with stw := {} },
     15, { q := 0, cid := 3, due := 9, abort := false }, by decide +kernel, by decide +kernel, by decide +kernel,
     by decide +kernel, by decide +kernel, by decide +kernel, by decide +kernel⟩,
    ⟨tPt { st := .running }, 15, by decide +kernel⟩,
    ⟨{ tK with a0 := 15, a1 := 2 }, by decide +kernel, by decide +kernel⟩,
    ⟨tPt { st := .running }, { tK with a0 := 15, a1 := 1 }, by decide +kernel, true, by decide +kernel,
     by decide +kernel⟩,
    ⟨tPt { st := .running }, 15, by decide +kernel⟩,
    ⟨{ tPt { st := .running, snap := some { start := 100 } } with time := { now := 3500 } }, 15, { start := 100 },
     by decide +kernel, by decide +kernel, by decide +kernel⟩,
    ⟨{ tPt { st := .running, snap := some { start := 100 } } with time := { now := 3499 } }, 15, { start := 100 },
     by decide +kernel, by decide +kernel⟩,
    ⟨{ tPt { st := .running, cl := 1 <<< 99, snap := some { start := 100, cmds := [(0, 4)] } } with co := { core := [(1199, { vNext := true })] } },
     15, { start := 100, cmds := [(0, 4)] }, by decide +kernel, by decide +kernel⟩,
    ⟨tPt { st := .running, cl := 1 <<< 99, snap := some { start := 100, cmds := [(0, 4)], halt := true } }, 15,
     { start := 100, cmds := [(0, 4)], halt := true }, by decide +kernel, by decide +kernel, by decide +kernel⟩⟩

/-- The hypotheses of ModelsAndSteps are met. -/
theorem met_models_and_steps :
    (∃ (s : State) (c : KCmd), fromMirror c = false ∧ s.recall c.a1.toNat 128 = none ∧
     let s1 := s.touch c.a1.toNat 128
     let b := (s1.readDA c.a1.toNat 128).data
     let d := mdescOf b
     (s1.readDA c.a1.toNat 128).bad = none ∧ d.part = (s1.queue c.q.val).part.toNat ∧ c.a0.toNat < 256 ∧
     s1.sc.models.find c.a0.toNat ≠ none)
    ∧ (∃ (s : State) (c : KCmd), fromMirror c = false ∧ s.recall c.a1.toNat 128 = none ∧
       let s1 := s.touch c.a1.toNat 128
       let b := (s1.readDA c.a1.toNat 128).data
       let d := mdescOf b
       (s1.readDA c.a1.toNat 128).bad = none ∧ d.part = (s1.queue c.q.val).part.toNat ∧ c.a0.toNat < 256 ∧
       s1.sc.models.find c.a0.toNat = none ∧ ((s1.sc.models.filter fun kv => kv.2.part == d.part).length < 32) ∧
       s1.mdescOk b d = true)
    ∧ (∃ (s : State) (c : KCmd), s.sc.models.find c.a0.toNat = none)
    ∧ (∃ (s : State) (c : KCmd) (x : Model), s.sc.models.find c.a0.toNat = some x ∧ s.int.expelled = false)
    ∧ (∃ (s : State) (c : KCmd) (x : Model), s.sc.models.find c.a0.toNat = some x ∧ s.int.expelled = true ∧ c.a1 = 1)
    ∧ (∃ (s : State) (c : KCmd) (x : Model), s.sc.models.find c.a0.toNat = some x ∧ x.admits = true)
    ∧ (∃ (s : State) (c : KCmd) (x : Model), s.sc.models.find c.a0.toNat = some x ∧ x.admits = false ∧
       s.modelUsed c.a0.toNat = false)
    ∧ (∃ (s : State) (p : Fin 16),
       ((((s.part p.val).st ≠ .running ∧ (s.part p.val).st ≠ .stopping) ∨ (s.part p.val).depth.toNat ≤ (s.part p.val).lists.length)))
    ∧ (∃ (s : State) (p : Fin 16) (i : Nat) (m : Nat), (s.part p.val).st = .running ∧ (s.part p.val).depth ≠ 0 ∧
       (s.part p.val).lists = [] ∧ (s.part p.val).drop = false ∧ s.waitingBy p.val = [i] ∧
       s.chooseModel p.val [i] = some m ∧ (s.astE ((s.part p.val).entry i)).model = m ∧ ∃ (x : Model) (d : _),
       s.sc.models.find m = some x ∧ d = mdescOf x.desc ∧ 1 ≤ d.maxSeq ∧
       (s.astE ((s.part p.val).entry i)).rows ≤ d.maxRows)
    ∧ (∃ (s : State) (p : Fin 16) (l : SbList), (s.part p.val).lists = [l])
    ∧ (∃ (s : State) (p : Fin 16) (w : Switch), (s.part p.val).switching = some w ∧ (s.part p.val).halted = true)
    ∧ (∃ (s : State) (p : Fin 16) (w : Switch), (s.part p.val).switching = some w ∧ (s.part p.val).halted = false)
    ∧ (∃ (s : State) (wl : Nat) (cl : Nat) (w : WorkList) (e : WlEntry), s.co.wls = [(wl, w)] ∧
       w.toArrive = [(cl, e)] ∧ s.entryDead w.part cl e = false ∧ (s.cluster cl).wq.length < 16 ∧
       s.hub.injArm = false)
    ∧ (∃ (s : State) (cl : Fin 100) (e : WlEntry) (w : WorkList), (s.cluster cl.val).wq = [e] ∧
       s.co.wls.find e.wl = some w ∧ s.entryDead w.part cl.val e = false ∧
       ((∀ k ∈ e.list cl.val, (s.tcore k).stream = none)) ∧ s.mayStart w = true ∧ w.sb = false)
    ∧ (∃ (s : State) (k : Fin 1200) (wl : Nat), (s.tcore k.val).stream = some wl ∧ (s.tcore k.val).ended = false)
    ∧ (∃ (s : State) (k : Fin 1200) (wl : Nat), (s.tcore k.val).stream = some wl ∧ (s.tcore k.val).ended = true ∧
       s.partOf (coreCluster k.val) = none) := by
  exact ⟨⟨{ tU.writeDA 0x2000 tMd with sc := { models := [(255, { desc := tMd, part := 0 })] } },
          { tK with a0 := 255, a1 := 0x2000 }, by decide +kernel, by decide +kernel, by decide +kernel,
          by decide +kernel, by decide +kernel, by decide +kernel⟩,
    ⟨tU.writeDA 0x2000 tMd, { tK with a0 := 255, a1 := 0x2000 }, by decide +kernel, by decide +kernel,
     by decide +kernel, by decide +kernel, by decide +kernel, by decide +kernel, by decide +kernel,
     by decide +kernel⟩,
    ⟨tU, { tK with a0 := 255, a1 := 1 }, by decide +kernel⟩,
    ⟨{ tU with sc := { models := [(255, { desc := tMd, part := 0 })] } }, { tK with a0 := 255, a1 := 1 },
     { desc := tMd, part := 0 }, by decide +kernel, by decide +kernel⟩,
    ⟨{ tU with int := { expelled := true }, sc := { models := [(255, { desc := tMd, part := 0 })] } },
     { tK with a0 := 255, a1 := 1 }, { desc := tMd, part := 0 }, by decide +kernel, by decide +kernel,
     by decide +kernel⟩,
    ⟨{ tU with sc := { models := [(255, { desc := tMd, part := 0, admits := true })] } },
     { tK with a0 := 255, a1 := 1 }, { desc := tMd, part := 0, admits := true }, by decide +kernel,
     by decide +kernel⟩,
    ⟨{ tU with sc := { models := [(255, { desc := tMd, part := 0 })], tags := [(5, 255), (6, 3)] } },
     { tK with a0 := 255 }, { desc := tMd, part := 0 }, by decide +kernel, by decide +kernel, by decide +kernel⟩,
    ⟨tPt { st := .stopped, depth := 2 }, 15, by decide +kernel⟩,
    ⟨{ tPt { st := .running, cl := 1, astCount := 4 } with sc := { parts := [(15, { st := .running, cl := 1, astCount := 4 })], models := [(255, { desc := tMd, part := 15, admits := true })], ast := [(3, { st := .ready, model := 255, ncand := 4 })] } },
     15, 3, 255, by decide +kernel, by decide +kernel, by decide +kernel, by decide +kernel, by decide +kernel,
     by decide +kernel, by decide +kernel, { desc := tMd, part := 15, admits := true }, mdescOf tMd,
     by decide +kernel, rfl, by decide +kernel, by decide +kernel⟩,
    ⟨tPt { st := .running, lists := [{ slot := 1, model := 255, kind := 0, entries := [3], bytes := [], fin := true }] },
     15, { slot := 1, model := 255, kind := 0, entries := [3], bytes := [], fin := true }, by decide +kernel⟩,
    ⟨tPt { st := .running, halted := true, switching := some { model := 3, slot := 0 } }, 15,
     { model := 3, slot := 0 }, by decide +kernel, by decide +kernel⟩,
    ⟨tPt { st := .running, cl := 1, switching := some { model := 3, slot := 0 } }, 15, { model := 3, slot := 0 },
     by decide +kernel, by decide +kernel⟩,
    ⟨{ tU with co := { wls := [(4, { pair := 7, part := 15, toArrive := [(99, { wl := 4, cores := 0x800, stream := 0x100, step := 3, args := [], raw := [] })] })], clu := [(99, { wq := List.replicate 15 { wl := 3, cores := 1, stream := 0, step := 0, args := [], raw := [] } })] } },
     4, 99,
     { pair := 7, part := 15, toArrive := [(99, { wl := 4, cores := 0x800, stream := 0x100, step := 3, args := [], raw := [] })] },
     { wl := 4, cores := 0x800, stream := 0x100, step := 3, args := [], raw := [] }, by decide +kernel,
     by decide +kernel, by decide +kernel, by decide +kernel, by decide +kernel⟩,
    ⟨{ tPt { st := .running, cl := 1 <<< 99 } with co := { wls := [(4, { pair := 7, part := 15, left := 1 })], clu := [(99, { wq := [{ wl := 4, cores := 0x801, stream := 0x100, step := 3, args := [1, 2, 3, 4, 5, 6, 7, 8], raw := [] }] })] } },
     99, { wl := 4, cores := 0x801, stream := 0x100, step := 3, args := [1, 2, 3, 4, 5, 6, 7, 8], raw := [] },
     { pair := 7, part := 15, left := 1 }, by decide +kernel, by decide +kernel, by decide +kernel,
     by decide +kernel, by decide +kernel, by decide +kernel⟩,
    ⟨{ tU with co := { core := [(1199, { stream := some 4 })] } }, 1199, 4, by decide +kernel, by decide +kernel⟩,
    ⟨{ tU with co := { core := [(1199, { stream := some 4, ended := true })], wls := [(4, { pair := 7, part := 15, left := 1 })] } },
     1199, 4, by decide +kernel, by decide +kernel, by decide +kernel⟩⟩

/-- The hypotheses of QueueFlow are met. -/
theorem met_queue_flow :
    (∃ (s : State) (q : Fin 1024), s.bellServed q.val = true ∧ (s.queue q.val).st = .enabled)
    ∧ (∃ (s : State) (q : Fin 1024), (s.queue q.val).st = .disabled)
    ∧ (∃ (s : State) (q : Fin 1024), s.bellServed q.val = true ∧ (s.queue q.val).st ≠ .disabled)
    ∧ (∃ (s : State) (q : Fin 1024) (raw : Line) (ok : Bool), (s.queue q.val).head = none ∧
       s.mayFetch q.val = true ∧ s.taskBound q.val = false ∧ (s.queue q.val).infl.length < 64 ∧
       s.sqeRecall q.val = none ∧ s.sqeAt q.val raw ok = none)
    ∧ (∃ (s : State) (q : Fin 1024) (raw : Line) (ok : Bool), (s.queue q.val).head = none ∧
       s.mayFetch q.val = true ∧ s.taskBound q.val = false ∧ (s.queue q.val).infl.length < 64 ∧
       s.sqeRecall q.val = none ∧ ∃ (l : Line), s.sqeAt q.val raw ok = some l ∧ argKinds (field l 0 8).toNat = none)
    ∧ (∃ (s : State) (q : Fin 1024) (raw : Line) (ok : Bool), (s.queue q.val).head = none ∧
       s.mayFetch q.val = true ∧ s.taskBound q.val = false ∧ (s.queue q.val).infl.length < 64 ∧
       s.sqeRecall q.val = none ∧ ∃ (l : Line), s.sqeAt q.val raw ok = some l ∧
       let s1 := s.updQ q.val fun y => { y with sqHead := (y.sqHead + 1) % y.sqSize }
       s1.sqeCheck q.val l = none ∧ field l 0 8 ≠ 1 ∧ bit l 8 = false)
    ∧ (∃ (s : State) (q : Fin 1024), (s.queue q.val).sqHead = (s.queue q.val).sqTail ∧ (s.queue q.val).head = none)
    ∧ (∃ (s : State) (q : Fin 1024) (c : Cqe) (rest : List Cqe), (s.queue q.val).held = c :: rest ∧
       (s.queue q.val).full = false ∧ (s.queue q.val).loc = true ∧ c.waits = [])
    ∧ (∃ (s : State) (q : Fin 1024) (c : Cqe) (rest : List Cqe), (s.queue q.val).held = c :: rest ∧
       (s.queue q.val).full = true)
    ∧ (∃ (s : State) (q : Fin 1024) (c : Cqe) (rest : List Cqe), (s.queue q.val).held = c :: rest ∧
       s.time.now < c.due)
    ∧ (∃ (s : State) (q : Fin 1024) (c : Cqe) (rest : List Cqe), (s.queue q.val).held = c :: rest ∧
       c.due ≤ s.time.now ∧ c.waits = [] ∧ (s.queue q.val).cqLost = true)
    ∧ (∃ (s : State) (q : Fin 1024), (s.queue q.val).ien = true ∧ (s.queue q.val).coalCnt ≠ 0)
    ∧ (∃ (s : State) (q : Fin 1024) (e : Sqe) (since : Nat), (s.queue q.val).head = some (e, since) ∧
       field e.raw 0 8 = 1)
    ∧ (∃ (s : State) (q : Fin 1024), (s.queue q.val).st = .draining ∧ (s.queue q.val).infl = [] ∧
       (s.queue q.val).held = [] ∧ s.owedTo q.val = false)
    ∧ (∃ (s : State) (q : Fin 1024), (s.queue q.val).st ≠ .draining)
    ∧ (∃ (s : State) (p : AccessPath) (q : Fin 1024) (v : W32), s.csrWritable p .hub = true ∧
       (s.queue q.val).st = .disabled ∧ bit v 22 = false ∧ bit v 0 = true)
    ∧ (∃ (s : State) (p : AccessPath) (q : Fin 1024) (v : W32), s.csrWritable p .hub = true ∧
       (s.queue q.val).st = .enabled ∧ (s.queue q.val).en = true ∧ bit v 22 = false ∧ bit v 0 = false ∧
       (s.queue q.val).withCfg v = s.queue q.val ∧ (s.queue q.val).head = none)
    ∧ (∃ (s : State) (k : Fin 1200),
       (((s.tcore k.val).waitDue = none ∨ ∃ d, (s.tcore k.val).waitDue = some d ∧ s.time.now < d)))
    ∧ (∃ (s : State) (k : Fin 1200) (d : Nat), (s.tcore k.val).waitDue = some d ∧ d ≤ s.time.now ∧
       s.partOf (coreCluster k.val) = none) := by
  exact ⟨⟨tQ { en := true, st := .enabled }, 1023, by decide +kernel, by decide +kernel⟩,
    ⟨tQ {}, 1023, by decide +kernel⟩,
    ⟨tQ { en := true, st := .enabled, cqTail := 3, cqHead := 14 }, 1023, by decide +kernel, by decide +kernel⟩,
    ⟨tQ { en := true, st := .enabled, sqTail := 1 }, 1023, 0, false, by decide +kernel, by decide +kernel,
     by decide +kernel, by decide +kernel, by decide +kernel, by decide +kernel⟩,
    ⟨tQ { en := true, st := .enabled, sqTail := 1 }, 1023, 0x000500FF, true, by decide +kernel, by decide +kernel,
     by decide +kernel, by decide +kernel, by decide +kernel, 0x000500FF, by decide +kernel, by decide +kernel⟩,
    ⟨tQ { en := true, st := .enabled, sqTail := 0, sqHead := 15 }, 1023, 0x00050000, true, by decide +kernel,
     by decide +kernel, by decide +kernel, by decide +kernel, by decide +kernel, 0x00050000, by decide +kernel,
     by decide +kernel, by decide +kernel, by decide +kernel⟩,
    ⟨tQ { en := true, st := .enabled, sqTail := 5, sqHead := 5 }, 1023, by decide +kernel, by decide +kernel⟩,
    ⟨{ tQ { en := true, st := .enabled, loc := true, held := [{ id := 7 }], cqTail := 14, cqFull := true } with host := { tU.host with lcwEn := true, lcwBase := 3 } },
     1023, { id := 7 }, [], by decide +kernel, by decide +kernel, by decide +kernel, by decide +kernel⟩,
    ⟨tQ { en := true, st := .enabled, held := [{ id := 7 }], cqTail := 15, cqFull := true }, 1023, { id := 7 }, [],
     by decide +kernel, by decide +kernel⟩,
    ⟨{ tQ { en := true, st := .enabled, held := [{ id := 7, due := 9 }], cqTail := 15, cqFull := true } with time := { now := 8 } },
     1023, { id := 7, due := 9 }, [], by decide +kernel, by decide +kernel⟩,
    ⟨{ tQ { en := true, st := .enabled, held := [{ id := 7, due := 9 }], cqTail := 15, cqFull := true, cqLost := true } with time := { now := 9 } },
     1023, { id := 7, due := 9 }, [], by decide +kernel, by decide +kernel, by decide +kernel, by decide +kernel⟩,
    ⟨{ tQ { en := true, st := .enabled, ien := true, coalCnt := 1, coalUs := 3, coalFirst := 0 } with time := { now := 3000 } },
     1023, by decide +kernel, by decide +kernel⟩,
    ⟨{ tQ { en := true, st := .enabled, head := some ({ raw := 0x00050001, tAcc := 3 }, 9) } with time := { now := 9 } },
     1023, { raw := 0x00050001, tAcc := 3 }, 9, by decide +kernel, by decide +kernel⟩,
    ⟨tQ { st := .draining }, 1023, by decide +kernel, by decide +kernel, by decide +kernel, by decide +kernel⟩,
    ⟨tQ { st := .error }, 1023, by decide +kernel⟩,
    ⟨tQ { sbase := 0x1000 }, .pf, 1023, 0x00020421, by decide +kernel, by decide +kernel, by decide +kernel,
     by decide +kernel⟩,
    ⟨tQ { en := true, st := .enabled, sqLog := 4, cqLog := 4 }, .pf, 1023, 0x00000420, by decide +kernel,
     by decide +kernel, by decide +kernel, by decide +kernel, by decide +kernel, by decide +kernel,
     by decide +kernel⟩,
    ⟨tC 1199 { waitDue := some 1 }, 1199, by decide +kernel⟩,
    ⟨{ tC 1199 { waitDue := some 9, stream := some 4 } with time := { now := 9 } }, 1199, 9, by decide +kernel,
     by decide +kernel, by decide +kernel⟩⟩

/-- The hypotheses of HostLinkAndFunctions are met. -/
theorem met_host_link_and_functions :
    (∃ (s : State), s.portRuns = true)
    ∧ (∃ (s : State), s.portRuns = false)
    ∧ (∃ (s : State), s.host.up = true)
    ∧ (∃ (s : State), s.host.up = false)
    ∧ (∃ (s : State), s.rst.start = .ready)
    ∧ (∃ (s : State), s.queues = [] ∧ s.host.groups = [])
    ∧ (∃ (s : State), s.host.up = true ∧ s.sec.sessions ≠ [])
    ∧ (∃ (s : State), s.sec.sessions = []) := by
  exact ⟨⟨tU, by decide +kernel⟩,
    ⟨{ tU with rails := { main := false } , rst := { start := .halted } }, by decide +kernel⟩,
    ⟨tH id, by decide +kernel⟩,
    ⟨{ tU with host := {} }, by decide +kernel⟩,
    ⟨tU, by decide +kernel⟩,
    ⟨{ tU with host := { tU.host with funcs := [(16, { bme := true, d3hot := true })], msixPend := [(16, 3), (0, 1)] } },
     by decide +kernel, by decide +kernel⟩,
    ⟨{ tU with sec := { sessions := [3] } }, by decide +kernel, by decide +kernel⟩,
    ⟨tU, by decide +kernel⟩⟩

/-- The hypotheses of HostMemoryAccess are met. -/
theorem met_host_memory_access :
    (∃ (s : State), s.host.up = true ∧ s.rst.start = .ready)
    ∧ (∃ (s : State) (off : BitVec 32) (n : Nat), s.memServed = true ∧ s.host.hdm0.committed = true ∧
       let da := s.host.aptBase.toNat * 2 ^ 21 + off.toNat
       s.host.aptEn = true ∧ s.place da = .basin n)
    ∧ (∃ (s : State) (off : BitVec 32) (data : List Byte) (n : Nat), s.memServed = true ∧
       s.host.hdm0.committed = true ∧
       let da := s.host.aptBase.toNat * 2 ^ 21 + off.toNat
       s.host.aptEn = true ∧ s.place da = .basin n ∧ s.inStore da = false ∧ da % 64 + data.length ≤ 64)
    ∧ (∃ (s : State) (off : BitVec 32) (data : List Byte), s.memServed = true ∧ s.host.hdm0.committed = true ∧
       let da := s.host.aptBase.toNat * 2 ^ 21 + off.toNat
       s.host.aptEn = true ∧ s.place da = .unmapped ∧ da % 64 + data.length ≤ 64)
    ∧ (∃ (s : State), s.memServed = true ∧ s.host.hdm0.committed = true ∧ s.host.aptEn = false)
    ∧ (∃ (s : State) (l : BitVec 24), s.memServed = true ∧ s.host.hdm1.committed = true ∧ s.host.lcwEn = true ∧
       64 * l.toNat < s.windowSize ∧ s.host.biWait = [] ∧ s.host.snoop.length < snoopSize)
    ∧ (∃ (s : State), s.memServed = true ∧ s.host.hdm1.committed = true ∧ s.host.lcwEn = true ∧ s.host.biWait = [])
    ∧ (∃ (s : State) (p : AccessPath) (v : W32), s.csrWritable p .hub = true ∧ s.host.aptEn = false ∧
       bit v 0 = true ∧ s.host.lcwEn = false)
    ∧ (∃ (s : State) (p : AccessPath) (v : W32), s.csrWritable p .hub = true ∧ s.host.lcwEn = false ∧
       bit v 0 = false)
    ∧ (∃ (s : State) (p : AccessPath) (v : W32), s.csrWritable p .hub = true ∧ s.host.lcwEn = true ∧
       bit v 0 = false ∧ s.lcwPinned = true)
    ∧ (∃ (s : State) (p : AccessPath) (v : W32), s.csrWritable p .hub = true ∧ s.host.bfBusy = false ∧
       bit v 12 = true) := by
  exact ⟨⟨tH id, by decide +kernel, by decide +kernel⟩,
    ⟨tH id, 0x3F, 0, by decide +kernel, by decide +kernel, by decide +kernel, by decide +kernel⟩,
    ⟨tH id, 0x20, List.replicate 32 7, 0, by decide +kernel, by decide +kernel, by decide +kernel,
     by decide +kernel, by decide +kernel, by decide +kernel⟩,
    ⟨tH fun h => { h with aptBase := 0x5FE }, 0x100003C0, [1], by decide +kernel, by decide +kernel,
     by decide +kernel, by decide +kernel, by decide +kernel⟩,
    ⟨tH fun h => { h with aptEn := false }, by decide +kernel, by decide +kernel, by decide +kernel⟩,
    ⟨(tH id).writeDA 0xFFFFFC0 [1], 0xFFFFF, by decide +kernel, by decide +kernel, by decide +kernel,
     by decide +kernel, by decide +kernel, by decide +kernel⟩,
    ⟨tH fun h => { h with groups := [(0, { en := true, first := 4095, count := 1, q := 3 })] }, by decide +kernel,
     by decide +kernel, by decide +kernel, by decide +kernel⟩,
    ⟨{ tU with host := { tU.host with aptErr := true } }, .pf, 0x3, by decide +kernel, by decide +kernel,
     by decide +kernel, by decide +kernel⟩,
    ⟨tU, .pf, 0x000F0006, by decide +kernel, by decide +kernel, by decide +kernel⟩,
    ⟨tH id, .pf, 0, by decide +kernel, by decide +kernel, by decide +kernel, by decide +kernel⟩,
    ⟨tU, .pf, 0x17FF, by decide +kernel, by decide +kernel, by decide +kernel⟩⟩

/-- The hypotheses of HostCoherence are met. -/
theorem met_host_coherence :
    (∃ (s : State) (hpa : BitVec 46), s.host.hlc.find hpa.toNat = none)
    ∧ (∃ (s : State) (hpa : BitVec 46) (l : HlcLine), s.host.hlc.find hpa.toNat = some l ∧ l.superseded = false ∧
       l.st = .e)
    ∧ (∃ (s : State) (hpa : BitVec 46) (l : HlcLine), s.host.hlc.find hpa.toNat = some l ∧ l.superseded = false ∧
       l.st = .m ∧ l.evicting = true)
    ∧ (∃ (s : State) (hpa : BitVec 46) (kind : SnoopKind) (l : HlcLine), s.host.hlc.find hpa.toNat = some l ∧
       l.superseded = false ∧ l.st = .m ∧ l.evicting = false ∧ kind = .cur)
    ∧ (∃ (s : State) (hpa : BitVec 46) (kind : SnoopKind) (l : HlcLine), s.host.hlc.find hpa.toNat = some l ∧
       l.superseded = false ∧ l.st = .m ∧ l.evicting = false ∧ kind ≠ .cur)
    ∧ (∃ (s : State) (r : CacheReq), s.host.cacheReqs = [r] ∧ r.waits = false ∧ r.op ≠ .rdOwn)
    ∧ (∃ (s : State) (r : CacheReq), s.host.cacheReqs = [r] ∧ r.waits = false ∧ r.op = .rdOwn)
    ∧ (∃ (s : State) (r : CacheReq), s.host.cacheReqs = [r] ∧ r.waits = false)
    ∧ (∃ (s : State) (hpa : BitVec 46) (l : HlcLine), s.host.hlc.find hpa.toNat = some l ∧ l.evicting = true)
    ∧ (∃ (s : State) (hpa : BitVec 46) (l : HlcLine), s.host.hlc.find hpa.toNat = some l ∧ l.evicting = false)
    ∧ (∃ (s : State) (hpa : BitVec 46) (l : HlcLine), s.host.hlc.find hpa.toNat = some l ∧ l.st = .m ∧
       l.evicting = false ∧ s.elapsed l.dirtySince (1000 * s.host.wb) = true)
    ∧ (∃ (s : State) (hpa : BitVec 46) (l : HlcLine), s.host.hlc.find hpa.toNat = some l ∧
       s.elapsed l.dirtySince (1000 * s.host.wb) = false)
    ∧ (∃ (s : State), s.host.biWait = [])
    ∧ (∃ (s : State) (w : BiWait) (l : Nat), s.host.biWait = [w] ∧ w.sent = true ∧ s.windowLine w.da = some l)
    ∧ (∃ (s : State) (p : AccessPath) (v : W32), s.csrWritable p .hub = true ∧ bit v 16 = false)
    ∧ (∃ (s : State) (p : AccessPath) (g : Fin 64) (v : W32), s.csrWritable p .hub = true ∧
       (s.group g.val).en = false ∧ bit v 0 = true) := by
  exact ⟨⟨tU, 0x3FFFFFFFFFFF, by decide +kernel⟩,
    ⟨{ tU with host := { tU.host with hlc := [(5, {})] } }, 5, {}, by decide +kernel, by decide +kernel,
     by decide +kernel⟩,
    ⟨{ tU with host := { tU.host with hlc := [(5, { st := .m, evicting := true })] } }, 5,
     { st := .m, evicting := true }, by decide +kernel, by decide +kernel, by decide +kernel, by decide +kernel⟩,
    ⟨{ tU with host := { tU.host with hlc := [(5, { st := .m })] } }, 5, .cur, { st := .m }, by decide +kernel,
     by decide +kernel, by decide +kernel, by decide +kernel, by decide +kernel⟩,
    ⟨{ tU with host := { tU.host with hlc := [(5, { st := .m })] } }, 5, .inv, { st := .m }, by decide +kernel,
     by decide +kernel, by decide +kernel, by decide +kernel, by decide +kernel⟩,
    ⟨{ tU with host := { tU.host with cacheReqs := [{ op := .itoMWr, hpa := 320 }] } },
     { op := .itoMWr, hpa := 320 }, by decide +kernel, by decide +kernel, by decide +kernel⟩,
    ⟨{ tU with host := { tU.host with cacheReqs := [{ op := .rdOwn, hpa := 320 }] } }, { op := .rdOwn, hpa := 320 },
     by decide +kernel, by decide +kernel, by decide +kernel⟩,
    ⟨{ tU with host := { tU.host with cacheReqs := [{ op := .itoMWr, hpa := 320, model := some 7, data := [1, 2] }] } },
     { op := .itoMWr, hpa := 320, model := some 7, data := [1, 2] }, by decide +kernel, by decide +kernel⟩,
    ⟨{ tU with host := { tU.host with hlc := [(5, { st := .m, evicting := true })] } }, 5,
     { st := .m, evicting := true }, by decide +kernel, by decide +kernel⟩,
    ⟨{ tU with host := { tU.host with hlc := [(5, { st := .m })] } }, 5, { st := .m }, by decide +kernel,
     by decide +kernel⟩,
    ⟨{ tU with time := { now := 20000 }, host := { tU.host with hlc := [(5, { st := .m })] } }, 5, { st := .m },
     by decide +kernel, by decide +kernel, by decide +kernel, by decide +kernel⟩,
    ⟨{ tU with time := { now := 19999 }, host := { tU.host with hlc := [(5, { st := .m })] } }, 5, { st := .m },
     by decide +kernel, by decide +kernel⟩,
    ⟨tH id, by decide +kernel⟩,
    ⟨tH fun h => { h with snoop := [(0xFFFFF, .m)], biWait := [{ da := 0xFFFFFC0, write := true, data := [1, 2] }] },
     { da := 0xFFFFFC0, write := true, data := [1, 2] }, 0xFFFFF, by decide +kernel, by decide +kernel,
     by decide +kernel⟩,
    ⟨tU, .pf, 0xFFFF, by decide +kernel, by decide +kernel⟩,
    ⟨{ tH id with queues := [(3, { en := true, st := .enabled })], host := { (tH id).host with groups := [(63, { q := 3 })] } },
     .pf, 63, 0x7FFD, by decide +kernel, by decide +kernel, by decide +kernel⟩⟩

/-- The hypotheses of QuefyLinkAndStream are met. -/
theorem met_quefy_link_and_stream :
    (∃ (s : State) (lanes : W16), s.pl.link = false ∧ s.pl.prsnt = true ∧ s.linkTrains = true ∧
     s.rst.start = .ready ∧ 8 ≤ ({ s.pl with lanes := lanes } : PairState).laneCount ∧
     (s.rst.effStraps.pair = false ∨ (s.pl.role ≠ .split ∧ s.pl.met = true)))
    ∧ (∃ (s : State) (lanes : W16) (peer : Role), s.pl.link = false ∧ s.pl.prsnt = true ∧ s.linkTrains = true ∧
       s.rst.start = .ready ∧ 8 ≤ ({ s.pl with lanes := lanes } : PairState).laneCount ∧
       s.rst.effStraps.pair = true ∧ s.pl.met = false ∧ s.pl.role = .active ∧ peer = .standbyIncomplete)
    ∧ (∃ (s : State) (lanes : W16) (peer : Role), s.pl.link = false ∧ s.pl.prsnt = true ∧ s.linkTrains = true ∧
       s.rst.start = .ready ∧ 8 ≤ ({ s.pl with lanes := lanes } : PairState).laneCount ∧
       s.rst.effStraps.pair = true ∧ s.pl.met = false ∧ s.pl.role = .active ∧ peer ≠ .standbyIncomplete)
    ∧ (∃ (s : State) (lanes : W16) (peer : Role) (ps : Bool) (h : Bool), s.pl.link = false ∧ s.pl.prsnt = true ∧
       s.linkTrains = true ∧ s.rst.start = .ready ∧ 8 ≤ ({ s.pl with lanes := lanes } : PairState).laneCount ∧
       s.rst.effStraps.pair = true ∧ s.pl.role = .split ∧ s.pl.side = true ∧ peer = .split ∧ ps = false ∧ h = true)
    ∧ (∃ (s : State) (lanes : W16) (peer : Role), s.pl.link = false ∧ s.pl.prsnt = true ∧ s.linkTrains = true ∧
       s.rst.start = .ready ∧ 8 ≤ ({ s.pl with lanes := lanes } : PairState).laneCount ∧
       s.rst.effStraps.pair = true ∧ s.pl.role = .split ∧ s.pl.side = true ∧ peer ≠ .split)
    ∧ (∃ (s : State) (l : Fin 16), s.pl.link = true ∧ s.pl.lanes.getLsbD l.val = true)
    ∧ (∃ (s : State), s.pl.link = true)
    ∧ (∃ (s : State), s.pl.prsnt = true)
    ∧ (∃ (s : State) (c : Commit), s.receives = true ∧ s.pl.committed < c.n)
    ∧ (∃ (s : State), s.pl.role = .active ∧ s.pl.copyEpoch = none ∧ s.pl.swapEpoch = none)
    ∧ (∃ (s : State), s.pl.prsnt = true ∧ s.pl.pdnSeen = false ∧ s.pl.promoting = false ∧ s.pl.role = .active)
    ∧ (∃ (s : State), s.pl.prsnt = true ∧ s.pl.pdnSeen = false ∧ s.pl.promoting = false ∧ s.pl.role = .standby ∧
       s.pl.auto = false)
    ∧ (∃ (s : State), s.pl.prsnt = true ∧ s.pl.pdnSeen = false ∧ s.pl.promoting = false ∧ s.pl.role = .standby ∧
       s.pl.auto = true ∧ s.pl.rx = [] ∧ s.int.rbAuto = false) := by
  exact ⟨⟨tX fun p => { p with link := false, role := .active }, 0x00FF, by decide +kernel, by decide +kernel,
          by decide +kernel, by decide +kernel, by decide +kernel, by decide +kernel⟩,
    ⟨tX fun p => { p with link := false, met := false, role := .active }, 0x00FF, .standbyIncomplete,
     by decide +kernel, by decide +kernel, by decide +kernel, by decide +kernel, by decide +kernel,
     by decide +kernel, by decide +kernel, by decide +kernel, by decide +kernel⟩,
    ⟨tX fun p => { p with link := false, met := false, role := .active }, 0x00FF, .active, by decide +kernel,
     by decide +kernel, by decide +kernel, by decide +kernel, by decide +kernel, by decide +kernel,
     by decide +kernel, by decide +kernel, by decide +kernel⟩,
    ⟨tX fun p => { p with link := false, role := .split, side := true, former := .standby, rx := [{ n := 5 }] },
     0x00FF, .split, false, true, by decide +kernel, by decide +kernel, by decide +kernel, by decide +kernel,
     by decide +kernel, by decide +kernel, by decide +kernel, by decide +kernel, by decide +kernel,
     by decide +kernel, by decide +kernel⟩,
    ⟨tX fun p => { p with link := false, role := .split, side := true, former := .standby, rx := [{ n := 5 }] },
     0x00FF, .solo, by decide +kernel, by decide +kernel, by decide +kernel, by decide +kernel, by decide +kernel,
     by decide +kernel, by decide +kernel, by decide +kernel, by decide +kernel⟩,
    ⟨tX fun p => { p with lanes := 0x81FF, role := .active }, 15, by decide +kernel, by decide +kernel⟩,
    ⟨tX fun p => { p with role := .standby }, by decide +kernel⟩,
    ⟨tX fun p => { p with role := .standby }, by decide +kernel⟩,
    ⟨tX fun p => { p with role := .standby, committed := 4, rx := [{ n := 5 }] }, { n := 5, items := 0 },
     by decide +kernel, by decide +kernel⟩,
    ⟨tX fun p => { p with role := .active, committed := 4, tx := [{ n := 5 }, { n := 6 }] }, by decide +kernel,
     by decide +kernel, by decide +kernel⟩,
    ⟨tX fun p => { p with role := .active, tx := [{ n := 5 }] }, by decide +kernel, by decide +kernel,
     by decide +kernel, by decide +kernel⟩,
    ⟨tX fun p => { p with role := .standby, auto := false }, by decide +kernel, by decide +kernel,
     by decide +kernel, by decide +kernel, by decide +kernel⟩,
    ⟨tX fun p => { p with role := .standby, committed := 9 }, by decide +kernel, by decide +kernel,
     by decide +kernel, by decide +kernel, by decide +kernel, by decide +kernel, by decide +kernel⟩⟩

/-- The hypotheses of PairCommands are met. -/
theorem met_pair_commands :
    (∃ (s : State) (p : AccessPath) (fp : List Nat) (t0 : Nat), s.csrWritable p .hub = true ∧ s.pl.busy = false ∧
     s.rst.effStraps.pair = true ∧ s.pl.role = .solo ∧ s.pl.link = true ∧ s.time.now < t0 + 100000000 ∧
     s.pl.peerCmd = some (2, fp, t0))
    ∧ (∃ (s : State) (p : AccessPath) (fp : List Nat) (t0 : Nat), s.csrWritable p .hub = true ∧ s.pl.busy = false ∧
       s.rst.effStraps.pair = true ∧ s.pl.role = .solo ∧ s.pl.link = true ∧ s.time.now < t0 + 100000000 ∧
       s.pl.peerCmd = some (1, fp, t0))
    ∧ (∃ (s : State) (p : AccessPath), s.csrWritable p .hub = true ∧ s.pl.busy = false ∧
       s.rst.effStraps.pair = true ∧ s.pl.role = .solo ∧ s.pl.link = false)
    ∧ (∃ (s : State) (p : AccessPath), s.csrWritable p .hub = true ∧ s.pl.busy = false ∧
       s.rst.effStraps.pair = true ∧ s.pl.role ≠ .solo)
    ∧ (∃ (s : State) (p : AccessPath), s.csrWritable p .hub = true ∧ s.pl.busy = false ∧
       s.rst.effStraps.pair = true ∧ s.pl.role = .solo ∧ s.pl.link = true ∧ s.pl.peerCmd = none)
    ∧ (∃ (s : State) (p : AccessPath), s.csrWritable p .hub = true ∧ s.pl.busy = false ∧
       s.rst.effStraps.pair = true ∧ s.pl.role = .active ∧ s.pl.copy = false ∧ s.pl.peerRole = .standbyIncomplete ∧
       s.pl.link = true)
    ∧ (∃ (s : State) (p : AccessPath), s.csrWritable p .hub = true ∧ s.pl.busy = false ∧
       s.rst.effStraps.pair = true ∧ (s.pl.role ≠ .active ∨ s.pl.copy = true))
    ∧ (∃ (s : State) (p : AccessPath), s.csrWritable p .hub = true ∧ s.pl.busy = false ∧
       s.rst.effStraps.pair = true ∧ s.pl.role ≠ .solo)
    ∧ (∃ (s : State) (p : AccessPath), s.csrWritable p .hub = true ∧ s.pl.busy = false ∧
       s.rst.effStraps.pair = true ∧ s.pl.role = .solo)
    ∧ (∃ (s : State) (p : AccessPath), s.csrWritable p .hub = true ∧ s.pl.busy = false ∧
       s.rst.effStraps.pair = true ∧ s.pl.role = .standby ∧ s.pl.promoting = false ∧ s.pl.rx = [] ∧
       s.int.rbAuto = false)
    ∧ (∃ (s : State) (p : AccessPath), s.csrWritable p .hub = true ∧ s.pl.busy = false ∧
       s.rst.effStraps.pair = true ∧ s.pl.role = .active ∧ s.pl.promoting = false)
    ∧ (∃ (s : State) (p : AccessPath), s.csrWritable p .hub = true ∧ s.pl.busy = false ∧
       s.rst.effStraps.pair = true ∧ s.pl.role = .active ∧ s.pl.copy = false ∧ s.pl.peerRole = .standby ∧
       s.pl.link = true)
    ∧ (∃ (s : State) (p : AccessPath), s.csrWritable p .hub = true ∧ s.pl.busy = false ∧
       s.rst.effStraps.pair = true ∧ (s.pl.role ≠ .active ∨ s.pl.copy = true))
    ∧ (∃ (s : State) (p : AccessPath), s.csrWritable p .hub = true ∧ s.pl.busy = false ∧
       s.rst.effStraps.pair = true ∧ ∃ (lanes : W16), s.pl.link = true ∧ rolePaired s.pl.role = true ∧
       8 ≤ ({ s.pl with lanes := lanes } : PairState).laneCount)
    ∧ (∃ (s : State) (p : AccessPath), s.csrWritable p .hub = true ∧ s.pl.busy = false ∧
       s.rst.effStraps.pair = true ∧ s.pl.link = false)
    ∧ (∃ (s : State) (p : AccessPath), s.csrWritable p .hub = true ∧ s.pl.busy = false ∧
       s.rst.effStraps.pair = false ∧ s.pl.promoting = false)
    ∧ (∃ (s : State) (op : Nat) (t0 : Nat), s.pl.waiting = some (op, t0))
    ∧ (∃ (s : State) (fp : List Nat) (t0 : Nat), s.pl.link = true ∧ s.pl.waiting = some (1, t0) ∧
       s.time.now < t0 + 100000000 ∧ fp = s.fingerprint)
    ∧ (∃ (s : State), s.pl.link = true ∧ s.pl.waiting = none) := by
  exact ⟨⟨{ tX fun p => { p with peerCmd := some (2, [1], 0) } with time := { now := 99999999 } }, .pf, [1], 0,
          by decide +kernel, by decide +kernel, by decide +kernel, by decide +kernel, by decide +kernel,
          by decide +kernel, by decide +kernel⟩,
    ⟨{ tX fun p => { p with peerCmd := some (1, [1], 0) } with time := { now := 99999999 } }, .pf, [1], 0,
     by decide +kernel, by decide +kernel, by decide +kernel, by decide +kernel, by decide +kernel,
     by decide +kernel, by decide +kernel⟩,
    ⟨tX fun p => { p with link := false, lanes := 0 }, .pf, by decide +kernel, by decide +kernel, by decide +kernel,
     by decide +kernel, by decide +kernel⟩,
    ⟨tX fun p => { p with role := .split }, .pf, by decide +kernel, by decide +kernel, by decide +kernel,
     by decide +kernel⟩,
    ⟨tX id, .pf, by decide +kernel, by decide +kernel, by decide +kernel, by decide +kernel, by decide +kernel,
     by decide +kernel⟩,
    ⟨tX fun p => { p with role := .active, peerRole := .standbyIncomplete }, .pf, by decide +kernel,
     by decide +kernel, by decide +kernel, by decide +kernel, by decide +kernel, by decide +kernel,
     by decide +kernel⟩,
    ⟨tX fun p => { p with role := .active, copy := true }, .pf, by decide +kernel, by decide +kernel,
     by decide +kernel, by decide +kernel⟩,
    ⟨tX fun p => { p with role := .standby, rx := [{ n := 5 }] }, .pf, by decide +kernel, by decide +kernel,
     by decide +kernel, by decide +kernel⟩,
    ⟨tX id, .pf, by decide +kernel, by decide +kernel, by decide +kernel, by decide +kernel⟩,
    ⟨tX fun p => { p with role := .standby, committed := 9, promos := 255 }, .pf, by decide +kernel,
     by decide +kernel, by decide +kernel, by decide +kernel, by decide +kernel, by decide +kernel,
     by decide +kernel⟩,
    ⟨tX fun p => { p with role := .active }, .pf, by decide +kernel, by decide +kernel, by decide +kernel,
     by decide +kernel, by decide +kernel⟩,
    ⟨tX fun p => { p with role := .active, peerRole := .standby }, .pf, by decide +kernel, by decide +kernel,
     by decide +kernel, by decide +kernel, by decide +kernel, by decide +kernel, by decide +kernel⟩,
    ⟨tX fun p => { p with role := .standby }, .pf, by decide +kernel, by decide +kernel, by decide +kernel,
     by decide +kernel⟩,
    ⟨tX fun p => { p with role := .standby }, .pf, by decide +kernel, by decide +kernel, by decide +kernel, 0xFF00,
     by decide +kernel, by decide +kernel, by decide +kernel⟩,
    ⟨tX fun p => { p with link := false }, .pf, by decide +kernel, by decide +kernel, by decide +kernel,
     by decide +kernel⟩,
    ⟨tU, .pf, by decide +kernel, by decide +kernel, by decide +kernel, by decide +kernel⟩,
    ⟨{ tX fun p => { p with waiting := some (1, 5), busy := true, op := 1 } with time := { now := 100000005 } }, 1,
     5, by decide +kernel⟩,
    ⟨{ tX fun p => { p with waiting := some (1, 5), busy := true, op := 1 } with time := { now := 100000004 } },
     tU.fingerprint, 5, by decide +kernel, by decide +kernel, by decide +kernel, rfl⟩,
    ⟨tX id, by decide +kernel, by decide +kernel⟩⟩

/-- The hypotheses of SilentErrors are met. -/
theorem met_silent_errors :
    (∃ (s : State) (k : Fin 5) (i : Nat), i < (UnitKind.ofCode k.val).count ∧
     s.serving (UnitKind.ofCode k.val) i = true ∧ (s.bak.unit (UnitKind.ofCode k.val) i).health = .inService)
    ∧ (∃ (s : State) (k : Fin 5) (i : Nat), i < (UnitKind.ofCode k.val).count ∧
       s.serving (UnitKind.ofCode k.val) i = true)
    ∧ (∃ (s : State) (k : Fin 5) (i : Nat), i < (UnitKind.ofCode k.val).count ∧
       s.excluded (UnitKind.ofCode k.val) i = false ∧ (s.bak.unit (UnitKind.ofCode k.val) i).health = .suspect ∧
       s.elapsed (s.bak.unit (UnitKind.ofCode k.val) i).since (72 * hourNs) = true)
    ∧ (∃ (s : State) (k : Fin 5) (i : Nat), i < (UnitKind.ofCode k.val).count ∧
       s.excluded (UnitKind.ofCode k.val) i = false ∧ (s.bak.unit (UnitKind.ofCode k.val) i).health = .suspect ∧
       s.elapsed (s.bak.unit (UnitKind.ofCode k.val) i).since (72 * hourNs) = false)
    ∧ (∃ (s : State) (k : Fin 1200),
       let live := (s.time.now :: (s.bak.unit .core k.val).ces).filter fun t => decide (s.time.now < t + hourNs)
       live.length ≤ s.int.ceLimit.toNat)
    ∧ (∃ (s : State), s.pl.role = .active ∧ s.int.verify = true ∧ s.int.dis = [] ∧ s.int.sweep = [])
    ∧ (∃ (s : State), s.pl.role = .active)
    ∧ (∃ (s : State), s.int.sweep = [])
    ∧ (∃ (s : State) (m : Nat), s.int.sweep = [m] ∧ s.upd.recs = [] ∧ s.int.peerVerdict = none)
    ∧ (∃ (s : State), s.int.disagree = true ∧ s.int.verdict = none)
    ∧ (∃ (s : State), s.int.disagree = true ∧ ∃ mine, s.int.verdict = some mine ∧ s.int.sweep = [])
    ∧ (∃ (s : State) (p : AccessPath), s.csrWritable p .hub = true ∧ s.int.busy = false ∧ s.int.expelled = true)
    ∧ (∃ (s : State) (p : AccessPath), s.csrWritable p .hub = true ∧ s.int.busy = false ∧ s.int.expelled = false)
    ∧ (∃ (s : State) (p : AccessPath), s.csrWritable p .hub = true ∧ s.int.busy = false ∧ s.pl.role ≠ .solo ∧
       s.int.rbClosing = none)
    ∧ (∃ (s : State) (p : AccessPath), s.csrWritable p .hub = true ∧ s.int.busy = false ∧ s.pl.role = .solo ∧
       s.int.expelled = false ∧ s.int.rbClosing = none ∧ s.int.rb.toNat < s.int.ver)
    ∧ (∃ (s : State) (p : AccessPath), s.csrWritable p .hub = true ∧ s.int.busy = false ∧ s.pl.role = .solo ∧
       s.int.expelled = false ∧ s.int.rbClosing = none ∧ s.int.ver ≤ s.int.rb.toNat ∧
       s.int.rb.toNat ≤ s.upd.accepting ∧ s.upd.journalFrom ≤ s.int.rb.toNat)
    ∧ (∃ (s : State) (p : AccessPath), s.csrWritable p .hub = true) := by
  exact ⟨⟨tU, 4, 95, by decide +kernel, by decide +kernel, by decide +kernel⟩,
    ⟨{ tU with bak := { core := [(1199, { health := .suspect })] } }, 0, 1199, by decide +kernel,
     by decide +kernel⟩,
    ⟨{ tU with time := { now := 72 * hourNs }, bak := { lu := [(383, { health := .suspect })] } }, 3, 383,
     by decide +kernel, by decide +kernel, by decide +kernel, by decide +kernel⟩,
    ⟨{ tU with time := { now := 72 * hourNs - 1 }, bak := { lu := [(383, { health := .suspect })] } }, 3, 383,
     by decide +kernel, by decide +kernel, by decide +kernel, by decide +kernel⟩,
    ⟨{ tU with time := { now := hourNs }, bak := { core := [(1199, { ces := [hourNs - 1, 1, 0] })] } }, 1199,
     by decide +kernel⟩,
    ⟨{ tX fun p => { p with role := .active } with upd := { epoch := 8 } }, by decide +kernel, by decide +kernel,
     by decide +kernel, by decide +kernel⟩,
    ⟨{ tX fun p => { p with role := .active } with upd := { epoch := 8 } }, by decide +kernel⟩,
    ⟨tU, by decide +kernel⟩,
    ⟨{ tX fun p => { p with role := .active } with int := { sweep := [3], disagree := true, dis := [3] }, upd := { dig := [(3, 0)] } },
     3, by decide +kernel, by decide +kernel, by decide +kernel⟩,
    ⟨{ tX fun p => { p with role := .active } with int := { disagree := true, dis := [3] } }, by decide +kernel,
     by decide +kernel⟩,
    ⟨{ tX fun p => { p with role := .active } with int := { disagree := true, dis := [3], verdict := some false } },
     by decide +kernel, false, by decide +kernel, by decide +kernel⟩,
    ⟨{ tU with int := { expelled := true } }, .pf, by decide +kernel, by decide +kernel, by decide +kernel⟩,
    ⟨tU, .pf, by decide +kernel, by decide +kernel, by decide +kernel⟩,
    ⟨tX fun p => { p with role := .active }, .pf, by decide +kernel, by decide +kernel, by decide +kernel,
     by decide +kernel⟩,
    ⟨{ tU with int := { rb := 7, ver := 8 } }, .pf, by decide +kernel, by decide +kernel, by decide +kernel,
     by decide +kernel, by decide +kernel, by decide +kernel⟩,
    ⟨{ tU with int := { rb := 8, ver := 8 }, upd := { epoch := 8, journalFrom := 8 } }, .pf, by decide +kernel,
     by decide +kernel, by decide +kernel, by decide +kernel, by decide +kernel, by decide +kernel,
     by decide +kernel, by decide +kernel⟩,
    ⟨{ tU with int := { ver := 8, disagree := true, dis := [3] }, upd := { ring := [(0, { epoch := 8, time := 0, total := 0, broken := [], d := [] })] } },
     .pf, by decide +kernel⟩⟩

/-- The hypotheses of ResetSources are met. -/
theorem met_reset_sources :
    (∃ (s : State), s.rails.aux = true ∧ s.rails.mainEn = true ∧ s.rails.powerOff = false ∧ s.rst.heldUv = false)
    ∧ (∃ (s : State), s.pwr.dstate = .d3cold ∧ s.rails.mainEn = true ∧ s.rails.powerOff = false)
    ∧ (∃ (s : State), s.hubPowered = true ∧ s.rst.held = false ∧ s.rst.start = .ready ∧
       ((∀ t0, s.rst.lastSrcAt = some t0 → t0 + 1000 ≤ s.time.now)))
    ∧ (∃ (s : State), s.rst.heldPerst = true ∧ s.rst.heldThermal = false ∧ s.rst.heldUv = false ∧
       s.hubPowered = true)
    ∧ (∃ (s : State), s.rst.heldPerst = true ∧ s.rst.heldThermal = false ∧ s.rst.heldUv = false ∧
       s.hubPowered = false)
    ∧ (∃ (s : State), s.hubPowered = true)
    ∧ (∃ (s : State), s.hubRuns = true ∧ s.stw.st = .running)
    ∧ (∃ (s : State), s.stw.st ≠ .running)
    ∧ (∃ (s : State) (t0 : Nat), s.rst.timerAt = some t0 ∧ s.rst.start.running = true ∧ s.rst.held = false ∧
       s.elapsed t0 (s.rst.tmoS.toNat * 1000000000 - s.rst.timerUsed) = true ∧ 3 ≤ s.rst.code8)
    ∧ (∃ (s : State) (t0 : Nat), s.rst.timerAt = some t0 ∧ s.rst.start.running = true ∧ s.rst.held = false ∧
       s.elapsed t0 (s.rst.tmoS.toNat * 1000000000 - s.rst.timerUsed) = true ∧ s.rst.code8 < 3)
    ∧ (∃ (s : State), s.hubPowered = true ∧ s.rst.held = false)
    ∧ (∃ (s : State), s.hubPowered = true ∧ s.rst.heldThermal = true ∧ s.rst.heldPerst = false ∧
       s.rst.heldUv = false) := by
  exact ⟨⟨tU, by decide +kernel, by decide +kernel, by decide +kernel, by decide +kernel⟩,
    ⟨{ tU with pwr := { dstate := .d3cold }, rails := { main := false } }, by decide +kernel, by decide +kernel,
     by decide +kernel⟩,
    ⟨tU, by decide +kernel, by decide +kernel, by decide +kernel, by intro _ h; cases h⟩,
    ⟨tRst .options fun r => { r with heldPerst := true }, by decide +kernel, by decide +kernel, by decide +kernel,
     by decide +kernel⟩,
    ⟨{ tRst .options fun r => { r with heldPerst := true } with pwr := { dstate := .d3cold } }, by decide +kernel,
     by decide +kernel, by decide +kernel, by decide +kernel⟩,
    ⟨tU, by decide +kernel⟩,
    ⟨tU, by decide +kernel, by decide +kernel⟩,
    ⟨{ tU with stw := { st := .halted } }, by decide +kernel⟩,
    ⟨{ tRst .booting fun r => { r with timerAt := some 0, code8 := 3 } with time := { now := 5000000000 } }, 0,
     by decide +kernel, by decide +kernel, by decide +kernel, by decide +kernel, by decide +kernel⟩,
    ⟨{ tRst .hbmTrain fun r => { r with timerAt := some 0, code8 := 2 } with time := { now := 5000000000 } }, 0,
     by decide +kernel, by decide +kernel, by decide +kernel, by decide +kernel, by decide +kernel⟩,
    ⟨tU, by decide +kernel, by decide +kernel⟩,
    ⟨tRst .options fun r => { r with heldThermal := true }, by decide +kernel, by decide +kernel, by decide +kernel,
     by decide +kernel⟩⟩

/-- The hypotheses of StartUpSteps are met. -/
theorem met_start_up_steps :
    (∃ (s : State), s.rst.start = .clocks ∧ s.hubPowered = true ∧ s.rst.held = false)
    ∧ (∃ (s : State) (src : Fin 4) (img : List Byte), s.rst.held = false ∧ s.awaits src.val = true ∧
       ((src.val = 0 → s.spi.a = [] ∧ s.spi.b = [])) ∧ s.imageReason img = 0)
    ∧ (∃ (s : State) (src : Fin 4) (img : List Byte), s.rst.held = false ∧ s.awaits src.val = true ∧
       ((src.val = 0 → s.spi.a = [] ∧ s.spi.b = [])) ∧ s.imageReason img ≠ 0)
    ∧ (∃ (s : State) (src : Fin 4), s.rst.held = false ∧ s.awaits src.val = true ∧
       ((src.val = 0 → s.spi.a = [] ∧ s.spi.b = [])))
    ∧ (∃ (s : State), s.rst.start = .booting ∧ s.rst.effStraps.boot = 0 ∧ s.rst.aRejected = false)
    ∧ (∃ (s : State), s.rst.start = .booting ∧ s.rst.effStraps.boot = 0 ∧ s.rst.aRejected = true)
    ∧ (∃ (s : State) (t0 : Nat), s.rst.xferSince = some t0 ∧ s.rst.start = .booting ∧ s.rst.effStraps.boot = 0)
    ∧ (∃ (s : State) (p : AccessPath) (v : W32), s.csrWritable p .rstc = true ∧ bit v 31 = true)
    ∧ (∃ (s : State), s.rst.start = .power ∧ s.rst.held = false)
    ∧ (∃ (s : State), s.rst.start = .fill ∧ s.rst.held = false)
    ∧ (∃ (s : State), s.rst.start = .clusters ∧ s.rst.held = false ∧ s.rst.effStraps.pair = false)
    ∧ (∃ (s : State), s.rst.start = .ready ∧ s.pl.link = true) := by
  exact ⟨⟨tRst .clocks id, by decide +kernel, by decide +kernel, by decide +kernel⟩,
    ⟨tRst .booting id, 0, tImg, by decide +kernel, by decide +kernel, by decide +kernel,
     img_ok _ _ List.length_replicate (by decide)⟩,
    ⟨tRst .booting id, 0, [], by decide +kernel, by decide +kernel, by decide +kernel, by decide +kernel⟩,
    ⟨tRst .booting id, 0, by decide +kernel, by decide +kernel, by decide +kernel⟩,
    ⟨tRst .booting id, by decide +kernel, by decide +kernel, by decide +kernel⟩,
    ⟨tRst .booting fun r => { r with aRejected := true }, by decide +kernel, by decide +kernel, by decide +kernel⟩,
    ⟨tRst .booting fun r => { r with xferSince := some 0 }, 0, by decide +kernel, by decide +kernel,
     by decide +kernel⟩,
    ⟨tRst .bootWait id, .pf, 0x80001000, by decide +kernel, by decide +kernel⟩,
    ⟨tRst .power id, by decide +kernel, by decide +kernel⟩,
    ⟨tRst .fill id, by decide +kernel, by decide +kernel⟩,
    ⟨tRst .clusters id, by decide +kernel, by decide +kernel, by decide +kernel⟩,
    ⟨tU, by decide +kernel, by decide +kernel⟩⟩

/-- The hypotheses of BlockResetsAndSupplies are met. -/
theorem met_block_resets_and_supplies :
    (∃ (s : State), s.hubPowered = true)
    ∧ (∃ (s : State), s.hubPowered = true ∧ s.pl.link = false ∧ s.aq.slots = [])
    ∧ (∃ (s : State), s.pwr.dstate ≠ .off)
    ∧ (∃ (s : State), s.pwr.dstate = .off)
    ∧ (∃ (s : State), s.rails.aux = true)
    ∧ (∃ (s : State) (b : Fin 49) (due : Nat), s.rst.idleReqs.find b.val = some due ∧ b.val < 16)
    ∧ (∃ (s : State) (b : Fin 49) (due : Nat), s.rst.idleReqs.find b.val = some due ∧ 16 ≤ b.val ∧ b.val < 20)
    ∧ (∃ (s : State) (b : Fin 49) (due : Nat), s.rst.idleReqs.find b.val = some due ∧ 20 ≤ b.val ∧ b.val < 48)
    ∧ (∃ (s : State) (b : Fin 49) (due : Nat), s.rst.idleReqs.find b.val = some due ∧ b.val = 48)
    ∧ (∃ (s : State) (b : Fin 49) (due : Nat), s.rst.idleReqs.find b.val = some due ∧ s.time.now < due)
    ∧ (∃ (s : State) (b : Fin 49) (due : Nat), s.rst.idleReqs.find b.val = some due ∧ due ≤ s.time.now ∧
       16 ≤ b.val ∧ b.val < 20)
    ∧ (∃ (s : State) (b : Fin 49) (due : Nat), s.rst.idleReqs.find b.val = some due ∧ due ≤ s.time.now ∧
       32 ≤ b.val ∧ b.val < 40)
    ∧ (∃ (s : State) (d : Fin 4), s.rst.dieRst.contains d.val = true)
    ∧ (∃ (s : State) (d : Fin 4), s.rst.dieRst.contains d.val = false)
    ∧ (∃ (s : State) (q : Fin 1024), (s.queue q.val).head = none ∧ (s.queue q.val).loc = false ∧
       s.mayFetch q.val = true ∧ s.taskBound q.val = false)
    ∧ (∃ (s : State), s.rst.start = .bootWait ∧ s.rst.hloadBusy = true) := by
  exact ⟨⟨tU, by decide +kernel⟩,
    ⟨{ tU with pl := {} }, by decide +kernel, by decide +kernel, by decide +kernel⟩,
    ⟨tU, by decide +kernel⟩,
    ⟨{ tU with pwr := { dstate := .off }, rails := { aux := false, mainEn := false, main := false } },
     by decide +kernel⟩,
    ⟨tU, by decide +kernel⟩,
    ⟨tRst .ready fun r => { r with idleReqs := [(15, 100)] }, 15, 100, by decide +kernel, by decide +kernel⟩,
    ⟨tRst .ready fun r => { r with idleReqs := [(16, 100)] }, 16, 100, by decide +kernel, by decide +kernel,
     by decide +kernel⟩,
    ⟨tRst .ready fun r => { r with idleReqs := [(20, 100)] }, 20, 100, by decide +kernel, by decide +kernel,
     by decide +kernel⟩,
    ⟨tRst .ready fun r => { r with idleReqs := [(48, 100)] }, 48, 100, by decide +kernel, by decide +kernel⟩,
    ⟨tRst .ready fun r => { r with idleReqs := [(48, 1)] }, 48, 1, by decide +kernel, by decide +kernel⟩,
    ⟨tRst .ready fun r => { r with idleReqs := [(16, 0)] }, 16, 0, by decide +kernel, by decide +kernel,
     by decide +kernel, by decide +kernel⟩,
    ⟨tRst .ready fun r => { r with idleReqs := [(32, 0)] }, 32, 0, by decide +kernel, by decide +kernel,
     by decide +kernel, by decide +kernel⟩,
    ⟨tRst .ready fun r => { r with dieRst := [3] }, 3, by decide +kernel⟩,
    ⟨tU, 0, by decide +kernel⟩,
    ⟨tQ { st := .enabled, sqTail := 1 }, 1023, by decide +kernel, by decide +kernel, by decide +kernel,
     by decide +kernel⟩,
    ⟨tRst .bootWait fun r => { r with hloadBusy := true }, by decide +kernel, by decide +kernel⟩⟩

/-- The hypotheses of PowerStates are met. -/
theorem met_power_states :
    (∃ (s : State) (p : AccessPath) (v : W32), s.csrWritable p .hub = true ∧ s.pwr.dstate = .d0 ∧
     s.pwr.ramp = none ∧ s.stw.st = .running ∧ s.pwr.target = .ofCode s.pwr.preq.toNat ∧ bit v 2 = false ∧
     let want := PState.ofCode (field v 0 2).toNat
     (want.rank = s.pwr.pstate.rank + 1 ∨ want.rank + 1 = s.pwr.pstate.rank))
    ∧ (∃ (s : State) (p : AccessPath) (v : W32), s.csrWritable p .hub = true ∧ s.pwr.dstate = .d0 ∧
       s.pwr.ramp = none ∧ s.stw.st = .running ∧ s.pwr.target = .ofCode s.pwr.preq.toNat ∧ bit v 2 = false ∧
       let want := PState.ofCode (field v 0 2).toNat
       want = s.pwr.pstate)
    ∧ (∃ (s : State) (x : PState), s.pwr.ramp = some x ∧ s.pwr.target = x)
    ∧ (∃ (s : State), s.pwr.ramp = none)
    ∧ (∃ (s : State) (w : W16), s.hubRuns = true ∧ s.stw.st = .running ∧ s.pwr.capEn = true ∧
       s.pwr.capW.toNat < w.toNat ∧ s.pwr.overs = 9 ∧ s.pwr.dstate = .d0 ∧ s.pwr.ramp = none ∧ s.pwr.preq = 0 ∧
       s.pwr.pstate = .p0)
    ∧ (∃ (s : State) (w : W16), s.hubRuns = true ∧ s.stw.st = .running ∧ s.pwr.capEn = true ∧
       s.pwr.capW.toNat < w.toNat ∧ s.pwr.overs < 9)
    ∧ (∃ (s : State) (w : W16), s.hubRuns = true ∧ s.stw.st = .running ∧ s.pwr.capEn = true ∧
       w.toNat ≤ s.pwr.capW.toNat ∧ 95 * s.pwr.capW.toNat ≤ w.toNat * 100)
    ∧ (∃ (s : State) (p : AccessPath) (v : W32), s.csrWritable p .hub = true ∧ s.pwr.dstate = .d0 ∧ bit v 2 = true ∧
       s.partsQuiet = true)
    ∧ (∃ (s : State) (p : AccessPath) (v : W32), s.csrWritable p .hub = true ∧ s.pwr.dstate = .d0 ∧ bit v 2 = true ∧
       s.partsQuiet = false)
    ∧ (∃ (s : State) (p : AccessPath) (v : W32), s.csrWritable p .hub = true ∧ s.pwr.dstate = .d0idle ∧
       bit v 2 = false)
    ∧ (∃ (s : State) (q : Quiesce), s.rst.start = .ready ∧ s.rst.held = false ∧ s.pwr.dstate = .d0 ∧
       s.pwr.d3 = some q ∧ q.step = 3 ∧ s.hostFlushed = true)
    ∧ (∃ (s : State) (q : Quiesce), s.rst.start = .ready ∧ s.rst.held = false ∧ s.pwr.dstate = .d0 ∧
       s.pwr.d3 = some q ∧ q.step = 3 ∧ s.hostFlushed = false ∧ s.gtoPassed q.due = false)
    ∧ (∃ (s : State), s.pwr.dstate = .d3hot ∧ s.rst.held = false)
    ∧ (∃ (s : State), s.pwr.dstate ≠ .d3hot) := by
  exact ⟨⟨tU, .pf, 1, by decide +kernel, by decide +kernel, by decide +kernel, by decide +kernel, by decide +kernel,
          by decide +kernel, by decide +kernel⟩,
    ⟨tU, .pf, 0, by decide +kernel, by decide +kernel, by decide +kernel, by decide +kernel, by decide +kernel,
     by decide +kernel, by decide +kernel⟩,
    ⟨{ tU with pwr := { ramp := some .p1, target := .p1 } }, .p1, by decide +kernel, by decide +kernel⟩,
    ⟨tU, by decide +kernel⟩,
    ⟨{ tU with pwr := { overs := 9 } }, 1601, by decide +kernel, by decide +kernel, by decide +kernel,
     by decide +kernel, by decide +kernel, by decide +kernel, by decide +kernel, by decide +kernel,
     by decide +kernel⟩,
    ⟨{ tU with pwr := { overs := 8 } }, 1601, by decide +kernel, by decide +kernel, by decide +kernel,
     by decide +kernel, by decide +kernel⟩,
    ⟨tU, 1600, by decide +kernel, by decide +kernel, by decide +kernel, by decide +kernel, by decide +kernel⟩,
    ⟨tU, .pf, 4, by decide +kernel, by decide +kernel, by decide +kernel, by decide +kernel⟩,
    ⟨tPt { st := .stopping, cl := 1 }, .pf, 4, by decide +kernel, by decide +kernel, by decide +kernel,
     by decide +kernel⟩,
    ⟨{ tU with pwr := { dstate := .d0idle } }, .pf, 0, by decide +kernel, by decide +kernel, by decide +kernel⟩,
    ⟨{ tU with pwr := { d3 := some { step := 3 } } }, { step := 3 }, by decide +kernel, by decide +kernel,
     by decide +kernel, by decide +kernel, by decide +kernel, by decide +kernel⟩,
    ⟨{ tU with pwr := { d3 := some { step := 3, due := 1 } }, host := { tU.host with hlc := [(0, { st := .m })] } },
     { step := 3, due := 1 }, by decide +kernel, by decide +kernel, by decide +kernel, by decide +kernel,
     by decide +kernel, by decide +kernel, by decide +kernel⟩,
    ⟨{ tPt { st := .running, cl := 1, ctxV := true } with pwr := { dstate := .d3hot } }, by decide +kernel,
     by decide +kernel⟩,
    ⟨tU, by decide +kernel⟩⟩

/-- The hypotheses of Attestation are met. -/
theorem met_attestation :
    (∃ (s : State) (doe : Bool), s.spdmServed doe = true ∧ ∃ (n : Byte), n ≠ 0)
    ∧ (∃ (s : State) (doe : Bool), s.spdmServed doe = true)
    ∧ (∃ (s : State) (doe : Bool) (id : W32), s.spdmServed doe = true ∧ s.sec.sessions.length < 4 ∧
       s.sec.sessions.contains id.toNat = false)
    ∧ (∃ (s : State) (doe : Bool), s.spdmServed doe = true ∧ 4 ≤ s.sec.sessions.length)
    ∧ (∃ (s : State) (id : W32), s.sec.halfOpen.contains id.toNat = true)
    ∧ (∃ (s : State) (id : W32), s.inSession id.toNat = true)
    ∧ (∃ (s : State) (id : W32), s.inSession id.toNat = false)
    ∧ (∃ (s : State) (doe : Bool), s.spdmServed doe = false) := by
  exact ⟨⟨tU, true, by decide +kernel, 1, by decide +kernel⟩,
    ⟨tU, true, by decide +kernel⟩,
    ⟨tU, true, 5, by decide +kernel, by decide +kernel, by decide +kernel⟩,
    ⟨tO 0xFF [] fun x => { x with sessions := [1, 2, 3, 4] }, true, by decide +kernel, by decide +kernel⟩,
    ⟨tO 0xFF [] fun x => { x with halfOpen := [5] }, 5, by decide +kernel⟩,
    ⟨tO 0xFF [] id, 5, by decide +kernel⟩,
    ⟨tO 0xFF [] id, 6, by decide +kernel⟩,
    ⟨tU, false, by decide +kernel⟩⟩

/-- The hypotheses of OwnerCommands are met. -/
theorem met_owner_commands :
    (∃ (s : State) (id : W32) (pl : List Byte), s.inSession id.toNat = true ∧ s.hubRuns = true ∧ pl.length ≠ 53)
    ∧ (∃ (s : State) (id : W32) (pl : List Byte), s.inSession id.toNat = true ∧ s.hubRuns = true ∧ pl.length = 53 ∧
       s.sec.lcRunning = false ∧ s.lc = 0)
    ∧ (∃ (s : State) (id : W32) (pl : List Byte), s.inSession id.toNat = true ∧ s.hubRuns = true ∧ pl = [] ∧
       s.sec.lcRunning = false ∧ s.lc = 1 ∧ s.rootSet = true ∧ s.rst.verified = true)
    ∧ (∃ (s : State) (id : W32) (pl : List Byte), s.inSession id.toNat = true ∧ s.hubRuns = true ∧ pl = [] ∧
       s.sec.lcRunning = false ∧ s.lc = 1 ∧ (s.rootSet = false ∨ s.rst.verified = false))
    ∧ (∃ (s : State) (id : W32) (pl : List Byte), s.inSession id.toNat = true ∧ s.hubRuns = true ∧ pl = [] ∧
       s.sec.lcRunning = false ∧ s.lc = 1)
    ∧ (∃ (s : State) (id : W32) (pl : List Byte), s.inSession id.toNat = true ∧ s.hubRuns = true ∧ pl = [] ∧
       s.lc ≠ 2 ∧ s.sec.lcRunning = true)
    ∧ (∃ (s : State) (id : W32) (pl : List Byte), s.inSession id.toNat = true ∧ s.hubRuns = true ∧ pl.length = 32 ∧
       (s.lc = 1 ∨ s.lc = 2) ∧ s.digestInUse = false)
    ∧ (∃ (s : State) (id : W32) (pl : List Byte), s.inSession id.toNat = true ∧ s.hubRuns = true ∧ pl = [] ∧
       (s.lc = 1 ∨ s.lc = 2) ∧ s.digestInUse = false)
    ∧ (∃ (s : State) (id : W32) (pl : List Byte), s.inSession id.toNat = true ∧ s.hubRuns = true ∧ pl = [] ∧
       s.digestInUse = true ∧ s.lc = 1)
    ∧ (∃ (s : State) (id : W32) (pl : List Byte), s.inSession id.toNat = true ∧ s.hubRuns = true ∧ pl = [1] ∧
       1 ≤ s.reqMax ∧ s.sec.dbg = 0)
    ∧ (∃ (s : State) (id : W32) (pl : List Byte), s.inSession id.toNat = true ∧ s.hubRuns = true ∧ pl = [2] ∧
       s.reqMax < 2)
    ∧ (∃ (s : State) (id : W32) (pl : List Byte), s.inSession id.toNat = true ∧ s.hubRuns = true ∧ pl.length = 256 ∧
       (s.lc = 1 ∨ s.lc = 2) ∧ s.tokenOk pl 0 = false)
    ∧ (∃ (s : State) (id : W32) (pl : List Byte), s.inSession id.toNat = true ∧ s.hubRuns = true ∧ pl = [])
    ∧ (∃ (s : State), s.hubRuns = true ∧ ∃ (tok : List Byte), tok.length = 256 ∧ (s.lc = 1 ∨ s.lc = 2) ∧
       s.sec.dbg = 0 ∧ s.tokenOk tok 0 = false)
    ∧ (∃ (s : State), s.hubRuns = true)
    ∧ (∃ (s : State) (p : AccessPath) (v : W32), s.csrWritable p .hub = true ∧ bit v 0 = true)
    ∧ (∃ (s : State), s.hubRuns = true ∧ s.sec.dbg = 2)
    ∧ (∃ (s : State), s.hubRuns = true ∧ s.sec.dbg = 2 ∧ ∃ (p : Fin 16), s.pwr.dstate = .d0 ∧
       (s.part p.val).st.holds = true)
    ∧ (∃ (s : State) (k : Fin 1200) (p : Nat), s.hubRuns = true ∧ s.sec.dbg = 2 ∧ s.pwr.dstate = .d0 ∧
       s.partOf (coreCluster k.val) = some p ∧ (s.part p).halted = true)
    ∧ (∃ (s : State), s.hubRuns = true ∧ s.sec.dbg = 2 ∧ s.pwr.dstate = .d0)
    ∧ (∃ (s : State), s.sec.dbg ≠ 2) := by
  exact ⟨⟨tO 0xFF [] id, 5, [], by decide +kernel, by decide +kernel, by decide +kernel⟩,
    ⟨tO 0xFF [] id, 5, List.replicate 53 0, by decide +kernel, by decide +kernel, by decide +kernel,
     by decide +kernel, by decide +kernel⟩,
    ⟨{ tO 0xA5 [(32, 0)] id with rst := { tU.rst with verified := true } }, 5, [], by decide +kernel,
     by decide +kernel, by decide +kernel, by decide +kernel, by decide +kernel, by decide +kernel,
     by decide +kernel⟩,
    ⟨tO 0xA5 [(32, 0)] id, 5, [], by decide +kernel, by decide +kernel, by decide +kernel, by decide +kernel,
     by decide +kernel, by decide +kernel⟩,
    ⟨tO 0xA5 [] id, 5, [], by decide +kernel, by decide +kernel, by decide +kernel, by decide +kernel,
     by decide +kernel⟩,
    ⟨tO 0xA5 [] fun x => { x with lcRunning := true }, 5, [], by decide +kernel, by decide +kernel,
     by decide +kernel, by decide +kernel, by decide +kernel⟩,
    ⟨tO 0xA5 [] id, 5, List.replicate 32 7, by decide +kernel, by decide +kernel, by decide +kernel,
     by decide +kernel, by decide +kernel⟩,
    ⟨{ tO 0xA5 [] id with ident := { fleetKey := some 7 } }, 5, [], by decide +kernel, by decide +kernel,
     by decide +kernel, by decide +kernel, by decide +kernel⟩,
    ⟨{ (tT tdServing).writeDA (tS.tdDA 5 + 33) [16] with tda := { tS.tda with live := [5] }, opt := { lifecycle := 0xA5 }, sec := { sessions := [5] } },
     5, [], by decide +kernel, by decide +kernel, by decide +kernel, by decide +kernel, by decide +kernel⟩,
    ⟨tO 0xFF [] id, 5, [1], by decide +kernel, by decide +kernel, by decide +kernel, by decide +kernel,
     by decide +kernel⟩,
    ⟨tO 0 [] id, 5, [2], by decide +kernel, by decide +kernel, by decide +kernel, by decide +kernel⟩,
    ⟨tO 0xA5 [] id, 5, List.replicate 256 0, by decide +kernel, by decide +kernel, by decide +kernel,
     by decide +kernel, by decide +kernel⟩,
    ⟨tO 0xFF [] fun x => { x with dbg := 2, auth := true }, 5, [], by decide +kernel, by decide +kernel,
     by decide +kernel⟩,
    ⟨tO 0x5A [] id, by decide +kernel, List.replicate 256 0, by decide +kernel, by decide +kernel,
     by decide +kernel, by decide +kernel⟩,
    ⟨tU, by decide +kernel⟩,
    ⟨tO 0xFF [] fun x => { x with dbg := 2, auth := true }, .pf, 1, by decide +kernel, by decide +kernel⟩,
    ⟨tO 0xFF [] fun x => { x with dbg := 2 }, by decide +kernel, by decide +kernel⟩,
    ⟨{ tPt { st := .running, cl := 1 } with sec := { dbg := 2 } }, by decide +kernel, by decide +kernel, 15,
     by decide +kernel, by decide +kernel⟩,
    ⟨{ tPt { st := .running, cl := 1 <<< 99, halted := true } with sec := { dbg := 2 } }, 1199, 15,
     by decide +kernel, by decide +kernel, by decide +kernel, by decide +kernel, by decide +kernel⟩,
    ⟨tO 0xFF [] fun x => { x with dbg := 2 }, by decide +kernel, by decide +kernel, by decide +kernel⟩,
    ⟨tU, by decide +kernel⟩⟩

/-- The hypotheses of LifelineAndBus are met. -/
theorem met_lifeline_and_bus :
    (∃ (s : State), s.rails.aux = true ∧ s.pwr.dstate ≠ .off ∧ s.rst.start ≠ .options ∧ ∃ (n : Byte), 16 ≤ n.toNat)
    ∧ (∃ (s : State), s.rails.aux = true ∧ s.pwr.dstate ≠ .off ∧ s.rst.start ≠ .options ∧
       ∃ (n : Byte) (r : FaultRecord), n.toNat < 16 ∧ s.bak.last16[n.toNat]? = some r)
    ∧ (∃ (s : State), s.rails.aux = true ∧ s.pwr.dstate ≠ .off ∧ s.rst.start ≠ .options ∧ ∃ (n : Byte),
       n.toNat < 16 ∧ s.bak.last16[n.toNat]? = none)
    ∧ (∃ (s : State), s.rails.aux = true ∧ s.pwr.dstate ≠ .off ∧ s.rst.start ≠ .options ∧ ∃ (arm : Byte), arm ≠ 0xA5)
    ∧ (∃ (s : State), s.rails.aux = true ∧ s.pwr.dstate ≠ .off ∧ s.rst.start ≠ .options ∧ s.hubPowered = true)
    ∧ (∃ (s : State), s.rails.aux = true ∧ s.pwr.dstate ≠ .off ∧ s.rst.start ≠ .options ∧ s.pwr.dstate = .d3cold)
    ∧ (∃ (s : State), s.rails.aux = true ∧ s.pwr.dstate ≠ .off ∧ s.rst.start ≠ .options ∧ s.pwr.dstate ≠ .d3cold)
    ∧ (∃ (s : State), s.rails.aux = true ∧ s.pwr.dstate ≠ .off ∧ s.rst.start ≠ .options ∧ ∃ (on : Byte),
       s.hubPowered = true ∧ on.toNat < 2)
    ∧ (∃ (s : State), s.rails.aux = true ∧ s.pwr.dstate ≠ .off ∧ s.rst.start ≠ .options ∧ ∃ (on : Byte),
       2 ≤ on.toNat)
    ∧ (∃ (s : State), s.rails.aux = true ∧ s.pwr.dstate ≠ .off ∧ s.rst.start ≠ .options ∧ ∃ (e : Byte), e ≠ 0 ∧
       e ≠ 0xFF)
    ∧ (∃ (s : State), s.rails.aux = true ∧ s.pwr.dstate ≠ .off ∧ s.rst.start ≠ .options)
    ∧ (∃ (s : State), s.pwr.dstate = .off)
    ∧ (∃ (s : State), s.rails.aux = true) := by
  exact ⟨⟨tU, by decide +kernel, by decide +kernel, by decide +kernel, 16, by decide +kernel⟩,
    ⟨{ tU with bak := { last16 := List.replicate 16 (mkFault 8 0 0x0F09) } }, by decide +kernel, by decide +kernel,
     by decide +kernel, 15, mkFault 8 0 0x0F09, by decide +kernel, by decide +kernel⟩,
    ⟨tU, by decide +kernel, by decide +kernel, by decide +kernel, 0, by decide +kernel, by decide +kernel⟩,
    ⟨tU, by decide +kernel, by decide +kernel, by decide +kernel, 0, by decide +kernel⟩,
    ⟨tU, by decide +kernel, by decide +kernel, by decide +kernel, by decide +kernel⟩,
    ⟨{ tU with pwr := { dstate := .d3cold } }, by decide +kernel, by decide +kernel, by decide +kernel,
     by decide +kernel⟩,
    ⟨tU, by decide +kernel, by decide +kernel, by decide +kernel, by decide +kernel⟩,
    ⟨tU, by decide +kernel, by decide +kernel, by decide +kernel, 1, by decide +kernel, by decide +kernel⟩,
    ⟨tU, by decide +kernel, by decide +kernel, by decide +kernel, 2, by decide +kernel⟩,
    ⟨tU, by decide +kernel, by decide +kernel, by decide +kernel, 0xFE, by decide +kernel, by decide +kernel⟩,
    ⟨tU, by decide +kernel, by decide +kernel, by decide +kernel⟩,
    ⟨{ tU with pwr := { dstate := .off }, rails := { aux := false, mainEn := false, main := false } },
     by decide +kernel⟩,
    ⟨tU, by decide +kernel⟩⟩

/-- The hypotheses of ServiceAndPldm are met. -/
theorem met_service_and_pldm :
    (∃ (s : State), s.rails.aux = true ∧ s.pwr.dstate ≠ .off ∧ s.rst.start ≠ .options ∧ s.stewardRuns = true)
    ∧ (∃ (s : State), s.rails.aux = true ∧ s.pwr.dstate ≠ .off ∧ s.rst.start ≠ .options ∧ s.stewardRuns = true ∧
       s.nvm.staging = none)
    ∧ (∃ (s : State), s.rails.aux = true ∧ s.pwr.dstate ≠ .off ∧ s.rst.start ≠ .options ∧ s.stewardRuns = true ∧
       ∃ m, s.nvm.staging = some m ∧ optShape (s.commitImage m) = true ∧ s.locked = true ∧
       ((∃ o, o < 4096 ∧ repairChange o (s.optInUse.get 0xFF o) ((s.commitImage m).get 0xFF o) = false)))
    ∧ (∃ (s : State), s.rails.aux = true ∧ s.pwr.dstate ≠ .off ∧ s.rst.start ≠ .options ∧ s.stewardRuns = true ∧
       ∃ m, s.nvm.staging = some m ∧ optShape (s.commitImage m) = true ∧ s.locked = false)
    ∧ (∃ (s : State), s.rails.aux = true ∧ s.pwr.dstate ≠ .off ∧ s.rst.start ≠ .options ∧ s.stewardRuns = true ∧
       ∃ (img : List Byte), s.imageReason img ≠ 0)
    ∧ (∃ (s : State), s.rails.aux = true ∧ s.pwr.dstate ≠ .off ∧ s.rst.start ≠ .options ∧ s.stewardRuns = true ∧
       ∃ (img : List Byte), s.imageReason img = 0)
    ∧ (∃ (s : State), s.rails.aux = true ∧ s.pwr.dstate ≠ .off ∧ s.rst.start ≠ .options ∧ s.stewardRuns = false) := by
  exact ⟨⟨tU, by decide +kernel, by decide +kernel, by decide +kernel, by decide +kernel⟩,
    ⟨tU, by decide +kernel, by decide +kernel, by decide +kernel, by decide +kernel, by decide +kernel⟩,
    ⟨{ tO 0x5A [] id with nvm := { staging := some tOpt } }, by decide +kernel, by decide +kernel,
     by decide +kernel, by decide +kernel, tOpt, by decide +kernel, by decide +kernel, by decide +kernel,
     ⟨10, by decide, by decide +kernel⟩⟩,
    ⟨{ tO 0xA5 [] id with nvm := { staging := some tOpt } }, by decide +kernel, by decide +kernel,
     by decide +kernel, by decide +kernel, tOpt, by decide +kernel, by decide +kernel, by decide +kernel⟩,
    ⟨tU, by decide +kernel, by decide +kernel, by decide +kernel, by decide +kernel, [], by decide +kernel⟩,
    ⟨tU, by decide +kernel, by decide +kernel, by decide +kernel, by decide +kernel, tImg,
     img_ok _ _ List.length_replicate (by decide)⟩,
    ⟨{ tU with stw := {} }, by decide +kernel, by decide +kernel, by decide +kernel, by decide +kernel⟩⟩

/-- The hypotheses of StewardDuties are met. -/
theorem met_steward_duties :
    (∃ (s : State) (n : Fin 8), s.stewardRuns = true ∧ (s.aqSlot n.val).st = .member ∧ s.stw.level.toNat < 3 ∧
     s.elapsed (s.aqSlot n.val).lastPoll 600000000000 = true)
    ∧ (∃ (s : State) (n : Fin 8), s.stewardRuns = true ∧ (s.aqSlot n.val).st = .member ∧
       (3 ≤ s.stw.level.toNat ∨ s.elapsed (s.aqSlot n.val).lastPoll 600000000000 = false))
    ∧ (∃ (s : State) (n : Fin 8), s.stewardRuns = true ∧ (s.aqSlot n.val).st = .member)
    ∧ (∃ (s : State), s.stewardRuns = true ∧ s.stw.level = 0 ∧
       s.elapsed s.stw.sampledAt (s.stw.period.toNat * 1000000) = true)
    ∧ (∃ (s : State), s.stewardRuns = true ∧ s.stw.level = 0 ∧
       s.elapsed s.stw.sampledAt (s.stw.period.toNat * 1000000) = false)
    ∧ (∃ (s : State) (b : BitVec 7), s.stewardRuns = true ∧ 90 < b.toNat ∧ s.stw.level.toNat < 4)
    ∧ (∃ (s : State) (b : BitVec 7), s.stewardRuns = true ∧ b.toNat < 60 ∧ s.stw.calm = 9 ∧ 0 < s.stw.level.toNat)
    ∧ (∃ (s : State) (b : BitVec 7), s.stewardRuns = true ∧ 60 ≤ b.toNat ∧ b.toNat ≤ 90)
    ∧ (∃ (s : State), s.stewardRuns = true ∧ s.stw.starts[2]? = none)
    ∧ (∃ (s : State), s.stewardRuns = true ∧ ∃ t0, s.stw.starts[2]? = some t0 ∧ s.time.now < t0 + 600000000000)
    ∧ (∃ (s : State) (p : AccessPath) (v : W32), s.csrWritable p .hub = true ∧ bit v 10 = true)
    ∧ (∃ (s : State), s.pwr.dstate ≠ .off ∧ s.stw.drain ≠ .idle)
    ∧ (∃ (s : State), s.pwr.dstate ≠ .off ∧ s.stw.drain = .idle ∧ s.rst.start ≠ .ready)
    ∧ (∃ (s : State), s.pwr.dstate ≠ .off ∧ s.stw.drain = .idle ∧ s.rst.start = .ready ∧ s.pwr.dstate = .d0 ∧
       s.stw.st = .running ∧ s.lc ≠ 3 ∧ s.stw.hostDrain = true)
    ∧ (∃ (s : State), s.pwr.dstate ≠ .off ∧ s.stw.drain ≠ .idle ∧ s.stw.dr.models = [] ∧ s.stw.dr.parts = [] ∧
       s.stw.again = [])
    ∧ (∃ (s : State), s.pwr.dstate ≠ .off)
    ∧ (∃ (s : State), s.stw.drain = .draining ∧ s.stewardRuns = true ∧ s.stw.dr.step = 7 ∧ s.hostFlushed = true)
    ∧ (∃ (s : State), s.stw.drain ≠ .draining)
    ∧ (∃ (s : State), s.stw.drain = .draining ∧ s.stw.dr.step = 5 ∧ s.elapsed s.stw.dr.since 60000000000 = true ∧
       s.partsQuiet = false)
    ∧ (∃ (s : State) (p : AccessPath) (v : W32), s.csrWritable p .hub = true ∧ bit v 1 = false)
    ∧ (∃ (s : State) (p : AccessPath) (v : W32), s.csrWritable p .hub = true ∧ bit v 1 = true ∧
       s.stw.hostDrain = true ∧ s.stw.drain = .draining)
    ∧ (∃ (s : State) (t0 : Nat), s.stw.blip = some t0) := by
  exact ⟨⟨{ tA with time := { now := 600000000000 } }, 2, by decide +kernel, by decide +kernel, by decide +kernel,
          by decide +kernel⟩,
    ⟨{ tA with time := { now := 599999999999 } }, 2, by decide +kernel, by decide +kernel, by decide +kernel⟩,
    ⟨tA, 0, by decide +kernel, by decide +kernel⟩,
    ⟨{ tU with time := { now := 100000000 } }, by decide +kernel, by decide +kernel, by decide +kernel⟩,
    ⟨{ tU with time := { now := 99999999 } }, by decide +kernel, by decide +kernel, by decide +kernel⟩,
    ⟨{ tU with stw := { tU.stw with level := 3 } }, 91, by decide +kernel, by decide +kernel, by decide +kernel⟩,
    ⟨{ tU with stw := { tU.stw with level := 4, calm := 9 } }, 59, by decide +kernel, by decide +kernel,
     by decide +kernel, by decide +kernel⟩,
    ⟨tU, 60, by decide +kernel, by decide +kernel, by decide +kernel⟩,
    ⟨{ tU with stw := { tU.stw with starts := [1, 2] } }, by decide +kernel, by decide +kernel⟩,
    ⟨{ tU with stw := { tU.stw with starts := [3, 2, 1] } }, by decide +kernel, 1, by decide +kernel,
     by decide +kernel⟩,
    ⟨{ tU with stw := { tU.stw with st := .halted } }, .pf, 0x400, by decide +kernel, by decide +kernel⟩,
    ⟨{ tU with stw := { tU.stw with drain := .drained } }, by decide +kernel, by decide +kernel⟩,
    ⟨tRst .booting id, by decide +kernel, by decide +kernel, by decide +kernel⟩,
    ⟨{ tU with stw := { tU.stw with hostDrain := true } }, by decide +kernel, by decide +kernel, by decide +kernel,
     by decide +kernel, by decide +kernel, by decide +kernel, by decide +kernel⟩,
    ⟨{ tU with stw := { tU.stw with drain := .draining } }, by decide +kernel, by decide +kernel, by decide +kernel,
     by decide +kernel, by decide +kernel⟩,
    ⟨tU, by decide +kernel⟩,
    ⟨{ tU with stw := { tU.stw with drain := .draining, dr := { step := 7 } } }, by decide +kernel,
     by decide +kernel, by decide +kernel, by decide +kernel⟩,
    ⟨tU, by decide +kernel⟩,
    ⟨{ tPt { st := .stopping, cl := 1 } with time := { now := 60000000000 }, stw := { tU.stw with drain := .draining, dr := { step := 5 } } },
     by decide +kernel, by decide +kernel, by decide +kernel, by decide +kernel⟩,
    ⟨tU, .pf, 5, by decide +kernel, by decide +kernel⟩,
    ⟨{ tU with stw := { tU.stw with drain := .draining, hostDrain := true } }, .pf, 2, by decide +kernel,
     by decide +kernel, by decide +kernel, by decide +kernel⟩,
    ⟨{ tU with stw := { tU.stw with blip := some 0 } }, 0, by decide +kernel⟩⟩

/-- The hypotheses of GlobalWrites are met. -/
theorem met_global_writes :
    (∃ (s : State) (b : Nat), b < 16 ∧ s.hub.irqIen = true ∧ s.hub.irqSts &&& s.hub.irqEn = 0 ∧
     s.hub.irqEn.getLsbD b = true ∧ s.busOk 0 = true ∧ (s.func 0).d3hot = false)
    ∧ (∃ (s : State) (b : Nat), b < 16 ∧ s.hub.irqSts &&& s.hub.irqEn ≠ 0)
    ∧ (∃ (b : Nat), b < 16)
    ∧ (∃ (s : State) (p : AccessPath), s.csrWritable p .hub = true)
    ∧ (∃ (s : State) (p : AccessPath) (v : W32), s.csrWritable p .hub = true ∧ s.locked = false ∧ bit v 17 = false ∧
       (bit v 16 = false ∨ injLegal (field v 0 4).toNat (field v 4 12).toNat = true))
    ∧ (∃ (s : State) (p : AccessPath) (v : W32), s.csrWritable p .hub = true ∧ s.locked = false ∧ bit v 16 = true ∧
       injLegal (field v 0 4).toNat (field v 4 12).toNat = false)
    ∧ (∃ (s : State) (p : AccessPath), s.csrWritable p .hub = true ∧ s.locked = true)
    ∧ (∃ (s : State) (p : AccessPath) (n : Fin 8), s.csrWritable p .hub = true ∧
       (s.cc.pairs.get {} n.val).tasks = [] ∧ s.queues = [] ∧ s.host.groups = [])
    ∧ (∃ (s : State) (p : AccessPath) (n : Fin 8) (v : W32) (k : Nat) (task : Task), s.csrWritable p .hub = true ∧
       (s.cc.pairs.get {} n.val).tasks = [(k, task)] ∧ bit v task.part = false ∧
       field v 0 16 ≠ (s.cc.pairs.get {} n.val).parts)
    ∧ (∃ (s : State) (p : AccessPath) (part : Fin 16) (v : W32), s.csrWritable p .hub = true ∧
       (s.part part.val).ctxV = false ∧ v &&& ~~~((s.part part.val).cl.extractLsb' 0 32) = 0)
    ∧ (∃ (s : State) (p : AccessPath) (part : Fin 16) (bar : Fin 16) (v : W32), s.csrWritable p .hub = true ∧
       let x := s.co.bars.get {} (16 * part.val + bar.val)
       (s.part part.val).ctxV = false ∧ v &&& ~~~((s.part part.val).cl.extractLsb' 0 32) ≠ 0 ∧
       setField x.cl 0 32 v ≠ x.cl) := by
  exact ⟨⟨{ tU with hub := { irqIen := true, irqEn := 0x8000, irqVec := 5 } }, 15, by decide +kernel,
          by decide +kernel, by decide +kernel, by decide +kernel, by decide +kernel, by decide +kernel⟩,
    ⟨{ tU with hub := { irqIen := true, irqEn := 1, irqSts := 1 } }, 0, by decide +kernel, by decide +kernel⟩,
    ⟨15, by decide +kernel⟩,
    ⟨{ tU with hub := { irqIen := true, irqEn := 1, irqSts := 1 } }, .pf, by decide +kernel⟩,
    ⟨tU, .pf, 0, by decide +kernel, by decide +kernel, by decide +kernel, by decide +kernel⟩,
    ⟨tU, .pf, 0x10000, by decide +kernel, by decide +kernel, by decide +kernel, by decide +kernel⟩,
    ⟨tO 0x5A [] id, .pf, by decide +kernel, by decide +kernel⟩,
    ⟨{ tU with cc := { pairs := [(7, { parts := 1, err := true })] } }, .pf, 7, by decide +kernel,
     by decide +kernel, by decide +kernel, by decide +kernel⟩,
    ⟨tG tTask, .pf, 7, 0, 31, tTask, by decide +kernel, by decide +kernel, by decide +kernel, by decide +kernel⟩,
    ⟨tPt { st := .stopped, cl := 1 }, .pf, 15, 1, by decide +kernel, by decide +kernel, by decide +kernel⟩,
    ⟨tU, .pf, 0, 0, 1, by decide +kernel, by decide +kernel, by decide +kernel, by decide +kernel⟩⟩

/-- The hypotheses of CsrAccessSizes are met. -/
theorem met_csr_access_sizes :
    (∃ (s : State) (p : AccessPath) (off : BitVec 26), s.csrAnswers p off.toNat = true ∧
     let a := off.toNat
     a % 4 = 0)
    ∧ (∃ (s : State) (p : AccessPath) (off : BitVec 26), s.csrAnswers p off.toNat = true ∧
       let a := off.toNat
       a % 8 = 0)
    ∧ (∃ (s : State) (p : AccessPath) (off : BitVec 26), s.csrAnswers p off.toNat = true ∧
       let a := off.toNat
       a % 4 ≤ 2)
    ∧ (∃ (s : State) (p : AccessPath) (off : BitVec 26), s.csrAnswers p off.toNat = true ∧
       let a := off.toNat
       a % 4 = 3)
    ∧ (∃ (s : State) (p : AccessPath) (off : BitVec 26), s.csrAnswers p off.toNat = true ∧
       let a := off.toNat
       a % 4 ≠ 0)
    ∧ (∃ (s : State) (p : AccessPath) (off : BitVec 26), s.csrAnswers p off.toNat = true ∧
       let a := off.toNat
       a % 8 ≠ 0)
    ∧ (∃ (s : State) (p : AccessPath) (off : BitVec 26), s.csrAnswers p off.toNat = true)
    ∧ (∃ (s : State) (p : AccessPath) (off : BitVec 26), s.csrAnswers p off.toNat = false)
    ∧ (∃ (off : BitVec 26), off.toNat % 4 ≠ 0)
    ∧ (∃ (off : BitVec 26), off.toNat % 8 ≠ 0)
    ∧ (∃ (off : BitVec 26), off.toNat % 4 = 0)
    ∧ (∃ (off : BitVec 26), off.toNat % 8 = 0)
    ∧ (∃ (s : State) (p : AccessPath), s.csrWritable p .hub = true) := by
  exact ⟨⟨tU, .pf, 0x40, by decide +kernel, by decide +kernel⟩,
    ⟨tU, .pf, 0x40, by decide +kernel, by decide +kernel⟩,
    ⟨tU, .pf, 0x32, by decide +kernel, by decide +kernel⟩,
    ⟨tU, .pf, 0x33, by decide +kernel, by decide +kernel⟩,
    ⟨tU, .pf, 0x31, by decide +kernel, by decide +kernel⟩,
    ⟨tU, .pf, 0x44, by decide +kernel, by decide +kernel⟩,
    ⟨tU, .pf, 0x33, by decide +kernel⟩,
    ⟨{ tU with pwr := { dstate := .d3cold } }, .pf, 0, by decide +kernel⟩,
    ⟨0x41, by decide +kernel⟩,
    ⟨0x44, by decide +kernel⟩,
    ⟨0x40, by decide +kernel⟩,
    ⟨0x40, by decide +kernel⟩,
    ⟨tU, .pf, by decide +kernel⟩⟩

/-- The hypotheses of GlobalTimeoutRegister are met. -/
theorem met_global_timeout_register :
    (∃ (s : State) (p : AccessPath), s.csrWritable p .hub = true) := by
  exact ⟨tU, .pf, by decide +kernel⟩

/-- The hypotheses of HiLatches are met. -/
theorem met_hi_latches :
    (∃ (p : AccessPath) (off : Nat), latchesHi off = true ∧ ∃ (q : AccessPath) (o : Nat), o < 2 ^ 26 ∧
     off < 2 ^ 26 ∧ latchesHi o = true ∧ (q, o) ≠ (p, off))
    ∧ (∃ (s : State) (p : AccessPath) (off : Nat), latchesHi off = true ∧ s.latch.find (latchKey p (off + 4)) = none)
    ∧ (∃ (off : Nat), latchesHi off = true)
    ∧ (∃ (off : Nat), latchesHi off = false)
    ∧ (∃ (s : State) (p : AccessPath) (off : BitVec 26), (p = .pf ∨ p = .steward ∨ p = .jtag) ∧
       s.csrAnswers p off.toNat = true ∧ s.blockDark (csrBlock off.toNat) = false ∧
       s.blockDark (csrBlock (off.toNat + 4)) = false ∧ latchesHi off.toNat = true ∧ off.toNat % 8 = 0) := by
  exact ⟨⟨.pf, 0x40, by decide +kernel, .steward, 0x40, by decide +kernel, by decide +kernel, by decide +kernel,
          by decide +kernel⟩,
    ⟨tU, .pf, 0x0000040, by decide +kernel, by decide +kernel⟩,
    ⟨0x2000014, by decide +kernel⟩,
    ⟨0x30, by decide +kernel⟩,
    ⟨tU, .pf, 0x40, by decide +kernel, by decide +kernel, by decide +kernel, by decide +kernel, by decide +kernel,
     by decide +kernel⟩⟩

/-- The hypotheses of IdleTimeoutRegister are met. -/
theorem met_idle_timeout_register :
    (∃ (s : State) (p : AccessPath), s.csrWritable p .rstc = true) := by
  exact ⟨tU, .pf, by decide +kernel⟩

/-- The hypotheses of TelemetryPeriod are met. -/
theorem met_telemetry_period :
    (∃ (s : State) (p : AccessPath), s.csrWritable p .hub = true)
    ∧ (∃ (s : State), s.stw.st = .running) := by
  exact ⟨⟨tU, .pf, by decide +kernel⟩,
    ⟨tU, by decide +kernel⟩⟩

/-- The hypotheses of FaultRecords are met. -/
theorem met_fault_records :
    (∃ (s : State) (f : FaultRecord),
     let same := fun (e : FaultSeen) => e.unit == f.cls * 4096 + f.inst && e.code == f.code
     let prev := s.faults.seen.find? same
     let recent := ∃ e, prev = some e ∧ s.time.now < e.last + 1000000
     f.rung = 0 ∧ recent ∧ ∃ e, prev = some e)
    ∧ (∃ (s : State) (f : FaultRecord),
       let same := fun (e : FaultSeen) => e.unit == f.cls * 4096 + f.inst && e.code == f.code
       let prev := s.faults.seen.find? same
       let recent := ∃ e, prev = some e ∧ s.time.now < e.last + 1000000
       f.rung = 0 ∧ recent)
    ∧ (∃ (s : State) (f : FaultRecord),
       let same := fun (e : FaultSeen) => e.unit == f.cls * 4096 + f.inst && e.code == f.code
       let prev := s.faults.seen.find? same
       let recent := ∃ e, prev = some e ∧ s.time.now < e.last + 1000000
       (1 ≤ f.rung ∨ ¬recent) ∧ ∃ w, w < 64)
    ∧ (∃ (s : State) (f : FaultRecord),
       let same := fun (e : FaultSeen) => e.unit == f.cls * 4096 + f.inst && e.code == f.code
       let prev := s.faults.seen.find? same
       let recent := ∃ e, prev = some e ∧ s.time.now < e.last + 1000000
       (1 ≤ f.rung ∨ ¬recent) ∧ f.rung = 0 ∧ f.code / 256 ≠ 0x11 ∧ s.host.up = true ∧ s.busOk 0 = true ∧
       (s.func 0).d3hot = false)
    ∧ (∃ (s : State) (f : FaultRecord),
       let same := fun (e : FaultSeen) => e.unit == f.cls * 4096 + f.inst && e.code == f.code
       let prev := s.faults.seen.find? same
       let recent := ∃ e, prev = some e ∧ s.time.now < e.last + 1000000
       (1 ≤ f.rung ∨ ¬recent)) := by
  exact ⟨⟨{ tU with faults := { seen := [{ unit := 0x8002, code := 0x0F09, last := 0, count := 2 }] }, time := { now := 999999 } },
          mkFault 8 2 0x0F09, by decide +kernel, by decide +kernel,
          { unit := 0x8002, code := 0x0F09, last := 0, count := 2 }, by decide +kernel⟩,
    ⟨{ tU with faults := { seen := [{ unit := 0x8002, code := 0x0F09, last := 0, count := 2 }] }, time := { now := 999999 } },
     mkFault 8 2 0x0F09, by decide +kernel, by decide +kernel⟩,
    ⟨{ tU with faults := { seen := [{ unit := 0x8002, code := 0x0F09, last := 0, count := 2 }] }, time := { now := 1000000 } },
     mkFault 8 2 0x0F09, by decide +kernel, 63, by decide +kernel⟩,
    ⟨{ tU with faults := { tU.faults with hen := true, ien := true } }, mkFault 8 2 0x0F09, by decide +kernel,
     by decide +kernel, by decide +kernel, by decide +kernel, by decide +kernel, by decide +kernel⟩,
    ⟨{ tU with faults := { seen := [{ unit := 0x8002, code := 0x0F09, last := 0, count := 70000 }] } },
     { mkFault 8 2 0x0F09 with rung := 1 }, by decide +kernel⟩⟩

end Sys2Proof.Tests
end

section
/-! SUPPORT. The step, the reset state, and time and pace (02): what each command does, case by case, and the statements
settled from that. -/
namespace Sys2Proof.Machine
open Sys2Proof

/-! ### What reports leave alone -/

@[simp] theorem State.irqEvent_pace (s : State) (b : Nat) : (s.irqEvent b).pace = s.pace :=
  (congrArg State.pace (butReport_irqEvent s b) :)
@[simp] theorem State.pldmEvent_pace (s : State) (w : String) (a : Nat) : (s.pldmEvent w a).pace = s.pace :=
  (congrArg State.pace (butReport_pldmEvent s w a) :)
@[simp] theorem State.timeFault_pace (s : State) (d c r : Nat) : (s.timeFault d c r).pace = s.pace :=
  (congrArg State.pace (butReport_timeFault s d c r) :)
@[simp] theorem State.rebuildReport_pace (s : State) : s.rebuildReport.pace = s.pace := rfl

/-! ### Following the active's time (R61, R62) -/

@[simp] theorem TimeBase.note_now (t : TimeBase) (o : Int) : (t.note o).now = t.now := rfl

/-- The one step of following that moves time moves it forward: it is taken where the offset is negative. -/
theorem State.now_le_followTime (s : State) (active : Nat) : s.time.now ≤ (s.followTime active).time.now := by
  unfold State.followTime
  dsimp only
  split
  next behind =>
    have : s.time.now < active := by simp at behind; omega
    exact Nat.le_of_lt this
  next => exact Nat.le_refl _

theorem State.followTime_only_time (s : State) (active : Nat) :
    s.followTime active = { s with time := (s.followTime active).time } := by
  unfold State.followTime
  dsimp only
  split <;> rfl

theorem exec_timeMessage_standby {s : State} (pt : W64) (ow : W32) (lock : Bool) (h : roleStandby s.pl.role = true) :
    exec (.timeMessage pt ow none lock) s = .next (s.followTime (pt.toNat + ow.toNat)) := by
  show execTimeMessage pt ow none lock s = _
  simp [execTimeMessage, h]

theorem State.losePairLock_of_lock {s : State} (h : s.time.pairLock = true) :
    s.losePairLock =
      (State.timeFault { s with time := { s.time with pairLock := false, goodMsgs := 0 } } 4 0x0A02).irqEvent 9 := by
  simp [State.losePairLock, h]

theorem exec_pairLockLoss_silent {s : State} (hl : s.time.pairLock = true) (h : s.time.lastMsg + 1000000 ≤ s.time.now) :
    exec .pairLockLoss s = .next s.losePairLock := by
  show execPairLockLoss s = _
  simp [execPairLockLoss, State.elapsed, hl, h]

theorem exec_pairLockLoss_bad {s : State} {b : Nat} (hl : s.time.pairLock = true) (hb : s.time.badSince = some b)
    (h : b + 1000000 ≤ s.time.now) : exec .pairLockLoss s = .next s.losePairLock := by
  show execPairLockLoss s = _
  simp [execPairLockLoss, State.elapsed, hl, hb, h]

/-- Settles O4: following changes the time base alone and never takes time back; both ways to lose the lock end in
`losePairLock`. -/
theorem timeFollowing : Obligations.TimeFollowing := by
  unfold Obligations.TimeFollowing
  refine ⟨fun s pt ow lock standby => ?_, fun s locked silent => ?_, fun s b locked bad due => ?_⟩
  · exact ⟨_, exec_timeMessage_standby pt ow lock standby, s.now_le_followTime _, s.followTime_only_time _⟩
  · rw [exec_pairLockLoss_silent locked silent, State.losePairLock_of_lock locked]
  · rw [exec_pairLockLoss_bad locked bad due, State.losePairLock_of_lock locked]

/-! ### A step of the block -/

theorem step_cons (c : Instr) (s : State) (rest : List Instr) :
    step { s with pending := c :: rest } = exec c { s with pending := rest } := rfl

theorem step_nil {s : State} (h : s.pending = []) : step s = .next s.tick := by
  simp [step, h]

/-- Settles O1: by the two cases of the queue. -/
theorem stepRunsFrontCommand : Obligations.StepRunsFrontCommand :=
  ⟨step_cons, fun _ h => step_nil h⟩

/-! ### Reset -/

/-- Settles O2: the values of `State.reset`, a register of the list at a time. -/
theorem resetState : Obligations.ResetState := by
  unfold Obligations.ResetState
  refine ⟨rfl, rfl, rfl, rfl, rfl, fun _ => rfl, fun _ => rfl, ?_⟩
  decide +kernel


/-! ### Device time (R57, R58, R61, R63, R67) -/

theorem exec_refClockLoss {s : State} (h : s.time.refPresent = true) :
    exec .refClockLoss s =
      let s1 := State.timeFault { s with time := { s.time with refPresent := false, holdover := true, refLost := true } } 4 0x0A01
      .next (if s.time.refLost then s1 else s1.irqEvent 9) := by
  show execRefClockLoss s = _
  simp [execRefClockLoss, h]

theorem exec_pllRelock {s : State} (h : s.time.holdover = true) :
    exec .pllRelock s = .next { s with time := { s.time with refPresent := true, holdover := false } } := by
  show execPllRelock s = _
  simp [execPllRelock, h]

/-- A step off an active adds its nanoseconds; a step of 0 adds none. -/
theorem State.applyTimeStep_of_not_active {s : State} (v : Nat) (hl : s.time.pairLock = false) (ha : s.pl.role ≠ .active) :
    s.applyTimeStep v = s.stepTime v := by
  unfold State.applyTimeStep
  by_cases hv : v = 0
  · subst hv; rfl
  · simp [hv, hl, ha]

theorem State.applyTimeStep_of_lock {s : State} {v : Nat} (hl : s.time.pairLock = true) (hv : v ≠ 0) :
    s.applyTimeStep v = { s with time := { s.time with stepRej := true } } := by
  simp [State.applyTimeStep, hl, hv]

theorem exec_hubTimeStep {s : State} {p : AccessPath} (v : W32) (h : s.csrWritable p .hub = true) :
    exec (.hubTimeStep p v) s = .next (s.applyTimeStep v.toNat) :=
  congrArg Host.Outcome.next (State.onCsr_of_writable _ h)

theorem exec_pairStepTime {s : State} {v t : Nat} (h : s.time.stepPend = some (v, t)) :
    exec .pairStepTime s = .next (if t ≤ s.time.now
      then { s with time := { s.time with stepPend := none, now := s.time.now + v } } else s) := by
  show execPairStepTime s = _
  simp only [execPairStepTime, h, State.stepTime]
  split <;> rfl

theorem exec_timeMessageSend_plain {s : State} (hp : rolePaired s.pl.role = true) (hl : s.pl.link = true)
    (ht : s.time.lastSent + 10000 ≤ s.time.now) (hn : s.time.stepPend = none) :
    exec .timeMessageSend s = .next { s with
      time := { s.time with lastSent := s.time.now }, out := s.out ++ [.quefy "TIME" s.time.now []] } := by
  show execTimeMessageSend s = _
  simp [execTimeMessageSend, State.elapsed, State.emit, hp, hl, ht, hn]

theorem exec_timeMessage_active {s : State} (pt : W64) (ow : W32) (st : Option (W32 × W64)) (lock : Bool)
    (h : s.pl.role = .active) :
    exec (.timeMessage pt ow st lock) s = .next { s with time := { s.time with peerLock := lock, lastMsg := s.time.now } } := by
  show execTimeMessage pt ow st lock s = _
  simp [execTimeMessage, roleStandby, h]

/-- Settles O3: one lemma for each command of the time base. -/
theorem timeBaseEvents : Obligations.TimeBaseEvents := by
  unfold Obligations.TimeBaseEvents
  refine ⟨fun s => exec_refClockLoss, fun s => exec_pllRelock, fun s p v served unlocked role => ?_,
    fun s p v served locked hv => ?_, fun s v t => exec_pairStepTime, fun s => exec_timeMessageSend_plain,
    fun s => exec_timeMessage_active⟩
  · rw [exec_hubTimeStep v served, State.applyTimeStep_of_not_active _ unlocked role]; rfl
  · have : v.toNat ≠ 0 := fun h => hv (BitVec.eq_of_toNat_eq h)
    rw [exec_hubTimeStep v served, State.applyTimeStep_of_lock locked this]

/-! ### Pace and ageing (R73–R77) -/

/-- The lower of two monitor values. -/
def lowerPace (a b : W16) : W16 := if b.ult a then b else a

theorem lowerPace_toNat (a b : W16) : (lowerPace a b).toNat = min a.toNat b.toNat := by
  unfold lowerPace
  split
  next h => have := BitVec.ult_iff_lt.mp h; simp only [BitVec.lt_def] at this; omega
  next h => simp only [BitVec.ult_eq_decide, decide_eq_true_eq] at h; omega

/-- A sample's fold over the monitors ends in one of them that none is below. -/
theorem foldl_lowerPace_spec (m : W16) (ms : List W16) :
    ms.foldl lowerPace m ∈ m :: ms ∧ ∀ x ∈ m :: ms, (ms.foldl lowerPace m).toNat ≤ x.toNat := by
  induction ms generalizing m with
  | nil => simp
  | cons b ms ih =>
    obtain ⟨hmem, hle⟩ := ih (lowerPace m b)
    have hfirst := hle _ List.mem_cons_self
    rw [lowerPace_toNat] at hfirst
    refine ⟨?_, fun x hx => ?_⟩
    · have one : lowerPace m b = m ∨ lowerPace m b = b := by unfold lowerPace; split <;> simp only [true_or, or_true]
      rw [List.foldl_cons]
      rcases List.mem_cons.mp hmem with here | later
      · rw [here]
        rcases one with e | e <;> rw [e]
        · exact List.mem_cons_self
        · exact List.mem_cons_of_mem _ List.mem_cons_self
      · exact List.mem_cons_of_mem _ (List.mem_cons_of_mem _ later)
    · rw [List.foldl_cons]
      rcases List.mem_cons.mp hx with rfl | hx
      · omega
      rcases List.mem_cons.mp hx with rfl | hx
      · omega
      · exact hle x (List.mem_cons_of_mem _ hx)

theorem exec_paceSample (s : State) (die : Fin 5) (m : W16) (ms : List W16) :
    exec (.paceSample die (m :: ms)) s = .next { s with pace := s.pace.set die.val { s.dieRec die.val with
      cur := ms.foldl lowerPace m
      min := if (ms.foldl lowerPace m).toNat < (s.dieRec die.val).min.toNat then ms.foldl lowerPace m
        else (s.dieRec die.val).min } } := by
  show execPaceSample die (m :: ms) s = _
  have ult_iff : ∀ a b : W16, (if a.ult b then a else b) = if a.toNat < b.toNat then a else b := by
    simp [BitVec.ult_eq_decide]
  rw [← ult_iff]
  rfl

theorem exec_pwrPaceMinWrite {s : State} {p : AccessPath} (die : Fin 5) (h : s.csrWritable p .hub = true) :
    exec (.pwrPaceMinWrite p die) s =
      .next { s with pace := s.pace.set die.val { s.dieRec die.val with min := 0xFFFF } } :=
  congrArg Host.Outcome.next (State.onCsr_of_writable _ h)

/-- What an ageing update reports of a die once its record is written: the conditions of R75 that have arisen. -/
def State.ageingReports (s : State) (die : Nat) (warn floor rose : Bool) : State :=
  let s1 := if warn then s.pldmEvent "AGEING_WARNING" die else s
  let s2 := if floor then s1.timeFault die 0x0A03 else s1
  (if rose then s2.irqEvent 10 else s2).rebuildReport

@[simp] theorem State.ageingReports_pace (s : State) (die : Nat) (warn floor rose : Bool) :
    (s.ageingReports die warn floor rose).pace = s.pace := by
  simp only [State.ageingReports, State.rebuildReport_pace, apply_ite State.pace, State.irqEvent_pace,
    State.timeFault_pace, State.pldmEvent_pace, ite_self]

/-- An ageing update that runs writes NORM, EOL_MONTHS and the conditions of R75 of its die, and reports. -/
theorem exec_ageingUpdate_runs {s : State} (die : Fin 5) (pace : W16) (temp : BitVec 11) (days : Nat)
    (hp : s.pwr.pstate = .p0) (hr : s.pwr.ramp = none) (hs : s.stewardRuns = true) (hl : s.stw.level = 0) :
    ∃ ctr norm fit warn floor aw af rose, exec (.ageingUpdate die pace temp days) s = .next (State.ageingReports
      { s with freeCtr := ctr, pace := s.pace.upd {} die.val fun p =>
        { p with norm := norm, eolMonths := if days < 30 then 0xFFFF else fit, warn := warn, floor := floor } }
      die.val aw af rose) := by
  have runs : (s.pwr.pstate == .p0 && s.pwr.ramp == none && s.stewardRuns && s.stw.level == 0) = true := by
    simp [hp, hr, hs, hl]
  exact ⟨_, _, _, _, _, _, _, _, if_pos runs⟩

/-- Settles O5: the fold of the sample by `foldl_lowerPace_spec`; the ageing update by what it writes to its die's record,
which its reports leave alone. -/
theorem paceAndAgeing : Obligations.PaceAndAgeing := by
  unfold Obligations.PaceAndAgeing
  refine ⟨fun s die m ms => ?_, fun s p die => exec_pwrPaceMinWrite die, fun s die pace temp days hp hr hs hl early => ?_⟩
  · obtain ⟨hmem, hle⟩ := foldl_lowerPace_spec m ms
    exact ⟨_, hmem, hle, exec_paceSample s die m ms⟩
  · obtain ⟨_, _, _, _, _, _, _, _, h⟩ := exec_ageingUpdate_runs die pace temp days hp hr hs hl
    exact ⟨_, h, by simp [State.dieRec, early]⟩

end Sys2Proof.Machine
end

section
/-! SUPPORT. P-states, power capping, D0-IDLE and D3hot (R47, R50, R738–R740, R748). -/
namespace Sys2Proof.Machine
open Sys2Proof

@[simp] theorem State.secFault_pwr (s : State) (c : Nat) : (s.secFault c).pwr = s.pwr :=
  (congrArg State.pwr (butReport_secFault s c) :)
@[simp] theorem State.secFault_rails (s : State) (c : Nat) : (s.secFault c).rails = s.rails :=
  (congrArg State.rails (butReport_secFault s c) :)
@[simp] theorem State.secFault_co (s : State) (c : Nat) : (s.secFault c).co = s.co :=
  (congrArg State.co (butReport_secFault s c) :)
@[simp] theorem State.secFault_sc (s : State) (c : Nat) : (s.secFault c).sc = s.sc :=
  (congrArg State.sc (butReport_secFault s c) :)

/-! ### The way from a P-state to another (R50) -/

@[simp] theorem PState.ofRank_rank (x : PState) : PState.ofRank x.rank = x := by cases x <;> rfl

@[simp] theorem PState.toward_self (x : PState) : x.toward x = x := by simp [PState.toward]

theorem PState.toward_adjacent {a b : PState} (h : b.rank = a.rank + 1 ∨ b.rank + 1 = a.rank) : a.toward b = b := by
  unfold PState.toward
  rcases h with up | down
  · rw [if_pos (by omega), ← up, PState.ofRank_rank]
  · rw [if_neg (by omega), if_pos (by omega), ← down, Nat.add_sub_cancel, PState.ofRank_rank]

theorem PState.ne_of_adjacent {a b : PState} (h : b.rank = a.rank + 1 ∨ b.rank + 1 = a.rank) : b ≠ a := by
  rintro rfl
  omega

/-! ### What settling can do -/

/-- Settling moves the running ramp, CAPPED and the setpoint of VDD_CORE, and nothing else. -/
theorem State.pwrSettle_shape (s : State) : ∃ ramp capped mv, s.pwrSettle =
    { s with pwr := { s.pwr with ramp := ramp, capped := capped }, rails := { s.rails with vddMv := mv } } := by
  unfold State.pwrSettle
  dsimp only
  split <;> exact ⟨_, _, _, rfl⟩

section
variable (s : State)
@[simp] theorem State.pwrSettle_pstate : s.pwrSettle.pwr.pstate = s.pwr.pstate := by
  obtain ⟨_, _, _, h⟩ := s.pwrSettle_shape; rw [h]
@[simp] theorem State.pwrSettle_target : s.pwrSettle.pwr.target = s.pwr.target := by
  obtain ⟨_, _, _, h⟩ := s.pwrSettle_shape; rw [h]
@[simp] theorem State.pwrSettle_dstate : s.pwrSettle.pwr.dstate = s.pwr.dstate := by
  obtain ⟨_, _, _, h⟩ := s.pwrSettle_shape; rw [h]
@[simp] theorem State.pwrSettle_idle : s.pwrSettle.pwr.idle = s.pwr.idle := by
  obtain ⟨_, _, _, h⟩ := s.pwrSettle_shape; rw [h]
@[simp] theorem State.pwrSettle_refused : s.pwrSettle.pwr.refused = s.pwr.refused := by
  obtain ⟨_, _, _, h⟩ := s.pwrSettle_shape; rw [h]
@[simp] theorem State.pwrSettle_overs : s.pwrSettle.pwr.overs = s.pwr.overs := by
  obtain ⟨_, _, _, h⟩ := s.pwrSettle_shape; rw [h]
@[simp] theorem State.pwrSettle_underSince : s.pwrSettle.pwr.underSince = s.pwr.underSince := by
  obtain ⟨_, _, _, h⟩ := s.pwrSettle_shape; rw [h]
@[simp] theorem State.pwrSettle_pser : s.pwrSettle.rails.pser = s.rails.pser := by
  obtain ⟨_, _, _, h⟩ := s.pwrSettle_shape; rw [h]
@[simp] theorem State.pwrSettle_co : s.pwrSettle.co = s.co := by
  obtain ⟨_, _, _, h⟩ := s.pwrSettle_shape; rw [h]
@[simp] theorem State.pwrSettle_sc : s.pwrSettle.sc = s.sc := by
  obtain ⟨_, _, _, h⟩ := s.pwrSettle_shape; rw [h]
end

/-- A P-state off the target, in D0 with the steward running and no ramp under way: the ramp to the next one begins, at its
voltage. -/
theorem State.pwrSettle_ramps {s : State} {p : PowerState} (hd : p.dstate = .d0) (hr : p.ramp = none)
    (hs : s.stw.st = .running) (hn : p.pstate.toward p.target ≠ p.pstate) : State.pwrSettle { s with pwr := p } =
      { s with
        pwr := { p with
          ramp := some (p.pstate.toward p.target)
          capped := p.capEn && decide ((PState.ofCode p.preq.toNat).rank < p.target.rank) }
        rails := { s.rails with vddMv := (p.pstate.toward p.target).mv } } := by
  simp [State.pwrSettle, hd, hr, hs, hn]

/-- At the target no ramp begins. -/
theorem State.pwrSettle_at_target {s : State} (h : s.pwr.target = s.pwr.pstate) :
    s.pwrSettle.pwr.ramp = s.pwr.ramp ∧ s.pwrSettle.rails = s.rails := by
  simp [State.pwrSettle, h]

/-! ### Writes of PWR_CTL (R739, R740, R748) -/

/-- PWR_CTL's fields as a write leaves them, CAP_W at most 1,600. -/
def State.pwrCtlFields (s : State) (v : W32) : PowerState :=
  { s.pwr with preq := field v 0 2, capEn := bit v 3, capW := if 1600 < (field v 4 12).toNat then 0x640 else field v 4 12 }

/-- And the target, where the steward runs to take the request. -/
def State.pwrCtlTaken (s : State) (v : W32) : PowerState :=
  if s.stw.st == .running then (s.pwrCtlFields v).retarget (.ofCode s.pwr.preq.toNat) else s.pwrCtlFields v

theorem State.pwrCtlTaken_shape (s : State) (v : W32) :
    ∃ target, s.pwrCtlTaken v = { s.pwrCtlFields v with target := target } := by
  unfold State.pwrCtlTaken
  split <;> exact ⟨_, rfl⟩

/-- A target that capping does not hold down follows the request. -/
theorem State.pwrCtlTaken_target {s : State} (v : W32) (hs : s.stw.st = .running)
    (ht : s.pwr.target = .ofCode s.pwr.preq.toNat) : (s.pwrCtlTaken v).target = .ofCode (field v 0 2).toNat := by
  simp [State.pwrCtlTaken, PowerState.retarget, State.pwrCtlFields, hs, ht]

theorem exec_pStateRequest {s : State} {p : AccessPath} (v : W32) (h : s.csrWritable p .hub = true) :
    exec (.pStateRequest p v) s = .next (s.writePwrCtl v) :=
  congrArg Host.Outcome.next (State.onCsr_of_writable _ h)

theorem exec_d0IdleRequest {s : State} {p : AccessPath} (v : W32) (h : s.csrWritable p .hub = true) :
    exec (.d0IdleRequest p v) s = .next (s.writePwrCtl v) :=
  congrArg Host.Outcome.next (State.onCsr_of_writable _ h)

/-- A write of PWR_CTL: into D0-IDLE or refused, out of it, or neither; then the steward settles. -/
theorem State.writePwrCtl_eq (s : State) (v : W32) : s.writePwrCtl v = State.pwrSettle (
    if s.pwr.dstate == .d0 && bit v 2 then
      if s.partsQuiet then (State.clearClusters
        { s with pwr := { s.pwrCtlTaken v with idle := true, dstate := .d0idle } } fun _ => true).secFault 0x0F28
      else { s with pwr := { s.pwrCtlTaken v with idle := false, refused := true } }
    else if s.pwr.dstate == .d0idle && !bit v 2 then
      State.secFault { s with pwr := { s.pwrCtlTaken v with idle := false, dstate := .d0 } } 0x0F28
    else { s with pwr := s.pwrCtlTaken v }) := rfl

theorem State.writePwrCtl_awake {s : State} {v : W32} (hd : s.pwr.dstate = .d0) (hv : bit v 2 = false) :
    s.writePwrCtl v = State.pwrSettle { s with pwr := s.pwrCtlTaken v } := by
  rw [State.writePwrCtl_eq, hv, if_neg (by simp), if_neg (by simp [hd])]

theorem State.writePwrCtl_idles {s : State} {v : W32} (hd : s.pwr.dstate = .d0) (hv : bit v 2 = true)
    (hq : s.partsQuiet = true) : s.writePwrCtl v = State.pwrSettle ((State.clearClusters
      { s with pwr := { s.pwrCtlTaken v with idle := true, dstate := .d0idle } } fun _ => true).secFault 0x0F28) := by
  rw [State.writePwrCtl_eq, hv, if_pos (by simp [hd]), if_pos hq]

theorem State.writePwrCtl_refused {s : State} {v : W32} (hd : s.pwr.dstate = .d0) (hv : bit v 2 = true)
    (hq : s.partsQuiet = false) : s.writePwrCtl v =
      State.pwrSettle { s with pwr := { s.pwrCtlTaken v with idle := false, refused := true } } := by
  rw [State.writePwrCtl_eq, hv, if_pos (by simp [hd]), if_neg (by simp [hq])]

theorem State.writePwrCtl_wakes {s : State} {v : W32} (hd : s.pwr.dstate = .d0idle) (hv : bit v 2 = false) :
    s.writePwrCtl v = State.pwrSettle (State.secFault
      { s with pwr := { s.pwrCtlTaken v with idle := false, dstate := .d0 } } 0x0F28) := by
  rw [State.writePwrCtl_eq, hv, if_neg (by simp), if_pos (by simp [hd])]

theorem State.pwrCtlTaken_frame (s : State) (v : W32) :
    (s.pwrCtlTaken v).preq = field v 0 2 ∧ (s.pwrCtlTaken v).pstate = s.pwr.pstate ∧ (s.pwrCtlTaken v).ramp = s.pwr.ramp
      ∧ (s.pwrCtlTaken v).dstate = s.pwr.dstate ∧ (s.pwrCtlTaken v).refused = s.pwr.refused := by
  obtain ⟨_, h⟩ := s.pwrCtlTaken_shape v
  rw [h]
  exact ⟨rfl, rfl, rfl, rfl, rfl⟩

/-- A reset of every cluster leaves no core's state, and no power state of the part changes with it. -/
theorem State.clearClusters_all_core (s : State) : (s.clearClusters fun _ => true).co.core = [] := by
  simp [State.clearClusters]

@[simp] theorem State.clearClusters_pwr (s : State) (cl : Nat → Bool) : (s.clearClusters cl).pwr = s.pwr := by
  simp only [State.clearClusters, State.dropHist, State.clearTags, State.dropSignals, State.cutLists]

/-! ### Ramps and capping (R50, R739) -/

theorem exec_rampComplete_ramp {s : State} {x : PState} (h : s.pwr.ramp = some x) : exec .rampComplete s =
    .next (State.secFault { s with pwr := { s.pwr with pstate := x, ramp := none } } 0x0F27).pwrSettle := by
  show execRampComplete s = _
  simp [execRampComplete, h]

theorem exec_rampComplete_none {s : State} (h : s.pwr.ramp = none) : exec .rampComplete s = .next s := by
  show execRampComplete s = _
  simp [execRampComplete, h]

/-- What a sample that is not below the release level notes: the power, and how many in a row were over the cap. -/
def PowerState.sampled (p : PowerState) (w : W16) (overs : Nat) : PowerState :=
  { p with powerW := w, overs := overs, underSince := none }

section capping
variable {s : State} {w : W16} (hr : s.hubRuns = true) (hs : s.stw.st = .running) (he : s.pwr.capEn = true)
include hr hs he

/-- A sample over the cap, the tenth of its run or later: the target goes one step down from the P-state. -/
theorem exec_powerCapSample_tenth (h : s.pwr.capW.toNat < w.toNat) (h9 : 9 ≤ s.pwr.overs) :
    exec (.powerCapSample w) s = .next (State.pwrSettle { s with pwr := { s.pwr.sampled w 0 with
      target := .ofRank (max (PState.ofCode s.pwr.preq.toNat).rank (min 3 (s.pwr.pstate.rank + 1))) } }) := by
  show execPowerCapSample w s = _
  have high : ¬ w.toNat * 100 < 95 * s.pwr.capW.toNat := by omega
  simp [execPowerCapSample, PowerState.sampled, hr, hs, he, h, high, h9]

theorem exec_powerCapSample_over (h : s.pwr.capW.toNat < w.toNat) (h9 : s.pwr.overs < 9) :
    exec (.powerCapSample w) s = .next (State.pwrSettle { s with pwr := s.pwr.sampled w (s.pwr.overs + 1) }) := by
  show execPowerCapSample w s = _
  have high : ¬ w.toNat * 100 < 95 * s.pwr.capW.toNat := by omega
  have few : ¬ 9 ≤ s.pwr.overs := by omega
  simp [execPowerCapSample, PowerState.sampled, hr, hs, he, h, high, few]

/-- A sample between the release level and the cap ends both counts. -/
theorem exec_powerCapSample_between (h : w.toNat ≤ s.pwr.capW.toNat) (h95 : 95 * s.pwr.capW.toNat ≤ w.toNat * 100) :
    exec (.powerCapSample w) s = .next (State.pwrSettle { s with pwr := s.pwr.sampled w 0 }) := by
  show execPowerCapSample w s = _
  simp [execPowerCapSample, PowerState.sampled, hr, hs, he, Nat.not_lt.mpr h, Nat.not_lt.mpr h95]

end capping

/-! ### D3hot (R738, R740) -/

theorem State.d3Step_none {s : State} (h : s.pwr.d3 = none) : s.d3Step = s := by
  simp [State.d3Step, h]

/-- The last step waits for the host line cache until its drain is given up. -/
theorem State.d3Step_waits {s : State} {q : Quiesce} (h : s.pwr.d3 = some q) (h3 : q.step = 3)
    (hf : s.hostFlushed = false) (ht : s.gtoPassed q.due = false) : s.d3Step = s := by
  simp [State.d3Step, h, h3, hf, ht]

theorem State.d3Step_last {s : State} {q : Quiesce} (h : s.pwr.d3 = some q) (h3 : q.step = 3)
    (hf : s.hostFlushed = true) : s.d3Step = State.secFault { s.diesOff with
      pwr := { s.diesOff.pwr with d3 := none, dstate := .d3hot, ramp := none, idle := false } } 0x0F28 := by
  simp [State.d3Step, h, h3, hf]

theorem exec_pmcsrD3hot_underway {s : State} (hs : s.rst.start = .ready) (hh : s.rst.held = false)
    (hd : s.pwr.dstate = .d0) (h : s.pwr.d3.isSome = true) :
    exec .pmcsrD3hot s = .next s.d3Step.d3Step.d3Step.d3Step := by
  show execPmcsrD3hot s = _
  simp [execPmcsrD3hot, hs, hh, hd, h]

theorem State.diesOff_core (s : State) : s.diesOff.co.core = [] := s.clearClusters_all_core

/-! ### D0 from D3hot (R740) -/

/-- The ports train: VDD_PSER is on, and only the slots' records change beside the rails. -/
theorem State.foldl_updAqSlot_shape {α : Type} (n : α → Nat) (f : AqSlot → AqSlot) (l : List α) (s : State) :
    ∃ aq, l.foldl (fun st x => st.updAqSlot (n x) f) s = { s with aq := aq } := by
  induction l generalizing s with
  | nil => exact ⟨s.aq, rfl⟩
  | cons x l ih => exact ih (s.updAqSlot (n x) f)

theorem State.portsUp_shape (s : State) :
    ∃ aq, s.portsUp = { s with rails := { s.rails with pser := true, aqPerstN := 0xFF }, aq := aq } :=
  State.foldl_updAqSlot_shape _ _ _ _

/-- A partition's record after D3hot: in use, it is STOPPED, and its context is gone. -/
def Part.afterD3 (kv : Nat × Part) : Nat × Part :=
  if kv.2.st == .unused then kv else (kv.1, { kv.2 with st := PartState.stopped, ctxV := false, ctx := 0 })

theorem Part.afterD3_key (kv : Nat × Part) : (Part.afterD3 kv).1 = kv.1 := by
  unfold Part.afterD3; split <;> rfl

theorem find_map_of_keys {α : Type} {f : Nat × α → Nat × α} (hf : ∀ kv, (f kv).1 = kv.1) (m : SMap α) (i : Nat) :
    SMap.find (m.map f) i = (SMap.find m i).map fun v => (f (i, v)).2 := by
  induction m with
  | nil => rfl
  | cons kv m ih =>
    obtain ⟨k, v⟩ := kv
    have hk : f (k, v) = (k, (f (k, v)).2) := Prod.ext (hf (k, v)) rfl
    rw [List.map_cons, hk]
    simp only [SMap.find]
    split
    next e => subst e; rfl
    next => exact ih

/-- A partition that ran is STOPPED, without a context. -/
theorem Part.get_map_afterD3 {m : SMap Part} {p : Nat} (h : (SMap.get {} m p).st = .running) :
    (SMap.get {} (m.map Part.afterD3) p).st = .stopped ∧ (SMap.get {} (m.map Part.afterD3) p).ctxV = false := by
  rw [SMap.get_of_find] at h
  rw [SMap.get_of_find, find_map_of_keys Part.afterD3_key]
  cases hp : SMap.find m p with
  | none => simp [hp] at h
  | some x => simp_all [Part.afterD3]

theorem exec_pmcsrD0_off {s : State} (hd : s.pwr.dstate = .d3hot) (hh : s.rst.held = false) :
    exec .pmcsrD0 s = .next ((State.portsUp { s with
      pwr := { s.pwr with dstate := .d0 }
      sc := { s.sc with parts := s.sc.parts.map Part.afterD3 } }).secFault 0x0F28).pwrSettle := by
  show execPmcsrD0 s = _
  have runs : (s.pwr.dstate == .d3hot && !s.rst.held) = true := by simp [hd, hh]
  exact if_pos runs

theorem exec_pmcsrD0_on {s : State} (hd : s.pwr.dstate ≠ .d3hot) : exec .pmcsrD0 s = .next s := by
  show execPmcsrD0 s = _
  simp [execPmcsrD0, hd]

/-! ### The statement -/

theorem exec_pStateRequest_adjacent {s : State} {p : AccessPath} {v : W32} (hw : s.csrWritable p .hub = true)
    (hd : s.pwr.dstate = .d0) (hr : s.pwr.ramp = none) (hs : s.stw.st = .running)
    (ht : s.pwr.target = .ofCode s.pwr.preq.toNat) (hv : bit v 2 = false)
    (adj : (PState.ofCode (field v 0 2).toNat).rank = s.pwr.pstate.rank + 1
      ∨ (PState.ofCode (field v 0 2).toNat).rank + 1 = s.pwr.pstate.rank) :
    ∃ t, exec (.pStateRequest p v) s = .next t ∧ t.pwr.ramp = some (PState.ofCode (field v 0 2).toNat)
      ∧ t.pwr.pstate = s.pwr.pstate ∧ t.rails.vddMv = (PState.ofCode (field v 0 2).toNat).mv ∧ t.pwr.preq = field v 0 2 := by
  obtain ⟨kpreq, kpstate, kramp, kdstate, -⟩ := s.pwrCtlTaken_frame v
  have ktarget := State.pwrCtlTaken_target v hs ht
  have next : (s.pwrCtlTaken v).pstate.toward (s.pwrCtlTaken v).target = PState.ofCode (field v 0 2).toNat := by
    rw [kpstate, ktarget, PState.toward_adjacent adj]
  have off : (s.pwrCtlTaken v).pstate.toward (s.pwrCtlTaken v).target ≠ (s.pwrCtlTaken v).pstate := by
    rw [next, kpstate]; exact PState.ne_of_adjacent adj
  refine ⟨_, exec_pStateRequest v hw, ?_⟩
  rw [State.writePwrCtl_awake hd hv, State.pwrSettle_ramps (kdstate.trans hd) (kramp.trans hr) hs off]
  exact ⟨congrArg some next, kpstate, congrArg PState.mv next, kpreq⟩

theorem exec_pStateRequest_same {s : State} {p : AccessPath} {v : W32} (hw : s.csrWritable p .hub = true)
    (hd : s.pwr.dstate = .d0) (hr : s.pwr.ramp = none) (hs : s.stw.st = .running)
    (ht : s.pwr.target = .ofCode s.pwr.preq.toNat) (hv : bit v 2 = false)
    (same : PState.ofCode (field v 0 2).toNat = s.pwr.pstate) :
    ∃ t, exec (.pStateRequest p v) s = .next t ∧ t.pwr.ramp = none ∧ t.rails = s.rails := by
  obtain ⟨-, kpstate, kramp, -, -⟩ := s.pwrCtlTaken_frame v
  have still : (s.pwrCtlTaken v).target = (s.pwrCtlTaken v).pstate := by
    rw [State.pwrCtlTaken_target v hs ht, same, kpstate]
  obtain ⟨ramp, rails⟩ := State.pwrSettle_at_target (s := { s with pwr := s.pwrCtlTaken v }) still
  refine ⟨_, exec_pStateRequest v hw, ?_⟩
  rw [State.writePwrCtl_awake hd hv]
  exact ⟨ramp.trans (kramp.trans hr), rails⟩

theorem exec_rampComplete_arrives {s : State} {x : PState} (h : s.pwr.ramp = some x) (ht : s.pwr.target = x) :
    ∃ t, exec .rampComplete s = .next t ∧ t.pwr.pstate = x ∧ t.pwr.ramp = none := by
  refine ⟨_, exec_rampComplete_ramp h, by simp, ?_⟩
  rw [(State.pwrSettle_at_target (by simp [ht])).1, State.secFault_pwr]

/-- The tenth sample over the cap at P0 begins the ramp to P1, CAPPED. -/
theorem exec_powerCapSample_lowers {s : State} {w : W16} (hr : s.hubRuns = true) (hs : s.stw.st = .running)
    (he : s.pwr.capEn = true) (h : s.pwr.capW.toNat < w.toNat) (h9 : s.pwr.overs = 9) (hd : s.pwr.dstate = .d0)
    (hn : s.pwr.ramp = none) (hq : s.pwr.preq = 0) (hp : s.pwr.pstate = .p0) :
    ∃ t, exec (.powerCapSample w) s = .next t ∧ t.pwr.target = .p1 ∧ t.pwr.ramp = some .p1 ∧ t.pwr.capped = true
      ∧ t.pwr.overs = 0 ∧ t.pwr.powerW = w := by
  have down : PState.ofRank (max (PState.ofCode s.pwr.preq.toNat).rank (min 3 (s.pwr.pstate.rank + 1))) = .p1 := by
    rw [hq, hp]; rfl
  refine ⟨_, exec_powerCapSample_tenth hr hs he h (Nat.le_of_eq h9.symm), ?_⟩
  rw [down, State.pwrSettle_ramps (p := { s.pwr.sampled w 0 with target := .p1 }) hd hn hs
    (by simp [PowerState.sampled, hp, PState.toward, PState.rank, PState.ofRank])]
  simp [PowerState.sampled, hp, hq, he, PState.toward, PState.rank, PState.ofRank, PState.ofCode]

theorem exec_d0IdleRequest_idles {s : State} {p : AccessPath} {v : W32} (hw : s.csrWritable p .hub = true)
    (hd : s.pwr.dstate = .d0) (hv : bit v 2 = true) (hq : s.partsQuiet = true) :
    ∃ t, exec (.d0IdleRequest p v) s = .next t ∧ t.pwr.dstate = .d0idle ∧ t.pwr.idle = true ∧ t.co.core = []
      ∧ t.pwr.refused = s.pwr.refused := by
  obtain ⟨-, -, -, -, krefused⟩ := s.pwrCtlTaken_frame v
  refine ⟨_, exec_d0IdleRequest v hw, ?_⟩
  rw [State.writePwrCtl_idles hd hv hq]
  simp [State.clearClusters_all_core, krefused]

theorem exec_d0IdleRequest_refused {s : State} {p : AccessPath} {v : W32} (hw : s.csrWritable p .hub = true)
    (hd : s.pwr.dstate = .d0) (hv : bit v 2 = true) (hq : s.partsQuiet = false) :
    ∃ t, exec (.d0IdleRequest p v) s = .next t ∧ t.pwr.dstate = .d0 ∧ t.pwr.idle = false ∧ t.pwr.refused = true
      ∧ t.co = s.co := by
  obtain ⟨-, -, -, kdstate, -⟩ := s.pwrCtlTaken_frame v
  refine ⟨_, exec_d0IdleRequest v hw, ?_⟩
  rw [State.writePwrCtl_refused hd hv hq]
  simp [kdstate, hd]

theorem exec_d0IdleRequest_wakes {s : State} {p : AccessPath} {v : W32} (hw : s.csrWritable p .hub = true)
    (hd : s.pwr.dstate = .d0idle) (hv : bit v 2 = false) :
    ∃ t, exec (.d0IdleRequest p v) s = .next t ∧ t.pwr.dstate = .d0 ∧ t.pwr.idle = false := by
  refine ⟨_, exec_d0IdleRequest v hw, ?_⟩
  rw [State.writePwrCtl_wakes hd hv]
  simp

theorem exec_pmcsrD3hot_arrives {s : State} {q : Quiesce} (hs : s.rst.start = .ready) (hh : s.rst.held = false)
    (hd : s.pwr.dstate = .d0) (hq : s.pwr.d3 = some q) (h3 : q.step = 3) (hf : s.hostFlushed = true) :
    ∃ t, exec .pmcsrD3hot s = .next t ∧ t.pwr.dstate = .d3hot ∧ t.pwr.d3 = none ∧ t.co.core = [] := by
  have arrived : s.d3Step.pwr.d3 = none := by simp [State.d3Step_last hq h3 hf]
  refine ⟨s.d3Step, ?_, ?_⟩
  · rw [exec_pmcsrD3hot_underway hs hh hd (by simp [hq])]
    simp only [State.d3Step_none arrived]
  · rw [State.d3Step_last hq h3 hf]
    simp [State.diesOff_core]

theorem exec_pmcsrD3hot_waits {s : State} {q : Quiesce} (hs : s.rst.start = .ready) (hh : s.rst.held = false)
    (hd : s.pwr.dstate = .d0) (hq : s.pwr.d3 = some q) (h3 : q.step = 3) (hf : s.hostFlushed = false)
    (ht : s.gtoPassed q.due = false) : exec .pmcsrD3hot s = .next s := by
  rw [exec_pmcsrD3hot_underway hs hh hd (by simp [hq])]
  simp only [State.d3Step_waits hq h3 hf ht]

theorem exec_pmcsrD0_powers {s : State} (hd : s.pwr.dstate = .d3hot) (hh : s.rst.held = false) :
    ∃ t, exec .pmcsrD0 s = .next t ∧ t.pwr.dstate = .d0 ∧ t.rails.pser = true
      ∧ (∀ p, (s.part p).st = .running → (t.part p).st = .stopped ∧ (t.part p).ctxV = false) := by
  refine ⟨_, exec_pmcsrD0_off hd hh, ?_⟩
  obtain ⟨aq, ports⟩ := State.portsUp_shape { s with
    pwr := { s.pwr with dstate := .d0 }, sc := { s.sc with parts := s.sc.parts.map Part.afterD3 } }
  rw [ports]
  refine ⟨by simp, by simp, fun p running => ?_⟩
  simpa [State.part] using Part.get_map_afterD3 running

/-- Settles O43: a lemma for each case of the requests, the ramp's end, the samples and the two writes of PMCSR. -/
theorem powerStates : Obligations.PowerStates := by
  unfold Obligations.PowerStates
  refine ⟨fun s p v hw hd hr hs ht hv => ⟨exec_pStateRequest_adjacent hw hd hr hs ht hv,
      exec_pStateRequest_same hw hd hr hs ht hv⟩,
    fun s x => exec_rampComplete_arrives, fun s => exec_rampComplete_none,
    fun s w hr hs he => ⟨exec_powerCapSample_lowers hr hs he, fun h few => ?_, fun h release => ?_⟩,
    fun s p v hw hd hv => ⟨exec_d0IdleRequest_idles hw hd hv, exec_d0IdleRequest_refused hw hd hv⟩,
    fun s p v => exec_d0IdleRequest_wakes, fun s q => exec_pmcsrD3hot_arrives, fun s q => exec_pmcsrD3hot_waits,
    fun s => exec_pmcsrD0_powers, fun s => exec_pmcsrD0_on⟩
  · exact ⟨_, exec_powerCapSample_over hr hs he h few, by simp [PowerState.sampled]⟩
  · exact ⟨_, exec_powerCapSample_between hr hs he h release, by simp [PowerState.sampled]⟩

end Sys2Proof.Machine
end

section
/-! SUPPORT. Task timers, deliveries and pair mismatches (R64, R466, R482–R484, R575, R576, R663). -/
namespace Sys2Proof.Machine
open Sys2Proof

/-! ### Sleep and delivery (R64, R466) -/

theorem exec_sleepExpiry {s : State} {n : Fin 8} {sl : Fin 32} {t : Task} {u : Nat} (ht : s.task n.val sl.val = some t)
    (hw : t.wait = .sleep u) : exec (.sleepExpiry n sl) s =
      .next (if u ≤ s.time.now then s.setTask n.val sl.val { t with wait := .ready } else s) := by
  show execSleepExpiry n sl s = _
  simp only [execSleepExpiry, ht, hw]
  split <;> rfl

theorem exec_waitqDelivery_none {s : State} {n : Fin 8} {sl : Fin 32} (sel : Fin 4) (k : Nat) (raw : Line) (ok : Bool)
    (ht : s.task n.val sl.val = none) : exec (.waitqDelivery n sl sel k raw ok) s = .next s := by
  show execWaitqDelivery n sl sel k raw ok s = _
  simp [execWaitqDelivery, ht]

/-- A task that waits on any source and owes fewer than 1,024 is delivered from the bound queue that the selector names. -/
theorem exec_waitqDelivery_queue {s : State} {n : Fin 8} {sl : Fin 32} {sel : Fin 4} (k : Nat) (raw : Line) (ok : Bool)
    {t : Task} {sl0 addr rd q : Nat} (ht : s.task n.val sl.val = some t) (hw : t.wait = .waitq sl0 true addr rd)
    (hr : s.pairRuns n.val = true) (hl : ((s.pair n.val).ledger.filter fun o => o.task == sl.val).length < 1024)
    (hq : t.sources[sel.val]? = some (0, q)) :
    exec (.waitqDelivery n sl sel k raw ok) s = .next (s.deliverSqe n.val sl.val t addr rd sel.val q raw ok) := by
  show execWaitqDelivery n sl sel k raw ok s = _
  simp [execWaitqDelivery, ht, hw, hr, hq, Nat.not_le.mpr hl]

theorem State.deliverSqe_failed {s : State} {q : Nat} {raw : Line} {ok : Bool} (n sl : Nat) (t : Task) (addr rd sel : Nat)
    (hm : s.mayFetch q = true) (hr : s.sqeRecall q = none) (hs : s.sqeAt q raw ok = none) :
    s.deliverSqe n sl t addr rd sel q raw ok = s.fetchFailed q := by
  simp [State.deliverSqe, hm, hr, hs]

@[simp] theorem length_leBytes (n v : Nat) : (leBytes n v).length = n := by
  induction n generalizing v with
  | zero => rfl
  | succ n ih => simp [leBytes, ih]

/-- An entry that the frame holds is accepted: the queues are as its source leaves them. -/
theorem State.accept_queue {s : State} {n sl : Nat} {t : Task} {addr : Nat} {bs : List Byte} (rd : Nat) (o : Owed)
    (f : State → State) (q : Nat) (h : addr + bs.length ≤ s.frameOf t) :
    (s.accept n sl t addr rd bs o f).queue q = (f s).queue q := by
  unfold State.accept
  rw [if_neg (Nat.not_lt.mpr h)]
  dsimp only
  split <;> rfl

theorem State.deliverSqe_sqHead {s : State} {q : Nat} {raw : Line} {ok : Bool} {l : Line} {n sl : Nat} {t : Task} {addr : Nat}
    (rd sel : Nat) (hm : s.mayFetch q = true) (hr : s.sqeRecall q = none) (hs : s.sqeAt q raw ok = some l)
    (ha : addr + 64 ≤ s.frameOf t) :
    ((s.deliverSqe n sl t addr rd sel q raw ok).queue q).sqHead = ((s.queue q).sqHead + 1) % (s.queue q).sqSize := by
  simp only [State.deliverSqe, hm, hr, hs, Bool.not_true, Bool.false_eq_true, if_false]
  rw [State.accept_queue _ _ _ _ (by simpa using ha), State.queue_updQ]

/-! ### Mismatches (R482–R484, R663) -/

theorem exec_lockstepMismatch {s : State} {n : Fin 8} (m : Bool) (a b : W64) (h : s.serving .pair n.val = true) :
    exec (.lockstepMismatch n m a b) s = .next (s.mismatch n.val (if m then 0x0403 else 0x0303) a b) := by
  show execLockstepMismatch n m a b s = _
  simp [execLockstepMismatch, h]

/-- Partitions that all keep a pair are not reset. -/
theorem State.foldl_partReset_kept {s : State} {n : Nat} {l : List Nat} (h : ∀ p ∈ l, s.pairsOf p ≠ []) :
    l.foldl (fun st p => if (st.pairsOf p).isEmpty then st.partReset p 3 n else st) s = s := by
  induction l with
  | nil => rfl
  | cons p l ih =>
    have keeps : (s.pairsOf p).isEmpty = false := by simpa using h p List.mem_cons_self
    rw [List.foldl_cons, keeps]
    exact ih fun x hx => h x (List.mem_cons_of_mem _ hx)

theorem exec_pairResyncComplete_pass {s : State} {n : Fin 8} (hr : (s.pair n.val).resync = true)
    (hs : (s.pair n.val).stuck = false) (hi : s.rst.idleReqs.find (blkPair n.val) = none) :
    exec (.pairResyncComplete n true) s = .next ((s.served n.val).foldl
      (fun st p => if (st.pairsOf p).isEmpty then st.partReset p 3 n.val else st)
      (s.updPair n.val fun p => { p with resync := false })) := by
  show execPairResyncComplete n true s = _
  simp [execPairResyncComplete, hr, hs, hi]

/-! ### Timers (R575, R576) -/

theorem exec_tokenTimeout_early {s : State} {n : Fin 8} {i : Nat} {o : Owed} (h : (s.pair n.val).ledger[i]? = some o)
    (hd : s.time.now < o.due) : exec (.tokenTimeout n i) s = .next s := by
  show execTokenTimeout n i s = _
  simp [execTokenTimeout, State.gtoPassed, h, Nat.not_le.mpr hd]

/-- A token of a queue that expires: its record, its completion, and the mark in the ledger. -/
theorem exec_tokenTimeout_queue {s : State} {n : Fin 8} {i : Nat} {o : Owed} (h : (s.pair n.val).ledger[i]? = some o)
    (hd : o.due ≤ s.time.now) (ho : o.own = false) (hx : o.expired = false) (hk : o.kind = 0) :
    let s1 := s.pairFault n.val (some o.task) 0x0B01 0 0 0
    exec (.tokenTimeout n i) s = .next ((s1.postOwed o stTimeout (faultSeq s s1)).updPair n.val fun p => { p with
      ledger := p.ledger.map fun (x : Owed) => if x = o then { x with expired := true } else x }) := by
  show execTokenTimeout n i s = _
  simp [execTokenTimeout, State.gtoPassed, h, hd, ho, hx, hk]

theorem exec_taskTimeout_launched {s : State} {n : Fin 8} {sl : Fin 32} {t : Task} (ht : s.task n.val sl.val = some t)
    (hl : t.standing = false) : exec (.taskTimeout n sl) s =
      .next (if t.due ≤ s.time.now then s.taskTimeout n.val sl.val else s) := by
  show execTaskTimeout n sl s = _
  simp only [execTaskTimeout, State.gtoPassed, ht, hl, Bool.not_false, Bool.true_and, decide_eq_true_eq]
  split <;> rfl

theorem exec_taskWaitTimeout_waiting {s : State} {n : Fin 8} {sl : Fin 32} {t : Task} {d : Nat}
    (ht : s.task n.val sl.val = some t) (hd : t.waitDue = some d) (hr : s.taskReady n.val t = false) :
    exec (.taskWaitTimeout n sl) s = .next (if d ≤ s.time.now then s.taskTimeout n.val sl.val else s) := by
  show execTaskWaitTimeout n sl s = _
  simp only [execTaskWaitTimeout, State.gtoPassed, ht, hd, hr, Bool.not_false, Bool.and_true, decide_eq_true_eq]
  split <;> rfl

/-- Settles O30: one lemma for each event and timer. -/
theorem taskEvents : Obligations.TaskEvents := by
  unfold Obligations.TaskEvents
  refine ⟨fun s n sl t u => exec_sleepExpiry, fun s n sl sel k raw ok => exec_waitqDelivery_none sel k raw ok,
    fun s n sl sel k raw ok t sl0 addr rd q ht hw hr hl hq hm hc => ?_,
    fun s n m a b => exec_lockstepMismatch m a b, fun s n hr hs hi keeps same => ?_,
    fun s n i o => exec_tokenTimeout_early, fun s n i o => exec_tokenTimeout_queue,
    fun s n sl t => exec_taskTimeout_launched, fun s n sl t d => exec_taskWaitTimeout_waiting⟩
  · rw [exec_waitqDelivery_queue k raw ok ht hw hr hl hq]
    exact ⟨fun hs => by rw [State.deliverSqe_failed _ _ _ _ _ _ hm hc hs],
      fun l hs ha => ⟨_, rfl, State.deliverSqe_sqHead rd sel hm hc hs ha⟩⟩
  · rw [exec_pairResyncComplete_pass hr hs hi, State.foldl_partReset_kept (same ▸ keeps)]

end Sys2Proof.Machine
end

section
/-! SUPPORT. What every step keeps (R118, R717, R748, R774, R794): an arm of `exec` at a time, then the two cases of the
queue. -/
namespace Sys2Proof.Machine
open Sys2Proof

/-- Every command's meaning keeps `Canon`. -/
theorem canon_exec : ∀ (c : Instr) (s : State), Canon s → CanonR (exec c s)
  | .por boot clk pair test, s, h => canon_execPor boot clk pair test s h
  | .perstNAssert, s, h => canon_execPerstNAssert s h
  | .perstNDeassert, s, h => canon_execPerstNDeassert s h
  | .jtagReset, s, h => canon_execJtagReset s h
  | .stewardResetRequest, s, h => canon_execStewardResetRequest s h
  | .bootImageReceived src data readError, s, h => canon_execBootImageReceived src data readError s h
  | .bootImageAbsentTimeout, s, h => canon_execBootImageAbsentTimeout s h
  | .rstcHloadGo p v, s, h => canon_execRstcHloadGo p v s h
  | .hbmTrainingComplete bad, s, h => canon_execHbmTrainingComplete bad s h
  | .zeroFillComplete, s, h => canon_execZeroFillComplete s h
  | .startupReady, s, h => canon_execStartupReady s h
  | .startupTimeout, s, h => canon_execStartupTimeout s h
  | .thermalTrip, s, h => canon_execThermalTrip s h
  | .thermalRearm, s, h => canon_execThermalRearm s h
  | .vbakLoss, s, h => canon_execVbakLoss s h
  | .vddCoreUndervolt, s, h => canon_execVddCoreUndervolt s h
  | .railFault rail latched addr page status, s, h => canon_execRailFault rail latched addr page status s h
  | .auxRailLoss, s, h => canon_execAuxRailLoss s h
  | .auxRailReturn, s, h => canon_execAuxRailReturn s h
  | .mainRailsReturn, s, h => canon_execMainRailsReturn s h
  | .pmAlert addr page status answered, s, h => canon_execPmAlert addr page status answered s h
  | .blockIdleAck block, s, h => canon_execBlockIdleAck block s h
  | .rstcIdleTimeoutExpiry block, s, h => canon_execRstcIdleTimeoutExpiry block s h
  | .dieRelease die, s, h => canon_execDieRelease die s h
  | .refClockLoss, s, h => canon_execRefClockLoss s h
  | .pllRelock, s, h => canon_execPllRelock s h
  | .hubTimeStep p v, s, h => canon_execHubTimeStep p v s h
  | .pairStepTime, s, h => canon_execPairStepTime s h
  | .timeMessageSend, s, h => canon_execTimeMessageSend s h
  | .timeMessage peerTime oneWay step lock, s, h => canon_execTimeMessage peerTime oneWay step lock s h
  | .pairLockLoss, s, h => canon_execPairLockLoss s h
  | .loReadLatch p off size, s, h => canon_execLoReadLatch p off size s h
  | .paceSample die monitors, s, h => canon_execPaceSample die monitors s h
  | .ageingUpdate die pace temp days, s, h => canon_execAgeingUpdate die pace temp days s h
  | .pwrPaceMinWrite p die, s, h => canon_execPwrPaceMinWrite p die s h
  | .pStateRequest p v, s, h => canon_execPStateRequest p v s h
  | .rampComplete, s, h => canon_execRampComplete s h
  | .powerCapSample power, s, h => canon_execPowerCapSample power s h
  | .d0IdleRequest p v, s, h => canon_execD0IdleRequest p v s h
  | .pmcsrD3hot, s, h => canon_execPmcsrD3hot s h
  | .pmcsrD0, s, h => canon_execPmcsrD0 s h
  | .hbmReadRequest stack ch pc addr sectors demand, s, h =>
    canon_execHbmReadRequest stack ch pc addr sectors demand s h
  | .hbmWriteRequest stack ch pc addr data poison, s, h => canon_execHbmWriteRequest stack ch pc addr data poison s h
  | .hbmReadComplete stack ch pc errors ode, s, h => canon_execHbmReadComplete stack ch pc errors ode s h
  | .sectorRereadComplete stack ch pc errors ode, s, h => canon_execSectorRereadComplete stack ch pc errors ode s h
  | .driftLockLoss stack ch pc lane, s, h => canon_execDriftLockLoss stack ch pc lane s h
  | .driftTrackingSlot stack ch pc, s, h => canon_execDriftTrackingSlot stack ch pc s h
  | .dramRefresh stack ch, s, h => canon_execDramRefresh stack ch s h
  | .calibrationWindow stack ch checkA checkB, s, h => canon_execCalibrationWindow stack ch checkA checkB s h
  | .sweepComplete stack ch, s, h => canon_execSweepComplete stack ch s h
  | .evacuationBlockCopied stack ch pc block toPc toBlock, s, h =>
    canon_execEvacuationBlockCopied stack ch pc block toPc toBlock s h
  | .evacuationComplete stack ch, s, h => canon_execEvacuationComplete stack ch s h
  | .patrolScrubRead stack ch errors ode, s, h => canon_execPatrolScrubRead stack ch errors ode s h
  | .hubRegionAWrite p n v, s, h => canon_execHubRegionAWrite p n v s h
  | .cbkInstall c, s, h => canon_execCbkInstall c s h
  | .cbkClear c, s, h => canon_execCbkClear c s h
  | .cbkRead c, s, h => canon_execCbkRead c s h
  | .census c, s, h => canon_execCensus c s h
  | .tblCreate c, s, h => canon_execTblCreate c s h
  | .tblLoad c, s, h => canon_execTblLoad c s h
  | .tblSeal c, s, h => canon_execTblSeal c s h
  | .tblRetire c, s, h => canon_execTblRetire c s h
  | .tblDrainDone t, s, h => canon_execTblDrainDone t s h
  | .tblRetireTimeout t, s, h => canon_execTblRetireTimeout t s h
  | .tblCtrz c, s, h => canon_execTblCtrz c s h
  | .tblFlip c, s, h => canon_execTblFlip c s h
  | .hubTdaLoWrite p v, s, h => canon_execHubTdaLoWrite p v s h
  | .hubBdCtlWrite p v, s, h => canon_execHubBdCtlWrite p v s h
  | .bsnFill c, s, h => canon_execBsnFill c s h
  | .bsnDrop c, s, h => canon_execBsnDrop c s h
  | .bsnDropSettled n, s, h => canon_execBsnDropSettled n s h
  | .ftnAdd c, s, h => canon_execFtnAdd c s h
  | .ftnDrop c, s, h => canon_execFtnDrop c s h
  | .bktMove c, s, h => canon_execBktMove c s h
  | .bktMoveCopyDone bucket, s, h => canon_execBktMoveCopyDone bucket s h
  | .heatOn c, s, h => canon_execHeatOn c s h
  | .heatOff c, s, h => canon_execHeatOff c s h
  | .heatRead c, s, h => canon_execHeatRead c s h
  | .heatSample n, s, h => canon_execHeatSample n s h
  | .decayTick, s, h => canon_execDecayTick s h
  | .fillRowArrival n, s, h => canon_execFillRowArrival n s h
  | .markerRoundComplete kind n, s, h => canon_execMarkerRoundComplete kind n s h
  | .stackRowRequest stack n, s, h => canon_execStackRowRequest stack n s h
  | .rsvDeclare c, s, h => canon_execRsvDeclare c s h
  | .rsvRelease c, s, h => canon_execRsvRelease c s h
  | .reservoirReadResponse n outcome, s, h => canon_execReservoirReadResponse n outcome s h
  | .aqFormat c, s, h => canon_execAqFormat c s h
  | .aqMount c failed, s, h => canon_execAqMount c failed s h
  | .aqSync c, s, h => canon_execAqSync c s h
  | .aqExtCreate c, s, h => canon_execAqExtCreate c s h
  | .aqExtFree c, s, h => canon_execAqExtFree c s h
  | .aqAdopt c, s, h => canon_execAqAdopt c s h
  | .aqSlotOff c, s, h => canon_execAqSlotOff c s h
  | .nvmeCompletion n status, s, h => canon_execNvmeCompletion n status s h
  | .nvmeIoTimeout n, s, h => canon_execNvmeIoTimeout n s h
  | .nvmeControllerReset slot, s, h => canon_execNvmeControllerReset slot s h
  | .aqDriveInsert slot serial lbas awun, s, h => canon_execAqDriveInsert slot serial lbas awun s h
  | .aqDriveIdentified slot speed width supported, s, h => canon_execAqDriveIdentified slot speed width supported s h
  | .aqSurpriseRemoval slot present, s, h => canon_execAqSurpriseRemoval slot present s h
  | .aqLinkLoss slot retrained, s, h => canon_execAqLinkLoss slot retrained s h
  | .nvmeAsyncEvent slot pct spare crit days, s, h => canon_execNvmeAsyncEvent slot pct spare crit days s h
  | .smartPoll slot pct spare crit days, s, h => canon_execSmartPoll slot pct spare crit days s h
  | .tailWrite ordinal, s, h => canon_execTailWrite ordinal s h
  | .tailTimerExpiry ordinal, s, h => canon_execTailTimerExpiry ordinal s h
  | .compaction ordinal, s, h => canon_execCompaction ordinal s h
  | .lateTime n, s, h => canon_execLateTime n s h
  | .lkup core w, s, h => canon_execLkup core w s h
  | .dispatcherBag cluster n, s, h => canon_execDispatcherBag cluster n s h
  | .luRowArrival stack n, s, h => canon_execLuRowArrival stack n s h
  | .partialArrival core n, s, h => canon_execPartialArrival core n s h
  | .updBatch c, s, h => canon_execUpdBatch c s h
  | .updateRecord n, s, h => canon_execUpdateRecord n s h
  | .updateReadComplete n, s, h => canon_execUpdateReadComplete n s h
  | .journalSpaceFreed stack, s, h => canon_execJournalSpaceFreed stack s h
  | .batchComplete n, s, h => canon_execBatchComplete n s h
  | .flipHoldDrained n, s, h => canon_execFlipHoldDrained n s h
  | .epochTimer, s, h => canon_execEpochTimer s h
  | .updEpoch c, s, h => canon_execUpdEpoch c s h
  | .epochMarkerReached unit, s, h => canon_execEpochMarkerReached unit s h
  | .dgstRebuild c, s, h => canon_execDgstRebuild c s h
  | .hubUpdCtlWrite p v, s, h => canon_execHubUpdCtlWrite p v s h
  | .hubDgsWrite p v, s, h => canon_execHubDgsWrite p v s h
  | .uuJnlWrite p stack v, s, h => canon_execUuJnlWrite p stack v s h
  | .coreNop core v, s, h => canon_execCoreNop core v s h
  | .coreEnd core w, s, h => canon_execCoreEnd core w s h
  | .hold core w, s, h => canon_execHold core w s h
  | .sop core w, s, h => canon_execSop core w s h
  | .sopi core w, s, h => canon_execSopi core w s h
  | .sli core w, s, h => canon_execSli core w s h
  | .br core w, s, h => canon_execBr core w s h
  | .ldsS core w, s, h => canon_execLdsS core w s h
  | .stsS core w, s, h => canon_execStsS core w s h
  | .wstg core w, s, h => canon_execWstg core w s h
  | .wstgStagingComplete core, s, h => canon_execWstgStagingComplete core s h
  | .mma core w, s, h => canon_execMma core w s h
  | .mmaStart core, s, h => canon_execMmaStart core s h
  | .mmaComplete core, s, h => canon_execMmaComplete core s h
  | .pull core w, s, h => canon_execPull core w s h
  | .push core w, s, h => canon_execPush core w s h
  | .transferBlock core ch, s, h => canon_execTransferBlock core ch s h
  | .transferComplete core ch, s, h => canon_execTransferComplete core ch s h
  | .cwtWait core w, s, h => canon_execCwtWait core w s h
  | .cwtRead core w, s, h => canon_execCwtRead core w s h
  | .slw core w, s, h => canon_execSlw core w s h
  | .sls core w, s, h => canon_execSls core w s h
  | .sluiceSignalArrival n, s, h => canon_execSluiceSignalArrival n s h
  | .fncA core w, s, h => canon_execFncA core w s h
  | .fncR core w, s, h => canon_execFncR core w s h
  | .fncF core w, s, h => canon_execFncF core w s h
  | .bar core w, s, h => canon_execBar core w s h
  | .barrierRelease part bid peer, s, h => canon_execBarrierRelease part bid peer s h
  | .dgst core w, s, h => canon_execDgst core w s h
  | .vop core w, s, h => canon_execVop core w s h
  | .vcmp core w, s, h => canon_execVcmp core w s h
  | .vsel core w, s, h => canon_execVsel core w s h
  | .vred core w, s, h => canon_execVred core w s h
  | .vbc core w, s, h => canon_execVbc core w s h
  | .plog core w, s, h => canon_execPlog core w s h
  | .lds core w, s, h => canon_execLds core w s h
  | .sts core w, s, h => canon_execSts core w s h
  | .fetchLine core, s, h => canon_execFetchLine core s h
  | .coreDeferredException core, s, h => canon_execCoreDeferredException core s h
  | .taskReg c, s, h => canon_execTaskReg c s h
  | .taskUnreg c, s, h => canon_execTaskUnreg c s h
  | .taskRun c, s, h => canon_execTaskRun c s h
  | .taskPlace q, s, h => canon_execTaskPlace q s h
  | .taskStop c, s, h => canon_execTaskStop c s h
  | .taskQuantum pair, s, h => canon_execTaskQuantum pair s h
  | .ccNop pair, s, h => canon_execCcNop pair s h
  | .alu pair w, s, h => canon_execAlu pair w s h
  | .addi pair w, s, h => canon_execAddi pair w s h
  | .andi pair w, s, h => canon_execAndi pair w s h
  | .ori pair w, s, h => canon_execOri pair w s h
  | .xori pair w, s, h => canon_execXori pair w s h
  | .shi pair w, s, h => canon_execShi pair w s h
  | .movi pair w, s, h => canon_execMovi pair w s h
  | .movk pair w, s, h => canon_execMovk pair w s h
  | .ld pair w, s, h => canon_execLd pair w s h
  | .lw pair w, s, h => canon_execLw pair w s h
  | .st pair w, s, h => canon_execSt pair w s h
  | .sw pair w, s, h => canon_execSw pair w s h
  | .beq pair w, s, h => canon_execBeq pair w s h
  | .bne pair w, s, h => canon_execBne pair w s h
  | .blt pair w, s, h => canon_execBlt pair w s h
  | .bge pair w, s, h => canon_execBge pair w s h
  | .bltu pair w, s, h => canon_execBltu pair w s h
  | .bgeu pair w, s, h => canon_execBgeu pair w s h
  | .jal pair w, s, h => canon_execJal pair w s h
  | .jr pair w, s, h => canon_execJr pair w s h
  | .ccTime pair w, s, h => canon_execCcTime pair w s h
  | .sleep pair w, s, h => canon_execSleep pair w s h
  | .sleepExpiry pair slot, s, h => canon_execSleepExpiry pair slot s h
  | .waitq pair w, s, h => canon_execWaitq pair w s h
  | .waitqDelivery pair slot sel k raw ok, s, h => canon_execWaitqDelivery pair slot sel k raw ok s h
  | .issue pair w, s, h => canon_execIssue pair w s h
  | .waiti pair w, s, h => canon_execWaiti pair w s h
  | .post pair w, s, h => canon_execPost pair w s h
  | .dmov pair w, s, h => canon_execDmov pair w s h
  | .upd pair w, s, h => canon_execUpd pair w s h
  | .seqCreate pair w, s, h => canon_execSeqCreate pair w s h
  | .seqRead pair w, s, h => canon_execSeqRead pair w s h
  | .seqRetire pair w, s, h => canon_execSeqRetire pair w s h
  | .ccFault pair w, s, h => canon_execCcFault pair w s h
  | .taskEnd pair w, s, h => canon_execTaskEnd pair w s h
  | .lockstepMismatch pair memory lead check, s, h => canon_execLockstepMismatch pair memory lead check s h
  | .pairResyncComplete pair pass, s, h => canon_execPairResyncComplete pair pass s h
  | .worklistArrival wl j, s, h => canon_execWorklistArrival wl j s h
  | .streamStart cluster n, s, h => canon_execStreamStart cluster n s h
  | .streamComplete core, s, h => canon_execStreamComplete core s h
  | .partStart c, s, h => canon_execPartStart c s h
  | .partStop c, s, h => canon_execPartStop c s h
  | .partStopTimeout p, s, h => canon_execPartStopTimeout p s h
  | .partStopped p, s, h => canon_execPartStopped p s h
  | .partSnap c, s, h => canon_execPartSnap c s h
  | .snapshotGatherDeadline p, s, h => canon_execSnapshotGatherDeadline p s h
  | .snapshotComplete p, s, h => canon_execSnapshotComplete p s h
  | .mdlReg c, s, h => canon_execMdlReg c s h
  | .mdlAdmit c, s, h => canon_execMdlAdmit c s h
  | .mdlUnreg c, s, h => canon_execMdlUnreg c s h
  | .stepForm p, s, h => canon_execStepForm p s h
  | .stepWaitTimeout p, s, h => canon_execStepWaitTimeout p s h
  | .sbWorklistComplete p n, s, h => canon_execSbWorklistComplete p n s h
  | .switchComplete p, s, h => canon_execSwitchComplete p s h
  | .teardownComplete p, s, h => canon_execTeardownComplete p s h
  | .sqDb q v, s, h => canon_execSqDb q v s h
  | .cqDb q v, s, h => canon_execCqDb q v s h
  | .sqeFetch q raw ok, s, h => canon_execSqeFetch q raw ok s h
  | .sqeNop c, s, h => canon_execSqeNop c s h
  | .cqeHoldRelease q, s, h => canon_execCqeHoldRelease q s h
  | .cqeHoldTimeout q, s, h => canon_execCqeHoldTimeout q s h
  | .cqCoalesceTimeout q, s, h => canon_execCqCoalesceTimeout q s h
  | .sqCfgWrite p q v vfOn, s, h => canon_execSqCfgWrite p q v vfOn s h
  | .queueDrained q, s, h => canon_execQueueDrained q s h
  | .tokenTimeout pair n, s, h => canon_execTokenTimeout pair n s h
  | .taskTimeout pair slot, s, h => canon_execTaskTimeout pair slot s h
  | .taskRunHeadTimeout q, s, h => canon_execTaskRunHeadTimeout q s h
  | .coreWaitTimeout core, s, h => canon_execCoreWaitTimeout core s h
  | .taskWaitTimeout pair slot, s, h => canon_execTaskWaitTimeout pair slot s h
  | .globalTimeoutHiWrite p v, s, h => canon_execGlobalTimeoutHiWrite p v s h
  | .hostLinkUp speed width cxl, s, h => canon_execHostLinkUp speed width cxl s h
  | .hostLinkDown, s, h => canon_execHostLinkDown s h
  | .pfFlr, s, h => canon_execPfFlr s h
  | .vfFlr vf, s, h => canon_execVfFlr vf s h
  | .hdmDecoderCommit dec commit size oneWay, s, h => canon_execHdmDecoderCommit dec commit size oneWay s h
  | .apertureAccess off write data poison, s, h => canon_execApertureAccess off write data poison s h
  | .windowHostAccess line write poison keep, s, h => canon_execWindowHostAccess line write poison keep s h
  | .spoutHeaderWrite slot line vf, s, h => canon_execSpoutHeaderWrite slot line vf s h
  | .hostSnoop hpa kind, s, h => canon_execHostSnoop hpa kind s h
  | .cxlCacheGo n resp, s, h => canon_execCxlCacheGo n resp s h
  | .goWritepull hpa drop, s, h => canon_execGoWritepull hpa drop s h
  | .bisnpResponse n data, s, h => canon_execBisnpResponse n data s h
  | .biconflict line, s, h => canon_execBiconflict line s h
  | .hlcWritebackTimer hpa, s, h => canon_execHlcWritebackTimer hpa s h
  | .hcHlcFlush p v, s, h => canon_execHcHlcFlush p v s h
  | .hcAptWrite p v, s, h => canon_execHcAptWrite p v s h
  | .hcBflipGo p v, s, h => canon_execHcBflipGo p v s h
  | .biasFlipComplete, s, h => canon_execBiasFlipComplete s h
  | .hcLcwWrite p v, s, h => canon_execHcLcwWrite p v s h
  | .spGrpAWrite p g v, s, h => canon_execSpGrpAWrite p g v s h
  | .ideIntegrityFailure, s, h => canon_execIdeIntegrityFailure s h
  | .ideKeyRefresh, s, h => canon_execIdeKeyRefresh s h
  | .pairActive p, s, h => canon_execPairActive p s h
  | .pairStandby p, s, h => canon_execPairStandby p s h
  | .copy p peer, s, h => canon_execCopy p peer s h
  | .solo p, s, h => canon_execSolo p s h
  | .promote p, s, h => canon_execPromote p s h
  | .swap p, s, h => canon_execSwap p s h
  | .retrain p lanes, s, h => canon_execRetrain p lanes s h
  | .quefyLinkUp lanes peer peerSide peerEpoch peerHolds, s, h =>
    canon_execQuefyLinkUp lanes peer peerSide peerEpoch peerHolds s h
  | .quefyLaneFailure lane retrained peerDown, s, h => canon_execQuefyLaneFailure lane retrained peerDown s h
  | .flitCrcFailure, s, h => canon_execFlitCrcFailure s h
  | .quefyLinkLoss silence peerDown, s, h => canon_execQuefyLinkLoss silence peerDown s h
  | .qfPrsntChange seated, s, h => canon_execQfPrsntChange seated s h
  | .peerDownSeen, s, h => canon_execPeerDownSeen s h
  | .mirrorItem n item, s, h => canon_execMirrorItem n item s h
  | .commitReceived c, s, h => canon_execCommitReceived c s h
  | .ackReceived n, s, h => canon_execAckReceived n s h
  | .compareResultReceived epoch agree bad unver, s, h => canon_execCompareResultReceived epoch agree bad unver s h
  | .verifySweepComplete, s, h => canon_execVerifySweepComplete s h
  | .verdictExchange consistent, s, h => canon_execVerdictExchange consistent s h
  | .expel p, s, h => canon_execExpel p s h
  | .rollback p, s, h => canon_execRollback p s h
  | .intVerWrite p v, s, h => canon_execIntVerWrite p v s h
  | .patrolTest kind u pass, s, h => canon_execPatrolTest kind u pass s h
  | .suspectClear kind u, s, h => canon_execSuspectClear kind u s h
  | .hubInjWrite p v, s, h => canon_execHubInjWrite p v s h
  | .hubIrqWrite p reg v, s, h => canon_execHubIrqWrite p reg v s h
  | .ccPairCfgWrite p pair v, s, h => canon_execCcPairCfgWrite p pair v s h
  | .partBarWrite p part bar word v, s, h => canon_execPartBarWrite p part bar word v s h
  | .csrWrite p off size v vfOn, s, h => canon_execCsrWrite p off size v vfOn s h
  | .getVersion doe req, s, h => canon_execGetVersion doe req s h
  | .getCapabilities doe req, s, h => canon_execGetCapabilities doe req s h
  | .negotiateAlgorithms doe req, s, h => canon_execNegotiateAlgorithms doe req s h
  | .getDigests doe req, s, h => canon_execGetDigests doe req s h
  | .getCertificate doe slot req, s, h => canon_execGetCertificate doe slot req s h
  | .challenge doe slot req, s, h => canon_execChallenge doe slot req s h
  | .getMeasurements doe req, s, h => canon_execGetMeasurements doe req s h
  | .keyExchange doe session req, s, h => canon_execKeyExchange doe session req s h
  | .finish session verified req, s, h => canon_execFinish session verified req s h
  | .endSession session req, s, h => canon_execEndSession session req s h
  | .keyUpdate session req, s, h => canon_execKeyUpdate session req s h
  | .heartbeat session req, s, h => canon_execHeartbeat session req s h
  | .spdmUnsupported doe, s, h => canon_execSpdmUnsupported doe s h
  | .lcProvision session payload, s, h => canon_execLcProvision session payload s h
  | .lcSeal session payload, s, h => canon_execLcSeal session payload s h
  | .lcRetire session payload, s, h => canon_execLcRetire session payload s h
  | .dbgReq session payload, s, h => canon_execDbgReq session payload s h
  | .dbgAuth session payload, s, h => canon_execDbgAuth session payload s h
  | .dbgRevoke session payload, s, h => canon_execDbgRevoke session payload s h
  | .fkSet session payload, s, h => canon_execFkSet session payload s h
  | .fkClear session payload, s, h => canon_execFkClear session payload s h
  | .nonceGet payload, s, h => canon_execNonceGet payload s h
  | .secAuth token, s, h => canon_execSecAuth token s h
  | .secDbgRevoke p v, s, h => canon_execSecDbgRevoke p v s h
  | .debugHalt block halt, s, h => canon_execDebugHalt block halt s h
  | .debugStep core, s, h => canon_execDebugStep core s h
  | .debugDaAccess da write n, s, h => canon_execDebugDaAccess da write n s h
  | .llCause, s, h => canon_execLlCause s h
  | .llCounters, s, h => canon_execLlCounters s h
  | .llFr n, s, h => canon_execLlFr n s h
  | .llReset arm, s, h => canon_execLlReset arm s h
  | .llPowerOff arm, s, h => canon_execLlPowerOff arm s h
  | .llPowerOn, s, h => canon_execLlPowerOn s h
  | .llStatus, s, h => canon_execLlStatus s h
  | .llIdentify on, s, h => canon_execLlIdentify on s h
  | .optRead off len, s, h => canon_execOptRead off len s h
  | .optStage off data, s, h => canon_execOptStage off data s h
  | .optCommit, s, h => canon_execOptCommit s h
  | .optDiscard, s, h => canon_execOptDiscard s h
  | .report, s, h => canon_execReport s h
  | .setEndpointId eid, s, h => canon_execSetEndpointId eid s h
  | .pldmBaseCommand code req, s, h => canon_execPldmBaseCommand code req s h
  | .getSensorReading id, s, h => canon_execGetSensorReading id s h
  | .getStateSensorReadings id, s, h => canon_execGetStateSensorReadings id s h
  | .setEventReceiver eid, s, h => canon_execSetEventReceiver eid s h
  | .pldmFruRead, s, h => canon_execPldmFruRead s h
  | .pldmFirmwareUpdate image cut, s, h => canon_execPldmFirmwareUpdate image cut s h
  | .telemetrySample temps vdd, s, h => canon_execTelemetrySample temps vdd s h
  | .stewardBusyWindow busy, s, h => canon_execStewardBusyWindow busy s h
  | .stewardWatchdog, s, h => canon_execStewardWatchdog s h
  | .hubStwKick p v, s, h => canon_execHubStwKick p v s h
  | .attnShortPress, s, h => canon_execAttnShortPress s h
  | .attnHold released, s, h => canon_execAttnHold released s h
  | .drainPartitionsStopped, s, h => canon_execDrainPartitionsStopped s h
  | .drainAbandonTimeout, s, h => canon_execDrainAbandonTimeout s h
  | .hostDrainedWrite p v, s, h => canon_execHostDrainedWrite p v s h
  | .pairPeerWindowExpiry, s, h => canon_execPairPeerWindowExpiry s h
  | .peerPairCommandReceived standby fp, s, h => canon_execPeerPairCommandReceived standby fp s h
  | .tableStoreReady, s, h => canon_execTableStoreReady s h
  | .entryBecomesUrgent p, s, h => canon_execEntryBecomesUrgent p s h
  | .busMasterEnableWrite fn on, s, h => canon_execBusMasterEnableWrite fn on s h
  | .vfPowerStateWrite vf d3hot, s, h => canon_execVfPowerStateWrite vf d3hot s h
  | .ideKmKeyProgram io cm, s, h => canon_execIdeKmKeyProgram io cm s h
  | .cxlIoCompletionTimeout q, s, h => canon_execCxlIoCompletionTimeout q s h
  | .farRowRequest n, s, h => canon_execFarRowRequest n s h
  | .pairLoadRequest, s, h => canon_execPairLoadRequest s h
  | .dynamicAddressAssignment addr, s, h => canon_execDynamicAddressAssignment addr s h
  | .sidebandBusReset, s, h => canon_execSidebandBusReset s h
  | .smbusArp assign, s, h => canon_execSmbusArp assign s h
  | .jtagTestInstruction, s, h => canon_execJtagTestInstruction s h
  | .aqDriveRemoveSafe slot, s, h => canon_execAqDriveRemoveSafe slot s h
  | .attnBlipExpiry, s, h => canon_execAttnBlipExpiry s h
  | .timeBasePllLock, s, h => canon_execTimeBasePllLock s h
  | .checkFailure c, s, h => canon_execCheckFailure c s h

theorem canon_step {s : State} (h : Canon s) : CanonR (step s) := by
  unfold step
  cases s.pending with
  | nil => exact canon_State_tick s h
  | cons c rest => exact canon_exec c { s with pending := rest } h

/-- Settles O57: memory's form and the ranges pass through the arm of the front command, or through the tick. -/
theorem everyStepKeepsCanon : Obligations.EveryStepKeepsCanon := fun _ _ h next => canon_of_next next (canon_step h)

/-- Settles O58: the values of `State.reset`. -/
theorem resetIsCanon : Obligations.ResetIsCanon := canon_reset

end Sys2Proof.Machine
end

section
/-! SUPPORT. HBM reads and writes (R124–R131, R139): a sector that is decoded, and a write within one sector. -/
namespace Sys2Proof.Machine
open Sys2Proof

/-! ### Cells and pieces -/

theorem cellsRead_succ (m : List Host.Cell) (a n : Nat) : cellsRead m a (n + 1) = cellGet m a :: cellsRead m (a + 1) n := by
  simp [cellsRead, List.range_succ_eq_map, Nat.add_comm, Nat.add_left_comm]

/-- A run of bytes written reads back. -/
theorem cellsRead_cellsWrite {bs : List Byte} : ∀ {m : List Host.Cell} {a : Nat}, cellsWfFrom none m = true →
    cellsRead (cellsWrite m a bs) a bs.length = bs := by
  induction bs with
  | nil => intro m a _; rfl
  | cons b bs ih =>
    intro m a h
    have first : cellGet (cellsWrite m a (b :: bs)) a = b :=
      (cellGet_cellsWrite_out (.inl (Nat.lt_succ_self a))).trans (cellGet_cellSet_self h)
    rw [List.length_cons, cellsRead_succ, first]
    exact congrArg (b :: ·) (ih (wf_cellSet h))

/-- A range within one unit is one piece. -/
theorem pieces_within {g a n : Nat} (k : Nat) (hn : n ≠ 0) (h : a % g + n ≤ g) : pieces g (k + 2) a n = [(a, n)] := by
  have whole : min n (g - a % g) = n := by omega
  simp [pieces, hn, whole]

/-- A range within one sector touches one granule. -/
theorem length_granulesOf_sector {addr n : Nat} (hn : n ≠ 0) (h : addr % 64 + n ≤ 64) :
    (granulesOf addr n).length = 1 := by
  simp only [granulesOf, List.length_map, List.length_range]
  omega

/-! ### Writes -/

/-- Noting a write changes waiting reads alone. -/
theorem State.noteWrite_shape (s : State) (a : Nat) :
    ∃ ch, s.noteWrite a = { s with ch := ch } ∧ (s.noteWrite a).flatFailed a = s.flatFailed a := by
  unfold State.noteWrite
  split
  · exact ⟨_, rfl, rfl⟩
  · exact ⟨_, rfl, by simp [State.flatFailed, State.chan]⟩

/-- A poison-free write of an unpoisoned sector that is not on a FAILED channel stores its bytes. -/
theorem State.writeFlatLine_stores {s : State} {a : Nat} (bs : List Byte) (hf : s.flatFailed a = false)
    (hp : s.mem.poisoned a = false) : ∃ ch poison, s.writeFlatLine a bs false =
      { s with ch := ch, mem := { s.mem with cells := cellsWrite s.mem.cells a bs, poison := poison } } := by
  obtain ⟨ch, noted, kept⟩ := s.noteWrite_shape a
  obtain ⟨ch, before, hf, hp⟩ : ∃ ch, (if a < 0xC000000000 then s.noteWrite a else s) = { s with ch := ch }
      ∧ State.flatFailed { s with ch := ch } a = false ∧ s.mem.poisoned a = false := by
    split
    · exact ⟨ch, noted, by rw [← noted, kept, hf], hp⟩
    · exact ⟨s.ch, rfl, hf, hp⟩
  unfold State.writeFlatLine
  simp only [before, hf, hp, Bool.false_eq_true, and_false, if_false]
  split
  · exact ⟨ch, _, rfl⟩
  · exact ⟨ch, _, rfl⟩

theorem State.tagLookup_plain {s : State} {stack pcx addr : Nat} (h : s.sectorKind stack pcx addr = .plain) :
    s.tagLookup stack pcx addr = s := by
  simp [State.tagLookup, h]

theorem exec_hbmWriteRequest_plain {s : State} {st : Fin 12} {ch : Fin 32} {pc : Fin 2} {addr : BitVec 30} {data : List Byte}
    (hd : data ≠ []) (hl : addr.toNat % 64 + data.length ≤ 64) (hr : (s.chan (chanIndex st ch)).st ≠ .retired)
    (hf : s.flatFailed (s.mem.flat st.val (ch.val * 2 + pc.val) addr.toNat) = false)
    (hp : s.mem.poisoned (s.mem.flat st.val (ch.val * 2 + pc.val) addr.toNat) = false)
    (hk : s.sectorKind st.val (ch.val * 2 + pc.val) addr.toNat = .plain)
    (hb : (if pc.val = 0 then (s.chan (chanIndex st ch)).wbuf0 else (s.chan (chanIndex st ch)).wbuf1).length < 256) :
    ∃ c p, exec (.hbmWriteRequest st ch pc addr data false) s = .next { s with
      ch := c
      mem := { s.mem with
        cells := cellsWrite s.mem.cells (s.mem.flat st.val (ch.val * 2 + pc.val) addr.toNat) data, poison := p } } := by
  have hn : data.length ≠ 0 := by simpa using hd
  obtain ⟨c, p, stored⟩ := State.writeFlatLine_stores data hf hp
  refine ⟨?buffered, p, ?_⟩
  show execHbmWriteRequest st ch pc addr data false s = _
  have one := length_granulesOf_sector hn hl
  have fits : ¬ 16384 < addr.toNat % 16384 + data.length := by omega
  have room := Nat.not_lt.mpr hb
  simp only [execHbmWriteRequest, List.isEmpty_eq_false_iff.mpr hd, beq_eq_false_iff_ne.mpr hr, one, fits, room,
    decide_false, Bool.or_false, Bool.false_eq_true, if_false, State.tagLookup_plain hk, pieces_within _ hn hl,
    List.foldl_cons, List.foldl_nil, hk, Nat.sub_self, List.drop_zero, List.take_length, stored]
  rfl

/-- Settles O7: the write is one `cellsWrite` at the sector's flat place. -/
theorem hbmWriteReadsBack : Obligations.HbmWriteReadsBack := by
  unfold Obligations.HbmWriteReadsBack
  intro s st ch pc addr data i pcx a hd hl hr hf hp hk hb wf
  obtain ⟨c, p, h⟩ := exec_hbmWriteRequest_plain hd hl hr hf hp hk hb
  exact ⟨_, h, cellsRead_cellsWrite wf, fun b out => cellGet_cellsWrite_out out, rfl, rfl, rfl, rfl, rfl⟩

/-! ### Reads -/

/-- The state of a sector that decodes, or else the one given. -/
def Decoded.getD : Decoded → State → State
  | .good s, _ => s
  | .bad, t => t

theorem State.injErrs_unarmed {s : State} (stack : Nat) (demand : Bool) (h : s.hub.injArm = false) :
    s.injErrs stack demand = ([], s) := by
  simp [State.injErrs, State.injFires, h]

@[simp] theorem State.countOde_zero (s : State) (i : Nat) : s.countOde i (0 : BitVec 12).toNat = s := rfl

theorem exec_hbmReadRequest_plain {s : State} {st : Fin 12} {ch : Fin 32} {pc : Fin 2} {addr : BitVec 30} (n : Fin 256)
    (d : Bool) (hr : (s.chan (chanIndex st ch)).st ≠ .retired) (hq : (s.chan (chanIndex st ch)).readsOf pc.val < 512)
    (hk : s.sectorKind st.val (ch.val * 2 + pc.val) addr.toNat = .plain) :
    exec (.hbmReadRequest st ch pc addr n d) s = .next (s.updChan (chanIndex st ch) fun c => { c with
      reads := c.reads ++ [{ pc := pc.val, addr := addr.toNat / 64 * 64, sectors := n.val + 1, demand := d }] }) := by
  show execHbmReadRequest st ch pc addr n d s = _
  simp only [execHbmReadRequest, beq_eq_false_iff_ne.mpr hr, decide_eq_false (Nat.not_le.mpr hq), Bool.or_self,
    Bool.false_eq_true, if_false, State.tagLookup_plain hk]

/-- A read of one sector ends with the decoder's state, or is put back as a reread at the front (R129). -/
theorem exec_hbmReadComplete_sector {s : State} {st : Fin 12} {ch : Fin 32} {pc : Fin 2} (errs : List (Nat × Nat × Byte))
    {r : HbmRead} {rest : List HbmRead} (ht : takeRead pc.val false (s.chan (chanIndex st ch)).reads = some (r, rest))
    (h1 : r.sectors = 1) (hf : (s.chan (chanIndex st ch)).st ≠ .failed) (hi : s.hub.injArm = false) :
    let i := chanIndex st ch
    let s1 := s.updChan i fun c => { c with reads := rest }
    exec (.hbmReadComplete st ch pc errs 0) s =
      .next ((s1.decodeSector i pc.val r.addr (errsOf 0 errs) (s1.sectorWritten i pc.val r.addr r) false).getD
        (s1.updChan i fun c => { c with reads := { r with pc := pc.val, sectors := 1, reread := true } :: c.reads })) := by
  intro i s1
  show execHbmReadComplete st ch pc errs 0 s = _
  simp only [execHbmReadComplete, ht, State.injErrs_unarmed _ _ hi, beq_eq_false_iff_ne.mpr hf, Bool.false_eq_true,
    if_false, h1, List.range_one, List.foldl_cons, List.foldl_nil, Nat.mul_zero, Nat.add_zero, List.append_nil,
    State.countOde_zero]
  cases State.decodeSector s1 i pc.val r.addr (errsOf 0 errs) (s1.sectorWritten i pc.val r.addr r) false <;> rfl

/-- A reread ends with the decoder's state, or its sector is lost (R129). -/
theorem exec_sectorRereadComplete_sector {s : State} {st : Fin 12} {ch : Fin 32} {pc : Fin 2}
    (errs : List (Nat × Nat × Byte)) {r : HbmRead} {rest : List HbmRead}
    (ht : takeRead pc.val true (s.chan (chanIndex st ch)).reads = some (r, rest))
    (hf : (s.chan (chanIndex st ch)).st ≠ .failed) :
    let i := chanIndex st ch
    let s1 := s.updChan i fun c => { c with reads := rest }
    exec (.sectorRereadComplete st ch pc errs 0) s =
      .next ((s1.decodeSector i pc.val r.addr (errsOf 0 errs) (s1.sectorWritten i pc.val r.addr r) true).getD
        (s1.sectorLost i pc.val r.addr (s1.sectorWritten i pc.val r.addr r) (!r.demand))) := by
  intro i s1
  show execSectorRereadComplete st ch pc errs 0 s = _
  simp only [execSectorRereadComplete, ht, beq_eq_false_iff_ne.mpr hf, Bool.false_eq_true, if_false, State.countOde_zero]
  cases State.decodeSector s1 i pc.val r.addr (errsOf 0 errs) (s1.sectorWritten i pc.val r.addr r) true <;> rfl

/-- Settles O6: the two ways in which a decoded sector ends, for a read and for its reread. -/
theorem hbmReads : Obligations.HbmReads := by
  unfold Obligations.HbmReads
  refine ⟨fun s st ch pc addr n d => exec_hbmReadRequest_plain n d,
    fun s s' st ch pc errs r rest ht h1 hf hi good => ?_, fun s st ch pc errs r rest ht h1 hf hi bad => ?_,
    fun s s' st ch pc errs r rest ht hf good => ?_, fun s st ch pc errs r rest ht hf bad => ?_⟩
  · rw [exec_hbmReadComplete_sector errs ht h1 hf hi, good]; rfl
  · rw [exec_hbmReadComplete_sector errs ht h1 hf hi, bad]; rfl
  · rw [exec_sectorRereadComplete_sector errs ht hf, good]; rfl
  · rw [exec_sectorRereadComplete_sector errs ht hf, bad]; rfl

end Sys2Proof.Machine
end

section
/-! SUPPORT. Channel states (R132–R142): lane failure, calibration, sweep, evacuation, drift slots, refresh and
scrub. -/
namespace Sys2Proof.Machine
open Sys2Proof

/-! ### What reports and a channel's new state leave alone -/

@[simp] theorem State.irqEvent_mem (s : State) (b : Nat) : (s.irqEvent b).mem = s.mem :=
  (congrArg State.mem (butReport_irqEvent s b) :)
@[simp] theorem State.chan_irqEvent (s : State) (b j : Nat) : (s.irqEvent b).chan j = s.chan j :=
  (congrArg (State.chan · j) (butReport_irqEvent s b) :)

section
variable (s : State) (st code chIdx kind table row bag akind addr : Nat) (extra : List Byte) (rung : Nat)
@[simp] theorem State.stackFault_mem :
    (s.stackFault st code chIdx kind table row bag akind addr extra rung).mem = s.mem :=
  (congrArg State.mem (butReport_stackFault s st code chIdx kind table row bag akind addr extra rung) :)
@[simp] theorem State.chan_stackFault (j : Nat) :
    (s.stackFault st code chIdx kind table row bag akind addr extra rung).chan j = s.chan j :=
  (congrArg (State.chan · j) (butReport_stackFault s st code chIdx kind table row bag akind addr extra rung) :)
end

@[simp] theorem State.chan_chanState (s : State) (i : Nat) (st : ChState) :
    (s.chanState i st).chan i = { s.chan i with st := st } := by
  unfold State.chanState
  dsimp only
  split
  next same => rw [← eq_of_beq same]
  next =>
    have entered : ((s.updChan i fun c => { c with st := st }).irqEvent 12).chan i = { s.chan i with st := st } := by simp
    split
    · exact entered
    · exact (State.chan_stackFault ..).trans entered

@[simp] theorem State.chanState_mem (s : State) (i : Nat) (st : ChState) : (s.chanState i st).mem = s.mem := by
  unfold State.chanState
  dsimp only
  split
  · rfl
  · split
    · simp
    · simp

/-- A completed sweep is the one transition without a fault record (R133). -/
theorem State.chanState_swept {s : State} {i : Nat} (h : (s.chan i).st = .sweep) :
    s.chanState i .healthy = (s.updChan i fun c => { c with st := .healthy }).irqEvent 12 := by
  simp only [State.chanState, h, show (ChState.healthy == .retired || ChState.healthy == .failed) = false from rfl,
    Bool.or_false]
  rfl

/-! ### Lanes (R132–R136) -/

/-- A HEALTHY channel with spares loses its first lane: DEGRADED, the lane recorded, a switch pending. -/
theorem State.chan_laneFails_first {s : State} {i : Nat} (l : Lane) (hs : (s.chan i).st = .healthy)
    (ha : (s.chan i).la = none) (hb : (s.chan i).lb = none) (hn : 1 ≤ (s.chan i).spares) :
    (s.laneFails i l).chan i = { s.chan i with st := .degraded, la := some l, calPend := true } := by
  simp [State.laneFails, Channel.failed, hs, ha, hb, hn]

theorem State.laneFails_mem (s : State) (i : Nat) (l : Lane) : (s.laneFails i l).mem = s.mem := by
  unfold State.laneFails
  dsimp only
  split
  · rfl
  · cases (s.chan i).st <;> simp only [apply_ite State.mem, State.updChan_mem, State.chanState_mem,
      State.stackFault_mem, ite_self]

theorem State.updChan_eq (s : State) (i : Nat) (f : Channel → Channel) :
    s.updChan i f = { s with ch := s.ch.set i (f (s.chan i)) } := rfl

/-- A window that replaces the one failed lane spends a spare and begins the sweep. -/
theorem exec_calibrationWindow_replaces {s : State} {st : Fin 12} {ch : Fin 32} {x : Lane} (b : Bool)
    (hs : (s.chan (chanIndex st ch)).st = .degraded) (hp : (s.chan (chanIndex st ch)).calPend = true)
    (ha : (s.chan (chanIndex st ch)).la = some x) (hb : (s.chan (chanIndex st ch)).lb = none)
    (hn : 0 < (s.chan (chanIndex st ch)).spares) :
    exec (.calibrationWindow st ch true b) s = .next ((s.updChan (chanIndex st ch) fun c => { c with
      spares := c.spares - 1, sweeping := c.sweeping ++ [x], la := none, lb := none, calPend := false }).chanState
        (chanIndex st ch) .sweep) := by
  show execCalibrationWindow st ch true b s = _
  simp only [execCalibrationWindow, Channel.mapSpare, hs, hp, ha, hb, Nat.ne_of_gt hn, beq_self_eq_true, Bool.and_self,
    if_true, if_false, Option.isNone_none, State.updChan_eq]

theorem exec_sweepComplete_sweep {s : State} {st : Fin 12} {ch : Fin 32} (h : (s.chan (chanIndex st ch)).st = .sweep) :
    exec (.sweepComplete st ch) s = .next (State.irqEvent ((s.updChan (chanIndex st ch) fun c =>
      { c with sweeping := [] }).updChan (chanIndex st ch) fun c => { c with st := .healthy }) 12) := by
  show execSweepComplete st ch s = _
  rw [← State.chanState_swept (by simpa using h)]
  simp [execSweepComplete, h]

/-! ### Evacuation (R137, R138) -/

theorem exec_evacuationBlockCopied_free {s : State} {st : Fin 12} {ch : Fin 32} {pc : Fin 2} {block : Byte}
    {toPc : Fin 64} {toBlock : Byte} (hs : (s.chan (chanIndex st ch)).st = .retiring)
    (hl : (s.leftInPlace (chanIndex st ch)).contains (pc.val, block.toNat) = true)
    (hf : s.freeReserved (chanIndex st ch) toPc.val toBlock.toNat = true) :
    let src := blockId st.val (ch.val * 2 + pc.val) block.toNat
    let dst := blockId st.val toPc.val toBlock.toNat
    exec (.evacuationBlockCopied st ch pc block toPc toBlock) s = .next { s with
      mem := { s.mem.copyBlock src dst with redirect := s.mem.redirect.set src dst } } := by
  have copies : ((s.chan (chanIndex st ch)).st == .retiring
      && (s.leftInPlace (chanIndex st ch)).contains (pc.val, block.toNat)
      && s.freeReserved (chanIndex st ch) toPc.val toBlock.toNat) = true := by rw [hs, hl, hf]; rfl
  exact if_pos copies

theorem exec_evacuationComplete_empty {s : State} {st : Fin 12} {ch : Fin 32}
    (hs : (s.chan (chanIndex st ch)).st = .retiring) (hl : s.leftInPlace (chanIndex st ch) = []) :
    exec (.evacuationComplete st ch) s = .next (s.chanState (chanIndex st ch) .retired) := by
  show execEvacuationComplete st ch s = _
  simp [execEvacuationComplete, hs, hl]

/-! ### Maintenance (R141, R142) -/

theorem exec_driftTrackingSlot_due {s : State} {st : Fin 12} {ch : Fin 32} {pc : Fin 2}
    (hs : (s.chan (chanIndex st ch)).st ≠ .retired)
    (ht : (if pc.val = 0 then (s.chan (chanIndex st ch)).lastDrift0 else (s.chan (chanIndex st ch)).lastDrift1) + 1000000
      ≤ s.time.now) :
    exec (.driftTrackingSlot st ch pc) s = .next (s.updChan (chanIndex st ch) fun c =>
      if pc.val = 0 then { c with lastDrift0 := s.time.now } else { c with lastDrift1 := s.time.now }) := by
  show execDriftTrackingSlot st ch pc s = _
  simp only [execDriftTrackingSlot, State.elapsed, beq_eq_false_iff_ne.mpr hs, decide_eq_true ht, Bool.not_true, Bool.or_self,
    Bool.false_eq_true, if_false]

theorem exec_dramRefresh_used {s : State} {st : Fin 12} {ch : Fin 32} (hs : (s.chan (chanIndex st ch)).st ≠ .retired) :
    exec (.dramRefresh st ch) s =
      .next (s.updChan (chanIndex st ch) fun c => { c with refreshes := c.refreshes + 1 }) := by
  show execDramRefresh st ch s = _
  simp [execDramRefresh, hs]

theorem exec_patrolScrubRead_good {s s' : State} {st : Fin 12} {ch : Fin 32} {errs : List (Nat × Nat × Byte)}
    (hh : (s.mcRegs st.val).scrubHours ≠ 0) (hr : (s.chan (chanIndex st ch)).st ≠ .retired)
    (hf : (s.chan (chanIndex st ch)).st ≠ .failed)
    (hg : (s.updChan (chanIndex st ch) fun c => { c with scrubPos := (c.scrubPos + 64) % 2 ^ 31 }).decodeSector
      (chanIndex st ch) ((s.chan (chanIndex st ch)).scrubPos / 2 ^ 30) ((s.chan (chanIndex st ch)).scrubPos % 2 ^ 30)
      (errsOf 0 errs) false false = .good s') :
    exec (.patrolScrubRead st ch errs 0) s = .next s' := by
  show execPatrolScrubRead st ch errs 0 s = _
  simp only [execPatrolScrubRead, hh, hr, hf, or_self, if_false, State.countOde_zero, hg]

/-- Settles O8: one lemma for each event of a channel. -/
theorem hbmLanesAndChannels : Obligations.HbmLanesAndChannels := by
  unfold Obligations.HbmLanesAndChannels
  refine ⟨fun s st ch pc lane hs ha hb hn => ⟨s.laneFails (chanIndex st ch) ⟨pc.val, lane.val⟩, rfl, ?_⟩,
    fun s st ch x b hs hp ha hb hn => ⟨_, exec_calibrationWindow_replaces b hs hp ha hb hn, by simp⟩,
    fun s st ch => exec_sweepComplete_sweep, fun s st ch pc block toPc toBlock => exec_evacuationBlockCopied_free,
    fun s st ch => exec_evacuationComplete_empty, fun s st ch pc => exec_driftTrackingSlot_due,
    fun s st ch => exec_dramRefresh_used, fun s s' st ch errs => exec_patrolScrubRead_good⟩
  rw [State.chan_laneFails_first _ hs ha hb hn]
  exact ⟨rfl, rfl, rfl, s.laneFails_mem _ _⟩

end Sys2Proof.Machine
end

section
/-! SUPPORT. Enabling regions and the table store (R119–R122, R146, R186, R216). -/
namespace Sys2Proof.Machine
open Sys2Proof

theorem exec_hubRegionAWrite {s : State} {p : AccessPath} (n : Fin 64) (v : W32) (h : s.csrWritable p .hub = true) :
    exec (.hubRegionAWrite p n v) s = .next (s.writeRegionA n.val v) :=
  congrArg Host.Outcome.next (State.onCsr_of_writable _ h)

/-- EN set on a disabled region: enabled where the checks pass, else ERR (R120, R122, R153). -/
theorem State.writeRegionA_enable {s : State} {n : Nat} {v : W32} (he : (s.region n).en = false) (hc : bit v 24 = false)
    (hv : bit v 0 = true) : s.writeRegionA n v = s.putRegion n
      (if s.regionOk n ((s.region n).withWord v) then { (s.region n).withWord v with en := true }
        else { (s.region n).withWord v with err := true }) := by
  simp only [State.writeRegionA, he, hc, hv, Bool.false_eq_true, if_false, if_true, apply_ite (s.putRegion n)]

/-- EN cleared with every other field as it stands: an unpinned region is disabled, its tag sectors dropped. -/
theorem State.writeRegionA_disable {s : State} {n : Nat} (he : (s.region n).en = true) (hp : s.regionPinned n = false)
    (hw : (s.region n).withWord 0 = s.region n) :
    s.writeRegionA n 0 = (s.dropTags (s.region n)).putRegion n { s.region n with en := false } := by
  have zero (i : Nat) : bit (0 : W32) i = false := by simp [bit]
  simp only [State.writeRegionA, zero, he, hp, hw, ne_eq, not_true_eq_false, decide_false, Bool.or_false,
    Bool.false_eq_true, if_false, if_true]

theorem exec_hubTdaLoWrite {s : State} {p : AccessPath} (v : W32) (h : s.csrWritable p .hub = true) :
    exec (.hubTdaLoWrite p v) s = .next (s.writeTdaLo v) :=
  congrArg Host.Outcome.next (State.onCsr_of_writable _ h)

/-- EN set of a store that fits: its bytes are zeroed, no table is live, and RDY waits for the zeroing (R216). -/
theorem State.writeTdaLo_enable {s : State} {v : W32} (he : s.tda.en = false) (hv : bit v 0 = true)
    (hs : 4 ≤ s.tda.size.toNat) :
    let s1 := { s with tda := { s.tda with baseLo := field v 24 8, err := s.tda.err && !bit v 1 } }
    s1.inPlainRegion s1.storeBase s1.storeSize = true →
    s.writeTdaLo v = { s1 with
      tda := { s1.tda with en := true, rdy := false, live := [] }, heap := []
      mem := (s1.zeroRange s1.storeBase s1.storeSize).mem } := by
  intro s1 fits
  have cleared : (if bit v 1 then { s.tda with err := false } else s.tda)
      = { s.tda with err := s.tda.err && !bit v 1 } := by
    cases bit v 1
    · simp
    · simp
  simp only [State.writeTdaLo, cleared]
  rw [if_neg (Bool.eq_false_iff.mp he), if_pos hv]
  exact if_pos ⟨hs, fits⟩

theorem exec_tableStoreReady_enabled {s : State} (h : s.tda.en = true) :
    exec .tableStoreReady s = .next { s with tda := { s.tda with rdy := true } } := if_pos h

/-- Settles O10: the cases of the two registers' writes. -/
theorem regionsAndStore : Obligations.RegionsAndStore := by
  unfold Obligations.RegionsAndStore
  refine ⟨fun s p n v hw he hc hv ok => ?_, fun s p n v hw he hc hv bad => ?_, fun s p n hw he hp same => ?_,
    fun s p v hw he hv hs fits => ?_, fun s => exec_tableStoreReady_enabled⟩
  · rw [exec_hubRegionAWrite n v hw, State.writeRegionA_enable he hc hv, if_pos ok]; rfl
  · rw [exec_hubRegionAWrite n v hw, State.writeRegionA_enable he hc hv, bad]; rfl
  · rw [exec_hubRegionAWrite n 0 hw, State.writeRegionA_disable he hp same]; rfl
  · rw [exec_hubTdaLoWrite v hw, State.writeTdaLo_enable he hv hs fits]

end Sys2Proof.Machine
end

section
/-! SUPPORT. Start-up, step by step (R637, R702–R708, R720). -/
namespace Sys2Proof.Machine
open Sys2Proof

/-! ### What reports leave alone -/

@[simp] theorem State.timeFault_rst (s : State) (d c r : Nat) : (s.timeFault d c r).rst = s.rst :=
  (congrArg State.rst (butReport_timeFault s d c r) :)
@[simp] theorem State.timeFault_mem (s : State) (d c r : Nat) : (s.timeFault d c r).mem = s.mem :=
  (congrArg State.mem (butReport_timeFault s d c r) :)

theorem butReport_ideSettle (s : State) : s.ideSettle.butReport = s.butReport :=
  butReport_ite (butReport_ite rfl (butReport_secFault _ _)) (butReport_ite rfl rfl)

@[simp] theorem State.ideSettle_rst (s : State) : s.ideSettle.rst = s.rst :=
  (congrArg State.rst (butReport_ideSettle s) :)
@[simp] theorem State.ideSettle_time (s : State) : s.ideSettle.time = s.time :=
  (congrArg State.time (butReport_ideSettle s) :)

/-! ### Step 3 (R702, R703, R706, R708) -/

@[simp] theorem State.bootBegin_time (s : State) : s.bootBegin.time = s.time := by
  unfold State.bootBegin
  split <;> rfl

/-- SPI flash and the peer are sources of step 4; host load and recovery wait. -/
theorem State.bootBegin_transfer {s : State} (h : s.rst.effStraps.boot = 0 ∨ s.rst.effStraps.boot = 2) :
    s.bootBegin.rst = { s.rst with start := .booting, xferSince := some s.time.now } := by
  rcases h with flash | peer
  · simp [State.bootBegin, flash]
  · simp [State.bootBegin, peer]

theorem State.bootBegin_waits {s : State} (h : s.rst.effStraps.boot = 1 ∨ s.rst.effStraps.boot = 3) :
    s.bootBegin = s.bootWait := by
  rcases h with host | recovery
  · simp [State.bootBegin, host]
  · simp [State.bootBegin, recovery]

/-- The hub main domain with its time base locked and the security engine's nonce drawn (R702, R732). -/
def State.hubReleased (s : State) : State :=
  { s with
    time := { s.time with pllLocked := true }
    sec := { s.sec with nonce := (s.drawFree 64).1 }
    freeCtr := s.freeCtr + 1 }

section
variable {s : State} (hc : s.rst.start = .clocks) (hp : s.hubPowered = true) (hh : s.rst.held = false)
include hc hp hh

theorem exec_timeBasePllLock_test (ht : s.rst.effStraps.test = true) : exec .timeBasePllLock s =
    .next (State.updRst { s with time := { s.time with pllLocked := true } } (·.stopAt .test)) := by
  show execTimeBasePllLock s = _
  simp only [execTimeBasePllLock, hc, hp, hh, ht, beq_self_eq_true, Bool.not_false, Bool.and_self, if_true]

theorem exec_timeBasePllLock_retired (ht : s.rst.effStraps.test = false) (hl : s.lc = 3) : exec .timeBasePllLock s =
    .next (State.updRst { s.hubReleased with sec := { s.hubReleased.sec with
      aliasIssued := true, measurement := List.replicate 48 0 } } (·.stopAt .retired)) := by
  show execTimeBasePllLock s = _
  simp only [execTimeBasePllLock, hc, hp, hh, ht, hl, beq_self_eq_true, Bool.not_false, Bool.and_self, if_true,
    Bool.false_eq_true, if_false]
  rfl

theorem exec_timeBasePllLock_boots (ht : s.rst.effStraps.test = false) (hl : s.lc ≠ 3) :
    exec .timeBasePllLock s = .next s.hubReleased.bootBegin.ideSettle := by
  show execTimeBasePllLock s = _
  simp only [execTimeBasePllLock, hc, hp, hh, ht, hl, beq_self_eq_true, Bool.not_false, Bool.and_self, if_true,
    Bool.false_eq_true, if_false]
  rfl
end

/-! ### Boot images (R703, R705, R707, R720) -/

/-- An image from the source awaited, where flash holds none of its own, is accepted or rejected by its checks. -/
theorem exec_bootImageReceived_awaited {s : State} {src : Fin 4} (img : List Byte) (err : Bool)
    (hh : s.rst.held = false) (ha : s.awaits src.val = true) (hf : src.val = 0 → s.spi.a = [] ∧ s.spi.b = []) :
    exec (.bootImageReceived src img err) s =
      .next (if (if err then 6 else s.imageReason img) = 0 then s.imageAccept src.val img
        else s.imageReject src.val (if err then 6 else s.imageReason img)) := by
  have brought : ¬(src.val = 0 ∧ (if s.rst.aRejected then s.spi.b else s.spi.a) ≠ []) := by
    rintro ⟨flash, held⟩
    obtain ⟨a, b⟩ := hf flash
    simp [a, b] at held
  show execBootImageReceived src img err s = _
  simp only [execBootImageReceived, ha, hh, Bool.not_true, Bool.or_self, Bool.false_eq_true, if_false, if_neg brought]

/-- Image A from flash is followed by image B. -/
theorem State.imageReject_first {s : State} (src reason : Nat) (hs : s.rst.start = .booting)
    (hb : s.rst.effStraps.boot = 0) (ha : s.rst.aRejected = false) : (s.imageReject src reason).rst = { s.rst with
      rej := BitVec.ofNat 4 reason, hloadBusy := s.rst.hloadBusy && src != 1
      aRejected := true, xferSince := some s.time.now } := by
  simp [State.imageReject, hs, hb, ha]

/-- With image A rejected no source is left: the part waits, FAIL set. -/
theorem State.imageReject_last {s : State} (src reason : Nat) (ha : s.rst.aRejected = true) :
    (s.imageReject src reason).rst.start = .bootWait ∧ (s.imageReject src reason).rst.fail = true
      ∧ (s.imageReject src reason).rst.rej = BitVec.ofNat 4 reason := by
  by_cases failed : s.rst.fail = true
  · simp [State.imageReject, State.bootWait, ResetState.pause, ha, failed]
  · simp [State.imageReject, State.bootWait, ResetState.pause, ha, failed]

theorem exec_bootImageAbsentTimeout_flash {s : State} {t0 : Nat} (hx : s.rst.xferSince = some t0)
    (hs : s.rst.start = .booting) (hb : s.rst.effStraps.boot = 0) :
    exec .bootImageAbsentTimeout s = .next (if s.elapsed t0 10000000000 then s.imageReject 0 6 else s) := by
  have awaited : s.awaits 0 = true := by simp [State.awaits, hs, hb]
  have source : (if s.rst.start == .bootWait then 1 else s.rst.effStraps.boot.toNat) = 0 := by simp [hs, hb]
  show execBootImageAbsentTimeout s = _
  simp only [execBootImageAbsentTimeout, hx, source, awaited, Bool.and_true]
  split <;> rfl

theorem exec_rstcHloadGo_go {s : State} {p : AccessPath} {v : W32} (hw : s.csrWritable p .rstc = true)
    (hv : bit v 31 = true) : exec (.rstcHloadGo p v) s = .next (if s.rst.start = .bootWait ∧ s.rst.hloadBusy = false
      then { s with
        rst := { s.rst with hloadLen := field v 0 25, hloadBusy := true, xferSince := some s.time.now }
        out := s.out ++ [.hostRead 0 s.rst.hloadAddr.toNat (field v 0 25).toNat] }
      else { s with rst := { s.rst with hloadLen := field v 0 25 } }) := by
  refine congrArg Host.Outcome.next ((State.onCsr_of_writable _ hw).trans ?_)
  simp only [State.writeHloadLen, hv, Bool.true_and, Bool.and_eq_true, beq_iff_eq, Bool.not_eq_true']
  rfl

/-! ### Training, the fill and READY (R118, R140, R637, R702) -/

@[simp] theorem State.trainRedirect_nil (s : State) (k : Nat) : s.trainRedirect k [] = s := rfl

@[simp] theorem State.recordRepairs_mem (s : State) (lanes : List (Nat × Byte)) :
    (s.recordRepairs lanes).mem = s.mem := by
  unfold State.recordRepairs
  dsimp only
  split
  · rfl
  · rw [State.timeFault_mem]; rfl

/-- Updates that each leave memory alone leave it alone together. -/
theorem State.foldl_mem {α : Type} {f : State → α → State} (hf : ∀ st x, (f st x).mem = st.mem) (s : State)
    (l : List α) : (l.foldl f s).mem = s.mem :=
  List.foldlRecOn (motive := fun st => st.mem = s.mem) l f rfl fun st kept x _ => (hf st x).trans kept

/-- With no failing lane no channel is retired, and no block redirected. -/
theorem exec_hbmTrainingComplete_sound {s : State} (hs : s.rst.start = .power) (hh : s.rst.held = false) :
    ∃ t, exec (.hbmTrainingComplete []) s = .next t ∧ t.rst.start = .fill ∧ t.mem.redirect = s.mem.redirect := by
  have noneGone : (List.range 384).filter (fun i => decide ((s.sparesLeft i).length < (s.newLanes [] i).length)) = [] :=
    List.filter_eq_nil_iff.mpr fun i _ short => Nat.not_lt_zero _ (of_decide_eq_true short)
  refine ⟨_, if_pos (by simp [hs, hh]), rfl, ?_⟩
  simp only [noneGone, List.filter_nil, List.foldl_nil, State.trainRedirect_nil, State.updRst_mem,
    State.recordRepairs_mem]
  refine congrArg Memory.redirect ((State.foldl_mem (fun _ _ => rfl) _ _).trans (State.foldl_mem (fun st i => ?_) s _))
  split <;> rfl

theorem exec_zeroFillComplete_fill {s : State} (hs : s.rst.start = .fill) (hh : s.rst.held = false) :
    exec .zeroFillComplete s = .next (s.zeroFill.setCaps.updRst fun r => { r with start := .clusters }) :=
  if_pos (by simp [hs, hh])

/-- A part with PAIR_EN 0 is READY, SOLO. -/
theorem exec_startupReady_solo {s : State} (hs : s.rst.start = .clusters) (hh : s.rst.held = false)
    (hp : s.rst.effStraps.pair = false) :
    exec .startupReady s = .next (s.portsUp.updRst fun r => { r.stopAt .ready with code8 := 0 }) := by
  obtain ⟨aq, ports⟩ := s.portsUp_shape
  show execStartupReady s = _
  simp [execStartupReady, State.startRole, ResetState.stopAt, ports, hs, hh, hp]

theorem exec_pairLoadRequest_ready {s : State} (hs : s.rst.start = .ready) (hl : s.pl.link = true) :
    exec .pairLoadRequest s = .next { s with out := s.out ++ [.quefy "IMAGE" s.sec.image.length s.sec.image] } :=
  if_pos (by simp [hs, hl])

theorem exec_jtagTestInstruction (s : State) : exec .jtagTestInstruction s = .next (if s.rst.start = .test
    then { s with out := s.out ++ [.sideband "JTAG_TEST" 0 []] } else s) := by
  show execJtagTestInstruction s = _
  simp only [execJtagTestInstruction, beq_iff_eq]
  split <;> rfl

/-! ### The statement -/

theorem exec_timeBasePllLock_steps {s : State} (hc : s.rst.start = .clocks) (hp : s.hubPowered = true)
    (hh : s.rst.held = false) :
    ∃ t, exec .timeBasePllLock s = .next t ∧ t.time.pllLocked = true
      ∧ (s.rst.effStraps.test = true → t.rst.start = .test)
      ∧ (s.rst.effStraps.test = false → s.lc = 3 → t.rst.start = .retired ∧ t.sec.aliasIssued = true)
      ∧ (s.rst.effStraps.test = false → s.lc ≠ 3 → s.rst.effStraps.boot = 0 ∨ s.rst.effStraps.boot = 2 →
          t.rst.start = .booting ∧ t.rst.xferSince = some s.time.now)
      ∧ (s.rst.effStraps.test = false → s.lc ≠ 3 → s.rst.effStraps.boot = 1 ∨ s.rst.effStraps.boot = 3 →
          t.rst.start = .bootWait ∧ t.rst.timerAt = none) := by
  cases ht : s.rst.effStraps.test
  case true => exact ⟨_, exec_timeBasePllLock_test hc hp hh ht, rfl, by simp [ResetState.stopAt]⟩
  case false =>
    by_cases hl : s.lc = 3
    · exact ⟨_, exec_timeBasePllLock_retired hc hp hh ht hl, rfl, by simp [ResetState.stopAt, hl]⟩
    · refine ⟨_, exec_timeBasePllLock_boots hc hp hh ht hl, by simp [State.hubReleased], nofun,
        fun _ retired => absurd retired hl, fun _ _ source => ?_, fun _ _ source => ?_⟩
      · rw [State.ideSettle_rst, State.bootBegin_transfer (s := s.hubReleased) source]
        exact ⟨rfl, rfl⟩
      · rw [State.ideSettle_rst, State.bootBegin_waits (s := s.hubReleased) source]
        exact ⟨rfl, rfl⟩

/-- Settles O41: a lemma for each row, and for an image the two ways in which its checks end. -/
theorem startUpSteps : Obligations.StartUpSteps := by
  unfold Obligations.StartUpSteps
  refine ⟨fun s => exec_timeBasePllLock_steps, fun s src img hh ha hf => ⟨fun ok => ?_, fun bad => ?_, ?_⟩,
    fun s src reason hs hb => ⟨fun ha => ?_, State.imageReject_last src reason⟩,
    fun s t0 => exec_bootImageAbsentTimeout_flash, fun s p v => exec_rstcHloadGo_go,
    fun s => exec_hbmTrainingComplete_sound, fun s => exec_zeroFillComplete_fill, fun s hs hh hp => ?_,
    fun s => exec_pairLoadRequest_ready, exec_jtagTestInstruction⟩
  · refine ⟨s.imageAccept src.val img, ?_, rfl, rfl, rfl, rfl, rfl, rfl⟩
    rw [exec_bootImageReceived_awaited img false hh ha hf]
    exact congrArg Host.Outcome.next (if_pos ok)
  · rw [exec_bootImageReceived_awaited img false hh ha hf]
    exact congrArg Host.Outcome.next (if_neg bad)
  · rw [exec_bootImageReceived_awaited img true hh ha hf]; rfl
  · rw [State.imageReject_first src reason hs hb ha]
    exact ⟨hs, rfl⟩
  · refine ⟨_, exec_startupReady_solo hs hh hp, ?_⟩
    obtain ⟨aq, ports⟩ := s.portsUp_shape
    rw [ports]
    exact ⟨rfl, rfl, rfl, rfl, rfl⟩

end Sys2Proof.Machine
end

section
/-! SUPPORT. The codebook commands and the census (R160–R168). -/
namespace Sys2Proof.Machine
open Sys2Proof

/-! ### A command's input -/

theorem Rd.bad_of_sound {r : Rd} (hu : r.unmapped = false) (hp : r.poison = false) : r.bad = none := by
  simp [Rd.bad, hu, hp]

/-- A command of a kernel queue whose input is mapped, held by no one and sound works on the bytes read (R571). -/
theorem State.withInput_sound {s : State} {c : KCmd} {da n : Nat} (f : State → List Byte → State)
    (hm : fromMirror c = false) (hr : s.recall da n = none) (hu : ((s.touch da n).readDA da n).unmapped = false)
    (hp : ((s.touch da n).readDA da n).poison = false) :
    s.withInput c da n f = f (s.touch da n) ((s.touch da n).readDA da n).data := by
  simp only [State.withInput, hm, hr, Rd.bad_of_sound hu hp, Bool.false_eq_true, if_false]

/-! ### Install, clear and read (R161, R164, R165) -/

theorem exec_cbkInstall_free {s : State} {c : KCmd} (hm : fromMirror c = false)
    (hr : s.recall c.a1.toNat 256 = none) :
    let s1 := s.touch c.a1.toNat 256
    let r := s1.readDA c.a1.toNat 256
    r.unmapped = false → r.poison = false → (codebookOf r.data).2 = true →
    (codebookOf r.data).1.installable = true → s1.cbkInUse c.a0.toNat = false →
    exec (.cbkInstall c) s =
      .next ((s1.installCbk c.a0.toNat (codebookOf r.data).1).done c stSuccess 0 r.data) := by
  intro s1 r hu hp zeros fits free
  refine congrArg Host.Outcome.next ((State.withInput_sound _ hm hr hu hp).trans ?_)
  have sound : ¬ (!((codebookOf r.data).2 && (codebookOf r.data).1.installable)) = true := by simp [zeros, fits]
  exact (if_neg sound).trans (if_neg (Bool.eq_false_iff.mp free))

theorem exec_cbkClear_inUse {s : State} {c : KCmd} (h : s.cbkInUse c.a0.toNat = true) :
    exec (.cbkClear c) s = .next (s.done c stCbkInUse) := if_pos h

theorem exec_cbkClear_free {s : State} {c : KCmd} (h : s.cbkInUse c.a0.toNat = false) :
    exec (.cbkClear c) s = .next (State.done { s with
      cbk := s.cbk.set c.a0.toNat { s.codebook c.a0.toNat with valid := false } } c stSuccess) :=
  if_neg (Bool.eq_false_iff.mp h)

theorem exec_cbkRead_writable {s : State} {c : KCmd} (h : s.outBad c.a1.toNat 256 = none) :
    exec (.cbkRead c) s =
      .next (State.done (s.wr c.a1.toNat (s.codebook c.a0.toNat).bytes) c stSuccess) := by
  show execCbkRead c s = _
  simp only [execCbkRead, h]

/-! ### The census (R166, R167) -/

/-- A reserved field of the descriptor that is not zero ends the command before its range is read (R167 step 1, NOTES
entry 22). -/
theorem exec_census_reserved {s : State} {c : KCmd} (hm : fromMirror c = false) (hr : s.recall c.a0.toNat 64 = none) :
    let s1 := s.touch c.a0.toNat 64
    let r := s1.readDA c.a0.toNat 64
    r.unmapped = false → r.poison = false → leAt r.data 20 4 ≠ 0 →
    exec (.census c) s = .next (s1.done c stCbkBad) := by
  intro s1 r hu hp reserved
  refine congrArg Host.Outcome.next ((State.withInput_sound _ hm hr hu hp).trans (if_pos ?_))
  have nonzero : (leAt r.data 20 4 == 0) = false := beq_eq_false_iff_ne.mpr reserved
  show (!(_ && (leAt r.data 20 4 == 0) && _)) = true
  rw [nonzero, Bool.and_false, Bool.false_and, Bool.not_false]

/-- FLAGS with INSTALL alone: no counts are written out and no block is encoded again (R167). -/
theorem exec_census_install {s : State} {c : KCmd} {cl : SymClass} (hm : fromMirror c = false)
    (hr : s.recall c.a0.toNat 64 = none) :
    let s1 := s.touch c.a0.toNat 64
    let r := s1.readDA c.a0.toNat 64
    let base := leAt r.data 0 8 % 2 ^ 52
    let len := leAt r.data 8 8
    let s2 := s1.touch base len
    let s3 := s2.installCbk (leAt r.data 16 2)
      { cls := BitVec.ofNat 4 (leAt r.data 18 1), lens := deriveLens cl.symbols (s2.census cl base (len / 512)) }
    r.unmapped = false → r.poison = false → base % 512 = 0 → len ≠ 0 → len % 512 = 0 → leAt r.data 16 2 < 4096 →
    leAt r.data 19 1 = 1 → leAt r.data 20 4 = 0 → (r.data.drop 32).all (· == 0) = true →
    s1.rangeInRegions base (len / 512) = true → symClass (leAt r.data 18 1) = some cl →
    s2.cbkInUse (leAt r.data 16 2) = false →
    exec (.census c) s = .next (s3.done c stSuccess 0 (r.data ++ (s3.codebook (leAt r.data 16 2)).bytes)) := by
  intro s1 r base len s2 s3 hu hp aligned nonempty whole index flags reserved tail mapped cls free
  have legal : (base % 512 == 0 && len != 0 && len % 512 == 0 && decide (leAt r.data 16 2 < 4096)
      && decide (leAt r.data 19 1 < 8) && leAt r.data 20 4 == 0 && (r.data.drop 32).all (· == 0)) = true := by
    rw [tail]; simp [aligned, nonempty, whole, index, flags, reserved]
  have notBad := Bool.eq_false_iff.mp (congrArg not legal)
  refine congrArg Host.Outcome.next ((State.withInput_sound _ hm hr hu hp).trans ((if_neg notBad).trans ?_))
  have install : (1 : Nat).testBit 0 = true := rfl
  have noRecode : (1 : Nat).testBit 1 = false := rfl
  have noCounts : (1 : Nat).testBit 2 = false := rfl
  dsimp only [s1, r, base, len, s2, s3] at flags mapped cls free ⊢
  simp only [mapped, cls, free, flags, install, noRecode, noCounts, Bool.not_true, Bool.and_false,
    Bool.false_and, Bool.false_eq_true, if_true, if_false]

/-- Settles O9: a lemma for each way a command ends. -/
theorem codebookCommands : Obligations.CodebookCommands :=
  ⟨fun _ _ hm hr => exec_cbkInstall_free hm hr, fun _ _ => exec_cbkClear_free, fun _ _ => exec_cbkClear_inUse,
    fun _ _ => exec_cbkRead_writable, fun _ _ _ hm hr => exec_census_install hm hr,
    fun _ _ hm hr => exec_census_reserved hm hr⟩

end Sys2Proof.Machine
end

section
/-! SUPPORT. Creating, loading, sealing, retiring and counting tables (R189–R215): each way in which a command ends, and
the drain of a retired table. -/
namespace Sys2Proof.Machine
open Sys2Proof

/-! ### TBL_CREATE (R189–R199, R210) -/

/-- Entries of a table's range map: none where its translation is not by ranges (R199). -/
def TD.rangeEntries (d : TD) : Nat := if d.xlate = 2 then d.rmapN else 0

/-- The shard map and the range map that a descriptor names (R194, R199). -/
def State.shardMap (s : State) (d : TD) : Rd := s.readDA d.shmap (16 * d.nshard)
def State.rangeMap (s : State) (d : TD) : Rd := s.readDA d.xarg (16 * d.rangeEntries)

/-- An image `b` of a descriptor `d` passes the checks of TBL_CREATE, the room in the heap aside (R210). -/
structure State.Creatable (s : State) (b : List Byte) (d : TD) : Prop where
  image : imageLegal b d = true
  shardAddress : d.shmap < 2 ^ 52
  rangeAddress : d.xlate ≠ 2 ∨ d.xarg < 2 ^ 52
  shardsMapped : s.rangeInBasin d.shmap (16 * d.nshard) = true
  rangesMapped : d.rangeEntries = 0 ∨ s.rangeInBasin d.xarg (16 * d.rangeEntries) = true
  shardsSound : (s.shardMap d).poison = false
  rangesSound : (s.rangeMap d).poison = false
  shardsLegal : s.shardsLegal d (mapEntries d.nshard (s.shardMap d).data) = true
  rangesLegal : d.rangeEntries = 0 ∨ rmapLegal d.n (mapEntries d.rangeEntries (s.rangeMap d).data) = true
  defaults : ¬((d.missPol = 0 ∧ d.defKind = 0) ∨ (d.latePol = 1 ∧ d.fbKind = 0) ∨ (d.defKind = 2 ∧ d.n ≤ d.defRow)
    ∨ (d.fbKind = 2 ∧ d.n ≤ d.fbRow))
  modelRoom : (s.tda.live.filter fun u => (s.td u).model == d.model).length < 65536
  home : s.homeOk d (mapEntries d.nshard (s.shardMap d).data) = true

theorem State.Creatable.fields {s : State} {b : List Byte} {d : TD} (h : s.Creatable b d) :
    (imageLegal b d && decide (d.shmap < 2 ^ 52) && decide (d.xlate ≠ 2 ∨ d.xarg < 2 ^ 52)) = true := by
  simp only [h.image, h.shardAddress, h.rangeAddress, decide_true, Bool.and_self]

theorem State.Creatable.mapsMapped {s : State} {b : List Byte} {d : TD} (h : s.Creatable b d) :
    (s.rangeInBasin d.shmap (16 * d.nshard)
      && (d.rangeEntries == 0 || s.rangeInBasin d.xarg (16 * d.rangeEntries))) = true := by
  rw [h.shardsMapped, Bool.true_and, Bool.or_eq_true, beq_iff_eq]
  exact h.rangesMapped

theorem State.Creatable.mapsSound {s : State} {b : List Byte} {d : TD} (h : s.Creatable b d) :
    ((s.shardMap d).poison || (s.rangeMap d).poison) = false := by
  rw [h.shardsSound, h.rangesSound, Bool.or_self]

theorem State.Creatable.mapsLegal {s : State} {b : List Byte} {d : TD} (h : s.Creatable b d) :
    (s.shardsLegal d (mapEntries d.nshard (s.shardMap d).data)
      && (d.rangeEntries == 0 || rmapLegal d.n (mapEntries d.rangeEntries (s.rangeMap d).data))) = true := by
  rw [h.shardsLegal, Bool.true_and, Bool.or_eq_true, beq_iff_eq]
  exact h.rangesLegal

/-- What TBL_CREATE writes of a table `t` with its maps at offset `o` of the heap: the maps, the descriptor with their
addresses, LOADING, and a zero counter record (R186, R210). -/
def State.createTable (s : State) (t : Nat) (b : List Byte) (o : Nat) : State :=
  let d := tdOf b
  let m0 := s.storeBase + o
  let m1 := m0 + 16 * d.nshard
  let b1 := putAt b 40 (leBytes 8 m0)
  let b2 := if d.rangeEntries = 0 then b1 else putAt b1 16 (leBytes 8 m1)
  let s1 := (s.writeDA m0 (s.shardMap d).data).writeDA m1 (s.rangeMap d).data
  let s2 := ((s1.writeDA (s.tdDA t) (putAt b2 0 [0])).setTdState t tdLoading).writeDA (s.tctrDA t) (List.replicate 64 0)
  { s2 with heap := s2.heap.set t (o, 16 * (d.nshard + d.rangeEntries)) }

theorem exec_tblCreate_noStore {s : State} {c : KCmd} (h : s.tda.rdy = false) :
    exec (.tblCreate c) s = .next (s.done c stTblNoStore) :=
  if_pos (congrArg not h)

theorem exec_tblCreate_notFree {s : State} {c : KCmd} (hr : s.tda.rdy = true) (h : (s.td c.a0.toNat).state ≠ tdFree) :
    exec (.tblCreate c) s = .next (s.done c stTblState) :=
  (if_neg (Bool.eq_false_iff.mp (congrArg not hr))).trans (if_pos h)

/-- The checks of R210 in their order, each passed. -/
theorem exec_tblCreate_creatable {s : State} {c : KCmd} {o : Nat} (rdy : s.tda.rdy = true)
    (free : (s.td c.a0.toNat).state = tdFree) (hm : fromMirror c = false) (hr : s.recall c.a1.toNat 128 = none) :
    let s1 := s.touch c.a1.toNat 128
    let r := s1.readDA c.a1.toNat 128
    let d := tdOf r.data
    r.unmapped = false → r.poison = false → s1.Creatable r.data d →
    s1.heapFit (16 * (d.nshard + d.rangeEntries)) = some o →
    exec (.tblCreate c) s = .next ((s1.createTable c.a0.toNat r.data o).done c stSuccess 0
      (r.data ++ (s1.shardMap d).data ++ (s1.rangeMap d).data)) := by
  intro s1 r d hu hp ok room
  refine (if_neg (Bool.eq_false_iff.mp (congrArg not rdy))).trans ((if_neg (not_not_intro free)).trans
    (congrArg Host.Outcome.next ((State.withInput_sound _ hm hr hu hp).trans ?_)))
  have passes {p : Bool} (h : p = true) : ¬ (!p) = true := Bool.eq_false_iff.mp (congrArg not h)
  have mapped : ¬ (!fromMirror c && !(s1.rangeInBasin d.shmap (16 * d.nshard)
      && (d.rangeEntries == 0 || s1.rangeInBasin d.xarg (16 * d.rangeEntries)))) = true := by
    rw [ok.mapsMapped, Bool.not_true, Bool.and_false]; exact Bool.false_ne_true
  refine (if_neg (passes ok.fields)).trans ((if_neg mapped).trans ?_)
  simp only [hm, Bool.false_eq_true, if_false]
  refine (if_neg (Bool.eq_false_iff.mp ok.mapsSound)).trans ((if_neg (passes ok.mapsLegal)).trans
    ((if_neg ok.defaults).trans ((if_neg (Nat.not_le.mpr ok.modelRoom)).trans ((if_neg (passes ok.home)).trans ?_))))
  change (match s1.heapFit (16 * (d.nshard + d.rangeEntries)) with | none => _ | some o => _) = _
  rw [room]
  rfl

/-! ### TBL_LOAD (R211) -/

theorem exec_tblLoad_pastEnd {s : State} {c : KCmd} (loading : (s.td c.a0.toNat).state = tdLoading)
    (past : (s.td c.a0.toNat).n < c.a2.toNat + c.a3.toNat) : exec (.tblLoad c) s = .next (s.done c stTblBad) :=
  (if_neg (not_not_intro loading)).trans (if_pos past)

theorem exec_tblLoad_noRows {s : State} {c : KCmd} (loading : (s.td c.a0.toNat).state = tdLoading) (zero : c.a3 = 0)
    (within : c.a2.toNat ≤ (s.td c.a0.toNat).n) : exec (.tblLoad c) s = .next (s.done c stSuccess) := by
  have count : c.a3.toNat = 0 := congrArg BitVec.toNat zero
  show execTblLoad c s = _
  simp only [execTblLoad, loading, count, Nat.not_lt.mpr within, ne_eq, not_true_eq_false, false_and, Nat.add_zero,
    if_false]
  rfl

theorem exec_tblLoad_row {s : State} {c : KCmd} (loading : (s.td c.a0.toNat).state = tdLoading)
    (hm : fromMirror c = false) (within : c.a2.toNat + 1 ≤ (s.td c.a0.toNat).n) (one : c.a3 = 1)
    (mapped : s.rangeUnmapped c.a1.toNat (s.td c.a0.toNat).rb = false) :
    let d := s.td c.a0.toNat
    let s0 := s.touch c.a1.toNat d.rb
    let row := s0.readDA c.a1.toNat d.rb
    row.poison = false →
    exec (.tblLoad c) s =
      .next ((s0.loadRow c.a0.toNat d c.a2.toNat row.data false).done c stSuccess 0 (row.data ++ [0])) := by
  intro d s0 row sound
  have count : c.a3.toNat = 1 := congrArg BitVec.toNat one
  dsimp only [row, s0, d] at sound ⊢
  show execTblLoad c s = _
  simp only [execTblLoad, loading, count, Nat.not_lt.mpr within, mapped, hm, sound, ne_eq, not_true_eq_false,
    Bool.false_eq_true, and_false, if_false, Nat.sub_self, Nat.zero_mul, Nat.zero_add, Nat.add_zero, List.range_one,
    List.foldl_cons, List.foldl_nil, Bool.or_self, List.nil_append]

/-- Settles O11: a lemma for each way in which the two commands end. -/
theorem tableCreateAndLoad : Obligations.TableCreateAndLoad := by
  unfold Obligations.TableCreateAndLoad
  refine ⟨?_, fun _ _ => exec_tblCreate_noStore, fun _ _ => exec_tblCreate_notFree,
    fun _ _ hl hm hw ho hu => exec_tblLoad_row hl hm hw ho hu, fun _ _ => exec_tblLoad_noRows,
    fun _ _ => exec_tblLoad_pastEnd⟩
  intro s c o rdy free hm hr s1 b d rn sh rm es hu hp image shardAddress rangeAddress shardsMapped rangesMapped
    shardsSound rangesSound shardsLegal rangesLegal defaults modelRoom home room
  exact exec_tblCreate_creatable rdy free hm hr hu hp ⟨image, shardAddress, rangeAddress, shardsMapped, rangesMapped,
    shardsSound, rangesSound, shardsLegal, rangesLegal, defaults, modelRoom, home⟩ room

/-! ### TBL_SEAL (R212) -/

theorem exec_tblSeal_notLoading {s : State} {c : KCmd} (h : (s.td c.a0.toNat).state ≠ tdLoading) :
    exec (.tblSeal c) s = .next (s.done c stTblState) :=
  if_pos h

/-- A table with no optimiser state has no state map to zero, and one with no rows listed pins none. -/
theorem exec_tblSeal_plain {s : State} {c : KCmd} (loading : (s.td c.a0.toNat).state = tdLoading)
    (noState : (s.td c.a0.toNat).opt = 0) (noPins : (s.td c.a0.toNat).kind2 = []) :
    exec (.tblSeal c) s = .next (((State.sweep { s with upd := { s.upd with pub := s.upd.pub.set c.a0.toNat false } }
      c.a0.toNat (s.td c.a0.toNat) true).setTdState c.a0.toNat tdServing).done c stSuccess) := by
  show execTblSeal c s = _
  simp only [execTblSeal, loading, noState, noPins, State.pinAll, ne_eq, not_true_eq_false, false_and, if_true, if_false]

/-! ### TBL_RETIRE, its drain and its timer (R213, R575) -/

theorem exec_tblRetire_loading {s : State} {c : KCmd} (h : (s.td c.a0.toNat).state = tdLoading) :
    exec (.tblRetire c) s = .next ((s.freeTable c.a0.toNat).done c stSuccess) :=
  if_pos h

theorem exec_tblRetire_serving {s : State} {c : KCmd} (h : (s.td c.a0.toNat).state = tdServing) :
    exec (.tblRetire c) s = .next { s.setTdState c.a0.toNat tdDraining with
      drains := s.drains.set c.a0.toNat
        { q := c.q.val, cid := c.cid, tAcc := s.time.now, due := s.time.now + s.hub.gto } } := by
  have notLoading : (s.td c.a0.toNat).state ≠ tdLoading := by rw [h]; decide
  exact (if_neg notLoading).trans (if_pos h)

/-- The drain ends once no entry of its model and no list or record naming the table is in flight. -/
theorem exec_tblDrainDone_unused {s : State} {t : Fin 262144} {dr : Drain} (hd : s.drains.find t.val = some dr)
    (draining : (s.td t.val).state = tdDraining) (noModel : s.modelInUse (s.td t.val).model = false)
    (noFlight : s.tableInFlight t.val = false) :
    let s1 := (s.sweep t.val (s.td t.val) false).freeTable t.val
    exec (.tblDrainDone t) s = .next (State.complete { s1 with drains := s1.drains.del t.val } dr.q dr.cid stSuccess) := by
  show execTblDrainDone t s = _
  simp only [execTblDrainDone, hd, draining, noModel, noFlight, ne_eq, not_true_eq_false, Bool.false_eq_true, or_self,
    if_false]

theorem exec_tblRetireTimeout_due {s : State} {t : Fin 262144} {dr : Drain} (hd : s.drains.find t.val = some dr)
    (due : dr.due ≤ s.time.now) :
    let s1 := s.setTdState t.val tdServing
    exec (.tblRetireTimeout t) s =
      .next (State.complete { s1 with drains := s1.drains.del t.val } dr.q dr.cid stTblBusy) := by
  show execTblRetireTimeout t s = _
  simp only [execTblRetireTimeout, hd, State.gtoPassed, due, decide_true, if_true]

theorem exec_tblRetireTimeout_early {s : State} {t : Fin 262144} {dr : Drain} (hd : s.drains.find t.val = some dr)
    (early : s.time.now < dr.due) : exec (.tblRetireTimeout t) s = .next s := by
  show execTblRetireTimeout t s = _
  simp only [execTblRetireTimeout, hd, State.gtoPassed, Nat.not_le.mpr early, decide_false, Bool.false_eq_true, if_false]

/-! ### TBL_CTRZ (R208) -/

theorem exec_tblCtrz_ready {s : State} {c : KCmd} (h : s.tda.rdy = true) :
    exec (.tblCtrz c) s = .next ((s.writeDA (s.tctrDA c.a0.toNat) (List.replicate 64 0)).done c stSuccess) :=
  if_neg (Bool.eq_false_iff.mp (congrArg not h))

/-- Settles O12: a lemma for each way in which a command or the drain ends. -/
theorem tableLife : Obligations.TableLife :=
  ⟨fun _ _ => exec_tblSeal_plain, fun _ _ => exec_tblSeal_notLoading, fun _ _ => exec_tblRetire_loading,
    fun _ _ => exec_tblRetire_serving, fun _ _ _ => exec_tblDrainDone_unused,
    fun _ _ _ => exec_tblRetireTimeout_due, fun _ _ _ => exec_tblRetireTimeout_early, fun _ _ => exec_tblCtrz_ready⟩

end Sys2Proof.Machine
end

section
/-! SUPPORT. What reads by device address and table descriptors do not depend on: the basin directory, the aquifer's
requests and the lookup lists; and what a map reads as after a change of all its values. -/
namespace Sys2Proof

/-- A change of every listed value changes what any key reads as, where it keeps the default. -/
theorem SMap.get_mapValues {α : Type} (f : α → α) (d : α) (hd : f d = d) (m : SMap α) (i : Nat) :
    SMap.get d (m.map fun kv : Nat × α => (kv.1, f kv.2)) i = f (SMap.get d m i) := by
  induction m with
  | nil => exact hd.symm
  | cons kv m ih =>
    simp only [List.map_cons, SMap.get]
    split
    · rfl
    · exact ih

end Sys2Proof

namespace Sys2Proof.Machine
open Sys2Proof

/-- A read of a line of a compressible region, whose block and tag lie at places `q` (R173). Its rules take
the places as variables: a comparison of two reads then never computes where a block lies. -/
def State.readCompressed (s : State) (da n : Nat) (q : Nat × Nat × Bool) : Rd :=
  let (place, tp, hi) := q
  if s.flatFailed place then { data := List.replicate n 0, poison := true }
  else
    match s.readBlock place tp hi with
    | none => { data := List.replicate n 0, poison := true }
    | some bs => { data := (bs.drop (da % 512)).take n }

/-- A read of a line of an uncompressed basin region, at the flat place `p` (R124). -/
def State.readFlat (s : State) (n p : Nat) : Rd :=
  { data := cellsRead s.mem.cells p n, poison := s.flatFailed p || s.mem.poisoned p }

theorem State.readLine_basin {s : State} {da k : Nat} (n : Nat) (h : s.place da = .basin k) :
    s.readLine da n = if (s.region k).comp then s.readCompressed da n (s.blockPlace (s.region k) da)
      else s.readFlat n (s.flatOf da) := by
  unfold State.readLine
  rw [h]
  rfl

section
variable (s : State) (b : Basin) (a : Aquifer) (l : Lookup)

@[simp] theorem State.place_withQueues (da : Nat) :
    State.place { s with bd := b, aq := a, lk := l } da = s.place da := rfl
@[simp] theorem State.region_withQueues (n : Nat) :
    State.region { s with bd := b, aq := a, lk := l } n = s.region n := rfl
@[simp] theorem State.flatOf_withQueues (da : Nat) :
    State.flatOf { s with bd := b, aq := a, lk := l } da = s.flatOf da := rfl
@[simp] theorem State.blockPlace_withQueues (r : Region) (da : Nat) :
    State.blockPlace { s with bd := b, aq := a, lk := l } r da = s.blockPlace r da := rfl
@[simp] theorem State.readCompressed_withQueues (da n : Nat) (q : Nat × Nat × Bool) :
    State.readCompressed { s with bd := b, aq := a, lk := l } da n q = s.readCompressed da n q := rfl
@[simp] theorem State.readFlat_withQueues (n p : Nat) :
    State.readFlat { s with bd := b, aq := a, lk := l } n p = s.readFlat n p := rfl

@[simp] theorem State.readLine_withQueues (da n : Nat) :
    State.readLine { s with bd := b, aq := a, lk := l } da n = s.readLine da n := by
  cases h : s.place da with
  | basin k =>
    rw [State.readLine_basin n h, State.readLine_basin n (State.place_withQueues s b a l da ▸ h),
      State.region_withQueues, State.flatOf_withQueues, State.blockPlace_withQueues, State.readCompressed_withQueues,
      State.readFlat_withQueues]
  | host =>
    unfold State.readLine
    rw [State.place_withQueues, h]
    generalize da - rsvBase = hpa
    rfl
  | unmapped | cistern | coreStore =>
    unfold State.readLine
    rw [State.place_withQueues, h]

@[simp] theorem State.readDA_withQueues (da n : Nat) :
    State.readDA { s with bd := b, aq := a, lk := l } da n = s.readDA da n := by
  unfold State.readDA
  simp only [State.readLine_withQueues]

@[simp] theorem State.td_withQueues (t : Nat) : State.td { s with bd := b, aq := a, lk := l } t = s.td t :=
  congrArg (fun r : Rd => if s.tda.rdy then tdOf r.data else {}) (State.readDA_withQueues s b a l (s.tdDA t) 128)

end

end Sys2Proof.Machine
end

section
/-! SUPPORT. The planner's list commands (R235, R236, R240): a command of one entry or none, from the checks to its counts,
and the end of one that has waited for reads. -/
namespace Sys2Proof.Machine
open Sys2Proof

/-! ### A command's input -/

theorem Rd.bad_eq_none {r : Rd} : r.bad = none ↔ r.unmapped = false ∧ r.poison = false := by
  unfold Rd.bad
  cases r.unmapped
  · cases r.poison <;> simp
  · simp

/-- An input that no status rejects is worked on as read (R571). -/
theorem State.withInput_clean {s : State} {c : KCmd} {da n : Nat} (f : State → List Byte → State)
    (hm : fromMirror c = false) (hr : s.recall da n = none) (hb : ((s.touch da n).readDA da n).bad = none) :
    s.withInput c da n f = f (s.touch da n) ((s.touch da n).readDA da n).data :=
  have sound := Rd.bad_eq_none.mp hb
  State.withInput_sound f hm hr sound.1 sound.2

/-! ### Who sends planner commands -/

/-- PLANNER names the command's sender (R236). -/
theorem State.fromPlanner_of_ne {s : State} {c : KCmd} (h : (c.q.val == 1024) ≠ s.bd.planner) : s.fromPlanner c = true :=
  bne_iff_ne.mpr h

theorem State.fromPlanner_of_eq {s : State} {c : KCmd} (h : (c.q.val == 1024) = s.bd.planner) : s.fromPlanner c = false :=
  bne_eq_false_iff_eq.mpr h

/-! ### A list command on record -/

/-- The record of a list command before its first entry. -/
def planOf (c : KCmd) : PlanCmd := { q := c.q.val, cid := c.cid, resultDa := c.a2.toNat }

/-- A list command goes on record under the next number. -/
def State.startPlan (s : State) (p : PlanCmd) : State :=
  { s with bd := { s.bd with plans := s.bd.plans.set s.bd.nextPlan p, nextPlan := s.bd.nextPlan + 1 } }

/-- A list command ends: its counts are written, then its CQE is posted (R236). -/
def State.endPlan (s : State) (id : Nat) (p : PlanCmd) : State :=
  let s1 := s.wr p.resultDa p.counts
  State.complete { s1 with bd := { s1.bd with plans := s1.bd.plans.del id } } p.q p.cid stSuccess

@[simp] theorem State.startPlan_td (s : State) (p : PlanCmd) (t : Nat) : (s.startPlan p).td t = s.td t :=
  State.td_withQueues s _ s.aq s.lk t
@[simp] theorem State.startPlan_hotCopies (s : State) (p : PlanCmd) (t r : Nat) :
    (s.startPlan p).hotCopies t r = s.hotCopies t r := rfl
@[simp] theorem State.startPlan_bucketMoving (s : State) (p : PlanCmd) (b : Nat) :
    (s.startPlan p).bucketMoving b = s.bucketMoving b := rfl

@[simp] theorem State.startPlan_find (s : State) (p : PlanCmd) :
    (s.startPlan p).bd.plans.find s.bd.nextPlan = some p := SMap.find_set_self _ _ _

@[simp] theorem State.updPlan_startPlan (s : State) (p : PlanCmd) (g : PlanCmd → PlanCmd) :
    (s.startPlan p).updPlan s.bd.nextPlan g = s.startPlan (g p) := by
  simp only [State.updPlan, State.startPlan_find]
  simp only [State.startPlan, SMap.set_set]

/-- Nothing is left to do: no entry, no marker round, and no read of a dropped slot (R236, R240). -/
theorem State.planTry_settled {s : State} {id : Nat} {p : PlanCmd} (hf : s.bd.plans.find id = some p) (left : p.left = 0)
    (rows : p.rows = []) (reads : p.slots.any s.slotRead = false) : s.planTry id = s.endPlan id p := by
  simp only [State.planTry, hf]
  exact if_pos ⟨left, rows, reads⟩

/-! ### Running a list -/

theorem State.runList_otherPlanner {s : State} {c : KCmd} (step : Nat → State → Nat × Nat × Nat → State)
    (h : (c.q.val == 1024) = s.bd.planner) : s.runList c step = s.done c stBdPlanner :=
  if_pos (congrArg not (State.fromPlanner_of_eq h))

/-- The sender and the directory pass; the rest depends on the result area and the list. -/
theorem State.runList_enabled {s : State} {c : KCmd} (step : Nat → State → Nat × Nat × Nat → State)
    (h : (c.q.val == 1024) ≠ s.bd.planner) (on : s.bd.en = true) :
    s.runList c step = match s.outBad c.a2.toNat 20 with
      | some code => s.done c code
      | none => s.withInput c c.a0.toNat (16 * c.a1.toNat) fun s1 b =>
          ((refreshEntries c.a1.toNat b).foldl (step s1.bd.nextPlan) (s1.startPlan (planOf c))).planTry s1.bd.nextPlan :=
  (if_neg (Bool.eq_false_iff.mp (congrArg not (State.fromPlanner_of_ne h)))).trans
    (if_neg (Bool.eq_false_iff.mp (congrArg not on)))

theorem State.runList_off {s : State} {c : KCmd} (step : Nat → State → Nat × Nat × Nat → State)
    (h : (c.q.val == 1024) ≠ s.bd.planner) (off : s.bd.en = false) : s.runList c step = s.done c stBdOff :=
  (if_neg (Bool.eq_false_iff.mp (congrArg not (State.fromPlanner_of_ne h)))).trans (if_pos (congrArg not off))

theorem State.runList_outBad {s : State} {c : KCmd} {code : BitVec 12} (step : Nat → State → Nat × Nat × Nat → State)
    (h : (c.q.val == 1024) ≠ s.bd.planner) (on : s.bd.en = true) (out : s.outBad c.a2.toNat 20 = some code) :
    s.runList c step = s.done c code := by
  rw [State.runList_enabled step h on, out]

section clean
/-! A list that no check before its entries rejects. -/

variable {s : State} {c : KCmd} (step : Nat → State → Nat × Nat × Nat → State)
  (planner : (c.q.val == 1024) ≠ s.bd.planner) (on : s.bd.en = true) (out : s.outBad c.a2.toNat 20 = none)
  (hm : fromMirror c = false)
include planner on out hm

theorem State.runList_clean {n : Nat} (hr : s.recall c.a0.toNat (16 * n) = none) (count : c.a1.toNat = n) :
    let s1 := s.touch c.a0.toNat (16 * n)
    let rd := s1.readDA c.a0.toNat (16 * n)
    rd.bad = none → s.runList c step =
      ((refreshEntries n rd.data).foldl (step s1.bd.nextPlan) (s1.startPlan (planOf c))).planTry s1.bd.nextPlan := by
  subst count
  intro s1 rd hb
  rw [State.runList_enabled step planner on, out]
  exact State.withInput_clean _ hm hr hb

/-- A list whose only entry changes the command's record alone, to one with nothing left to do. -/
theorem State.runList_one {p : PlanCmd} (hr : s.recall c.a0.toNat 16 = none) (count : c.a1 = 1) (left : p.left = 0)
    (rows : p.rows = []) (slots : p.slots = []) :
    let s1 := s.touch c.a0.toNat 16
    let rd := s1.readDA c.a0.toNat 16
    rd.bad = none →
    step s1.bd.nextPlan (s1.startPlan (planOf c))
      (leAt rd.data 0 8 % 2 ^ 40, leAt rd.data 0 8 / 2 ^ 40 % 2 ^ 18, leAt rd.data 8 8 % 2 ^ 52) = s1.startPlan p →
    s.runList c step = (s1.startPlan p).endPlan s1.bd.nextPlan p := by
  intro s1 rd hb entry
  refine (State.runList_clean step planner on out hm hr (congrArg BitVec.toNat count) hb).trans ?_
  refine (congrArg (State.planTry · s1.bd.nextPlan) entry).trans ?_
  exact State.planTry_settled (State.startPlan_find _ _) left rows (by rw [slots]; rfl)

theorem State.runList_empty (hr : s.recall c.a0.toNat 0 = none) (count : c.a1 = 0) :
    let s1 := s.touch c.a0.toNat 0
    (s1.readDA c.a0.toNat 0).bad = none →
    s.runList c step = (s1.startPlan (planOf c)).endPlan s1.bd.nextPlan (planOf c) := by
  intro s1 hb
  refine (State.runList_clean step planner on out hm hr (congrArg BitVec.toNat count) hb).trans ?_
  exact State.planTry_settled (State.startPlan_find _ _) rfl rfl rfl

end clean

/-! ### The four commands -/

/-- Each list command runs its list by a step that counts an entry of a table not SERVING as BAD (R236). -/
theorem listCommand_step : ∀ f ∈ [Instr.bsnFill, Instr.bsnDrop, Instr.ftnAdd, Instr.ftnDrop],
    ∃ step : Nat → State → Nat × Nat × Nat → State, (∀ c s, exec (f c) s = .next (s.runList c step)) ∧
      ∀ id s e, (s.td e.2.1).state ≠ tdServing → step id s e = s.updPlan id fun p => { p with bad := p.bad + 1 } := by
  have notServing {d : TD} {b : Bool} (h : d.state ≠ tdServing) : (!(d.state == tdServing && b)) = true := by
    rw [beq_eq_false_iff_ne.mpr h]; rfl
  simp only [List.forall_mem_cons, List.not_mem_nil, false_imp_iff, implies_true, and_true]
  refine ⟨⟨State.bsnFillEntry, fun _ _ => rfl, fun id s e h => if_pos ?_⟩,
    ⟨State.bsnDropEntry, fun _ _ => rfl, fun id s e h => if_pos ?_⟩,
    ⟨State.ftnAddEntry, fun _ _ => rfl, fun id s e h => if_pos ?_⟩,
    ⟨State.ftnDropEntry, fun _ _ => rfl, fun id s e h => if_pos ?_⟩⟩
  · rw [Bool.and_assoc, Bool.and_assoc]; exact notServing h
  · exact notServing h
  · rw [Bool.and_assoc]; exact notServing h
  · exact notServing h

/-- An entry of BSN_DROP whose row has no hot copy, in a bucket that does not move, is SKIPPED (R236, R240). -/
theorem State.bsnDropEntry_noCopy {s : State} {id t r slot : Nat} (serving : (s.td t).state = tdServing)
    (row : r < (s.td t).n) (still : s.bucketMoving (bucketOf t r) = false) (noCopy : s.hotCopies t r = []) :
    State.bsnDropEntry id s (r, t, slot) = s.updPlan id fun p => { p with skipped := p.skipped + 1 } := by
  simp [State.bsnDropEntry, State.bsnDropOne, serving, row, still, noCopy]

theorem exec_bsnDropSettled_settled {s : State} {n id : Nat} {p : PlanCmd}
    (nth : (s.bd.plans.filter fun kv => !kv.2.slots.isEmpty)[n]? = some (id, p)) (hf : s.bd.plans.find id = some p)
    (left : p.left = 0) (rows : p.rows = []) (reads : p.slots.any s.slotRead = false) :
    exec (.bsnDropSettled n) s = .next (s.endPlan id p) := by
  show execBsnDropSettled n s = _
  simp only [execBsnDropSettled, nth, State.planTry_settled hf left rows reads]

/-- Settles O13: the checks before the list; then a list whose one entry counts, or which has none. -/
theorem plannerLists : Obligations.PlannerLists := by
  unfold Obligations.PlannerLists
  refine ⟨fun f hf s c => ?_, fun s c planner on out hm hr count => ?_,
    fun s n id p nth hf left rows reads => exec_bsnDropSettled_settled nth hf left rows reads⟩
  · obtain ⟨step, runs, bad⟩ := listCommand_step f hf
    rw [runs]
    refine ⟨fun h => ?_, fun h off => ?_, fun code h on out => ?_, fun planner on out hm hr count => ?_,
      fun planner on out hm hr count => ?_⟩
    · rw [State.runList_otherPlanner step h]
    · rw [State.runList_off step h off]
    · rw [State.runList_outBad step h on out]
    · intro s1 rd p s2 s3 hb hs
      refine congrArg Host.Outcome.next (State.runList_one (p := p) step planner on out hm hr count rfl rfl rfl hb ?_)
      exact (bad _ _ _ (by rwa [State.startPlan_td])).trans (State.updPlan_startPlan s1 _ _)
    · intro s1 p s2 s3 hb
      exact congrArg Host.Outcome.next (State.runList_empty step planner on out hm hr count hb)
  · intro s1 rd t r p s2 s3 hb serving row still copies
    refine congrArg Host.Outcome.next
      (State.runList_one (p := p) State.bsnDropEntry planner on out hm hr count rfl rfl rfl hb ?_)
    have plan_td := State.startPlan_td s1 (planOf c) t
    have entry := State.bsnDropEntry_noCopy (s := s1.startPlan (planOf c)) (id := s1.bd.nextPlan)
      (slot := leAt rd.data 8 8 % 2 ^ 52) (by rwa [plan_td]) (by rwa [plan_td]) still copies
    exact entry.trans (State.updPlan_startPlan s1 _ _)

end Sys2Proof.Machine
end

section
/-! SUPPORT. HUB_BD_CTL and bucket moves (R220, R247, R253): the enabling of the directory, the checks of a move, and the
flip of the map once its entries are copied. -/
namespace Sys2Proof.Machine
open Sys2Proof

/-! ### HUB_BD_CTL (R253) -/

/-- The fields that every write of HUB_BD_CTL takes, EN aside. -/
def State.withBdCtl (s : State) (v : W32) : State :=
  { s with bd := { s.bd with
    err := s.bd.err && !bit v 1, planner := bit v 2, heatShift := field v 3 3
    decayMs := if field v 6 10 = 0 then 1 else field v 6 10 } }

theorem exec_hubBdCtlWrite {s : State} {p : AccessPath} (v : W32) (h : s.csrWritable p .hub = true) :
    exec (.hubBdCtlWrite p v) s = .next (s.writeBdCtl v) :=
  congrArg Host.Outcome.next (State.onCsr_of_writable _ h)

/-- EN set on a disabled directory: enabled where every stack passes, else ERR. -/
theorem State.writeBdCtl_enable {s : State} {v : W32} (off : s.bd.en = false) (set : bit v 0 = true) :
    s.writeBdCtl v = if (List.range 12).all (s.withBdCtl v).bdStackOk then (s.withBdCtl v).bdEnable
      else { s.withBdCtl v with bd := { (s.withBdCtl v).bd with err := true } } := by
  simp only [State.writeBdCtl, State.withBdCtl, set, off, Bool.true_eq_false, if_false, if_true]

/-- A stack's directory and its filter are emptied. -/
def State.emptyDir (s : State) (k : Nat) : State :=
  (s.zeroRange ((s.bdStack k).dirBase.toNat * 2 ^ 28) (s.bdStack k).dirBytes).updBdStack k fun b =>
    { b with dir := [], displaced := 0, recent := [] }

/-- The map of R220: the buckets dealt to the stacks in turn, their loads kept. -/
def State.dealtBuckets (s : State) : SMap Bucket :=
  (List.range 4096).map fun b => (b, { (s.bucket b) with
    stack := BitVec.ofNat 4 (b % 12), frame := BitVec.ofNat 10 (b / 12), mig := false, v := true })

/-- The directory goes on with the map of R220, from the loads that `s` has counted. -/
def State.dealBuckets (s t : State) : State :=
  { t with bd := { t.bd with
      en := true, ringWp := 0, ftnCnt := [], sticky := [], ftn := [], fills := [], moves := [], held := [], pins := []
      buckets := s.dealtBuckets } }

theorem State.bdEnable_eq (s : State) : s.bdEnable = s.dealBuckets ((List.range 12).foldl State.emptyDir s) := rfl

@[simp] theorem State.updBdStack_planner (s : State) (k : Nat) (f : BdStack → BdStack) :
    (s.updBdStack k f).bd.planner = s.bd.planner := rfl
@[simp] theorem State.zeroRange_bd (s : State) (da n : Nat) : (s.zeroRange da n).bd = s.bd := rfl
@[simp] theorem State.emptyDir_planner (s : State) (k : Nat) : (s.emptyDir k).bd.planner = s.bd.planner := by
  rw [State.emptyDir, State.updBdStack_planner, State.zeroRange_bd]
@[simp] theorem State.dealBuckets_en (s t : State) : (s.dealBuckets t).bd.en = true := rfl
@[simp] theorem State.dealBuckets_ringWp (s t : State) : (s.dealBuckets t).bd.ringWp = 0 := rfl
@[simp] theorem State.dealBuckets_planner (s t : State) : (s.dealBuckets t).bd.planner = t.bd.planner := rfl
@[simp] theorem State.dealBuckets_buckets (s t : State) : (s.dealBuckets t).bd.buckets = s.dealtBuckets := by
  simp only [State.dealBuckets]

/-- Emptying the directories leaves the planner field alone. -/
theorem State.bdEnable_planner (s : State) : s.bdEnable.bd.planner = s.bd.planner := by
  rw [State.bdEnable_eq, State.dealBuckets_planner]
  exact List.foldlRecOn (motive := fun t : State => t.bd.planner = s.bd.planner) (List.range 12) _ rfl
    fun t kept k _ => (t.emptyDir_planner k).trans kept

/-! ### BKT_MOVE (R247) -/

/-- A frame that BKT_MOVE may name: one of another stack, and free. -/
theorem State.moveFrame_legal {s : State} {b dst fr : Nat} (other : dst ≠ (s.bucket b).stack.toNat)
    (within : fr < (s.bdStack dst).nframes.toNat) (free : s.frameFree dst fr = true) :
    ¬ (dst = (s.bucket b).stack.toNat ∨ (s.bdStack dst).nframes.toNat ≤ fr ∨ s.frameFree dst fr = false) := by
  simp [other, Nat.not_le.mpr within, free]

section checks
/-! The checks of BKT_MOVE in their order, for a command of the planner on an enabled directory. -/

variable {s : State} {c : KCmd} (planner : (c.q.val == 1024) ≠ s.bd.planner) (on : s.bd.en = true)
include planner on

theorem exec_bktMove_busy (busy : ∃ m ∈ s.bd.moves, m.bucket = c.a0.toNat) :
    exec (.bktMove c) s = .next (s.done c stBdBusy) := by
  have moving : (s.bd.moves.any fun m => m.bucket == c.a0.toNat) = true := by simpa using busy
  show execBktMove c s = _
  simp only [execBktMove, State.fromPlanner_of_ne planner, on, moving, Bool.not_true, Bool.false_eq_true, if_true, if_false]

variable (still : ∀ m ∈ s.bd.moves, m.bucket ≠ c.a0.toNat)
include still

/-- The bucket stands still: what follows is the frame, the slots and their list. -/
theorem exec_bktMove_still : exec (.bktMove c) s =
    if c.a1.toNat = (s.bucket c.a0.toNat).stack.toNat ∨ (s.bdStack c.a1.toNat).nframes.toNat ≤ c.a2.toNat
        ∨ s.frameFree c.a1.toNat c.a2.toNat = false then .next (s.done c stBdFrame)
    else if c.a4.toNat < (s.frameEntries (s.bucket c.a0.toNat).stack.toNat (s.bucket c.a0.toNat).frame.toNat).length then
      .next (s.done c stBdSlots)
    else .next (s.withInput c c.a3.toNat (8 * c.a4.toNat) fun s1 bs =>
      { s1 with bd := { s1.bd with moves := s1.bd.moves ++ [{
        bucket := c.a0.toNat, src := (s.bucket c.a0.toNat).stack.toNat, dst := c.a1.toNat, frame := c.a2.toNat
        slots := slotList c.a4.toNat bs, q := c.q.val, cid := c.cid
        step := if s1.bd.moves.any fun m => m.src == (s.bucket c.a0.toNat).stack.toNat then 0 else 1 }] } }) := by
  have free : (s.bd.moves.any fun m => m.bucket == c.a0.toNat) = false := by simpa using still
  show execBktMove c s = _
  simp only [execBktMove, State.fromPlanner_of_ne planner, on, free, Bool.not_true, Bool.false_eq_true, if_false]

theorem exec_bktMove_frameTaken (taken : s.frameFree c.a1.toNat c.a2.toNat = false) :
    exec (.bktMove c) s = .next (s.done c stBdFrame) :=
  (exec_bktMove_still planner on still).trans (if_pos (.inr (.inr taken)))

variable (other : c.a1.toNat ≠ (s.bucket c.a0.toNat).stack.toNat)
  (within : c.a2.toNat < (s.bdStack c.a1.toNat).nframes.toNat) (free : s.frameFree c.a1.toNat c.a2.toNat = true)
include other within free

theorem exec_bktMove_fewSlots
    (few : c.a4.toNat < (s.frameEntries (s.bucket c.a0.toNat).stack.toNat (s.bucket c.a0.toNat).frame.toNat).length) :
    exec (.bktMove c) s = .next (s.done c stBdSlots) :=
  (exec_bktMove_still planner on still).trans ((if_neg (State.moveFrame_legal other within free)).trans (if_pos few))

/-- A legal move joins the others; its list gives slots of 8 bytes each (NOTES entry 35). -/
theorem exec_bktMove_legal
    (room : (s.frameEntries (s.bucket c.a0.toNat).stack.toNat (s.bucket c.a0.toNat).frame.toNat).length ≤ c.a4.toNat)
    (hm : fromMirror c = false) (hr : s.recall c.a3.toNat (8 * c.a4.toNat) = none) :
    let s1 := s.touch c.a3.toNat (8 * c.a4.toNat)
    let rd := s1.readDA c.a3.toNat (8 * c.a4.toNat)
    rd.bad = none → (∀ m ∈ s1.bd.moves, m.src ≠ (s.bucket c.a0.toNat).stack.toNat) →
    exec (.bktMove c) s = .next { s1 with bd := { s1.bd with moves := s1.bd.moves ++ [{
      bucket := c.a0.toNat, src := (s.bucket c.a0.toNat).stack.toNat, dst := c.a1.toNat, frame := c.a2.toNat
      slots := slotList c.a4.toNat rd.data, q := c.q.val, cid := c.cid, step := 1 }] } } := by
  intro s1 rd hb idle
  have noneLeaves : (s1.bd.moves.any fun m => m.src == (s.bucket c.a0.toNat).stack.toNat) = false := by simpa using idle
  rw [exec_bktMove_still planner on still, if_neg (State.moveFrame_legal other within free),
    if_neg (Nat.not_lt.mpr room), State.withInput_clean _ hm hr hb]
  dsimp only
  rw [if_neg (Bool.eq_false_iff.mp noneLeaves)]

end checks

/-! ### BKT_MOVE_COPY_DONE (R247) -/

/-- A bucket without entries has none to copy: the map flips at once (NOTES entry 40). -/
theorem exec_bktMoveCopyDone_empty {s : State} {b : Fin 4096} {m : Move} (only : s.bd.moves = [m])
    (bucket : m.bucket = b.val) (copying : m.step = 1)
    (empty : s.frameEntries m.src (s.bucket b.val).frame.toNat = []) :
    exec (.bktMoveCopyDone b) s = .next (({ s with bd := { s.bd with moves := [{ m with step := 3 }] } }).updBucket b.val
      fun x => { x with
        stack := BitVec.ofNat 4 m.dst, frame := BitVec.ofNat 10 m.frame, mig := true
        oldStack := (s.bucket b.val).stack, oldFrame := (s.bucket b.val).frame }) := by
  have found : (s.bd.moves.find? fun x => x.bucket == b.val && x.step == 1) = some m := by simp [only, bucket, copying]
  have marked : s.setMove { m with step := 3 } = { s with bd := { s.bd with moves := [{ m with step := 3 }] } } := by
    simp [State.setMove, only]
  show execBktMoveCopyDone b s = _
  simp only [execBktMoveCopyDone, found, empty, List.any_nil, Bool.false_eq_true, if_false, List.foldl_nil, marked]

/-- Settles O14: the two ends of a write of EN, a lemma for each way in which BKT_MOVE ends, and the flip. -/
theorem basinControl : Obligations.BasinControl := by
  unfold Obligations.BasinControl
  refine ⟨fun s p v writable off set => ?_, fun s p v writable off set => ?_, fun s c => exec_bktMove_busy,
    fun s c => exec_bktMove_frameTaken, fun s c => exec_bktMove_fewSlots, fun s c => exec_bktMove_legal,
    fun s b m => exec_bktMoveCopyDone_empty⟩
  · intro s1 ok
    refine ⟨s1.bdEnable, ?_, State.dealBuckets_en s1 _, State.dealBuckets_ringWp s1 _, s1.bdEnable_planner,
      State.dealBuckets_buckets s1 _⟩
    rw [exec_hubBdCtlWrite v writable, State.writeBdCtl_enable off set]
    exact congrArg Host.Outcome.next (if_pos ok)
  · intro s1 bad
    rw [exec_hubBdCtlWrite v writable, State.writeBdCtl_enable off set]
    exact congrArg Host.Outcome.next (if_neg (Bool.eq_false_iff.mp bad))

end Sys2Proof.Machine
end

section
/-! SUPPORT. Heat and fills (R230, R231, R233, R235, R238): where a sketch is placed, what a sample and a decay tick do to
counters, and the arrival of a fill's row. -/
namespace Sys2Proof.Machine
open Sys2Proof

/-! ### HEAT_ON and HEAT_OFF (R230) -/

/-- The state once the table's sketch, if it has one, is taken out (NOTES entry 39). -/
def State.withoutSketch (s : State) (t : Nat) : State :=
  { s with bd := { s.bd with sketches := s.bd.sketches.del t } }

/-- The stack where HEAT_ON places a table's sketch: stack t mod 12, or the first with room. -/
def State.sketchPlace (s : State) (t : Nat) : Option Nat :=
  (t % 12 :: List.range 12).find? fun st => decide (s.sketchesAt st < (s.bdStack st).sketchRoom)

theorem State.sketchPlace_own {s : State} {t : Nat} (room : s.sketchesAt (t % 12) < (s.bdStack (t % 12)).sketchRoom) :
    s.sketchPlace t = some (t % 12) :=
  List.find?_cons_of_pos (decide_eq_true room)

theorem State.sketchPlace_none {s : State} {t : Nat} (full : ∀ st < 12, (s.bdStack st).sketchRoom ≤ s.sketchesAt st) :
    s.sketchPlace t = none := by
  refine List.find?_eq_none.mpr fun st hst => ?_
  have below : st < 12 := by
    rcases List.mem_cons.mp hst with rfl | h
    · exact Nat.mod_lt _ (by decide)
    · exact List.mem_range.mp h
  simpa using full st below

theorem exec_heatOn_planner {s : State} {c : KCmd} (planner : (c.q.val == 1024) ≠ s.bd.planner) :
    exec (.heatOn c) s = match (s.withoutSketch c.a0.toNat).sketchPlace c.a0.toNat with
      | none => .next (s.done c stBdNoSketch)
      | some st => .next (State.done { s with bd := { s.bd with
          sketches := (s.bd.sketches.del c.a0.toNat).set c.a0.toNat { stack := st } } } c stSuccess) :=
  if_neg (Bool.eq_false_iff.mp (congrArg not (State.fromPlanner_of_ne planner)))

theorem exec_heatOn_room {s : State} {c : KCmd} (planner : (c.q.val == 1024) ≠ s.bd.planner)
    (room : (s.withoutSketch c.a0.toNat).sketchesAt (c.a0.toNat % 12) <
      (s.bdStack (c.a0.toNat % 12)).sketchRoom) :
    exec (.heatOn c) s = .next (State.done { s with bd := { s.bd with
      sketches := (s.bd.sketches.del c.a0.toNat).set c.a0.toNat { stack := c.a0.toNat % 12 } } } c stSuccess) := by
  rw [exec_heatOn_planner planner, State.sketchPlace_own room]

theorem exec_heatOn_full {s : State} {c : KCmd} (planner : (c.q.val == 1024) ≠ s.bd.planner)
    (full : ∀ st < 12, (s.bdStack st).sketchRoom ≤ (s.withoutSketch c.a0.toNat).sketchesAt st) :
    exec (.heatOn c) s = .next (s.done c stBdNoSketch) := by
  rw [exec_heatOn_planner planner, State.sketchPlace_none (s := s.withoutSketch c.a0.toNat) full]

theorem exec_heatOff {s : State} {c : KCmd} (planner : (c.q.val == 1024) ≠ s.bd.planner) :
    exec (.heatOff c) s =
      .next (State.done { s with bd := { s.bd with sketches := s.bd.sketches.del c.a0.toNat } } c stSuccess) :=
  if_neg (Bool.eq_false_iff.mp (congrArg not (State.fromPlanner_of_ne planner)))

theorem exec_heatOn_otherPlanner {s : State} {c : KCmd} (h : (c.q.val == 1024) = s.bd.planner) :
    exec (.heatOn c) s = .next (s.done c stBdPlanner) :=
  if_pos (congrArg not (State.fromPlanner_of_eq h))

theorem exec_heatOff_otherPlanner {s : State} {c : KCmd} (h : (c.q.val == 1024) = s.bd.planner) :
    exec (.heatOff c) s = .next (s.done c stBdPlanner) :=
  if_pos (congrArg not (State.fromPlanner_of_eq h))

/-! ### HEAT_READ and HEAT_SAMPLE (R231, R235) -/

theorem exec_heatRead_one {s : State} {c : KCmd} (out : s.outBad c.a2.toNat 2 = none) (hm : fromMirror c = false)
    (count : c.a1 = 1) (hr : s.recall c.a0.toNat 16 = none) :
    let s1 := s.touch c.a0.toNat 16
    let rd := s1.readDA c.a0.toNat 16
    rd.bad = none →
    exec (.heatRead c) s = .next ((s1.wr c.a2.toNat
      (leBytes 2 (s1.heat (leAt rd.data 0 8 / 2 ^ 40 % 2 ^ 18) (leAt rd.data 0 8 % 2 ^ 40)))).done c stSuccess) := by
  intro s1 rd hb
  have one : c.a1.toNat = 1 := congrArg BitVec.toNat count
  show execHeatRead c s = _
  unfold execHeatRead
  rw [one, out]
  refine congrArg Host.Outcome.next ((State.withInput_clean _ hm hr hb).trans ?_)
  simp only [refreshEntries, List.flatMap_cons, List.flatMap_nil, List.append_nil]
  rfl

/-- With THRESH 0 no row is a candidate (R232): the sample raises its row's counters and no more. -/
theorem exec_heatSample_counts {s : State} {n t r : Nat} {k : Sketch} (nth : s.bd.samples[n]? = some (t, r))
    (sketch : s.bd.sketches.find t = some k) (off : s.bd.thresh = 0) :
    exec (.heatSample n) s = .next { s with bd := { s.bd with
      samples := s.bd.samples.eraseIdx n
      sketches := s.bd.sketches.set t { k with
        ctr := (sketchCols t r).foldl (fun m i => m.set i (satInc (m.get 0 i))) k.ctr } } } := by
  have zero : s.bd.thresh.toNat = 0 := congrArg BitVec.toNat off
  show execHeatSample n s = _
  simp only [execHeatSample, nth, sketch, zero, ne_eq, not_true_eq_false, false_and, if_false, SMap.upd]

/-! ### Decay (R233) -/

theorem exec_decayTick_due {s : State} (due : s.elapsed s.bd.lastDecay (s.bd.decayMs.toNat * 1000000) = true) :
    ∃ t, exec .decayTick s = .next t ∧ t.bd.lastDecay = s.time.now
      ∧ (∀ b, (t.bucket b).load = (s.bucket b).load >>> 1)
      ∧ (∀ st, (t.bdStack st).load = (s.bdStack st).load >>> 1)
      ∧ t = { s with bd := t.bd } := by
  refine ⟨_, if_pos due, rfl, fun b => ?_, fun st => ?_, rfl⟩
  · exact congrArg Bucket.load (SMap.get_mapValues (fun x : Bucket => { x with load := x.load >>> 1 }) {} rfl s.bd.buckets b)
  · exact congrArg BdStack.load (SMap.get_mapValues BdStack.decay {} rfl s.bd.st st)

theorem exec_decayTick_early {s : State} (early : s.elapsed s.bd.lastDecay (s.bd.decayMs.toNat * 1000000) = false) :
    exec .decayTick s = .next s :=
  if_neg (Bool.eq_false_iff.mp early)

/-! ### FILL_ROW_ARRIVAL (R238) -/

/-- A fill's row goes to its entry's slot, and the entry serves: no write of the row came since the fill began. -/
theorem State.fillArrive_serves {s : State} {f : Fill} {bs : List Byte} {i : Nat} {e : DirEntry}
    (copy : (s.hotCopies f.table f.row).find? (fun x => x.1 == f.stack) = some (f.stack, i))
    (entry : s.dirAt f.stack i = some e) (clean : e.refill = false) :
    s.fillArrive f (some bs) =
      ((s.writeCbk (s.td f.table) e.slot bs).dirPut f.stack i { e with filling := false }).fillEnd f true := by
  simp only [State.fillArrive, copy, entry, clean, Bool.not_false, if_true]

/-- A promotion's fill is taken off the list; no command counts it. -/
theorem State.fillEnd_promotion {s : State} {f : Fill} (ok : Bool) (h : f.cmd = none) :
    s.fillEnd f ok = { s with bd := { s.bd with fills := s.bd.fills.filter (· != f) } } := by
  simp only [State.fillEnd, h]

theorem exec_fillRowArrival_serves {s : State} {q : FarReq} {f : Fill} {bs : List Byte} {i : Nat} {e : DirEntry}
    (far : s.aq.far = [q]) (who : q.who = .fill f.stack) (stage : q.stage = .arrived bs) (fills : s.bd.fills = [f])
    (table : f.table = q.table) (row : f.row = q.row) (promotion : f.cmd = none)
    (copy : (s.hotCopies f.table f.row).find? (fun x => x.1 == f.stack) = some (f.stack, i))
    (entry : s.dirAt f.stack i = some e) (clean : e.refill = false) :
    let s1 := { s with aq := { s.aq with far := [] } }
    let s2 := (s1.writeCbk (s1.td f.table) e.slot bs).dirPut f.stack i { e with filling := false }
    exec (.fillRowArrival 0) s = .next { s2 with bd := { s2.bd with fills := s2.bd.fills.filter (· != f) } } := by
  intro s1 s2
  have arrived : s1.fillArrive f (some bs) = s2.fillEnd f true := State.fillArrive_serves copy entry clean
  have mine : [f].find? (fun x => x.table == q.table && x.row == q.row && FarFor.fill f.stack == FarFor.fill x.stack)
      = some f := List.find?_cons_of_pos (by simp [table, row])
  show execFillRowArrival 0 s = _
  simp only [execFillRowArrival, far, nthWhere, who, stage, if_true, List.getElem?_cons_zero, List.eraseIdx_cons_zero, fills,
    mine]
  rw [← State.fillEnd_promotion true promotion, ← arrived]

/-- Settles O15: a lemma for each command and event. -/
theorem heatAndFills : Obligations.HeatAndFills := by
  unfold Obligations.HeatAndFills
  refine ⟨fun s c => exec_heatOn_room, fun s c => exec_heatOn_full, fun s c => exec_heatOff,
    fun s c h => ⟨exec_heatOn_otherPlanner h, exec_heatOff_otherPlanner h⟩,
    fun s c out hm count hr hb => (exec_heatRead_one out hm count hr hb).trans ?_,
    fun s n t r k => exec_heatSample_counts, fun s => exec_decayTick_due, fun s => exec_decayTick_early,
    fun s q f bs i e => exec_fillRowArrival_serves⟩
  rfl

end Sys2Proof.Machine
end

section
/-! SUPPORT. The path of a row through a lookup (R228, R302–R305, R327–R340): a request at its stack, its arrival at a
lookup unit, a list's late time, the dispatcher's next bag, and a partial at its merge engine. -/
namespace Sys2Proof.Machine
open Sys2Proof

/-! ### STACK_ROW_REQUEST (R228) -/

section request
/-! The only row request waits at stack `st`, whose die runs. -/

variable {s : State} {st : Fin 12} {q : RowReq} (only : s.lk.rows = [q]) (stage : q.stage = .stack st.val)
  (running : s.rst.dieRst = [])
include only stage running

theorem first_request_at_stack :
    (s.lk.rows.filter fun q => q.stage == .stack st.val && !s.rst.dieRst.contains (stackDie st.val))[0]? = some q := by
  simp [only, stage, running]

theorem exec_stackRowRequest_home (route : q.route = .home) :
    exec (.stackRowRequest st 0) s = .next (s.rowRead q st.val (s.rowDA (s.td q.table) q.row)) := by
  show execStackRowRequest st 0 s = _
  simp only [execStackRowRequest, first_request_at_stack only stage running, route]

theorem exec_stackRowRequest_fountain (route : q.route = .fountain) :
    exec (.stackRowRequest st 0) s = .next (State.fountainRow q st.val (s.dirProbe st.val q.table q.row none)) := by
  show execStackRowRequest st 0 s = _
  simp only [execStackRowRequest, first_request_at_stack only stage running, route]

variable (route : q.route = .hot) (on : s.bd.en = true)
include route on

/-- A hot request at the stack that holds its bucket probes the bucket's frame there. -/
theorem exec_stackRowRequest_holder (here : (s.bucket (bucketOf q.table q.row)).stack.toNat = st.val)
    (still : (s.bucket (bucketOf q.table q.row)).mig = false) :
    exec (.stackRowRequest st 0) s = .next (State.hotRow q st.val (s.bucket (bucketOf q.table q.row)).frame.toNat
      (s.td q.table) (s.dirProbe st.val q.table q.row (some (s.bucket (bucketOf q.table q.row)).frame.toNat))) := by
  show execStackRowRequest st 0 s = _
  simp only [execStackRowRequest, first_request_at_stack only stage running, route, on, here, still, Bool.not_true,
    Bool.false_eq_true, false_and, ne_eq, not_true_eq_false, if_false]

theorem exec_stackRowRequest_forward (elsewhere : (s.bucket (bucketOf q.table q.row)).stack.toNat ≠ st.val) :
    exec (.stackRowRequest st 0) s =
      .next (s.forwardTo q (s.bucket (bucketOf q.table q.row)).stack.toNat .hot) := by
  show execStackRowRequest st 0 s = _
  simp only [execStackRowRequest, first_request_at_stack only stage running, route, on, elsewhere.symm, Bool.not_true,
    Bool.false_eq_true, and_false, ne_eq, not_false_eq_true, if_true, if_false]

end request

/-- A read that no bucket's load counts: the route is not hot. -/
theorem State.rowRead_cold {q : RowReq} (s : State) (st da : Nat) (h : q.route ≠ .hot) :
    s.rowRead q st da = (s.countRow st da none).updRow q.rid fun x => { x with stage := .reading st da } := by
  rw [State.rowRead, if_neg (by simpa using h)]

theorem State.rowRead_hot {q : RowReq} (s : State) (st da : Nat) (h : q.route = .hot) :
    s.rowRead q st da = (s.countRow st da (some (bucketOf q.table q.row))).updRow q.rid fun x =>
      { x with stage := .reading st da } := by
  rw [State.rowRead, if_pos (by simpa using h)]

/-- A filled entry is a hit. -/
theorem State.fountainRow_hit {q : RowReq} {e : DirEntry} (st i : Nat) (t : State) (filled : e.filling = false) :
    State.fountainRow q st (some (i, e), t) = t.rowRead q st e.slot := by
  simp only [State.fountainRow, filled, Bool.false_eq_true, if_false]

theorem State.hotRow_hit {q : RowReq} {e : DirEntry} (st frame i : Nat) (d : TD) (t : State) (filled : e.filling = false) :
    State.hotRow q st frame d (some (i, e), t) = t.rowRead q st e.slot := by
  simp only [State.hotRow, filled, Bool.not_false, if_true]

/-- A request is forwarded where the other stack has an entry free (R340), with a partial of its own (NOTES entry 42). -/
theorem State.forwardTo_free {s : State} {q : RowReq} {st : Nat} (rt : RowRoute) (free : s.entriesUsed st < 384) :
    s.forwardTo q st rt = (s.spawnFrag q).updRow q.rid fun x =>
      { x with stage := .stack st, owner := st, route := rt, entry := some st } :=
  if_neg (Nat.not_le.mpr free)

/-! ### LU_ROW_ARRIVAL (R330) -/

section arrival
/-! The only row is being read for a lookup unit of stack `st`, and its list waits for it. -/

variable {s : State} {st : Fin 12} {q : RowReq} {l : LList} {da : Nat} (only : s.lk.rows = [q])
  (stage : q.stage = .reading st.val da) (running : s.rst.dieRst = []) (list : s.list? q.list = some l)
  (waits : q.settled = false)
include only stage running list waits

/-- A mapped slot, read now (NOTES entry 44): what follows depends on its poison. -/
theorem exec_luRowArrival_mapped :
    let d := s.td q.table
    let s1 := s.touch da d.span
    let x := s1.readDA da d.span
    x.unmapped = false → exec (.luRowArrival st 0) s =
      if x.poison then .next ((s1.slotPoisoned st.val q l d da).listTry l.id)
      else .next ((s1.rowArrived q l d (l.rowBytes d x.data)).listTry l.id) := by
  intro d s1 x mapped
  have first : (s.lk.rows.filter fun q => s.rowReady st.val q && !s.rst.dieRst.contains (stackDie st.val))[0]? = some q := by
    simp [only, State.rowReady, stage, running]
  dsimp only [x, s1, d] at mapped ⊢
  show execLuRowArrival st 0 s = _
  simp only [execLuRowArrival, first, stage, list, waits, mapped, Bool.false_eq_true, if_false]

end arrival

theorem State.rowArrived_present {s : State} {q : RowReq} {l : LList} {d : TD} {b : List Byte}
    (present : d.absent b = false) : s.rowArrived q l d b = s.rowPool q l d (some b) := by
  simp only [State.rowArrived, present, Bool.not_false, if_true]

/-- A poisoned home row of a table with LATE_POL 1 is substituted (R203, R305). -/
theorem State.slotPoisoned_home {s : State} {q : RowReq} {l : LList} {d : TD} (st da : Nat) (route : q.route = .home)
    (plain : q.kind2 = false) (late : d.latePol = 1) :
    s.slotPoisoned st q l d da = s.substitute { q with stage := .dispatcher } l d := by
  simp only [State.slotPoisoned, route, State.cannotArrive, plain, late, true_or, Bool.false_eq_true, if_false, if_true]

/-! ### LATE_TIME (R302, R304) -/

theorem exec_lateTime_due {s : State} {l : LList} (only : s.lk.lists = [l]) (deadline : l.deadline ≠ 0)
    (fresh : l.lateDone = false) (due : l.deadline - l.margin ≤ s.time.now) :
    exec (.lateTime 0) s =
      .next (((State.updList s l.id fun x => { x with lateDone := true }).lateRows l.id).listTry l.id) := by
  have first : (s.lk.lists.filter fun l => l.deadline != 0 && !l.lateDone && decide (l.deadline - l.margin ≤ s.time.now))[0]?
      = some l := by
    rw [only, List.filter_cons_of_pos (by simp [deadline, fresh, due])]
    rfl
  show execLateTime 0 s = _
  simp only [execLateTime, first]

theorem exec_lateTime_notDue {s : State} {l : LList} (only : s.lk.lists = [l])
    (early : l.deadline = 0 ∨ l.lateDone = true ∨ s.time.now < l.deadline - l.margin) :
    exec (.lateTime 0) s = .next s := by
  have no : (l.deadline != 0 && !l.lateDone && decide (l.deadline - l.margin ≤ s.time.now)) = false := by
    rcases early with h | h | h
    · simp [h]
    · simp [h]
    · simp [Nat.not_le.mpr h]
  show execLateTime 0 s = _
  simp only [execLateTime, only, List.filter_cons, no, Bool.false_eq_true, if_false, List.filter_nil, List.getElem?_nil]

/-! ### DISPATCHER_BAG (R327, R340) -/

/-- The dispatcher of a cluster notes that it does not stall for credits. -/
def State.unstalled (s : State) (c : Nat) : State :=
  { s with lk := { s.lk with cstall := s.lk.cstall.filter (· != c) } }

@[simp] theorem State.unstalled_rows (s : State) (c : Nat) : (s.unstalled c).lk.rows = s.lk.rows := rfl
@[simp] theorem State.unstalled_openLists (s : State) (c d : Nat) : (s.unstalled c).openLists d = s.openLists d := rfl

theorem State.dispatchSend_idle {s : State} (c : Nat) (idle : s.lk.rows = []) : s.dispatchSend c = s.unstalled c := by
  simp only [State.dispatchSend, idle, List.filter_nil, List.foldl_nil, List.any_nil, Bool.false_eq_true, if_false,
    State.unstalled]

section bag
/-! A dispatcher with no row to send. -/

variable {s : State} (c : Fin 100) (idle : s.lk.rows = [])
include idle

theorem exec_dispatcherBag_noList (noList : s.openLists c.val = []) :
    exec (.dispatcherBag c 0) s = .next (s.unstalled c.val) := by
  show execDispatcherBag c 0 s = _
  simp only [execDispatcherBag, State.dispatchSend_idle c.val idle, State.unstalled_rows, idle, List.any_nil,
    Bool.false_eq_true, if_false, State.unstalled_openLists, noList, List.getElem?_nil]

theorem exec_dispatcherBag_opens (l : LList) (lists : (s.unstalled c.val).openLists c.val = [l])
    (room : (s.unstalled c.val).mergeUsed l.core + l.mergeBytes ((s.unstalled c.val).td l.table) ≤ 262144) :
    let s0 := s.unstalled c.val
    let s1 := { s0 with lk := { s0.lk with mstall := s0.lk.mstall.filter (· != c.val) } }
    exec (.dispatcherBag c 0) s = .next (((s1.bag l).listTry l.id).dispatchSend c.val) := by
  show execDispatcherBag c 0 s = _
  simp only [execDispatcherBag, State.dispatchSend_idle c.val idle, State.unstalled_rows, idle, List.any_nil,
    Bool.false_eq_true, if_false, lists, List.getElem?_cons_zero, Nat.not_lt.mpr room]

end bag

/-! ### PARTIAL_ARRIVAL (R336, R337) -/

theorem exec_partialArrival_absorbed {s : State} {k : Fin 1200} {f : Frag} {l : LList} (only : s.lk.frags = [f])
    (sent : f.sent = true) (list : s.list? f.list = some l) (core : l.core = k.val)
    (noError : s.injFires 7 k.val = false ∨ l.slotted = true) :
    exec (.partialArrival k 0) s = .next ((((State.meshInject { s with lk := { s.lk with frags := [] } } l.cluster).absorb
      l f).bagTry f.list f.bag).listTry f.list) := by
  have list' : State.list? { s with lk := { s.lk with frags := [] } } f.list = some l := list
  have noStrike : (l.live && !l.slotted && State.injFires { s with lk := { s.lk with frags := [] } } 7 k.val) = false := by
    show (l.live && !l.slotted && s.injFires 7 k.val) = false
    rcases noError with h | h
    · rw [h, Bool.and_false]
    · rw [h, Bool.not_true, Bool.and_false, Bool.false_and]
  dsimp only at list' noStrike
  show execPartialArrival k 0 s = _
  simp only [execPartialArrival, only, List.filter_cons, List.filter_nil, sent, list, core, beq_self_eq_true, Bool.and_self,
    if_true, List.getElem?_cons_zero, bne_self_eq_false, Bool.false_eq_true, if_false, list', noStrike]

/-- Settles O19: a lemma for each event of a row, a list, a dispatcher and a partial. -/
theorem lookupPath : Obligations.LookupPath := by
  unfold Obligations.LookupPath
  refine ⟨fun s st q only stage running => ⟨fun route => ?_, fun i e t route probe filled => ?_,
      fun i e t route on here still probe filled => ?_, fun route on elsewhere free => ?_⟩,
    fun s st q l da only stage running list waits => ?_, fun s l => exec_lateTime_due, fun s l => exec_lateTime_notDue,
    fun s c => exec_dispatcherBag_noList c, fun s c l idle => exec_dispatcherBag_opens c idle l,
    fun s k f l => exec_partialArrival_absorbed⟩
  · rw [exec_stackRowRequest_home only stage running route, State.rowRead_cold s _ _ (by rw [route]; decide)]
  · rw [exec_stackRowRequest_fountain only stage running route, probe, State.fountainRow_hit _ _ _ filled,
      State.rowRead_cold t _ _ (by rw [route]; decide)]
  · rw [exec_stackRowRequest_holder only stage running route on here still, probe, State.hotRow_hit _ _ _ _ _ filled,
      State.rowRead_hot t _ _ route]
  · rw [exec_stackRowRequest_forward only stage running route on elsewhere, State.forwardTo_free _ free]
  · intro d s1 x
    refine ⟨fun mapped sound present => ?_, fun mapped poison route plain late => ?_⟩
    · rw [exec_luRowArrival_mapped only stage running list waits mapped, if_neg (Bool.eq_false_iff.mp sound),
        State.rowArrived_present present]
    · rw [exec_luRowArrival_mapped only stage running list waits mapped, if_pos poison,
        State.slotPoisoned_home _ _ route plain late]

end Sys2Proof.Machine
end

section
/-! SUPPORT. What the completion of a command leaves alone, said once for each operation on its way: it changes what a
write by device address and a report may change, the queues, and the models whose digest is broken (R606). -/
namespace Sys2Proof.Machine
open Sys2Proof

/-- A state but for what the completion of a command may change. -/
def State.butDone (s : State) : State :=
  { s.butMem.butReport with queues := State.reset.queues, upd := State.reset.upd }

theorem butDone_of_butMem {s t : State} (h : s.butMem = t.butMem) : s.butDone = t.butDone :=
  congrArg (fun u : State => { u.butReport with queues := State.reset.queues, upd := State.reset.upd }) h

theorem butDone_of_butReport {s t : State} (h : s.butReport = t.butReport) : s.butDone = t.butDone :=
  congrArg (fun u : State => { u.butMem with queues := State.reset.queues, upd := State.reset.upd }) h

theorem butDone_ite {c : Prop} [Decidable c] {a b u : State} (ha : a.butDone = u) (hb : b.butDone = u) :
    (if c then a else b).butDone = u := by split <;> assumption

theorem butDone_updQ (s : State) (q : Nat) (f : Queue → Queue) : (s.updQ q f).butDone = s.butDone := rfl

theorem butDone_emit (s : State) (m : OutMsg) : (s.emit m).butDone = s.butDone := rfl
theorem butDone_withHost (s : State) (h : HostState) : State.butDone { s with host := h } = s.butDone := rfl
theorem butDone_withPl (s : State) (p : PairState) : State.butDone { s with pl := p } = s.butDone := rfl

theorem butDone_breakModel (s : State) (m : Option Nat) : (s.breakModel m).butDone = s.butDone := by
  cases m <;> rfl

/-! ### The bytes of a CQE (R604–R607) -/

theorem butDone_rsvWriteLine (s : State) (m : Option Nat) (da : Nat) (bs : List Byte) :
    (s.rsvWriteLine m da bs).butDone = s.butDone := by
  have written : (s.writeDA da bs).butDone = s.butDone := butDone_of_butMem (butMem_writeDA s da bs false)
  have failed : ((s.hostFault 0 0x1003 (da - rsvBase)).breakModel m).butDone = s.butDone :=
    (butDone_breakModel _ m).trans (butDone_of_butReport (butReport_hostFault s _ _ _ _))
  unfold State.rsvWriteLine
  dsimp only
  split
  · exact butDone_ite (butDone_ite ((butDone_withHost _ _).trans written) failed) ((butDone_withHost _ _).trans written)
  · exact butDone_ite ((butDone_emit _ _).trans ((butDone_withHost _ _).trans written)) failed

theorem butDone_devWriteLine (s : State) (da : Nat) (bs : List Byte) : (s.devWriteLine da bs).butDone = s.butDone := by
  unfold State.devWriteLine
  dsimp only
  exact butDone_ite rfl (butDone_ite (butDone_ite ((butDone_emit _ _).trans (butDone_withHost s _)) (butDone_withHost s _))
    (butDone_ite (butDone_rsvWriteLine s none da bs) (butDone_of_butMem (butMem_writeDA s da bs false))))

theorem butDone_foldl {α : Type} {f : State → α → State} (hf : ∀ st x, (f st x).butDone = st.butDone) (s : State)
    (l : List α) : (l.foldl f s).butDone = s.butDone :=
  List.foldlRecOn (motive := fun t : State => t.butDone = s.butDone) l f rfl fun t kept x _ => (hf t x).trans kept

theorem butDone_devWrite (s : State) (da : Nat) (bs : List Byte) : (s.devWrite da bs).butDone = s.butDone := by
  unfold State.devWrite
  dsimp only
  exact butDone_foldl (fun t p => butDone_devWriteLine t _ _) s _

/-! ### Posting (R573, R639) -/

theorem butDone_queueFault (s : State) (q code : Nat) : (s.queueFault q code).butDone = s.butDone :=
  butDone_of_butReport (butReport_queueFault s q code none)

theorem butDone_coalesce (s : State) (q : Nat) : (s.coalesce q).butDone = s.butDone := by
  unfold State.coalesce State.signalQ
  exact butDone_ite (butDone_ite ((butDone_of_butReport (butReport_msix _ _ _)).trans (butDone_updQ s q _))
    (butDone_updQ s q _)) rfl

theorem butDone_writeCqe (s : State) (q : Nat) (c : Cqe) : (s.writeCqe q c).butDone = s.butDone := by
  unfold State.writeCqe
  dsimp only
  exact butDone_ite ((butDone_coalesce _ q).trans ((butDone_updQ _ q _).trans (butDone_devWrite s _ _)))
    (butDone_ite ((butDone_coalesce _ q).trans ((butDone_updQ _ q _).trans (butDone_emit s _)))
      ((butDone_queueFault _ q _).trans (butDone_updQ s q _)))

theorem butDone_postCqe (s : State) (q : Nat) (c : Cqe) : (s.postCqe q c).butDone = s.butDone := by
  unfold State.postCqe
  exact butDone_ite (butDone_queueFault s q _) (butDone_ite (butDone_updQ s q _) (butDone_writeCqe s q c))

theorem butDone_mirror (s : State) (n : Nat) (it : MirrorItem) : (s.mirror n it).butDone = s.butDone := by
  unfold State.mirror
  dsimp only
  exact butDone_ite (butDone_ite (butDone_withPl s _) rfl)
    (butDone_ite ((butDone_emit _ _).trans (butDone_withPl s _)) rfl)

theorem butDone_mirrorCmd (s : State) (q : Nat) (cid : W16) (code : BitVec 12) (result : W64) (data : List Byte) :
    (s.mirrorCmd q cid code result data).butDone = s.butDone := by
  unfold State.mirrorCmd
  split
  · rfl
  · exact butDone_ite (butDone_mirror s _ _) rfl

theorem butDone_done (s : State) (c : KCmd) (code : BitVec 12) (result : W64) (data : List Byte) :
    (s.done c code result data).butDone = s.butDone := by
  unfold State.done State.complete
  dsimp only
  exact butDone_ite (butDone_withPl s _) (butDone_ite (butDone_emit s _)
    ((butDone_postCqe _ _ _).trans ((butDone_updQ _ _ _).trans (butDone_mirrorCmd s _ _ _ _ _))))

@[simp] theorem State.done_aq (s : State) (c : KCmd) (code : BitVec 12) (result : W64) (data : List Byte) :
    (s.done c code result data).aq = s.aq :=
  (congrArg State.aq (butDone_done s c code result data) :)

end Sys2Proof.Machine
end

section
/-! SUPPORT. Reservoir ranges and far rows (R265, R268, R269, R273, R286): each way in which the two commands end, and what
becomes of the only far request. -/
namespace Sys2Proof.Machine
open Sys2Proof

/-! ### RSV_DECLARE (R269) -/

/-- A range of bytes that overlaps no declared one. -/
def State.rsvApart (s : State) (hpa len : Nat) : Prop :=
  ∀ n < 64, (s.rsvRange n).v = true → (s.rsvRange n).hpa + (s.rsvRange n).len ≤ hpa ∨ hpa + len ≤ (s.rsvRange n).hpa

theorem exec_rsvDeclare_inUse {s : State} {c : KCmd} (h : (s.rsvRange c.a0.toNat).v = true) :
    exec (.rsvDeclare c) s = .next (s.done c stRsvBad) :=
  if_pos (.inr (.inr (.inr (.inr (.inr h)))))

theorem exec_rsvDeclare_free {s : State} {c : KCmd} (aligned : c.a1.toNat % 2097152 = 0) (nonempty : c.a2.toNat ≠ 0)
    (whole : c.a2.toNat % 2097152 = 0) (within : c.a1.toNat + c.a2.toNat ≤ 2 ^ 48)
    (free : (s.rsvRange c.a0.toNat).v = false) (apart : s.rsvApart c.a1.toNat c.a2.toNat) :
    exec (.rsvDeclare c) s = .next (if s.rsvTotal + c.a2.toNat ≤ 2 ^ 44
      then State.done { s with rsv := s.rsv.set c.a0.toNat { v := true, hpa := c.a1.toNat, len := c.a2.toNat } } c stSuccess
      else s.done c stRsvLimit) := by
  refine (if_neg ?_).trans ?_
  · rintro (misaligned | empty | part | past | clash | used)
    · exact misaligned aligned
    · exact nonempty empty
    · exact part whole
    · exact Nat.not_le.mpr past within
    · obtain ⟨n, hn, both⟩ := List.any_eq_true.mp clash
      obtain ⟨declared, overlap⟩ := Bool.and_eq_true_iff.mp both
      have overlap := of_decide_eq_true overlap
      have apart := apart n (List.mem_range.mp hn) declared
      omega
    · exact Bool.false_ne_true (free.symm.trans used)
  by_cases room : s.rsvTotal + c.a2.toNat ≤ 2 ^ 44
  · exact (if_neg (Nat.not_lt.mpr room)).trans (congrArg Host.Outcome.next (if_pos room).symm)
  · exact (if_pos (Nat.lt_of_not_le room)).trans (congrArg Host.Outcome.next (if_neg room).symm)

/-! ### RSV_RELEASE (R269, R605) -/

/-- With no dirty line held, nothing is evicted. -/
theorem State.evictWhere_clean {s : State} (p : Nat → Bool) (clean : ∀ kv ∈ s.host.hlc, kv.2.st ≠ .m) :
    s.evictWhere p = s :=
  List.foldlRecOn (motive := fun t => t = s) s.host.hlc _ rfl fun t same kv mem =>
    (if_neg (by simp [clean kv mem])).trans same

theorem exec_rsvRelease_free {s : State} {c : KCmd} (h : (s.rsvRange c.a0.toNat).v = false) :
    exec (.rsvRelease c) s = .next (s.done c stRsvBad) :=
  if_pos (congrArg not h)

section release
/-! A declared range is released. -/

variable {s : State} {c : KCmd} (declared : (s.rsvRange c.a0.toNat).v = true)
include declared

theorem exec_rsvRelease_inUse (used : s.shardIn 2 (rsvBase + (s.rsvRange c.a0.toNat).hpa)
      (rsvBase + (s.rsvRange c.a0.toNat).hpa + (s.rsvRange c.a0.toNat).len) = true) :
    exec (.rsvRelease c) s = .next (s.done c stRsvInUse) :=
  (if_neg (by simp [declared])).trans (if_pos used)

theorem exec_rsvRelease_unused (unused : s.shardIn 2 (rsvBase + (s.rsvRange c.a0.toNat).hpa)
      (rsvBase + (s.rsvRange c.a0.toNat).hpa + (s.rsvRange c.a0.toNat).len) = false)
    (clean : ∀ kv ∈ s.host.hlc, kv.2.st ≠ .m) :
    exec (.rsvRelease c) s = .next (State.done { s with rsv := s.rsv.set c.a0.toNat {} } c stSuccess) := by
  refine (if_neg (by simp [declared])).trans ((if_neg (Bool.eq_false_iff.mp unused)).trans ?_)
  rw [State.evictWhere_clean _ clean]

end release

/-! ### The only far request (R265, R268, R273, R286) -/

theorem State.setFar_only {s : State} {f : FarReq} (st : FarStage) (only : s.aq.far = [f]) :
    s.setFar 0 st = { s with aq := { s.aq with far := [{ f with stage := st }] } } := by
  simp only [State.setFar, only, List.zipIdx_cons, List.zipIdx_nil, List.map_cons, List.map_nil, if_true]

section only
variable {s : State} {f : FarReq} (only : s.aq.far = [f])
include only

/-- A response ends the read: with a good one the row's bytes have arrived, and any other fails the request on record. -/
theorem exec_reservoirReadResponse_only {da : Nat} (stage : f.stage = .reservoir da) (o : Fin 3) :
    exec (.reservoirReadResponse 0 o) s = .next (if o.val = 0
      then s.setFar 0 (.arrived (cellsRead s.mem.cells da (s.td f.table).span))
      else (s.setFar 0 .failed).fault { mkFault 5 0 0x0801 with akind := 1, addr := da }) := by
  obtain ⟨t, r, w, st⟩ := f
  subst stage
  show execReservoirReadResponse 0 o s = _
  simp only [execReservoirReadResponse, only, nthWhere, if_true, List.getElem?_cons_zero]
  exact (apply_ite Host.Outcome.next _ _ _).symm

variable (stage : f.stage = .queued) (aquifer : (s.td f.table).tier ≠ 2)
include stage aquifer

theorem exec_farRowRequest_unmounted (unmounted : s.aq.mounted = false) :
    exec (.farRowRequest 0) s = .next (s.setFar 0 .failed) := by
  show execFarRowRequest 0 s = _
  simp only [execFarRowRequest, only, nthWhere, stage, beq_self_eq_true, if_true, List.getElem?_cons_zero, aquifer,
    if_false, unmounted, Bool.not_false]

/-- A row whose newest version lies in a tail is served from there. -/
theorem exec_farRowRequest_tail {i o : Nat} {e : LogEntry} {l : LogRec} (mounted : s.aq.mounted = true)
    (entry : s.lidxFind f.table f.row = some (i, e)) (place : e.place = .tail o)
    (record : ((s.aqTail o).recs.find? fun x => x.seq == e.seq) = some l) :
    exec (.farRowRequest 0) s = .next (s.setFar 0 (.arrived l.bytes)) := by
  have newest : s.logRec e = some l := by simpa only [State.logRec, place] using record
  show execFarRowRequest 0 s = _
  simp only [execFarRowRequest, only, nthWhere, stage, beq_self_eq_true, if_true, List.getElem?_cons_zero, aquifer,
    if_false, mounted, Bool.not_true, Bool.false_eq_true, entry, place, newest]

end only

/-- Settles O16: a lemma for each way in which a command ends, and for each end of a far request. -/
theorem reservoirAndFarRows : Obligations.ReservoirAndFarRows := by
  unfold Obligations.ReservoirAndFarRows
  refine ⟨fun s c => exec_rsvDeclare_free, fun s c => exec_rsvDeclare_inUse, fun s c => exec_rsvRelease_free,
    fun s c => exec_rsvRelease_inUse, fun s c => exec_rsvRelease_unused, fun s t r w da only => ⟨?_, fun o bad => ?_⟩,
    fun s t r w only aquifer unmounted => ?_, fun s t r i o w e l only aquifer mounted entry place record => ?_⟩
  · rw [exec_reservoirReadResponse_only only rfl, if_pos (show (0 : Fin 3).val = 0 from rfl), State.setFar_only _ only]
  · have notGood : o.val ≠ 0 := fun good => bad (Fin.ext good)
    rw [exec_reservoirReadResponse_only only rfl, if_neg notGood, State.setFar_only _ only]
  · rw [exec_farRowRequest_unmounted only rfl aquifer unmounted, State.setFar_only _ only]
  · rw [exec_farRowRequest_tail only rfl aquifer mounted entry place record, State.setFar_only _ only]

end Sys2Proof.Machine
end

section
/-! SUPPORT. Aquifer sets and extents (R280–R284, R296, R301): what labels and settling leave alone, and each way in which
the sets' and extents' commands end. -/
namespace Sys2Proof.Machine
open Sys2Proof

/-! ### What labels, settling and completions leave alone -/

@[simp] theorem State.aqSlot_done (s : State) (c : KCmd) (code : BitVec 12) (result : W64) (data : List Byte) (n : Nat) :
    (s.done c code result data).aqSlot n = s.aqSlot n :=
  congrArg (fun a : Aquifer => SMap.get ({} : AqSlot) a.slots n) (s.done_aq c code result data)

@[simp] theorem State.drive_done (s : State) (c : KCmd) (code : BitVec 12) (result : W64) (data : List Byte) (n : Nat) :
    (s.done c code result data).drive n = s.drive n :=
  congrArg (fun a : Aquifer => SMap.get ({} : Drive) a.drives n) (s.done_aq c code result data)

/-- Labels are written to the drives alone. -/
theorem State.writeLabels_shape (s : State) :
    ∃ drives, s.writeLabels = { s with aq := { s.aq with drives := drives } } := by
  refine List.foldlRecOn (motive := fun t : State => ∃ drives, t = { s with aq := { s.aq with drives := drives } }) _ _
    ⟨s.aq.drives, rfl⟩ fun t kept o _ => ?_
  obtain ⟨drives, rfl⟩ := kept
  dsimp only
  split
  · exact ⟨drives, rfl⟩
  · exact ⟨_, rfl⟩

@[simp] theorem State.aqSlot_writeLabels (s : State) (n : Nat) : s.writeLabels.aqSlot n = s.aqSlot n := by
  obtain ⟨_, h⟩ := s.writeLabels_shape; rw [h]; rfl
@[simp] theorem State.writeLabels_setId (s : State) : s.writeLabels.aq.setId = s.aq.setId := by
  obtain ⟨_, h⟩ := s.writeLabels_shape; rw [h]
@[simp] theorem State.writeLabels_gen (s : State) : s.writeLabels.aq.gen = s.aq.gen := by
  obtain ⟨_, h⟩ := s.writeLabels_shape; rw [h]
@[simp] theorem State.writeLabels_synced (s : State) : s.writeLabels.aq.synced = s.aq.synced := by
  obtain ⟨_, h⟩ := s.writeLabels_shape; rw [h]

/-- Settling moves AQ_STS.SET and the states of the extents, and nothing else. -/
theorem State.aqSettle_shape (s : State) :
    ∃ set exts, s.aqSettle = { s with aq := { s.aq with set := set, exts := exts } } := by
  unfold State.aqSettle
  split
  · exact ⟨_, _, rfl⟩
  · exact ⟨s.aq.set, s.aq.exts, rfl⟩

@[simp] theorem State.aqSlot_aqSettle (s : State) (n : Nat) : s.aqSettle.aqSlot n = s.aqSlot n := by
  obtain ⟨_, _, h⟩ := s.aqSettle_shape; rw [h]; rfl
@[simp] theorem State.aqSettle_setId (s : State) : s.aqSettle.aq.setId = s.aq.setId := by
  obtain ⟨_, _, h⟩ := s.aqSettle_shape; rw [h]

/-- A drive takes a label; its log and home area are empty. -/
def State.putLabel (s : State) (n : Nat) (l : AqLabel) : State :=
  s.updDrive n fun d => { d with label := some l, segs := [], home := [] }

@[simp] theorem State.drive_putLabel (s : State) (n : Nat) (l : AqLabel) :
    (s.putLabel n l).drive n = { s.drive n with label := some l, segs := [], home := [] } := s.drive_updDrive n _

/-- A drive of a new set: labelled and IDENT. -/
def State.formatted (s : State) (n : Nat) (l : AqLabel) : State :=
  ((s.putLabel n l).updAqSlot n fun a => { a with st := .ident }).emit (.nvme n "Format NVM" 0 0)

@[simp] theorem State.aqSlot_formatted (s : State) (n : Nat) (l : AqLabel) :
    (s.formatted n l).aqSlot n = { s.aqSlot n with st := .ident } :=
  (s.putLabel n l).aqSlot_updAqSlot n fun a => { a with st := .ident }
@[simp] theorem State.drive_formatted (s : State) (n : Nat) (l : AqLabel) :
    (s.formatted n l).drive n = { s.drive n with label := some l, segs := [], home := [] } := s.drive_putLabel n l

/-! ### A set that is mounted, or not (R301) -/

theorem exec_aqFormat_mounted {s : State} {c : KCmd} (h : s.aq.mounted = true) :
    exec (.aqFormat c) s = .next (s.done c stAqState) :=
  if_pos (by rw [h, Bool.true_or])

theorem exec_aqMount_mounted {s : State} {c : KCmd} (f : Byte) (h : s.aq.mounted = true) :
    exec (.aqMount c f) s = .next (s.done c stAqState) :=
  if_pos (by rw [h, Bool.true_or])

theorem exec_aqSync_unmounted {s : State} {c : KCmd} (h : s.aq.mounted = false) :
    exec (.aqSync c) s = .next (s.done c stAqState) := if_pos (congrArg not h)
theorem exec_aqExtCreate_unmounted {s : State} {c : KCmd} (h : s.aq.mounted = false) :
    exec (.aqExtCreate c) s = .next (s.done c stAqState) := if_pos (congrArg not h)
theorem exec_aqExtFree_unmounted {s : State} {c : KCmd} (h : s.aq.mounted = false) :
    exec (.aqExtFree c) s = .next (s.done c stAqState) := if_pos (congrArg not h)
theorem exec_aqAdopt_unmounted {s : State} {c : KCmd} (h : s.aq.mounted = false) :
    exec (.aqAdopt c) s = .next (s.done c stAqState) := if_pos (congrArg not h)

theorem Aquifer.not_unmounted {a : Aquifer} (h : a.mounted = true) : ¬ (!a.mounted) = true := by rw [h]; decide

/-! ### AQ_FORMAT and AQ_MOUNT (R280–R282) -/

section idle
/-! No set is mounted or being mounted. -/

variable {s : State} {c : KCmd} (unmounted : s.aq.mounted = false) (idle : s.aq.set ≠ 1)
include unmounted idle

theorem State.aqIdle : ¬ (s.aq.mounted || s.aq.set == 1) = true := by
  rwa [unmounted, Bool.false_or, beq_iff_eq]

theorem exec_aqFormat_noSlot (noSlot : slotsOf c.a0.toNat = []) :
    exec (.aqFormat c) s = .next (s.done c stAqBad) :=
  (if_neg (State.aqIdle unmounted idle)).trans (if_pos (by rw [noSlot]; rfl))

/-- One drive that may be formatted is the set's only member; the set's identifier and its first generation are drawn. -/
theorem exec_aqFormat_one {n : Nat} (slots : slotsOf c.a0.toNat = [n]) (mask : c.a0.toNat < 256)
    (blank : (s.aqSlot n).st = .blank) (least : 1 ≤ c.a1.toNat) (most : c.a1.toNat ≤ 50) :
    exec (.aqFormat c) s = .next (State.done (((s.drawFree 64).2.drawFree 32).2.formatted n {
      setId := (s.drawFree 64).1, ordinal := 0, gen := ((s.drawFree 64).2.drawFree 32).1, members := 1
      logSegs := (s.drive n).lbas * c.a1.toNat / 100 / segPages }) c stSuccess) := by
  refine (if_neg (State.aqIdle unmounted idle)).trans ((if_neg ?_).trans ?_)
  · rw [slots]
    simp [blank, Nat.not_le.mpr mask, Nat.not_lt.mpr most, Nat.ne_of_gt least]
  · rw [slots]
    rfl

/-- Without a label there is no candidate, whatever the places of the tails and the log index. -/
theorem exec_aqMount_unlabelled (f : Byte) (unlabelled : ∀ n < 8, (s.drive n).label = none) :
    exec (.aqMount c f) s = .next (s.mountFail c stAqBad) := by
  refine (if_neg (State.aqIdle unmounted idle)).trans ((ite_congr rfl (fun _ => rfl) fun _ => ?_).trans (ite_self _))
  have noCandidate : ((List.range 8).filter fun n =>
      ((s.aqSlot n).st == .ident || (s.aqSlot n).st == .stale || (s.aqSlot n).st == .foreign)
        && (s.drive n).label.isSome) = [] :=
    List.filter_eq_nil_iff.mpr fun n hn => by simp [unlabelled n (List.mem_range.mp hn)]
  rw [noCandidate]

end idle

/-! ### AQ_SYNC (R296) -/

theorem State.tailWrite_empty {s : State} {o : Nat} (h : (s.aqTail o).recs = []) : s.tailWrite o = (true, s) := by
  simp only [State.tailWrite, h, List.isEmpty_nil, if_true]

theorem State.tailsOut_empty {s : State} (h : ∀ o < 8, (s.aqTail o).recs = []) : s.tailsOut = (true, s) :=
  List.foldlRecOn (motive := fun x : Bool × State => x = (true, s)) _ _ rfl fun x same o ho => by
    rw [same]
    dsimp only
    rw [State.tailWrite_empty (h o (List.mem_range.mp ho)), Bool.true_and]

theorem exec_aqSync_empty {s : State} {c : KCmd} (mounted : s.aq.mounted = true) (empty : ∀ o < 8, (s.aqTail o).recs = []) :
    exec (.aqSync c) s = .next (s.syncMark.done c stSuccess) := by
  show execAqSync c s = _
  simp only [execAqSync, mounted, State.tailsOut_empty empty, Bool.not_true, Bool.false_eq_true, if_false]

/-- Steps that each leave the aquifer's state alone leave it alone together. -/
theorem State.foldl_aq {α : Type} {f : State → α → State} (hf : ∀ st x, (f st x).aq = st.aq) (s : State) (l : List α) :
    (l.foldl f s).aq = s.aq :=
  List.foldlRecOn (motive := fun t : State => t.aq = s.aq) l f rfl fun t kept x _ => (hf t x).trans kept

/-- The flushes of a sync mark change no part of the aquifer's state. -/
theorem State.syncMark_aq (s : State) : s.syncMark.aq =
    (State.writeLabels { s with aq := { s.aq with gen := s.aq.gen + 1, synced := s.aq.useq } }).aq := by
  unfold State.syncMark
  refine State.foldl_aq (fun t o => ?_) _ _
  split
  · rfl
  · rfl

/-! ### Extents (R283, R284) -/

theorem exec_aqExtCreate_room {s : State} {c : KCmd} {lba : Nat} (mounted : s.aq.mounted = true)
    (free : (s.aqExt c.a0.toNat).st = 0) (mask : c.a1.toNat < 256) (members : maskBits (BitVec.ofNat 8 c.a1.toNat) ≠ [])
    (least : 1 ≤ c.a2.toNat) (most : c.a2.toNat ≤ 4) (pages : c.a3.toNat ≠ 0)
    (present : ∀ o ∈ maskBits (BitVec.ofNat 8 c.a1.toNat), ∃ n, s.memberSlot o = some n ∧ c.a2.toNat ≤ (s.drive n).awun)
    (room : s.findLbas (BitVec.ofNat 8 c.a1.toNat)
      ((c.a3.toNat + (maskBits (BitVec.ofNat 8 c.a1.toNat)).length - 1) / (maskBits (BitVec.ofNat 8 c.a1.toNat)).length
        * c.a2.toNat) = some lba) :
    exec (.aqExtCreate c) s = .next ((State.writeLabels { s with aq := { s.aq with
      exts := s.aq.exts.set c.a0.toNat
        { st := 1, mask := BitVec.ofNat 8 c.a1.toNat, pgn := c.a2.toNat, gen := (s.aqExt c.a0.toNat).gen + 1
          pages := c.a3.toNat, homeLba := lba } } }).done c stSuccess
      (BitVec.ofNat 64 (((s.aqExt c.a0.toNat).gen + 1).toNat * 2 ^ 32 + c.a0.toNat))) := by
  refine (if_neg (Aquifer.not_unmounted mounted)).trans ((if_neg ?_).trans ?_)
  · rintro (used | none | wide | low | high | zero | absent)
    · exact used free
    · exact members none
    · exact Nat.not_le.mpr mask wide
    · exact Nat.not_le.mpr low least
    · exact Nat.not_le.mpr high most
    · exact pages zero
    · obtain ⟨o, ho, bad⟩ := List.any_eq_true.mp absent
      obtain ⟨n, slot, enough⟩ := present o ho
      simp only [slot, decide_eq_true_eq] at bad
      exact Nat.not_le.mpr bad enough
  · split
    next full => exact absurd (room.symm.trans full) nofun
    next found =>
      cases Option.some.inj (room.symm.trans found)
      rfl

theorem exec_aqExtFree_held {s : State} {c : KCmd} (mounted : s.aq.mounted = true)
    (made : (s.aqExt (c.a0.toNat % 4096)).st ≠ 0)
    (handle : c.a0.toNat = (s.aqExt (c.a0.toNat % 4096)).gen.toNat * 2 ^ 32 + c.a0.toNat % 4096) :
    exec (.aqExtFree c) s = .next (if s.extInUse c.a0.toNat then s.done c stAqInUse
      else (State.writeLabels { s with aq := { s.aq with
        exts := s.aq.exts.set (c.a0.toNat % 4096) { s.aqExt (c.a0.toNat % 4096) with st := 0, lost := 0 } } }).done
          c stSuccess) :=
  (if_neg (Aquifer.not_unmounted mounted)).trans ((if_neg fun bad => bad.elim made (absurd handle)).trans
    (apply_ite Host.Outcome.next _ _ _).symm)

/-! ### AQ_ADOPT (R300) -/

/-- A drive joins the set under a lost ordinal, and the extents' records follow. -/
def State.adopted (s : State) (n o : Nat) (l : AqLabel) (exts : SMap AqExt) : State :=
  let s1 := (s.putLabel n l).updAqSlot n fun a => { a with st := .member, ordinal := BitVec.ofNat 3 o }
  { s1 with aq := { s1.aq with exts := exts } }

@[simp] theorem State.aqSlot_adopted (s : State) (n o : Nat) (l : AqLabel) (exts : SMap AqExt) :
    (s.adopted n o l exts).aqSlot n = { s.aqSlot n with st := .member, ordinal := BitVec.ofNat 3 o } :=
  (s.putLabel n l).aqSlot_updAqSlot n fun a => { a with st := .member, ordinal := BitVec.ofNat 3 o }
@[simp] theorem State.adopted_setId (s : State) (n o : Nat) (l : AqLabel) (exts : SMap AqExt) :
    (s.adopted n o l exts).aq.setId = s.aq.setId := rfl

theorem exec_aqAdopt_blank {s : State} {c : KCmd} (mounted : s.aq.mounted = true)
    (blank : (s.aqSlot c.a0.toNat).st = .blank) (member : s.aq.members.getLsbD c.a1.toNat = true) (lost : s.memberSlot c.a1.toNat = none) :
    ∃ l exts, exec (.aqAdopt c) s =
      .next ((s.adopted c.a0.toNat c.a1.toNat l exts).aqSettle.writeLabels.done c stSuccess) :=
  ⟨_, _, (if_neg (Aquifer.not_unmounted mounted)).trans (if_neg (by simp [blank, member, lost]))⟩

/-- Settles O17: a lemma for each way in which a command ends; what a drive, a slot and the set read as then by what
labels, settling and completions leave alone. -/
theorem aquiferSets : Obligations.AquiferSets := by
  unfold Obligations.AquiferSets
  refine ⟨fun s c => exec_aqFormat_mounted, fun s c => exec_aqFormat_noSlot, ?_,
    fun s c f unmounted idle => exec_aqMount_unlabelled unmounted idle f, fun s c f => exec_aqMount_mounted f,
    fun s c h => ⟨exec_aqSync_unmounted h, exec_aqExtCreate_unmounted h, exec_aqExtFree_unmounted h,
      exec_aqAdopt_unmounted h⟩,
    fun s c mounted empty => ⟨exec_aqSync_empty mounted empty, ?_, ?_⟩, fun s c lba => exec_aqExtCreate_room,
    fun s c => exec_aqExtFree_held, ?_⟩
  · intro s c n unmounted idle slots mask blank least most
    exact ⟨_, (s.drawFree 64).1, ((s.drawFree 64).2.drawFree 32).1,
      exec_aqFormat_one unmounted idle slots mask blank least most, by simp⟩
  · rw [State.syncMark_aq, State.writeLabels_gen]
  · rw [State.syncMark_aq, State.writeLabels_synced]
  · intro s c mounted blank member lost
    obtain ⟨l, exts, h⟩ := exec_aqAdopt_blank mounted blank member lost
    exact ⟨_, h, by simp⟩

end Sys2Proof.Machine
end

section
/-! SUPPORT. Drives, their I/Os, tails and compaction (R279, R281, R291–R294, R300): each way in which a drive's events and
an NVMe I/O's end. -/
namespace Sys2Proof.Machine
open Sys2Proof

/-! ### AQ_SLOT_OFF (R300) -/

theorem exec_aqSlotOff_empty {s : State} {c : KCmd} (h : (s.aqSlot c.a0.toNat).st = .empty) :
    exec (.aqSlotOff c) s = .next (s.done c stAqBad) :=
  if_pos (by rw [h]; rfl)

/-- A slot that is no member has no tail to write. -/
theorem exec_aqSlotOff_blank {s : State} {c : KCmd} (blank : (s.aqSlot c.a0.toNat).st = .blank)
    (quiet : ∀ x ∈ s.aq.ios, x.slot ≠ c.a0.toNat) :
    exec (.aqSlotOff c) s = .next (((s.updAqSlot c.a0.toNat fun a =>
      { a with st := .safe, speed := 0, width := 0 }).aqSettle.emit (.nvme c.a0.toNat "Shutdown" 0 0)).done
        c stSuccess) := by
  have noIo : (s.aq.ios.any fun x => x.slot == c.a0.toNat) = false := by simpa using quiet
  show execAqSlotOff c s = _
  simp only [execAqSlotOff, blank, noIo, show (AqSlotState.blank == .empty || AqSlotState.blank == .safe) = false from rfl,
    show (AqSlotState.blank == .member) = false from rfl, Bool.not_true, Bool.false_eq_true, if_false]

/-! ### NVMe I/Os (R279) -/

section io
variable {s : State} {io : AqIo} {n : Nat} (nth : s.aq.ios[n]? = some io)
include nth

theorem exec_nvmeCompletion_good : exec (.nvmeCompletion n 0) s = .next (s.ioEnd io (s.flashBytes io.slot io.op)) := by
  show execNvmeCompletion n 0 s = _
  simp only [execNvmeCompletion, nth, if_true]

/-- An Unrecovered Read Error is not retried (NOTES entry 32). -/
theorem exec_nvmeCompletion_unrecovered : exec (.nvmeCompletion n 0x281) s =
    .next ((s.aqFault io.slot 0x0901 2 io.lba 1 0x281).ioEnd io fun _ => .failed) := by
  show execNvmeCompletion n 0x281 s = _
  simp only [execNvmeCompletion, nth]
  exact (if_neg (by decide)).trans (if_neg fun other => other.1 rfl)

theorem exec_nvmeCompletion_retried {st : W16} (error : st ≠ 0) (other : st ≠ 0x281) (first : io.retried = false) :
    let s1 := s.aqFault io.slot 0x0901 2 io.lba 1 st.toNat
    exec (.nvmeCompletion n st) s = .next (State.emit { s1 with aq := { s1.aq with
      ios := s1.aq.ios.map fun (x : AqIo) => if x.id = io.id
        then { io with retried := true, issued := s.time.now, aborted := false } else x } }
      (.nvme io.slot "Read" io.lba 1)) := by
  intro s1
  show execNvmeCompletion n st s = _
  simp only [execNvmeCompletion, nth]
  exact (if_neg error).trans (if_pos ⟨fun same => other (BitVec.eq_of_toNat_eq same), first⟩)

theorem exec_nvmeIoTimeout_due (live : io.aborted = false)
    (due : s.elapsed io.issued (max 1 s.aq.ioTmo.toNat * 1000000) = true) :
    let s1 := { s with aq := { s.aq with
      ios := s.aq.ios.map fun (x : AqIo) => if x.id = io.id then { x with aborted := true } else x } }
    exec (.nvmeIoTimeout n) s = .next ((s1.aqFault io.slot 0x0901 8 io.lba 1).emit (.nvme io.slot "Abort" io.lba 1)) := by
  intro s1
  have goes : ¬ (io.aborted || !s.elapsed io.issued s.aq.ioNs) = true := by
    rw [live, show s.elapsed io.issued s.aq.ioNs = true from due]; decide
  show execNvmeIoTimeout n s = _
  simp only [execNvmeIoTimeout, nth]
  exact if_neg goes

theorem exec_nvmeIoTimeout_early (early : s.elapsed io.issued (max 1 s.aq.ioTmo.toNat * 1000000) = false) :
    exec (.nvmeIoTimeout n) s = .next s := by
  have waits : (io.aborted || !s.elapsed io.issued s.aq.ioNs) = true := by
    rw [show s.elapsed io.issued s.aq.ioNs = false from early, Bool.not_false, Bool.or_true]
  show execNvmeIoTimeout n s = _
  simp only [execNvmeIoTimeout, nth]
  exact if_pos waits

end io

theorem exec_nvmeControllerReset_only {s : State} {n : Fin 8} {io : AqIo} (only : s.aq.ios = [io]) (slot : io.slot = n.val)
    (due : s.elapsed io.issued (2 * (max 1 s.aq.ioTmo.toNat * 1000000)) = true) :
    exec (.nvmeControllerReset n) s = .next (((s.ioEnd io fun _ => .failed).aqFault n.val 0x0901 2 io.lba 1).emit
      (.nvme n.val "ControllerReset" 0 0)) := by
  have mine : (io.slot == n.val) = true := by rw [slot, beq_self_eq_true]
  have late : (io.slot == n.val && s.elapsed io.issued (2 * s.aq.ioNs)) = true := by
    rw [mine, show s.elapsed io.issued (2 * s.aq.ioNs) = true from due, Bool.and_self]
  have ofSlot : ([io].filter fun x => x.slot == n.val) = [io] := List.filter_cons_of_pos mine
  have fails : s.slotIosFail n.val = s.ioEnd io fun _ => .failed := by
    simp only [State.slotIosFail, only, ofSlot, List.foldl_cons, List.foldl_nil]
  have found : (s.aq.ios.find? fun x => x.slot == n.val && s.elapsed x.issued (2 * s.aq.ioNs)) = some io := by
    rw [only]; exact List.find?_cons_of_pos late
  show execNvmeControllerReset n s = _
  simp only [execNvmeControllerReset, found, fails]

/-! ### Insertion, identification and removal (R281, R300) -/

/-- A drive is in a slot, and off the shelf. -/
def State.seatDrive (s : State) (n serial : Nat) (d : Drive) : State :=
  let s1 := s.updDrive n fun _ => d
  { s1 with aq := { s1.aq with shelf := s1.aq.shelf.del serial } }

@[simp] theorem State.aqSlot_irqIf (s : State) (was : Bool) (bit n : Nat) : (s.irqIf was bit).aqSlot n = s.aqSlot n :=
  (congrArg (State.aqSlot · n) (butReport_irqIf s was bit) :)
@[simp] theorem State.drive_irqIf (s : State) (was : Bool) (bit n : Nat) : (s.irqIf was bit).drive n = s.drive n :=
  (congrArg (State.drive · n) (butReport_irqIf s was bit) :)
@[simp] theorem State.drive_updAqSlot (s : State) (n : Nat) (f : AqSlot → AqSlot) (k : Nat) :
    (s.updAqSlot n f).drive k = s.drive k := rfl
@[simp] theorem State.drive_seatDrive (s : State) (n serial : Nat) (d : Drive) : (s.seatDrive n serial d).drive n = d :=
  s.drive_updDrive n fun _ => d

theorem exec_aqDriveInsert_new {s : State} {n : Fin 8} {ser : Nat} (lbas : BitVec 48) (awun : BitVec 8)
    (fitted : s.slotExists n.val = true) (empty : (s.aqSlot n.val).st = .empty) (noDrive : s.aq.drives.find n.val = none)
    (new : s.aq.shelf.find ser = none) (power : s.rails.pser = true) (runs : s.hubRuns = true) :
    exec (.aqDriveInsert n ser lbas awun) s =
      .next (((s.seatDrive n.val ser { serial := ser, lbas := lbas.toNat, awun := awun.toNat }).updAqSlot n.val fun a =>
        { a with st := .training, prsnt := true, pdc := true, retrained := false }).irqIf (s.aqSlot n.val).pdc 6) := by
  have vacant : (s.slotExists n.val && (s.aqSlot n.val).st == .empty && (s.aq.drives.find n.val).isNone) = true := by
    rw [fitted, empty, noDrive]; rfl
  show execAqDriveInsert n ser lbas awun s = _
  refine (if_pos vacant).trans ?_
  rw [new, power, runs]
  rfl

theorem exec_aqDriveIdentified_unlabelled {s : State} {n : Fin 8} (sp : BitVec 2) (w : BitVec 5) (ok : Bool)
    (training : (s.aqSlot n.val).st = .training) (unlabelled : (s.drive n.val).label = none) :
    exec (.aqDriveIdentified n sp w ok) s = .next ((s.updAqSlot n.val fun a => { a with speed := sp, width := w }).updAqSlot
      n.val fun a => { a with st := if ok = false ∨ (s.drive n.val).awun = 0 then .unsupported else .blank }) := by
  have trains : ((s.aqSlot n.val).st == .training) = true := by rw [training]; rfl
  refine (if_pos trains).trans ?_
  by_cases unfit : ok = false ∨ (s.drive n.val).awun = 0
  · rw [if_pos unfit]
    exact if_pos (by simpa using unfit)
  · rw [if_neg unfit, unlabelled]
    exact if_neg (by simpa using unfit)

theorem exec_aqDriveRemoveSafe_safe {s : State} {n : Fin 8} (h : (s.aqSlot n.val).st = .safe) :
    exec (.aqDriveRemoveSafe n) s =
      .next ((State.updAqSlot { s with aq := { s.aq with
          drives := s.aq.drives.del n.val, shelf := s.aq.shelf.set (s.drive n.val).serial (s.drive n.val) } } n.val
        fun a => { a with st := .empty, prsnt := false, pdc := true, ordinal := 0 }).irqIf (s.aqSlot n.val).pdc 6) :=
  if_pos (by rw [h]; rfl)

theorem exec_aqSurpriseRemoval_safe {s : State} {n : Fin 8} (b : Bool) (h : (s.aqSlot n.val).st = .safe) :
    exec (.aqSurpriseRemoval n b) s = .next s :=
  if_pos (by rw [h]; rfl)

theorem exec_aqSurpriseRemoval_occupied {s : State} {n : Fin 8} (b : Bool) (notSafe : (s.aqSlot n.val).st ≠ .safe)
    (notEmpty : (s.aqSlot n.val).st ≠ .empty) : exec (.aqSurpriseRemoval n b) s = .next (s.driveLost n.val b) :=
  (if_neg (by simpa using notSafe)).trans (if_pos (by simpa using notEmpty))

theorem exec_aqLinkLoss_down {s : State} {n : Fin 8} (b : Bool) (h : (s.aqSlot n.val).speed = 0) :
    exec (.aqLinkLoss n b) s = .next s := if_pos h

theorem exec_aqLinkLoss_lost {s : State} {n : Fin 8} (h : (s.aqSlot n.val).speed ≠ 0) :
    exec (.aqLinkLoss n false) s = .next (s.driveLost n.val true) :=
  (if_neg h).trans (if_neg Bool.false_ne_true)

/-! ### Tails (R291) -/

section tail
variable {s : State} {o : Fin 8} (mounted : s.aq.mounted = true)
include mounted

theorem exec_tailWrite_full (full : (s.aqTail o.val).full = true) :
    exec (.tailWrite o) s = .next (s.tailWrite o.val).2 :=
  if_pos (by rw [mounted, full]; rfl)

theorem exec_tailTimerExpiry_due (held : (s.aqTail o.val).recs ≠ [])
    (due : s.elapsed (s.aqTail o.val).first (s.aq.tailUs.toNat * 1000) = true) :
    exec (.tailTimerExpiry o) s = .next (s.tailWrite o.val).2 :=
  if_pos (by rw [mounted, due]; simpa using held)

end tail

theorem exec_tailTimerExpiry_early {s : State} {o : Fin 8}
    (early : s.elapsed (s.aqTail o.val).first (s.aq.tailUs.toNat * 1000) = false) :
    exec (.tailTimerExpiry o) s = .next s :=
  if_neg (by rw [early, Bool.and_false]; decide)

/-! ### Compaction (R293) -/

theorem exec_compaction_absent {s : State} {o : Fin 8} (h : s.memberSlot o.val = none) :
    exec (.compaction o) s = .next s := by
  show execCompaction o s = _
  simp only [execCompaction, h]

/-- Two changes of a drive that agree on it are one. -/
theorem State.updDrive_congr {s : State} {n : Nat} {f g : Drive → Drive} (h : f (s.drive n) = g (s.drive n)) :
    s.updDrive n f = s.updDrive n g :=
  congrArg (fun d => { s with aq := { s.aq with drives := s.aq.drives.set n d } }) h

/-- The only segment of a member, which no index entry names and no I/O reads, is deallocated. -/
theorem exec_compaction_onlySegment {s : State} {o : Fin 8} {n g : Nat} {sg : LogSeg} (member : s.memberSlot o.val = some n)
    (segs : (s.drive n).segs = [(g, sg)]) (noEntry : s.aq.lidx = []) (noIo : s.aq.ios = []) :
    exec (.compaction o) s = .next (State.emit { s.updDrive n fun d => { d with segs := [] } with
      aq := { (s.updDrive n fun d => { d with segs := [] }).aq with logFull := false } }
        (.nvme n "Deallocate" (logLba g 0) segPages)) := by
  have emptied : s.updDrive n (fun d => { d with segs := d.segs.del g }) = s.updDrive n fun d => { d with segs := [] } :=
    State.updDrive_congr (by simp [segs, SMap.del])
  show execCompaction o s = _
  simp only [execCompaction, member, segs, noEntry, noIo, List.foldl_cons, List.foldl_nil, List.filter_nil, List.any_nil,
    Bool.or_self, Bool.false_eq_true, if_false, emptied]

/-- Settles O18: a lemma for each way in which a command or an event ends. -/
theorem drivesAndTails : Obligations.DrivesAndTails := by
  unfold Obligations.DrivesAndTails
  refine ⟨fun s c => exec_aqSlotOff_empty, fun s c => exec_aqSlotOff_blank,
    fun s io n nth => ⟨exec_nvmeCompletion_good nth, exec_nvmeCompletion_unrecovered nth,
      fun st => exec_nvmeCompletion_retried nth, exec_nvmeIoTimeout_due nth, exec_nvmeIoTimeout_early nth⟩,
    fun s n io => exec_nvmeControllerReset_only, fun s n ser lbas awun fitted empty noDrive new power runs => ?_,
    fun s n => exec_aqDriveIdentified_unlabelled, fun s n => exec_aqDriveRemoveSafe_safe,
    fun s n => exec_aqSurpriseRemoval_safe, fun s n => exec_aqSurpriseRemoval_occupied, fun s n => exec_aqLinkLoss_down,
    fun s n => exec_aqLinkLoss_lost, fun s o mounted held => ⟨exec_tailWrite_full mounted,
      exec_tailTimerExpiry_due mounted held, exec_tailTimerExpiry_early⟩, fun s o => exec_compaction_absent,
    fun s o n g sg => exec_compaction_onlySegment⟩
  exact ⟨_, exec_aqDriveInsert_new lbas awun fitted empty noDrive new power runs, by simp⟩

end Sys2Proof.Machine
end

section
/-! SUPPORT. The steward's duties (R298, R692, R750–R753, R764–R766, R770, R771): SMART logs, telemetry, shedding, the
watchdog, the button, and drains. -/
namespace Sys2Proof.Machine
open Sys2Proof

/-! ### What reports leave alone -/

@[simp] theorem State.irqEvent_stw (s : State) (b : Nat) : (s.irqEvent b).stw = s.stw :=
  (congrArg State.stw (butReport_irqEvent s b) :)
@[simp] theorem State.irqEvent_sc (s : State) (b : Nat) : (s.irqEvent b).sc = s.sc :=
  (congrArg State.sc (butReport_irqEvent s b) :)
@[simp] theorem State.irqEvent_pwr (s : State) (b : Nat) : (s.irqEvent b).pwr = s.pwr :=
  (congrArg State.pwr (butReport_irqEvent s b) :)
@[simp] theorem State.stwFault_stw (s : State) (c : Nat) : (s.stwFault c).stw = s.stw :=
  (congrArg State.stw (butReport_stwFault s c) :)
@[simp] theorem State.stwFault_sc (s : State) (c : Nat) : (s.stwFault c).sc = s.sc :=
  (congrArg State.sc (butReport_stwFault s c) :)
@[simp] theorem State.stwFault_pwr (s : State) (c : Nat) : (s.stwFault c).pwr = s.pwr :=
  (congrArg State.pwr (butReport_stwFault s c) :)
@[simp] theorem State.pldmEvent_stw (s : State) (w : String) (a : Nat) : (s.pldmEvent w a).stw = s.stw :=
  (congrArg State.stw (butReport_pldmEvent s w a) :)
@[simp] theorem State.pldmEvent_sc (s : State) (w : String) (a : Nat) : (s.pldmEvent w a).sc = s.sc :=
  (congrArg State.sc (butReport_pldmEvent s w a) :)
@[simp] theorem State.railFault_stw (s : State) (a b c d : Nat) : (s.railFault a b c d).stw = s.stw :=
  (congrArg State.stw (butReport_railFault s a b c d) :)
@[simp] theorem State.aqSlot_pldmEvent (s : State) (w : String) (a n : Nat) : (s.pldmEvent w a).aqSlot n = s.aqSlot n :=
  (congrArg (State.aqSlot · n) (butReport_pldmEvent s w a) :)
@[simp] theorem State.aqSlot_aqFault (s : State) (slot code opc lba nlb sts n : Nat) :
    (s.aqFault slot code opc lba nlb sts).aqSlot n = s.aqSlot n :=
  (congrArg (State.aqSlot · n) (butReport_aqFault s slot code opc lba nlb sts) :)

/-! ### A drive's SMART log (R298) -/

theorem State.aqSlot_ite {c : Prop} [Decidable c] {a b : State} {n : Nat} {x : AqSlot} (ha : a.aqSlot n = x)
    (hb : b.aqSlot n = x) : (if c then a else b).aqSlot n = x := by split <;> assumption

/-- The log reaches the slot's wear registers; WEIGHT and the fitted prediction are the steward's own. -/
theorem State.aqSlot_smartRead (s : State) (n : Nat) (pct spare crit : Byte) (days : Nat) :
    ∃ weight eol, (s.smartRead n pct spare crit days).aqSlot n = { s.aqSlot n with
      pctUsed := pct, spare := spare, crit := crit, roMedia := crit.getLsbD 3, lastPoll := s.time.now
      weight := weight, eol := eol } := by
  unfold State.smartRead
  have written := ((s.drawFree 8).2.drawFree 16).2.aqSlot_updAqSlot n
  exact ⟨_, _, State.aqSlot_ite ((State.aqSlot_aqFault ..).trans
      (State.aqSlot_ite ((State.aqSlot_pldmEvent ..).trans (written _)) (written _)))
    (State.aqSlot_ite ((State.aqSlot_pldmEvent ..).trans (written _)) (written _))⟩

theorem exec_nvmeAsyncEvent_member {s : State} {n : Fin 8} (pct spare crit : Byte) (days : Nat)
    (runs : s.stewardRuns = true) (member : (s.aqSlot n.val).st = .member) :
    exec (.nvmeAsyncEvent n pct spare crit days) s = .next (s.smartRead n.val pct spare crit days) :=
  if_pos (by rw [runs, member]; rfl)

theorem exec_smartPoll_due {s : State} {n : Fin 8} (pct spare crit : Byte) (days : Nat) (runs : s.stewardRuns = true)
    (member : (s.aqSlot n.val).st = .member) (kept : s.stw.level.toNat < 3)
    (due : s.elapsed (s.aqSlot n.val).lastPoll 600000000000 = true) :
    exec (.smartPoll n pct spare crit days) s = .next (s.smartRead n.val pct spare crit days) :=
  if_pos (by simp [runs, member, kept, due])

theorem exec_smartPoll_not {s : State} {n : Fin 8} (pct spare crit : Byte) (days : Nat)
    (h : 3 ≤ s.stw.level.toNat ∨ s.elapsed (s.aqSlot n.val).lastPoll 600000000000 = false) :
    exec (.smartPoll n pct spare crit days) s = .next s := by
  refine if_neg fun polls => ?_
  simp only [Bool.and_eq_true, decide_eq_true_eq] at polls
  rcases h with shed | early
  · exact Nat.not_le.mpr polls.1.2 shed
  · exact Bool.false_ne_true (early.symm.trans polls.2)

/-! ### Telemetry (R751, R761) -/

/-- A reading changes its own sensor's entry, and no other part of the steward's state. -/
@[simp] theorem State.takeReading_stw (s : State) (x : Nat × W32) :
    (s.takeReading x).stw = { s.stw with sensors := s.stw.sensors.set x.1 x.2 } := by
  simp only [State.takeReading, apply_ite State.stw, State.railFault_stw, State.pldmEvent_stw, State.updStw_stw, ite_self]

/-- When telemetry was last sampled, and what a sensor read then. -/
def StewardState.sampled (x : StewardState) (id : Nat) : Nat × W32 := (x.sampledAt, x.sensors.get 0 id)

theorem StewardState.sampled_eq {x : StewardState} {id time : Nat} {v : W32} :
    x.sampled id = (time, v) ↔ x.sampledAt = time ∧ x.sensors.get 0 id = v := by
  rw [StewardState.sampled, Prod.mk.injEq]

theorem State.takeReading_sampled_self (s : State) (id : Nat) (v : W32) :
    (s.takeReading (id, v)).stw.sampled id = (s.stw.sampledAt, v) := by
  simp only [StewardState.sampled, State.takeReading_stw, SMap.get_set_self]

theorem State.takeReading_sampled_ne {id : Nat} (s : State) {x : Nat × W32} (h : x.1 ≠ id) :
    (s.takeReading x).stw.sampled id = s.stw.sampled id := by
  simp only [StewardState.sampled, State.takeReading_stw, SMap.get_set_ne _ _ _ h.symm]

theorem State.takeState_sampled_ne {id k : Nat} (s : State) (h : k ≠ id) :
    (s.takeState k).stw.sampled id = s.stw.sampled id := by
  unfold State.takeState
  dsimp only
  split
  · rfl
  · simp only [StewardState.sampled, State.pldmEvent_stw, State.updStw_stw, SMap.get_set_ne _ _ _ h.symm]

/-- The part's own readings are those of the sensors from 19 on. -/
theorem State.ownReadings_id {s : State} {x : Nat × W32} (h : x ∈ s.ownReadings) : 19 ≤ x.1 := by
  simp only [State.ownReadings, List.mem_append, List.mem_map, List.mem_singleton] at h
  rcases h with ((((rfl | ⟨d, -, rfl⟩) | ⟨d, -, rfl⟩) | ⟨d, -, rfl⟩) | ⟨d, -, rfl⟩) | rfl
  all_goals dsimp only; omega

/-- A sample's readings, VDD_CORE's among them, and the state sensors. -/
def State.telemetry (s : State) (temps : List (Nat × W32)) (vdd : W32) : State :=
  (List.range 6).foldl (fun st i => st.takeState (100 + i))
    ((temps ++ [(18, vdd)] ++ s.ownReadings).foldl (fun st x => st.takeReading x)
      (s.updStw fun x => { x with sampledAt := s.time.now }))

theorem State.takeReadings_sampledAt (s : State) (l : List (Nat × W32)) :
    (l.foldl (fun st x => st.takeReading x) s).stw.sampledAt = s.stw.sampledAt :=
  List.foldlRecOn (motive := fun t : State => t.stw.sampledAt = s.stw.sampledAt) l _ rfl fun t kept x _ => by
    rw [State.takeReading_stw, ← kept]

theorem State.takeReadings_sampled_ne {id : Nat} (s : State) {l : List (Nat × W32)} (h : ∀ x ∈ l, x.1 ≠ id) :
    (l.foldl (fun st x => st.takeReading x) s).stw.sampled id = s.stw.sampled id :=
  List.foldlRecOn (motive := fun t : State => t.stw.sampled id = s.stw.sampled id) l _ rfl fun t kept x hx =>
    (t.takeReading_sampled_ne (h x hx)).trans kept

/-- The state sensors are those from 100 on. -/
theorem State.takeStates_sampled {id : Nat} (s : State) (l : List Nat) (h : id < 100) :
    (l.foldl (fun st i => st.takeState (100 + i)) s).stw.sampled id = s.stw.sampled id :=
  List.foldlRecOn (motive := fun t : State => t.stw.sampled id = s.stw.sampled id) l _ rfl fun t kept i _ =>
    (t.takeState_sampled_ne (by omega)).trans kept

/-- A sample leaves its time and VDD_CORE's reading: no later reading is of sensor 18. -/
theorem State.telemetry_sampled (s : State) (temps : List (Nat × W32)) (vdd : W32) :
    (s.telemetry temps vdd).stw.sampled 18 = (s.time.now, vdd) := by
  have own : ∀ x ∈ s.ownReadings, x.1 ≠ 18 := fun x hx => by have := State.ownReadings_id hx; omega
  rw [State.telemetry, State.takeStates_sampled _ _ (by decide), List.foldl_append, List.foldl_append,
    State.takeReadings_sampled_ne _ own, List.foldl_cons, List.foldl_nil, State.takeReading_sampled_self,
    State.takeReadings_sampledAt, State.updStw_stw]

section telemetry
variable {s : State} (temps : List W16) (vdd : W16) (full : s.stw.level = 0)
include full

theorem exec_telemetrySample_due (runs : s.stewardRuns = true)
    (due : s.elapsed s.stw.sampledAt (s.stw.period.toNat * 1000000) = true) :
    ∃ readings, exec (.telemetrySample temps vdd) s = .next (s.telemetry readings (vdd.setWidth 32)) :=
  ⟨_, if_pos (by rw [if_pos full, Nat.mul_one, runs, due]; rfl)⟩

theorem exec_telemetrySample_early (early : s.elapsed s.stw.sampledAt (s.stw.period.toNat * 1000000) = false) :
    exec (.telemetrySample temps vdd) s = .next s :=
  if_neg (by rw [if_pos full, Nat.mul_one, early, Bool.and_false]; decide)

end telemetry

/-! ### Shedding (R752) -/

section busy
variable {s : State} {b : BitVec 7} (runs : s.stewardRuns = true)
include runs

theorem State.notStopped : ¬ (!s.stewardRuns) = true := by rw [runs]; decide

theorem exec_stewardBusyWindow_raises (high : 90 < b.toNat) (room : s.stw.level.toNat < 4) :
    ∃ t, exec (.stewardBusyWindow b) s = .next t
      ∧ t.stw = { s.stw with level := s.stw.level + 1, raises := satInc s.stw.raises, busy := b, calm := 0 } := by
  refine ⟨_, (if_neg (State.notStopped runs)).trans (if_pos ⟨high, room⟩), ?_⟩
  have next : BitVec.ofNat 3 (s.stw.level.toNat + 1) = s.stw.level + 1 := by bv_omega
  have busy : ¬ b.toNat < 60 := by omega
  simp only [State.irqEvent_stw, State.stwFault_stw, State.updStw_stw, next, if_neg busy]

/-- The tenth calm window in a row. -/
theorem exec_stewardBusyWindow_lowers (low : b.toNat < 60) (ninth : s.stw.calm = 9) (shed : 0 < s.stw.level.toNat) :
    ∃ t, exec (.stewardBusyWindow b) s = .next t
      ∧ t.stw = { s.stw with level := s.stw.level - 1, busy := b, calm := 0 } := by
  have notHigh : ¬ (90 < b.toNat ∧ s.stw.level.toNat < 4) := by omega
  have tenth : 10 ≤ (if b.toNat < 60 then s.stw.calm + 1 else 0) := by
    rw [if_pos low]
    omega
  refine ⟨_, (if_neg (State.notStopped runs)).trans ((if_neg notHigh).trans ((if_pos tenth).trans
    (congrArg Host.Outcome.next (if_neg (Nat.ne_of_gt shed))))), ?_⟩
  have next : BitVec.ofNat 3 (s.stw.level.toNat - 1) = s.stw.level - 1 := by bv_omega
  simp only [State.stwFault_stw, State.updStw_stw, next]

theorem exec_stewardBusyWindow_between (low : 60 ≤ b.toNat) (high : b.toNat ≤ 90) :
    exec (.stewardBusyWindow b) s = .next { s with stw := { s.stw with busy := b, calm := 0 } } := by
  have notHigh : ¬ (90 < b.toNat ∧ s.stw.level.toNat < 4) := by omega
  have notLow : ¬ b.toNat < 60 := by omega
  have notTenth : ¬ 10 ≤ (if b.toNat < 60 then s.stw.calm + 1 else 0) := by rw [if_neg notLow]; omega
  refine (if_neg (State.notStopped runs)).trans ((if_neg notHigh).trans ((if_neg notTenth).trans ?_))
  simp only [if_neg notLow, State.updStw]

end busy

/-! ### Drain states (R765) -/

@[simp] theorem State.setDrain_stw (s : State) (d : DrainState) : (s.setDrain d).stw = { s.stw with drain := d, dr := {} } :=
  State.irqEvent_stw _ _
@[simp] theorem State.setDrain_sc (s : State) (d : DrainState) : (s.setDrain d).sc = s.sc := State.irqEvent_sc _ _
@[simp] theorem State.setDrain_pwr (s : State) (d : DrainState) : (s.setDrain d).pwr = s.pwr := State.irqEvent_pwr _ _

@[simp] theorem State.drainAbandon_stw (s : State) : s.drainAbandon.stw =
    { s.stw with drain := .idle, dr := {}, blip := some (s.time.now + 10000000000) } := by
  simp only [State.drainAbandon, State.stwFault_stw, State.updStw_stw, State.setDrain_stw]
@[simp] theorem State.drainAbandon_pwr (s : State) : s.drainAbandon.pwr = s.pwr := by
  simp only [State.drainAbandon, State.stwFault_pwr, State.updStw_pwr, State.setDrain_pwr]

theorem State.drainStep_not {s : State} (h : s.stw.drain ≠ .draining) : s.drainStep = s := by
  have no : (s.stw.drain != .draining || !s.stewardRuns) = true := by simp [h]
  simp only [State.drainStep, no, if_true]

/-- A drain that host software runs is at no step of the steward's. -/
theorem State.drainStep_host {s : State} (h : s.stw.dr.step = 0) : s.drainStep = s := by
  simp only [State.drainStep, h, ite_self]

theorem State.drainStep_flushed {s : State} (draining : s.stw.drain = .draining) (runs : s.stewardRuns = true)
    (last : s.stw.dr.step = 7) (flushed : s.hostFlushed = true) :
    s.drainStep = (s.setDrain .drained).stwFault 0x1105 := by
  simp only [State.drainStep, draining, runs, last, flushed, bne_self_eq_false, Bool.not_true, Bool.or_self,
    Bool.false_eq_true, if_false, if_true]

/-! ### The watchdog (R692, R753, R770) -/

@[simp] theorem State.msix_bak (s : State) (f v : Nat) : (s.msix f v).bak = s.bak := by
  unfold State.msix; split <;> rfl
@[simp] theorem State.irqEvent_bak (s : State) (b : Nat) : (s.irqEvent b).bak = s.bak := by
  simp only [State.irqEvent, apply_ite State.bak, State.msix_bak, ite_self]
@[simp] theorem State.mirrorRecord_bak (s : State) (r : FaultRecord) : (s.mirrorRecord r).bak = s.bak := by
  simp only [State.mirrorRecord, apply_ite State.bak, State.emit_bak, ite_self]
@[simp] theorem State.pldmEvent_bak (s : State) (w : String) (a : Nat) : (s.pldmEvent w a).bak = s.bak := by
  simp only [State.pldmEvent, apply_ite State.bak, State.emit_bak, ite_self]

/-- A record joins the last sixteen of the backup domain, and counts no reset. -/
@[simp] theorem State.fault_cnt (s : State) (f : FaultRecord) : (s.fault f).bak.cnt = s.bak.cnt := by
  simp only [State.fault, apply_ite State.bak, apply_ite Backup.cnt, State.pldmEvent_bak, State.irqEvent_bak, State.msix_bak,
    State.mirrorRecord_bak, ite_self]
@[simp] theorem State.stwFault_cnt (s : State) (c : Nat) : (s.stwFault c).bak.cnt = s.bak.cnt := s.fault_cnt _

theorem State.stewardRestart_stw (s : State) : s.stewardRestart.stw = { s.stw with
    st := .restarting, restarts := satInc s.stw.restarts, starts := (s.time.now :: s.stw.starts).take 3 } := by
  show (((State.countBlock _ 12).stwFault 0x1101).irqEvent 13).stw = _
  rw [State.irqEvent_stw, State.stwFault_stw]
  rfl

theorem State.stewardRestart_cnt (s : State) : s.stewardRestart.bak.cnt = s.bak.cnt.upd 0 12 satInc := by
  show (((State.countBlock _ 12).stwFault 0x1101).irqEvent 13).bak.cnt = _
  rw [State.irqEvent_bak, State.stwFault_cnt]
  rfl

@[simp] theorem State.pwrSettle_stw (s : State) : s.pwrSettle.stw = s.stw := by
  obtain ⟨_, _, _, h⟩ := s.pwrSettle_shape; rw [h]

/-- A halt that abandons a drain halts all the same. -/
theorem State.stewardHalt_halted (s : State) : s.stewardHalt.stw.st = .halted ∧ s.stewardHalt.pwr.target = .p2 := by
  unfold State.stewardHalt
  dsimp only
  split
  · simp
  · simp

section watchdog
variable {s : State} (runs : s.stewardRuns = true)
include runs

theorem exec_stewardWatchdog_restarts (fresh : s.stw.starts[2]? = none) :
    exec .stewardWatchdog s = .next s.stewardRestart := by
  show execStewardWatchdog s = _
  simp only [execStewardWatchdog, runs, fresh, Bool.not_true, Bool.false_eq_true, if_false]

theorem exec_stewardWatchdog_halts {t0 : Nat} (third : s.stw.starts[2]? = some t0) (soon : s.time.now < t0 + 600000000000) :
    exec .stewardWatchdog s = .next s.stewardHalt := by
  show execStewardWatchdog s = _
  simp only [execStewardWatchdog, runs, third, soon, Bool.not_true, Bool.false_eq_true, if_false, if_true]

end watchdog

theorem exec_hubStwKick_kick {s : State} {p : AccessPath} {v : W32} (h : s.csrWritable p .hub = true)
    (kick : bit v 10 = true) :
    exec (.hubStwKick p v) s = .next (if s.stw.st = .halted then s.stewardRestart else s) := by
  refine congrArg Host.Outcome.next ((State.onCsr_of_writable _ h).trans ?_)
  simp only [State.writeStw, kick, Bool.true_and, beq_iff_eq]

/-! ### The button (R764–R766) -/

/-- A press that is taken: the drain begins, at its first step or with host software. -/
def State.drainBegin (s : State) : State :=
  let s1 := (s.setDrain .draining).updStw fun x => { x with dr := { step := if s.stw.hostDrain then 0 else 2 } }
  (s1.stwFault 0x1104).pldmEvent "STATE" 103

@[simp] theorem State.drainBegin_stw (s : State) : s.drainBegin.stw =
    { s.stw with drain := .draining, dr := { step := if s.stw.hostDrain then 0 else 2 } } := by
  simp only [State.drainBegin, State.pldmEvent_stw, State.stwFault_stw, State.updStw_stw, State.setDrain_stw]
@[simp] theorem State.drainBegin_sc (s : State) : s.drainBegin.sc = s.sc := by
  simp only [State.drainBegin, State.pldmEvent_sc, State.stwFault_sc, State.updStw_sc, State.setDrain_sc]

/-- The button is up: a short press, or the release of a hold. -/
def State.btnUp (s : State) : State := s.updStw fun x => { x with btn := false }

theorem State.noDrain {s : State} (idle : s.stw.drain = .idle) : ¬ (s.stw.drain != .idle) = true := by rw [idle]; decide

section press
variable {s : State} (on : s.pwr.dstate ≠ .off)
include on

theorem State.notOff : ¬ (s.pwr.dstate == .off) = true := by simpa using on

theorem exec_attnShortPress_draining (h : s.stw.drain ≠ .idle) : exec .attnShortPress s = .next s.btnUp :=
  (if_neg (State.notOff on)).trans (if_pos (show (s.stw.drain != .idle) = true by simpa using h))

variable (idle : s.stw.drain = .idle)
include idle

theorem exec_attnShortPress_refused (refused : s.pressRefused = true) : exec .attnShortPress s = .next
    ((s.btnUp.updStw fun x => { x with refused := true, blip := some (s.time.now + 2000000000) }).stwFault 0x1109) :=
  (if_neg (State.notOff on)).trans ((if_neg (State.noDrain (s := s.btnUp) idle)).trans (if_pos refused))

theorem exec_attnShortPress_taken (taken : s.pressRefused = false) :
    exec .attnShortPress s = .next s.btnUp.drainBegin.drainStep.drainStep.drainStep :=
  (if_neg (State.notOff on)).trans ((if_neg (State.noDrain (s := s.btnUp) idle)).trans
    (if_neg (Bool.eq_false_iff.mp taken)))

end press

theorem exec_attnHold_release (s : State) : exec (.attnHold true) s = .next s.btnUp := rfl

/-- No partition waits to be started again. -/
theorem State.againStart_none {s : State} (h : s.stw.again = []) : s.againStart.stw = s.stw := by
  unfold State.againStart
  split
  · rfl
  · simp only [h, List.filter_nil, List.foldl_nil]
    rw [← h]

/-- A drain that has closed no admission and stopped no partition is cancelled. -/
theorem exec_attnHold_cancels {s : State} (on : s.pwr.dstate ≠ .off) (drain : s.stw.drain ≠ .idle)
    (models : s.stw.dr.models = []) (parts : s.stw.dr.parts = []) :
    ∃ t, exec (.attnHold false) s = .next t ∧ t.stw.drain = .idle ∧ t.stw.btn = true := by
  have goes : ¬ (false || s.pwr.dstate == .off || s.stw.drain == .idle) = true := by simp [on, drain]
  refine ⟨_, if_neg goes, ?_⟩
  simp only [State.updStw_stw, models, parts, List.foldl_nil, State.stwFault_stw]
  rw [State.againStart_none rfl]
  simp

/-! ### The end of a drain (R765, R771) -/

theorem exec_drainPartitionsStopped_flushed {s : State} (draining : s.stw.drain = .draining) (runs : s.stewardRuns = true)
    (last : s.stw.dr.step = 7) (flushed : s.hostFlushed = true) :
    exec .drainPartitionsStopped s = .next ((s.setDrain .drained).stwFault 0x1105) := by
  have complete : ((s.setDrain .drained).stwFault 0x1105).stw.drain ≠ .draining := by simp
  show execDrainPartitionsStopped s = _
  simp only [execDrainPartitionsStopped, State.drainStep_flushed draining runs last flushed, State.drainStep_not complete]

theorem exec_drainPartitionsStopped_not {s : State} (h : s.stw.drain ≠ .draining) :
    exec .drainPartitionsStopped s = .next s := by
  show execDrainPartitionsStopped s = _
  simp only [execDrainPartitionsStopped, State.drainStep_not h]

theorem exec_drainAbandonTimeout_not {s : State} (h : s.stw.drain ≠ .draining) : exec .drainAbandonTimeout s = .next s :=
  if_neg (by simp [h])

theorem exec_drainAbandonTimeout_due {s : State} (draining : s.stw.drain = .draining) (waits : s.stw.dr.step = 5)
    (due : s.elapsed s.stw.dr.since 60000000000 = true) (active : s.partsQuiet = false) :
    exec .drainAbandonTimeout s = .next s.drainAbandon :=
  if_pos (by simp [draining, waits, due, active])

section svc
variable {s : State} {p : AccessPath} {v : W32} (writable : s.csrWritable p .hub = true)
include writable

theorem exec_hostDrainedWrite_plain (h : bit v 1 = false) : exec (.hostDrainedWrite p v) s = .next { s with
    stw := { s.stw with hostDrain := bit v 0, locate := bit v 2 } } := by
  refine congrArg Host.Outcome.next ((State.onCsr_of_writable _ writable).trans ?_)
  simp only [State.writeSvcCtl, h, Bool.false_and, Bool.false_eq_true, if_false, State.updStw]

theorem exec_hostDrainedWrite_drained (h : bit v 1 = true) (host : s.stw.hostDrain = true)
    (draining : s.stw.drain = .draining) : exec (.hostDrainedWrite p v) s = .next
      (((s.setDrain .drained).stwFault 0x1105).updStw fun x => { x with hostDrain := bit v 0, locate := bit v 2 }) := by
  refine congrArg Host.Outcome.next ((State.onCsr_of_writable _ writable).trans ?_)
  simp only [State.writeSvcCtl, h, host, draining, beq_self_eq_true, Bool.and_self, if_true]

end svc

theorem exec_attnBlipExpiry_blip {s : State} {t0 : Nat} (h : s.stw.blip = some t0) : exec .attnBlipExpiry s =
    .next (if t0 ≤ s.time.now then { s with stw := { s.stw with blip := none } } else s) := by
  show execAttnBlipExpiry s = _
  simp only [execAttnBlipExpiry, h]
  exact (apply_ite Host.Outcome.next _ _ _).symm

/-- Settles O48: a lemma for each way in which a duty ends; what the steward's state is then by what reports leave
alone. -/
theorem stewardDuties : Obligations.StewardDuties := by
  unfold Obligations.StewardDuties
  refine ⟨fun s n pct spare crit days runs member => ⟨?_, fun kept due => ?_, exec_smartPoll_not pct spare crit days⟩,
    fun s temps vdd runs full => ⟨fun due => ?_, exec_telemetrySample_early temps vdd full⟩,
    fun s b runs => ⟨fun high room => ?_, fun low ninth shed => ?_, exec_stewardBusyWindow_between runs⟩,
    fun s runs => ⟨fun fresh => ?_, fun t0 third soon => ?_⟩, fun s p v => exec_hubStwKick_kick,
    fun s on => ⟨exec_attnShortPress_draining on, fun idle start => ?_, fun idle start awake steward lc host => ?_,
      exec_attnHold_release s, fun drain models parts _ => exec_attnHold_cancels on drain models parts⟩,
    fun s draining runs last flushed => ⟨_, exec_drainPartitionsStopped_flushed draining runs last flushed, by simp⟩,
    fun s h => ⟨exec_drainPartitionsStopped_not h, exec_drainAbandonTimeout_not h⟩,
    fun s draining waits due active => ⟨_, exec_drainAbandonTimeout_due draining waits due active, by simp, by simp⟩,
    fun s p v writable => ⟨exec_hostDrainedWrite_plain writable, fun h host draining =>
      ⟨_, exec_hostDrainedWrite_drained writable h host draining, by simp, by simp⟩⟩,
    fun s t0 => exec_attnBlipExpiry_blip⟩
  · obtain ⟨weight, eol, read⟩ := s.aqSlot_smartRead n.val pct spare crit days
    exact ⟨_, exec_nvmeAsyncEvent_member pct spare crit days runs member, by rw [read]; exact ⟨rfl, rfl, rfl, rfl⟩⟩
  · obtain ⟨weight, eol, read⟩ := s.aqSlot_smartRead n.val pct spare crit days
    exact ⟨_, exec_smartPoll_due pct spare crit days runs member kept due, by rw [read]⟩
  · obtain ⟨readings, h⟩ := exec_telemetrySample_due temps vdd full runs due
    exact ⟨_, h, StewardState.sampled_eq.mp (s.telemetry_sampled readings (vdd.setWidth 32))⟩
  · obtain ⟨t, h, raised⟩ := exec_stewardBusyWindow_raises runs high room
    exact ⟨t, h, by rw [raised]; exact ⟨rfl, rfl, rfl⟩⟩
  · obtain ⟨t, h, lowered⟩ := exec_stewardBusyWindow_lowers runs low ninth shed
    exact ⟨t, h, by rw [lowered]; exact ⟨rfl, rfl⟩⟩
  · refine ⟨_, exec_stewardWatchdog_restarts runs fresh, ?_⟩
    rw [State.stewardRestart_stw, State.stewardRestart_cnt]
    exact ⟨rfl, rfl, SMap.get_upd_self _ _ _ _⟩
  · exact ⟨_, exec_stewardWatchdog_halts runs third soon, s.stewardHalt_halted⟩
  · refine ⟨_, exec_attnShortPress_refused on idle (by simp [State.pressRefused, start]), ?_⟩
    simp [State.btnUp, idle]
  · have taken : s.pressRefused = false := by simp [State.pressRefused, lc, start, awake, steward]
    refine ⟨_, exec_attnShortPress_taken on idle taken, ?_⟩
    have hostStep : s.btnUp.drainBegin.stw.dr.step = 0 := by simp [State.btnUp, host]
    simp only [State.drainStep_host hostStep]
    simp [State.btnUp]

end Sys2Proof.Machine
end

section
/-! SUPPORT. Update batches, their records and flips (R348–R353, R355, R367, R643, R679): each way in which a batch is
accepted and completed, when a record is taken up, and the stages of a flip. -/
namespace Sys2Proof

/-! ### A map with one key -/

theorem SMap.find_single {α : Type} (i : Nat) (v : α) : SMap.find [(i, v)] i = some v := if_pos rfl

theorem SMap.set_single {α : Type} (i : Nat) (v w : α) : SMap.set [(i, v)] i w = [(i, w)] := by
  simp [SMap.set]

theorem SMap.del_single {α : Type} (i : Nat) (v : α) : SMap.del [(i, v)] i = [] := by
  simp [SMap.del]

end Sys2Proof

namespace Sys2Proof.Machine
open Sys2Proof

/-! ### UPD_BATCH (R348, R351) -/

/-- A queue already marked as held by the transmit buffer raises no second event (R643). -/
theorem exec_updBatch_held {s : State} (c : KCmd) (active : s.pl.role = .active) (full : s.pl.txFull = true)
    (marked : s.pl.hold = true) : exec (.updBatch c) s = .next s := by
  have full' : (s.pl.role == .active && s.pl.txFull) = true := by rw [active, full]; rfl
  have held : s.batchesHeld = true := by rw [State.batchesHeld, full', Bool.true_or, Bool.true_or]
  have same : { s with pl := { s.pl with hold := true } } = s := by rw [← marked]
  refine (if_pos held).trans (congrArg Host.Outcome.next ?_)
  rw [full', marked, Bool.true_or]
  exact same

section free
/-! The front end takes batches. -/

variable {s : State} {c : KCmd} (free : s.batchesHeld = false)
include free

theorem exec_updBatch_misaligned (h : c.a0.toNat % 64 ≠ 0) : exec (.updBatch c) s = .next (s.done c stSqField) :=
  (if_neg (Bool.eq_false_iff.mp free)).trans (if_pos h)

theorem exec_updBatch_clean (aligned : c.a0.toNat % 64 = 0) (queue : fromMirror c = false)
    (unheld : s.recall c.a0.toNat 64 = none) :
    let s1 := s.touch c.a0.toNat 64
    let r := s1.readDA c.a0.toNat 64
    r.bad = none → exec (.updBatch c) s =
      .next (s1.batchAccept (.queue c.q.val c.cid) (s1.queue c.q.val).part.toNat c.a0.toNat r.data) := fun sound =>
  (if_neg (Bool.eq_false_iff.mp free)).trans ((if_neg (not_not_intro aligned)).trans
    (congrArg Host.Outcome.next (State.withInput_clean _ queue unheld sound)))

end free

/-- A descriptor's bytes that describe a batch R348 allows for a table. -/
structure DescLegal (d : TD) (b : Batch) (h : List Byte) : Prop where
  table : leAt h 0 4 < 2 ^ 18
  flags : leAt h 4 1 < 4
  zero6 : leAt h 6 2 = 0
  zero12 : leAt h 12 4 = 0
  zero48 : leAt h 48 8 = 0
  mapped : b.nextDa < 2 ^ 52
  aligned : b.nextDa % 8 = 0
  nonempty : 1 ≤ b.count
  most : b.count ≤ 2 ^ 24
  flip : b.flip = false ∨ d.pub = true

/-- A legal batch for a serving table of its partition joins the accepted ones, but on a standby (R351). -/
theorem State.batchAccept_legal {s : State} {o : BatchOrigin} {part da : Nat} {h : List Byte}
    (legal : DescLegal (s.td (batchOf o part da h).table) (batchOf o part da h) h)
    (serves : (s.td (batchOf o part da h).table).serves = true)
    (owner : (s.td (batchOf o part da h).table).part = part)
    (notStandby : s.pl.role ≠ .standby) (notIncomplete : s.pl.role ≠ .standbyIncomplete) :
    s.batchAccept o part da h = { s with upd := { s.upd with
      batches := s.upd.batches.set s.upd.nextBatch (batchOf o part da h), nextBatch := s.upd.nextBatch + 1 } } := by
  obtain ⟨table, flags, zero6, zero12, zero48, mapped, aligned, nonempty, most, flip⟩ := legal
  have flips : ((batchOf o part da h).flip && !(s.td (batchOf o part da h).table).pub) = false := by
    rcases flip with h | h <;> simp [h]
  refine (if_neg ?_).trans (if_neg ?_)
  · simp [serves, owner, notStandby, notIncomplete]
  · simp only [Bool.not_eq_true, Bool.or_eq_false_iff, decide_eq_false_iff_not, bne_eq_false_iff_eq, beq_eq_false_iff_ne,
      Nat.not_le, Nat.not_lt]
    exact ⟨⟨⟨⟨⟨⟨⟨⟨⟨table, flags⟩, zero6⟩, zero12⟩, zero48⟩, mapped⟩, aligned⟩, Nat.ne_of_gt nonempty⟩, most⟩, flips⟩

/-! ### UPDATE_RECORD (R351) -/

theorem exec_updateRecord_noBatch {s : State} (h : s.upd.batches = []) : exec (.updateRecord 0) s = .next s := by
  show execUpdateRecord 0 s = _
  simp only [execUpdateRecord, h, List.find?_nil, ite_self]

section oneBatch
/-! One batch is accepted. -/

variable {s : State} {id : Nat} {b : Batch} (only : s.upd.batches = [(id, b)])
include only

theorem State.updBatch_only (f : Batch → Batch) :
    s.updBatch id f = { s with upd := { s.upd with batches := [(id, f b)] } } := by
  simp only [State.updBatch, only, SMap.find_single, SMap.set_single]

/-- The front end takes the batch's next record, where no rollback runs and the host holds no line of it. -/
theorem exec_updateRecord_takes (going : b.stopped = false) (left : b.taken < b.count) (noRollback : s.int.rbClosing = none)
    (unheld : ∀ n, s.recall b.nextDa n = none) : exec (.updateRecord 0) s = .next (s.takeRecord id b) := by
  have first : s.upd.batches.find? (fun kv => !kv.2.stopped && decide (kv.2.taken < kv.2.count)) = some (id, b) := by
    rw [only]
    exact List.find?_cons_of_pos (by simp [going, left])
  show execUpdateRecord 0 s = _
  simp only [execUpdateRecord, noRollback, first, unheld, Option.isSome_none, Bool.false_eq_true, if_false]

/-- A batch stops with status 3 before a record outside the places of R351. -/
theorem State.takeRecord_misplaced (h : s.recordPlace b.nextDa 8 = false) : s.takeRecord id b =
    { s with upd := { s.upd with batches := [(id, { b with status := 3, stopped := true })] } } :=
  (if_pos (congrArg not h)).trans (State.updBatch_only only _)

/-! ### BATCH_COMPLETE (R353) -/

theorem exec_batchComplete_plain (taken : b.taken = b.count) (settled : s.upd.recs = []) (noFlip : b.flip = false)
    (noClose : b.close = false) : exec (.batchComplete 0) s =
      .next (State.batchReport { s with upd := { s.upd with batches := [] } } b).swapGo := by
  have drained : s.batchDrained id b = true := by simp [State.batchDrained, taken, settled]
  show execBatchComplete 0 s = _
  simp only [execBatchComplete, only, List.filter_cons, drained, if_true, List.filter_nil, List.getElem?_cons_zero, noFlip,
    noClose, Bool.false_eq_true, if_false, SMap.del_single]

end oneBatch

/-! ### TBL_FLIP (R367) -/

/-- A part that keeps no epochs sends nothing of the mirror stream. -/
theorem State.mirror_of_not_keeps {s : State} (n : Nat) (it : MirrorItem) (h : s.pl.keeps = false) :
    s.mirror n it = s := by
  have notActive : (s.pl.role == .active) = false := (Bool.or_eq_false_iff.mp h).1
  simp only [State.mirror, h, notActive, Bool.false_eq_true, if_false, ite_self]

theorem State.flipBegin_of_not_keeps {s : State} (f : Flip) (h : s.pl.keeps = false) :
    s.flipBegin f = { s with upd := { s.upd with flips := s.upd.flips ++ [f] } } :=
  State.mirror_of_not_keeps (s := { s with upd := { s.upd with flips := s.upd.flips ++ [f] } }) _ _ h

theorem exec_tblFlip_notServing {s : State} {c : KCmd} (h : (s.td c.a0.toNat).serves = false) :
    exec (.tblFlip c) s = .next (s.done c stTblState) := if_pos (congrArg not h)

section serving
variable {s : State} {c : KCmd} (serves : (s.td c.a0.toNat).serves = true)
include serves

theorem exec_tblFlip_notPub (h : (s.td c.a0.toNat).pub = false) : exec (.tblFlip c) s = .next (s.done c stTblBad) :=
  (if_neg (by simp [serves])).trans (if_pos (congrArg not h))

theorem exec_tblFlip_begins (pub : (s.td c.a0.toNat).pub = true) (noFlip : s.upd.flips = [])
    (noRollback : s.int.rbClosing = none) :
    exec (.tblFlip c) s = .next (s.flipBegin { table := c.a0.toNat, cmd := some (c.q.val, c.cid) }) :=
  (if_neg (by simp [serves])).trans ((if_neg (by simp [pub])).trans (if_neg (by simp [noFlip, noRollback])))

end serving

/-! ### The stages of the only flip (R367) -/

section oneFlip
variable {s : State} {f : Flip} (only : s.upd.flips = [f])
include only

/-- With no earlier record of its table still to apply, the flip switches P. -/
theorem exec_flipHoldDrained_switches (fresh : f.flipped = false)
    (drained : ∀ x ∈ s.upd.recs, x.table = f.table → x.why = 3) :
    exec (.flipHoldDrained 0) s = .next { s with upd := { s.upd with
      pub := s.upd.pub.set f.table (!s.half f.table), flips := [{ f with flipped := true }] } } := by
  have noneWaits : s.upd.recs.any (fun x => x.table == f.table && x.why != 3) = false :=
    List.any_eq_false.mpr fun x mem => by simpa using drained x mem
  show execFlipHoldDrained 0 s = _
  simp only [execFlipHoldDrained, only, List.filter_cons, fresh, Bool.not_false, if_true, List.filter_nil,
    List.getElem?_cons_zero, noneWaits, Bool.false_eq_true, if_false, List.map_cons, List.map_nil]

/-- With no list on the old half, the markers end the flip and its command. -/
theorem State.flipMarkers_ends {q : Nat} {cid : W16} (flipped : f.flipped = true) (noBatch : f.batch = none)
    (cmd : f.cmd = some (q, cid)) (latched : ∀ l ∈ s.lk.lists, l.table = f.table → l.half = s.half f.table) :
    s.flipMarkers 0 =
      (State.complete { s with upd := { s.upd with flips := [] } } q cid stSuccess).releaseHeld := by
  have noneOld : s.lk.lists.any (fun l => l.table == f.table && l.half != s.half f.table) = false :=
    List.any_eq_false.mpr fun l mem => by simpa using latched l mem
  simp only [State.flipMarkers, only, List.filter_cons, flipped, if_true, List.filter_nil, List.getElem?_cons_zero, noneOld,
    Bool.false_eq_true, if_false, bne_self_eq_false, noBatch, cmd]

end oneFlip

/-! ### UPDATE_READ_COMPLETE and JOURNAL_SPACE_FREED (R355, R372) -/

/-- The only old row that was asked for arrives, and its record goes on with it. -/
theorem exec_updateReadComplete_only {s : State} {x : PendRec} {t r : Nat} {bs : List Byte}
    (far : s.aq.far = [{ table := t, row := r, who := .update x.id, stage := .arrived bs }]) (recs : s.upd.recs = [x]) :
    exec (.updateReadComplete 0) s = .next (State.stepRec { s with
      aq := { s.aq with far := [] }, upd := { s.upd with recs := [{ x with got := true, why := 4, old := some bs }] } }
        x.id) := by
  have mine : [x].find? (fun y => FarFor.update x.id == FarFor.update y.id) = some x :=
    List.find?_cons_of_pos (beq_self_eq_true _)
  show execUpdateReadComplete 0 s = _
  simp only [execUpdateReadComplete, far, nthWhere, if_true, List.getElem?_cons_zero, List.eraseIdx_cons_zero, recs, mine,
    State.setRec, List.map_cons, List.map_nil]

theorem exec_journalSpaceFreed_none {s : State} (st : Fin 12) (h : ∀ x ∈ s.upd.recs, x.why ≠ 1) :
    exec (.journalSpaceFreed st) s = .next s := by
  have noneWaits : (s.upd.recs.filter fun x =>
      x.why == 1 && s.updUnit x.table (s.td x.table) x.row / 8 == st.val) = [] :=
    List.filter_eq_nil_iff.mpr fun x mem => by simp [h x mem]
  show execJournalSpaceFreed st s = _
  rw [execJournalSpaceFreed, noneWaits]
  rfl

/-- Settles O20: a lemma for each way in which a batch, a record or a flip goes on. -/
theorem updateFlow : Obligations.UpdateFlow := by
  unfold Obligations.UpdateFlow
  refine ⟨fun s c => exec_updBatch_misaligned, fun s c => exec_updBatch_held c, ?_, fun s => exec_updateRecord_noBatch,
    fun s id b only going left noRollback misplaced unheld => ?_,
    fun s id b only taken settled noFlip noClose _ => exec_batchComplete_plain only taken settled noFlip noClose,
    fun s c => exec_tblFlip_notServing, fun s c => exec_tblFlip_notPub,
    fun s c serves pub noFlip noRollback alone => ?_, fun s f => exec_flipHoldDrained_switches,
    fun s f q cid only flipped noBatch cmd latched => ?_, fun s x t r bs => exec_updateReadComplete_only,
    fun s st => exec_journalSpaceFreed_none st⟩
  · intro s c free aligned queue unheld s1 h b sound serves owner notStandby notIncomplete table flags zero6 zero12 zero48
      mapped aligned8 nonempty most flip
    rw [exec_updBatch_clean free aligned queue unheld sound]
    exact congrArg Host.Outcome.next (State.batchAccept_legal
      ⟨table, flags, zero6, zero12, zero48, mapped, aligned8, nonempty, most, flip⟩ serves owner notStandby notIncomplete)
  · rw [exec_updateRecord_takes only going left noRollback unheld, State.takeRecord_misplaced only misplaced]
  · rw [exec_tblFlip_begins serves pub noFlip noRollback, State.flipBegin_of_not_keeps _ alone, noFlip, List.nil_append]
  · exact congrArg Host.Outcome.next (State.flipMarkers_ends only flipped noBatch cmd latched)

end Sys2Proof.Machine
end

section
/-! SUPPORT. Update epochs, digest rebuilds and their registers (R369, R379, R382–R387). -/
namespace Sys2Proof.Machine
open Sys2Proof

/-! ### Closing an epoch (R369) -/

/-- With no close under way, a close of the open epoch begins. -/
theorem State.closeEpoch_begins {s : State} (h : s.upd.closing = none) : s.closeEpoch none = s.closeStart :=
  if_neg (by simp [h])

theorem exec_updEpoch_begins {s : State} (c : KCmd) (noCmds : s.upd.closeCmds = []) (idle : s.upd.closing = none) :
    exec (.updEpoch c) s = .next (State.closeStart { s with upd := { s.upd with
      closeCmds := [(s.upd.accepting, c.q.val, c.cid)] } }) := by
  show execUpdEpoch c s = _
  simp only [execUpdEpoch, noCmds, List.any_nil, Bool.false_eq_true, if_false, State.closeEpoch, idle, Option.isSome_none,
    List.nil_append]

/-- Update unit `u` has reached its marker: its partial digests are saved. -/
def State.markerReached (s : State) (u : Nat) : State :=
  { s with upd := { s.upd with
    markers := s.upd.markers.filter (· != u)
    saved := (s.upd.dig.filter fun kv => kv.1 / 256 == u).foldl
      (fun (m : SMap D128) (kv : Nat × D128) => m.set kv.1 kv.2) s.upd.saved } }

theorem State.unitBusy_of_noRecs {s : State} (unit n : Nat) (h : s.upd.recs = []) : s.unitBusy unit n = false := by
  rw [State.unitBusy, h, List.any_nil]

theorem exec_epochMarkerReached_idle {s : State} {u : Fin 96} {n : Nat} (closing : s.upd.closing = some n)
    (waits : s.upd.markers.contains u.val = true) (settled : s.upd.recs = []) :
    exec (.epochMarkerReached u) s = .next (if (s.markerReached u.val).upd.markers = []
      then (s.markerReached u.val).epochClosed n else s.markerReached u.val) := by
  show execEpochMarkerReached u s = _
  unfold execEpochMarkerReached
  split
  next none => exact absurd (closing.symm.trans none) nofun
  next m found =>
    cases Option.some.inj (closing.symm.trans found)
    refine (if_pos ?_).trans (congrArg Host.Outcome.next (ite_congr (propext List.isEmpty_iff) (fun _ => rfl) fun _ => rfl))
    rw [waits, State.unitBusy_of_noRecs u.val n settled]
    rfl

theorem exec_epochTimer_early {s : State}
    (h : s.upd.auto = false ∨ s.elapsed s.upd.openedAt (s.upd.epochUs.toNat * 1000) = false) :
    exec .epochTimer s = .next s :=
  congrArg Host.Outcome.next (if_neg (by rcases h with h | h <;> simp [h]))

theorem exec_epochTimer_due {s : State} (auto : s.upd.auto = true) (idle : s.upd.closing = none)
    (due : s.elapsed s.upd.openedAt (s.upd.epochUs.toNat * 1000) = true) (solo : s.pl.role = .solo) :
    exec .epochTimer s = .next s.closeStart :=
  congrArg Host.Outcome.next ((if_pos (by simp [auto, idle, due, solo])).trans (State.closeEpoch_begins idle))

/-! ### DGST_REBUILD (R379) -/

section
variable (s : State) (u : UpdState)

theorem State.blockPlace_withUpd (r : Region) (da : Nat) :
    State.blockPlace { s with upd := u } r da = s.blockPlace r da := rfl
theorem State.readCompressed_withUpd (da n : Nat) (q : Nat × Nat × Bool) :
    State.readCompressed { s with upd := u } da n q = s.readCompressed da n q := rfl
theorem State.readFlat_withUpd (n p : Nat) : State.readFlat { s with upd := u } n p = s.readFlat n p := rfl

/-- A read by device address does not depend on the updates' state. Rules for its places go before the comparison, which
then never computes where a block lies. -/
theorem State.readLine_withUpd (da n : Nat) : State.readLine { s with upd := u } da n = s.readLine da n := by
  cases h : s.place da with
  | basin k =>
    have region : State.region { s with upd := u } k = s.region k := rfl
    have flat : State.flatOf { s with upd := u } da = s.flatOf da := rfl
    rw [State.readLine_basin n h, State.readLine_basin n (s := { s with upd := u }) h, region, flat,
      State.blockPlace_withUpd, State.readCompressed_withUpd, State.readFlat_withUpd]
  | host =>
    have h' : State.place { s with upd := u } da = .host := h
    unfold State.readLine
    rw [h, h']
    generalize da - rsvBase = hpa
    rfl
  | unmapped | cistern | coreStore =>
    have h' : State.place { s with upd := u } da = s.place da := rfl
    unfold State.readLine
    rw [h', h]

theorem State.td_withUpd (t : Nat) : State.td { s with upd := u } t = s.td t := by
  have read (da n : Nat) : State.readDA { s with upd := u } da n = s.readDA da n := by
    unfold State.readDA
    simp only [State.readLine_withUpd]
  exact congrArg (fun r : Rd => if s.tda.rdy then tdOf r.data else {}) (read (s.tdDA t) 128)

theorem State.digestTables_withUpd (m : Nat) : State.digestTables { s with upd := u } m = s.digestTables m := by
  simp only [State.digestTables, State.td_withUpd]

end

theorem State.sweepModel_noTables {s : State} {m : Nat} (h : s.digestTables m = []) : s.sweepModel m = (0, false) := by
  rw [State.sweepModel, h, List.foldl_nil]

theorem State.releaseHeld_of_noRecs {s : State} (h : s.upd.recs = []) : s.releaseHeld = s := by
  have same : { s with upd := { s.upd with recs := [] } } = s := by rw [← h]
  rw [State.releaseHeld, h, List.map_nil, same]

/-- The state once D_m is taken to zero and the model's digest is good again. -/
def State.digestZeroed (s : State) (m : Nat) : State :=
  { s.digAdd hubUnit m (0 - SMap.digSum s.upd.dig m) with
    upd := { (s.digAdd hubUnit m (0 - SMap.digSum s.upd.dig m)).upd with
      rebuild := none, broken := s.upd.broken.filter (· != m) } }

/-- The state once a command's rebuild has begun. -/
def State.rebuilding (s : State) (c : KCmd) : State :=
  { s with upd := { s.upd with rebuild := some { model := c.a0.toNat, q := c.q.val, cid := c.cid } } }

/-- The sweep of a model with no serving digested table finds zero. -/
theorem exec_dgstRebuild_noTables {s : State} {c : KCmd} (idle : s.upd.rebuild = none) (noRollback : s.int.rbClosing = none)
    (settled : s.upd.recs = []) (noTables : s.digestTables c.a0.toNat = []) :
    exec (.dgstRebuild c) s = .next ((s.digestZeroed c.a0.toNat).done c stSuccess) := by
  have starts : (s.upd.rebuild.isNone && !s.int.rbClosing.isSome) = true := by rw [idle, noRollback]; rfl
  have noneWaits (p : PendRec → Bool) : (s.rebuilding c).upd.recs.any p = false :=
    (congrArg (List.any · p) settled).trans List.any_nil
  have swept : (s.rebuilding c).sweepModel c.a0.toNat = (0, false) :=
    State.sweepModel_noTables ((s.digestTables_withUpd _ _).trans noTables)
  have nothingHeld : (s.digestZeroed c.a0.toNat).releaseHeld = s.digestZeroed c.a0.toNat :=
    State.releaseHeld_of_noRecs settled
  rw [← nothingHeld]
  show execDgstRebuild c s = _
  unfold execDgstRebuild
  extract_lets _ _ _ s1
  have begun : s1 = s.rebuilding c := if_pos starts
  clear_value s1
  subst begun
  refine (if_pos rfl).trans ((if_neg (Bool.eq_false_iff.mp (noneWaits _))).trans ?_)
  rw [swept]
  rfl

/-! ### The registers (R382, R384, R387) -/

/-- A write where the path does not reach the block changes nothing (R782). -/
theorem State.onCsr_of_not_writable {s : State} {p : AccessPath} {b : CsrBlock} (f : State → State)
    (h : s.csrWritable p b = false) : s.onCsr p b f = s := if_neg (Bool.eq_false_iff.mp h)

/-- A write of HUB_UPD_CTL that keeps E and clears AUTO (R382). -/
theorem State.writeUpdCtl_sameE {s : State} {v : W32} (same : field v 16 7 = s.upd.e) (nonzero : s.upd.e ≠ 0)
    (most : s.upd.e.toNat ≤ 64) (manual : bit v 23 = false) : s.writeUpdCtl v = { s with upd := { s.upd with
      epochUs := if field v 0 16 = 0 then 1 else field v 0 16, auto := false, err := s.upd.err && !bit v 24 } } := by
  simp only [State.writeUpdCtl, same, nonzero, if_false, Nat.not_lt.mpr most, bne_self_eq_false, Bool.and_false,
    Bool.false_eq_true, Bool.or_false, manual]
  exact if_neg (by simp)

section noTable
/-! No table is live. -/

variable {s : State} (noTable : s.tda.live = [])
include noTable

theorem State.writeDgs_noTable (v : W32) : s.writeDgs v = { s with upd := { s.upd with
    dgsBase := field v 0 24, dgsSize := if field v 24 8 = (0 : Byte) then 1 else field v 24 8, ring := [] } } :=
  if_neg (by simp [State.digestedTable, noTable])

/-- A write of UU_JNL of a stack whose ring keeps no record starts the ring afresh (NOTES entry 49). -/
theorem State.writeJnl_noTable {st : Nat} (v : W32) (empty : (s.uuStack st).kept = []) :
    s.writeJnl st v = s.updUu st fun x => { x with
      base := field v 0 24, size := if field v 24 8 = (0 : Byte) then 1 else field v 24 8, wp := 0, kept := [] } :=
  (if_pos (by simp [State.jnlWritable, noTable])).trans (if_pos (by simp [empty]))

end noTable

/-- Settles O21: a lemma for each way in which a close, a rebuild or a register's write goes. -/
theorem epochsAndDigests : Obligations.EpochsAndDigests := by
  unfold Obligations.EpochsAndDigests
  refine ⟨fun s c => exec_updEpoch_begins c, fun s u n => exec_epochMarkerReached_idle, fun s => exec_epochTimer_early,
    fun s => exec_epochTimer_due, fun s c => exec_dgstRebuild_noTables,
    fun s p v writable same nonzero most manual => ?_, fun s p v writable noTable => ?_,
    fun s p st v writable noTable empty => ?_, fun s p v barred => ⟨?_, ?_⟩⟩
  · exact congrArg Host.Outcome.next
      ((State.onCsr_of_writable _ writable).trans (State.writeUpdCtl_sameE same nonzero most manual))
  · exact congrArg Host.Outcome.next ((State.onCsr_of_writable _ writable).trans (State.writeDgs_noTable noTable v))
  · exact congrArg Host.Outcome.next ((State.onCsr_of_writable _ writable).trans (State.writeJnl_noTable noTable v empty))
  · exact congrArg Host.Outcome.next (State.onCsr_of_not_writable _ barred)
  · exact congrArg Host.Outcome.next (State.onCsr_of_not_writable _ barred)

end Sys2Proof.Machine
end

section
/-! SUPPORT. How a core's instruction issues (R416–R419, R442–R444): the bundle it finds, and the ways it ends. -/
namespace Sys2Proof.Machine
open Sys2Proof

/-! ### The M slot -/

/-- The next M-slot instruction of a core takes effect at once: the core may issue, the bundle before is closed, no injected
sequencer error strikes, and the bundle was fetched clean. -/
structure State.IssuesM (s : State) (k : Nat) : Prop where
  runs : s.coreRuns k = true
  going : (s.tcore k).ended = false
  closed : (s.tcore k).vNext = false
  noError : s.injFires 8 k = false
  fetched : ∀ e ∈ (s.tcore k).fbuf, e.1 = (s.tcore k).pc → e.2 ≠ []

/-- The state after an M-slot instruction of effect `t`: it counts as issued, and the bundle's V slot is next. -/
def State.issuedM (s : State) (k : Nat) (t : State) : State :=
  t.updCore k fun x => { x.issued with vNext := true, step1 := false, sOld := (s.tcore k).s }

/-- The address that an exception records: that of ALIGN and CS_RANGE. -/
def excAddr (code addr : Nat) : Option (Nat × Bool) := if code = 4 ∨ code = 5 then some (addr, false) else none

/-- What an M-slot instruction's outcome makes of the state. -/
def State.answerM (s : State) (k opc : Nat) (w : BitVec 56) : CoreOut → Res
  | .ok t => .next (s.issuedM k t)
  | .wait => .next (s.coreWait k)
  | .raise code addr => .next (s.coreExc k code false false (s.tcore k).pc (wordOf opc w) (excAddr code addr))

section mSlot
variable {s t : State} {k opc : Nat} {w : BitVec 56} {fields : List (Nat × Nat)} {body : State → CoreOut}
  (ready : s.IssuesM k)
include ready

theorem State.mSlot_eq : s.mSlot k opc w fields body =
    s.answerM k opc w (if onlyFields w fields then body s else .raise 1 0) := by
  obtain ⟨runs, going, closed, noError, fetched⟩ := ready
  have clean : ((s.tcore k).fbuf.any fun e => e.1 == (s.tcore k).pc && e.2.isEmpty) = false := by
    simpa using fetched
  simp only [State.mSlot, runs, going, closed, noError, clean, Bool.not_true, Bool.or_self, Bool.false_eq_true, if_false]
  rfl

theorem State.mSlot_ok (only : onlyFields w fields = true) (h : body s = .ok t) :
    s.mSlot k opc w fields body = .next (s.issuedM k t) := by
  rw [State.mSlot_eq ready, if_pos only, h, State.answerM]

theorem State.mSlot_wait (only : onlyFields w fields = true) (h : body s = .wait) :
    s.mSlot k opc w fields body = .next (s.coreWait k) := by
  rw [State.mSlot_eq ready, if_pos only, h, State.answerM]

theorem State.mSlot_raise (only : onlyFields w fields = true) {code addr : Nat} (h : body s = .raise code addr) :
    s.mSlot k opc w fields body =
      .next (s.coreExc k code false false (s.tcore k).pc (wordOf opc w) (excAddr code addr)) := by
  rw [State.mSlot_eq ready, if_pos only, h, State.answerM]

theorem State.mSlot_illegal (other : onlyFields w fields = false) :
    s.mSlot k opc w fields body = .next (s.coreExc k 1 false false (s.tcore k).pc (wordOf opc w) none) := by
  rw [State.mSlot_eq ready, if_neg (by simp [other])]
  rfl

/-- An instruction that takes effect when a condition holds, and waits until then. -/
theorem State.mSlot_when {c : Prop} [Decidable c] (only : onlyFields w fields = true)
    (h : body s = if c then .ok t else .wait) :
    s.mSlot k opc w fields body = .next (if c then s.issuedM k t else s.coreWait k) := by
  split
  case isTrue hc => exact State.mSlot_ok ready only (h.trans (if_pos hc))
  case isFalse hc => exact State.mSlot_wait ready only (h.trans (if_neg hc))

end mSlot

/-! ### The V slot -/

/-- A core may issue the V slot of a bundle whose M slot was a NOP. -/
structure State.IssuesV (s : State) (k : Nat) : Prop where
  runs : s.coreRuns k = true
  going : (s.tcore k).ended = false
  fresh : (s.tcore k).vNext = false

/-- The state that the V slot of such a bundle meets: the s registers are as the bundle found them (R418). -/
def State.openedV (s : State) (k : Nat) : State := s.updCore k fun x => { x with sOld := x.s }

/-- The state after a V-slot instruction of effect `t`: the bundle ends. -/
def State.issuedV (t : State) (k : Nat) : State :=
  (t.updCore k fun x => { x.issued with step1 := x.step1 && x.vNext }).closeBundle k

/-- What a V-slot instruction's outcome makes of the state. -/
def State.answerV (s : State) (k opc : Nat) (w : BitVec 56) : CoreOut → Res
  | .ok t => .next (t.issuedV k)
  | .wait => .next (s.coreWait k)
  | .raise code addr => .next ((s.openedV k).coreExc k code true false ((s.openedV k).tcore k).pc (wordOf opc w)
      (excAddr code addr))

section vSlot
variable {s t : State} {k opc : Nat} {w : BitVec 56} {fields : List (Nat × Nat)} {body : State → CoreOut}
  (ready : s.IssuesV k)
include ready

theorem State.vSlot_eq : s.vSlot k opc w fields body =
    s.answerV k opc w (if onlyFields w fields then body (s.openedV k) else .raise 1 0) := by
  obtain ⟨runs, going, fresh⟩ := ready
  simp only [State.vSlot, runs, going, fresh, Bool.not_true, Bool.not_false, Bool.false_and, Bool.or_self,
    Bool.false_eq_true, if_false]
  rfl

theorem State.vSlot_ok (only : onlyFields w fields = true) (h : body (s.openedV k) = .ok t) :
    s.vSlot k opc w fields body = .next (t.issuedV k) := by
  rw [State.vSlot_eq ready, if_pos only, h, State.answerV]

theorem State.vSlot_raise (only : onlyFields w fields = true) {code addr : Nat}
    (h : body (s.openedV k) = .raise code addr) : s.vSlot k opc w fields body =
      .next ((s.openedV k).coreExc k code true false ((s.openedV k).tcore k).pc (wordOf opc w) (excAddr code addr)) := by
  rw [State.vSlot_eq ready, if_pos only, h, State.answerV]

end vSlot

/-! ### Accesses of the core store (R422, R663, R805) -/

theorem csCheck_misaligned {off n align : Nat} (h : off % align ≠ 0) : csCheck off n align = some (4, off) := if_pos h

theorem csCheck_legal {off n align : Nat} (aligned : off % align = 0) (inside : off + n ≤ mib) :
    csCheck off n align = none :=
  (if_neg (not_not_intro aligned)).trans (if_neg (Nat.not_lt.mpr inside))

section csRead
variable {s : State} {k : Nat} (noCe : s.injFires 1 k = false) (noUe : s.injFires 2 k = false)
include noCe noUe

theorem State.csRead_plain (off n : Nat) : s.csRead k off n = (some (s.readDA (coreStoreDA k off) n), s) := by
  simp only [State.csRead, noCe, noUe, Bool.false_eq_true, if_false]

theorem State.withCs_clean {off n : Nat} (opc : Nat) (w : BitVec 56) (f : State → List Byte → State)
    (clean : (s.readDA (coreStoreDA k off) n).poison = false) :
    s.withCs k off n opc w f = .ok (f s (s.readDA (coreStoreDA k off) n).data) := by
  simp only [State.withCs, State.csRead_plain noCe noUe, clean, Bool.false_eq_true, if_false]

end csRead

end Sys2Proof.Machine
end

section
/-! SUPPORT. The M slot's control, scalar and core-store instructions (R419, R422, R425–R427): each way in which one
ends. -/
namespace Sys2Proof.Machine
open Sys2Proof

theorem aluOp_reserved {sub : Nat} {a b : W64} (h : 10 < sub) : aluOp sub a b = none := by
  obtain ⟨n, rfl⟩ := Nat.exists_eq_add_of_lt h
  rw [show 10 + n + 1 = n + 11 by omega]
  rfl

/-- The effect of a BR: its target is set where its condition holds. -/
def State.branched (s : State) (k : Nat) (w : BitVec 56) : State :=
  if condHolds (bits w 55 53) ((s.tcore k).sreg (bits w 50 46)) ((s.tcore k).sreg (bits w 45 41))
  then s.updCore k fun x => { x with npc := some ((((s.tcore k).pc : Int) + 16 * sbits w 23 0) % 2 ^ 52).toNat }
  else s

section
variable {s : State} {k : Fin 1200} {w : BitVec 56} (ready : s.IssuesM k.val)
include ready

theorem execCoreNop_mSlot : execCoreNop k false s = .next (s.issuedM k.val s) :=
  State.mSlot_ok (w := 0) (fields := []) ready (by decide) rfl

/-! ### Scalar operations (R425, R426) -/

theorem execSop_writes {v : W64} (only : onlyFields w [(55, 51), (50, 46), (45, 41), (40, 37)] = true)
    (h : aluOp (bits w 40 37) ((s.tcore k.val).sreg (bits w 50 46)) ((s.tcore k.val).sreg (bits w 45 41)) = some v) :
    execSop k w s = .next (s.issuedM k.val (s.putS k.val (bits w 55 51) v)) := by
  unfold execSop
  exact State.mSlot_ok ready only (by simp only [h])

theorem execSop_illegal (other : onlyFields w [(55, 51), (50, 46), (45, 41), (40, 37)] = false) :
    execSop k w s = .next (s.coreExc k.val 1 false false (s.tcore k.val).pc (wordOf 0x08 w) none) := by
  unfold execSop
  exact State.mSlot_illegal ready other

theorem execSop_reserved (only : onlyFields w [(55, 51), (50, 46), (45, 41), (40, 37)] = true) (h : 10 < bits w 40 37) :
    execSop k w s = .next (s.coreExc k.val 1 false false (s.tcore k.val).pc (wordOf 0x08 w) none) := by
  unfold execSop
  exact State.mSlot_raise (addr := 0) ready only (by simp only [aluOp_reserved h])

theorem execSopi_writes {v : W64} (only : onlyFields w [(55, 51), (50, 46), (40, 37), (31, 0)] = true)
    (h : aluOp (bits w 40 37) ((s.tcore k.val).sreg (bits w 50 46)) (imm32 w) = some v) :
    execSopi k w s = .next (s.issuedM k.val (s.putS k.val (bits w 55 51) v)) := by
  unfold execSopi
  exact State.mSlot_ok ready only (by simp only [h])

theorem execSli_writes (only : onlyFields w [(55, 51), (48, 48), (31, 0)] = true) : execSli k w s =
    .next (s.issuedM k.val (s.putS k.val (bits w 55 51) (if bits w 48 48 = 1
      then setField ((s.tcore k.val).sreg (bits w 55 51)) 32 32 (BitVec.ofNat 32 (bits w 31 0)) else imm32 w))) :=
  State.mSlot_ok ready only rfl

/-! ### BR (R425) -/

theorem execBr_branches (only : onlyFields w [(55, 53), (50, 46), (45, 41), (23, 0)] = true) (legal : bits w 55 53 ≠ 7)
    (always : bits w 55 53 ≠ 0 ∨ bits w 50 41 = 0) :
    execBr k w s = .next (s.issuedM k.val (s.branched k.val w)) := by
  have noRaise : ¬ (bits w 55 53 = 7 ∨ (bits w 55 53 = 0 ∧ bits w 50 41 ≠ 0)) := by omega
  unfold execBr
  refine State.mSlot_ok ready only ((if_neg noRaise).trans ?_)
  exact (apply_ite CoreOut.ok _ _ _).symm

/-! ### END and HOLD (R419) -/

theorem execCoreEnd_eq (only : onlyFields w [] = true) : execCoreEnd k w s = .next (if s.coreDone k.val
    then s.issuedM k.val (s.updCore k.val fun x => { x with ended := true }) else s.coreWait k.val) :=
  State.mSlot_when ready only rfl

theorem execHold_eq (only : onlyFields w [] = true) : execHold k w s = .next (if s.coreDone k.val
    then s.issuedM k.val (s.updCore k.val fun x => { x with fstop := false }) else s.coreWait k.val) :=
  State.mSlot_when ready only rfl

/-! ### LDS.S and STS.S (R422, R425) -/

variable {off : Nat} (place : csAddr ((s.tcore k.val).sreg (bits w 50 46)) (sbits w 19 0) = off)
  (only : onlyFields w [(55, 51), (50, 46), (19, 0)] = true)
include place only

theorem execLdsS_misaligned (h : off % 8 ≠ 0) : execLdsS k w s =
    .next (s.coreExc k.val 4 false false (s.tcore k.val).pc (wordOf 0x0C w) (some (off, false))) := by
  unfold execLdsS
  exact State.mSlot_raise (code := 4) ready only (by simp only [place, csCheck_misaligned h])

theorem execStsS_misaligned (h : off % 8 ≠ 0) : execStsS k w s =
    .next (s.coreExc k.val 4 false false (s.tcore k.val).pc (wordOf 0x0D w) (some (off, false))) := by
  unfold execStsS
  exact State.mSlot_raise (code := 4) ready only (by simp only [place, csCheck_misaligned h])

variable (aligned : off % 8 = 0) (inside : off + 8 ≤ mib)
include aligned inside

theorem execLdsS_loads (free : s.coreHeld k.val (s.tcore k.val).here [(off, 8)] [] false = false)
    (noCe : s.injFires 1 k.val = false) (noUe : s.injFires 2 k.val = false)
    (clean : (s.readDA (coreStoreDA k.val off) 8).poison = false) :
    execLdsS k w s = .next (s.issuedM k.val (s.putS k.val (bits w 55 51)
      (BitVec.ofNat 64 (leNat (s.readDA (coreStoreDA k.val off) 8).data)))) := by
  unfold execLdsS
  refine State.mSlot_ok ready only ?_
  simp only [place, csCheck_legal aligned inside, free, State.withCs_clean noCe noUe _ _ _ clean, Bool.false_eq_true,
    if_false]

theorem execStsS_stores (free : s.coreHeld k.val (s.tcore k.val).here [] [(off, 8)] true = false) : execStsS k w s =
    .next (s.issuedM k.val (s.csWrite k.val off (leBytes 8 ((s.tcore k.val).sreg (bits w 55 51)).toNat))) := by
  unfold execStsS
  refine State.mSlot_ok ready only ?_
  simp only [place, csCheck_legal aligned inside, free, Bool.false_eq_true, if_false]

end

/-- Settles O22: a lemma for each way in which an instruction of the M slot ends. -/
theorem scalarSlot : Obligations.ScalarSlot := by
  unfold Obligations.ScalarSlot
  intro s k w runs going closed noError fetched
  have ready : s.IssuesM k.val := ⟨runs, going, closed, noError, fetched⟩
  refine ⟨execCoreNop_mSlot ready, fun v => execSop_writes ready, execSop_illegal ready, execSop_reserved ready,
    fun v => execSopi_writes ready, execSli_writes ready, execBr_branches ready,
    fun only off => ⟨execLdsS_misaligned ready rfl only off, execStsS_misaligned ready rfl only off⟩,
    execLdsS_loads ready rfl, execStsS_stores ready rfl, fun only done => ⟨?_, ?_⟩, fun only busy => ⟨?_, ?_⟩⟩
  · exact (execCoreEnd_eq ready only).trans (congrArg Host.Outcome.next (if_pos done))
  · exact (execHold_eq ready only).trans (congrArg Host.Outcome.next (if_pos done))
  · exact (execCoreEnd_eq ready only).trans (congrArg Host.Outcome.next (if_neg (Bool.eq_false_iff.mp busy)))
  · exact (execHold_eq ready only).trans (congrArg Host.Outcome.next (if_neg (Bool.eq_false_iff.mp busy)))

end Sys2Proof.Machine
end

section
/-! SUPPORT. The M slot's counter, lookup, sluice, fence, barrier and digest instructions with their events (R421,
R436–R440, R499, R500, R506, R510, R511): each way in which one ends. -/
namespace Sys2Proof.Machine
open Sys2Proof

section
variable {s : State} {k : Fin 1200} {w : BitVec 56} (ready : s.IssuesM k.val)
include ready

/-! ### Counters (R421, R436, R438) -/

theorem execCwtWait_when (wait : bits w 52 52 = 0) (only : onlyFields w [(55, 53), (52, 52), (50, 46)] = true) :
    execCwtWait k w s = .next (if ((s.tcore k.val).ctr.get 0 (bits w 55 53)
      - ((s.tcore k.val).sreg (bits w 50 46)).setWidth 32).toNat < 2 ^ 31 then s.issuedM k.val s else s.coreWait k.val) := by
  refine (if_neg (by omega)).trans (State.mSlot_when ready only ?_)
  simp only [ctrReached, decide_eq_true_eq]

theorem execCwtRead_reads (read : bits w 52 52 = 1) (only : onlyFields w [(55, 53), (52, 52), (45, 41)] = true) :
    execCwtRead k w s = .next (s.issuedM k.val
      (s.putS k.val (bits w 45 41) (((s.tcore k.val).ctr.get 0 (bits w 55 53)).setWidth 64))) :=
  (if_neg (by omega)).trans (State.mSlot_ok ready only rfl)

/-! ### LKUP (R437) -/

theorem execLkup_issues {off : Nat} (place : ((s.tcore k.val).sreg (bits w 55 51)).toNat = off)
    (only : onlyFields w [(55, 51)] = true) (aligned : off % 64 = 0) (inside : off + 64 ≤ mib)
    (free : s.coreHeld k.val (s.tcore k.val).here [(off, 64)] [] false = false) (noLists : s.lk.lists = [])
    (noCe : s.injFires 1 k.val = false) (noUe : s.injFires 2 k.val = false)
    (clean : (s.readDA (coreStoreDA k.val off) 64).poison = false) :
    execLkup k w s = .next (s.issuedM k.val
      (s.listIssue k.val (coreStoreDA k.val off) (s.readDA (coreStoreDA k.val off) 64).data)) := by
  unfold execLkup
  refine State.mSlot_ok ready only ?_
  have room : ¬ (16 ≤ (s.lk.lists.filter fun l => l.core == k.val).length
      ∨ 64 ≤ (s.lk.lists.filter fun l => l.cluster == coreCluster k.val).length) := by simp [noLists]
  simp only [place, csCheck_legal aligned inside, free, if_neg room, State.withCs_clean noCe noUe _ _ _ clean,
    Bool.false_eq_true, if_false]

/-! ### Sluices (R439, R443, R500) -/

section
variable (only : onlyFields w [(55, 50), (49, 49), (48, 41)] = true)
include only

theorem execSlw_zero (zero : bits w 48 41 = 0) :
    execSlw k w s = .next (s.coreExc k.val 2 false false (s.tcore k.val).pc (wordOf 0x20 w) none) := by
  unfold execSlw
  exact State.mSlot_raise (addr := 0) ready only (if_pos zero)

theorem execSls_zero (zero : bits w 48 41 = 0) :
    execSls k w s = .next (s.coreExc k.val 2 false false (s.tcore k.val).pc (wordOf 0x21 w) none) := by
  unfold execSls
  exact State.mSlot_raise (addr := 0) ready only (if_pos zero)

variable {side peer sl : Nat} (count : bits w 48 41 ≠ 0)
  (sluice : (s.tcore k.val).sluice (bits w 55 50) = some (side, peer, sl))
include count sluice

theorem execSlw_receives (near : side = bits w 49 49) : execSlw k w s = .next
    (if bits w 48 41 ≤ ((s.tcore k.val).sem.get 0 (bits w 55 50)).toNat then s.issuedM k.val (s.updCore k.val fun x =>
      { x with sem := x.sem.upd 0 (bits w 55 50) (· - BitVec.ofNat 32 (bits w 48 41)) }) else s.coreWait k.val) := by
  unfold execSlw
  refine State.mSlot_when ready only ?_
  simp only [if_neg count, sluice, near, ne_eq, not_true_eq_false, if_false, ← Nat.not_lt, ite_not]

theorem execSls_receiving (near : side = bits w 49 49) :
    execSls k w s = .next (s.coreExc k.val 0x0D false false (s.tcore k.val).pc (wordOf 0x21 w) none) := by
  unfold execSls
  exact State.mSlot_raise (addr := 0) ready only (by simp only [if_neg count, sluice, if_pos near])

theorem execSlw_sending (far : side ≠ bits w 49 49) :
    execSlw k w s = .next (s.coreExc k.val 0x0D false false (s.tcore k.val).pc (wordOf 0x20 w) none) := by
  unfold execSlw
  exact State.mSlot_raise (addr := 0) ready only (by simp only [if_neg count, sluice, if_pos far])

theorem execSls_sends (far : side ≠ bits w 49 49) : execSls k w s = .next (if s.coreDone k.val
    then s.issuedM k.val { s with co := { s.co with
      signals := s.co.signals ++ [{ src := k.val, dst := peer, sl := sl, cnt := bits w 48 41 }] } }
    else s.coreWait k.val) := by
  unfold execSls
  exact State.mSlot_when ready only (by simp only [if_neg count, sluice, if_neg far])

end

/-! ### Fences (R439, R443, R506) -/

section
variable (only : onlyFields w [(55, 54)] = true)
include only

theorem execFncA_marks (a : bits w 55 54 = 0) :
    execFncA k w s = .next (s.issuedM k.val (s.updCore k.val fun x => { x with fa := x.nextSeq })) :=
  (if_neg (by omega)).trans (State.mSlot_ok ready only (if_neg (by omega)))

theorem execFncR_marks (r : bits w 55 54 = 1) :
    execFncR k w s = .next (s.issuedM k.val (s.updCore k.val fun x => { x with fr := x.nextSeq })) :=
  (if_neg (by omega)).trans (State.mSlot_ok ready only (if_neg (by omega)))

theorem execFncF_when (f : bits w 55 54 = 2) :
    execFncF k w s = .next (if s.accessesDone k.val then s.issuedM k.val s else s.coreWait k.val) :=
  (if_neg (by omega)).trans (State.mSlot_when ready only (if_neg (by omega)))

theorem execFncF_reserved (h : bits w 55 54 = 3) :
    execFncF k w s = .next (s.coreExc k.val 1 false false (s.tcore k.val).pc (wordOf 0x22 w) none) :=
  (if_neg (by omega)).trans (State.mSlot_raise (addr := 0) ready only (if_pos h))

end

/-! ### BAR (R510, R511) -/

section
variable {b : BitVec 13} (barrier : (s.cluster (coreCluster k.val)).bars.get 0 (bits w 55 52) = b)
  (only : onlyFields w [(55, 52)] = true)
include barrier only

theorem execBar_outside (out : (bit b 12 && b.getLsbD (k.val % 12)) = false) :
    execBar k w s = .next (s.coreExc k.val 0x0D false false (s.tcore k.val).pc (wordOf 0x23 w) none) := by
  unfold execBar
  refine State.mSlot_raise (addr := 0) ready only ?_
  simp only [barrier, out, Bool.not_false, if_true]

theorem execBar_arrives (member : (bit b 12 && b.getLsbD (k.val % 12)) = true) (done : s.coreDone k.val = true) :
    execBar k w s = .next (s.issuedM k.val
      (s.updCore k.val fun x => { x with bar := some (bits w 55 52), waitDue := some s.gtoDue })) := by
  unfold execBar
  refine State.mSlot_ok ready only ?_
  simp only [barrier, member, done, Bool.not_true, Bool.false_eq_true, if_false, if_true]

end

/-! ### DGST (R439, R440) -/

theorem execDgst_writes {src dst n : Nat} (source : ((s.tcore k.val).sreg (bits w 55 51)).toNat = src)
    (target : ((s.tcore k.val).sreg (bits w 45 41)).toNat = dst) (size : 64 * (bits w 40 33 + 1) = n)
    (only : onlyFields w [(55, 51), (50, 46), (45, 41), (40, 33), (32, 32), (31, 31)] = true) (alignedSrc : src % 64 = 0)
    (alignedDst : dst % 16 = 0) (insideSrc : src + n ≤ mib) (insideDst : dst + 16 ≤ mib) (fresh : bits w 32 32 = 0)
    (free : s.coreHeld k.val (s.tcore k.val).here [(src, n)] [(dst, 16)] true = false) (noCe : s.injFires 1 k.val = false)
    (noUe : s.injFires 2 k.val = false) (clean : (s.readDA (coreStoreDA k.val src) n).poison = false) :
    execDgst k w s = .next (s.issuedM k.val (s.csWrite k.val dst (leBytes 16 (s.tensorDigest (bits w 31 31 == 1)
      ((s.tcore k.val).sreg (bits w 50 46)) (s.readDA (coreStoreDA k.val src) n).data % 2 ^ 128)))) := by
  unfold execDgst
  refine State.mSlot_ok ready only ?_
  have noAcc : (bits w 32 32 == 1) = false := by rw [fresh]; rfl
  simp only [source, target, size, alignedSrc, alignedDst, Nat.not_lt.mpr insideSrc, Nat.not_lt.mpr insideDst, noAcc, free,
    State.csRead_plain noCe noUe, clean, ne_eq, not_true_eq_false, Bool.false_and, Bool.or_self, Bool.false_eq_true,
    if_false]
  rw [Nat.add_zero]

end

/-! ### Events (R500, R511) -/

theorem execSluiceSignalArrival_only {s : State} {g : Signal} (only : s.co.signals = [g])
    (alone : s.partOf (coreCluster g.dst) = none) :
    execSluiceSignalArrival 0 s = .next (State.updCore { s with co := { s.co with signals := [] } } g.dst fun x =>
      { x with sem := x.sem.upd 0 g.sl (· + BitVec.ofNat 32 g.cnt) }) := by
  have noPart : State.partOf { s with co := { s.co with signals := [] } } (coreCluster g.dst) = none := alone
  simp only [execSluiceSignalArrival, only, List.getElem?_cons_zero, List.take_zero, List.any_nil, List.eraseIdx_cons_zero,
    noPart, Bool.false_eq_true, if_false]

theorem execBarrierRelease_only {s : State} {p b : Fin 16} {k : Nat} (one : s.barCores p.val b.val = [k])
    (arrived : (s.tcore k).bar = some b.val) (single : (s.co.bars.get {} (p.val * 16 + b.val)).pair = false) :
    execBarrierRelease p b false s = .next (s.updCore k fun x => { x with bar := none, waitDue := none }) := by
  simp only [execBarrierRelease, one, single, arrived, List.isEmpty_cons, List.all_cons, List.all_nil, beq_self_eq_true,
    Bool.not_false, Bool.true_or, Bool.and_self, if_true, List.foldl_cons, List.foldl_nil]

/-- Settles O23: a lemma for each way in which an instruction or an event ends. -/
theorem syncAndLookupSlot : Obligations.SyncAndLookupSlot := by
  unfold Obligations.SyncAndLookupSlot
  refine ⟨fun s k w runs going closed noError fetched => ?_, fun s g => execSluiceSignalArrival_only,
    fun s p b k => execBarrierRelease_only⟩
  have ready : s.IssuesM k.val := ⟨runs, going, closed, noError, fetched⟩
  exact ⟨execCwtWait_when ready, execCwtRead_reads ready, execLkup_issues ready rfl,
    fun only zero => ⟨execSlw_zero ready only zero, execSls_zero ready only zero⟩,
    fun side peer sl only count sluice =>
      ⟨fun near => ⟨execSlw_receives ready only count sluice near, execSls_receiving ready only count sluice near⟩,
        fun far => ⟨execSlw_sending ready only count sluice far, execSls_sends ready only count sluice far⟩⟩,
    fun only => ⟨execFncA_marks ready only, execFncR_marks ready only, execFncF_when ready only,
      execFncF_reserved ready only⟩,
    fun only => ⟨execBar_outside ready rfl only, execBar_arrives ready rfl only⟩, execDgst_writes ready rfl rfl rfl⟩

end Sys2Proof.Machine
end

section
/-! SUPPORT. The V slot (R418, R432–R435, R444): each way in which one of its instructions ends. -/
namespace Sys2Proof.Machine
open Sys2Proof

/-- What an update makes of a core depends on the core as it stands alone. -/
theorem State.updCore_congr {s : State} {k : Nat} {f g : TCore → TCore} (h : f (s.tcore k) = g (s.tcore k)) :
    s.updCore k f = s.updCore k g :=
  congrArg (fun c : TCore => { s with co := { s.co with core := s.co.core.set k c } }) h

/-- Opening the V slot changes a core's own record alone: an injected error strikes as before. -/
theorem State.openedV_injFires (s : State) (k kind target : Nat) :
    (s.openedV k).injFires kind target = s.injFires kind target := rfl

/-- What PLOG makes of two predicates; none where SUB is reserved. -/
def plogOp (sub : Nat) (a b : W64) : Option W64 :=
  match sub with
  | 0 => some (a &&& b)
  | 1 => some (a ||| b)
  | 2 => some (a ^^^ b)
  | 3 => some (a &&& ~~~b)
  | _ => none

section
variable {s : State} {k : Fin 1200} {w : BitVec 56} {o : State} {c : TCore} (ready : s.IssuesV k.val)
  (opened : s.openedV k.val = o)
include ready opened

theorem execCoreNop_vSlot : execCoreNop k true s = .next (o.issuedV k.val) := by
  subst opened
  exact State.vSlot_ok (opc := 0) (w := 0) (fields := []) (body := fun t => .ok t) ready (by decide) rfl

variable (core : o.tcore k.val = c)
include core

/-! ### VOP (R433, R805) -/

section
variable (only : onlyFields w ([fVD, fPG, fRM, fSUB] ++ vopSources (vSub w)) = true)
include only

theorem execVop_writes (legal : vSub w ≤ 0x10) (noError : s.injFires 7 k.val = false) :
    execVop k w s = .next (State.issuedV (o.updCore k.val fun x => x.putLanes (bits w 55 51) (c.laneOn w) fun i =>
      (vopLane (vSub w) (vRm w) (c.vlane (bits w 50 46) i) (c.vlane (bits w 45 41) i)
        (c.vlane (bits w 40 36) i)).getD f32Nan) k.val) := by
  subst opened core
  have noStrike : ¬ (residueChecked (vSub w) && (s.openedV k.val).injFires 7 k.val) = true := by
    rw [State.openedV_injFires, noError, Bool.and_false]
    decide
  unfold execVop
  exact State.vSlot_ok ready only ((if_neg (Nat.not_lt.mpr legal)).trans ((if_neg noStrike).trans
    (congrArg CoreOut.ok (State.updCore_congr rfl))))

theorem execVop_reserved (h : 0x10 < vSub w) :
    execVop k w s = .next (o.coreExc k.val 1 true false c.pc (wordOf 0x81 w) none) := by
  subst opened core
  unfold execVop
  exact State.vSlot_raise (addr := 0) ready only (if_pos h)

end

/-! ### Compare, select and broadcast (R433) -/

theorem execVcmp_compares (only : onlyFields w [fVA, fVB, fPG, fPD, fSUB] = true) (legal : vSub w ≤ 3) {r : Nat → Bool × Bool}
    (rel : (fun i => vcmpLane (vSub w) (c.vlane (bits w 50 46) i) (c.vlane (bits w 45 41) i)) = r) :
    execVcmp k w s = .next (State.issuedV (o.updCore k.val fun x =>
      (x.setP (bits w 32 30) (lanesOf fun i => c.laneOn w i && (r i).1)).orFlags
        { inv := (List.range 64).any fun i => c.laneOn w i && (r i).2 }) k.val) := by
  subst opened core rel
  unfold execVcmp
  exact State.vSlot_ok ready only ((if_neg (Nat.not_lt.mpr legal)).trans
    (congrArg CoreOut.ok (State.updCore_congr rfl)))

theorem execVsel_selects (only : onlyFields w [fVD, fVA, fVB, fPG, fSUB] = true) (sub : vSub w = 0) :
    execVsel k w s = .next (State.issuedV (o.updCore k.val fun x => x.putLanes (bits w 55 51) (fun _ => true) fun i =>
      { bits := if c.laneOn w i then c.vlane (bits w 50 46) i else c.vlane (bits w 45 41) i }) k.val) := by
  subst opened core
  unfold execVsel
  exact State.vSlot_ok ready only (if_neg (not_not_intro sub))

theorem execVbc_broadcasts (only : onlyFields w [fVD, fPG, fSUB, fVA] = true) (sub : vSub w = 0) :
    execVbc k w s = .next (State.issuedV (o.updCore k.val fun x => x.putLanes (bits w 55 51) (c.laneOn w) fun _ =>
      { bits := (c.sregV (bits w 50 46)).setWidth 32 }) k.val) := by
  subst opened core
  unfold execVbc
  refine State.vSlot_ok ready (by rw [sub]; exact only) ?_
  simp only [sub, Nat.not_lt_zero, if_false, if_true]
  exact congrArg CoreOut.ok (State.updCore_congr rfl)

/-! ### PLOG (R433) -/

section
variable (only : onlyFields w [(48, 46), (43, 41), fPD, fSUB] = true)
include only

theorem execPlog_writes {v : W64} (op : plogOp (vSub w) (c.preg (bits w 48 46)) (c.preg (bits w 43 41)) = some v) :
    execPlog k w s = .next (State.issuedV (o.updCore k.val fun x => x.setP (bits w 32 30) v) k.val) := by
  subst opened core
  unfold execPlog
  refine State.vSlot_ok ready only ?_
  generalize vSub w = sub at op ⊢
  match sub, op with
  | 0, rfl | 1, rfl | 2, rfl | 3, rfl => rfl

theorem execPlog_reserved (h : 3 < vSub w) :
    execPlog k w s = .next (o.coreExc k.val 1 true false c.pc (wordOf 0x86 w) none) := by
  subst opened core
  obtain ⟨n, sub⟩ := Nat.exists_eq_add_of_lt h
  unfold execPlog
  refine State.vSlot_raise (addr := 0) ready only ?_
  rw [sub, show 3 + n + 1 = n + 4 by omega]
  rfl

end

/-! ### VRED (R107, R433) -/

theorem execVred_sums (only : onlyFields w [fVD, fVA, fVC, fPG, fRM, fSUB] = true) (sub : vSub w = 0)
    (inside : bits w 50 46 + bits w 40 36 ≤ 31) (noError : s.injFires 7 k.val = false) :
    execVred k w s = .next (State.issuedV (o.updCore k.val fun x => x.putLanes (bits w 55 51) (c.laneOn w) fun i =>
      redSum (vRm w) ((List.range (bits w 40 36 + 1)).map fun j => c.vlane (bits w 50 46 + j) i)) k.val) := by
  subst opened core
  have registers : ¬ 31 < bits w 50 46 + (bits w 40 36 + 1) - 1 := by omega
  unfold execVred
  refine State.vSlot_ok ready only ?_
  have noStrike : (decide (vSub w ≤ 1) && (s.openedV k.val).injFires 7 k.val) = false := by
    rw [State.openedV_injFires, noError, Bool.and_false]
  simp only [noStrike, registers, Bool.false_eq_true, if_false]
  simp only [sub, Nat.not_lt_zero, Nat.zero_le, Nat.zero_mod, if_false, if_true]
  exact congrArg CoreOut.ok (State.updCore_congr rfl)

/-! ### LDS and STS (R434, R435) -/

section
variable (only : onlyFields w [fVD, fVA, fVC, fPG, (19, 0)] = true)
include only

theorem execLds_reservedFormat (reserved : ldsFmt (bits w 40 36) = false) :
    execLds k w s = .next (o.coreExc k.val 3 true false c.pc (wordOf 0x88 w) none) := by
  subst opened core
  unfold execLds
  refine State.vSlot_raise (addr := 0) ready only (if_pos ?_)
  rw [reserved]
  rfl

theorem execLds_loads {off : Nat} (place : csAddr (c.sregV (bits w 50 46)) (sbits w 19 0) = off) (fmt : bits w 40 36 = 0)
    (aligned : off % vecAlign 0 = 0) (inside : off + vecBytes 0 ≤ mib)
    (free : o.coreHeld k.val c.here (laneRanges 0 off (c.laneOn w)) [] false = false)
    (noCe : o.injFires 1 k.val = false) (noUe : o.injFires 2 k.val = false)
    (clean : ∀ x ∈ laneRanges 0 off (c.laneOn w), (o.readDA (coreStoreDA k.val x.1) x.2).poison = false) :
    execLds k w s = .next (State.issuedV (o.updCore k.val fun x => x.putLanes (bits w 55 51) (c.laneOn w) fun i =>
      { bits := BitVec.ofNat 32 (packedElem 32 (o.readDA (coreStoreDA k.val off) (vecBytes 0)).data i) }) k.val) := by
  subst opened core place
  have noPoison : ((laneRanges 0 _ _).find? fun x => (State.readDA _ (coreStoreDA k.val x.1) x.2).poison) = none :=
    List.find?_eq_none.mpr fun x hx => by rw [clean x hx]; decide
  have legal : (!ldsFmt 0) = false := rfl
  unfold execLds
  refine State.vSlot_ok ready only ?_
  simp only [fmt, legal, csCheck_legal aligned inside, free, State.csRead_plain noCe noUe, noPoison, Bool.false_eq_true,
    if_false, if_true]
  exact congrArg CoreOut.ok (State.updCore_congr rfl)

end

theorem execSts_stores {off : Nat} (place : csAddr (c.sregV (bits w 50 46)) (sbits w 19 0) = off)
    (only : onlyFields w [fVD, fVA, fVC, fPG, (32, 32), (31, 30), (19, 0)] = true) (fmt : bits w 40 36 = 0)
    (aligned : off % vecAlign 0 = 0) (inside : off + vecBytes 0 ≤ mib)
    (free : o.coreHeld k.val c.here [] (laneRanges 0 off (c.laneOn w)) true = false) {cv : Nat → Conv} {lanes : List Nat}
    (conv : (fun i => convVal 0 (Rm.ofCode (bits w 31 30)) (bits w 32 32 == 1) (dec32 (c.vlane (bits w 55 51) i))) = cv)
    (active : (List.range 64).filter (c.laneOn w) = lanes) :
    execSts k w s = .next (State.issuedV ((lanes.foldl (fun st i =>
      st.writeDA (coreStoreDA k.val (off + 4 * i)) (leBytes 4 (cv i).bits)) o).updCore k.val fun x =>
        x.orFlags (lanes.foldl (fun a i => a.or (cv i).flags) {})) k.val) := by
  subst opened core place conv active
  have packed : (stsFmt 0 && (isMx 0 || decide (elemBits 0 < 8))) = false := rfl
  have legal : (!stsFmt 0) = false := rfl
  have noMx : isMx 0 = false := rfl
  have notFour : ¬ elemBits 0 = 4 := by decide
  have bytes : elemBits 0 / 8 = 4 := rfl
  unfold execSts
  refine State.vSlot_ok ready (by rw [fmt]; exact only) ?_
  simp only [fmt, packed, legal, csCheck_legal aligned inside, Bool.false_and, Bool.false_eq_true, if_false]
  simp only [noMx, free, notFour, bytes, List.append_nil, Bool.false_eq_true, false_and, if_false, State.csWrite]

end

/-- Settles O25: a lemma for each way in which an instruction of the V slot ends. -/
theorem vectorSlot : Obligations.VectorSlot := by
  unfold Obligations.VectorSlot
  intro s k w runs going fresh noError
  have ready : s.IssuesV k.val := ⟨runs, going, fresh⟩
  exact ⟨execCoreNop_vSlot ready rfl,
    fun only => ⟨fun legal => execVop_writes ready rfl rfl only legal noError, execVop_reserved ready rfl rfl only⟩,
    fun only legal => execVcmp_compares ready rfl rfl only legal rfl, execVsel_selects ready rfl rfl,
    fun only sub inside => execVred_sums ready rfl rfl only sub inside noError, execVbc_broadcasts ready rfl rfl,
    fun only => ⟨fun sub => execPlog_writes ready rfl rfl only (by rw [sub]; rfl),
      fun sub => execPlog_writes ready rfl rfl only (by rw [sub]; rfl),
      fun sub => execPlog_writes ready rfl rfl only (by rw [sub]; rfl),
      fun sub => execPlog_writes ready rfl rfl only (by rw [sub]; rfl), execPlog_reserved ready rfl rfl only⟩,
    fun only fmt aligned inside => execLds_loads ready rfl rfl only rfl fmt aligned inside,
    fun reserved only => execLds_reservedFormat ready rfl rfl only reserved,
    fun only fmt aligned inside free => execSts_stores ready rfl rfl rfl only fmt aligned inside free rfl rfl⟩

end Sys2Proof.Machine
end

section
/-! SUPPORT. Fetching, deferred exceptions and the record of an exception (R416, R419, R444–R447): each way in which one
goes. -/
namespace Sys2Proof.Machine
open Sys2Proof

/-- With no injection armed, none strikes. -/
theorem State.injFires_unarmed {s : State} (h : s.hub.injArm = false) (kind target : Nat) :
    s.injFires kind target = false := by simp only [State.injFires, h, Bool.false_and]

/-! ### FETCH_LINE (R416, R419) -/

/-- A fetched line enters the fetch buffer: its bundles, or a mark without bytes where it reads poisoned. -/
def State.fetched (s : State) (k : Nat) (r : Rd) (line : List (Nat × List Byte) × Bool) : State :=
  if r.poison then s.updCore k fun x => { x with fbuf := x.fbuf ++ [(x.fpc, [])], fstop := true }
  else s.updCore k fun x => { x with fbuf := x.fbuf ++ line.1, fstop := line.2, fpc := x.fpc + 16 * line.1.length }

theorem execFetchLine_fetches {s : State} {k : Fin 1200} {n : Nat} {r : Rd} (going : (s.tcore k.val).fstop = false)
    (runs : (s.tcore k.val).stopped = false) (stream : (s.tcore k.val).stream ≠ none)
    (room : (s.tcore k.val).fbuf.length ≤ 60) (inside : (s.tcore k.val).fpc < 8 * mib) (unarmed : s.hub.injArm = false)
    (size : (64 - (s.tcore k.val).fpc % 64) / 16 = n)
    (read : s.readDA (cisternDA (coreCluster k.val) (s.tcore k.val).fpc) (16 * n) = r) :
    execFetchLine k s = .next (s.fetched k.val r (fetchLine n (s.tcore k.val).fpc r.data)) := by
  have streams := Option.isNone_eq_false_iff.mpr (Option.isSome_iff_ne_none.mpr stream)
  simp only [execFetchLine, going, runs, streams, decide_eq_false (Nat.not_lt.mpr room), decide_eq_false (Nat.not_le.mpr inside),
    State.injFires_unarmed unarmed, size, read, Bool.or_self, Bool.false_eq_true, if_false]
  exact (apply_ite Host.Outcome.next _ _ _).symm

theorem execFetchLine_idle {s : State} {k : Fin 1200} (h : (s.tcore k.val).stream = none ∨ (s.tcore k.val).stopped = true) :
    execFetchLine k s = .next s := by
  refine if_pos ?_
  rcases h with none | stopped
  · simp [none]
  · simp [stopped]

/-! ### CORE_DEFERRED_EXCEPTION (R444, R446) -/

theorem execCoreDeferredException_none {s : State} {k : Fin 1200} (h : (s.tcore k.val).defq = []) :
    execCoreDeferredException k s = .next s := by simp only [execCoreDeferredException, h]

/-- DATA_POISON keeps its address, 0 too. -/
theorem execCoreDeferredException_poison {s : State} {k : Fin 1200} {e : DeferExc} {rest : List DeferExc}
    (first : (s.tcore k.val).defq = e :: rest) (poison : e.code = 9) : execCoreDeferredException k s =
      .next ((s.updCore k.val fun x => { x with defq := rest }).coreExc k.val 9 (bit e.w 63) true e.pc e.w
        (some (e.addr, e.isDa))) := by
  simp only [execCoreDeferredException, first, poison, ne_eq, not_true_eq_false, and_false, if_false]

/-! ### An exception (R446, R447) -/

section
variable {s : State} {k : Nat} (code pc : Nat) (slot defer : Bool) (w : W64) (a : Option (Nat × Bool))

theorem State.coreExc_first (first : (s.tcore k).exc.v = false) (alone : s.partOf (coreCluster k) = none) :
    s.coreExc k code slot defer pc w a = State.coreFault (s.updCore k fun x => { x with
      stopped := true, waitDue := none, exc := {
        v := true, code := BitVec.ofNat 8 code, slot := slot, defer := defer, pc := BitVec.ofNat 52 (bundleDA k pc)
        addr := BitVec.ofNat 52 (a.getD (0, false)).1, isDa := (a.getD (0, false)).2 } }) k (0x0100 + code) 0 pc slot w a := by
  simp only [State.coreExc, first, alone, Bool.false_eq_true, if_false]

theorem State.coreExc_later (later : (s.tcore k).exc.v = true) : s.coreExc k code slot defer pc w a =
    s.updCore k fun x => { x with exc := { x.exc with more := true }, stopped := true } := if_pos later

end

/-- Settles O26: a lemma for each way in which a fetch, a deferred exception and an exception go. -/
theorem fetchAndExceptions : Obligations.FetchAndExceptions := by
  unfold Obligations.FetchAndExceptions
  refine ⟨fun s k going runs stream room inside unarmed => ?_, fun s k => execFetchLine_idle,
    fun s k => execCoreDeferredException_none, fun s k e rest => execCoreDeferredException_poison,
    fun s k code pc slot defer w a => State.coreExc_first code pc slot defer w a,
    fun s k code pc slot defer w a => State.coreExc_later code pc slot defer w a⟩
  have fetches := execFetchLine_fetches going runs stream room inside unarmed rfl rfl
  exact ⟨fun poisoned => fetches.trans (congrArg Host.Outcome.next (if_pos poisoned)),
    fun clean => fetches.trans (congrArg Host.Outcome.next (if_neg (Bool.eq_false_iff.mp clean)))⟩

end Sys2Proof.Machine
end

section
/-! SUPPORT. What memory and history accesses leave of the scheduler's state: partitions and Active Sequence Table entries
stay as they are (R528, R532, R537, R538). -/
namespace Sys2Proof.Machine
open Sys2Proof

theorem State.foldl_kept {α β : Type} (g : State → β) {f : State → α → State} (hf : ∀ st x, g (f st x) = g st) (s : State)
    (l : List α) : g (l.foldl f s) = g s :=
  List.foldlRecOn (motive := fun t : State => g t = g s) l f rfl fun t kept x _ => (hf t x).trans kept

/-! ### Reports and memory -/

@[simp] theorem State.fault_sc (s : State) (f : FaultRecord) : (s.fault f).sc = s.sc :=
  (congrArg State.sc (butReport_fault s f) :)
@[simp] theorem State.stackFault_sc (s : State) (st code chIdx kind table row bag akind addr : Nat) (extra : List Byte)
    (rung : Nat) : (s.stackFault st code chIdx kind table row bag akind addr extra rung).sc = s.sc := State.fault_sc _ _
@[simp] theorem State.hostFault_sc (s : State) (fn code addr : Nat) (hdr : List Byte) :
    (s.hostFault fn code addr hdr).sc = s.sc := (congrArg State.sc (butReport_hostFault s fn code addr hdr) :)
@[simp] theorem State.breakModel_sc (s : State) (m : Option Nat) : (s.breakModel m).sc = s.sc := by cases m <;> rfl

@[simp] theorem State.noteWrite_sc (s : State) (a : Nat) : (s.noteWrite a).sc = s.sc := by
  obtain ⟨_, noted, -⟩ := s.noteWrite_shape a
  rw [noted]

@[simp] theorem State.storeBlock_sc (s : State) (place tp : Nat) (hi : Bool) (tag : Nat) (bs : List Byte) (new : Option Nat) :
    (s.storeBlock place tp hi tag bs new).sc = s.sc :=
  State.foldl_kept State.sc (fun t _ => t.noteWrite_sc _) _ _

@[simp] theorem State.poisonBlock_sc (s : State) (place tp : Nat) (hi : Bool) : (s.poisonBlock place tp hi).sc = s.sc :=
  s.storeBlock_sc ..

@[simp] theorem State.compressBlock_sc (s : State) (r : Region) (named : Option Nat) (place tp : Nat) (hi : Bool)
    (bs : List Byte) : (s.compressBlock r named place tp hi bs).sc = s.sc := by
  unfold State.compressBlock
  split
  · simp
  · split <;> simp

@[simp] theorem State.writeBlock_sc (s : State) (r : Region) (named : Option Nat) (da off : Nat) (bs : List Byte)
    (poison : Bool) : (s.writeBlock r named da off bs poison).sc = s.sc := by
  unfold State.writeBlock
  generalize s.blockPlace r da = q
  obtain ⟨place, tp, hi⟩ := q
  dsimp only
  cases s.readBlock place tp hi <;> simp [apply_ite State.sc]

@[simp] theorem State.writeFlatLine_sc (s : State) (a : Nat) (bs : List Byte) (poison : Bool) :
    (s.writeFlatLine a bs poison).sc = s.sc := by
  simp [State.writeFlatLine, apply_ite State.sc]

@[simp] theorem State.noteDirty_sc (s : State) (region da : Nat) : (s.noteDirty region da).sc = s.sc := by
  simp [State.noteDirty, apply_ite State.sc]

/-- The partitions and the Active Sequence Table. -/
def State.tables (s : State) : SMap Part × SMap AstEntry := (s.sc.parts, s.sc.ast)

theorem State.tables_of_sc {s t : State} (h : s.sc = t.sc) : s.tables = t.tables :=
  congrArg (fun x : Sched => (x.parts, x.ast)) h

theorem State.part_of_tables {s t : State} (h : s.tables = t.tables) (p : Nat) : s.part p = t.part p :=
  congrArg (fun x : SMap Part × SMap AstEntry => SMap.get ({} : Part) x.1 p) h

/-- A write into a cistern clears a model-cache tag besides (R528). -/
theorem State.writePiece_tables (s : State) (named : Option Nat) (da : Nat) (bs : List Byte) (poison : Bool) :
    (s.writePiece named da bs poison).tables = s.tables := by
  unfold State.writePiece
  split
  · rfl
  · refine State.tables_of_sc ?_
    simp [apply_ite State.sc]
  · exact (State.tables_of_sc (s.writeFlatLine_sc da bs poison) :)
  · exact State.tables_of_sc (s.writeFlatLine_sc ..)

theorem State.writeDA_tables (s : State) (da : Nat) (bs : List Byte) (poison : Bool) :
    (s.writeDA da bs poison).tables = s.tables :=
  State.foldl_kept State.tables (fun t _ => t.writePiece_tables ..) s _

theorem State.tables_ite {c : Prop} [Decidable c] {a b : State} {u : SMap Part × SMap AstEntry} (ha : a.tables = u)
    (hb : b.tables = u) : (if c then a else b).tables = u := by split <;> assumption

theorem State.rsvWriteLine_tables (s : State) (m : Option Nat) (da : Nat) (bs : List Byte) :
    (s.rsvWriteLine m da bs).tables = s.tables := by
  have written := s.writeDA_tables da bs false
  have failed : ((s.hostFault 0 0x1003 (da - rsvBase)).breakModel m).tables = s.tables := State.tables_of_sc (by simp)
  unfold State.rsvWriteLine
  dsimp only
  split
  · exact State.tables_ite (State.tables_ite written failed) written
  · exact State.tables_ite written failed

theorem State.devWriteLine_tables (s : State) (da : Nat) (bs : List Byte) : (s.devWriteLine da bs).tables = s.tables :=
  State.tables_ite rfl (State.tables_ite (State.tables_ite rfl rfl)
    (State.tables_ite (s.rsvWriteLine_tables none da bs) (s.writeDA_tables da bs false)))

theorem State.devWrite_tables (s : State) (da : Nat) (bs : List Byte) : (s.devWrite da bs).tables = s.tables :=
  State.foldl_kept State.tables (fun t _ => t.devWriteLine_tables ..) s _

theorem State.touchBlock_tables (s : State) (da : Nat) : (s.touchBlock da).tables = s.tables := by
  unfold State.touchBlock
  split
  next n _ =>
    generalize s.blockPlace (s.region n) da = q
    obtain ⟨place, tp, hi⟩ := q
    refine State.tables_ite (State.tables_ite rfl (State.tables_of_sc ?_)) rfl
    rw [State.stackFault_sc, State.updCx_sc, State.poisonBlock_sc]
  · rfl

theorem State.touch_tables (s : State) (da n : Nat) : (s.touch da n).tables = s.tables :=
  State.tables_ite rfl (State.foldl_kept State.tables (fun t _ => t.touchBlock_tables _) s _)

theorem State.wr_tables (s : State) (da : Nat) (bs : List Byte) : (s.wr da bs).tables = s.tables :=
  (State.devWrite_tables _ da bs).trans (s.touch_tables da bs.length)

/-! ### Histories (R537, R538) -/

theorem State.histEntry_tables (s : State) (da : Nat) : (s.histEntry da).2.tables = s.tables := by
  unfold State.histEntry
  dsimp only
  cases (s.readDA da 8).poison
  · rw [if_neg Bool.false_ne_true]
    split <;> rfl
  · rw [if_pos rfl]
    split
    · exact State.tables_of_sc (s.stackFault_sc ..)
    · exact State.tables_of_sc (s.fault_sc _)

theorem State.histPage_tables (s : State) (dir n : Nat) : (s.histPage dir n).2.tables = s.tables := by
  unfold State.histPage
  have first := s.histEntry_tables (dir + 8 * (n / 8192))
  split
  next read => rw [read] at first; exact first
  next read => rw [read] at first; exact (State.histEntry_tables _ _).trans first

theorem State.stagePage_tables (s : State) (d : MDesc) (dir c n : Nat) (taken : List (Nat × Nat × Nat × Bool)) :
    (s.stagePage d dir c n taken).2.2.tables = s.tables := by
  unfold State.stagePage
  have page := s.histPage_tables dir n
  split
  next read => rw [read] at page; exact page
  next read =>
    rw [read] at page
    dsimp only
    split
    · exact page
    · split <;> exact page

theorem State.stageSeq_tables (s : State) (d : MDesc) (e : AstEntry) (c : Nat) (taken : List (Nat × Nat × Nat × Bool)) :
    (s.stageSeq d e c taken).2.2.tables = s.tables :=
  List.foldlRecOn (motive := fun acc : List Nat × List (Nat × Nat × Nat × Bool) × State => acc.2.2.tables = s.tables) _ _ rfl
    fun acc kept _ _ => (acc.2.2.stagePage_tables ..).trans kept

theorem State.batchRecords_tables (s : State) (p : Nat) (d : MDesc) (cl es : List Nat) :
    (s.batchRecords p d cl es).2.2.tables = s.tables :=
  List.foldlRecOn (motive := fun acc : Nat × List Byte × List (Nat × Nat × Nat × Bool) × State => acc.2.2.2.tables = s.tables)
    _ _ rfl fun _ kept _ _ => (State.stageSeq_tables ..).trans kept

end Sys2Proof.Machine
end

section
/-! SUPPORT. Models, steps, switches, teardowns and streams (R419, R473, R526–R530, R541–R547): each way in which a command
or an event goes. -/
namespace Sys2Proof.Machine
open Sys2Proof

/-! ### Models (R526, R527) -/

section mdlReg
variable {s s1 : State} {c : KCmd} {b : List Byte} {d : MDesc} (queue : fromMirror c = false)
  (noRecall : s.recall c.a1.toNat 128 = none) (touched : s.touch c.a1.toNat 128 = s1)
  (read : (s1.readDA c.a1.toNat 128).data = b) (desc : mdescOf b = d) (clean : (s1.readDA c.a1.toNat 128).bad = none)
  (mine : d.part = (s1.queue c.q.val).part.toNat) (number : c.a0.toNat < 256)
include queue noRecall touched read desc clean mine number

theorem execMdlReg_inUse (used : s1.sc.models.find c.a0.toNat ≠ none) :
    execMdlReg c s = .next (s1.done c stMdlInUse) := by
  subst touched read desc
  have taken := Option.isSome_iff_ne_none.mpr used
  simp only [execMdlReg, State.withInput_clean _ queue noRecall clean, mine, Nat.not_le.mpr number, taken, ne_eq,
    not_true_eq_false, false_and, if_false, if_true]

theorem execMdlReg_registers (unused : s1.sc.models.find c.a0.toNat = none)
    (room : (s1.sc.models.filter fun kv => kv.2.part == d.part).length < 32) (legal : s1.mdescOk b d = true) :
    execMdlReg c s = .next (State.done { s1 with sc := { s1.sc with
      models := s1.sc.models.set c.a0.toNat { desc := b, part := d.part } } } c stSuccess 0 b) := by
  subst touched read desc
  rw [mine] at room
  simp only [execMdlReg, State.withInput_clean _ queue noRecall clean, mine, Nat.not_le.mpr number, unused, legal,
    Nat.not_le.mpr room, ne_eq, not_true_eq_false, false_and, Option.isSome_none, Bool.not_true, Bool.false_eq_true, if_false]

end mdlReg

section model
variable {s : State} {c : KCmd}

theorem execMdlAdmit_unknown (h : s.sc.models.find c.a0.toNat = none) : execMdlAdmit c s = .next (s.done c stSqScope) := by
  simp only [execMdlAdmit, h, Option.isNone_none, if_true]

theorem execMdlUnreg_unknown (h : s.sc.models.find c.a0.toNat = none) : execMdlUnreg c s = .next (s.done c stSqScope) := by
  simp only [execMdlUnreg, h]

variable {x : Model} (known : s.sc.models.find c.a0.toNat = some x)
include known

theorem execMdlAdmit_sets (inPair : s.int.expelled = false) : execMdlAdmit c s = .next (State.done { s with sc := { s.sc with
    models := s.sc.models.set c.a0.toNat { x with admits := c.a1 == 1 } } } c stSuccess) := by
  simp only [execMdlAdmit, State.setAdmit, known, inPair, Option.isNone_some, Bool.and_false, Bool.false_eq_true, if_false]

theorem execMdlAdmit_expelled (expelled : s.int.expelled = true) (opens : c.a1 = 1) :
    execMdlAdmit c s = .next (s.done c stPartState) := by
  simp only [execMdlAdmit, known, expelled, opens, Option.isNone_some, beq_self_eq_true, Bool.and_self, Bool.false_eq_true,
    if_false, if_true]

theorem execMdlUnreg_admits (admits : x.admits = true) : execMdlUnreg c s = .next (s.done c stMdlBusy) := by
  simp only [execMdlUnreg, known, admits, Bool.true_or, if_true]

theorem execMdlUnreg_removes (admits : x.admits = false) (idle : s.modelUsed c.a0.toNat = false) :
    execMdlUnreg c s = .next (State.done { s with sc := { s.sc with
      models := s.sc.models.del c.a0.toNat
      tags := s.sc.tags.filter fun (kv : Nat × Nat) => kv.2 != c.a0.toNat } } c stSuccess) := by
  simp only [execMdlUnreg, known, admits, idle, Bool.or_self, Bool.false_eq_true, if_false]

end model

/-! ### Steps (R530, R541–R546) -/

/-- Trying to switch changes a partition's switch alone. -/
theorem State.trySwitch_part (s : State) (p : Nat) :
    ∃ sw, (s.trySwitch p).part p = { s.part p with switching := sw } := by
  unfold State.trySwitch
  dsimp only
  split
  · exact ⟨_, rfl⟩
  · split
    · exact ⟨_, s.part_updPart p _⟩
    · exact ⟨_, rfl⟩

theorem State.trySwitch_astE (s : State) (p i : Nat) : (s.trySwitch p).astE i = s.astE i := by
  unfold State.trySwitch
  dsimp only
  split
  · rfl
  · split <;> rfl

theorem State.stepForm_barred {s : State} {p : Nat} (why : List StepWhy)
    (h : ((s.part p).st ≠ .running ∧ (s.part p).st ≠ .stopping) ∨ (s.part p).depth.toNat ≤ (s.part p).lists.length) :
    s.stepForm p why = s := by
  refine if_pos ?_
  rcases h with ⟨notRunning, notStopping⟩ | full
  · simp [notRunning, notStopping]
  · simp [full]

/-- The state after a step of the entry at `a`: its list joins the partition's, and the entry runs. -/
def State.stepped (u : State) (p a : Nat) (l : SbList) (next : Nat) (stuck : Part → Nat) : State :=
  State.trySwitch ((u.updAst a fun x => { x with st := .run }).updPart p fun x =>
    { x with lists := x.lists ++ [l], nextSlot := next, stepNo := x.stepNo + 1, stuck := stuck x }) p

theorem takeBatch_one {rows : Nat → Nat} {maxRows seq i : Nat} (more : 1 ≤ seq) (fits : rows i ≤ maxRows) :
    takeBatch rows maxRows seq 0 [i] = [i] := by
  have some : ¬ seq = 0 := by omega
  have room : ¬ maxRows < 0 + rows i := by omega
  simp only [takeBatch, if_neg some, if_neg room]

theorem State.stepForm_one {s : State} {p i m : Nat} {x : Model} {why : List StepWhy} (idle : .idle ∈ why)
    (running : (s.part p).st = .running) (depth : (s.part p).depth ≠ 0) (noLists : (s.part p).lists = [])
    (noDrop : (s.part p).drop = false) (waits : s.waitingBy p = [i]) (chosen : s.chooseModel p [i] = some m)
    (model : (s.astE ((s.part p).entry i)).model = m) (known : s.sc.models.find m = some x)
    (seqs : 1 ≤ (mdescOf x.desc).maxSeq) (rows : (s.astE ((s.part p).entry i)).rows ≤ (mdescOf x.desc).maxRows) :
    ∃ (u : State) (l : SbList) (next : Nat) (stuck : Part → Nat), l.entries = [i] ∧ u.tables = s.tables
      ∧ s.stepForm p why = u.stepped p ((s.part p).entry i) l next stuck := by
  have described : s.mdesc m = some (mdescOf x.desc) := by rw [State.mdesc, known]; rfl
  have kept : s.expireSteps p = s := by simp only [State.expireSteps, noDrop, Bool.not_false, if_true]
  have room : ((s.part p).st == .running || (s.part p).st == .stopping) = true
      ∧ decide ((s.part p).depth.toNat ≤ (s.part p).lists.length) = false := by
    rw [running, noLists]
    exact ⟨rfl, decide_eq_false (Nat.not_le.mpr (Nat.pos_of_ne_zero fun h => depth (BitVec.eq_of_toNat_eq h)))⟩
  have batch : takeBatch (fun i => (s.astE ((s.part p).entry i)).rows) (mdescOf x.desc).maxRows (mdescOf x.desc).maxSeq 0 [i]
      = [i] := takeBatch_one seqs rows
  unfold State.stepForm
  simp only [room, kept, waits, chosen, described, List.filter_cons, List.filter_nil, model, beq_self_eq_true, if_true,
    List.headD_cons, batch, List.foldl_cons, List.foldl_nil]
  refine ⟨_, _, _, _, rfl, ?_, (if_neg (by decide)).trans ((if_neg ?_).trans rfl)⟩
  · rw [State.wr_tables, State.batchRecords_tables]
  · rw [Bool.not_eq_true, Bool.not_eq_false', List.any_eq_true]
    exact ⟨.idle, idle, by rw [noLists]; rfl⟩

/-- What a step of one entry shows: the list, the entry's state, and the step's number. -/
theorem State.stepped_effect {s u : State} (p i : Nat) (l : SbList) (next : Nat) (stuck : Part → Nat)
    (kept : u.tables = s.tables) : ∃ sw, (u.stepped p ((s.part p).entry i) l next stuck).part p = { s.part p with
        lists := (s.part p).lists ++ [l], nextSlot := next, stepNo := (s.part p).stepNo + 1, stuck := stuck (s.part p)
        switching := sw }
      ∧ ((u.stepped p ((s.part p).entry i) l next stuck).astE ((s.part p).entry i)).st = .run := by
  have same : (u.updAst ((s.part p).entry i) fun x => { x with st := .run }).part p = s.part p := State.part_of_tables kept p
  obtain ⟨sw, switched⟩ := State.trySwitch_part ((u.updAst ((s.part p).entry i) fun x => { x with st := .run }).updPart p
    fun x => { x with lists := x.lists ++ [l], nextSlot := next, stepNo := x.stepNo + 1, stuck := stuck x }) p
  refine ⟨sw, ?_, ?_⟩
  · rw [State.stepped, switched, State.part_updPart, same]
  · rw [State.stepped, State.trySwitch_astE]
    exact (congrArg AstEntry.st (u.astE_updAst ((s.part p).entry i) fun x => { x with st := .run }) :)

theorem execStepForm_one {s : State} {p : Fin 16} {i m : Nat} {x : Model} (running : (s.part p.val).st = .running)
    (depth : (s.part p.val).depth ≠ 0) (noLists : (s.part p.val).lists = []) (noDrop : (s.part p.val).drop = false)
    (waits : s.waitingBy p.val = [i]) (chosen : s.chooseModel p.val [i] = some m)
    (model : (s.astE ((s.part p.val).entry i)).model = m) (known : s.sc.models.find m = some x)
    (seqs : 1 ≤ (mdescOf x.desc).maxSeq) (rows : (s.astE ((s.part p.val).entry i)).rows ≤ (mdescOf x.desc).maxRows) :
    ∃ t, execStepForm p s = .next t ∧ (t.part p.val).lists.map SbList.entries = [[i]]
      ∧ (t.astE ((t.part p.val).entry i)).st = .run ∧ (t.part p.val).stepNo = (s.part p.val).stepNo + 1 := by
  obtain ⟨u, l, next, stuck, entries, kept, formed⟩ := State.stepForm_one (why := [.idle, .waited, .full, .urgent])
    (by decide) running depth noLists noDrop waits chosen model known seqs rows
  obtain ⟨sw, part, runs⟩ := State.stepped_effect p.val i l next stuck kept
  refine ⟨_, congrArg Host.Outcome.next formed, ?_, ?_, ?_⟩
  · rw [part, noLists]
    exact congrArg (fun es => [es]) entries
  · rw [part]
    exact runs
  · rw [part]

theorem execSbWorklistComplete_only {s : State} {p : Fin 16} {l : SbList} (only : (s.part p.val).lists = [l]) :
    execSbWorklistComplete p 0 s = .next (if l.fin then (s.sbFinish p.val l l.nst).trySwitch p.val else s) := by
  cases ended : l.fin <;> simp [execSbWorklistComplete, only, ended]

/-! ### Switches and teardowns (R530, R547) -/

theorem execSwitchComplete_halted {s : State} {p : Fin 16} {w : Switch} (switching : (s.part p.val).switching = some w)
    (halted : (s.part p.val).halted = true) : execSwitchComplete p s = .next s := by
  simp only [execSwitchComplete, switching, halted, if_true]

theorem execSwitchComplete_swaps {s : State} {p : Fin 16} {w : Switch} (switching : (s.part p.val).switching = some w)
    (going : (s.part p.val).halted = false) : execSwitchComplete p s =
      .next ((((s.switchOut p.val).switchIn p.val w.model).updPart p.val fun x => { x with
        ctxV := true, ctx := BitVec.ofNat 8 w.model, switching := none, switches := satInc x.switches
        stuck := 0 }).stopResume p.val) := by
  simp only [execSwitchComplete, switching, going, Bool.false_eq_true, if_false]

theorem execTeardownComplete_eq (s : State) (p : Fin 16) : execTeardownComplete p s =
    .next (if s.teardownReady p.val then (s.teardownEnd p.val).trySwitch p.val else s) :=
  (apply_ite Host.Outcome.next _ _ _).symm

/-! ### Work lists and streams (R419, R473) -/

theorem State.meshInject_unarmed {s : State} (h : s.hub.injArm = false) (cl : Nat) : s.meshInject cl = s := by
  simp only [State.meshInject, State.injFires_unarmed h, Bool.false_eq_true, if_false]

theorem execWorklistArrival_only {s : State} {wl cl : Nat} {w : WorkList} {e : WlEntry} (only : s.co.wls = [(wl, w)])
    (last : w.toArrive = [(cl, e)]) (alive : s.entryDead w.part cl e = false) (room : (s.cluster cl).wq.length < 16)
    (unarmed : s.hub.injArm = false) : execWorklistArrival wl 0 s =
      .next (State.updCluster { s with co := { s.co with wls := [(wl, { w with toArrive := [] })] } } cl
        fun c => { c with wq := c.wq ++ [e] }) := by
  have first : (s.co.wls.any fun (kv : Nat × WorkList) => kv.2.pair == w.pair && decide (kv.2.issuedNo < w.issuedNo)
      && kv.2.toArrive.any fun (x : Nat × WlEntry) => x.1 == cl) = false := by simp [only]
  have listed : s.co.wls.find wl = some w := by rw [only]; exact SMap.find_single wl w
  simp only [execWorklistArrival, listed, last, List.getElem?_cons_zero, first, alive, Nat.not_le.mpr room, removeIdx,
    Bool.false_eq_true, if_false]
  rw [State.meshInject_unarmed, only, SMap.set_single]
  exact unarmed

/-- What an update makes of a cluster depends on the cluster as it stands alone. -/
theorem State.updCluster_congr {s : State} {cl : Nat} {f g : Cluster → Cluster} (h : f (s.cluster cl) = g (s.cluster cl)) :
    s.updCluster cl f = s.updCluster cl g :=
  congrArg (fun c : Cluster => { s with co := { s.co with clu := s.co.clu.set cl c } }) h

theorem execStreamStart_only {s : State} {cl : Fin 100} {e : WlEntry} {w : WorkList} (only : (s.cluster cl.val).wq = [e])
    (listed : s.co.wls.find e.wl = some w) (alive : s.entryDead w.part cl.val e = false)
    (free : ∀ k ∈ e.list cl.val, (s.tcore k).stream = none) (may : s.mayStart w = true) (task : w.sb = false) :
    execStreamStart cl 0 s = .next ((List.range 12).foldl (fun st i =>
      if e.cores.getLsbD i then st.updCore (12 * cl.val + i) fun c => c.startStream e i (!(s.part w.part).ctxV) else st)
      (s.updCluster cl.val fun c => { c with wq := [] })) := by
  have noStream : ((e.list cl.val).any fun k => (s.tcore k).stream.isSome) = false :=
    List.any_eq_false.mpr fun k hk => by rw [free k hk]; decide
  have noSb : s.sbOf w = none := by simp only [State.sbOf, task, Bool.false_eq_true, if_false]
  have taken : (s.updCluster cl.val fun c => { c with wq := removeIdx c.wq 0 })
      = s.updCluster cl.val fun c => { c with wq := [] } := State.updCluster_congr (by rw [only]; rfl)
  simp only [execStreamStart, only, List.getElem?_cons_zero, listed, alive, noStream, List.take_zero, List.any_nil, may, noSb,
    taken, Bool.not_true, Bool.or_self, Bool.false_eq_true, if_false]

section streamComplete
variable {s : State} {k : Fin 1200} {wl : Nat} (stream : (s.tcore k.val).stream = some wl)
include stream

theorem execStreamComplete_early (going : (s.tcore k.val).ended = false) : execStreamComplete k s = .next s := by
  simp only [execStreamComplete, stream, going, Bool.false_eq_true, if_false]

theorem execStreamComplete_alone (ended : (s.tcore k.val).ended = true) (alone : s.partOf (coreCluster k.val) = none) :
    execStreamComplete k s =
      .next ((s.updCore k.val fun x => { x with stream := none, ended := false }).wlLess wl 1 false) := by
  simp only [execStreamComplete, stream, ended, alone, if_true]

end streamComplete

/-- Settles O32: a lemma for each way in which a command or an event goes. -/
theorem modelsAndSteps : Obligations.ModelsAndSteps := by
  unfold Obligations.ModelsAndSteps
  refine ⟨fun s c queue noRecall clean mine number =>
      ⟨execMdlReg_inUse queue noRecall rfl rfl rfl clean mine number,
        execMdlReg_registers queue noRecall rfl rfl rfl clean mine number⟩,
    fun s c unknown => ⟨execMdlAdmit_unknown unknown, execMdlUnreg_unknown unknown⟩,
    fun s c x known => ⟨execMdlAdmit_sets known, execMdlAdmit_expelled known, execMdlUnreg_admits known,
      execMdlUnreg_removes known⟩,
    fun s p barred => ?_, fun s p i m running depth noLists noDrop waits chosen model x d known desc seqs rows => ?_,
    fun s p l => execSbWorklistComplete_only,
    fun s p w switching => ⟨execSwitchComplete_halted switching, execSwitchComplete_swaps switching⟩,
    fun s p => execTeardownComplete_eq s p, fun s wl cl w e => execWorklistArrival_only,
    fun s cl e w => execStreamStart_only,
    fun s k wl stream => ⟨execStreamComplete_early stream, execStreamComplete_alone stream⟩⟩
  · exact ⟨congrArg Host.Outcome.next (State.stepForm_barred _ barred),
      congrArg Host.Outcome.next (State.stepForm_barred _ barred), congrArg Host.Outcome.next (State.stepForm_barred _ barred)⟩
  · subst desc
    exact execStepForm_one running depth noLists noDrop waits chosen model known seqs rows

end Sys2Proof.Machine
end

section
/-! SUPPORT. The control cores' instructions (R468–R481): an instruction of the task that a pair runs is one outcome of its
body, carried out on the running pair; each group of rows with one body has one lemma for each outcome. -/
namespace Sys2Proof.Machine
open Sys2Proof

/-! ### What a task is without its wait -/

section
variable (t : Task) (x : TaskWait)

@[simp] theorem Task.reg_wait (i : Nat) : Task.reg { t with wait := x } i = t.reg i := rfl
@[simp] theorem Task.readFrame_wait (a n : Nat) : Task.readFrame { t with wait := x } a n = t.readFrame a n := rfl
@[simp] theorem Task.handleOf_wait (v : W64) : Task.handleOf { t with wait := x } v = t.handleOf v := rfl
@[simp] theorem Task.at_wait (pc : Nat) : Task.at { t with wait := x } pc = t.at pc := rfl
@[simp] theorem Task.writeFrame_wait (a : Nat) (bs : List Byte) :
    Task.writeFrame { t with wait := x } a bs = { t.writeFrame a bs with wait := x } := rfl
/-- A write of a register changes the registers only; register 0 discards it. -/
theorem Task.setReg_eq (i : Nat) (v : W64) : t.setReg i v = { t with g := if i = 0 then t.g else t.g.set i v } := by
  unfold Task.setReg; split <;> rfl
@[simp] theorem Task.setReg_wait (i : Nat) (v : W64) :
    Task.setReg { t with wait := x } i v = { t.setReg i v with wait := x } := by
  rw [Task.setReg_eq, Task.setReg_eq]
@[simp] theorem State.frameOf_wait (s : State) : s.frameOf { t with wait := x } = s.frameOf t := rfl
@[simp] theorem State.owedFor_wait (s : State) (n sl tok : Nat) :
    s.owedFor n sl { t with wait := x } tok = s.owedFor n sl t tok := rfl
@[simp] theorem State.taskDaExc_wait (s : State) (write : Bool) (da k : Nat) :
    s.taskDaExc { t with wait := x } write da k = s.taskDaExc t write da k := rfl

end

/-! ### An instruction's outcome (R458, R468, R469) -/

/-- A word has bits set in the listed fields only. -/
abbrev usesOnly (w : BitVec 26) (used : List (Nat × Nat)) : Bool :=
  (List.range 26).all fun i => !bit w i || used.any fun f => decide (f.2 ≤ i ∧ i ≤ f.1)

/-- The state with task `sl` the one that pair `n` runs. -/
abbrev State.running (s : State) (n sl : Nat) : State := s.updPair n fun p => { p with run := some sl }

/-- Pair `n` runs, its current task is `t` in slot `sl`, at an instruction inside its program, and no mismatch is injected. -/
structure State.AtInstr (s : State) (n sl : Nat) (t : Task) (pr : Prog) : Prop where
  runs : s.pairRuns n = true
  current : s.current n = some sl
  task : s.task n sl = some t
  prog : s.cc.progs.find t.prog = some pr
  inside : t.pc + 4 ≤ pr.code.length
  quiet : s.injFires 9 n = false

namespace State.AtInstr
section
variable {s : State} {n sl : Nat} {t : Task} {pr : Prog} (h : s.AtInstr n sl t pr)
include h

theorem ccInstr_eq {w : BitVec 26} {used : List (Nat × Nat)} (zero : usesOnly w used = true)
    (body : State → Nat → Task → CcOut) : s.ccInstr n w used body = .next ((s.running n sl).ccApply n sl t pr.code.length
      (body (s.running n sl) sl { t with wait := .ready })) := by
  simp only [State.ccInstr, h.runs, h.current, h.task, h.prog, h.quiet, zero, Nat.not_lt.mpr h.inside, Bool.not_true,
    Bool.false_eq_true, if_false]

/-- A set unused bit is an ILLEGAL exception (R468). -/
theorem ccInstr_illegal {w : BitVec 26} {used : List (Nat × Nat)} (set : usesOnly w used = false)
    (body : State → Nat → Task → CcOut) :
    s.ccInstr n w used body = .next ((s.running n sl).taskExc n sl excIllegal) := by
  simp only [State.ccInstr, h.runs, h.current, h.task, h.prog, h.quiet, set, Nat.not_lt.mpr h.inside, Bool.not_true,
    Bool.not_false, Bool.false_eq_true, if_false, if_true]

theorem frameOf_running : (s.running n sl).frameOf t = pr.frame := by
  simp only [State.frameOf, State.updPair_cc, h.prog]

theorem frameExc_none {a align k : Nat} (aligned : a % align = 0) (fits : a + k ≤ pr.frame) :
    (s.running n sl).frameExc { t with wait := .ready } a align k = none := by
  simp only [State.frameExc, aligned, ne_eq, not_true_eq_false, if_false, State.frameOf_wait, h.frameOf_running,
    Nat.not_lt.mpr fits]

omit h in
theorem frameExc_align {a align : Nat} (u : Task) (k : Nat) (odd : a % align ≠ 0) :
    s.frameExc u a align k = some excAlign := if_pos odd

theorem frameExc_frame {a align k : Nat} (aligned : a % align = 0) (past : pr.frame < a + k) :
    (s.running n sl).frameExc { t with wait := .ready } a align k = some excFrame := by
  simp only [State.frameExc, aligned, ne_eq, not_true_eq_false, if_false, State.frameOf_wait, h.frameOf_running, past, if_true]

/-! ### Registers (R469) -/

theorem ccNop : s.ccInstr n 0 [] (fun s _ t => .ok s t) = .next ((s.running n sl).setTask n sl (t.at (t.pc + 4))) :=
  h.ccInstr_eq (by decide) _

variable {w : BitVec 26}

/-- RD takes the value that the row gives. -/
theorem ccSet_put {used : List (Nat × Nat)} (f : Task → Option W64) {v : W64} (zero : usesOnly w used = true)
    (value : f { t with wait := .ready } = some v) :
    s.ccSet n w used f = .next ((s.running n sl).setTask n sl (Task.at (t.setReg (iRD w) v) (t.pc + 4))) := by
  refine (h.ccInstr_eq zero _).trans ?_
  simp only [value, State.ccApply, Task.setReg_wait, Task.at_wait]

/-! ### The frame (R469) -/

theorem ccLoad_exc {k e : Nat} (zero : usesOnly w [cRD, cRA, cIMM] = true)
    (out : (s.running n sl).frameExc { t with wait := .ready } (t.reg (iRA w) + immS w).toNat k k = some e) :
    s.ccLoad n w k = .next (((s.running n sl).setTask n sl { t with wait := .ready }).taskExc n sl e) := by
  refine (h.ccInstr_eq zero _).trans ?_
  simp only [Task.reg_wait, out, State.ccApply]

theorem ccStore_exc {k e : Nat} (zero : usesOnly w [cRD, cRA, cIMM] = true)
    (out : (s.running n sl).frameExc { t with wait := .ready } (t.reg (iRA w) + immS w).toNat k k = some e) :
    s.ccStore n w k = .next (((s.running n sl).setTask n sl { t with wait := .ready }).taskExc n sl e) := by
  refine (h.ccInstr_eq zero _).trans ?_
  simp only [Task.reg_wait, out, State.ccApply]

theorem ccLoad_reads {k : Nat} (zero : usesOnly w [cRD, cRA, cIMM] = true)
    (aligned : (t.reg (iRA w) + immS w).toNat % k = 0) (fits : (t.reg (iRA w) + immS w).toNat + k ≤ pr.frame) :
    s.ccLoad n w k = .next ((s.running n sl).setTask n sl (Task.at (t.setReg (iRD w)
      (BitVec.ofNat 64 (leNat (t.readFrame (t.reg (iRA w) + immS w).toNat k)))) (t.pc + 4))) := by
  refine (h.ccInstr_eq zero _).trans ?_
  simp only [Task.reg_wait, h.frameExc_none aligned fits, State.ccApply, Task.readFrame_wait, Task.setReg_wait, Task.at_wait]

theorem ccStore_writes {k : Nat} (zero : usesOnly w [cRD, cRA, cIMM] = true)
    (aligned : (t.reg (iRA w) + immS w).toNat % k = 0) (fits : (t.reg (iRA w) + immS w).toNat + k ≤ pr.frame) :
    s.ccStore n w k = .next ((s.running n sl).setTask n sl (Task.at (t.writeFrame (t.reg (iRA w) + immS w).toNat
      (leBytes k (t.reg (iRD w)).toNat)) (t.pc + 4))) := by
  refine (h.ccInstr_eq zero _).trans ?_
  simp only [Task.reg_wait, h.frameExc_none aligned fits, State.ccApply, Task.writeFrame_wait, Task.at_wait]

/-! ### Branches and jumps (R469) -/

theorem ccBranch_not {c : Nat} (zero : usesOnly w [cRD, cRA, cIMM] = true)
    (fails : condHolds c (t.reg (iRD w)) (t.reg (iRA w)) = false) :
    s.ccBranch n w c = .next ((s.running n sl).setTask n sl (t.at (t.pc + 4))) := by
  refine (h.ccInstr_eq zero _).trans ?_
  simp only [Task.reg_wait, fails, Bool.false_eq_true, if_false, State.ccApply, Task.at_wait]

theorem ccBranch_goes {c : Nat} (zero : usesOnly w [cRD, cRA, cIMM] = true)
    (holds : condHolds c (t.reg (iRD w)) (t.reg (iRA w)) = true)
    (legal : targetExc pr.code.length (t.pc + 4 * toSigned 16 (iImm w)) = none) :
    s.ccBranch n w c =
      .next ((s.running n sl).setTask n sl (t.at ((t.pc : Int) + 4 * toSigned 16 (iImm w)).toNat)) := by
  refine (h.ccInstr_eq zero _).trans ?_
  simp only [Task.reg_wait, holds, if_true, State.ccApply, legal, Task.at_wait]

theorem ccBranch_exc {c e : Nat} (zero : usesOnly w [cRD, cRA, cIMM] = true)
    (holds : condHolds c (t.reg (iRD w)) (t.reg (iRA w)) = true)
    (out : targetExc pr.code.length (t.pc + 4 * toSigned 16 (iImm w)) = some e) :
    s.ccBranch n w c = .next ((s.running n sl).taskExc n sl e) := by
  refine (h.ccInstr_eq zero _).trans ?_
  simp only [Task.reg_wait, holds, if_true, State.ccApply, out]

omit h in
/-- A register's value that is aligned and inside the program is a legal target. -/
theorem targetExc_natCast {len x : Nat} (aligned : x % 4 = 0) (inside : x < len) : targetExc len (x : Int) = none := by
  unfold targetExc
  rw [if_neg (by omega), if_neg (by omega)]

end
end State.AtInstr

section
variable {s : State} {n : Fin 8} {sl : Nat} {t : Task} {pr : Prog} {w : BitVec 26} (h : s.AtInstr n.val sl t pr)
include h

theorem execAlu_illegal (set : usesOnly w [cRD, cRA, cRB, (3, 0)] = false) :
    execAlu n w s = .next ((s.running n.val sl).taskExc n.val sl excIllegal) := by
  unfold execAlu State.ccSet
  exact h.ccInstr_illegal set _

theorem execJal_goes (zero : usesOnly w [cRD, (20, 0)] = true)
    (legal : targetExc pr.code.length ((t.pc : Int) + 4 * toSigned 21 (cbits w 20 0)) = none) :
    execJal n w s = .next ((s.running n.val sl).setTask n.val sl (Task.at (t.setReg (iRD w) (BitVec.ofNat 64 (t.pc + 4)))
      ((t.pc : Int) + 4 * toSigned 21 (cbits w 20 0)).toNat)) := by
  unfold execJal
  refine (h.ccInstr_eq zero _).trans ?_
  simp only [State.ccApply, legal, Task.setReg_wait, Task.at_wait]

theorem execJr_goes (zero : usesOnly w [cRA] = true) (aligned : (t.reg (iRA w)).toNat % 4 = 0)
    (inside : (t.reg (iRA w)).toNat < pr.code.length) :
    execJr n w s = .next ((s.running n.val sl).setTask n.val sl (t.at (t.reg (iRA w)).toNat)) := by
  unfold execJr
  refine (h.ccInstr_eq zero _).trans ?_
  simp only [Task.reg_wait, State.ccApply, State.AtInstr.targetExc_natCast aligned inside, Task.at_wait, Int.toNat_natCast]

omit h in
/-- The six branches are one row each of `State.ccBranch`. -/
theorem exec_branch {x : Instr × Nat} (mem : x ∈ [(Instr.beq n w, 1), (Instr.bne n w, 2), (Instr.blt n w, 3),
    (Instr.bge n w, 4), (Instr.bltu n w, 5), (Instr.bgeu n w, 6)]) : exec x.1 s = s.ccBranch n.val w x.2 := by
  simp only [List.mem_cons, List.not_mem_nil, or_false] at mem
  obtain rfl | rfl | rfl | rfl | rfl | rfl := mem <;> rfl

end

/-- Settles O28: the registers by `ccSet_put`, the frame and the branches by a lemma for each outcome. -/
theorem controlRegisters : Obligations.ControlRegisters := by
  unfold Obligations.ControlRegisters
  intro s n sl t pr w runs current task prog inside quiet
  have h : s.AtInstr n.val sl t pr := ⟨runs, current, task, prog, inside, quiet⟩
  refine ⟨h.ccNop, execAlu_illegal h,
    fun v zero value => h.ccSet_put (fun t => aluOp (iSub w) (t.reg (iRA w)) (t.reg (iRB w))) zero value,
    fun zero => ⟨h.ccSet_put (fun t => some (t.reg (iRA w) + immS w)) zero rfl,
      h.ccSet_put (fun t => some (t.reg (iRA w) &&& immZ w)) zero rfl,
      h.ccSet_put (fun t => some (t.reg (iRA w) ||| immZ w)) zero rfl,
      h.ccSet_put (fun t => some (t.reg (iRA w) ^^^ immZ w)) zero rfl⟩,
    fun v zero shift value => h.ccSet_put (fun t => if cbits w 7 6 = 3 then none else
      aluOp (6 + cbits w 7 6) (t.reg (iRA w)) (BitVec.ofNat 64 (cbits w 5 0))) zero ((if_neg shift).trans value),
    fun zero => h.ccSet_put (fun _ => some (immS w)) zero rfl,
    fun zero => h.ccSet_put (fun t =>
      some (setField (t.reg (iRD w)) (16 * cbits w 17 16) 16 (BitVec.ofNat 16 (iImm w)))) zero rfl,
    fun zero => h.ccSet_put (fun _ => some (BitVec.ofNat 64 s.time.now)) zero rfl,
    fun zero aligned fits => ⟨h.ccLoad_reads zero aligned fits, h.ccStore_writes zero aligned fits⟩,
    fun zero aligned fits => ⟨h.ccLoad_reads zero aligned fits, h.ccStore_writes zero aligned fits⟩,
    fun zero odd => ⟨h.ccLoad_exc zero (State.AtInstr.frameExc_align _ _ odd),
      h.ccStore_exc zero (State.AtInstr.frameExc_align _ _ odd)⟩,
    fun zero aligned past => ⟨h.ccLoad_exc zero (h.frameExc_frame aligned past),
      h.ccStore_exc zero (h.frameExc_frame aligned past)⟩,
    fun x mem zero => ?_, execJal_goes h,
    execJr_goes h⟩
  rw [exec_branch mem]
  exact ⟨h.ccBranch_not zero, h.ccBranch_goes zero, fun e => h.ccBranch_exc zero⟩

end Sys2Proof.Machine
end

section
/-! SUPPORT. The control cores' waits, issues, posts, moves, updates and sequences (R470–R481, R532–R536). -/
namespace Sys2Proof.Machine
open Sys2Proof

/-- What RETIRE makes of an entry: one that runs is cancelled, and any other is free (R536). -/
def AstEntry.retired (e : AstEntry) : AstEntry :=
  match e.st with
  | .run => { e with cancel := true }
  | _ => {}

theorem State.part_running (s : State) (n sl i : Nat) : (s.running n sl).part i = s.part i := rfl
theorem State.astE_running (s : State) (n sl i : Nat) : (s.running n sl).astE i = s.astE i := rfl

section
variable {s : State} {n : Fin 8} {sl : Nat} {t : Task} {pr : Prog} {w : BitVec 26} (h : s.AtInstr n.val sl t pr)
include h

/-! ### SLEEP and WAITQ (R470) -/

theorem execSleep_come (zero : usesOnly w [cRA] = true) (come : (t.reg (iRA w)).toNat ≤ s.time.now) :
    execSleep n w s = .next ((s.running n.val sl).setTask n.val sl (t.at (t.pc + 4))) := by
  unfold execSleep
  refine (h.ccInstr_eq zero _).trans ?_
  simp only [Task.reg_wait, State.updPair_time, come, if_true, State.ccApply, Task.at_wait]

theorem execSleep_waits (zero : usesOnly w [cRA] = true) (later : s.time.now < (t.reg (iRA w)).toNat) :
    execSleep n w s = .next (((s.running n.val sl).setTask n.val sl (t.at (t.pc + 4))).taskWait n.val sl
      (.sleep (t.reg (iRA w)).toNat) false) := by
  unfold execSleep
  refine (h.ccInstr_eq zero _).trans ?_
  simp only [Task.reg_wait, State.updPair_time, Nat.not_le.mpr later, if_false, State.ccApply, Task.at_wait]

/-- A task with sources waits for any of them, or for one that it has. -/
theorem execWaitq_waits (zero : usesOnly w [cRD, cRA, (2, 0)] = true) (aligned : (t.reg (iRA w)).toNat % 64 = 0)
    (bound : t.sources ≠ []) (has : cbits w 2 2 = 1 ∨ cbits w 1 0 < t.sources.length) :
    execWaitq n w s = .next ((s.running n.val sl).taskWait n.val sl
      (.waitq (cbits w 1 0) (cbits w 2 2 == 1) (t.reg (iRA w)).toNat (iRD w)) false) := by
  have legal : (t.sources.isEmpty || (!(cbits w 2 2 == 1) && decide (t.sources.length ≤ cbits w 1 0))) = false := by
    have sourced : t.sources.isEmpty = false := List.isEmpty_eq_false_iff.mpr bound
    rcases has with any | one
    · simp only [sourced, any, beq_self_eq_true, Bool.not_true, Bool.false_and, Bool.or_self]
    · simp only [sourced, decide_eq_false (Nat.not_le.mpr one), Bool.and_false, Bool.or_self]
  unfold execWaitq
  refine (h.ccInstr_eq zero _).trans ?_
  simp only [Task.reg_wait, aligned, ne_eq, not_true_eq_false, if_false, legal, Bool.false_eq_true, State.ccApply]

/-! ### ISSUE and WAITI (R471–R474) -/

theorem execIssue_align (zero : usesOnly w [cRD, cRA] = true) (odd : (t.reg (iRA w)).toNat % 64 ≠ 0) :
    execIssue n w s =
      .next (((s.running n.val sl).setTask n.val sl { t with wait := .ready }).taskExc n.val sl excAlign) := by
  unfold execIssue
  refine (h.ccInstr_eq zero _).trans ?_
  simp only [Task.reg_wait, State.AtInstr.frameExc_align _ _ odd, State.ccApply]

/-- A legal list that its clusters have room for is handed out under the next handle. -/
theorem execIssue_hands {k : Nat} {b : List Byte} {cl : List Nat} (zero : usesOnly w [cRD, cRA] = true)
    (aligned : (t.reg (iRA w)).toNat % 64 = 0) (header : (t.reg (iRA w)).toNat + 16 ≤ pr.frame)
    (count : leAt (t.readFrame (t.reg (iRA w)).toNat 16) 0 2 = k) (one : 1 ≤ k) (most : k ≤ 100)
    (flags : leAt (t.readFrame (t.reg (iRA w)).toNat 16) 2 1 < 2)
    (blank : leAt (t.readFrame (t.reg (iRA w)).toNat 16) 3 13 = 0)
    (fits : (t.reg (iRA w)).toNat + 16 + 80 * k ≤ pr.frame)
    (bytes : t.readFrame (t.reg (iRA w)).toNat (16 + 80 * k) = b)
    (clusters : ((List.range k).map fun e => (wlEntryOf b 0 e).1) = cl)
    (clean : (List.range k).any (wlEntryBad b) = false) (distinct : dupNat cl = false)
    (own : ∀ c ∈ cl, s.partOf c = some t.part) (handle : t.handles.length < pr.maxh)
    (room : (s.running n.val sl).issueHeld n.val cl = false) :
    execIssue n w s = .next (((s.running n.val sl).issueList n.val sl { t with wait := .ready } t.nextHandle b k).setTask
      n.val sl (Task.at (Task.setReg { t with
        handles := t.handles.set t.nextHandle .pending, nextHandle := t.nextHandle + 1 } (iRD w)
        (Config.handleWord t.nextHandle)) (t.pc + 4))) := by
  have legal : ¬(k = 0 ∨ 100 < k ∨ 2 ≤ leAt (t.readFrame (t.reg (iRA w)).toNat 16) 2 1
      ∨ leAt (t.readFrame (t.reg (iRA w)).toNat 16) 3 13 ≠ 0) := by omega
  have mine : (cl.any fun c => (s.running n.val sl).partOf c != some t.part) = false :=
    List.any_eq_false.mpr fun c mem => by rw [show (s.running n.val sl).partOf c = _ from own c mem]; simp
  unfold execIssue
  refine (h.ccInstr_eq zero _).trans ?_
  simp only [Task.reg_wait, Task.readFrame_wait, State.frameOf_wait, h.frameExc_none aligned header, h.frameOf_running,
    count, legal, bytes, clusters, clean, distinct, mine, room, State.updPair_cc, h.prog, Nat.not_lt.mpr fits,
    Nat.not_le.mpr handle, Bool.or_self, Bool.false_eq_true, if_false, State.ccApply, Task.setReg_eq, Task.at]

theorem execWaiti_unknown (zero : usesOnly w [cRD, cRA, (0, 0)] = true) (unknown : t.handleOf (t.reg (iRA w)) = none) :
    execWaiti n w s = .next (((s.running n.val sl).setTask n.val sl { t with wait := .ready }).taskExc n.val sl 8) := by
  unfold execWaiti
  refine (h.ccInstr_eq zero _).trans ?_
  simp only [Task.reg_wait, Task.handleOf_wait, unknown, State.ccApply]

/-- A complete handle returns 0, and the task holds it no longer. -/
theorem execWaiti_complete {i : Nat} (zero : usesOnly w [cRD, cRA, (0, 0)] = true)
    (held : t.handleOf (t.reg (iRA w)) = some i) (complete : t.handles.get .pending i = .complete) :
    execWaiti n w s = .next ((s.running n.val sl).setTask n.val sl
      (Task.at (Task.setReg { t with handles := t.handles.del i } (iRD w) 0) (t.pc + 4))) := by
  unfold execWaiti
  refine (h.ccInstr_eq zero _).trans ?_
  simp only [Task.reg_wait, Task.handleOf_wait, held, complete, State.ccApply, Task.setReg_eq, Task.at]

theorem execWaiti_pending {i : Nat} (zero : usesOnly w [cRD, cRA, (0, 0)] = true)
    (held : t.handleOf (t.reg (iRA w)) = some i) (pending : t.handles.get .pending i = .pending) :
    execWaiti n w s = .next (if cbits w 0 0 = 1
      then (s.running n.val sl).setTask n.val sl (Task.at (t.setReg (iRD w) 0xFF) (t.pc + 4))
      else (s.running n.val sl).taskWait n.val sl (.waiti i) true) := by
  unfold execWaiti
  refine (h.ccInstr_eq zero _).trans ?_
  simp only [Task.reg_wait, Task.handleOf_wait, held, pending]
  split <;> simp only [State.ccApply, Task.setReg_wait, Task.at_wait]

/-! ### POST (R475, R571, R576) -/

theorem execPost_unowed (zero : usesOnly w [cRA, cRB] = true) (aligned : (t.reg (iRA w)).toNat % 32 = 0)
    (fits : (t.reg (iRA w)).toNat + 32 ≤ pr.frame)
    (unowed : (s.running n.val sl).owedFor n.val sl t (t.reg (iRB w)).toNat = none) :
    execPost n w s = .next (((s.running n.val sl).setTask n.val sl { t with wait := .ready }).taskExc n.val sl 9) := by
  unfold execPost
  refine (h.ccInstr_eq zero _).trans ?_
  simp only [Task.reg_wait, h.frameExc_none aligned fits, State.owedFor_wait, unowed, State.ccApply]

/-- The completion of a launched task's own TASK_RUN is posted with the status and result of the frame's block. -/
theorem execPost_own {o : Owed} (zero : usesOnly w [cRA, cRB] = true) (aligned : (t.reg (iRA w)).toNat % 32 = 0)
    (fits : (t.reg (iRA w)).toNat + 32 ≤ pr.frame)
    (owed : (s.running n.val sl).owedFor n.val sl t (t.reg (iRB w)).toNat = some o)
    (status : requestStatus (leAt (t.readFrame (t.reg (iRA w)).toNat 32) 18 2 % 4096) = true) (inTime : o.expired = false)
    (queue : o.kind = 0) (own : o.own = true) :
    let b := t.readFrame (t.reg (iRA w)).toNat 32
    execPost n w s = .next ((((s.running n.val sl).dropOwed n.val o).postOwed o
      (BitVec.ofNat 12 (leAt b 18 2 % 4096)) (BitVec.ofNat 64 (leAt b 0 8)) (BitVec.ofNat 32 (leAt b 8 4))).setTask n.val sl
        (t.at (t.pc + 4))) := by
  unfold execPost
  refine (h.ccInstr_eq zero _).trans ?_
  simp only [Task.reg_wait, Task.readFrame_wait, h.frameExc_none aligned fits, State.owedFor_wait, owed, status, inTime,
    queue, own, Bool.not_true, Bool.and_false, Bool.false_eq_true, if_false, Nat.zero_ne_one, State.ccApply, Task.at_wait]

/-! ### DMOV and UPD (R476, R477) -/

/-- A move out of the frame whose write is performed at once. -/
theorem execDmov_out (zero : usesOnly w [cRA, cRB, cSUB] = true) (out : cbits w 10 10 = 1)
    (memory : (t.reg (iRB w)).toNat % 64 = 0) (aligned : (t.reg (iRA w)).toNat % 64 = 0)
    (fits : (t.reg (iRA w)).toNat + 64 * (cbits w 9 0 + 1) ≤ pr.frame)
    (legal : (s.running n.val sl).taskDaExc t true (t.reg (iRB w)).toNat (cbits w 9 0 + 1) = none)
    (done : ((s.running n.val sl).wr (t.reg (iRB w)).toNat
      (t.readFrame (t.reg (iRA w)).toNat (64 * (cbits w 9 0 + 1)))).performed
        [((t.reg (iRB w)).toNat, 64 * (cbits w 9 0 + 1))] = true) :
    execDmov n w s = .next (((s.running n.val sl).wr (t.reg (iRB w)).toNat
      (t.readFrame (t.reg (iRA w)).toNat (64 * (cbits w 9 0 + 1)))).setTask n.val sl (t.at (t.pc + 4))) := by
  unfold execDmov
  refine (h.ccInstr_eq zero _).trans ?_
  simp only [Task.reg_wait, Task.readFrame_wait, State.taskDaExc_wait, memory, h.frameExc_none aligned fits, out, legal, done,
    ne_eq, not_true_eq_false, if_false, beq_self_eq_true, if_true, State.dmovOut, State.ccApply, Task.at_wait]

theorem execUpd_align (zero : usesOnly w [cRD, cRA] = true) (odd : (t.reg (iRA w)).toNat % 64 ≠ 0) :
    execUpd n w s =
      .next (((s.running n.val sl).setTask n.val sl { t with wait := .ready }).taskExc n.val sl excAlign) := by
  unfold execUpd
  refine (h.ccInstr_eq zero _).trans ?_
  simp only [Task.reg_wait, ne_eq, odd, not_false_eq_true, if_true, State.ccApply]

/-- Every handle is in use. -/
theorem execUpd_full (zero : usesOnly w [cRD, cRA] = true) (aligned : (t.reg (iRA w)).toNat % 64 = 0)
    (full : pr.maxh ≤ t.handles.length) :
    execUpd n w s = .next (((s.running n.val sl).setTask n.val sl { t with wait := .ready }).taskExc n.val sl 8) := by
  unfold execUpd
  refine (h.ccInstr_eq zero _).trans ?_
  simp only [Task.reg_wait, aligned, ne_eq, not_true_eq_false, if_false, State.updPair_cc, h.prog, full, if_true,
    State.ccApply]

/-- A clean descriptor's batch is accepted under the next handle, which stands in the task before the batch reports. -/
theorem execUpd_accepts {t2 : Task} (zero : usesOnly w [cRD, cRA] = true) (aligned : (t.reg (iRA w)).toNat % 64 = 0)
    (handle : t.handles.length < pr.maxh) (free : (s.running n.val sl).batchesHeld = false)
    (home : (s.running n.val sl).recall (t.reg (iRA w)).toNat 64 = none)
    (mapped : (((s.running n.val sl).touch (t.reg (iRA w)).toNat 64).readDA (t.reg (iRA w)).toNat 64).unmapped = false)
    (clean : (((s.running n.val sl).touch (t.reg (iRA w)).toNat 64).readDA (t.reg (iRA w)).toNat 64).poison = false) :
    let t1 := Task.setReg { t with
      wait := .ready, handles := t.handles.set t.nextHandle .pending, nextHandle := t.nextHandle + 1 } (iRD w)
      (Config.handleWord t.nextHandle)
    let s1 := (s.running n.val sl).touch (t.reg (iRA w)).toNat 64
    let s2 := (s1.setTask n.val sl t1).batchAccept (.task n.val sl t.nextHandle) t.part (t.reg (iRA w)).toNat
      (s1.readDA (t.reg (iRA w)).toNat 64).data
    s2.task n.val sl = some t2 → execUpd n w s = .next (s2.setTask n.val sl (t2.at (t.pc + 4))) := by
  dsimp only
  intro stands
  unfold execUpd
  refine (h.ccInstr_eq zero _).trans ?_
  simp only [Task.reg_wait, aligned, ne_eq, not_true_eq_false, if_false, State.updPair_cc, h.prog, Nat.not_le.mpr handle, free,
    home, mapped, clean, Bool.or_self, Bool.false_eq_true, stands, State.ccApply]

/-! ### SEQ (R478, R532–R536) -/

theorem State.AtInstr.seqOp_eq {op : Nat} {used : List (Nat × Nat)} (zero : usesOnly w ((1, 0) :: used) = true)
    (sub : cbits w 1 0 = op) (known : op ≠ 3) (body : State → Nat → Task → CcOut) :
    s.seqOp n.val w op used body = .next ((s.running n.val sl).ccApply n.val sl t pr.code.length
      (body (s.running n.val sl) sl { t with wait := .ready })) := by
  simp only [State.seqOp, sub, known, h.ccInstr_eq zero, ne_eq, not_true_eq_false, false_and, if_false]

/-- An image that the device refuses returns −2. -/
theorem execSeqCreate_refused (zero : usesOnly w [(1, 0), cRD, cRA] = true) (sub : cbits w 1 0 = 0)
    (fits : (t.reg (iRA w)).toNat + 64 ≤ pr.frame)
    (refused : (s.running n.val sl).astAdmit t.part (t.readFrame (t.reg (iRA w)).toNat 64) = none) :
    execSeqCreate n w s = .next ((s.running n.val sl).setTask n.val sl
      (Task.at (t.setReg (iRD w) 0xFFFFFFFFFFFFFFFE) (t.pc + 4))) := by
  unfold execSeqCreate
  refine (h.seqOp_eq zero sub (by decide) _).trans ?_
  simp only [Task.reg_wait, Task.readFrame_wait, h.frameExc_none (Nat.mod_one _) fits, refused, State.ccApply,
    Task.setReg_wait, Task.at_wait]

theorem execSeqRead_stranger (zero : usesOnly w [(1, 0), cRA, cRB] = true) (sub : cbits w 1 0 = 1)
    (stranger : (s.part t.part).owns (t.reg (iRA w)).toNat = false) :
    execSeqRead n w s =
      .next (((s.running n.val sl).setTask n.val sl { t with wait := .ready }).taskExc n.val sl excField) := by
  unfold execSeqRead
  refine (h.seqOp_eq zero sub (by decide) _).trans ?_
  simp only [Task.reg_wait, State.part_running, stranger, Bool.not_false, if_true, State.ccApply]

theorem execSeqRead_own (zero : usesOnly w [(1, 0), cRA, cRB] = true) (sub : cbits w 1 0 = 1)
    (own : (s.part t.part).owns (t.reg (iRA w)).toNat = true) (fits : (t.reg (iRB w)).toNat + 64 ≤ pr.frame) :
    execSeqRead n w s = .next ((s.running n.val sl).setTask n.val sl (Task.at (t.writeFrame (t.reg (iRB w)).toNat
      (s.astE ((s.part t.part).entry (t.reg (iRA w)).toNat)).bytes) (t.pc + 4))) := by
  unfold execSeqRead
  refine (h.seqOp_eq zero sub (by decide) _).trans ?_
  simp only [Task.reg_wait, State.part_running, State.astE_running, own, Bool.not_true, Bool.false_eq_true, if_false,
    h.frameExc_none (Nat.mod_one _) fits, State.ccApply, Task.writeFrame_wait, Task.at_wait]

theorem execSeqRetire_stranger (zero : usesOnly w [(1, 0), cRA] = true) (sub : cbits w 1 0 = 2)
    (stranger : (s.part t.part).owns (t.reg (iRA w)).toNat = false) :
    execSeqRetire n w s =
      .next (((s.running n.val sl).setTask n.val sl { t with wait := .ready }).taskExc n.val sl excField) := by
  unfold execSeqRetire
  refine (h.seqOp_eq zero sub (by decide) _).trans ?_
  simp only [Task.reg_wait, State.part_running, stranger, Bool.not_false, if_true, State.ccApply]

theorem execSeqRetire_own (zero : usesOnly w [(1, 0), cRA] = true) (sub : cbits w 1 0 = 2)
    (own : (s.part t.part).owns (t.reg (iRA w)).toNat = true) :
    execSeqRetire n w s = .next (((s.running n.val sl).updAst ((s.part t.part).entry (t.reg (iRA w)).toNat)
      AstEntry.retired).setTask n.val sl (t.at (t.pc + 4))) := by
  unfold execSeqRetire
  refine (h.seqOp_eq zero sub (by decide) _).trans ?_
  simp only [Task.reg_wait, State.part_running, own, Bool.not_true, Bool.false_eq_true, if_false, State.ccApply, Task.at_wait]
  rfl

/-! ### FAULT and END (R479, R481) -/

theorem execCcFault_exc (zero : usesOnly w [cIMM] = true) : execCcFault n w s =
    .next (((s.running n.val sl).setTask n.val sl { t with wait := .ready }).taskExc n.val sl 0x0D) := by
  unfold execCcFault
  exact h.ccInstr_eq zero _

theorem execTaskEnd_ends (zero : usesOnly w [] = true) :
    execTaskEnd n w s = .next ((s.running n.val sl).taskEnd n.val sl) := by
  unfold execTaskEnd
  exact h.ccInstr_eq zero _

end

/-- Settles O29: a lemma for each outcome of an instruction. -/
theorem controlWaits : Obligations.ControlWaits := by
  unfold Obligations.ControlWaits
  intro s n sl t pr w runs current task prog inside quiet
  have h : s.AtInstr n.val sl t pr := ⟨runs, current, task, prog, inside, quiet⟩
  exact ⟨fun zero => ⟨execSleep_come h zero, execSleep_waits h zero⟩, execWaitq_waits h,
    fun zero odd => ⟨execIssue_align h zero odd, execUpd_align h zero odd⟩,
    fun zero aligned header one most flags blank fits clean distinct own handle room =>
      execIssue_hands h zero aligned header rfl one most flags blank fits rfl rfl clean distinct own handle room,
    fun zero => ⟨execWaiti_unknown h zero, fun i => execWaiti_complete h zero, fun i => execWaiti_pending h zero⟩,
    fun zero aligned fits => ⟨execPost_unowed h zero aligned fits, fun o => execPost_own h zero aligned fits⟩,
    execDmov_out h,
    execUpd_full h,
    fun zero aligned handle free home mapped clean t2 =>
      execUpd_accepts h zero aligned handle free home mapped clean,
    execSeqCreate_refused h,
    fun zero sub => ⟨execSeqRead_stranger h zero sub, execSeqRead_own h zero sub⟩,
    fun zero sub => ⟨execSeqRetire_stranger h zero sub, execSeqRetire_own h zero sub⟩,
    execCcFault_exc h, execTaskEnd_ends h⟩

end Sys2Proof.Machine
end

section
/-! SUPPORT. The hub's interrupt summary and error injection, CC_PAIR_CFG and PART_BAR (R457, R515, R795–R798, R804, R805,
R827). -/
namespace Sys2Proof.Machine
open Sys2Proof

/-! ### The interrupt summary (R795–R798) -/

theorem State.msix_hub (s : State) (f v : Nat) : (s.msix f v).hub = s.hub := by
  unfold State.msix; split <;> rfl

/-- An event sets its bit, and changes nothing else of the hub's registers. -/
theorem State.irqEvent_hub (s : State) (b : Nat) :
    (s.irqEvent b).hub = { s.hub with irqSts := s.hub.irqSts ||| BitVec.ofNat 16 (2 ^ b) } := by
  simp only [State.irqEvent, apply_ite State.hub, State.msix_hub, ite_self]

theorem getLsbD_or_twoPow {b : Nat} (x : W16) (h : b < 16) : (x ||| BitVec.ofNat 16 (2 ^ b)).getLsbD b = true := by
  rw [BitVec.getLsbD_or, BitVec.getLsbD_ofNat, Nat.testBit_two_pow_self, decide_eq_true h, Bool.and_self, Bool.or_true]

/-- An enabled event on an empty enabled set sends the vector (R795). -/
theorem State.irqEvent_sends {s : State} {b : Nat} (h : b < 16) (ien : s.hub.irqIen = true)
    (empty : s.hub.irqSts &&& s.hub.irqEn = 0) (enabled : s.hub.irqEn.getLsbD b = true) (bus : s.busOk 0 = true)
    (awake : (s.func 0).d3hot = false) : (s.irqEvent b).out = s.out ++ [.msix 0 s.hub.irqVec.toNat] := by
  have nonzero : (s.hub.irqSts ||| BitVec.ofNat 16 (2 ^ b)) &&& s.hub.irqEn ≠ 0 := fun zero => by
    have at_b := congrArg (BitVec.getLsbD · b) zero
    simp only [BitVec.getLsbD_and, getLsbD_or_twoPow _ h, enabled] at at_b
    exact absurd at_b (by simp)
  have sent : (s.busOk 0 && !(s.func 0).d3hot) = true := by rw [bus, awake]; rfl
  simp only [State.irqEvent, ien, empty, beq_self_eq_true, bne_iff_ne.mpr nonzero, Bool.and_self, if_true, State.msix]
  exact congrArg State.out (if_pos sent)

theorem State.irqEvent_quiet {s : State} (b : Nat) (busy : s.hub.irqSts &&& s.hub.irqEn ≠ 0) :
    (s.irqEvent b).out = s.out := by
  simp only [State.irqEvent, beq_eq_false_iff_ne.mpr busy, Bool.and_false, Bool.false_and, Bool.false_eq_true, if_false]

section
variable {s : State} {p : AccessPath}

/-- A write of a hub register on a path that reaches the hub. -/
theorem onHub_next (may : s.csrWritable p .hub = true) (f : State → State) :
    (.next (s.onCsr p .hub f) : Res) = .next (f s) :=
  congrArg Host.Outcome.next (State.onCsr_of_writable f may)

/-! ### Error injection (R804, R827) -/

theorem State.writeInj_takes {v : W32} (unlocked : s.locked = false) (keep : bit v 17 = false)
    (legal : bit v 16 = false ∨ injLegal (field v 0 4).toNat (field v 4 12).toNat = true) :
    s.writeInj v = { s with hub := { s.hub with injKind := field v 0 4, injTarget := field v 4 12, injArm := bit v 16 } } := by
  have taken : (bit v 16 && !injLegal (field v 0 4).toNat (field v 4 12).toNat) = false := by
    rcases legal with off | legal
    · rw [off, Bool.false_and]
    · rw [legal, Bool.not_true, Bool.and_false]
  simp only [State.writeInj, unlocked, keep, taken, Bool.false_eq_true, if_false]

theorem State.writeInj_illegal {v : W32} (unlocked : s.locked = false) (arm : bit v 16 = true)
    (illegal : injLegal (field v 0 4).toNat (field v 4 12).toNat = false) :
    s.writeInj v = { s with hub := { s.hub with injFired := s.hub.injFired && !bit v 17 } } := by
  simp only [State.writeInj, unlocked, arm, illegal, Bool.not_false, Bool.and_self, Bool.false_eq_true, if_false, if_true]
  cases bit v 17 <;> simp

theorem State.writeInj_locked (v : W32) (locked : s.locked = true) :
    s.writeInj v = { s with hub := { s.hub with
      injFired := s.hub.injFired && !bit v 17, locked := s.hub.locked || field v 0 17 != 0 } } := by
  simp only [State.writeInj, locked, if_true]
  cases bit v 17 <;> simp

/-! ### CC_PAIR_CFG (R457) -/

theorem State.partBound_none (part : Nat) (queues : s.queues = []) (groups : s.host.groups = []) :
    s.partBound part = false := by
  simp [State.partBound, queues, groups]

theorem State.partBound_updPair (n part : Nat) (f : CcPair → CcPair) : (s.updPair n f).partBound part = s.partBound part := rfl

/-- The three ends of a write: the field as it was, the refusal, and the new field. -/
theorem State.writePairCfg_eq (n : Nat) (v : W32) :
    s.writePairCfg n v =
      let s0 := s.updPair n fun p => { p with err := p.err && !bit v 16 }
      let s1 := s0.updPair n fun p => { p with parts := field v 0 16 }
      if field v 0 16 = (s.pair n).parts then s0
      else if ((List.range 16).any fun p => s1.partBound p && decide ((s1.pairsOf p).length < 2))
          || (s.pair n).tasks.any (fun (kv : Nat × Task) => !bit v kv.2.part) then
        s0.updPair n fun p => { p with err := true }
      else s1 := rfl

/-- With no task of the pair and nothing bound, a write is taken. -/
theorem State.writePairCfg_takes {n : Nat} (v : W32) (tasks : (s.pair n).tasks = []) (queues : s.queues = [])
    (groups : s.host.groups = []) :
    ((s.writePairCfg n v).pair n).parts = field v 0 16
      ∧ ((s.writePairCfg n v).pair n).err = ((s.pair n).err && !bit v 16) := by
  have noneThin : ((List.range 16).any fun _ => false) = false := rfl
  simp only [State.writePairCfg_eq, State.partBound_updPair, State.partBound_none _ queues groups, Bool.false_and, noneThin,
    tasks, List.any_nil, Bool.or_self, Bool.false_eq_true, if_false]
  split
  · next same => simp only [State.pair_updPair, same, and_self]
  · simp only [State.pair_updPair, and_self]

/-- A write that takes a partition from a task of the pair is refused. -/
theorem State.writePairCfg_refused {n k : Nat} {v : W32} {task : Task} (tasks : (s.pair n).tasks = [(k, task)])
    (loses : bit v task.part = false) (changes : field v 0 16 ≠ (s.pair n).parts) :
    ((s.writePairCfg n v).pair n).err = true ∧ ((s.writePairCfg n v).pair n).parts = (s.pair n).parts := by
  simp only [State.writePairCfg_eq, tasks, List.any_cons, List.any_nil, loses, Bool.not_false, Bool.true_or, Bool.or_true,
    changes, if_false, if_true, State.pair_updPair, and_self]

/-! ### PART_BAR (R515) -/

theorem getLsbD_setField {n : Nat} (x : BitVec n) (lo w : Nat) (v : BitVec w) {i : Nat} (h : i < n) :
    (setField x lo w v).getLsbD i = if lo ≤ i ∧ i < lo + w then v.getLsbD (i - lo) else x.getLsbD i := by
  simp only [setField, BitVec.getLsbD_or, BitVec.getLsbD_and, BitVec.getLsbD_not, BitVec.getLsbD_shiftLeft,
    BitVec.getLsbD_setWidth, BitVec.getLsbD_allOnes, h, decide_true, Bool.true_and]
  by_cases low : i < lo
  · simp [low, Nat.not_le.mpr low]
  · by_cases high : i < lo + w
    · have : i - lo < w := by omega
      have : i - lo < n := by omega
      simp [*, Nat.not_lt.mp low]
    · have : w ≤ i - lo := by omega
      simp [low, high, this]

/-- What the lowest word of a barrier names outside a cluster set. -/
theorem setField_low_outside (x c : BitVec 100) (v : W32) :
    setField x 0 32 v &&& setField 0 0 32 (BitVec.allOnes 32) &&& ~~~c = (v &&& ~~~(c.extractLsb' 0 32)).setWidth 100 := by
  refine BitVec.eq_of_getLsbD_eq fun i hi => ?_
  by_cases low : i < 32
  · simp only [BitVec.getLsbD_and, getLsbD_setField _ _ _ _ hi, BitVec.getLsbD_allOnes, low]
    simp [low, hi]
  · simp only [BitVec.getLsbD_and, getLsbD_setField _ _ _ _ hi, low]
    simp [low]

theorem setWidth100_eq_zero {v : W32} : v.setWidth 100 = 0 ↔ v = 0 :=
  ⟨fun h => by simpa using congrArg (BitVec.setWidth 32) h, fun h => by rw [h]; rfl⟩

/-- A write of the lowest word of a barrier whose partition runs no context. -/
theorem State.writePartBar_low {part bar : Nat} {x : PartBar} (is : s.co.bars.get {} (16 * part + bar) = x) (v : W32)
    (idle : (s.part part).ctxV = false) :
    (s.writePartBar part bar 0 v).co.bars.get {} (16 * part + bar) =
      if setField x.cl 0 32 v = x.cl then x
      else if v &&& ~~~((s.part part).cl.extractLsb' 0 32) = 0 then { x with cl := setField x.cl 0 32 v }
      else { x with err := true } := by
  have word : decide (0 = 3) = false := rfl
  simp only [State.writePartBar, SMap.get_set_self, is, PartBar.withWord, idle, Nat.mul_zero, setField_low_outside, word,
    Bool.false_and, Bool.not_false, Bool.and_true, Bool.false_or, PartBar.mk.injEq, and_true, bne_iff_ne, ne_eq,
    setWidth100_eq_zero, ite_not]

end

/-- Settles O49: a lemma for each way in which an event or a write goes. -/
theorem globalWrites : Obligations.GlobalWrites := by
  unfold Obligations.GlobalWrites
  refine ⟨fun s b h => ⟨?_, ?_, State.irqEvent_sends h, State.irqEvent_quiet b⟩,
    fun s p v may => ⟨onHub_next may (·.writeIrqSts v), onHub_next may (·.writeIrqEn v), onHub_next may (·.writeIrqVec v)⟩,
    fun s p v may => ⟨fun unlocked keep legal => ?_, fun unlocked arm illegal => ?_, fun locked => ?_⟩,
    fun s p n v may tasks queues groups => ?_, fun s p n v k task may tasks loses changes => ?_,
    fun s p part bar v may => ?_⟩
  · rw [State.irqEvent_hub]; exact getLsbD_or_twoPow _ h
  · rw [State.irqEvent_hub]
  · exact (onHub_next may (·.writeInj v)).trans (congrArg _ (State.writeInj_takes unlocked keep legal))
  · exact (onHub_next may (·.writeInj v)).trans (congrArg _ (State.writeInj_illegal unlocked arm illegal))
  · exact (onHub_next may (·.writeInj v)).trans (congrArg _ (State.writeInj_locked v locked))
  · exact ⟨_, onHub_next may (·.writePairCfg n.val v), State.writePairCfg_takes v tasks queues groups⟩
  · exact ⟨_, onHub_next may (·.writePairCfg n.val v), State.writePairCfg_refused tasks loses changes⟩
  · intro x idle
    have low := State.writePartBar_low (bar := bar.val) rfl v idle
    refine ⟨fun inside => ⟨_, onHub_next may (·.writePartBar part.val bar.val 0 v), low.trans ?_⟩,
      fun outside changes => ⟨_, onHub_next may (·.writePartBar part.val bar.val 0 v), low.trans ?_⟩⟩
    · rw [if_pos inside]
      split
      · next same => rw [same]
      · rfl
    · rw [if_neg changes, if_neg outside]

end Sys2Proof.Machine
end

section
/-! SUPPORT. PART_START, PART_STOP and PART_SNAP with their events (R514, R515, R521, R523, R524, R549): each way in which a
command or an event goes. -/
namespace Sys2Proof

/-- A key of which a filter keeps no entry reads as the default. -/
theorem SMap.get_filter_none {α : Type} (d : α) {keep : Nat × α → Bool} {i : Nat} (none : ∀ v, keep (i, v) = false)
    (m : SMap α) : SMap.get d (m.filter keep) i = d := by
  induction m with
  | nil => rfl
  | cons kv m ih =>
    obtain ⟨k, v⟩ := kv
    by_cases same : k = i
    · subst same
      rw [List.filter_cons_of_neg (Bool.eq_false_iff.mp (none v))]
      exact ih
    · cases kept : keep (k, v)
      · rw [List.filter_cons_of_neg (Bool.eq_false_iff.mp kept)]
        exact ih
      · rw [List.filter_cons_of_pos kept]
        exact (if_neg same).trans ih

end Sys2Proof

namespace Sys2Proof.Machine
open Sys2Proof

/-! ### PART_START (R521, R523) -/

section start
variable {s : State} {p : Nat}

theorem State.startCheck_running (running : (s.part p).st = .running) : s.startCheck p = stPartState := by
  simp [State.startCheck, running]

/-- The checks that are left of a partition at rest on a part in service. -/
theorem State.startCheck_idle (d0 : s.pwr.dstate = .d0) (inPair : s.int.expelled = false)
    (idle : (s.part p).st = .unused ∨ (s.part p).st = .stopped) :
    s.startCheck p = if s.partCfgOk p = false then stPartBad else if s.partOverlap p = true then stPartOverlap
      else if (s.pairsOf p).length < 2 then stPartNoPairs else stSuccess := by
  have atRest : ((s.part p).st != .unused && (s.part p).st != .stopped) = false := by
    rcases idle with st | st <;> rw [st] <;> rfl
  simp [State.startCheck, d0, inPair, atRest]

theorem State.part_dropHist (s : State) (cl : Nat → Bool) (p : Nat) :
    ∃ lists, (s.dropHist cl).part p = { s.part p with lists := lists } :=
  ⟨_, SMap.get_mapValues (fun x : Part => { x with lists := x.lists.map fun l => { l with
    stage := l.stage.map fun x => if cl x.1 then (x.1, x.2.1, x.2.2.1, true) else x } }) {} rfl s.sc.parts p⟩

/-- What a start makes of the partition's state. -/
theorem State.part_partBegin (s : State) (p : Nat) : ∃ lists, (s.partBegin p).part p = { s.part p with
    st := .running, ctxV := false, ctx := 0, stepNo := 0, stuck := 0, nextSlot := 0, halted := false, lists := lists } := by
  obtain ⟨lists, dropped⟩ := (s.clearTags fun x => (s.part p).cl.getLsbD x).part_dropHist
    (fun x => (s.part p).cl.getLsbD x) p
  refine ⟨lists, (State.part_updPart _ p _).trans ?_⟩
  exact congrArg (fun x : Part => { x with
    st := .running, ctxV := false, ctx := 0, stepNo := 0, stuck := 0, nextSlot := 0, halted := false }) dropped

/-- A start empties the entries of the partition. -/
theorem State.astE_partBegin {i : Nat} (own : i < (s.part p).astCount.toNat) :
    (s.partBegin p).astE ((s.part p).entry i) = {} := by
  have inside : (s.part p).astBase.toNat ≤ (s.part p).entry i
      ∧ (s.part p).entry i < (s.part p).astBase.toNat + (s.part p).astCount.toNat :=
    ⟨Nat.le_add_right _ _, Nat.add_lt_add_left own _⟩
  refine SMap.get_filter_none {} (keep := fun kv => !decide ((s.part p).astBase.toNat ≤ kv.1
    ∧ kv.1 < (s.part p).astBase.toNat + (s.part p).astCount.toNat)) (fun v => ?_) s.sc.ast
  rw [decide_eq_true inside, Bool.not_true]

/-- A partition that has started runs without a context, its entries FREE. -/
theorem State.partBegin_shows (s : State) (p : Nat) : ((s.partBegin p).part p).st = .running
    ∧ ((s.partBegin p).part p).ctxV = false
    ∧ ∀ i < (s.part p).astCount.toNat, ((s.partBegin p).astE (((s.partBegin p).part p).entry i)).st = .free := by
  obtain ⟨lists, begun⟩ := s.part_partBegin p
  rw [begun]
  exact ⟨rfl, rfl, fun i own => (congrArg AstEntry.st (State.astE_partBegin own) :)⟩

end start

section command
variable {s : State} {c : KCmd}

theorem partCommands_beyond (beyond : 16 ≤ c.a0.toNat) : execPartStart c s = .next (s.done c stSqField)
    ∧ execPartStop c s = .next (s.done c stSqField) ∧ execPartSnap c s = .next (s.done c stSqField) :=
  ⟨congrArg Host.Outcome.next (if_pos beyond), congrArg Host.Outcome.next (if_pos (.inl beyond)),
    congrArg Host.Outcome.next (if_pos (.inl beyond))⟩

variable (number : c.a0.toNat < 16)
include number

theorem execPartStart_refused {code : BitVec 12} (check : s.startCheck c.a0.toNat = code) (fails : code ≠ stSuccess) :
    execPartStart c s = .next (s.done c code) := by
  simp only [execPartStart, Nat.not_le.mpr number, check, fails, if_false]

theorem execPartStart_starts (check : s.startCheck c.a0.toNat = stSuccess) :
    execPartStart c s = .next ((s.partBegin c.a0.toNat).done c stSuccess) := by
  simp only [execPartStart, Nat.not_le.mpr number, check, if_false, if_true]

/-! ### PART_STOP (R524, R549) -/

section stop
variable (mode : c.a1.toNat < 2)
include mode

theorem execPartStop_notRunning (still : (s.part c.a0.toNat).st ≠ .running) :
    execPartStop c s = .next (s.done c stPartState) := by
  simp only [execPartStop, Nat.not_le.mpr number, Nat.not_le.mpr mode, bne_iff_ne.mpr still, Bool.true_or, or_self, if_false,
    if_true]

variable (running : (s.part c.a0.toNat).st = .running) (first : (s.part c.a0.toNat).stopWait = none)
include running first

theorem execPartStop_stops (settled : (s.part c.a0.toNat).switching = none) (noTeardown : (s.part c.a0.toNat).teardown = false) :
    execPartStop c s = .next (s.stopNow c.a0.toNat
      { q := c.q.val, cid := c.cid, due := s.time.now + s.hub.gto, abort := c.a1 == 1 }) := by
  simp only [execPartStop, Nat.not_le.mpr number, Nat.not_le.mpr mode, running, first, settled, noTeardown, bne_self_eq_false,
    Option.isSome_none, Bool.or_self, Bool.false_eq_true, or_self, if_false, State.gtoDue]

theorem execPartStop_waits (teardown : (s.part c.a0.toNat).teardown = true) :
    execPartStop c s = .next (s.updPart c.a0.toNat fun x => { x with
      stopWait := some { q := c.q.val, cid := c.cid, due := s.time.now + s.hub.gto, abort := c.a1 == 1 } }) := by
  simp only [execPartStop, Nat.not_le.mpr number, Nat.not_le.mpr mode, running, first, teardown, bne_self_eq_false,
    Option.isSome_none, Bool.or_self, Bool.or_true, Bool.false_eq_true, or_self, if_false, if_true, State.gtoDue]

end stop

/-! ### PART_SNAP (R514, R515) -/

theorem execPartSnap_resumes (resume : c.a1 = 2) :
    execPartSnap c s = .next ((s.updPart c.a0.toNat fun x => { x with halted := false }).done c stSuccess) := by
  have legal : ¬ (16 ≤ c.a0.toNat ∨ 3 ≤ c.a1.toNat) := by
    rw [resume]
    exact not_or.mpr ⟨Nat.not_le.mpr number, by decide⟩
  exact congrArg Host.Outcome.next ((if_neg legal).trans (if_pos resume))

theorem execPartSnap_snaps {h : Bool} (halts : c.a1 = if h then 1 else 0) :
    execPartSnap c s = .next (s.snapBegin c.a0.toNat (some (c.q.val, c.cid)) h) := by
  have bits : (¬ 3 ≤ c.a1.toNat) ∧ c.a1 ≠ 2 ∧ (c.a1 == 1) = h := by rw [halts]; cases h <;> decide
  obtain ⟨legal, snaps, halt⟩ := bits
  simp only [execPartSnap, Nat.not_le.mpr number, legal, snaps, halt, or_self, if_false]

end command

/-! ### The end of a stop (R521, R524) -/

section stopping
variable {s : State} {p : Fin 16} {c : StopCmd}

theorem execPartStopTimeout_early (stop : (s.part p.val).stop = some c) (early : s.time.now < c.due) :
    execPartStopTimeout p s = .next s := by
  simp only [execPartStopTimeout, stop, State.gtoPassed, decide_eq_false (Nat.not_le.mpr early), Bool.not_false, Bool.or_true,
    if_true]

/-- With no entry in use and a teardown already running, forcing a stop only marks it. -/
theorem execPartStopTimeout_forces (stop : (s.part p.val).stop = some c) (due : c.due ≤ s.time.now) (fresh : c.forced = false)
    (stopping : (s.part p.val).st = .stopping) (unused : s.used p.val = []) (teardown : (s.part p.val).teardown = true) :
    execPartStopTimeout p s = .next (s.updPart p.val fun x => { x with stop := some { c with forced := true } }) := by
  simp only [execPartStopTimeout, stop, State.gtoPassed, decide_eq_true due, fresh, stopping, unused, teardown,
    bne_self_eq_false, Bool.not_true, Bool.or_self, Bool.and_false, Bool.false_eq_true, if_false, List.foldl_nil]

theorem execPartStopped_ends (stop : (s.part p.val).stop = some c) (stopping : (s.part p.val).st = .stopping)
    (noTeardown : (s.part p.val).teardown = false) (unused : s.used p.val = []) (noWork : s.partLists p.val = [])
    (noSteps : (s.part p.val).lists = []) (steward : s.stw.st ≠ .running) :
    execPartStopped p s = .next (State.complete (s.updPart p.val fun x => { x with
      st := .stopped, stop := none, ctxV := false, ctx := 0, switching := none, halted := false }) c.q c.cid stSuccess) := by
  simp only [execPartStopped, stop, stopping, noTeardown, unused, noWork, noSteps, beq_eq_false_iff_ne.mpr steward,
    beq_self_eq_true, Bool.not_false, List.isEmpty_nil, Bool.and_self, Bool.false_eq_true, if_false, if_true]

theorem execPartStopped_other (other : (s.part p.val).st ≠ .stopping) : execPartStopped p s = .next s := by
  simp only [execPartStopped, beq_eq_false_iff_ne.mpr other, Bool.false_and, Bool.false_eq_true, if_false]

/-! ### The events of a snapshot (R514, R515) -/

theorem snapshotEvents_none (none : (s.part p.val).snap = none) :
    execSnapshotGatherDeadline p s = .next s ∧ execSnapshotComplete p s = .next s := by
  simp only [execSnapshotGatherDeadline, execSnapshotComplete, none, and_self]

variable {y : Snap} (snap : (s.part p.val).snap = some y)
include snap

theorem execSnapshotGatherDeadline_records (due : s.elapsed y.start 3400 = true) (first : y.pending = none) :
    execSnapshotGatherDeadline p s = .next (s.updPart p.val fun x => { x with
      snap := some { y with pending := some (s.gathersOf p.val true + s.gathersOf p.val false) } }) := by
  simp only [execSnapshotGatherDeadline, snap, due, first, Option.isNone_none, Bool.and_self, if_true]

theorem execSnapshotGatherDeadline_early (early : s.elapsed y.start 3400 = false) :
    execSnapshotGatherDeadline p s = .next s := by
  simp only [execSnapshotGatherDeadline, snap, early, Bool.false_and, Bool.false_eq_true, if_false]

theorem execSnapshotComplete_busy (busy : s.mmasIn p.val = true) : execSnapshotComplete p s = .next s := by
  simp only [execSnapshotComplete, snap, busy, Bool.not_true, Bool.false_and, Bool.false_eq_true, if_false]

theorem execSnapshotComplete_ends (noMma : s.mmasIn p.val = false) (noGather : s.gathersOf p.val false = 0) :
    execSnapshotComplete p s = .next ((y.cmds.foldl (fun st c => st.complete c.1 c.2 stSuccess)
      (s.updPart p.val fun x => { x with snap := none, halted := x.halted || y.halt })).cutDone p.val) := by
  simp only [execSnapshotComplete, snap, noMma, noGather, beq_self_eq_true, Bool.not_false, Bool.or_true, Bool.and_self, if_true]

end stopping

/-- Settles O31: a lemma for each way in which a command or an event goes. -/
theorem partitionCommands : Obligations.PartitionCommands := by
  unfold Obligations.PartitionCommands
  refine ⟨fun s c => partCommands_beyond, fun s c number d0 inPair => ?_,
    fun s c number mode => ⟨execPartStop_notRunning number mode, execPartStop_stops number mode,
      execPartStop_waits number mode⟩,
    fun s p c => execPartStopTimeout_early, fun s p c => execPartStopTimeout_forces, fun s p c => execPartStopped_ends,
    fun s p => execPartStopped_other,
    fun s c number => ⟨execPartSnap_resumes number, fun h halts _ => execPartSnap_snaps number halts⟩,
    fun s p => snapshotEvents_none,
    fun s p y snap => ⟨execSnapshotGatherDeadline_records snap, execSnapshotGatherDeadline_early snap,
      execSnapshotComplete_busy snap, execSnapshotComplete_ends snap⟩⟩
  intro pt
  have check := State.startCheck_idle (p := c.a0.toNat) d0 inPair
  refine ⟨fun running => execPartStart_refused number (State.startCheck_running running) (by decide),
    fun stopped bad => execPartStart_refused number ((check (.inr stopped)).trans (if_pos bad)) (by decide),
    fun stopped ok overlaps => execPartStart_refused number (code := stPartOverlap) ?_ (by decide),
    fun stopped ok apart few => execPartStart_refused number (code := stPartNoPairs) ?_ (by decide),
    fun idle ok apart pairs => ⟨execPartStart_starts number ?_, s.partBegin_shows c.a0.toNat⟩⟩
  · rw [check (.inr stopped)]; simp only [ok, overlaps, Bool.true_eq_false, if_false, if_true]
  · rw [check (.inr stopped)]; simp only [ok, apart, few, Bool.true_eq_false, Bool.false_eq_true, if_false, if_true]
  · rw [check idle]; simp only [ok, apart, Nat.not_lt.mpr pairs, Bool.true_eq_false, Bool.false_eq_true, if_false]

end Sys2Proof.Machine
end

section
/-! SUPPORT. The option block's bytes, owner commands, the fleet key, debug tokens and the debugger (R698, R727–R736, R745):
what each command leaves, case by case. -/
namespace Sys2Proof

theorem SMap.get_del_ne {α : Type} (d : α) (m : SMap α) {i j : Nat} (h : j ≠ i) :
    SMap.get d (SMap.del m i) j = SMap.get d m j := by
  induction m with
  | nil => rfl
  | cons kv m ih =>
    obtain ⟨k, w⟩ := kv
    by_cases here : k = i
    · subst here
      simp only [SMap.del, SMap.get, if_true, if_neg h.symm]
    · simp only [SMap.del, SMap.get, if_neg here, ih]

end Sys2Proof

namespace Sys2Proof.Machine
open Sys2Proof

theorem mem_setInsert_self (l : List Nat) (a : Nat) : a ∈ setInsert l a := by
  induction l with
  | nil => exact List.mem_singleton_self a
  | cons k l ih =>
    unfold setInsert
    split
    · exact List.mem_cons_self
    · split
      next same => rw [same]; exact List.mem_cons_self
      next => exact List.mem_cons_of_mem k ih

/-! ### The option block (R698) -/

theorem get_optPut_single (m : SMap Byte) (o : Nat) {b : Byte} (listed : b ≠ 0xFF) : (optPut m o [b]).get 0xFF o = b :=
  (congrArg (SMap.get 0xFF · o) (if_neg listed)).trans (SMap.get_set_self 0xFF m o b)

theorem get_optPut_outside (m : SMap Byte) {o i : Nat} {bs : List Byte} (outside : i < o ∨ o + bs.length ≤ i) :
    (optPut m o bs).get 0xFF i = m.get 0xFF i := by
  refine List.foldlRecOn (motive := fun t : SMap Byte => t.get 0xFF i = m.get 0xFF i) bs.zipIdx _ rfl
    fun t kept x member => ?_
  have elsewhere : i ≠ o + x.2 := by have := List.snd_lt_of_mem_zipIdx member; omega
  split
  · exact (SMap.get_del_ne 0xFF t elsewhere).trans kept
  · exact (SMap.get_set_ne 0xFF t x.1 elsewhere).trans kept

/-- A write of the option block goes to one copy, and gives it the image's bytes between GEN and the CRC. -/
theorem State.optWrite_copies (s : State) (img : SMap Byte) : ∃ c : SMap Byte,
    (∀ i, 8 ≤ i → i < 4092 → c.get 0xFF i = img.get 0xFF i)
      ∧ (s.optWrite img).nvm.copyA = (if s.opt.none || s.opt.usedB then c else s.nvm.copyA)
      ∧ (s.optWrite img).nvm.copyB = (if s.opt.none || s.opt.usedB then s.nvm.copyB else c) := by
  refine ⟨_, fun i gen crc => ?_, rfl, rfl⟩
  rw [get_optPut_outside _ (.inl crc), get_optPut_outside _ (.inr (by rw [length_leBytes]; exact gen))]

/-! ### What reports of the security engine leave alone -/

@[simp] theorem State.secFault_sec (s : State) (c : Nat) : (s.secFault c).sec = s.sec :=
  (congrArg State.sec (butReport_secFault s c) :)
@[simp] theorem State.secFault_ident (s : State) (c : Nat) : (s.secFault c).ident = s.ident :=
  (congrArg State.ident (butReport_secFault s c) :)

theorem butReport_ownerReply (s : State) (st : OwnerStatus) (data : List Byte) :
    (s.ownerReply st data).butReport = s.butReport :=
  butReport_ite rfl ((butReport_secFault _ _).trans rfl)

@[simp] theorem State.ownerReply_sec (s : State) (st : OwnerStatus) (data : List Byte) : (s.ownerReply st data).sec = s.sec :=
  (congrArg State.sec (butReport_ownerReply s st data) :)
@[simp] theorem State.ownerReply_ident (s : State) (st : OwnerStatus) (data : List Byte) :
    (s.ownerReply st data).ident = s.ident :=
  (congrArg State.ident (butReport_ownerReply s st data) :)

/-- A lifecycle change writes the option block and marks the change; besides, it only reports. -/
theorem butReport_lcChange (s : State) (img : SMap Byte) :
    (s.lcChange img).butReport = ((s.optWrite img).updSec fun x => { x with lcRunning := true }).butReport :=
  (butReport_secFault _ _).trans (butReport_ownerReply _ _ _)

@[simp] theorem State.lcChange_sec (s : State) (img : SMap Byte) : (s.lcChange img).sec = { s.sec with lcRunning := true } :=
  (congrArg State.sec (butReport_lcChange s img) :)
@[simp] theorem State.lcChange_ident (s : State) (img : SMap Byte) : (s.lcChange img).ident = s.ident :=
  (congrArg State.ident (butReport_lcChange s img) :)
@[simp] theorem State.lcChange_opt (s : State) (img : SMap Byte) : (s.lcChange img).opt = s.opt :=
  (congrArg State.opt (butReport_lcChange s img) :)
@[simp] theorem State.lcChange_nvm (s : State) (img : SMap Byte) : (s.lcChange img).nvm = (s.optWrite img).nvm :=
  (congrArg State.nvm (butReport_lcChange s img) :)

/-- The lifecycle byte after a change, in the copy that is written; the other copy stays. -/
theorem State.lcChange_lifecycle (s : State) (m : SMap Byte) {b : Byte} (listed : b ≠ 0xFF) : ∃ c : SMap Byte,
    c.get 0xFF 8 = b
      ∧ (s.lcChange (optPut m 8 [b])).nvm.copyA = (if s.opt.none || s.opt.usedB then c else s.nvm.copyA)
      ∧ (s.lcChange (optPut m 8 [b])).nvm.copyB = (if s.opt.none || s.opt.usedB then s.nvm.copyB else c) := by
  obtain ⟨c, body, copyA, copyB⟩ := s.optWrite_copies (optPut m 8 [b])
  refine ⟨c, (body 8 (by decide) (by decide)).trans (get_optPut_single m 8 listed), ?_, ?_⟩
  · rw [State.lcChange_nvm, copyA]
  · rw [State.lcChange_nvm, copyB]

/-! ### Levels and tokens (R732–R734) -/

theorem State.revoke_sec (s : State) : s.revoke.sec = { s.sec with dbg := 0, auth := false } := State.secFault_sec _ _

theorem State.tokenFail_sec (s : State) : s.tokenFail.sec = { s.sec with authFail := satInc s.sec.authFail } :=
  State.secFault_sec _ _

/-- From NONE, a grant gives its level. -/
theorem State.grant_from_none {s : State} {level : Nat} (none : s.sec.dbg = 0) (low : 1 ≤ level) (token : Bool) :
    (s.grant level token).sec = { s.sec with dbg := BitVec.ofNat 2 level, auth := token } := by
  have up : s.sec.dbg.toNat < level := by rw [none]; exact low
  simp only [State.grant, State.secFault_sec, State.updSec_sec, up, if_true]

theorem toNat_level {level : Nat} (high : level ≤ 2) : (BitVec.ofNat 2 level).toNat = level :=
  Nat.mod_eq_of_lt (Nat.lt_of_le_of_lt high (by decide))

/-- A token that passes R732 carries a level that R733 permits. -/
theorem State.tokenOk_level {s : State} {tok : List Byte} (lc : s.lc = 1 ∨ s.lc = 2) (ok : s.tokenOk tok 0 = true) :
    1 ≤ leAt tok 4 1 ∧ leAt tok 4 1 ≤ 2 := by
  rcases lc with one | two
  · simp only [State.tokenOk, one, if_true, Bool.and_eq_true, decide_eq_true_eq] at ok
    obtain ⟨⟨⟨⟨-, level⟩, -⟩, -⟩, -⟩ := ok
    exact level
  · simp only [State.tokenOk, two, Nat.reduceEqDiff, if_true, if_false, Bool.and_eq_true, decide_eq_true_eq] at ok
    obtain ⟨⟨⟨⟨-, -, low, most, max⟩, -⟩, -⟩, -⟩ := ok
    exact ⟨low, by omega⟩

/-! ### Owner commands (R727) -/

theorem State.owner_none (s : State) (len : Bool) (f : State → State) : s.owner none len f =
    State.secFault { s with out := s.out ++ [.sideband "OWNER" 5 []] } 0x0F21 := rfl

/-- Outside a session every owner command has one answer. -/
theorem ownerCommands_none (s : State) (pl : List Byte) :
    let no := State.secFault { s with out := s.out ++ [.sideband "OWNER" 5 []] } 0x0F21
    execLcProvision none pl s = .next no ∧ execLcSeal none pl s = .next no ∧ execLcRetire none pl s = .next no
      ∧ execDbgReq none pl s = .next no ∧ execDbgAuth none pl s = .next no ∧ execDbgRevoke none pl s = .next no
      ∧ execFkSet none pl s = .next no ∧ execFkClear none pl s = .next no := by
  simp only [execLcProvision, execLcSeal, execLcRetire, execDbgReq, execDbgAuth, execDbgRevoke, execFkSet, execFkClear,
    State.owner_none, and_self]

section owner
variable {s : State} {id : W32} {pl : List Byte} (session : s.inSession id.toNat = true)
include session

theorem State.owner_format {len : Bool} (misfits : len = false) (f : State → State) :
    s.owner (some id) len f = s.ownerReply .format := by
  simp only [State.owner, session, misfits, Bool.not_true, Bool.not_false, Bool.false_eq_true, if_false, if_true]

variable (runs : s.hubRuns = true)
include runs

theorem State.owner_serves {len : Bool} (fits : len = true) (f : State → State) : s.owner (some id) len f = f s := by
  simp only [State.owner, session, fits, runs, Bool.not_true, Bool.false_eq_true, if_false]

/-! ### The lifecycle (R728–R730) -/

section lifecycle
variable (noChange : s.sec.lcRunning = false)
include noChange

theorem execLcProvision_writes (fits : pl.length = 53) (blank : s.lc = 0) :
    ∃ img, execLcProvision (some id) pl s = .next (s.lcChange (optPut img 8 [0xA5])) :=
  ⟨_, congrArg Host.Outcome.next ((State.owner_serves session runs (beq_iff_eq.mpr fits) _).trans
    ((if_neg (Bool.eq_false_iff.mp noChange)).trans (if_neg (not_not_intro blank))))⟩

variable (empty : pl = [])
include empty

theorem execLcSeal_unverified (unfit : s.rootSet = false ∨ s.rst.verified = false) :
    execLcSeal (some id) pl s = .next (s.ownerReply .state) := by
  subst empty
  refine congrArg Host.Outcome.next ((State.owner_serves session runs rfl _).trans ?_)
  have refused : s.lc ≠ 1 ∨ (!s.rootSet) = true ∨ (!s.rst.verified) = true := .inr (by simpa using unfit)
  exact (if_neg (Bool.eq_false_iff.mp noChange)).trans (if_pos refused)

variable (opened : s.lc = 1)
include opened

theorem execLcSeal_writes (root : s.rootSet = true) (verified : s.rst.verified = true) :
    execLcSeal (some id) pl s = .next (s.lcChange (optPut s.optInUse 8 [0x5A])) := by
  subst empty
  refine congrArg Host.Outcome.next ((State.owner_serves session runs rfl _).trans ?_)
  simp only [noChange, opened, root, verified, ne_eq, not_true_eq_false, Bool.not_true, Bool.false_eq_true, or_self, if_false]

theorem execLcRetire_writes : execLcRetire (some id) pl s = .next (State.lcChange
    { s with ident := { s.ident with fleetKey := none, retireFuse := true } } (optPut s.optInUse 8 [0x00])) := by
  subst empty
  refine congrArg Host.Outcome.next ((State.owner_serves session runs ?_ _).trans ?_)
  · rw [opened]; rfl
  · simp only [noChange, opened, Bool.false_eq_true, Nat.reduceEqDiff, false_and, if_false]

end lifecycle

theorem execLcRetire_busy (empty : pl = []) (unsealed : s.lc ≠ 2) (running : s.sec.lcRunning = true) :
    execLcRetire (some id) pl s = .next (s.ownerReply .busy) := by
  subst empty
  exact congrArg Host.Outcome.next ((State.owner_serves session runs (if_neg unsealed) _).trans (if_pos running))

/-! ### The fleet key (R731) -/

section fleetKey
variable (owned : s.lc = 1 ∨ s.lc = 2)
include owned

theorem execFkSet_sets (fits : pl.length = 32) (free : s.digestInUse = false) : execFkSet (some id) pl s = .next
    ((State.ownerReply { s with ident := { s.ident with fleetKey := some (BitVec.ofNat 256 (leNat pl)) } } .ok).secFault
      0x0F25) := by
  refine congrArg Host.Outcome.next ((State.owner_serves session runs (beq_iff_eq.mpr fits) _).trans ?_)
  exact (if_neg fun h => owned.elim h.1 h.2).trans (if_neg (Bool.eq_false_iff.mp free))

theorem execFkClear_clears (empty : pl = []) (free : s.digestInUse = false) : execFkClear (some id) pl s = .next
    ((State.ownerReply { s with ident := { s.ident with fleetKey := none } } .ok).secFault 0x0F25) := by
  subst empty
  refine congrArg Host.Outcome.next ((State.owner_serves session runs rfl _).trans ?_)
  exact (if_neg fun h => owned.elim h.1 h.2).trans (if_neg (Bool.eq_false_iff.mp free))

theorem execFkClear_busy (empty : pl = []) (used : s.digestInUse = true) :
    execFkClear (some id) pl s = .next (s.ownerReply .busy) := by
  subst empty
  refine congrArg Host.Outcome.next ((State.owner_serves session runs rfl _).trans ?_)
  exact (if_neg fun h => owned.elim h.1 h.2).trans (if_pos used)

/-! ### Debug levels (R732–R734) -/

theorem execDbgAuth_grants (fits : pl.length = 256) (ok : s.tokenOk pl 0 = true) :
    execDbgAuth (some id) pl s = .next ((s.ownerReply .ok).grant (leAt pl 4 1) true) := by
  refine congrArg Host.Outcome.next ((State.owner_serves session runs (beq_iff_eq.mpr fits) _).trans ?_)
  exact (if_neg fun h => owned.elim h.1 h.2).trans (if_pos ok)

theorem execDbgAuth_fails (fits : pl.length = 256) (bad : s.tokenOk pl 0 = false) :
    execDbgAuth (some id) pl s = .next (s.tokenFail.ownerReply .auth) := by
  refine congrArg Host.Outcome.next ((State.owner_serves session runs (beq_iff_eq.mpr fits) _).trans ?_)
  exact (if_neg fun h => owned.elim h.1 h.2).trans (if_neg (Bool.eq_false_iff.mp bad))

end fleetKey

theorem execDbgReq_grants (observe : pl = [1]) (allowed : 1 ≤ s.reqMax) :
    execDbgReq (some id) pl s = .next ((s.ownerReply .ok).grant 1 false) := by
  subst observe
  exact congrArg Host.Outcome.next ((State.owner_serves session runs rfl _).trans (if_neg (Nat.not_lt.mpr allowed)))

theorem execDbgReq_refused (halt : pl = [2]) (barred : s.reqMax < 2) :
    execDbgReq (some id) pl s = .next (s.ownerReply .state) := by
  subst halt
  exact congrArg Host.Outcome.next ((State.owner_serves session runs rfl _).trans (if_pos barred))

theorem execDbgRevoke_revokes (empty : pl = []) : execDbgRevoke (some id) pl s = .next (s.ownerReply .ok).revoke := by
  subst empty
  exact congrArg Host.Outcome.next (State.owner_serves session runs rfl _)

end owner

section security
variable {s : State} (runs : s.hubRuns = true)
include runs

theorem execNonceGet_answers : execNonceGet [] s =
    .next { s with out := s.out ++ [.sideband "OWNER" 0 (leBytes 8 s.sec.nonce.toNat)] } := by
  simp only [execNonceGet, runs, Bool.not_true, Bool.false_eq_true, if_false, List.isEmpty_nil, if_true]
  rfl

/-- On an OPEN or SEALED part, SEC_AUTH turns on the token alone (R733). -/
theorem execSecAuth_eq {tok : List Byte} (fits : tok.length = 256) (owned : s.lc = 1 ∨ s.lc = 2) :
    execSecAuth tok s = .next (if s.tokenOk tok 0 then s.grant (leAt tok 4 1) true else s.tokenFail) := by
  have inOwned : (s.lc == 1 || s.lc == 2) = true := by simpa using owned
  simp only [execSecAuth, runs, fits, inOwned, beq_self_eq_true, Bool.not_true, Bool.false_eq_true, if_false, Bool.true_and]
  exact (apply_ite Host.Outcome.next _ _ _).symm

/-! ### The debugger (R734–R736) -/

section halt
variable (halt : s.sec.dbg = 2)
include halt

theorem State.debugs_of_halt : s.debugs = true := by
  simp only [State.debugs, runs, halt, beq_self_eq_true, Bool.and_self]

theorem execDebugHalt_steward (on : Bool) : execDebugHalt ⟨48, by decide⟩ on s = .next { s with
    sec := { s.sec with haltStw := on } } := by
  simp only [execDebugHalt, State.debugs_of_halt runs halt, Bool.not_true, Bool.false_eq_true, if_false]
  rfl

theorem execDebugHalt_pair (n : Fin 8) (on : Bool) : execDebugHalt ⟨32 + n.val, by omega⟩ on s = .next { s with
    sec := { s.sec with
      haltPairs := if on then setInsert s.sec.haltPairs n.val else s.sec.haltPairs.filter (· != n.val) } } := by
  have pairs : (¬ 32 + n.val < 16) ∧ 32 ≤ 32 + n.val ∧ 32 + n.val < 40 := by omega
  obtain ⟨notPart, low, high⟩ := pairs
  simp only [execDebugHalt, State.debugs_of_halt runs halt, Bool.not_true, Bool.false_eq_true, notPart, low, high, and_self,
    Nat.add_sub_cancel_left, if_false, if_true]
  rfl

variable (d0 : s.pwr.dstate = .d0)
include d0

theorem execDebugHalt_part {p : Fin 16} (holds : (s.part p.val).st.holds = true) :
    execDebugHalt ⟨p.val, by omega⟩ true s = .next ((s.snapBegin p.val none true).updSec fun x => { x with
      haltParts := setInsert x.haltParts p.val }) := by
  simp only [execDebugHalt, State.debugs_of_halt runs halt, d0, holds, p.isLt, bne_self_eq_false, Bool.not_true, Bool.or_self,
    Bool.false_eq_true, if_false, if_true]

theorem execDebugStep_steps {k : Fin 1200} {p : Nat} (part : s.partOf (coreCluster k.val) = some p)
    (halted : (s.part p).halted = true) :
    execDebugStep k s = .next (s.updCore k.val fun c => { c with step1 := true }) := by
  simp only [execDebugStep, part, State.debugs_of_halt runs halt, d0, halted, beq_self_eq_true, Bool.and_self, if_true]

theorem execDebugDaAccess_reads (da : BitVec 52) (n : Fin 257) : execDebugDaAccess da none n s = .next { s with
    out := s.out ++ [.sideband "DEBUG_READ" (if (s.readDA da.toNat n.val).clean then 0 else 1)
      (s.readDA da.toNat n.val).data] } := by
  simp only [execDebugDaAccess, State.debugs_of_halt runs halt, d0, beq_self_eq_true, Bool.true_or, Bool.not_true, Bool.or_self,
    Bool.false_eq_true, if_false]
  rfl

theorem execDebugDaAccess_writes (da : BitVec 52) (bs : List Byte) (n : Fin 257) :
    ∃ t, execDebugDaAccess da (some bs) n s = .next t ∧ t.sec.dirty = true ∧ t.upd.broken = List.range 256 := by
  simp only [execDebugDaAccess, State.debugs_of_halt runs halt, d0, beq_self_eq_true, Bool.true_or, Bool.not_true, Bool.or_self,
    Bool.false_eq_true, if_false]
  exact ⟨_, rfl, rfl, by rw [State.updSec_upd]⟩

end halt

end security

/-- Below HALT the debugger does nothing. -/
theorem debugger_below_halt {s : State} (below : s.sec.dbg ≠ 2) (b : Fin 49) (h : Bool) (k : Fin 1200) (da : BitVec 52)
    (w : Option (List Byte)) (n : Fin 257) :
    execDebugHalt b h s = .next s ∧ execDebugStep k s = .next s ∧ execDebugDaAccess da w n s = .next s := by
  have silent : s.debugs = false := by simp only [State.debugs, beq_eq_false_iff_ne.mpr below, Bool.and_false]
  refine ⟨by simp only [execDebugHalt, silent, Bool.not_false, if_true], ?_,
    by simp only [execDebugDaAccess, silent, Bool.not_false, Bool.true_or, if_true]⟩
  cases part : s.partOf (coreCluster k.val) <;>
    simp only [execDebugStep, part, silent, Bool.false_and, Bool.false_eq_true, if_false]

/-- Settles O45: a lemma for each way in which a command ends; what it leaves then by what reports leave alone. -/
theorem ownerCommands : Obligations.OwnerCommands := by
  unfold Obligations.OwnerCommands
  refine ⟨fun s pl => ownerCommands_none s pl, fun s id pl session runs => ?_,
    fun s runs => ⟨execNonceGet_answers runs, fun tok fits owned none => ?_⟩, fun s p v may revoke => ?_,
    fun s on runs halt => ⟨execDebugHalt_steward runs halt on, fun n => execDebugHalt_pair runs halt n on,
      fun p d0 holds => ⟨_, execDebugHalt_part runs halt d0 holds, mem_setInsert_self _ _⟩⟩,
    fun s k p runs halt d0 => execDebugStep_steps runs halt d0,
    fun s da n runs halt d0 => ⟨execDebugDaAccess_reads runs halt d0 da n,
      fun bs => execDebugDaAccess_writes runs halt d0 da bs n⟩,
    fun s b h k da w n below => debugger_below_halt below b h k da w n⟩
  · refine ⟨fun misfits => ?_, fun fits noChange blank => ?_, fun empty noChange opened root verified => ?_,
      fun empty noChange _ => execLcSeal_unverified session runs noChange empty,
      fun empty noChange opened => ?_, execLcRetire_busy session runs, fun fits owned free => ?_, fun empty owned free => ?_,
      fun empty used opened => execFkClear_busy session runs (.inl opened) empty used, fun observe allowed none => ?_,
      execDbgReq_refused session runs, fun fits owned ok none => ?_, fun fits owned bad => ?_, fun empty => ?_⟩
    · exact congrArg Host.Outcome.next (State.owner_format session (beq_eq_false_iff_ne.mpr misfits) _)
    · obtain ⟨img, writes⟩ := execLcProvision_writes session runs noChange fits blank
      obtain ⟨c, byte, copyA, copyB⟩ := s.lcChange_lifecycle img (b := 0xA5) (by decide)
      refine ⟨_, writes, ?_, State.lcChange_opt _ _, fun noBlock => ⟨?_, ?_⟩⟩
      · rw [State.lcChange_sec]
      · rw [copyA, noBlock]; exact byte
      · rw [copyB, noBlock]; rfl
    · obtain ⟨c, byte, copyA, copyB⟩ := s.lcChange_lifecycle s.optInUse (b := 0x5A) (by decide)
      refine ⟨_, execLcSeal_writes session runs noChange empty opened root verified, ?_, ?_, ?_⟩
      · rw [State.lcChange_sec]
      · rw [copyA, apply_ite (SMap.get 0xFF · 8), byte]
      · rw [copyB, apply_ite (SMap.get 0xFF · 8), byte]
    · refine ⟨_, execLcRetire_writes session runs noChange empty opened, ?_, ?_, ?_⟩
      · rw [State.lcChange_sec]
      · rw [State.lcChange_ident]
      · rw [State.lcChange_ident]
    · refine ⟨_, execFkSet_sets session runs owned fits free, ?_⟩
      rw [State.secFault_ident, State.ownerReply_ident]
    · refine ⟨_, execFkClear_clears session runs owned empty free, ?_⟩
      rw [State.secFault_ident, State.ownerReply_ident]
    · have from_none : (s.ownerReply .ok).sec.dbg = 0 := by rw [State.ownerReply_sec, none]
      refine ⟨_, execDbgReq_grants session runs observe allowed, ?_⟩
      rw [State.grant_from_none from_none (Nat.le_refl 1)]
      exact ⟨rfl, rfl⟩
    · obtain ⟨low, high⟩ := State.tokenOk_level owned ok
      have from_none : (s.ownerReply .ok).sec.dbg = 0 := by rw [State.ownerReply_sec, none]
      refine ⟨_, execDbgAuth_grants session runs owned fits ok, ?_⟩
      rw [State.grant_from_none from_none low]
      exact ⟨toNat_level high, rfl⟩
    · refine ⟨_, execDbgAuth_fails session runs owned fits bad, ?_⟩
      rw [State.ownerReply_sec, State.tokenFail_sec]
      exact ⟨rfl, rfl⟩
    · refine ⟨_, execDbgRevoke_revokes session runs empty, ?_⟩
      rw [State.revoke_sec]
      exact ⟨rfl, rfl⟩
  · have answer := execSecAuth_eq runs fits owned
    refine ⟨fun ok => ⟨_, answer.trans (congrArg Host.Outcome.next (if_pos ok)), ?_⟩,
      fun bad => answer.trans (congrArg Host.Outcome.next (if_neg (Bool.eq_false_iff.mp bad)))⟩
    obtain ⟨low, high⟩ := State.tokenOk_level owned ok
    rw [State.grant_from_none none low]
    exact toNat_level high
  · have revoked : s.writeSecDbg v = s.revoke := if_pos revoke
    refine ⟨_, onHub_next may (·.writeSecDbg v), ?_⟩
    rw [revoked, State.revoke_sec]
    exact ⟨rfl, rfl⟩

end Sys2Proof.Machine
end

section
/-! SUPPORT. Idle requests of blocks, releases of dies, rails and regulators (R583, R666, R667, R705, R709, R711, R740, R825,
R826): each way in which an event of these ends. -/
namespace Sys2Proof.Machine
open Sys2Proof

/-! ### What reports leave alone -/

@[simp] theorem State.railFault_pl (s : State) (code addr page status : Nat) :
    (s.railFault code addr page status).pl = s.pl :=
  (congrArg State.pl (butReport_railFault s code addr page status) :)
@[simp] theorem State.railFault_aq (s : State) (code addr page status : Nat) :
    (s.railFault code addr page status).aq = s.aq :=
  (congrArg State.aq (butReport_railFault s code addr page status) :)

/-! ### Idle requests of blocks and releases of dies (R666, R667, R709) -/

section asked
variable {s : State} {b : Fin 49} {due : Nat} (asked : s.rst.idleReqs.find b.val = some due)
include asked

theorem execBlockIdleAck_asked : execBlockIdleAck b s =
    if b.val < 16 then .next (s.partResetEnd b.val)
    else if b.val < 20 then .next ((s.dieClear (b.val - 16)).idleEnd b.val)
    else if b.val = 48 then .next (s.againStart.stewardBack.idleEnd b.val)
    else .next (s.idleEnd b.val) :=
  if_neg (by rw [asked]; exact Bool.false_ne_true)

theorem execRstcIdleTimeoutExpiry_early (early : s.time.now < due) : execRstcIdleTimeoutExpiry b s = .next s := by
  simp only [execRstcIdleTimeoutExpiry, asked, Nat.not_le.mpr early, if_false]

theorem execRstcIdleTimeoutExpiry_climbs (late : due ≤ s.time.now) : execRstcIdleTimeoutExpiry b s =
    .next (State.idleClimb (s.fault { mkFault (blockUnit b.val).1 (blockUnit b.val).2 0x0F09 with
      part := if b.val < 16 then b.val else 0xFF }) b.val) := by
  simp only [execRstcIdleTimeoutExpiry, asked, late, if_true]

theorem execRstcIdleTimeoutExpiry_die (late : due ≤ s.time.now) (low : 16 ≤ b.val) (high : b.val < 20) :
    execRstcIdleTimeoutExpiry b s =
      .next ((s.fault { mkFault 8 (b.val - 16) 0x0F09 with part := 0xFF }).deviceReset 6) := by
  rw [execRstcIdleTimeoutExpiry_climbs asked late]
  simp only [State.idleClimb, blockUnit, Nat.not_lt.mpr low, high, if_false, if_true]

end asked

/-- A pair that does not go idle is out of service. -/
theorem State.idleClimb_stuck (s : State) {b : Nat} (low : 32 ≤ b) (high : b < 40) :
    ((s.idleClimb b).cc.pairs.get {} (b - 32)).stuck = true := by
  have notPart : ¬b < 16 := by omega
  have notDie : ¬b < 20 := by omega
  have notSteward : ¬b = blkSteward := by unfold blkSteward; omega
  simp only [State.idleClimb, notPart, notDie, notSteward, if_false, SMap.get_upd_self]

/-! ### Supplies (R711, R740, R826) -/

/-- Where no slot holds a drive, the loss of the port rail takes none. -/
theorem State.foldl_driveLost_noSlot {s : State} (noSlot : s.aq.slots = []) (l : List Nat) : l.foldl (fun st n =>
    if (st.aqSlot n).st == .empty || (st.aqSlot n).st == .safe then st else st.driveLost n true) s = s := by
  have empty : ∀ n, (s.aqSlot n).st = .empty := fun n => by unfold State.aqSlot; rw [noSlot]; rfl
  refine List.foldl_fixed' (fun n => ?_) l
  simp only [empty, beq_self_eq_true, Bool.true_or, if_true]

theorem execVbakLoss_eq (s : State) : execVbakLoss s = .next (if s.hubPowered
    then State.timeFault { s with bak := { ({} : Backup) with bakLost := true, vbak := true } } 4 0x0F08
    else { s with bak := { ({} : Backup) with bakLost := true, vbak := false } }) := by
  cases powered : s.hubPowered <;> simp only [execVbakLoss, powered, if_true, Bool.false_eq_true, if_false]

section powered
variable {s : State} (powered : s.hubPowered = true)
include powered

theorem execVddCoreUndervolt_holds :
    execVddCoreUndervolt s = .next (s.coldKept.updRst fun r => { r with heldUv := true }) := if_pos powered

variable (addr page : Byte) (st : W16)

/-- Where a pin or a thermal trip holds the part already, no record is written. -/
theorem execRailFault_main : execRailFault .main false addr page st s = .next (State.mainLost
    (if s.rst.heldPerst || s.rst.heldThermal then s else s.railFault 0x1203 addr.toNat page.toNat st.toNat) .d3cold) := by
  simp only [execRailFault, powered, Bool.not_true, Bool.false_eq_true, if_false, apply_ite (State.mainLost · DState.d3cold),
    apply_ite Host.Outcome.next]

theorem execRailFault_main_latched :
    execRailFault .main true addr page st s = .next (s.railFault 0x1201 addr.toNat page.toNat st.toNat) := by
  simp only [execRailFault, powered, Bool.not_true, Bool.false_eq_true, if_false, if_true]

theorem execRailFault_hbm : execRailFault .hbm false addr page st s =
    .next ((s.railFault 0x1203 addr.toNat page.toNat st.toNat).deviceReset 6) := by
  simp only [execRailFault, powered, Bool.not_true, Bool.false_eq_true, if_false]

theorem execRailFault_hphy_latched : execRailFault .hphy true addr page st s =
    .next ((s.railFault 0x1201 addr.toNat page.toNat st.toNat).deviceReset 6) := by
  simp only [execRailFault, powered, Bool.not_true, Bool.false_eq_true, if_false, if_true]

/-- With its slots empty and its link down the part loses the port rail alone. -/
theorem execRailFault_pser (linkDown : s.pl.link = false) (noSlot : s.aq.slots = []) :
    execRailFault .pser false addr page st s = .next (
      let x := s.railFault 0x1203 addr.toNat page.toNat st.toNat
      { x with rails := { x.rails with pser := false, aqPerstN := 0 } }) := by
  simp only [execRailFault, powered, Bool.not_true, Bool.false_eq_true, if_false, State.foldl_driveLost_noSlot,
    State.railFault_aq, noSlot, State.railFault_pl, linkDown]

end powered

/-! ### Fetches and the host load (R583, R705) -/

theorem execCxlIoCompletionTimeout_fetch {s : State} {q : Fin 1024} (noHead : (s.queue q.val).head = none)
    (remote : (s.queue q.val).loc = false) (may : s.mayFetch q.val = true) (unbound : s.taskBound q.val = false) :
    execCxlIoCompletionTimeout ⟨q.val, by omega⟩ s = .next (s.fetchFailed q.val) := by
  have isQueue : q.val ≠ 1024 := by omega
  simp only [execCxlIoCompletionTimeout, isQueue, if_false, noHead, remote, may, unbound, Option.isSome_none, Bool.not_true,
    Bool.or_self, Bool.false_eq_true]

theorem execCxlIoCompletionTimeout_load {s : State} (waits : s.rst.start = .bootWait) (busy : s.rst.hloadBusy = true) :
    execCxlIoCompletionTimeout ⟨1024, by decide⟩ s = .next (s.imageReject 1 6) := by
  simp only [execCxlIoCompletionTimeout, if_true, waits, busy, beq_self_eq_true, Bool.and_self]

/-- Settles O42: a lemma for each way in which an event ends. -/
theorem blockResetsAndSupplies : Obligations.BlockResetsAndSupplies := by
  unfold Obligations.BlockResetsAndSupplies
  refine ⟨execVbakLoss_eq,
    fun s powered => ⟨_, execVddCoreUndervolt_holds powered, rfl, Bool.or_true _, rfl, rfl⟩,
    fun s addr page st powered => ⟨⟨_, execRailFault_main powered addr page st, rfl, rfl⟩,
      execRailFault_main_latched powered addr page st, execRailFault_hbm powered addr page st,
      execRailFault_hphy_latched powered addr page st, execRailFault_pser powered addr page st⟩,
    fun s on => ⟨_, if_neg (beq_iff_eq.not.mpr on), rfl, rfl, rfl, rfl, rfl, rfl⟩,
    fun s off => if_pos (beq_iff_eq.mpr off), fun s addr page st aux => ⟨if_pos aux, if_pos aux⟩,
    fun s b due asked => ?_, fun s d held => if_pos held, fun s d free => if_neg (Bool.eq_false_iff.mp free),
    fun s q => execCxlIoCompletionTimeout_fetch, fun s => execCxlIoCompletionTimeout_load⟩
  have ack := execBlockIdleAck_asked asked
  refine ⟨fun part => ?_, fun low high => ?_, fun low high => ?_, fun steward => ?_,
    execRstcIdleTimeoutExpiry_early asked, execRstcIdleTimeoutExpiry_die asked,
    fun late low high => ⟨_, execRstcIdleTimeoutExpiry_climbs asked late, State.idleClimb_stuck _ low high⟩⟩
  · rw [if_pos part] at ack
    exact ack
  · rw [if_neg (by omega), if_pos high] at ack
    exact ack
  · rw [if_neg (by omega), if_neg (by omega), if_neg (by omega)] at ack
    exact ack
  · rw [if_neg (by omega), if_neg (by omega), if_pos steward, steward] at ack
    exact ack

end Sys2Proof.Machine
end

section
/-! SUPPORT. Doorbells, fetching, held completions and the queues' timers (R562–R589): each way in which a command or an
event of a queue ends. -/
namespace Sys2Proof.Machine
open Sys2Proof

/-! ### Doorbells (R563, R589) -/

theorem execSqDb_served {s : State} {q : Fin 1024} (v : W32) (served : s.bellServed q.val = true)
    (enabled : (s.queue q.val).st = .enabled) : execSqDb q v s = .next (if (field v 0 16).toNat < (s.queue q.val).sqSize
      then s.updQ q.val fun y => { y with sqTail := (field v 0 16).toNat }
      else (s.updQ q.val fun y => { y with st := .error, errc := 2 }).queueFault q.val 0x0B05) := by
  by_cases inside : (field v 0 16).toNat < (s.queue q.val).sqSize
  · simp only [execSqDb, served, enabled, bne_self_eq_false, Bool.not_true, Bool.or_self, Bool.false_eq_true, if_false,
      Nat.not_le.mpr inside, inside, if_true]
  · simp only [execSqDb, served, enabled, bne_self_eq_false, Bool.not_true, Bool.or_self, Bool.false_eq_true, if_false,
      Nat.not_lt.mp inside, inside, if_true]

theorem execSqDb_disabled {s : State} {q : Fin 1024} (v : W32) (off : (s.queue q.val).st = .disabled) :
    execSqDb q v s = .next s := if_pos (by rw [off]; exact Bool.or_true _)

theorem execCqDb_disabled {s : State} {q : Fin 1024} (v : W32) (off : (s.queue q.val).st = .disabled) :
    execCqDb q v s = .next s := if_pos (by rw [off]; exact Bool.or_true _)

/-- How far an index lies beyond CQHEAD. -/
def Queue.cqDist (x : Queue) (a : Nat) : Nat := (a + x.cqSize - x.cqHead) % x.cqSize

theorem execCqDb_served {s : State} {q : Fin 1024} (v : W32) (served : s.bellServed q.val = true)
    (on : (s.queue q.val).st ≠ .disabled) : execCqDb q v s = .next (
      if (field v 0 16).toNat < (s.queue q.val).cqSize
          ∧ (s.queue q.val).cqDist (field v 0 16).toNat ≤ (s.queue q.val).cqDist (s.queue q.val).cqTail
      then s.updQ q.val fun y => { y with cqHead := (field v 0 16).toNat }
      else s.updQ q.val fun y => { y with cqDberr := true }) := by
  have going : ¬((!s.bellServed q.val || (s.queue q.val).st == .disabled) = true) := by simp [served, on]
  refine (if_neg going).trans ?_
  rw [apply_ite Host.Outcome.next]
  by_cases fits : (field v 0 16).toNat < (s.queue q.val).cqSize
      ∧ (s.queue q.val).cqDist (field v 0 16).toNat ≤ (s.queue q.val).cqDist (s.queue q.val).cqTail
  · rw [if_pos fits]
    exact if_neg (not_or.mpr ⟨Nat.not_le.mpr fits.1, Nat.not_lt.mpr fits.2⟩)
  · rw [if_neg fits]
    exact if_pos ((Decidable.not_and_iff_or_not.mp fits).imp Nat.not_lt.mp Nat.not_le.mp)

/-! ### Fetching (R567, R568, R583) -/

/-- The entry at a queue's head is taken off its ring. -/
def State.sqeTaken (s : State) (q : Nat) : State := s.updQ q fun y => { y with sqHead := (y.sqHead + 1) % y.sqSize }

section fetch
variable {s : State} {q : Fin 1024} {raw : Line} {ok : Bool} (empty : (s.queue q.val).head = none)
include empty

section may
variable (may : s.mayFetch q.val = true) (unbound : s.taskBound q.val = false) (room : (s.queue q.val).infl.length < 64)
  (still : s.sqeRecall q.val = none)
include may unbound room still

theorem execSqeFetch_failed (noEntry : s.sqeAt q.val raw ok = none) :
    execSqeFetch q raw ok s = .next (s.fetchFailed q.val) := by
  simp only [execSqeFetch, empty, may, unbound, Nat.not_le.mpr room, still, noEntry, Bool.not_true, decide_false,
    Bool.or_self, Bool.false_eq_true, if_false]

theorem execSqeFetch_refused {l : Line} {code : BitVec 12} (entry : s.sqeAt q.val raw ok = some l)
    (fails : (s.sqeTaken q.val).sqeCheck q.val l = some code) : execSqeFetch q raw ok s =
      .next ((s.sqeTaken q.val).sqeRefuse q.val { raw := l, tAcc := s.time.now } code) := by
  rw [State.sqeTaken] at fails
  simp only [execSqeFetch, empty, may, unbound, Nat.not_le.mpr room, still, entry, fails, Bool.not_true, decide_false,
    Bool.or_self, Bool.false_eq_true, if_false, State.sqeTaken]

theorem execSqeFetch_starts {l : Line} (entry : s.sqeAt q.val raw ok = some l)
    (passes : (s.sqeTaken q.val).sqeCheck q.val l = none) : execSqeFetch q raw ok s =
      .next ((s.sqeTaken q.val).sqeStart q.val { raw := l, tAcc := s.time.now } (s.sqeTaken q.val).gtoDue) := by
  rw [State.sqeTaken] at passes
  simp only [execSqeFetch, empty, may, unbound, Nat.not_le.mpr room, still, entry, passes, Bool.not_true, decide_false,
    Bool.or_self, Bool.false_eq_true, if_false, State.sqeTaken]

end may

theorem execSqeFetch_noEntry (drained : (s.queue q.val).sqHead = (s.queue q.val).sqTail) :
    execSqeFetch q raw ok s = .next s := by
  have mayNot : s.mayFetch q.val = false := by simp [State.mayFetch, drained]
  simp only [execSqeFetch, empty, mayNot, Bool.not_false, Bool.true_or, if_true]

end fetch

theorem State.sqeCheck_unknown (s : State) (q : Nat) {l : Line} (unknown : argKinds (field l 0 8).toNat = none) :
    s.sqeCheck q l = some stSqOpcode := by simp only [State.sqeCheck, unknown]

/-- An entry that is no TASK_RUN and has no FENCE is in flight at once. -/
theorem State.sqeStart_plain (s : State) (q : Nat) {e : Sqe} (since : Nat) (noRun : field e.raw 0 8 ≠ 1)
    (noFence : bit e.raw 8 = false) : s.sqeStart q e since = s.updQ q fun x => { x with head := none, infl := x.infl ++ [
      { cid := field e.raw 16 16, opc := field e.raw 0 8, tAcc := e.tAcc, fence := false, raw := e.raw }] } := by
  simp only [State.sqeStart, noRun, noFence, decide_false, Bool.false_and, Bool.or_self, Bool.false_eq_true, if_false]

theorem execTaskRunHeadTimeout_run {s : State} {q : Fin 1024} {e : Sqe} {since : Nat}
    (head : (s.queue q.val).head = some (e, since)) (run : field e.raw 0 8 = 1) :
    execTaskRunHeadTimeout q s = .next (if since ≤ s.time.now
      then (s.updQ q.val fun x => { x with head := none }).sqeRefuse q.val e stTimeout else s) := by
  simp only [execTaskRunHeadTimeout, head, run, State.gtoPassed, decide_eq_true_eq, true_and, apply_ite Host.Outcome.next]

/-! ### Held completions (R573, R575) -/

section held
variable {s : State} {q : Fin 1024} {c : Cqe} {rest : List Cqe} (held : (s.queue q.val).held = c :: rest)
include held

theorem execCqeHoldRelease_writes (room : (s.queue q.val).full = false) (near : (s.queue q.val).loc = true)
    (first : c.waits = []) : execCqeHoldRelease q s = .next ((s.updQ q.val fun y =>
      { y with held := rest, cqFull := y.cqFull && !rest.isEmpty }).writeCqe q.val c) := by
  simp only [execCqeHoldRelease, held, room, near, first, Bool.not_true, Bool.false_and, List.any_nil, Bool.or_self,
    Bool.false_eq_true, if_false]

theorem execCqeHoldRelease_full (full : (s.queue q.val).full = true) : execCqeHoldRelease q s = .next s := by
  simp only [execCqeHoldRelease, held, full, Bool.true_or, if_true]

theorem execCqeHoldTimeout_early (early : s.time.now < c.due) : execCqeHoldTimeout q s = .next s := by
  simp only [execCqeHoldTimeout, held, State.gtoPassed, Nat.not_le.mpr early, decide_false, Bool.false_and,
    Bool.false_eq_true, if_false]

/-- A queue that has lost a CQE before raises no event again. -/
theorem execCqeHoldTimeout_drops (due : c.due ≤ s.time.now) (first : c.waits = [])
    (lost : (s.queue q.val).cqLost = true) : execCqeHoldTimeout q s = .next ((s.updQ q.val fun y =>
      { y with held := rest, cqLost := true, cqFull := y.cqFull && !rest.isEmpty }).queueFault q.val 0x0B04
        (some (c.id.toNat % 65536))) := by
  simp only [execCqeHoldTimeout, held, State.gtoPassed, due, first, lost, decide_true, List.any_nil, Bool.not_false,
    Bool.and_self, if_true]

end held

theorem execCqCoalesceTimeout_counts {s : State} {q : Fin 1024} (ien : (s.queue q.val).ien = true)
    (counts : (s.queue q.val).coalCnt ≠ 0) : execCqCoalesceTimeout q s =
      .next (if s.elapsed (s.queue q.val).coalFirst (1000 * (s.queue q.val).coalUs.toNat) then s.signalQ q.val else s) := by
  simp only [execCqCoalesceTimeout, ien, bne_iff_ne.mpr counts, Bool.true_and, apply_ite Host.Outcome.next]

/-! ### Enabling and draining (R562, R585) -/

theorem execQueueDrained_idle {s : State} {q : Fin 1024} (draining : (s.queue q.val).st = .draining)
    (noInfl : (s.queue q.val).infl = []) (noHeld : (s.queue q.val).held = []) (owes : s.owedTo q.val = false) :
    execQueueDrained q s = .next (s.updQ q.val fun y => { y with st := .disabled }) := by
  simp only [execQueueDrained, draining, noInfl, noHeld, owes, beq_self_eq_true, List.isEmpty_nil, Bool.not_false,
    Bool.and_self, if_true]

theorem execQueueDrained_not {s : State} {q : Fin 1024} (h : (s.queue q.val).st ≠ .draining) :
    execQueueDrained q s = .next s := if_neg (by simp [h])

/-- The configuration that a queue has once it is enabled. -/
def Queue.enabledFresh (x : Queue) : Queue :=
  { x with en := true, st := .enabled, sqHead := 0, sqTail := 0, cqHead := 0, cqTail := 0, phase := true, errc := 0
           cqFull := false, coalCnt := 0 }

theorem State.writeSqCfg_enable {s : State} {q : Nat} {v : W32} (vfOn : Bool) (off : (s.queue q).st = .disabled)
    (keep : bit v 22 = false) (set : bit v 0 = true) : s.writeSqCfg q v vfOn =
      if s.queueOk ((s.queue q).withCfg v) vfOn then s.updQ q fun _ => ((s.queue q).withCfg v).enabledFresh
      else s.updQ q fun _ => { (s.queue q).withCfg v with err := true } := by
  simp only [State.writeSqCfg, keep, set, off, Bool.false_eq_true, beq_self_eq_true, if_false, if_true, Queue.enabledFresh]

theorem State.queueDrain_noHead {s : State} {q : Nat} (empty : (s.queue q).head = none) :
    s.queueDrain q = s.updQ q fun x => { x with en := false, st := .draining, head := none } := by
  simp only [State.queueDrain, empty]

theorem State.writeSqCfg_drain {s : State} {q : Nat} {v : W32} (vfOn : Bool) (enabled : (s.queue q).st = .enabled)
    (en : (s.queue q).en = true) (keep : bit v 22 = false) (clear : bit v 0 = false)
    (same : (s.queue q).withCfg v = s.queue q) (empty : (s.queue q).head = none) : s.writeSqCfg q v vfOn =
      (s.updQ q fun _ => s.queue q).updQ q fun x => { x with en := false, st := .draining, head := none } := by
  have notOff : ((s.queue q).st == QState.disabled) = false := by rw [enabled]; rfl
  simp only [State.writeSqCfg, keep, clear, notOff, same, Bool.false_eq_true, if_false, ne_eq, not_true_eq_false,
    decide_false, Bool.false_and, Bool.or_false, Bool.not_false, Bool.true_and]
  rw [if_pos en, State.queueDrain_noHead (by rw [State.queue_updQ]; exact empty)]

/-! ### Waits of cores (R575) -/

theorem execCoreWaitTimeout_early {s : State} {k : Fin 1200}
    (early : (s.tcore k.val).waitDue = none ∨ ∃ d, (s.tcore k.val).waitDue = some d ∧ s.time.now < d) :
    execCoreWaitTimeout k s = .next s := by
  obtain none | ⟨d, some, notDue⟩ := early
  · simp only [execCoreWaitTimeout, none]
  · simp only [execCoreWaitTimeout, some, State.gtoPassed, Nat.not_le.mpr notDue, decide_false, Bool.false_eq_true, if_false]

theorem execCoreWaitTimeout_noPart {s : State} {k : Fin 1200} {d : Nat} (waits : (s.tcore k.val).waitDue = some d)
    (due : d ≤ s.time.now) (noPart : s.partOf (coreCluster k.val) = none) : execCoreWaitTimeout k s =
      .next (((s.coreFault k.val 0x0B03 0 (s.tcore k.val).pc false 0 none).updCore k.val fun x =>
        { x with waitDue := none, stopped := true }).tearCluster (coreCluster k.val) 1 k.val) := by
  simp only [execCoreWaitTimeout, waits, State.gtoPassed, due, decide_true, if_true, noPart, Option.isSome_none,
    Bool.false_eq_true, if_false]

/-- Settles O33: a lemma for each way in which a doorbell, a fetch, a held CQE, a timer or a write of SQ_CFG ends. -/
theorem queueFlow : Obligations.QueueFlow := by
  unfold Obligations.QueueFlow
  refine ⟨fun s q v => execSqDb_served v, fun s q v off => ⟨execSqDb_disabled v off, execCqDb_disabled v off⟩,
    fun s q v => execCqDb_served v, fun s q raw ok empty may unbound room still => ?_,
    fun s q raw ok drained empty => execSqeFetch_noEntry empty drained, fun s c => rfl,
    fun s q c rest held => ⟨execCqeHoldRelease_writes held, execCqeHoldRelease_full held, execCqeHoldTimeout_early held,
      execCqeHoldTimeout_drops held⟩,
    fun s q => execCqCoalesceTimeout_counts, fun s q e since => execTaskRunHeadTimeout_run,
    fun s q => execQueueDrained_idle, fun s q => execQueueDrained_not,
    fun s p q v vfOn may off keep set => congrArg Host.Outcome.next
      ((State.onCsr_of_writable _ may).trans (State.writeSqCfg_enable vfOn off keep set)),
    fun s p q v vfOn may enabled en keep clear same empty => congrArg Host.Outcome.next
      ((State.onCsr_of_writable _ may).trans (State.writeSqCfg_drain vfOn enabled en keep clear same empty)),
    fun s k => execCoreWaitTimeout_early, fun s k d => execCoreWaitTimeout_noPart⟩
  refine ⟨execSqeFetch_failed empty may unbound room still, fun l entry => ⟨fun unknown =>
    execSqeFetch_refused empty may unbound room still entry (State.sqeCheck_unknown _ _ unknown),
    fun passes noRun noFence => ?_⟩⟩
  exact (execSqeFetch_starts empty may unbound room still entry passes).trans
    (congrArg Host.Outcome.next (State.sqeStart_plain _ _ _ noRun noFence))

end Sys2Proof.Machine
end

section
/-! SUPPORT. The fault record store (R582): which records are written, what one that is written leaves, and what one that is
suppressed leaves. -/
namespace Sys2Proof.Machine
open Sys2Proof

/-! ### What has been seen of a unit and code -/

/-- An entry speaks of a record's unit and code. -/
def FaultRecord.seenAs (f : FaultRecord) (e : FaultSeen) : Bool := e.unit == f.cls * 4096 + f.inst && e.code == f.code

theorem FaultRecord.seenAs_iff {f : FaultRecord} {e : FaultSeen} :
    f.seenAs e = true ↔ e.unit = f.cls * 4096 + f.inst ∧ e.code = f.code := by
  simp only [FaultRecord.seenAs, Bool.and_eq_true, beq_iff_eq]

/-- What a unit and code's entry is after a record of theirs. -/
def FaultSeen.noted (e : FaultSeen) (now : Nat) (written : Bool) : FaultSeen :=
  if written then { e with last := now, count := 0 } else { e with count := e.count + 1 }

/-- The note changes the first entry of the unit and code, or adds one. -/
theorem find_seenNote (f : FaultRecord) (now : Nat) (written : Bool) (l : List FaultSeen) :
    (seenNote (f.cls * 4096 + f.inst) f.code now written l).find? f.seenAs =
      some (((l.find? f.seenAs).map (·.noted now written)).getD ⟨f.cls * 4096 + f.inst, f.code, now, 0⟩) := by
  induction l with
  | nil => exact List.find?_cons_of_pos (FaultRecord.seenAs_iff.mpr ⟨rfl, rfl⟩)
  | cons e l ih =>
    by_cases same : e.unit = f.cls * 4096 + f.inst ∧ e.code = f.code
    · have noted : f.seenAs (e.noted now written) = true := by
        rw [FaultRecord.seenAs_iff]
        unfold FaultSeen.noted
        split <;> exact same
      rw [seenNote, if_pos same, List.find?_cons_of_pos (FaultRecord.seenAs_iff.mpr same)]
      exact List.find?_cons_of_pos noted
    · have other : ¬f.seenAs e = true := FaultRecord.seenAs_iff.not.mpr same
      rw [seenNote, if_neg same, List.find?_cons_of_neg other, List.find?_cons_of_neg other, ih]

/-! ### What the reports that follow a record leave alone -/

@[simp] theorem State.msix_faults (s : State) (f v : Nat) : (s.msix f v).faults = s.faults := by
  simp only [State.msix, apply_ite State.faults, State.emit_faults, ite_self]
@[simp] theorem State.irqEvent_faults (s : State) (b : Nat) : (s.irqEvent b).faults = s.faults := by
  simp only [State.irqEvent, apply_ite State.faults, State.msix_faults, ite_self]
@[simp] theorem State.pldmEvent_faults (s : State) (w : String) (a : Nat) : (s.pldmEvent w a).faults = s.faults := by
  simp only [State.pldmEvent, apply_ite State.faults, State.emit_faults, ite_self]

/-- The mirror of a record may end with HERR; the records stay. -/
theorem State.mirrorRecord_faults (s : State) (r : FaultRecord) :
    ∃ hen herr, (s.mirrorRecord r).faults = { s.faults with hen := hen, herr := herr } := by
  unfold State.mirrorRecord
  split
  · split
    · exact ⟨_, _, rfl⟩
    · exact ⟨_, _, rfl⟩
  · exact ⟨_, _, rfl⟩

/-! ### A record -/

/-- What the last record of a unit and code left. -/
def State.seenOf (s : State) (f : FaultRecord) : Option FaultSeen := s.faults.seen.find? f.seenAs

/-- A record of the unit and code was written in the last 1 ms. -/
def State.recent (s : State) (f : FaultRecord) : Prop := ∃ e, s.seenOf f = some e ∧ s.time.now < e.last + 1000000

/-- A record as it is numbered and stamped. -/
def State.stamped (s : State) (f : FaultRecord) : FaultRecord :=
  { f with
    seq := s.faults.seq, time := s.time.now, supp := (s.seenOf f).isSome, boot := s.bak.total.toNat
    suppressed := min 65535 (match s.seenOf f with | some e => e.count | none => 0) }

/-- The store with a record in it, before any report of it. -/
def State.recorded (s : State) (f : FaultRecord) : State :=
  { s with
    faults := { s.faults with
      seq := s.faults.seq + 1
      ring := s.faults.ring.set (s.faults.seq % 1024) (s.stamped f)
      seen := seenNote (f.cls * 4096 + f.inst) f.code s.time.now true s.faults.seen }
    bak := { s.bak with last16 := (s.stamped f :: s.bak.last16).take 16 } }

/-- The record's mirror, and then its vector. -/
def State.announced (s : State) (r : FaultRecord) : State :=
  if (s.mirrorRecord r).faults.ien then (s.mirrorRecord r).msix 0 (s.mirrorRecord r).faults.vec.toNat else s.mirrorRecord r

theorem State.fault_suppressed {s : State} {f : FaultRecord} (low : f.rung = 0) (recent : s.recent f) : s.fault f =
    { s with faults := { s.faults with
        seen := seenNote (f.cls * 4096 + f.inst) f.code s.time.now false s.faults.seen } } := by
  obtain ⟨e, seen, soon⟩ := recent
  have find : (s.faults.seen.find? fun e => e.unit == f.cls * 4096 + f.inst && e.code == f.code) = some e := seen
  simp only [State.fault, find, low, soon, beq_self_eq_true, decide_true, Bool.and_self, if_true]

theorem State.fault_written {s : State} {f : FaultRecord} (written : 1 ≤ f.rung ∨ ¬s.recent f) : s.fault f =
    let s4 := if 1 ≤ f.rung then ((s.recorded f).announced (s.stamped f)).irqEvent 0
      else (s.recorded f).announced (s.stamped f)
    if 1 ≤ f.rung ∨ f.code / 256 = 0x11 then s4.pldmEvent "FAULT_RECORD" s.faults.seq else s4 := by
  have keeps : (match s.seenOf f with
      | some e => f.rung == 0 && decide (s.time.now < e.last + 1000000)
      | none => false) = false := by
    cases seen : s.seenOf f with
    | none => rfl
    | some e =>
      obtain high | late := written
      · simp only [beq_eq_false_iff_ne.mpr (Nat.one_le_iff_ne_zero.mp high), Bool.false_and]
      · simp only [decide_eq_false fun soon => late ⟨e, seen, soon⟩, Bool.and_false]
  exact if_neg (Bool.eq_false_iff.mp keeps)

/-- What follows a record changes no record. -/
theorem State.fault_written_store {s : State} {f : FaultRecord} (written : 1 ≤ f.rung ∨ ¬s.recent f) :
    (∃ hen herr, (s.fault f).faults = { (s.recorded f).faults with hen := hen, herr := herr })
    ∧ (s.fault f).bak = (s.recorded f).bak := by
  obtain ⟨hen, herr, mirrored⟩ := (s.recorded f).mirrorRecord_faults (s.stamped f)
  rw [State.fault_written written]
  simp only [State.announced, apply_ite State.faults, apply_ite State.bak, State.pldmEvent_faults, State.pldmEvent_bak,
    State.irqEvent_faults, State.irqEvent_bak, State.msix_faults, State.msix_bak, State.mirrorRecord_bak, ite_self]
  exact ⟨⟨hen, herr, mirrored⟩, trivial⟩

/-- A record of RUNG 0 that is no event of the steward's leaves by the mirror and the vector alone. -/
theorem State.fault_written_out {s : State} {f : FaultRecord} (written : ¬s.recent f) (low : f.rung = 0)
    (noEvent : f.code / 256 ≠ 0x11) (up : s.host.up = true) (bus : s.busOk 0 = true) (awake : (s.func 0).d3hot = false) :
    (s.fault f).out = s.out
      ++ (if s.faults.hen
          then [.hostWrite 0 (s.faults.hbase.toNat + 256 * (s.faults.seq % 2 ^ s.faults.hlog.toNat)) (s.stamped f).bytes]
          else [])
      ++ (if s.faults.ien then [.msix 0 s.faults.vec.toNat] else []) := by
  have noRung : ¬1 ≤ f.rung := by omega
  have ready : (s.recorded f).ioReady 0 = true := Bool.and_eq_true_iff.mpr ⟨up, bus⟩
  have sends : ∀ m, ((s.recorded f).emit m).busOk 0 && !(((s.recorded f).emit m).func 0).d3hot := fun _ =>
    Bool.and_eq_true_iff.mpr ⟨bus, congrArg (! ·) awake⟩
  have sends0 : (s.recorded f).busOk 0 && !((s.recorded f).func 0).d3hot :=
    Bool.and_eq_true_iff.mpr ⟨bus, congrArg (! ·) awake⟩
  rw [State.fault_written (.inr written)]
  simp only [noRung, noEvent, or_self, if_false, State.announced]
  cases hen : s.faults.hen
  · have off : (s.recorded f).mirrorRecord (s.stamped f) = s.recorded f := if_neg (Bool.eq_false_iff.mp hen)
    rw [off, State.msix, if_pos sends0]
    cases ien : s.faults.ien <;> simp [State.recorded, State.emit, ien]
  · have on : (s.recorded f).mirrorRecord (s.stamped f) = (s.recorded f).emit (.hostWrite 0
        (s.faults.hbase.toNat + 256 * (s.faults.seq % 2 ^ s.faults.hlog.toNat)) (s.stamped f).bytes) :=
      (if_pos hen).trans (if_pos ready)
    rw [on, State.msix, if_pos (sends _)]
    cases ien : s.faults.ien <;> simp [State.recorded, State.emit, ien]

/-! ### The ring in CSR space (R590) -/

/-- Above the registers INT_FR and the tables of checks, the block shows the ring. -/
theorem State.readInt_ring {s : State} {o : Nat} {r : FaultRecord} (low : 0x40000 ≤ o) (high : o < 0x80000)
    (found : s.faults.ring.find ((o - 0x40000) / 256) = some r) :
    s.readInt o = BitVec.ofNat 32 (leAt r.bytes (o % 256) 4) := by
  have tables : ¬(0x200 ≤ o ∧ o < 0x2C0) ∧ ¬(0x400 ≤ o ∧ o < 0x590) := by omega
  unfold State.readInt
  split
  case h_17 => simp only [tables.1, tables.2, low, high, and_self, if_false, if_true, found]
  all_goals omega

theorem State.csrValue_ring {s : State} {k w : Nat} {r : FaultRecord} (hk : k < 1024) (hw : w < 64)
    (found : s.faults.ring.find k = some r) :
    s.csrValue (0x0940000 + 256 * k + 4 * w) = BitVec.ofNat 32 (leAt r.bytes (4 * w) 4) := by
  have place : (0x0940000 + 256 * k + 4 * w) % 0x100000 = 0x40000 + 256 * k + 4 * w := by omega
  have index : (0x40000 + 256 * k + 4 * w - 0x40000) / 256 = k := by omega
  have byte : (0x40000 + 256 * k + 4 * w) % 256 = 4 * w := by omega
  have block : s.csrValue (0x0940000 + 256 * k + 4 * w) = s.readInt ((0x0940000 + 256 * k + 4 * w) % 0x100000) := by
    unfold State.csrValue
    repeat rw [if_neg (by omega)]
    rw [if_pos (by omega)]
  rw [block, place, State.readInt_ring (by omega) (by omega) (by rw [index]; exact found), byte]

/-- Settles O55: what is written by what follows a record leaves alone, and the entry of its unit and code by
`find_seenNote`. -/
theorem faultRecords : Obligations.FaultRecords := by
  intro s f
  refine ⟨fun low recent => ?_, fun written => ?_⟩
  · have quiet := State.fault_suppressed low recent
    refine ⟨by rw [quiet], fun e seen => ?_⟩
    rw [quiet]
    exact (find_seenNote f s.time.now false s.faults.seen).trans (by rw [show s.faults.seen.find? f.seenAs = _ from seen]; rfl)
  · obtain ⟨⟨hen, herr, store⟩, backup⟩ := State.fault_written_store written
    have ring : (s.fault f).faults.ring.find (s.faults.seq % 1024) = some (s.stamped f) := by
      rw [store]
      exact SMap.find_set_self _ _ _
    refine ⟨by rw [store]; rfl, ring, fun w hw => State.csrValue_ring (Nat.mod_lt _ (by decide)) hw ring,
      by rw [backup]; rfl, ?_, fun low noEvent up bus awake =>
        State.fault_written_out (written.resolve_left (by omega)) low noEvent up bus awake⟩
    rw [store]
    refine (find_seenNote f s.time.now true s.faults.seen).trans ?_
    cases seen : s.faults.seen.find? f.seenAs with
    | none => rfl
    | some e =>
      obtain ⟨unit, code⟩ := FaultRecord.seenAs_iff.mp (List.find?_some seen)
      simp [FaultSeen.noted, unit, code]

end Sys2Proof.Machine
end

section
/-! SUPPORT. Host accesses to device memory (R598–R604, R611, R622–R624): each way in which an access or a register's write
ends. -/
namespace Sys2Proof.Machine
open Sys2Proof

/-! ### HDM decoders (R598) -/

/-- A decoder after a commit that its checks take or refuse. -/
def HdmDec.checked (ok : Bool) : HdmDec := { committed := ok, err := !ok }

section decoder
variable {s : State} (up : s.host.up = true) (ready : s.rst.start = .ready) (size : Nat) (oneWay : Bool)
include up ready

theorem execHdmDecoderCommit_aperture : execHdmDecoderCommit 0 true size oneWay s = .next (s.updHost fun h =>
    { h with hdm0 := .checked (oneWay && size == 2 ^ 32 && !s.host.ideHold) }) := by
  simp only [execHdmDecoderCommit, up, ready, bne_self_eq_false, Bool.not_true, Bool.or_self, Bool.false_eq_true, if_false,
    if_true, Fin.val_zero, HdmDec.checked]

theorem execHdmDecoderCommit_window : execHdmDecoderCommit 1 true size oneWay s = .next (s.updHost fun h =>
    { h with hdm1 := .checked (oneWay && size == s.windowSize && s.host.lcwEn && !s.host.ideHold) }) := by
  simp only [execHdmDecoderCommit, up, ready, bne_self_eq_false, Bool.not_true, Bool.or_self, Bool.false_eq_true, if_false,
    if_true, Fin.val_one, Nat.one_ne_zero, HdmDec.checked]

theorem execHdmDecoderCommit_giveUp :
    execHdmDecoderCommit 0 false size oneWay s = .next (s.updHost fun h => { h with hdm0 := {} }) := by
  simp only [execHdmDecoderCommit, up, ready, bne_self_eq_false, Bool.not_true, Bool.or_self, Bool.false_eq_true, if_false,
    if_true, Fin.val_zero]

end decoder

/-! ### The aperture (R599, R600) -/

section aperture
variable {s : State} {off : BitVec 32} (data : List Byte) (served : s.memServed = true)
  (committed : s.host.hdm0.committed = true)
include served committed

theorem execApertureAccess_off (disabled : s.host.aptEn = false) : execApertureAccess off false data false s =
    .next ((s.updHost fun h => { h with aptOff := satInc h.aptOff }).emit
      (.hostReply "MemData poison" (List.replicate 64 0))) := by
  simp only [execApertureAccess, served, committed, disabled, Bool.not_true, Bool.not_false, Bool.or_self, Bool.false_and,
    Bool.false_eq_true, if_false, if_true]

variable (enabled : s.host.aptEn = true)
include enabled

theorem execApertureAccess_reads {n : Nat} (basin : s.place (s.aptDA off.toNat) = .basin n) :
    execApertureAccess off false data false s = .next (s.emit (.hostReply
      (if (s.readDA (s.aptDA off.toNat / 64 * 64) 64).clean then "MemData" else "MemData poison")
      (s.readDA (s.aptDA off.toNat / 64 * 64) 64).data)) := by
  simp only [execApertureAccess, served, committed, enabled, basin, Bool.not_true, Bool.or_self, Bool.false_and,
    Bool.false_eq_true, if_false]

variable (within : s.aptDA off.toNat % 64 + data.length ≤ 64)
include within

theorem execApertureAccess_writes {n : Nat} (basin : s.place (s.aptDA off.toNat) = .basin n)
    (outside : s.inStore (s.aptDA off.toNat) = false) (poison : Bool) :
    execApertureAccess off true data poison s = .next (s.writeDA (s.aptDA off.toNat) data poison) := by
  simp only [execApertureAccess, served, committed, enabled, basin, outside, Nat.not_lt.mpr within, Bool.not_true,
    decide_false, Bool.or_self, Bool.and_false, Bool.false_eq_true, if_false, if_true]

theorem execApertureAccess_unmapped (unmapped : s.place (s.aptDA off.toNat) = .unmapped) :
    execApertureAccess off true data false s = .next (s.hostFault 0 0x1001 (s.aptDA off.toNat)) := by
  simp only [execApertureAccess, served, committed, enabled, unmapped, Nat.not_lt.mpr within, Bool.not_true, Bool.not_false,
    decide_false, Bool.or_self, Bool.and_false, Bool.true_or, Bool.false_eq_true, if_false, if_true]

end aperture

theorem HostState.writeApt_enable {h : HostState} {v : W32} (off : h.aptEn = false) (set : bit v 0 = true)
    (noWindow : h.lcwEn = false) : h.writeApt v =
      if (field v 2 19 : BitVec 19).toNat * 2 ^ 21 + 2 ^ 32 ≤ 0xC000000000
      then { h with aptErr := h.aptErr && !bit v 1, aptBase := field v 2 19, aptEn := true }
      else { h with aptErr := true, aptBase := field v 2 19 } := by
  simp only [HostState.writeApt, off, set, noWindow, Bool.false_eq_true, if_false, if_true, Bool.false_and, and_true]

/-! ### The window and slot headers (R603, R604, R611) -/

section window
variable {s : State} (served : s.memServed = true) (committed : s.host.hdm1.committed = true)
  (enabled : s.host.lcwEn = true) (none : s.host.biWait = [])
include served committed enabled none

section line
variable {l : BitVec 24} (inside : 64 * l.toNat < s.windowSize) (room : s.host.snoop.length < snoopSize) (poison : Bool)
  (keep : Option SnoopState)
include inside room

theorem execWindowHostAccess_reads : execWindowHostAccess l Option.none poison keep s = .next (
    (s.setSnoop l.toNat keep).emit (.hostReply
      (if (s.readDA (s.windowDA (64 * l.toNat)) 64).clean then "MemData" else "MemData poison")
      (s.readDA (s.windowDA (64 * l.toNat)) 64).data)) := by
  simp only [execWindowHostAccess, served, committed, enabled, none, Nat.not_le.mpr inside, Nat.not_le.mpr room,
    Bool.not_true, decide_false, Bool.or_self, Bool.and_false, List.any_nil, Bool.false_eq_true, if_false]

theorem execWindowHostAccess_writes (d : Line) : execWindowHostAccess l (some d) poison keep s =
    .next ((s.hostLineWrite l.toNat (leBytes 64 d.toNat) poison).setSnoop l.toNat keep) := by
  simp only [execWindowHostAccess, served, committed, enabled, none, Nat.not_le.mpr inside, Nat.not_le.mpr room,
    Bool.not_true, decide_false, Bool.or_self, Bool.and_false, List.any_nil, Bool.false_eq_true, if_false]

end line

theorem execSpoutHeaderWrite_window (n : Fin 4096) (line : Line) : execSpoutHeaderWrite n line false s =
    .next ((s.hostLineWrite (32 * n.val) (leBytes 64 line.toNat) false).setSnoop (32 * n.val) Option.none) := by
  simp only [execSpoutHeaderWrite, served, committed, enabled, none, List.any_nil, Bool.not_false, Bool.and_self,
    Bool.false_eq_true, if_false, if_true]

end window

theorem State.writeLcw_disabled {s : State} {v : W32} (off : s.host.lcwEn = false) (clear : bit v 0 = false) :
    s.writeLcw v = s.updHost fun h =>
      { h with lcwErr := h.lcwErr && !bit v 1, lcwBase := field v 2 14, lcwSize := field v 16 4 } := by
  simp only [State.writeLcw, off, clear, Bool.false_eq_true, if_false, State.updHost]

theorem State.writeLcw_pinned {s : State} {v : W32} (on : s.host.lcwEn = true) (clear : bit v 0 = false)
    (pinned : s.lcwPinned = true) : s.writeLcw v = s.updHost fun h => { h with lcwErr := true } := by
  simp only [State.writeLcw, on, clear, pinned, Bool.false_eq_true, if_false, if_true, State.updHost]

/-! ### Bias (R602, R623) -/

/-- The fields that a write of HC_BFLIP gives. -/
def HostState.bflipFields (h : HostState) (v : W32) : HostState :=
  { h with bfErr := h.bfErr && !bit v 14, bfPage := field v 0 11, bfDir := bit v 11 }

theorem State.writeBflip_go {s : State} {v : W32} (idle : s.host.bfBusy = false) (go : bit v 12 = true) : s.writeBflip v =
    if bit v 11
    then s.updHost fun h => { h.bflipFields v with bias := setInsert h.bias (field v 0 11).toNat }
    else (s.updHost fun h => { h.bflipFields v with bfBusy := true }).emit
      (.cxlCache "CLFlush" ((field v 0 11).toNat * 2 ^ 21) []) := by
  simp only [State.writeBflip, idle, go, Bool.not_true, Bool.false_eq_true, if_false, State.updHost, HostState.bflipFields]

theorem execBiasFlipComplete_eq (s : State) : execBiasFlipComplete s = .next (if s.host.bfBusy
    then s.updHost fun h => { h with bfBusy := false, bias := h.bias.filter fun b => b != h.bfPage.toNat } else s) :=
  (apply_ite Host.Outcome.next _ _ _).symm

/-- Settles O35: a lemma for each way in which an access or a write ends. -/
theorem hostMemoryAccess : Obligations.HostMemoryAccess := by
  unfold Obligations.HostMemoryAccess
  refine ⟨fun s size oneWay up ready => ⟨execHdmDecoderCommit_aperture up ready size oneWay,
      execHdmDecoderCommit_window up ready size oneWay, execHdmDecoderCommit_giveUp up ready size oneWay⟩,
    fun s off data n served committed => ⟨fun enabled basin => execApertureAccess_reads data served committed enabled basin,
      fun enabled basin outside within => execApertureAccess_writes data served committed enabled within basin outside,
      fun enabled unmapped within => execApertureAccess_unmapped data served committed enabled within unmapped,
      execApertureAccess_off data served committed⟩,
    fun s l poison served committed enabled inside none room keep =>
      ⟨execWindowHostAccess_reads served committed enabled none inside room poison keep,
       execWindowHostAccess_writes served committed enabled none inside room poison keep⟩,
    fun s n line served committed enabled none => execSpoutHeaderWrite_window served committed enabled none n line,
    fun s p v may off set noWindow => congrArg Host.Outcome.next ((State.onCsr_of_writable _ may).trans
      (congrArg (fun h => { s with host := h }) (HostState.writeApt_enable off set noWindow))),
    fun s p v may off clear => congrArg Host.Outcome.next
      ((State.onCsr_of_writable _ may).trans (State.writeLcw_disabled off clear)),
    fun s p v may on clear pinned => congrArg Host.Outcome.next
      ((State.onCsr_of_writable _ may).trans (State.writeLcw_pinned on clear pinned)),
    fun s p v may idle go => congrArg Host.Outcome.next
      ((State.onCsr_of_writable _ may).trans (State.writeBflip_go idle go)),
    execBiasFlipComplete_eq⟩

end Sys2Proof.Machine
end

section
/-! SUPPORT. The host line cache, back-invalidates and spout groups (R604–R608, R616, R625, R628): each way in which a message,
a timer or a register's write ends. -/
namespace Sys2Proof.Machine
open Sys2Proof

/-! ### Snoops (R607, R608) -/

theorem execHostSnoop_miss {s : State} {hpa : BitVec 46} (kind : SnoopKind) (miss : s.host.hlc.find hpa.toNat = none) :
    execHostSnoop hpa kind s = .next (s.emit (.cxlCache "RspIHitI" (64 * hpa.toNat) [])) := by
  simp only [execHostSnoop, miss]

section snoop
variable {s : State} {hpa : BitVec 46} {l : HlcLine} (hit : s.host.hlc.find hpa.toNat = some l)
  (live : l.superseded = false)
include hit live

theorem execHostSnoop_clean (kind : SnoopKind) (clean : l.st = .e) : execHostSnoop hpa kind s = .next (
    (s.updHost fun h => { h with hlc := h.hlc.del hpa.toNat }).emit (.cxlCache "RspIHitSE" (64 * hpa.toNat) [])) := by
  simp only [execHostSnoop, hit, live, clean, beq_self_eq_true, Bool.false_eq_true, if_false, if_true]

variable (dirty : l.st = .m)
include dirty

/-- What a snoop of a dirty line does turns on its eviction and on the kind of the snoop. -/
theorem execHostSnoop_dirty (kind : SnoopKind) : execHostSnoop hpa kind s =
    let bytes := cellsRead s.mem.cells (rsvBase + 64 * hpa.toNat) 64
    if l.evicting then .next ((s.updHost fun h => { h with
      superseded := satInc h.superseded, hlc := h.hlc.set hpa.toNat { l with superseded := true } }).emit
        (.cxlCache "RspIFwdM" (64 * hpa.toNat) bytes))
    else if kind == .cur then .next (s.emit (.cxlCache "RspVFwdV" (64 * hpa.toNat) bytes))
    else .next ((s.updHost fun h => { h with hlc := h.hlc.del hpa.toNat }).emit
      (.cxlCache "RspIFwdM" (64 * hpa.toNat) bytes)) := by
  have notClean : ¬(l.st == HlcState.e) = true := by rw [dirty]; decide
  simp only [execHostSnoop, hit, live, notClean, Bool.false_eq_true, if_false]

end snoop

/-! ### The part's own requests (R605, R606) -/

section request
variable {s : State} {r : CacheReq} (only : s.host.cacheReqs = [r]) (sent : r.waits = false)
include only sent

theorem execCxlCacheGo_write (write : r.op ≠ .rdOwn) :
    execCxlCacheGo 0 .go s = .next (s.updHost fun h => { h with cacheReqs := [] }) := by
  have noInstall : ¬(r.op == CacheOp.rdOwn) = true := by simpa using write
  simp only [execCxlCacheGo, only, List.getElem?_cons_zero, sent, noInstall, beq_self_eq_true, Bool.false_eq_true, if_false,
    if_true, State.updHost, List.eraseIdx_cons_zero]

theorem execCxlCacheGo_own (own : r.op = .rdOwn) : execCxlCacheGo 0 .go s =
    .next ((s.install r).updHost fun h => { h with cacheReqs := h.cacheReqs.eraseIdx 0 }) := by
  simp only [execCxlCacheGo, only, List.getElem?_cons_zero, sent, own, beq_self_eq_true, Bool.false_eq_true, if_false,
    if_true]

theorem execCxlCacheGo_error : execCxlCacheGo 0 .err s = .next ((((s.undoReq 0 r).updHost fun h =>
    { h with hlc := h.hlc.del (r.hpa / 64) }).hostFault 0 0x1003 r.hpa).breakModel r.model) := by
  simp only [execCxlCacheGo, only, List.getElem?_cons_zero, sent, show (GoKind.err == GoKind.go) = false from rfl,
    show (GoKind.err == GoKind.errWritePull) = false from rfl, Bool.false_eq_true, if_false]

end request

/-! ### Evictions (R605, R607) -/

section line
variable {s : State} {hpa : BitVec 46} {l : HlcLine} (held : s.host.hlc.find hpa.toNat = some l)
include held

theorem execGoWritepull_dropped (evicting : l.evicting = true) :
    execGoWritepull hpa true s = .next (s.evictEnd hpa.toNat) := by
  simp only [execGoWritepull, held, evicting, if_true]

theorem execGoWritepull_stays (stays : l.evicting = false) (drop : Bool) : execGoWritepull hpa drop s = .next s := by
  simp only [execGoWritepull, held, stays, Bool.false_eq_true, if_false]

theorem execHlcWritebackTimer_due (dirty : l.st = .m) (stays : l.evicting = false)
    (due : s.elapsed l.dirtySince (1000 * s.host.wb) = true) :
    execHlcWritebackTimer hpa s = .next (s.evictLine hpa.toNat) := by
  simp only [execHlcWritebackTimer, held, dirty, stays, due, beq_self_eq_true, Bool.not_false, Bool.and_self, if_true]

theorem execHlcWritebackTimer_early (early : s.elapsed l.dirtySince (1000 * s.host.wb) = false) :
    execHlcWritebackTimer hpa s = .next s := by
  simp only [execHlcWritebackTimer, held, early, Bool.and_false, Bool.false_eq_true, if_false]

end line

theorem State.writeHlc_noFlush (s : State) {v : W32} (noFlush : bit v 16 = false) :
    s.writeHlc v = s.updHost fun h => { h with wbUs := field v 0 16 } := if_neg (by rw [noFlush]; exact Bool.false_ne_true)

/-! ### Back-invalidates (R604, R616) -/

theorem execBisnpResponse_none {s : State} (n : Nat) (d : Option Line) (none : s.host.biWait = []) :
    execBisnpResponse n d s = .next s := by
  simp only [execBisnpResponse, none, List.filter_nil, List.getElem?_nil]

theorem execBisnpResponse_only {s : State} {w : BiWait} {l : Nat} (only : s.host.biWait = [w]) (sent : w.sent = true)
    (line : s.windowLine w.da = some l) : execBisnpResponse 0 none s =
      .next ((s.setSnoop l (if w.write then none else some .s)).biAdvance (w.da / 64) 2) := by
  have waits : ([w].filter fun (x : BiWait) => x.sent) = [w] := List.filter_eq_self.mpr (by simpa using sent)
  simp only [execBisnpResponse, only, waits, List.getElem?_cons_zero, line, Option.getD_some, State.setSnoop, State.updHost,
    List.length_singleton]

theorem execBiconflict_none {s : State} (l : BitVec 24) (none : s.host.biWait = []) :
    execBiconflict l s = .next (s.emit (.cxlMem "BIConflictAck" (s.windowDA (64 * l.toNat)) [])) := by
  simp only [execBiconflict, none, List.any_nil, Bool.false_eq_true, if_false]

/-! ### Spout groups (R609, R628) -/

/-- A group as a write of SP_GRP_A gives its fields. -/
def SpGroup.withA (x : SpGroup) (v : W32) : SpGroup :=
  { x with err := x.err && !bit v 1, first := field v 2 12, count := field v 14 13 }

theorem State.writeGrpA_enable {s : State} {g : Nat} {v : W32} (off : (s.group g).en = false) (set : bit v 0 = true) :
    s.writeGrpA g v = if s.groupOk g ((s.group g).withA v)
      then s.updGroup g fun _ => { (s.group g).withA v with en := true, closing := false }
      else s.updGroup g fun _ => { (s.group g).withA v with err := true } := by
  simp only [State.writeGrpA, off, set, Bool.false_eq_true, if_false, if_true, SpGroup.withA]

/-- Settles O36: a lemma for each way in which a message, a timer or a write ends. -/
theorem hostCoherence : Obligations.HostCoherence := by
  unfold Obligations.HostCoherence
  refine ⟨fun s hpa kind => execHostSnoop_miss kind, fun s hpa kind l hit live => ⟨execHostSnoop_clean hit live kind,
      fun dirty evicting => (execHostSnoop_dirty hit live dirty kind).trans (if_pos evicting),
      fun dirty stays cur => ?_, fun dirty stays other => ?_⟩,
    fun s r only sent => ⟨execCxlCacheGo_write only sent, execCxlCacheGo_own only sent, execCxlCacheGo_error only sent⟩,
    fun s hpa l held => ⟨execGoWritepull_dropped held, execGoWritepull_stays held, execHlcWritebackTimer_due held,
      execHlcWritebackTimer_early held⟩,
    fun s n d => execBisnpResponse_none n d, fun s w l => execBisnpResponse_only, fun s l => execBiconflict_none l,
    fun s p v may noFlush => congrArg Host.Outcome.next
      ((State.onCsr_of_writable _ may).trans (s.writeHlc_noFlush noFlush)),
    fun s p g v may off set => congrArg Host.Outcome.next
      ((State.onCsr_of_writable _ may).trans (State.writeGrpA_enable off set))⟩
  · exact (execHostSnoop_dirty hit live dirty kind).trans
      ((if_neg (Bool.eq_false_iff.mp stays)).trans (if_pos (beq_iff_eq.mpr cur)))
  · exact (execHostSnoop_dirty hit live dirty kind).trans
      ((if_neg (Bool.eq_false_iff.mp stays)).trans (if_neg (beq_iff_eq.not.mpr other)))

end Sys2Proof.Machine
end

section
/-! SUPPORT. The host link, function resets and IDE (R592, R594, R597, R614, R619, R620, R737): each way in which an event of
the link or a configuration write ends. -/
namespace Sys2Proof.Machine
open Sys2Proof

/-! ### What a report and the IDE hold leave of the host interface -/

/-- The host interface but for what a record may hold back and the IDE hold. -/
def HostState.butHold (h : HostState) : HostState := { h with msixPend := [], ideHold := false }

theorem HostState.of_butHold {a b : HostState} (same : a.butHold = b.butHold) :
    a.up = b.up ∧ a.cxl = b.cxl ∧ a.hlc = b.hlc ∧ a.ldown = b.ldown :=
  ⟨congrArg (·.up) same, congrArg (·.cxl) same, congrArg (·.hlc) same, congrArg (·.ldown) same⟩

@[simp] theorem State.emit_butHold (s : State) (m : OutMsg) : (s.emit m).host.butHold = s.host.butHold := rfl
@[simp] theorem State.msix_butHold (s : State) (f v : Nat) : (s.msix f v).host.butHold = s.host.butHold := by
  unfold State.msix; split <;> rfl
@[simp] theorem State.irqEvent_butHold (s : State) (b : Nat) : (s.irqEvent b).host.butHold = s.host.butHold := by
  simp only [State.irqEvent, apply_ite State.host, apply_ite HostState.butHold, State.msix_butHold, ite_self]
@[simp] theorem State.mirrorRecord_butHold (s : State) (r : FaultRecord) :
    (s.mirrorRecord r).host.butHold = s.host.butHold := by
  simp only [State.mirrorRecord, apply_ite State.host, apply_ite HostState.butHold, State.emit_butHold, ite_self]
@[simp] theorem State.pldmEvent_butHold (s : State) (w : String) (a : Nat) :
    (s.pldmEvent w a).host.butHold = s.host.butHold := by
  simp only [State.pldmEvent, apply_ite State.host, apply_ite HostState.butHold, State.emit_butHold, ite_self]
@[simp] theorem State.fault_butHold (s : State) (f : FaultRecord) : (s.fault f).host.butHold = s.host.butHold := by
  simp only [State.fault, apply_ite State.host, apply_ite HostState.butHold, State.pldmEvent_butHold, State.irqEvent_butHold,
    State.msix_butHold, State.mirrorRecord_butHold, ite_self]
@[simp] theorem State.hostFault_butHold (s : State) (fn code addr : Nat) (hdr : List Byte) :
    (s.hostFault fn code addr hdr).host.butHold = s.host.butHold := State.fault_butHold _ _
@[simp] theorem State.ideSettle_butHold (s : State) : s.ideSettle.host.butHold = s.host.butHold := by
  unfold State.ideSettle
  split
  · split
    · rfl
    · exact State.fault_butHold _ _
  · split
    · rfl
    · rfl

@[simp] theorem State.breakModel_host (s : State) (m : Option Nat) : (s.breakModel m).host = s.host := by
  cases m <;> rfl

@[simp] theorem State.breakReservoir_host (s : State) : s.breakReservoir.host = s.host := by
  unfold State.breakReservoir
  exact State.foldl_kept State.host (fun st t => by
    simp only [apply_ite State.host, State.breakModel_host, ite_self]) _ _

/-- Once the link is down nothing of the host is held (R620). -/
theorem State.linkDown_host (s : State) : s.linkDown.host.up = false ∧ s.linkDown.host.cxl = false
    ∧ s.linkDown.host.hlc = [] ∧ s.linkDown.host.ldown = true := by
  have kept : ∃ h : HostState, s.linkDown.host.butHold = h.butHold
      ∧ h.up = false ∧ h.cxl = false ∧ h.hlc = [] ∧ h.ldown = true := by
    unfold State.linkDown
    rw [State.ideSettle_butHold, State.hostFault_butHold, State.breakReservoir_host]
    exact ⟨_, rfl, rfl, rfl, rfl, rfl⟩
  obtain ⟨h, same, up, cxl, hlc, ldown⟩ := kept
  obtain ⟨sameUp, sameCxl, sameHlc, sameLdown⟩ := HostState.of_butHold same
  exact ⟨sameUp.trans up, sameCxl.trans cxl, sameHlc.trans hlc, sameLdown.trans ldown⟩

/-! ### Link events (R592, R620) -/

theorem execHostLinkUp_runs {s : State} (speed : BitVec 2) (width : BitVec 5) (cxl : Bool) (runs : s.portRuns = true) :
    execHostLinkUp speed width cxl s = .next (s.updHost fun h =>
      { h with up := true, speed := speed, width := width, cxl := cxl && cxlFast speed.toNat width.toNat }) :=
  if_neg (by rw [runs]; exact Bool.false_ne_true)

theorem execHostLinkUp_stopped {s : State} (speed : BitVec 2) (width : BitVec 5) (cxl : Bool) (stopped : s.portRuns = false) :
    execHostLinkUp speed width cxl s = .next s := if_pos (by rw [stopped]; rfl)

theorem execIdeIntegrityFailure_eq (s : State) : execIdeIntegrityFailure s =
    .next (if s.host.ideIo || s.host.ideCm then (s.hostFault 0 0x1005 0).linkDown else s) :=
  (apply_ite Host.Outcome.next _ _ _).symm

theorem execIdeKmKeyProgram_session {s : State} (io cm : Bool) (up : s.host.up = true) (session : s.sec.sessions ≠ []) :
    execIdeKmKeyProgram io cm s = .next (s.updHost fun h =>
      { h with ideIo := h.ideIo || io, ideCm := h.ideCm || (cm && h.cxl) }).ideSettle :=
  if_pos (by rw [up, List.isEmpty_eq_false_iff.mpr session]; rfl)

theorem execIdeKmKeyProgram_noSession {s : State} (io cm : Bool) (none : s.sec.sessions = []) :
    execIdeKmKeyProgram io cm s = .next s := if_neg (by rw [none]; simp)

/-! ### Function resets (R584, R620) -/

/-- Where a VF has no queue its reset clears its own state alone. -/
theorem execVfFlr_noQueue {s : State} (vf : Fin 16) (noQueue : s.queues = []) (noGroup : s.host.groups = []) :
    execVfFlr vf s = .next ((s.updFunc (vf.val + 1) fun x => { x with bme := false, d3hot := false }).updHost fun h =>
      { h with msixPend := h.msixPend.filter fun m => m.1 != vf.val + 1 }) := by
  simp only [execVfFlr, noQueue, noGroup, List.filter_nil, List.map_nil, List.foldl_nil]

/-- Settles O34: a lemma for each way in which an event or a write ends; what is left of the host by what reports leave
alone. -/
theorem hostLinkAndFunctions : Obligations.HostLinkAndFunctions := by
  unfold Obligations.HostLinkAndFunctions
  exact ⟨fun s => execHostLinkUp_runs, fun s => execHostLinkUp_stopped, fun s up => ⟨if_pos up, s.linkDown_host⟩,
    fun s down => if_neg (Bool.eq_false_iff.mp down), fun s ready => if_pos (beq_iff_eq.mpr ready),
    fun s => execVfFlr_noQueue, fun s => rfl, fun s => execIdeKmKeyProgram_session, fun s => execIdeKmKeyProgram_noSession,
    execIdeIntegrityFailure_eq, fun s fn on => rfl, fun s vf d => rfl⟩

end Sys2Proof.Machine
end

section
/-! SUPPORT. What a change of role leaves, and the Quefy link, its cable,
    splits and the mirror stream (R632–R648): each way in
which an event ends. -/
namespace Sys2Proof.Machine
open Sys2Proof

/-! ### What reports leave alone -/

@[simp] theorem State.plFault_pl (s : State) (c : Nat) : (s.plFault c).pl = s.pl :=
  (congrArg State.pl (butReport_plFault s c) :)
@[simp] theorem State.plFault_int (s : State) (c : Nat) : (s.plFault c).int = s.int :=
  (congrArg State.int (butReport_plFault s c) :)
@[simp] theorem State.irqEvent_pl (s : State) (b : Nat) : (s.irqEvent b).pl = s.pl :=
  (congrArg State.pl (butReport_irqEvent s b) :)
@[simp] theorem State.irqEvent_int (s : State) (b : Nat) : (s.irqEvent b).int = s.int :=
  (congrArg State.int (butReport_irqEvent s b) :)
@[simp] theorem State.irqEvent_upd (s : State) (b : Nat) : (s.irqEvent b).upd = s.upd :=
  (congrArg State.upd (butReport_irqEvent s b) :)

/-! ### Roles (R634, R636, R648) -/

@[simp] theorem State.setRole_pl (s : State) (r : Role) : (s.setRole r).pl = { s.pl with role := r } := by
  unfold State.setRole
  split
  · next same => rw [← same]
  · rw [State.irqEvent_pl]
@[simp] theorem State.setRole_int (s : State) (r : Role) : (s.setRole r).int = s.int := by
  simp only [State.setRole, apply_ite State.int, State.irqEvent_int, ite_self]
@[simp] theorem State.setRole_upd (s : State) (r : Role) : (s.setRole r).upd = s.upd := by
  simp only [State.setRole, apply_ite State.upd, State.irqEvent_upd, ite_self]

@[simp] theorem State.dropLock_pl (s : State) : s.dropLock.pl = s.pl := by
  simp only [State.dropLock, apply_ite State.pl, State.irqEvent_pl, ite_self]
@[simp] theorem State.dropLock_int (s : State) : s.dropLock.int = s.int := by
  simp only [State.dropLock, apply_ite State.int, State.irqEvent_int, ite_self]
@[simp] theorem State.dropLock_upd (s : State) : s.dropLock.upd = s.upd := by
  simp only [State.dropLock, apply_ite State.upd, State.irqEvent_upd, ite_self]

/-- What a part keeps of its pair once it is SOLO. -/
def PairState.alone (p : PairState) : PairState :=
  { p with
    role := .solo, tx := [], rx := [], retain := true, cutWait := [], cutParts := [], copy := false, copyEpoch := none
    swapEpoch := none, waiting := none, promoting := false, pdnOut := false, hold := false, side := false, rxRun := false
    busy := p.busy && p.runOp == 5 && p.promoting, res := if p.busy && p.runOp == 6 then 5 else p.res }

@[simp] theorem State.becomeSolo_pl (s : State) : s.becomeSolo.pl = s.pl.alone := by
  rw [State.becomeSolo, State.setRole_pl, State.dropLock_pl]
  rfl
@[simp] theorem State.becomeSolo_int (s : State) : s.becomeSolo.int = s.int := by
  rw [State.becomeSolo, State.setRole_int, State.dropLock_int]
@[simp] theorem State.becomeSolo_upd (s : State) : s.becomeSolo.upd = s.upd := by
  rw [State.becomeSolo, State.setRole_upd, State.dropLock_upd]

/-- What a part of a pair keeps once it is SPLIT. -/
def PairState.parted (p : PairState) : PairState :=
  { p with
    role := .split, side := p.role != .active, former := p.role, splits := satInc p.splits, busy := false
    res := if p.busy then 5 else p.res, swapEpoch := none, cutWait := [], cutParts := [] }

theorem State.enterSplit_pl (s : State) : s.enterSplit.pl = if rolePaired s.pl.role then s.pl.parted else s.pl := by
  simp only [State.enterSplit, apply_ite State.pl, State.plFault_pl, State.setRole_pl, PairState.parted]

/-- A link that is down leaves no lane; with the cable seated and the peer up it splits the pair. -/
theorem State.quefyDown_pl (s : State) (peerDown : Bool) : (s.quefyDown peerDown).pl =
    if peerDown || !s.pl.prsnt || !rolePaired s.pl.role then { s.pl with link := false, lanes := 0 }
    else PairState.parted { s.pl with link := false, lanes := 0 } := by
  simp only [State.quefyDown, apply_ite State.pl, State.plFault_pl, State.enterSplit_pl]
  cases peerDown <;> cases s.pl.prsnt <;> cases rolePaired s.pl.role <;> rfl

theorem State.quefyDown_link (s : State) (peerDown : Bool) :
    (s.quefyDown peerDown).pl.link = false ∧ (s.quefyDown peerDown).pl.lanes = 0
    ∧ (s.quefyDown peerDown).pl.degrades = s.pl.degrades := by
  rw [State.quefyDown_pl]
  split
  · exact ⟨rfl, rfl, rfl⟩
  · exact ⟨rfl, rfl, rfl⟩

/-! ### The link comes up (R637, R648) -/

/-- The part with its link up on some lanes, before the roles are exchanged. -/
def State.linkedUp (s : State) (lanes : W16) (peer : Role) : State :=
  { s with pl := { s.pl with link := true, lanes := lanes, pdnSeen := false, peerRole := peer, met := true } }

/-- Two split parts that meet can resume where each still holds what the other needs. -/
def PairState.resumes (p : PairState) (peer : Role) (peerSide peerHolds : Bool) : Bool :=
  peer == .split && peerSide == !p.side && (if p.side then peerHolds else p.retain)

section linkUp
variable {s : State} {lanes : W16} {peer : Role} {peerSide : Bool} {e : Nat} {peerHolds : Bool} (down : s.pl.link = false)
  (seated : s.pl.prsnt = true) (trains : s.linkTrains = true) (ready : s.rst.start = .ready)
  (wide : 8 ≤ ({ s.pl with lanes := lanes } : PairState).laneCount)
include down seated trains ready wide

theorem execQuefyLinkUp_trains : execQuefyLinkUp lanes peer peerSide e peerHolds s = .next (
    if !s.rst.effStraps.pair then s.linkedUp lanes peer
    else if s.pl.role == .split then
      if s.pl.resumes peer peerSide peerHolds then (s.linkedUp lanes peer).resumePair e
      else (s.linkedUp lanes peer).rejoin peer peerSide
    else if s.pl.met then s.linkedUp lanes peer
    else (s.linkedUp lanes peer).firstMeeting peer) := by
  have met : (s.pl.met || (s.rst.start == .ready)) = true := by rw [ready]; exact Bool.or_true _
  have enough : ¬PairState.laneCount { s.pl with
      link := true, lanes := lanes, pdnSeen := false, peerRole := peer, met := true } < 8 := Nat.not_lt.mpr wide
  have going : ¬(s.pl.link || !s.pl.prsnt || !s.linkTrains) = true := by rw [down, seated, trains]; decide
  have isReady : ¬(!s.rst.start == Start.ready) = true := by rw [ready]; decide
  unfold execQuefyLinkUp
  dsimp only
  rw [if_neg going, met, if_neg enough, if_neg isReady]
  rfl

end linkUp

theorem State.firstMeeting_fits (s : State) (active : s.pl.role = .active) : s.firstMeeting .standbyIncomplete = s := by
  simp only [State.firstMeeting, active, beq_self_eq_true, Bool.and_self, Bool.true_or, if_true]

theorem State.firstMeeting_misfits {s : State} {peer : Role} (active : s.pl.role = .active) (other : peer ≠ .standbyIncomplete) :
    s.firstMeeting peer = s.becomeSolo.plFault 0x0E08 := by
  have misfit : (peer == Role.standbyIncomplete) = false := beq_eq_false_iff_ne.mpr other
  simp only [State.firstMeeting, active, misfit, show (Role.active == Role.standbyIncomplete) = false from rfl,
      Bool.and_false,
    Bool.false_and, Bool.or_self, Bool.false_eq_true, if_false]

theorem State.resumePair_side (s : State) (e : Nat) (side : s.pl.side = true) :
    (s.resumePair e).pl = { s.pl with rx := [], rxRun := false, side := false, role := s.pl.former } := by
  rw [State.resumePair, if_pos side, State.setRole_pl]

theorem State.rejoin_side (s : State) (peer : Role) (peerSide : Bool) (side : s.pl.side = true) :
    (s.rejoin peer peerSide).pl = { s.pl with rx := [], rxRun := false, side := false, role := .standbyIncomplete } := by
  rw [State.rejoin, if_pos side, State.setRole_pl]

theorem PairState.resumes_side {p : PairState} (side : p.side = true) : p.resumes .split false true = true := by
  simp only [PairState.resumes, side, beq_self_eq_true, Bool.not_true, Bool.and_self, if_true]

theorem PairState.resumes_other {p : PairState} {peer : Role} (peerSide peerHolds : Bool) (other : peer ≠ .split) :
    p.resumes peer peerSide peerHolds = false := by
  simp only [PairState.resumes, beq_eq_false_iff_ne.mpr other, Bool.false_and]

/-! ### Lanes, flits and the cable (R632–R635) -/

/-- The part with a lane out of use. -/
def State.laneOut (s : State) (l : Nat) : State :=
  State.plFault { s with pl := { s.pl with lanes := setField s.pl.lanes l 1 0, degrades := satInc s.pl.degrades } } 0x0E01

@[simp] theorem State.laneOut_pl (s : State) (l : Nat) :
    (s.laneOut l).pl = { s.pl with lanes := setField s.pl.lanes l 1 0, degrades := satInc s.pl.degrades } :=
  State.plFault_pl _ _

theorem execQuefyLaneFailure_fails {s : State} {l : Fin 16} (retrained peerDown : Bool) (up : s.pl.link = true)
    (used : s.pl.lanes.getLsbD l.val = true) : execQuefyLaneFailure l retrained peerDown s =
      .next (if s.pl.laneCount ≤ 8 || !retrained then (s.laneOut l.val).quefyDown peerDown else s.laneOut l.val) := by
  simp only [execQuefyLaneFailure, up, used, Bool.not_true, Bool.or_self, Bool.false_eq_true, if_false, State.laneOut]

theorem execFlitCrcFailure_eq (s : State) : execFlitCrcFailure s = .next (if s.pl.link
    then { s with pl := { s.pl with replays := satInc s.pl.replays } } else s) := rfl

theorem execQuefyLinkLoss_silence {s : State} (up : s.pl.link = true) (peerDown : Bool) :
    execQuefyLinkLoss true peerDown s = .next (if peerDown then s else s.quefyDown false) := by
  cases peerDown
  · exact if_neg (by rw [up]; decide)
  · exact if_pos (by rw [up]; decide)

theorem execQfPrsntChange_removed {s : State} (seated : s.pl.prsnt = true) : ∃ t, execQfPrsntChange false s = .next t
    ∧ t.pl = if rolePaired s.pl.role
      then PairState.parted { s.pl with prsnt := false, link := false, lanes := 0, pdnSeen := false }
      else { s.pl with prsnt := false, link := false, lanes := 0, pdnSeen := false } := by
  refine ⟨_, (if_neg (by rw [seated]; decide)).trans rfl, ?_⟩
  rw [if_neg Bool.false_ne_true, State.enterSplit_pl]
  simp only [State.plFault_pl]

/-! ### The mirror stream (R643, R644) -/

theorem execMirrorItem_eq (n : Nat) (it : MirrorItem) (s : State) : execMirrorItem n it s = .next (if s.receives
    then { s with pl := { s.pl with rx := rxPut n (fun b => { b with items := b.items ++ [it] }) s.pl.rx } } else s) :=
  (apply_ite Host.Outcome.next _ _ _).symm

theorem execCommitReceived_later {s : State} {c : Commit} (receives : s.receives = true) (later : s.pl.committed < c.n) :
    execCommitReceived c s = .next (State.rxApply { s with
      pl := { s.pl with rx := rxPut c.n (fun b => { b with commit := some (b.commit.getD c) }) s.pl.rx } }) := by
  have notDone : ¬(c.n ≤ s.pl.committed ∧ s.pl.committed ≠ 0) := by omega
  simp only [execCommitReceived, receives, if_true, notDone, if_false]

theorem execAckReceived_plain {s : State} (n : Nat) (active : s.pl.role = .active) (noCopy : s.pl.copyEpoch = none)
    (noSwap : s.pl.swapEpoch = none) : ∃ hold, execAckReceived n s = .next { s with pl := { s.pl with
      tx := s.pl.tx.filter fun (b : EpochBuf) => decide (n < b.n), committed := max s.pl.committed n, hold := hold } } := by
  simp only [execAckReceived, active, noCopy, noSwap, bne_self_eq_false, Bool.false_eq_true, if_false]
  exact ⟨_, rfl⟩

/-! ### The peer is down (R635, R647) -/

/-- With nothing received, nothing is applied. -/
theorem State.rxApply_nil {s : State} (empty : s.pl.rx = []) : s.rxApply = s := by
  rw [State.rxApply, empty]
  rfl

/-- A promotion with nothing to apply ends at once, SOLO at the last committed epoch. -/
theorem State.promoteGo_nil {s : State} (empty : s.pl.rx = []) (noRollback : s.int.rbAuto = false) : s.promoteGo.pl =
    { s.pl.alone with promo := s.pl.committed, promos := satInc s.pl.promos, busy := false, promoting := false, res :=
        0 } := by
  have stopped : State.rxApply { s with pl := { s.pl with promoting := true, rx := s.pl.rx.takeWhile EpochBuf.whole } } =
      { s with pl := { s.pl with promoting := true, rx := [] } } := by
    rw [empty]
    exact State.rxApply_nil rfl
  rw [State.promoteGo, stopped]
  simp only [List.isEmpty_nil, if_true, State.promoteEnd, State.plFault_int, State.becomeSolo_int, noRollback,
    Bool.false_eq_true, if_false, State.plFault_pl, State.becomeSolo_pl, PairState.alone]

/-- The part has seen its peer down. -/
def State.peerSeenDown (s : State) : State := State.plFault { s with pl := { s.pl with pdnSeen := true } } 0x0E04

@[simp] theorem State.peerSeenDown_pl (s : State) : s.peerSeenDown.pl = { s.pl with pdnSeen := true } :=
    State.plFault_pl _ _
@[simp] theorem State.peerSeenDown_int (s : State) : s.peerSeenDown.int = s.int := State.plFault_int _ _

section peerDown
variable {s : State} (seated : s.pl.prsnt = true) (unseen : s.pl.pdnSeen = false) (idle : s.pl.promoting = false)
include seated unseen idle

theorem execPeerDownSeen_active (active : s.pl.role = .active) : execPeerDownSeen s = .next s.peerSeenDown.becomeSolo := by
  simp only [execPeerDownSeen, idle, seated, unseen, active, show (Role.active == Role.solo) = false from rfl,
      Bool.not_true,
    Bool.or_self, Bool.false_eq_true, if_false, State.peerSeenDown]

theorem execPeerDownSeen_standby (standby : s.pl.role = .standby) :
    execPeerDownSeen s = .next (if s.pl.auto then s.peerSeenDown.promoteGo else s.peerSeenDown) := by
  simp only [execPeerDownSeen, idle, seated, unseen, standby, show (Role.standby == Role.solo) = false from rfl,
      Bool.not_true,
    Bool.or_self, Bool.false_eq_true, if_false, State.peerSeenDown]

end peerDown

/-- Settles O37: a lemma for each way in which an event ends; what it leaves of the pair by the changes of role. -/
theorem quefyLinkAndStream : Obligations.QuefyLinkAndStream := by
  unfold Obligations.QuefyLinkAndStream
  refine ⟨fun s lanes peer ps e h down seated trains ready wide => ?_, fun s l retrained pd up used => ?_,
    execFlitCrcFailure_eq, fun s up => ⟨execQuefyLinkLoss_silence up true, _, execQuefyLinkLoss_silence up false, ?_⟩,
    fun s seated => ?_, fun s n it => execMirrorItem_eq n it s, fun s c => execCommitReceived_later,
    fun s n active noCopy noSwap => ?_, fun s seated unseen idle => ⟨fun active => ?_, fun standby manual => ?_,
      fun standby auto empty noRollback => ?_⟩⟩
  · have trained := execQuefyLinkUp_trains (peer := peer) (peerSide := ps) (e := e) (peerHolds :=
      h) down seated trains ready
      wide
    refine ⟨fun plain => ?_, fun pair unmet active fits => ?_, fun pair unmet active misfits => ?_,
      fun pair split side peerSplit low holds => ?_, fun pair split side other => ?_⟩
    · obtain noPair | ⟨notSplit, met⟩ := plain
      · rw [noPair] at trained
        exact trained
      · have notSplit : (s.pl.role == Role.split) = false := beq_eq_false_iff_ne.mpr notSplit
        rw [notSplit, met, if_neg Bool.false_ne_true, if_pos rfl, ite_self] at trained
        exact trained
    · subst fits
      simp only [pair, unmet, active, show (Role.active == Role.split) = false from rfl, Bool.not_true, Bool.false_eq_true,
        if_false, State.firstMeeting_fits (s.linkedUp lanes .standbyIncomplete) active] at trained
      exact trained
    · simp only [pair, unmet, active, show (Role.active == Role.split) = false from rfl, Bool.not_true, Bool.false_eq_true,
        if_false, State.firstMeeting_misfits (s := s.linkedUp lanes peer) active misfits] at trained
      refine ⟨_, trained, ?_⟩
      rw [State.plFault_pl, State.becomeSolo_pl]
      exact ⟨rfl, rfl⟩
    · subst peerSplit low holds
      simp only [pair, split, PairState.resumes_side side, beq_self_eq_true, Bool.not_true, Bool.false_eq_true, if_false,
        if_true] at trained
      refine ⟨_, trained, ?_⟩
      rw [State.resumePair_side (s.linkedUp lanes .split) e side]
      exact ⟨rfl, rfl⟩
    · simp only [pair, split, PairState.resumes_other ps h other, beq_self_eq_true, Bool.not_true, Bool.false_eq_true,
        if_false, if_true] at trained
      refine ⟨_, trained, ?_⟩
      rw [State.rejoin_side (s.linkedUp lanes peer) peer ps side]
      exact ⟨rfl, rfl⟩
  · refine ⟨_, execQuefyLaneFailure_fails retrained pd up used, ?_⟩
    obtain ⟨link, lanes, degrades⟩ := (s.laneOut l.val).quefyDown_link pd
    by_cases narrow : s.pl.laneCount ≤ 8 || !retrained
    · rw [if_pos narrow]
      rw [State.laneOut_pl] at degrades
      refine ⟨degrades, fun wide again => ?_, fun _ => ⟨link, lanes⟩⟩
      simp [Nat.not_le.mpr wide, again] at narrow
    · rw [if_neg narrow, State.laneOut_pl]
      exact ⟨rfl, fun _ _ => ⟨up, rfl, rfl⟩, fun lost => (narrow (by simpa using lost)).elim⟩
  · obtain ⟨link, lanes, _⟩ := s.quefyDown_link false
    refine ⟨link, lanes, fun paired seated => ?_⟩
    rw [if_neg Bool.false_ne_true, State.quefyDown_pl, paired, seated]
    exact ⟨rfl, rfl⟩
  · obtain ⟨t, ends, left⟩ := execQfPrsntChange_removed seated
    refine ⟨t, ends, ?_⟩
    rw [left]
    cases rolePaired s.pl.role
    · exact ⟨rfl, rfl, Bool.false_ne_true.elim, fun _ => rfl⟩
    · exact ⟨rfl, rfl, fun _ => ⟨rfl, rfl, rfl, rfl⟩, fun h => nomatch h⟩
  · obtain ⟨hold, acked⟩ := execAckReceived_plain n active noCopy noSwap
    exact ⟨_, acked, rfl, active, rfl⟩
  · refine ⟨_, execPeerDownSeen_active seated unseen idle active, ?_⟩
    rw [State.becomeSolo_pl]
    exact ⟨rfl, rfl, rfl⟩
  · refine ⟨_, execPeerDownSeen_standby seated unseen idle standby, ?_⟩
    rw [manual, if_neg Bool.false_ne_true, State.peerSeenDown_pl]
    exact ⟨standby, rfl⟩
  · refine ⟨_, execPeerDownSeen_standby seated unseen idle standby, ?_⟩
    rw [auto, if_pos rfl, State.promoteGo_nil (by rw [State.peerSeenDown_pl]; exact empty)
      (by rw [State.peerSeenDown_int]; exact noRollback), State.peerSeenDown_pl]
    exact ⟨rfl, rfl, rfl⟩

end Sys2Proof.Machine
end

section
/-! SUPPORT. PL_CMD (R638, R640, R646, R647, R650): what each of its commands does, and the peer's. -/
namespace Sys2Proof.Machine
open Sys2Proof

/-! ### A command of PL_CMD -/

/-- The pair-link controller with a command's OP taken. -/
def State.plTaken (s : State) (op : BitVec 3) : State := { s with pl := { s.pl with op := op, runOp := op } }

/-- What each OP of PL_CMD begins. -/
def State.plRun (s : State) (op : Nat) (fp : List Nat) (lanes : W16) : State :=
  match op with
  | 1 => s.plPair 1
  | 2 => s.plPair 2
  | 3 => s.plCopy fp
  | 4 => s.plSolo
  | 5 => s.plPromote
  | 6 => s.plSwap
  | _ => s.plRetrain lanes

/-- With PAIR_EN a command that is written while none runs does what its OP says. -/
theorem State.plCommand_runs {s : State} {op : Nat} (fp : List Nat) (lanes : W16) (idle : s.pl.busy = false) (some : op ≠ 0)
    (pair : s.rst.effStraps.pair = true) :
    s.plCommand op fp lanes = (s.plTaken (BitVec.ofNat 3 op)).plRun op fp lanes := by
  unfold State.plCommand
  dsimp only
  rw [if_neg (by rw [idle]; exact Bool.false_ne_true), if_neg some, if_neg (by rw [pair]; decide)]
  rfl

/-- Without PAIR_EN each command fails with STRAP. -/
theorem State.plCommand_noPair {s : State} {op : Nat} (fp : List Nat) (lanes : W16) (idle : s.pl.busy = false) (some : op ≠ 0)
    (noPair : s.rst.effStraps.pair = false) : s.plCommand op fp lanes = (s.plTaken (BitVec.ofNat 3 op)).plEnd 2 := by
  unfold State.plCommand
  dsimp only
  rw [if_neg (by rw [idle]; exact Bool.false_ne_true), if_neg some, if_pos (by rw [noPair]; decide)]
  rfl

/-! ### PAIR_ACTIVE and PAIR_STANDBY (R638, R640) -/

/-- The role that a PAIR command gives, and the one that it gives the peer. -/
def pairRole (op : Nat) : Role := if op = 1 then .active else .standbyIncomplete
def peerRole (op : Nat) : Role := if op = 1 then .standbyIncomplete else .active

theorem State.pairUp_pl (s : State) (op : Nat) (fp : List Nat) :
    (s.pairUp op fp).pl.busy = false
    ∧ (fp = s.fingerprint → (s.pairUp op fp).pl.role = pairRole op ∧ (s.pairUp op fp).pl.peerRole = peerRole op
        ∧ (s.pairUp op fp).pl.res = 0 ∧ (s.pairUp op fp).pl.pdnOut = !s.int.expelled)
    ∧ (fp ≠ s.fingerprint → (s.pairUp op fp).pl.role = s.pl.role ∧ (s.pairUp op fp).pl.res = 4) := by
  by_cases equal : fp = s.fingerprint
  · rw [State.pairUp, if_neg (not_not_intro equal)]
    simp only [State.enterPair, State.setRole_pl]
    exact ⟨rfl, fun _ => ⟨rfl, rfl, rfl, rfl⟩, fun other => (other equal).elim⟩
  · rw [State.pairUp, if_pos equal]
    exact ⟨rfl, fun same => (equal same).elim, fun _ => ⟨rfl, rfl⟩⟩

section solo
variable {s : State} (solo : s.pl.role = .solo)
include solo

theorem State.plPair_noLink (op : Nat) (down : s.pl.link = false) : s.plPair op = s.plEnd 5 := by
  simp only [State.plPair, solo, down, bne_self_eq_false, Bool.not_false, Bool.false_eq_true, if_false, if_true]

variable (up : s.pl.link = true) {op : Nat}
include up

theorem State.plPair_meets {fp : List Nat} {t0 : Nat} (asked : s.pl.peerCmd = some (3 - op, fp, t0))
    (soon : s.time.now < t0 + 100000000) : s.plPair op = (s.emit (.quefy "PAIR" op [])).pairUp op fp := by
  simp only [State.plPair, solo, up, asked, soon, bne_self_eq_false, Bool.not_true, Bool.false_eq_true, if_false, and_self,
    if_true]

theorem State.plPair_waits (unasked : s.pl.peerCmd = none) :
    (s.plPair op).pl = { s.pl with busy := true, waiting := some (op, s.time.now) } := by
  simp only [State.plPair, solo, up, unasked, bne_self_eq_false, Bool.not_true, Bool.false_eq_true, if_false, State.emit]

end solo

theorem State.plPair_paired {s : State} (op : Nat) (paired : s.pl.role ≠ .solo) : s.plPair op = s.plEnd 1 :=
  if_pos (bne_iff_ne.mpr paired)

/-! ### COPY, SOLO, PROMOTE, SWAP and RETRAIN (R638, R646, R647, R650) -/

theorem State.plCopy_incomplete {s : State} (fp : List Nat) (active : s.pl.role = .active) (noCopy : s.pl.copy = false)
    (peer : s.pl.peerRole = .standbyIncomplete) (up : s.pl.link = true) :
    s.plCopy fp = if fp = s.fingerprint then (s.plEnd 0).copyStart else s.plEnd 4 := by
  simp only [State.plCopy, active, noCopy, peer, up, bne_self_eq_false, Bool.not_true, Bool.or_self, Bool.false_eq_true,
    if_false, ne_eq, ite_not]

/-- COPY and SWAP are for an ACTIVE part that copies nothing. -/
theorem PairState.notCopier {p : PairState} (h : p.role ≠ .active ∨ p.copy = true) :
    (p.role != .active || p.copy) = true := by
  simpa using h

theorem State.plSolo_paired {s : State} (paired : s.pl.role ≠ .solo) : s.plSolo = s.leavePair.plEnd 0 :=
  if_neg (by simpa using paired)

theorem State.plSolo_solo {s : State} (solo : s.pl.role = .solo) : s.plSolo = s.plEnd 1 := if_pos (beq_iff_eq.mpr solo)

theorem State.leavePair_pl (s : State) : s.leavePair.pl = s.pl.alone := by
  rw [State.leavePair, State.becomeSolo_pl]
  split <;> rfl

/-- A former standby's digests are broken. -/
theorem State.leavePair_broken {s : State} (standby : roleStandby s.pl.role = true) :
    s.leavePair.upd.broken = List.range 256 := by
  rw [State.leavePair, State.becomeSolo_upd, if_pos (by rw [standby]; rfl)]

/-- A command of the pair is under way. -/
def State.plBusy (s : State) : State := { s with pl := { s.pl with busy := true, res := 0 } }

theorem State.plPromote_standby {s : State} (standby : s.pl.role = .standby) :
    s.plPromote = s.plBusy.promoteGo :=
  if_pos (by rw [standby]; rfl)

theorem State.plPromote_active {s : State} (active : s.pl.role = .active) : s.plPromote = s.plEnd 1 :=
  if_neg (by simp [active])

theorem State.plSwap_standby {s : State} (active : s.pl.role = .active) (noCopy : s.pl.copy = false)
    (peer : s.pl.peerRole = .standby) (up : s.pl.link = true) :
    s.plSwap = s.plBusy.swapGo := by
  simp only [State.plSwap, active, noCopy, peer, up, bne_self_eq_false, Bool.not_true, Bool.or_self, Bool.false_eq_true,
    if_false, State.plBusy]

theorem State.plRetrain_wide {s : State} {lanes : W16} (up : s.pl.link = true) (paired : rolePaired s.pl.role = true)
    (wide : 8 ≤ ({ s.pl with lanes := lanes } : PairState).laneCount) :
    (s.plRetrain lanes).pl = { s.pl with lanes := lanes, busy := false, res := 0, waiting := none } := by
  have enough : ¬({ s.pl with lanes := lanes } : PairState).laneCount < 8 := Nat.not_lt.mpr wide
  have trains : ¬(!s.pl.link || !rolePaired s.pl.role) = true := by rw [up, paired]; decide
  unfold State.plRetrain
  rw [if_neg trains]
  dsimp only
  rw [if_neg enough, State.plEnd, State.plFault_pl]

theorem State.plRetrain_down {s : State} (lanes : W16) (down : s.pl.link = false) : s.plRetrain lanes = s.plEnd 5 :=
  if_pos (by rw [down]; rfl)

/-! ### The peer's command and the window for it (R638) -/

theorem execPairPeerWindowExpiry_waits {s : State} {op t0 : Nat} (waits : s.pl.waiting = some (op, t0)) :
    execPairPeerWindowExpiry s = .next (if s.elapsed t0 100000000 then s.plEnd 3 else s) := by
  simp only [execPairPeerWindowExpiry, waits, apply_ite Host.Outcome.next]

theorem execPeerPairCommandReceived_meets {s : State} {t0 : Nat} (fp : List Nat) (up : s.pl.link = true)
    (waits : s.pl.waiting = some (1, t0)) (soon : s.time.now < t0 + 100000000) :
    execPeerPairCommandReceived true fp s = .next (s.pairUp 1 fp) := by
  simp only [execPeerPairCommandReceived, up, waits, soon, Bool.not_true, Bool.false_eq_true, if_false, if_true, and_self]

theorem execPeerPairCommandReceived_kept {s : State} (standby : Bool) (fp : List Nat) (up : s.pl.link = true)
    (free : s.pl.waiting = none) : execPeerPairCommandReceived standby fp s =
      .next { s with pl := { s.pl with peerCmd := some (if standby then 2 else 1, fp, s.time.now) } } := by
  simp only [execPeerPairCommandReceived, up, free, Bool.not_true, Bool.false_eq_true, if_false]

/-! ### The commands, by the path that writes PL_CMD -/

section command
variable {s : State} {p : AccessPath} (may : s.csrWritable p .hub = true)
include may

/-- On a writable controller each command is a write of PL_CMD with GO. -/
theorem exec_plCommand : execPairActive p s = .next (s.plCommand 1 [] 0) ∧ execPairStandby p s = .next (s.plCommand 2 [] 0)
    ∧ (∀ fp, execCopy p fp s = .next (s.plCommand 3 fp 0)) ∧ execSolo p s = .next (s.plCommand 4 [] 0)
    ∧ (s.pl.promoting = false → execPromote p s = .next (s.plCommand 5 [] 0))
    ∧ execSwap p s = .next (s.plCommand 6 [] 0) ∧ ∀ lanes, execRetrain p lanes s = .next (s.plCommand 7 [] lanes) := by
  have written : ∀ f : State → State, (.next (s.onCsr p .hub f) : Res) = .next (f s) := fun f =>
    congrArg Host.Outcome.next (State.onCsr_of_writable f may)
  exact ⟨written _, written _, fun fp => written _, written _,
    fun idle => (if_neg (by rw [idle]; exact Bool.false_ne_true)).trans (written _), written _, fun lanes => written _⟩

variable (idle : s.pl.busy = false)
include idle

theorem exec_plCommand_noPair (noPair : s.rst.effStraps.pair = false) (notPromoting : s.pl.promoting = false) :
    execPairActive p s = .next ((s.plTaken 1).plEnd 2) ∧ execPairStandby p s = .next ((s.plTaken 2).plEnd 2)
    ∧ (∀ fp, execCopy p fp s = .next ((s.plTaken 3).plEnd 2)) ∧ execSolo p s = .next ((s.plTaken 4).plEnd 2)
    ∧ execPromote p s = .next ((s.plTaken 5).plEnd 2) ∧ execSwap p s = .next ((s.plTaken 6).plEnd 2)
    ∧ ∀ lanes, execRetrain p lanes s = .next ((s.plTaken 7).plEnd 2) := by
  obtain ⟨active, standby, copy, solo, promote, swap, retrain⟩ := exec_plCommand may
  have fails : ∀ {op : Nat} fp lanes, op ≠ 0 → (.next (s.plCommand op fp lanes) : Res) =
      .next ((s.plTaken (BitVec.ofNat 3 op)).plEnd 2) := fun fp lanes some =>
    congrArg Host.Outcome.next (State.plCommand_noPair fp lanes idle some noPair)
  exact ⟨active.trans (fails _ _ (by decide)), standby.trans (fails _ _ (by decide)),
    fun fp => (copy fp).trans (fails _ _ (by decide)), solo.trans (fails _ _ (by decide)),
    (promote notPromoting).trans (fails _ _ (by decide)), swap.trans (fails _ _ (by decide)),
    fun lanes => (retrain lanes).trans (fails _ _ (by decide))⟩

variable (pair : s.rst.effStraps.pair = true)
include pair

theorem exec_plCommand_pair : execPairActive p s = .next ((s.plTaken 1).plPair 1)
    ∧ execPairStandby p s = .next ((s.plTaken 2).plPair 2) ∧ (∀ fp, execCopy p fp s = .next ((s.plTaken 3).plCopy fp))
    ∧ execSolo p s = .next (s.plTaken 4).plSolo
    ∧ (s.pl.promoting = false → execPromote p s = .next (s.plTaken 5).plPromote)
    ∧ execSwap p s = .next (s.plTaken 6).plSwap ∧ ∀ lanes,
        execRetrain p lanes s = .next ((s.plTaken 7).plRetrain lanes) := by
  obtain ⟨active, standby, copy, solo, promote, swap, retrain⟩ := exec_plCommand may
  have runs := fun {op : Nat} fp lanes some =>
    congrArg (Host.Outcome.next : State → Res) (State.plCommand_runs (op := op) fp lanes idle some pair)
  exact ⟨active.trans (runs _ _ (by decide)), standby.trans (runs _ _ (by decide)),
    fun fp => (copy fp).trans (runs _ _ (by decide)), solo.trans (runs _ _ (by decide)),
    fun still => (promote still).trans (runs _ _ (by decide)), swap.trans (runs _ _ (by decide)),
    fun lanes => (retrain lanes).trans (runs _ _ (by decide))⟩

end command

/-- Settles O38: a lemma for each way in which a command of PL_CMD, the peer's command or its window ends. -/
theorem pairCommands : Obligations.PairCommands := by
  unfold Obligations.PairCommands
  refine ⟨fun s p fp t0 may idle pair solo up soon => ?_, fun s p may idle pair => ?_,
    fun s p may idle noPair still => exec_plCommand_noPair may idle noPair still,
    fun s op t0 => execPairPeerWindowExpiry_waits, fun s fp t0 up waits soon equal => ?_,
    fun s b fp up free => execPeerPairCommandReceived_kept b fp up free⟩
  · obtain ⟨active, standby, _⟩ := exec_plCommand_pair may idle pair
    refine ⟨fun asked => ?_, fun asked => ?_⟩
    · rw [State.plPair_meets (s := s.plTaken 1) (op := 1) solo up asked soon] at active
      obtain ⟨busy, equal, unequal⟩ := State.pairUp_pl ((s.plTaken 1).emit (.quefy "PAIR" 1 [])) 1 fp
      exact ⟨_, active, busy, equal, fun other => ⟨(unequal other).1.trans solo, (unequal other).2⟩⟩
    · rw [State.plPair_meets (s := s.plTaken 2) (op := 2) solo up asked soon] at standby
      obtain ⟨busy, equal, unequal⟩ := State.pairUp_pl ((s.plTaken 2).emit (.quefy "PAIR" 2 [])) 2 fp
      exact ⟨_, standby, busy, equal, fun other => ⟨(unequal other).1.trans solo, (unequal other).2⟩⟩
  · obtain ⟨active, standby, copy, solo, promote, swap, retrain⟩ := exec_plCommand_pair may idle pair
    have becomes : ∀ {t u : State}, t = u → (.next t : Res) = .next u := congrArg Host.Outcome.next
    refine ⟨fun isSolo down => ⟨active.trans (becomes (State.plPair_noLink (s := s.plTaken 1) isSolo 1 down)),
        standby.trans (becomes (State.plPair_noLink (s := s.plTaken 2) isSolo 2 down))⟩,
      fun paired => ⟨active.trans (becomes (State.plPair_paired (s := s.plTaken 1) 1 paired)),
        standby.trans (becomes (State.plPair_paired (s := s.plTaken 2) 2 paired))⟩,
      fun isSolo up unasked => ⟨_, active, ?_⟩,
      fun fp isActive noCopy peer up => (copy fp).trans
        (becomes (State.plCopy_incomplete (s := s.plTaken 3) fp isActive noCopy peer up)),
      fun fp other => (copy fp).trans (becomes (if_pos (PairState.notCopier (p := (s.plTaken 3).pl) other))),
      fun paired => ⟨_, solo.trans (becomes (State.plSolo_paired (s := s.plTaken 4) paired)), ?_⟩,
      fun isSolo => solo.trans (becomes (State.plSolo_solo (s := s.plTaken 4) isSolo)),
      fun isStandby still empty noRollback => ⟨_, (promote still).trans
        (becomes (State.plPromote_standby (s := s.plTaken 5) isStandby)), ?_⟩,
      fun isActive still => (promote still).trans (becomes (State.plPromote_active (s := s.plTaken 5) isActive)),
      fun isActive noCopy peer up => swap.trans
        (becomes (State.plSwap_standby (s := s.plTaken 6) isActive noCopy peer up)),
      fun other => swap.trans (becomes (if_pos (PairState.notCopier (p := (s.plTaken 6).pl) other))),
      fun lanes up paired wide => ⟨_, retrain lanes, ?_⟩,
      fun lanes down => (retrain lanes).trans (becomes (State.plRetrain_down (s := s.plTaken 7) lanes down))⟩
    · rw [State.plPair_waits (s := s.plTaken 1) isSolo up unasked]
      exact ⟨rfl, isSolo, rfl⟩
    · rw [State.plEnd, State.leavePair_pl]
      exact ⟨rfl, rfl, rfl, rfl, rfl, fun isStandby => State.leavePair_broken (s := s.plTaken 4) isStandby⟩
    · rw [State.promoteGo_nil (s := (s.plTaken 5).plBusy) empty noRollback]
      exact ⟨rfl, rfl, rfl, rfl, rfl⟩
    · rw [State.plRetrain_wide (s := s.plTaken 7) up paired wide]
      exact ⟨rfl, rfl, up, rfl⟩
  · obtain ⟨busy, paired, _⟩ := State.pairUp_pl s 1 fp
    obtain ⟨role, _, res, _⟩ := paired equal
    exact ⟨_, execPeerPairCommandReceived_meets fp up waits soon, role, busy, res⟩

end Sys2Proof.Machine
end

section
/-! SUPPORT. Silent errors (R663, R664, R668–R674, R677–R679): health and patrol tests, disagreements and verdicts,
    expulsion,
rollback and INT_VER. -/
namespace Sys2Proof.Machine
open Sys2Proof

/-! ### A unit's health (R668, R669) -/

@[simp] theorem Backup.unit_setUnit (b : Backup) (k : UnitKind) (i : Nat) (h : UnitHealth) :
    (b.setUnit k i h).unit k i = h := by
  cases k <;> exact SMap.get_set_self _ _ _ _

/-- A record joins the last sixteen; no unit's health changes. -/
@[simp] theorem State.fault_unit (s : State) (f : FaultRecord) (k : UnitKind) (i : Nat) :
    (s.fault f).bak.unit k i = s.bak.unit k i := by
  have kept : ∃ l, (s.fault f).bak = { s.bak with last16 := l } := by
    simp only [State.fault, apply_ite State.bak, State.pldmEvent_bak, State.irqEvent_bak, State.msix_bak,
      State.mirrorRecord_bak, ite_self]
    exact (ite_eq_or_eq _ _ _).elim (fun held => ⟨s.bak.last16, held⟩) fun kept => ⟨_, kept⟩
  obtain ⟨l, kept⟩ := kept
  rw [kept]
  cases k <;> rfl

/-- Which units the repair map excludes is the option block's. -/
theorem State.excluded_of_opt {s t : State} (h : s.opt = t.opt) (k : UnitKind) (i : Nat) :
    s.excluded k i = t.excluded k i := by
  cases k <;> simp only [State.excluded, State.optBit, State.octNibble, State.optByte, h]

@[simp] theorem State.fault_excluded (s : State) (f : FaultRecord) (k : UnitKind) (i : Nat) :
    (s.fault f).excluded k i = s.excluded k i :=
  State.excluded_of_opt (congrArg State.opt (butReport_fault s f) :) k i

@[simp] theorem State.setHealth_excluded (s : State) (k : UnitKind) (i : Nat) (new : Health) (code rung : Nat) :
    (s.setHealth k i new code rung).excluded k i = s.excluded k i :=
  (State.fault_excluded _ _ k i).trans (State.excluded_of_opt rfl k i)

@[simp] theorem State.setHealth_unit (s : State) (k : UnitKind) (i : Nat) (new : Health) (code rung : Nat) :
    (s.setHealth k i new code rung).bak.unit k i = { s.bak.unit k i with health := new, since := s.time.now } :=
  (State.fault_unit _ _ k i).trans (Backup.unit_setUnit _ k i _)

/-- A unit that is not excluded reads as its record says. -/
theorem State.health_included {s : State} {k : UnitKind} {i : Nat} (within : s.excluded k i = false) :
    s.health k i = (s.bak.unit k i).health := if_neg (by rw [within]; exact Bool.false_ne_true)

theorem State.setHealth_health {s : State} {k : UnitKind} {i : Nat} (new : Health) (code rung : Nat)
    (within : s.excluded k i = false) : (s.setHealth k i new code rung).health k i = new := by
  rw [State.health_included (by rw [State.setHealth_excluded]; exact within), State.setHealth_unit]

theorem State.serving_included {s : State} {k : UnitKind} {i : Nat} (serves : s.serving k i = true) :
    s.excluded k i = false := by
  refine Bool.eq_false_iff.mpr fun out => ?_
  have retired : s.health k i = .retired := if_pos out
  simp [State.serving, retired] at serves

/-- A charge to a unit IN SERVICE makes it SUSPECT, and takes nothing out of service. -/
theorem State.charge_inService {s : State} {k : UnitKind} {i : Nat} (within : s.excluded k i = false)
    (sound : (s.bak.unit k i).health = .inService) : (s.charge k i).health k i = .suspect := by
  have charged : ∃ b, s.chargeUnit k i = State.setHealth { s with bak := b } k i .suspect 0x0D01 0 := by
    simp only [State.chargeUnit, within, sound, Bool.false_eq_true, if_false]
    exact ⟨_, rfl⟩
  obtain ⟨b, charged⟩ := charged
  have suspect : (s.chargeUnit k i).health k i = .suspect := by
    rw [charged]
    exact State.setHealth_health _ _ _ ((State.excluded_of_opt rfl k i).trans within)
  have serves : (s.chargeUnit k i).serving k i = true := by rw [State.serving, suspect]; decide
  unfold State.charge
  dsimp only
  rw [serves, Bool.not_true, Bool.and_false, if_neg Bool.false_ne_true, suspect]

section unit
variable {s : State} {k : Fin 5} {i : Nat} (inRange : i < (UnitKind.ofCode k.val).count)

theorem execPatrolTest_passes (s : State) (k : Fin 5) (i : Nat) : execPatrolTest k i true s = .next s := rfl

include inRange

theorem execPatrolTest_fails (serves : s.serving (UnitKind.ofCode k.val) i = true) : execPatrolTest k i false s =
    .next ((s.healthFault (UnitKind.ofCode k.val) i 0x0D04 (s.health (UnitKind.ofCode k.val) i)
      (s.health (UnitKind.ofCode k.val) i)).charge (UnitKind.ofCode k.val) i) := by
  simp only [execPatrolTest, Nat.not_le.mpr inRange, serves, decide_false, Bool.not_true, Bool.or_self, Bool.false_eq_true,
    if_false]

variable (within : s.excluded (UnitKind.ofCode k.val) i = false)
  (suspect : (s.bak.unit (UnitKind.ofCode k.val) i).health = .suspect)
include within suspect

theorem execSuspectClear_suspect : execSuspectClear k i s =
    .next (if s.elapsed (s.bak.unit (UnitKind.ofCode k.val) i).since (72 * hourNs)
      then s.setHealth (UnitKind.ofCode k.val) i .inService 0x0D02 else s) := by
  simp only [execSuspectClear, Nat.not_le.mpr inRange, within, decide_false, Bool.or_self, Bool.false_eq_true, if_false,
    State.healthAge, suspect, beq_self_eq_true, Bool.true_and]

end unit

/-- Correctable errors within the limit are only counted (R664). -/
theorem State.countCe_within {s : State} {k : UnitKind} {i : Nat}
    (within : ((s.time.now :: (s.bak.unit k i).ces).filter fun t => decide (s.time.now < t + hourNs)).length
      ≤ s.int.ceLimit.toNat) : s.countCe k i = { s with bak := s.bak.setUnit k i { s.bak.unit k i with
        ces := (s.time.now :: (s.bak.unit k i).ces).filter fun t => decide (s.time.now < t + hourNs) } } :=
  if_neg (Nat.not_lt.mpr within)

/-! ### Disagreements and verdicts (R671–R673) -/

@[simp] theorem State.intFault_int (s : State) (c : Nat) (cmd st : List Byte) (rung : Nat) :
    (s.intFault c cmd st rung).int = s.int := (congrArg State.int (butReport_intFault s c cmd st rung) :)
@[simp] theorem State.intFault_pl (s : State) (c : Nat) (cmd st : List Byte) (rung : Nat) :
    (s.intFault c cmd st rung).pl = s.pl := (congrArg State.pl (butReport_intFault s c cmd st rung) :)
@[simp] theorem State.irqIf_int (s : State) (was : Bool) (b : Nat) : (s.irqIf was b).int = s.int := by
  simp only [State.irqIf, apply_ite State.int, State.irqEvent_int, ite_self]

theorem execCompareResultReceived_active {s : State} (epoch : Nat) (agree : Bool) (bad unver : List Nat)
    (active : s.pl.role = .active) :
    execCompareResultReceived epoch agree bad unver s = .next (s.compared epoch agree bad unver) :=
  if_pos (beq_iff_eq.mpr active)

/-- With VERIFY, the first disagreement is about its models alone, and they are swept. -/
theorem State.disagreement_first {s : State} (epoch m : Nat) (unver : List Nat) (verify : s.int.verify = true)
    (agreed : s.int.dis = []) (idle : s.int.sweep = []) :
    (s.disagreement epoch [m] unver).int.disagree = true ∧ (s.disagreement epoch [m] unver).int.dis = [m]
    ∧ (s.disagreement epoch [m] unver).int.sweep = [m] ∧ (s.disagreement epoch [m] unver).int.ver = s.int.ver := by
  simp only [State.disagreement, State.intFault_int, State.irqIf_int, verify, if_true, agreed, idle, List.foldl_cons,
    List.foldl_nil, setInsert, and_self]

theorem execVerifySweepComplete_none {s : State} (idle : s.int.sweep = []) : execVerifySweepComplete s = .next s :=
  if_pos (by rw [idle]; rfl)

/-- The verdict on one model: its table reads without poison and sums to its digest. -/
def State.sweptSound (s : State) (m : Nat) : Bool := !(s.sweepModel m).2 && (s.sweepModel m).1 == SMap.digSum s.upd.dig m

theorem execVerifySweepComplete_one {s : State} {m : Nat} (sweeps : s.int.sweep = [m]) (noRecs : s.upd.recs = [])
    (noVerdict : s.int.peerVerdict = none) : execVerifySweepComplete s =
      .next (State.emit { s with int := { s.int with sweep := [], verdict := some (s.sweptSound m) } }
        (.quefy "VERDICT" (s.sweptSound m).toNat [])) := by
  have released : ∀ i : IntState, State.releaseHeld { s with int := i } = { s with int := i } := fun _ =>
    State.releaseHeld_of_noRecs noRecs
  simp only [execVerifySweepComplete, sweeps, noRecs, List.isEmpty_cons, List.any_nil, Bool.or_self, Bool.false_eq_true,
    if_false, List.all_cons, List.all_nil, Bool.and_true, released, State.emit, noVerdict, State.sweptSound]

theorem execVerdictExchange_early {s : State} (v : Bool) (disagree : s.int.disagree = true) (none : s.int.verdict = none) :
    execVerdictExchange v s = .next { s with int := { s.int with peerVerdict := some v } } := by
  simp only [execVerdictExchange, disagree, none, Bool.not_true, Bool.false_eq_true, if_false]

theorem execVerdictExchange_settles {s : State} (v : Bool) {mine : Bool} (disagree : s.int.disagree = true)
    (formed : s.int.verdict = some mine) (idle : s.int.sweep = []) :
    execVerdictExchange v s = .next (s.settleVerdicts mine v) := by
  simp only [execVerdictExchange, disagree, formed, idle, List.isEmpty_nil, Bool.not_true, Bool.false_eq_true, if_false,
    if_true]

/-! ### What stopping a partition leaves of the pair and of the integrity unit (R524, R547) -/

theorem State.foldl_rowSettle_shape (l : List RowReq) (s : State) : ∃ lk : Lookup,
    l.foldl (fun st q => st.rowSettle q) s = { s with lk := lk } ∧ lk.lists = s.lk.lists := by
  induction l generalizing s with
  | nil => exact ⟨s.lk, rfl, rfl⟩
  | cons q l ih =>
    obtain ⟨lk, rest, lists⟩ := ih (s.rowSettle q)
    exact ⟨lk, rest, lists⟩

/-- A torn list ends without its RESULT (R341): nothing outside the lookup path changes. -/
theorem State.listTry_torn {s : State} {id : Nat} (torn : ∀ l, s.list? id = some l → l.torn = true) :
    ∃ lk : Lookup, s.listTry id = { s with lk := lk } := by
  unfold State.listTry
  split
  · exact ⟨s.lk, rfl⟩
  · next l found =>
    split
    · exact ⟨_, if_pos (torn l found)⟩
    · exact ⟨s.lk, rfl⟩

/-- After every list of an identifier is marked as torn, the one found is. -/
theorem LList.torn_of_find {lists : List LList} {id : Nat} {l : LList}
    (found : (lists.map fun (x : LList) => if x.id = id then { x with torn := true } else x).find? (·.id == id) = some l) :
    l.torn = true := by
  obtain ⟨x, -, rfl⟩ := List.mem_map.mp (List.mem_of_find?_eq_some found)
  have named := List.find?_some found
  by_cases same : x.id = id
  · rw [if_pos same]
  · rw [if_neg same] at named
    exact (same (beq_iff_eq.mp named)).elim

theorem State.tearLists_shape (s : State) (cl : Nat → Bool) : ∃ lk : Lookup, s.tearLists cl = { s with lk := lk } := by
  refine List.foldlRecOn (motive := fun t : State => ∃ lk : Lookup, t = { s with lk := lk }) _ _ ⟨s.lk, rfl⟩ ?_
  rintro _ ⟨lk, rfl⟩ l -
  obtain ⟨lk1, settled, lists⟩ := State.foldl_rowSettle_shape
    ((State.updList { s with lk := lk } l.id fun x => { x with torn := true }).lk.rows.filter fun q =>
      q.list == l.id && q.stage == .dispatcher && !q.settled)
    (State.updList { s with lk := lk } l.id fun x => { x with torn := true })
  dsimp only
  rw [settled]
  obtain ⟨lk2, tried⟩ := State.listTry_torn (s := { s with lk := lk1 }) (id := l.id) fun x found => by
    rw [State.list?, lists] at found
    exact LList.torn_of_find found
  exact ⟨lk2, tried⟩

/-- What the integrity unit and the pair-link controller hold. -/
def State.guards (s : State) : PairState × IntState := (s.pl, s.int)

theorem State.astDone_guards (s : State) (p i : Nat) (n : Nstat) : (s.astDone p i n).guards = s.guards := by
  unfold State.astDone
  dsimp only
  split <;> rfl

/-- A DONE entry leaves its partition's state and any teardown as they are. -/
theorem State.astDone_part (s : State) (p i : Nat) (n : Nstat) :
    ((s.astDone p i n).part p).st = (s.part p).st ∧ ((s.astDone p i n).part p).teardown = (s.part p).teardown := by
  unfold State.astDone
  dsimp only
  split
  · exact ⟨rfl, rfl⟩
  · rw [State.part_updPart]
    exact ⟨rfl, rfl⟩

theorem State.unsave_guards (s : State) (m : Nat) : (s.unsave m).guards = s.guards := by
  unfold State.unsave
  split <;> rfl

theorem State.recovery_guards (s : State) (rung p cls inst : Nat) : (s.recovery rung p cls inst).guards = s.guards :=
  (congrArg State.guards (butReport_fault s _) :)

theorem State.tearLists_guards (s : State) (cl : Nat → Bool) : (s.tearLists cl).guards = s.guards := by
  obtain ⟨lk, torn⟩ := s.tearLists_shape cl
  rw [torn]
  rfl

theorem State.updPart_guards (s : State) (p : Nat) (f : Part → Part) : (s.updPart p f).guards = s.guards := rfl
theorem State.mapCores_guards (s : State) (cl : Nat → Bool) (f : TCore → TCore) : (s.mapCores cl f).guards = s.guards := rfl
theorem State.dropSignals_guards (s : State) (cl : Nat → Bool) : (s.dropSignals cl).guards = s.guards := rfl

/-- A teardown of a partition that stops and is not torn down yet begins without a reset. -/
theorem State.teardown_guards {s : State} {p : Nat} (cls inst : Nat) (stopping : (s.part p).st = .stopping)
    (whole : (s.part p).teardown = false) : (s.teardown p cls inst).guards = s.guards := by
  have holds : ¬(!(s.part p).st.holds) = true := by rw [stopping]; decide
  have fresh : ¬((s.part p).st == PartState.resetting || (s.part p).teardown) = true := by rw [stopping, whole]; decide
  unfold State.teardown
  dsimp only
  rw [if_neg holds, if_neg fresh]
  rw [State.tearLists_guards, State.dropSignals_guards, State.mapCores_guards, State.updPart_guards, State.recovery_guards]
  split
  · exact s.unsave_guards _
  · rfl

theorem State.stopNow_guards {s : State} {p : Nat} (c : StopCmd) (whole : (s.part p).teardown = false) :
    (s.stopNow p c).guards = s.guards := by
  unfold State.stopNow
  dsimp only
  split
  case isFalse => rfl
  case isTrue =>
    generalize started : (s.updPart p fun x => { x with st := .stopping, stop := some c, stopWait := none }) = s1
    have kept : ∀ l : List Nat, let t := l.foldl (fun st i =>
        if (st.astE ((st.part p).entry i)).st.waiting then st.astDone p i .abort else st) s1
        t.guards = s.guards ∧ (t.part p).st = .stopping ∧ (t.part p).teardown = false := fun l => by
      refine List.foldlRecOn (motive := fun t : State =>
        t.guards = s.guards ∧ (t.part p).st = .stopping ∧ (t.part p).teardown = false) l _ ?_ ?_
      · rw [← started, State.part_updPart]
        exact ⟨rfl, rfl, whole⟩
      · rintro t ⟨guards, stopping, down⟩ i -
        split
        · obtain ⟨st, teardown⟩ := t.astDone_part p i .abort
          exact ⟨(t.astDone_guards p i .abort).trans guards, st.trans stopping, teardown.trans down⟩
        · exact ⟨guards, stopping, down⟩
    obtain ⟨guards, stopping, down⟩ := kept (s1.used p)
    split
    · exact (State.teardown_guards _ _ stopping down).trans guards
    · exact guards

theorem State.abortPart_guards (s : State) (p : Nat) : (s.abortPart p).guards = s.guards := by
  unfold State.abortPart
  dsimp only
  split
  · rfl
  · split
    · rfl
    · next free =>
      have whole : (s.part p).teardown = false := by
        cases down : (s.part p).teardown
        · rfl
        · exact (free (by rw [down, Bool.or_true])).elim
      exact State.stopNow_guards _ whole

/-! ### Expulsion and rollback (R677–R679) -/

/-- Expulsion marks the part, takes its pair line low, and leaves the rest of the integrity unit as it is. -/
theorem State.expel_guards (s : State) (bad : Nat) : (s.expel bad).pl = { s.pl with pdnOut := false }
    ∧ (s.expel bad).int = { s.int with tainted := true, expelled := true } := by
  have aborted : ((List.range 16).foldl (fun st p => st.abortPart p)
      (State.closeAdmission { s with pl := { s.pl with pdnOut := false } })).guards =
        ({ s.pl with pdnOut := false }, s.int) := State.foldl_kept State.guards (fun t p => t.abortPart_guards p) _ _
  obtain ⟨pl, int⟩ := Prod.mk.inj aborted
  unfold State.expel State.taint
  dsimp only
  rw [State.irqEvent_pl, State.irqEvent_int]
  dsimp only
  rw [State.intFault_pl, State.intFault_int, pl, int]
  exact ⟨rfl, rfl⟩

section intCmd
variable {s : State} (idle : s.int.busy = false)
include idle

theorem State.writeIntCmd_expel : s.writeIntCmd 5 =
    if s.int.expelled then { s with int := { s.int with op := 1, res := 1 } }
    else State.expel { s with int := { s.int with op := 1, res := 0 } } 0 :=
  if_neg (by rw [idle]; decide)

theorem State.writeIntCmd_rollback :
    s.writeIntCmd 6 = State.rollbackStart { s with int := { s.int with op := 2 } } s.int.rb.toNat :=
  if_neg (by rw [idle]; decide)

end intCmd

theorem execRollback_begins {s : State} {p : AccessPath} (may : s.csrWritable p .hub = true) (idle : s.int.busy = false)
    (none : s.int.rbClosing = none) : execRollback p s =
      .next (State.rollbackStart { s with int := { s.int with op := 2 } } s.int.rb.toNat) :=
  (if_neg (by rw [none]; exact Bool.false_ne_true)).trans
    (congrArg Host.Outcome.next ((State.onCsr_of_writable _ may).trans (State.writeIntCmd_rollback idle)))

theorem State.rollbackStart_paired {s : State} (v : Nat) (paired : s.pl.role ≠ .solo) :
    s.rollbackStart v = { s with int := { s.int with res := 1 } } :=
  if_pos (Bool.or_eq_true_iff.mpr (.inl (bne_iff_ne.mpr paired)))

section solo
variable {s : State} {v : Nat} (solo : s.pl.role = .solo) (whole : s.int.expelled = false)
include solo whole

theorem State.rollbackStart_below (below : v < s.int.ver) :
    s.rollbackStart v = { s with int := { s.int with res := 2 } } := by
  simp only [State.rollbackStart, solo, whole, bne_self_eq_false, Bool.or_self, Bool.false_eq_true, if_false, below,
      true_or,
    if_true]

theorem State.rollbackStart_goes (fromVer : s.int.ver ≤ v) (accepted : v ≤ s.upd.accepting) (kept : s.upd.journalFrom ≤ v) :
    s.rollbackStart v = (State.closeEpoch { s with int := { s.int with
      busy := true, res := 0, rbClosing := some s.upd.accepting, rbTo := v, rbTotal := 0, rbSrc :=
          [] } } none).rollbackGo := by
  have inRange : ¬(v < s.int.ver ∨ s.upd.accepting < v ∨ v < s.upd.journalFrom) := by omega
  simp only [State.rollbackStart, solo, whole, bne_self_eq_false, Bool.or_self, Bool.false_eq_true, if_false, inRange]

end solo

/-- A write of INT_VER takes where the part is SOLO, the epoch not below the old one, and in the ring (R674). -/
theorem State.writeVer_eq (s : State) (lo hi : W32) : (s.writeVerLo lo).writeVerHi hi =
    if s.pl.role = .solo ∧ s.int.ver ≤ hi.toNat * 2 ^ 32 + lo.toNat
        ∧ ∃ kv ∈ s.upd.ring, kv.2.epoch = hi.toNat * 2 ^ 32 + lo.toNat
    then { s with int := { s.int with
      verLo := lo, ver := hi.toNat * 2 ^ 32 + lo.toNat, disagree := false, dis := [], unver := [] } }
    else { s with int := { s.int with verLo := lo, err := true } } := by
  have test : (s.pl.role == .solo && s.upd.ring.any (fun (kv : Nat × Snapshot) => kv.2.epoch == hi.toNat * 2 ^ 32 + lo.toNat)
        && decide (s.int.ver ≤ hi.toNat * 2 ^ 32 + lo.toNat)) = true
      ↔ s.pl.role = .solo ∧ s.int.ver ≤ hi.toNat * 2 ^ 32 + lo.toNat
        ∧ ∃ kv ∈ s.upd.ring, kv.2.epoch = hi.toNat * 2 ^ 32 + lo.toNat := by
    simp only [Bool.and_eq_true, beq_iff_eq, List.any_eq_true, decide_eq_true_eq]
    tauto
  exact ite_congr (propext test) (fun _ => rfl) fun _ => rfl

/-- Settles O39: a lemma for each way in which an event or a command ends; what expulsion leaves by what stopping the
partitions leaves alone. -/
theorem silentErrors : Obligations.SilentErrors := by
  unfold Obligations.SilentErrors
  refine ⟨fun s k i inRange serves => ⟨execPatrolTest_passes s k i, fun sound => ⟨_,
      execPatrolTest_fails inRange serves, ?_⟩⟩,
    fun s k i inRange within suspect => ⟨fun late => ⟨_, execSuspectClear_suspect inRange within suspect, ?_⟩,
      fun early => (execSuspectClear_suspect inRange within suspect).trans ?_⟩,
    fun s => rfl, fun s k => rfl, fun s k within => congrArg Host.Outcome.next (State.countCe_within within),
    fun s epoch bad unver active => ⟨execCompareResultReceived_active epoch true bad unver active,
      fun verify agreed idle m => ⟨_, execCompareResultReceived_active epoch false [m] unver active,
        State.disagreement_first epoch m unver verify agreed idle⟩⟩,
    fun s => execVerifySweepComplete_none,
    fun s m sweeps noRecs noVerdict => ⟨_, execVerifySweepComplete_one sweeps noRecs noVerdict, rfl, rfl⟩,
    fun s v disagree => ⟨execVerdictExchange_early v disagree, fun mine => execVerdictExchange_settles v disagree⟩,
    fun s p may idle => ?_, fun s p v may => congrArg Host.Outcome.next
      ((State.onCsr_of_writable _ may).trans (s.writeVer_eq (field v 0 32) (field v 32 32)))⟩
  · exact State.charge_inService ((State.fault_excluded _ _ _ _).trans (State.serving_included serves))
      ((congrArg UnitHealth.health (State.fault_unit _ _ _ _)).trans sound)
  · rw [if_pos late]
    exact State.setHealth_health _ _ _ within
  · rw [if_neg (by rw [early]; exact Bool.false_ne_true)]
  · have expel : execExpel p s = .next (s.writeIntCmd 5) := congrArg Host.Outcome.next (State.onCsr_of_writable _ may)
    rw [State.writeIntCmd_expel idle] at expel
    refine ⟨fun out => ?_, fun whole => ?_, fun paired none => (execRollback_begins may idle none).trans
        (congrArg Host.Outcome.next (State.rollbackStart_paired _ paired)),
      fun solo whole none below => (execRollback_begins may idle none).trans
        (congrArg Host.Outcome.next (State.rollbackStart_below solo whole below)),
      fun solo whole none fromVer accepted kept => (execRollback_begins may idle none).trans
        (congrArg Host.Outcome.next (State.rollbackStart_goes solo whole fromVer accepted kept))⟩
    · rw [if_pos out] at expel
      exact expel
    · rw [if_neg (by rw [whole]; exact Bool.false_ne_true)] at expel
      obtain ⟨pl, int⟩ := State.expel_guards { s with int := { s.int with op := 1, res := 0 } } 0
      refine ⟨_, expel, ?_⟩
      rw [pl, int]
      exact ⟨rfl, rfl, rfl, rfl⟩

end Sys2Proof.Machine
end

section
/-! SUPPORT. Reset sources (R692–R696, R710–R713, R826): what a start-up keeps of the state that it begins in. -/
namespace Sys2Proof.Machine
open Sys2Proof

/-! ### What a start-up's first two steps leave alone (R702) -/

/-- What no step of the option loader or the straps changes: device time, pins and rails, the pair-link controller, and the
reset counters. -/
structure BootView where
  time : TimeBase
  straps : Straps
  rails : Rails
  pl : PairState
  cnt : SMap W32
  src : BitVec 4

def State.bootView (s : State) : BootView := ⟨s.time, s.straps, s.rails, s.pl, s.bak.cnt, s.bak.src⟩

@[simp] theorem State.fault_bak_src (s : State) (f : FaultRecord) : (s.fault f).bak.src = s.bak.src := by
  simp only [State.fault, apply_ite State.bak, apply_ite Backup.src, State.pldmEvent_bak, State.irqEvent_bak,
      State.msix_bak,
    State.mirrorRecord_bak, ite_self]

@[simp] theorem State.fault_rst (s : State) (f : FaultRecord) : (s.fault f).rst = s.rst :=
  (congrArg State.rst (butReport_fault s f) :)
theorem State.secFault_rst (s : State) (c : Nat) : (s.secFault c).rst = s.rst := State.fault_rst s _
@[simp] theorem State.fault_time (s : State) (f : FaultRecord) : (s.fault f).time = s.time :=
  (congrArg State.time (butReport_fault s f) :)

@[simp] theorem State.fault_bootView (s : State) (f : FaultRecord) : (s.fault f).bootView = s.bootView := by
  have same := butReport_fault s f
  have straps : (s.fault f).straps = s.straps := (congrArg State.straps same :)
  have rails : (s.fault f).rails = s.rails := (congrArg State.rails same :)
  have pl : (s.fault f).pl = s.pl := (congrArg State.pl same :)
  simp only [State.bootView, State.fault_time, straps, rails, pl, State.fault_cnt, State.fault_bak_src]

@[simp] theorem State.timeFault_bootView (s : State) (d c r : Nat) : (s.timeFault d c r).bootView = s.bootView :=
  s.fault_bootView _
theorem State.applyStraps_bootView (s : State) : s.applyStraps.bootView = s.bootView := by
  simp only [State.applyStraps, apply_ite State.bootView, State.timeFault_bootView, ite_self]
  rfl

theorem State.applyStraps_rst (s : State) : ∃ eff ovr,
    s.applyStraps.rst = { s.rst with rawStraps := s.straps, effStraps := eff, ovr := ovr } := by
  simp only [State.applyStraps, apply_ite State.rst, State.timeFault_rst, ite_self]
  exact ⟨_, _, rfl⟩

/-- The backup contents are checked (R711). -/
def State.backupChecked (s : State) : State :=
  if s.bak.vbak then s else State.timeFault { s with bak := { s.bak with vbak := true, bakLost := true } } 4 0x0F08

/-- The option block that the loader applies, with its records (R700). -/
def State.optLoaded (s : State) : State :=
  if s.nvm.load.none then State.timeFault { s with opt := s.nvm.load } 4 0x0F02
  else if !s.nvm.load.aOk || !s.nvm.load.bOk then State.timeFault { s with opt := s.nvm.load } 4 0x0F01
  else { s with opt := s.nvm.load }

/-- Step 1 of a start-up begins, its timer armed (R702, R710). -/
def State.optionsBegun (s : State) : State :=
  { s with rst := { s.rst with start := .options, timerAt := some s.time.now, timerUsed := 0 } }

theorem State.bootStart_eq (s : State) : s.bootStart = State.updRst
    s.optionsBegun.backupChecked.optLoaded.applyStraps.applyBifur.clearMapped.layOut fun r => { r with start :=
        .clocks } := by
  unfold State.bootStart
  dsimp only
  rfl

theorem State.backupChecked_rst (s : State) : s.backupChecked.rst = s.rst := by
  simp only [State.backupChecked, apply_ite State.rst, State.timeFault_rst, ite_self]
theorem State.backupChecked_bootView (s : State) : s.backupChecked.bootView = s.bootView := by
  unfold State.backupChecked
  split
  · rfl
  · exact State.timeFault_bootView _ _ _ _
theorem State.optLoaded_rst (s : State) : s.optLoaded.rst = s.rst := by
  simp only [State.optLoaded, apply_ite State.rst, State.timeFault_rst, ite_self]
theorem State.optLoaded_bootView (s : State) : s.optLoaded.bootView = s.bootView := by
  unfold State.optLoaded
  split
  · exact State.timeFault_bootView _ _ _ _
  · split
    · exact State.timeFault_bootView _ _ _ _
    · rfl

theorem State.applyBifur_bootView (s : State) : s.applyBifur.bootView = s.bootView := rfl
theorem State.clearMapped_bootView (s : State) : s.clearMapped.bootView = s.bootView := rfl
theorem State.layOut_bootView (s : State) : s.layOut.bootView = s.bootView := rfl
theorem State.updRst_bootView (s : State) (f : ResetState → ResetState) : (s.updRst f).bootView = s.bootView := rfl
theorem State.optionsBegun_bootView (s : State) : s.optionsBegun.bootView = s.bootView := rfl

@[simp] theorem State.bootStart_bootView (s : State) : s.bootStart.bootView = s.bootView := by
  rw [State.bootStart_eq, State.updRst_bootView, State.layOut_bootView, State.clearMapped_bootView,
    State.applyBifur_bootView, State.applyStraps_bootView, State.optLoaded_bootView, State.backupChecked_bootView,
    State.optionsBegun_bootView]

/-- The pins are sampled, the clocks come next; nothing else of the reset controller changes. -/
theorem State.bootStart_rst (s : State) : ∃ eff ovr, s.bootStart.rst = { s.rst with
    start := .clocks, timerAt := some s.time.now, timerUsed := 0, rawStraps := s.straps, effStraps := eff, ovr :=
        ovr } := by
  obtain ⟨eff, ovr, sampled⟩ := s.optionsBegun.backupChecked.optLoaded.applyStraps_rst
  have view : s.optionsBegun.backupChecked.optLoaded.bootView = s.bootView :=
    (State.optLoaded_bootView _).trans (State.backupChecked_bootView _)
  have straps : s.optionsBegun.backupChecked.optLoaded.straps = s.straps := congrArg BootView.straps view
  rw [straps, State.optLoaded_rst, State.backupChecked_rst] at sampled
  refine ⟨eff, ovr, ?_⟩
  show { s.optionsBegun.backupChecked.optLoaded.applyStraps.rst with start := Start.clocks } = _
  rw [sampled]
  rfl

/-! ### Counting a source (R694, R695) -/

theorem State.countFresh_own (s : State) {code : Nat} (other : code ≠ 0) :
    (s.countFresh code).bak.cnt.get 0 code = satInc (s.bak.cnt.get 0 code) :=
  (SMap.get_upd_ne _ _ _ other).trans (SMap.get_upd_self _ _ _ _)

theorem State.countFresh_total (s : State) {code : Nat} (other : code ≠ 0) :
    (s.countFresh code).bak.cnt.get 0 0 = satInc (s.bak.cnt.get 0 0) :=
  (SMap.get_upd_self _ _ _ _).trans (congrArg satInc (SMap.get_upd_ne _ _ _ other.symm))

/-- A source starts a reset of its own, or joins one (R694). -/
theorem State.countSource_cases (s : State) (code : Nat) : s.countSource code = { s with bak := { s.bak with
      cnt := s.bak.cnt.upd 0 code satInc, multi := true
      src := if srcRank code < srcRank s.bak.src.toNat then BitVec.ofNat 4 code else s.bak.src } }
    ∨ s.countSource code = s.countFresh code := ite_eq_or_eq _ _ _

theorem State.countSource_own (s : State) {code : Nat} (other : code ≠ 0) :
    (s.countSource code).bak.cnt.get 0 code = satInc (s.bak.cnt.get 0 code) := by
  rcases s.countSource_cases code with joined | fresh
  · rw [joined]
    exact SMap.get_upd_self _ _ _ _
  · rw [fresh]
    exact s.countFresh_own other

/-- A source with none held and none within 1 µs before it begins a start-up of its own (R694). -/
theorem State.countSource_fresh {s : State} (code : Nat) (free : s.rst.held = false)
    (apart : ∀ t0, s.rst.lastSrcAt = some t0 → t0 + 1000 ≤ s.time.now) : s.countSource code = s.countFresh code := by
  cases last : s.rst.lastSrcAt with
  | none => simp only [State.countSource, free, last, Bool.or_self, Bool.false_eq_true, if_false]
  | some t0 =>
    have far : decide (s.time.now < t0 + 1000) = false := decide_eq_false (Nat.not_lt.mpr (apart t0 last))
    simp only [State.countSource, free, last, far, Bool.or_self, Bool.false_eq_true, if_false]

/-- Counting changes the backup domain, and the reset controller only in when the last source came. -/
theorem State.countSource_shape (s : State) (code : Nat) : ∃ b at', s.countSource code =
    { s with bak := b, rst := { s.rst with lastSrcAt := at' } } := by
  rcases s.countSource_cases code with joined | fresh
  · exact ⟨_, s.rst.lastSrcAt, joined⟩
  · exact ⟨_, _, fresh⟩

/-! ### Device resets (R692, R693) -/

/-- A device reset from its source to where it may be held: counted, recorded, and everything volatile cleared. -/
def State.resetBegun (s : State) (code : Nat) (hold : ResetState → ResetState := id) : State :=
  (((s.countSource code).fault { mkFault 8 4 0x0C04 with rung := 4 }).deviceKept (code == 4)).updRst fun r =>
    hold { r with code8 := if code = 2 ∨ code = 3 then 0 else r.code8 }

section deviceReset
variable {s : State} {code : Nat} {hold : ResetState → ResetState} (may : s.haltBars code = false) (free : s.rst.held = false)
include may free

theorem State.deviceReset_free : s.deviceReset code 8 4 hold =
    if (s.resetBegun code hold).rst.held then s.resetBegun code hold else (s.resetBegun code hold).bootStart := by
  simp only [State.deviceReset, may, free, Bool.false_eq_true, if_false]
  rfl

theorem State.deviceReset_held (held : (s.resetBegun code hold).rst.held = true) :
    s.deviceReset code 8 4 hold = s.resetBegun code hold := (State.deviceReset_free may free).trans (if_pos held)

theorem State.deviceReset_boots (goes : (s.resetBegun code hold).rst.held = false) :
    s.deviceReset code 8 4 hold = (s.resetBegun code hold).bootStart :=
  (State.deviceReset_free may free).trans (if_neg (Bool.eq_false_iff.mp goes))

end deviceReset

/-- What the reset controller keeps at a device reset (R692, R710). -/
theorem State.resetBegun_rst (s : State) (code : Nat) (hold : ResetState → ResetState) : ∃ at',
    (s.resetBegun code hold).rst = hold { State.reset.rst with
      heldPerst := s.rst.heldPerst, heldThermal := s.rst.heldThermal, heldUv := s.rst.heldUv, tmoS := s.rst.tmoS
      lastSrcAt := at', code8 := if code = 2 ∨ code = 3 then 0 else s.rst.code8 } := by
  obtain ⟨b, at', counted⟩ := s.countSource_shape code
  have kept : ((s.countSource code).fault { mkFault 8 4 0x0C04 with rung := 4 }).rst = { s.rst with lastSrcAt := at' } := by
    rw [State.fault_rst, counted]
  unfold State.resetBegun State.deviceKept State.coldKept
  simp only [State.updRst, kept]
  exact ⟨at', rfl⟩

/-- Device time, and every counter but the source's, pass through. -/
theorem State.resetBegun_now (s : State) (code : Nat) (hold : ResetState → ResetState) :
    (s.resetBegun code hold).time.now = s.time.now := by
  obtain ⟨b, at', counted⟩ := s.countSource_shape code
  show ((s.countSource code).fault _).time.now = _
  rw [State.fault_time, counted]

theorem State.resetBegun_cnt (s : State) (code : Nat) (hold : ResetState → ResetState) :
    (s.resetBegun code hold).bak.cnt = (s.countSource code).bak.cnt := State.fault_cnt _ _
theorem State.resetBegun_src (s : State) (code : Nat) (hold : ResetState → ResetState) :
    (s.resetBegun code hold).bak.src = (s.countSource code).bak.src := State.fault_bak_src _ _

/-! ### POR and the return of the main rails (R692, R696, R740) -/

/-- A POR from its source to where PERST_N may hold it. -/
def State.porBegun (s : State) : State :=
  (s.countFresh 1).coldKept.updRst fun r => { r with heldThermal := false, heldUv := false, lastSrcAt := some 0 }

theorem State.coldReset_eq (s : State) :
    s.coldReset = if s.porBegun.rst.held then s.porBegun else s.porBegun.bootStart := rfl

theorem State.porBegun_held (s : State) : s.porBegun.rst.held = s.rst.heldPerst := by
  show (s.rst.heldPerst || false || false) = _
  rw [Bool.or_false, Bool.or_false]

@[simp] theorem State.coldReset_bootView (s : State) : s.coldReset.bootView = s.porBegun.bootView := by
  rw [State.coldReset_eq]
  split
  · rfl
  · exact State.bootStart_bootView _

theorem execPor_starts {s : State} (boot : BitVec 3) (clk : BitVec 2) (pair test : Bool) (aux : s.rails.aux = true)
    (main : s.rails.mainEn = true) (on : s.rails.powerOff = false) (sound : s.rst.heldUv = false) :
    execPor boot clk pair test s = .next (State.coldReset { s with
      straps := { boot := boot, clk := clk, pair := pair, test := test }, rails := { s.rails with main := true } }) := by
  simp only [execPor, aux, main, on, sound, Bool.not_false, Bool.and_self, Bool.false_eq_true, if_true, if_false]

/-! ### The other sources (R692, R710, R712, R713, R823) -/

theorem execPerstNAssert_resets {s : State} (powered : s.hubPowered = true) (free : s.rst.heldPerst = false) :
    execPerstNAssert s = .next (s.deviceReset 2 (hold := fun r => { r with heldPerst := true })) := by
  simp only [execPerstNAssert, powered, free, Bool.not_true, Bool.false_eq_true, if_false]

theorem execStartupTimeout_elapses {s : State} {t0 : Nat} (armed : s.rst.timerAt = some t0) (runs : s.rst.start.running = true)
    (free : s.rst.held = false) (late : s.elapsed t0 (s.rst.tmoS.toNat * 1000000000 - s.rst.timerUsed) = true) :
    execStartupTimeout s = if 3 ≤ s.rst.code8
      then .next (((s.timeFault 4 0x0F06).updRst (·.stopAt .halted)).timeFault 4 0x0F07)
      else .next (State.deviceReset ((s.timeFault 4 0x0F06).updRst fun r => { r with code8 := r.code8 + 1 }) 8) := by
  simp only [execStartupTimeout, armed, runs, free, late, Bool.not_false, Bool.and_self, if_true]

theorem execThermalTrip_trips {s : State} (powered : s.hubPowered = true) (free : s.rst.heldThermal = false) :
    execThermalTrip s = .next (let t := (s.secFault 0x0F29).deviceReset 5 (hold := fun r => { r with heldThermal := true })
      { t with rails := { t.rails with hbm := false, pser := false, vddMv := 550, aqPerstN := 0 } }) :=
  if_pos (by rw [powered, free]; rfl)

/-! ### What each source leaves -/

/-- A POR leaves device time at 0, code 1 and TOTAL counted, and the pins and rails as given; PERST_N low holds it before its
first step (R692, R696, R826). -/
theorem State.coldReset_leaves (s : State) : s.coldReset.time.now = 0 ∧ s.coldReset.bak.src = 1
    ∧ s.coldReset.bak.cnt.get 0 1 = satInc (s.bak.cnt.get 0 1) ∧ s.coldReset.straps = s.straps
    ∧ s.coldReset.rails.main = s.rails.main
    ∧ (s.rst.heldPerst = false → s.coldReset.rst.start = .clocks ∧ s.coldReset.rst.rawStraps = s.straps)
    ∧ (s.rst.heldPerst = true → s.coldReset.rst.start = .options) := by
  have view := s.coldReset_bootView
  refine ⟨congrArg (·.time.now) view, congrArg BootView.src view, ?_, congrArg BootView.straps view,
    congrArg (·.rails.main) view, fun free => ?_, fun held => ?_⟩
  · exact (congrArg (SMap.get 0 ·.cnt 1) view).trans (s.countFresh_own (by decide))
  · rw [State.coldReset_eq, if_neg (by rw [State.porBegun_held, free]; exact Bool.false_ne_true)]
    obtain ⟨eff, ovr, rst⟩ := s.porBegun.bootStart_rst
    rw [rst]
    exact ⟨rfl, rfl⟩
  · rw [State.coldReset_eq, if_pos ((State.porBegun_held s).trans held)]
    rfl

/-- PERST_N low in a running part, apart from other sources, holds a device reset of code 2 (R692, R693, R713). -/
theorem State.deviceReset_perst {s : State} (free : s.rst.held = false)
    (apart : ∀ t0, s.rst.lastSrcAt = some t0 → t0 + 1000 ≤ s.time.now) :
    ∃ t, s.deviceReset 2 (hold := fun r => { r with heldPerst :=
        true }) = t ∧ t.rst.heldPerst = true ∧ t.rst.start = .options
      ∧ t.time.now = s.time.now ∧ t.bak.src = 2 ∧ t.bak.cnt.get 0 2 = satInc (s.bak.cnt.get 0 2)
      ∧ t.bak.cnt.get 0 0 = satInc (s.bak.cnt.get 0 0) ∧ t.queues = State.reset.queues ∧ t.sc = State.reset.sc := by
  obtain ⟨at', rst⟩ := s.resetBegun_rst 2 fun r => { r with heldPerst := true }
  have held : (s.resetBegun 2 fun r => { r with heldPerst := true }).rst.held = true := by rw [rst]; rfl
  refine ⟨_, State.deviceReset_held (Bool.and_false _) free held, by rw [rst], by rw [rst]; rfl, State.resetBegun_now s 2 _,
    ?_, ?_, ?_, rfl, rfl⟩
  · rw [State.resetBegun_src, State.countSource_fresh 2 free apart]
    rfl
  · rw [State.resetBegun_cnt, State.countSource_own s (by decide)]
  · rw [State.resetBegun_cnt, State.countSource_fresh 2 free apart, State.countFresh_total s (by decide)]

/-- The reset of a start-up that took too long begins the next one (R692 code 8, R710). -/
theorem State.deviceReset_timeout {s : State} (runs : s.rst.start.running = true) (free : s.rst.held = false) :
    (s.deviceReset 8).rst.start = .clocks ∧ (s.deviceReset 8).rst.code8 = s.rst.code8 := by
  have going : s.rst.start ≠ .halted := fun halted => by rw [halted] at runs; cases runs
  have may : s.haltBars 8 = false := Bool.and_eq_false_iff.mpr (.inl (beq_eq_false_iff_ne.mpr going))
  obtain ⟨at', begun⟩ := s.resetBegun_rst 8 id
  have goes : (s.resetBegun 8).rst.held = false := by rw [begun]; exact free
  rw [State.deviceReset_boots may free goes]
  obtain ⟨eff, ovr, rst⟩ := (s.resetBegun 8).bootStart_rst
  rw [rst, begun]
  exact ⟨rfl, rfl⟩

/-- A thermal trip holds a device reset of code 5, in any state of the start-up (R692, R712). -/
theorem State.deviceReset_thermal {s : State} (free : s.rst.held = false) :
    ∃ t, s.deviceReset 5 (hold := fun r => { r with heldThermal := true }) = t ∧ t.rst.heldThermal = true
      ∧ t.pl.pdnOut = false ∧ t.bak.cnt.get 0 5 = satInc (s.bak.cnt.get 0 5) := by
  obtain ⟨at', rst⟩ := s.resetBegun_rst 5 fun r => { r with heldThermal := true }
  have held : (s.resetBegun 5 fun r => { r with heldThermal := true }).rst.held = true := by
    rw [rst]
    exact congrArg (· || s.rst.heldUv) (Bool.or_true _)
  refine ⟨_, State.deviceReset_held (Bool.and_false _) free held, by rw [rst], rfl, ?_⟩
  rw [State.resetBegun_cnt, State.countSource_own s (by decide)]

/-- The part re-armed after a trip, as its start-up begins (R712, R823). -/
def State.rearmed (s : State) : State :=
  { s with rails := { s.rails with vddMv := 750 } }.updRst fun r => { r with heldThermal := false }

theorem State.rearmed_held {s : State} (pin : s.rst.heldPerst = false) (sound : s.rst.heldUv = false) :
    s.rearmed.rst.held = false := by
  show (s.rst.heldPerst || false || s.rst.heldUv) = false
  rw [pin, sound]
  rfl

/-- Settles O40: what a POR, a held reset and a reset that starts anew each leave, by what the first two steps of a start-up
leave alone. -/
theorem resetSources : Obligations.ResetSources := by
  unfold Obligations.ResetSources
  refine ⟨fun s boot clk pair test aux main on sound => ?_, fun s cold main on => ?_, fun s powered free ready apart => ?_,
    fun s held warm sound => ?_, fun s powered => ?_, fun s runs steward => ?_, fun s stopped => ?_,
    fun s t0 armed runs free late => ?_, fun s powered free => ?_, fun s powered hot pin sound => ?_⟩
  · obtain ⟨now, src, cnt, straps, -, goes, held⟩ := State.coldReset_leaves { s with
      straps := { boot := boot, clk := clk, pair := pair, test := test }, rails := { s.rails with main := true } }
    refine ⟨_, execPor_starts boot clk pair test aux main on sound, now, src, cnt, straps, fun free => ?_, held⟩
    rw [straps]
    exact goes free
  · obtain ⟨now, src, -, -, rail, -, -⟩ := State.coldReset_leaves { s with rails := { s.rails with main := true } }
    exact ⟨_, if_pos (by rw [cold, main, on]; rfl), now, rail, src⟩
  · obtain ⟨t, reset, leaves⟩ := State.deviceReset_perst free apart
    have pin : s.rst.heldPerst = false := (Bool.or_eq_false_iff.mp (Bool.or_eq_false_iff.mp free).1).1
    exact ⟨t, (execPerstNAssert_resets powered pin).trans (congrArg Host.Outcome.next reset), leaves⟩
  · have released : (s.updRst fun r => { r with heldPerst := false }).rst.held = false := by
      show (false || s.rst.heldThermal || s.rst.heldUv) = false
      rw [warm, sound]
      rfl
    refine ⟨fun powered => ?_, fun dark => ?_⟩
    · refine (if_pos held).trans (congrArg Host.Outcome.next (if_pos ?_))
      rw [released]
      exact Bool.and_eq_true_iff.mpr ⟨powered, rfl⟩
    · refine (if_pos held).trans (congrArg Host.Outcome.next (if_neg ?_))
      exact fun both => Bool.eq_false_iff.mp dark (Bool.and_eq_true_iff.mp both).1
  · cases test : s.rst.effStraps.test
    · exact if_neg (by rw [test, Bool.and_false]; exact Bool.false_ne_true)
    · exact if_pos (by rw [powered, test]; rfl)
  · exact if_pos (by rw [runs, steward]; rfl)
  · exact if_neg fun both => stopped (beq_iff_eq.mp (Bool.and_eq_true_iff.mp both).2)
  · have elapses := execStartupTimeout_elapses armed runs free late
    refine ⟨fun many => ⟨_, elapses.trans (if_pos many), ?_⟩, fun few => ⟨_, elapses.trans (if_neg (by omega)), ?_⟩⟩
    · rw [State.timeFault_rst]
      rfl
    · have timed : ((s.timeFault 4 0x0F06).updRst fun r => { r with code8 := r.code8 + 1 }).rst =
          { s.rst with code8 := s.rst.code8 + 1 } := by
        rw [State.updRst_rst, State.timeFault_rst]
      have next := State.deviceReset_timeout (s := (s.timeFault 4 0x0F06).updRst fun r => { r with code8 := r.code8 + 1 })
        (by rw [timed]; exact runs) (by rw [timed]; exact free)
      rw [timed] at next
      exact next
  · have warm : s.rst.heldThermal = false := (Bool.or_eq_false_iff.mp (Bool.or_eq_false_iff.mp free).1).2
    obtain ⟨t, reset, held, pdn, cnt⟩ := State.deviceReset_thermal (s :=
        s.secFault 0x0F29) (by rw [State.secFault_rst]; exact free)
    refine ⟨_, execThermalTrip_trips powered warm, ?_⟩
    dsimp only
    rw [reset]
    exact ⟨held, rfl, rfl, rfl, pdn, cnt.trans (congrArg (fun m => satInc (SMap.get 0 m 5)) (State.fault_cnt s _))⟩
  · obtain ⟨eff, ovr, rst⟩ := s.rearmed.bootStart_rst
    refine ⟨_, (if_pos (by rw [powered, hot]; rfl)).trans (congrArg Host.Outcome.next
      (if_neg (Bool.eq_false_iff.mp (State.rearmed_held pin sound)))), congrArg ResetState.heldThermal rst,
      congrArg ResetState.start rst, congrArg (·.rails.vddMv) s.rearmed.bootStart_bootView⟩

end Sys2Proof.Machine
end

section
/-! SUPPORT. Accesses to CSR space (R777–R783): the ways in which a read and a write of each size end. -/
namespace Sys2Proof.Machine
open Sys2Proof

/-! ### Reads (R778) -/

section served
variable {s : State} {p : AccessPath} {off : BitVec 26} (answers : s.csrAnswers p off.toNat = true)
include answers

/-- A read of 1, 2 or 4 bytes within one register takes its bytes of that register. -/
theorem execLoReadLatch_within {k : Fin 4} (small : k.val < 3) (aligned : csrAligned off.toNat k.val = true) :
    execLoReadLatch p off k s = .next ((s.csrServe p (off.toNat / 4 * 4)).2.emit (.hostReply "CSR"
      (((leBytes 4 (s.csrServe p (off.toNat / 4 * 4)).1.toNat).drop (off.toNat % 4)).take (2 ^ k.val)))) :=
  (if_pos (Bool.and_eq_true_iff.mpr ⟨answers, aligned⟩)).trans (if_pos small)

/-- A read of 8 bytes is two of 4, the lower first. -/
theorem execLoReadLatch_pair (aligned : off.toNat % 8 = 0) :
    let one := s.csrServe p (off.toNat / 4 * 4)
    let two := one.2.csrServe p (off.toNat + 4)
    execLoReadLatch p off 3 s =
      .next (two.2.emit (.hostReply "CSR" (leBytes 4 one.1.toNat ++ leBytes 4 two.1.toNat))) :=
  (if_pos (Bool.and_eq_true_iff.mpr ⟨answers, decide_eq_true aligned⟩)).trans (if_neg (by decide))

end served

theorem execLoReadLatch_misplaced {s : State} {off : BitVec 26} {k : Fin 4} (p : AccessPath)
    (bad : csrAligned off.toNat k.val = false) : execLoReadLatch p off k s = .next (s.emit (.hostReply "UR" [])) :=
  if_neg (by rw [bad, Bool.and_false]; exact Bool.false_ne_true)

theorem execLoReadLatch_unserved {s : State} {p : AccessPath} {off : BitVec 26} (k : Fin 4)
    (dark : s.csrAnswers p off.toNat = false) : execLoReadLatch p off k s = .next (s.emit (.hostReply "UR" [])) :=
  if_neg (by rw [dark, Bool.false_and]; exact Bool.false_ne_true)

/-! ### Writes (R778, R783) -/

theorem execCsrWrite_small {s : State} {k : Fin 4} (p : AccessPath) (off : BitVec 26) (v : W64) (vf : Bool) (small : k.val < 2) :
    execCsrWrite p off k v vf s = .next s := if_pos (Bool.or_eq_true_iff.mpr (.inl (decide_eq_true small)))

theorem execCsrWrite_misplaced {s : State} {off : BitVec 26} {k : Fin 4} (p : AccessPath) (v : W64) (vf : Bool)
    (bad : csrAligned off.toNat k.val = false) : execCsrWrite p off k v vf s = .next s :=
  if_pos (Bool.or_eq_true_iff.mpr (.inr (by rw [bad]; rfl)))

theorem execCsrWrite_word (s : State) (p : AccessPath) {off : BitVec 26} (v : W64) (vf : Bool) (aligned : off.toNat % 4 = 0) :
    execCsrWrite p off 2 v vf s = .next (s.csrStore p off.toNat (field v 0 32) vf) := by
  have placed : csrAligned off.toNat 2 = true := decide_eq_true aligned
  exact if_neg fun refused => Bool.false_ne_true ((congrArg Bool.not placed).symm.trans refused)

theorem execCsrWrite_pair (s : State) (p : AccessPath) {off : BitVec 26} (v : W64) (vf : Bool) (aligned : off.toNat % 8 = 0) :
    execCsrWrite p off 3 v vf s =
      .next ((s.csrStore p off.toNat (field v 0 32) vf).csrStore p (off.toNat + 4) (field v 32 32) vf) := by
  have placed : csrAligned off.toNat 3 = true := decide_eq_true aligned
  exact if_neg fun refused => Bool.false_ne_true ((congrArg Bool.not placed).symm.trans refused)

/-- A path that writes a block is no VF's, and its write reaches the block's registers (R777, R782). -/
theorem State.csrStore_of_writable {s : State} {p : AccessPath} {off : Nat} (v : W32) (vf : Bool)
    (may : s.csrWritable p (csrBlock off) = true) : s.csrStore p off v vf = s.csrPut off v vf := by
  cases p with
  | vf f => simp [State.csrWritable] at may
  | pf => exact State.onCsr_of_writable (·.csrPut off v vf) may
  | steward => exact State.onCsr_of_writable (·.csrPut off v vf) may
  | jtag => exact State.onCsr_of_writable (·.csrPut off v vf) may

/-- A 4 B write to an aligned register of a block that its path writes. -/
theorem execCsrWrite_writable {s : State} {p : AccessPath} {off : BitVec 26} (v : W64) (vf : Bool) (aligned : off.toNat % 4 = 0)
    (may : s.csrWritable p (csrBlock off.toNat) = true) :
    execCsrWrite p off 2 v vf s = .next (s.csrPut off.toNat (field v 0 32) vf) :=
  (execCsrWrite_word s p v vf aligned).trans (congrArg Host.Outcome.next (State.csrStore_of_writable _ vf may))

/-- Settles O50: a lemma for each way in which an access ends. -/
theorem csrAccessSizes : Obligations.CsrAccessSizes := by
  unfold Obligations.CsrAccessSizes
  refine ⟨fun s p off answers => ⟨fun aligned => ?_, fun aligned => execLoReadLatch_pair answers aligned,
      execLoReadLatch_within answers (by decide) (decide_eq_true ?_),
          fun within => execLoReadLatch_within answers (by decide)
        (decide_eq_true ?_), fun crosses => execLoReadLatch_misplaced p (decide_eq_false ?_),
      fun off4 => execLoReadLatch_misplaced p (decide_eq_false off4),
          fun off8 => execLoReadLatch_misplaced p (decide_eq_false off8)⟩,
    fun s p off k => execLoReadLatch_unserved k,
    fun s p off v vf => ⟨execCsrWrite_small (k := 0) p off v vf (by decide), execCsrWrite_small (k :=
        1) p off v vf (by decide),
      fun off4 => execCsrWrite_misplaced p v vf (decide_eq_false off4),
      fun off8 => execCsrWrite_misplaced p v vf (decide_eq_false off8), execCsrWrite_word s p v vf,
          execCsrWrite_pair s p v vf⟩,
    fun s p v vf may => ⟨execCsrWrite_writable (off := 0x0200014) v vf (by decide) may,
      execCsrWrite_writable (off := 0x0300204) v vf (by decide) may,
      execCsrWrite_writable (off := 0x0A10000) v vf (by decide) may⟩⟩
  · have whole := execLoReadLatch_within answers (k := 2) (by decide) (decide_eq_true aligned)
    rw [aligned] at whole
    exact whole
  · show off.toNat % 4 + 1 ≤ 4
    omega
  · show off.toNat % 4 + 2 ≤ 4
    omega
  · show ¬off.toNat % 4 + 2 ≤ 4
    omega

end Sys2Proof.Machine
end

section
/-! SUPPORT. The LO latches of every access path (R781). -/
namespace Sys2Proof.Machine
open Sys2Proof

/-! ### Which registers latch -/

/-- The LO registers of the hub's latching pairs. -/
def hubLatches : List Nat := [0x0000040, 0x0000100, 0x0001C04, 0x0200008, 0x0700010, 0x0700018, 0x0700020, 0x0900000, 0x0900110,
  0x0900118, 0x0900120, 0x0900128]

/-- A latching LO is one of the hub's, or EXC_PC_LO or EXC_ADDR_LO of a core's window. -/
theorem latchesHi_iff (off : Nat) : latchesHi off = true ↔ off ∈ hubLatches ∨ (0x2000000 ≤ off ∧ off < 0x3900000
    ∧ (off - 0x2000000) % 0x40000 < 0x30000
    ∧ ((off - 0x2000000) % 0x40000 % 0x4000 = 0x14 ∨ (off - 0x2000000) % 0x40000 % 0x4000 = 0x1C)) := by
  unfold latchesHi
  rw [Bool.or_eq_true, List.contains_iff_mem]
  refine or_congr Iff.rfl ?_
  by_cases rstc : 0x0100000 ≤ off ∧ off < 0x0200000
  · have block : csrBlock off = .rstc := if_pos rstc
    rw [block]
    exact iff_of_false Bool.false_ne_true (by omega)
  by_cases stack : 0x1000000 ≤ off ∧ off < 0x1C00000
  · have block : csrBlock off = .stack ((off - 0x1000000) / 0x100000) := (if_neg rstc).trans (if_pos stack)
    rw [block]
    exact iff_of_false Bool.false_ne_true (by omega)
  by_cases cluster : 0x2000000 ≤ off ∧ off < 0x3900000
  · have block : csrBlock off = .cluster ((off - 0x2000000) / 0x40000) :=
      (if_neg rstc).trans ((if_neg stack).trans (if_pos cluster))
    rw [block]
    exact decide_eq_true_iff.trans ⟨fun window => ⟨cluster.1, cluster.2, window⟩, fun ⟨_, _, window⟩ => window⟩
  · have block : csrBlock off = .hub := (if_neg rstc).trans ((if_neg stack).trans (if_neg cluster))
    rw [block]
    exact iff_of_false Bool.false_ne_true (by omega)

/-- HI of a latching pair does not latch. -/
theorem latchesHi_next {off : Nat} (lo : latchesHi off = true) : latchesHi (off + 4) = false := by
  refine Bool.eq_false_iff.mpr fun hi => ?_
  rw [latchesHi_iff] at lo hi
  simp only [hubLatches, List.mem_cons, List.not_mem_nil, or_false] at lo hi
  omega

/-- The path that a number stands for. -/
def pathOf (n : Nat) : AccessPath :=
  if n = 0 then .pf else if n = 17 then .steward else if n = 18 then .jtag else .vf (Fin.ofNat 16 (n - 1))

theorem pathOf_num : Function.LeftInverse pathOf AccessPath.num := fun p => by
  cases p with
  | vf v =>
    have notPf : v.val + 1 ≠ 0 := by omega
    have notSteward : v.val + 1 ≠ 17 := by omega
    have notJtag : v.val + 1 ≠ 18 := by omega
    have same : Fin.ofNat 16 (v.val + 1 - 1) = v := Fin.ext (Nat.mod_eq_of_lt v.isLt)
    simp only [pathOf, AccessPath.num, notPf, notSteward, notJtag, if_false, same]
  | pf => rfl
  | steward => rfl
  | jtag => rfl

/-- Each path's latch of each register has a place of its own. -/
theorem latchKey_inj {p q : AccessPath} {a b : Nat} (ha : a < 2 ^ 28) (hb : b < 2 ^ 28) (same : latchKey q b = latchKey p a) :
    (q, b) = (p, a) := by
  unfold latchKey at same
  have path : q = p := pathOf_num.injective (by omega)
  have place : b = a := by omega
  rw [path, place]

/-! ### Reads of a pair (R781) -/

section latching
variable {off : Nat} (lo : latchesHi off = true)
include lo

/-- A read of LO answers the current value, and latches HI for its path. -/
theorem State.csrRead_lo (s : State) (p : AccessPath) : s.csrRead p off =
    (s.csrValue off, { s with latch := s.latch.set (latchKey p (off + 4)) (s.csrValue (off + 4)) }) := if_pos lo

/-- A read of HI answers its path's latch. -/
theorem State.csrRead_hi (s : State) (p : AccessPath) : s.csrRead p (off + 4) = (s.latch.get 0 (latchKey p (off + 4)), s) :=
  (if_neg (Bool.eq_false_iff.mp (latchesHi_next lo))).trans (if_pos ⟨Nat.le_add_left 4 off, lo⟩)

end latching

/-- A read on one path leaves every other path's latches, and its own of other registers. -/
theorem State.csrRead_hi_other (s : State) {p q : AccessPath} {off o : Nat} (lo : latchesHi off = true) (lo' : latchesHi o = true)
    (small : off < 2 ^ 26) (small' : o < 2 ^ 26) (other : (q, o) ≠ (p, off)) :
    ((s.csrRead p off).2.csrRead q (o + 4)).1 = (s.csrRead q (o + 4)).1 := by
  have apart : latchKey q (o + 4) ≠ latchKey p (off + 4) := fun same => by
    obtain ⟨path, place⟩ := Prod.mk.inj (latchKey_inj (by omega) (by omega) same)
    exact other (by rw [path, Nat.add_right_cancel place])
  rw [State.csrRead_hi lo', State.csrRead_hi lo', State.csrRead_lo lo]
  exact SMap.get_set_ne _ _ _ apart

theorem State.csrRead_plain (s : State) (p : AccessPath) {off : Nat} (plain : latchesHi off = false) :
    (s.csrRead p off).2 = s := by
  unfold State.csrRead
  rw [if_neg (Bool.eq_false_iff.mp plain)]
  split <;> rfl

/-- Nothing but the latches changes in a read, and they only by one of a LO. -/
theorem State.csrServe_latch (s : State) (p : AccessPath) (off : Nat) : ∃ l, (s.csrServe p off).2 = { s with latch := l }
    ∧ (latchesHi off = false → l = s.latch) := by
  have read : ∃ l, (s.csrRead p off).2 = { s with latch := l } ∧ (latchesHi off = false → l = s.latch) := by
    cases lo : latchesHi off
    · exact ⟨_, s.csrRead_plain p lo, fun _ => rfl⟩
    · exact ⟨_, congrArg Prod.snd (s.csrRead_lo lo p), nofun⟩
  have served : ∃ l, (if s.blockDark (csrBlock off) then (0, s) else s.csrRead p off).2 = { s with latch := l }
      ∧ (latchesHi off = false → l = s.latch) := by
    split
    · exact ⟨_, rfl, fun _ => rfl⟩
    · exact read
  cases p with
  | vf v =>
    refine ⟨s.latch, ?_, fun _ => rfl⟩
    unfold State.csrServe
    dsimp only
    split <;> rfl
  | pf => exact served
  | steward => exact served
  | jtag => exact served

/-- A path other than a VF's reads a block that is not dark. -/
theorem State.csrServe_lit {s : State} {p : AccessPath} {off : Nat} (path : p = .pf ∨ p = .steward ∨ p = .jtag)
    (lit : s.blockDark (csrBlock off) = false) : s.csrServe p off = s.csrRead p off := by
  rcases path with rfl | rfl | rfl
  all_goals exact if_neg (Bool.eq_false_iff.mp lit)

/-- An 8-byte read of a latching pair answers the two words of one moment. -/
theorem State.csrServe_pair {s : State} {p : AccessPath} {off : Nat} (path : p = .pf ∨ p = .steward ∨ p = .jtag)
    (lit : s.blockDark (csrBlock off) = false) (lit4 : s.blockDark (csrBlock (off + 4)) = false) (lo : latchesHi off = true) :
    (s.csrServe p off).1 = s.csrValue off ∧ ((s.csrServe p off).2.csrServe p (off + 4)).1 = s.csrValue (off + 4)
      ∧ ((s.csrServe p off).2.csrServe p (off + 4)).2.out = s.out := by
  rw [State.csrServe_lit path lit, State.csrRead_lo lo, State.csrServe_lit (off := off + 4) path (by exact lit4),
    State.csrRead_hi lo]
  exact ⟨rfl, SMap.get_set_self _ _ _ _, rfl⟩

/-- Settles O52: what a read does to the latches, each at a place of its own. -/
theorem hiLatches : Obligations.HiLatches := by
  unfold Obligations.HiLatches
  refine ⟨fun s p off lo => ⟨congrArg Prod.fst (s.csrRead_lo lo p), ?_, fun q o small' small lo' other =>
      s.csrRead_hi_other lo lo' small small' other, fun empty => ?_, congrArg Prod.snd (State.csrRead_hi lo s p)⟩,
    fun s p off plain => s.csrRead_plain p plain, rfl, fun s => rfl,
    fun s p off path answers lit lit4 lo aligned => ?_, fun s p off k => ?_⟩
  · rw [State.csrRead_hi lo, State.csrRead_lo lo]
    exact SMap.get_set_self _ _ _ _
  · rw [State.csrRead_hi lo, SMap.get_of_find, empty]
    rfl
  · have word : off.toNat / 4 * 4 = off.toNat := by omega
    obtain ⟨one, two, out⟩ := State.csrServe_pair path lit lit4 lo
    have read := execLoReadLatch_pair answers aligned
    dsimp only at read
    rw [word, one, two] at read
    exact ⟨_, read, congrArg (· ++ _) out⟩
  · obtain ⟨l1, one, kept1⟩ := s.csrServe_latch p (off.toNat / 4 * 4)
    obtain ⟨l2, two, kept2⟩ := ({ s with latch := l1 } : State).csrServe_latch p (off.toNat + 4)
    cases answers : s.csrAnswers p off.toNat with
    | false => exact ⟨s.latch, _, execLoReadLatch_unserved k answers, fun _ _ => rfl⟩
    | true =>
      cases aligned : csrAligned off.toNat k.val with
      | false => exact ⟨s.latch, _, execLoReadLatch_misplaced p aligned, fun _ _ => rfl⟩
      | true =>
        by_cases small : k.val < 3
        · have read := execLoReadLatch_within answers small aligned
          rw [one] at read
          exact ⟨l1, _, read, fun plain _ => kept1 plain⟩
        · obtain rfl : k = 3 := Fin.ext (by omega)
          have read := execLoReadLatch_pair answers (of_decide_eq_true aligned)
          dsimp only at read
          rw [one, two] at read
          exact ⟨l2, _, read, fun plain plain4 => (kept2 plain4).trans (kept1 plain)⟩

end Sys2Proof.Machine
end

section
/-! SUPPORT. RSTC_IDLE_TIMEOUT, TEL_CTL, GLOBAL_TIMEOUT (R717, R774, R794): a value as its register keeps it. -/
namespace Sys2Proof.Machine
open Sys2Proof

/-- A 4 B write carries its word in the low half of the command's operand (R778). -/
theorem field_setWidth_word (v : W32) : field (v.setWidth 64) 0 32 = v := by
  refine BitVec.eq_of_toNat_eq ?_
  rw [BitVec.extractLsb'_toNat, BitVec.toNat_setWidth]
  have small := v.isLt
  omega

/-- A 4 B write of a register whose block its path writes. -/
theorem execCsrWrite_register {s : State} {p : AccessPath} {off : BitVec 26} (v : W32) (vf : Bool) (aligned : off.toNat % 4 = 0)
    (may : s.csrWritable p (csrBlock off.toNat) = true) :
    execCsrWrite p off 2 (v.setWidth 64) vf s = .next (s.csrPut off.toNat v vf) := by
  rw [execCsrWrite_writable _ vf aligned may, field_setWidth_word]

/-! ### RSTC_IDLE_TIMEOUT (R717) -/

/-- An idle request is armed with the register's value, which is never below 1,000 ns. -/
theorem ResetState.idleNs_of_clamped (r : ResetState) (v : W32) :
    { r with idleTmo := if v.toNat < 1000 then 1000 else v }.idleNs = (if v.toNat < 1000 then (1000 : W32) else v).toNat := by
  have floor : 1000 ≤ (if v.toNat < 1000 then (1000 : W32) else v).toNat := by
    split
    · decide
    · next large => exact Nat.not_lt.mp large
  exact Nat.max_eq_right floor

/-- Settles O53: a write of the register, and the request that it times. -/
theorem idleTimeoutRegister : Obligations.IdleTimeoutRegister := by
  unfold Obligations.IdleTimeoutRegister
  refine ⟨by rfl, fun s p v vf may => ⟨_, execCsrWrite_register (off := 0x0100008) v vf (by decide) may, rfl, rfl,
      rfl, fun b => ?_⟩⟩
  refine (SMap.find_set_self _ _ _).trans ?_
  exact congrArg (fun ns => some (s.time.now + ns)) (s.rst.idleNs_of_clamped v)

/-! ### TEL_CTL (R774) -/

/-- The sampling period that TEL_CTL keeps (R774). -/
def telPeriod (ms : Nat) : Nat := if ms < 10 then 10 else if 1000 < ms then 1000 else ms

theorem telPeriod_lt (ms : Nat) : telPeriod ms < 1024 := by
  unfold telPeriod
  split_ifs <;> omega

theorem StewardState.telCtl_of_period (x : StewardState) (ms : Nat) (on : Bool) :
    { x with period := BitVec.ofNat 10 (telPeriod ms), evtEn := on }.telCtl =
      BitVec.ofNat 32 (telPeriod ms + 1024 * on.toNat) := by
  have kept : (BitVec.ofNat 10 (telPeriod ms)).toNat = telPeriod ms := Nat.mod_eq_of_lt (telPeriod_lt ms)
  simp only [StewardState.telCtl, regOf, List.map_cons, List.map_nil, List.sum_cons, List.sum_nil, kept]
  congr 1
  omega

/-- Settles O54: a write of the register, and the event that EVT_EN gates. -/
theorem telemetryPeriod : Obligations.TelemetryPeriod := by
  unfold Obligations.TelemetryPeriod
  refine ⟨by rfl, fun s p v vf may => ⟨_, execCsrWrite_register (off := 0x0300200) v vf (by decide) may, rfl, ?_⟩,
    fun s what arg running => ?_⟩
  · exact s.stw.telCtl_of_period (field v 0 10).toNat (bit v 10)
  · unfold State.pldmEvent
    rw [running]
    rfl

/-! ### GLOBAL_TIMEOUT (R577, R794) -/

theorem gtoClamp_eq (ns : Nat) : gtoClamp ns = if ns < 1000 then 1000 else if 2 ^ 36 < ns then 2 ^ 36 else ns := by
  unfold gtoClamp
  split_ifs <;> omega

theorem State.writeGtoHi_eq (s : State) (v : W32) : s.writeGtoHi v = { s with hub := { s.hub with
    gto := let ns := (field v 0 5).toNat * 2 ^ 32 + s.hub.gtoLo.toNat
      if ns < 1000 then 1000 else if 2 ^ 36 < ns then 2 ^ 36 else ns } } := by
  unfold State.writeGtoHi
  rw [gtoClamp_eq]

/-- Settles O51: the two writes, and the pair as it reads. -/
theorem globalTimeoutRegister : Obligations.GlobalTimeoutRegister := by
  unfold Obligations.GlobalTimeoutRegister
  refine ⟨fun s p v vf may => ⟨execCsrWrite_register (off := 0x0000040) v vf (by decide) may, ?_, ?_, rfl, rfl, rfl⟩,
    fun s p => ⟨rfl, ?_⟩, rfl, by rfl, by rfl⟩
  · exact congrArg Host.Outcome.next ((State.onCsr_of_writable _ may).trans (s.writeGtoHi_eq v))
  · exact (execCsrWrite_register (off := 0x0000044) v vf (by decide) may).trans (congrArg Host.Outcome.next (s.writeGtoHi_eq v))
  · have lo : latchesHi 0x0000040 = true := by decide
    rw [State.csrRead_lo lo, State.csrRead_hi lo]
    exact SMap.get_set_self _ _ _ _

end Sys2Proof.Machine
end

section
/-! SUPPORT. HUB_STS (R793): the fields of a register that is formed from them. -/
namespace Sys2Proof.Machine
open Sys2Proof

/-- The sum that a register's word holds, before it is cut to 32 bits. -/
def fieldSum (fs : List (Nat × Nat)) : Nat := (fs.map fun f => f.2 * 2 ^ f.1).sum

/-- A field within the word is the digits of that sum. -/
theorem field_regOf_toNat (fs : List (Nat × Nat)) {lo w : Nat} (within : lo + w ≤ 32) :
    (field (regOf fs) lo w).toNat = fieldSum fs / 2 ^ lo % 2 ^ w := by
  have cut : 2 ^ 32 = 2 ^ lo * 2 ^ (32 - lo) := by rw [← Nat.pow_add]; congr 1; omega
  rw [BitVec.extractLsb'_toNat, Nat.shiftRight_eq_div_pow]
  show fieldSum fs % 2 ^ 32 / 2 ^ lo % 2 ^ w = _
  rw [cut, Nat.mod_mul_right_div_self]
  exact Nat.mod_mod_of_dvd _ (Nat.pow_dvd_pow 2 (by omega))

/-- A layout of fields (lowest bit, width, value), from a bit on, none reaching into the next. -/
def FieldsFit : Nat → List (Nat × Nat × Nat) → Prop
  | _, [] => True
  | base, (lo, w, v) :: fs => base ≤ lo ∧ v < 2 ^ w ∧ FieldsFit (lo + w) fs

/-- The register that a layout forms. -/
def layoutReg (fs : List (Nat × Nat × Nat)) : W32 := regOf (fs.map fun f => (f.1, f.2.2))

/-- The number that a layout stands for. -/
def layoutSum (fs : List (Nat × Nat × Nat)) : Nat := fieldSum (fs.map fun f => (f.1, f.2.2))

theorem layoutSum_cons (f : Nat × Nat × Nat) (fs : List (Nat × Nat × Nat)) :
    layoutSum (f :: fs) = f.2.2 * 2 ^ f.1 + layoutSum fs := rfl

theorem FieldsFit.dvd {base : Nat} {fs : List (Nat × Nat × Nat)} (fit : FieldsFit base fs) : 2 ^ base ∣ layoutSum fs := by
  induction fs generalizing base with
  | nil => exact Nat.dvd_zero _
  | cons f fs ih =>
    obtain ⟨low, -, rest⟩ := fit
    rw [layoutSum_cons]
    exact Nat.dvd_add (Dvd.dvd.mul_left (Nat.pow_dvd_pow 2 low) _)
      ((Nat.pow_dvd_pow 2 (low.trans (Nat.le_add_right _ _))).trans (ih rest))

theorem FieldsFit.base_le {base lo w v : Nat} {fs : List (Nat × Nat × Nat)} (fit : FieldsFit base fs) (mem : (lo, w,
    v) ∈ fs) :
    base ≤ lo := by
  induction fs generalizing base with
  | nil => cases mem
  | cons f fs ih =>
    obtain ⟨low, -, rest⟩ := fit
    rcases List.mem_cons.mp mem with rfl | later
    · exact low
    · exact low.trans ((Nat.le_add_right _ _).trans (ih rest later))

/-- What lies below a bit is cut off by a shift past it. -/
theorem add_div_two_pow_of_lt {a n m lo : Nat} (small : a < 2 ^ m) (multiple : 2 ^ m ∣ n) (above : m ≤ lo) :
    (a + n) / 2 ^ lo = n / 2 ^ lo := by
  obtain ⟨k, rfl⟩ := multiple
  have split : 2 ^ lo = 2 ^ m * 2 ^ (lo - m) := by rw [← Nat.pow_add, Nat.add_sub_cancel' above]
  rw [split, ← Nat.div_div_eq_div_mul, ← Nat.div_div_eq_div_mul, Nat.add_mul_div_left _ _ (Nat.two_pow_pos m),
    Nat.div_eq_of_lt small, Nat.zero_add, Nat.mul_div_cancel_left _ (Nat.two_pow_pos m)]

/-- The digits at a field of a layout are its value. -/
theorem FieldsFit.digits {base lo w v : Nat} {fs : List (Nat × Nat × Nat)} (fit : FieldsFit base fs) (mem : (lo, w,
    v) ∈ fs) :
    layoutSum fs / 2 ^ lo % 2 ^ w = v := by
  induction fs generalizing base with
  | nil => cases mem
  | cons f fs ih =>
    obtain ⟨-, small, rest⟩ := fit
    rw [layoutSum_cons]
    rcases List.mem_cons.mp mem with rfl | later
    · obtain ⟨k, sum⟩ := rest.dvd
      rw [sum, Nat.mul_comm v, Nat.pow_add, Nat.mul_assoc, ← Nat.mul_add, Nat.mul_div_cancel_left _ (Nat.two_pow_pos lo),
        Nat.add_mul_mod_self_left, Nat.mod_eq_of_lt small]
    · have below : f.2.2 * 2 ^ f.1 < 2 ^ (f.1 + f.2.1) := by
        rw [Nat.pow_add, Nat.mul_comm (2 ^ f.1)]
        exact Nat.mul_lt_mul_of_pos_right small (Nat.two_pow_pos _)
      rw [add_div_two_pow_of_lt below rest.dvd (rest.base_le later)]
      exact ih rest later

/-- A field of a register reads as the layout says. -/
theorem FieldsFit.field_eq {fs : List (Nat × Nat × Nat)} {lo w v : Nat} (fit : FieldsFit 0 fs) (mem : (lo, w, v) ∈ fs)
    (within : lo + w ≤ 32) : field (layoutReg fs) lo w = BitVec.ofNat w v := by
  refine BitVec.eq_of_toNat_eq ((field_regOf_toNat _ within).trans ?_)
  exact (fit.digits mem).trans ((fit.digits mem).symm.trans (Nat.mod_mod _ _).symm |>.trans (by rw [fit.digits mem]; rfl))

/-- A bit of a register reads as the layout says. -/
theorem FieldsFit.bit_eq {fs : List (Nat × Nat × Nat)} {i : Nat} {b : Bool} (fit : FieldsFit 0 fs)
    (mem : (i, 1, b.toNat) ∈ fs) (within : i < 32) : bit (layoutReg fs) i = b := by
  have digit : layoutSum fs / 2 ^ i % 2 = b.toNat := fit.digits mem
  show (BitVec.ofNat 32 (layoutSum fs)).getLsbD i = b
  rw [BitVec.getLsbD_ofNat, decide_eq_true within, Bool.true_and, Nat.testBit_eq_decide_div_mod_eq, digit]
  cases b <;> rfl

/-! ### The codes that HUB_STS gathers -/

theorem Start.code_lt (x : Start) : x.code < 16 := by cases x <;> decide
theorem DState.code_lt (x : DState) : x.code < 4 := by cases x <;> decide
theorem StwState.code_lt (x : StwState) : x.code < 4 := by cases x <;> decide
theorem DrainState.code_lt (x : DrainState) : x.code < 4 := by cases x <;> decide
theorem roleCode_lt (x : Role) : roleCode x < 8 := by cases x <;> decide
theorem PState.code_lt (x : PState) : x.code < 4 := by cases x <;> decide

theorem State.lc_lt (s : State) : s.lc < 4 := by
  unfold State.lc
  split_ifs <;> omega

/-! ### The layouts -/

theorem fieldSum_append (a b : List (Nat × Nat)) : fieldSum (a ++ b) = fieldSum a + fieldSum b := by
  simp [fieldSum]

theorem fieldSum_zero (lo w : Nat) : fieldSum ([(lo, w, 0)].map fun (f : Nat × Nat × Nat) => (f.1, f.2.2)) = 0 := by
  simp [fieldSum]

theorem regOf_congr {a b : List (Nat × Nat)} (same : fieldSum a = fieldSum b) : regOf a = regOf b :=
  congrArg (BitVec.ofNat 32) same

/-- Four bits that stand as one field's sum are four fields. -/
theorem fieldSum_nibble (lo : Nat) (f : Nat → Bool) (fs : List (Nat × Nat)) :
    fieldSum ((lo, ((List.range 4).map fun d => if f d then 2 ^ d else 0).sum) :: fs) =
      fieldSum ((lo, (f 0).toNat) :: (lo + 1, (f 1).toNat) :: (lo + 2, (f 2).toNat) :: (lo + 3, (f 3).toNat) :: fs) := by
  have one (d : Nat) : (if f d then 2 ^ d else 0) = (f d).toNat * 2 ^ d := by
    cases f d <;> simp
  simp only [fieldSum, one, List.range_succ, List.range_zero, List.nil_append, List.cons_append, List.map_cons,
      List.map_nil,
    List.sum_cons, List.sum_nil, Nat.pow_add]
  ring

/-- The fields of HUB_STS below the dies, and those above them (R793). -/
@[simp] def State.hubStsLow (s : State) : List (Nat × Nat × Nat) :=
  [(0, 4, s.rst.start.code), (4, 2, s.lc), (6, 2, s.pwr.dstate.code), (8, 3, roleCode s.pl.role), (11, 1,
      s.int.expelled.toNat),
    (12, 1, s.int.tainted.toNat), (13, 1, s.int.disagree.toNat), (14, 2, s.stw.st.code), (16, 2, s.stw.drain.code),
    (18, 3, s.stw.level.toNat)]
@[simp] def State.hubStsHigh (s : State) : List (Nat × Nat × Nat) :=
  [(25, 1, (s.errSumReg != 0).toNat), (26, 1, (s.hub.irqSts != 0).toNat)]

/-- HUB_STS, a bit for each die, its reserved bits zero (R793). -/
@[simp] def State.hubStsLayout (s : State) : List (Nat × Nat × Nat) :=
  s.hubStsLow ++ ((21, 1, (s.rst.dieRst.contains 0).toNat) :: (22, 1, (s.rst.dieRst.contains 1).toNat)
    :: (23, 1, (s.rst.dieRst.contains 2).toNat) :: (24, 1, (s.rst.dieRst.contains 3).toNat) :: s.hubStsHigh) ++ [(27, 5, 0)]

theorem State.csrValue_hubSts (s : State) : s.csrValue 0x0000030 = s.hubStsReg := rfl

theorem State.hubStsReg_parts (s : State) : s.hubStsReg = regOf ((s.hubStsLow.map fun f => (f.1, f.2.2)) ++
    (21, ((List.range 4).map fun d => if s.rst.dieRst.contains d then 2 ^ d else 0).sum) ::
      s.hubStsHigh.map fun f => (f.1, f.2.2)) := by
  simp only [State.hubStsReg, State.hubStsLow, State.hubStsHigh, List.map_cons, List.map_nil, List.cons_append,
      List.nil_append]

theorem State.hubSts_layout (s : State) : s.csrValue 0x0000030 = layoutReg s.hubStsLayout := by
  have nibble := fieldSum_nibble 21 (s.rst.dieRst.contains ·) (s.hubStsHigh.map fun f => (f.1, f.2.2))
  rw [State.csrValue_hubSts, State.hubStsReg_parts]
  refine regOf_congr ?_
  rw [fieldSum_append, nibble, State.hubStsLayout, List.map_append, List.map_append, fieldSum_append, fieldSum_append,
    fieldSum_zero, List.map_cons, List.map_cons, List.map_cons, List.map_cons]
  exact (Nat.add_zero _).symm

theorem State.hubStsLayout_fits (s : State) : FieldsFit 0 s.hubStsLayout :=
  ⟨by decide, Start.code_lt _, by decide, s.lc_lt, by decide, DState.code_lt _, by decide, roleCode_lt _,
    by decide, Bool.toNat_lt _, by decide, Bool.toNat_lt _, by decide, Bool.toNat_lt _, by decide, StwState.code_lt _,
    by decide, DrainState.code_lt _, by decide, BitVec.isLt _, by decide, Bool.toNat_lt _, by decide, Bool.toNat_lt _,
    by decide, Bool.toNat_lt _, by decide, Bool.toNat_lt _, by decide, Bool.toNat_lt _, by decide, Bool.toNat_lt _,
    by decide, by decide, trivial⟩

/-! ### The registers that it copies (R685, R656, R718, R744, R749, R770–R772, R776) -/

theorem State.start_layout (s : State) : s.csrValue 0x010000C =
    layoutReg [(0, 4, s.rst.start.code), (16, 8, s.rst.tmoS.toNat)] := rfl

@[simp] def State.secStsLayout (s : State) : List (Nat × Nat × Nat) :=
  [(0, 2, s.lc), (2, 2, s.sec.dbg.toNat), (4, 1, s.sec.auth.toNat), (5, 1, s.sec.dirty.toNat),
    (6, 1, s.ident.fleetKey.isSome.toNat), (7, 1, s.host.ideHold.toNat), (8, s.sec.sessions.length, s.sec.sessions.length)]

theorem State.secSts_layout (s : State) : s.csrValue 0x0200000 = layoutReg s.secStsLayout := rfl
theorem State.secStsLayout_fits (s : State) : FieldsFit 0 s.secStsLayout :=
  ⟨by decide, s.lc_lt, by decide, BitVec.isLt _, by decide, Bool.toNat_lt _, by decide, Bool.toNat_lt _,
    by decide, Bool.toNat_lt _, by decide, Bool.toNat_lt _, by decide, Nat.lt_two_pow_self, trivial⟩

@[simp] def PowerState.stsLayout (p : PowerState) : List (Nat × Nat × Nat) :=
  [(0, 2, p.pstate.code), (2, 1, p.ramp.isSome.toNat), (3, 2, p.dstate.code), (5, 1, p.capped.toNat), (6, 1,
      p.refused.toNat),
    (16, 16, p.powerW.toNat)]

theorem State.pwrSts_layout (s : State) : s.csrValue 0x0300004 = layoutReg s.pwr.stsLayout := rfl
theorem PowerState.stsLayout_fits (p : PowerState) : FieldsFit 0 p.stsLayout :=
  ⟨by decide, PState.code_lt _, by decide, Bool.toNat_lt _, by decide, DState.code_lt _, by decide, Bool.toNat_lt _,
    by decide, Bool.toNat_lt _, by decide, BitVec.isLt _, trivial⟩

@[simp] def State.plStsLayout (s : State) : List (Nat × Nat × Nat) :=
  [(0, 3, roleCode s.pl.role), (3, 1, s.pl.side.toNat), (4, 1, s.pl.copy.toNat), (5, 1, s.pl.link.toNat),
    (6, 1, s.pl.prsnt.toNat), (7, 1, s.pl.pdnSeen.toNat), (8, 1, s.time.pairLock.toNat), (9, 1, s.pl.hold.toNat),
    (10, 1, s.pl.err.toNat), (16, 8, min 255 (s.pl.tx.filter fun (b : EpochBuf) => b.commit.isSome).length)]

theorem State.plSts_layout (s : State) : s.csrValue 0x0700008 = layoutReg s.plStsLayout := rfl
theorem State.plStsLayout_fits (s : State) : FieldsFit 0 s.plStsLayout :=
  ⟨by decide, roleCode_lt _, by decide, Bool.toNat_lt _, by decide, Bool.toNat_lt _, by decide, Bool.toNat_lt _,
    by decide, Bool.toNat_lt _, by decide, Bool.toNat_lt _, by decide, Bool.toNat_lt _, by decide, Bool.toNat_lt _,
    by decide, Bool.toNat_lt _, by decide, Nat.lt_succ_of_le (Nat.min_le_left _ _), trivial⟩

@[simp] def IntState.stsLayout (i : IntState) : List (Nat × Nat × Nat) :=
  [(0, 1, i.disagree.toNat), (1, 1, (!i.sweep.isEmpty).toNat), (2, 1, i.expelled.toNat), (3, 1, i.rbClosing.isSome.toNat),
    (4, 1, i.tainted.toNat), (5, 1, i.err.toNat)]

theorem State.intSts_layout (s : State) : s.csrValue 0x0900100 = layoutReg s.int.stsLayout := rfl
theorem IntState.stsLayout_fits (i : IntState) : FieldsFit 0 i.stsLayout :=
  ⟨by decide, Bool.toNat_lt _, by decide, Bool.toNat_lt _, by decide, Bool.toNat_lt _, by decide, Bool.toNat_lt _,
    by decide, Bool.toNat_lt _, by decide, Bool.toNat_lt _, trivial⟩

theorem State.stw_layout (s : State) : s.csrValue 0x0000200 = layoutReg [(0, 2, s.stw.st.code), (2, 8,
    s.stw.restarts.toNat)] := rfl
theorem State.svcSts_layout (s : State) : s.csrValue 0x0000208 =
    layoutReg [(0, 2, s.stw.drain.code), (2, 1, s.stw.btn.toNat), (3, 1, s.stw.refused.toNat)] := rfl
theorem State.shed_layout (s : State) : s.csrValue 0x0300204 =
    layoutReg [(0, 3, s.stw.level.toNat), (3, 7, s.stw.busy.toNat), (10, 8, s.stw.raises.toNat)] := rfl

/-- The same value stands in two registers' layouts. -/
theorem field_copied {a b : List (Nat × Nat × Nat)} {lo lo' w : Nat} (v : Nat) (fit : FieldsFit 0 a) (fit' : FieldsFit 0 b)
    (mem : (lo, w, v) ∈ a) (mem' : (lo', w, v) ∈ b) (within : lo + w ≤ 32) (within' : lo' + w ≤ 32) :
    field (layoutReg a) lo w = field (layoutReg b) lo' w :=
  (fit.field_eq mem within).trans (fit'.field_eq mem' within').symm

theorem bit_copied {a b : List (Nat × Nat × Nat)} {i j : Nat} (v : Bool) (fit : FieldsFit 0 a) (fit' : FieldsFit 0 b)
    (mem : (i, 1, v.toNat) ∈ a) (mem' : (j, 1, v.toNat) ∈ b) (within : i < 32) (within' : j < 32) :
    bit (layoutReg a) i = bit (layoutReg b) j :=
  (fit.bit_eq mem within).trans (fit'.bit_eq mem' within').symm

/-- A 16-bit register in a word is zero where it is. -/
theorem setWidth_bne_zero (x : W16) : (x.setWidth 32 != 0) = (x != 0) := by
  have same : x.setWidth 32 = 0 ↔ x = 0 := by
    rw [← BitVec.toNat_inj, ← BitVec.toNat_inj, BitVec.toNat_setWidth, Nat.mod_eq_of_lt (by omega)]
    rfl
  by_cases zero : x = 0
  · rw [zero]
    rfl
  · rw [bne_iff_ne.mpr zero, bne_iff_ne.mpr (same.not.mpr zero)]

/-- Settles O56: each field from the layouts of HUB_STS and of the register that it names. -/
theorem hubStatus : Obligations.HubStatus := by
  unfold Obligations.HubStatus
  intro s v
  have hub := s.hubStsLayout_fits
  have named : v = layoutReg s.hubStsLayout := s.hubSts_layout
  have sec := s.secStsLayout_fits
  have pwr := s.pwr.stsLayout_fits
  have pl := s.plStsLayout_fits
  have int := s.int.stsLayout_fits
  have start : FieldsFit 0 [(0, 4, s.rst.start.code), (16, 8, s.rst.tmoS.toNat)] :=
    ⟨by decide, Start.code_lt _, by decide, BitVec.isLt _, trivial⟩
  have stw : FieldsFit 0 [(0, 2, s.stw.st.code), (2, 8, s.stw.restarts.toNat)] :=
    ⟨by decide, StwState.code_lt _, by decide, BitVec.isLt _, trivial⟩
  have svc : FieldsFit 0 [(0, 2, s.stw.drain.code), (2, 1, s.stw.btn.toNat), (3, 1, s.stw.refused.toNat)] :=
    ⟨by decide, DrainState.code_lt _, by decide, Bool.toNat_lt _, by decide, Bool.toNat_lt _, trivial⟩
  have shed : FieldsFit 0 [(0, 3, s.stw.level.toNat), (3, 7, s.stw.busy.toNat), (10, 8, s.stw.raises.toNat)] :=
    ⟨by decide, BitVec.isLt _, by decide, BitVec.isLt _, by decide, BitVec.isLt _, trivial⟩
  rw [named, s.start_layout, s.secSts_layout, s.pwrSts_layout, s.plSts_layout, s.intSts_layout, s.stw_layout,
      s.svcSts_layout,
    s.shed_layout]
  refine ⟨field_copied s.rst.start.code hub start (by simp) (by simp) (by decide) (by decide),
    field_copied s.lc hub sec (by simp) (by simp) (by decide) (by decide),
    field_copied s.pwr.dstate.code hub pwr (by simp) (by simp) (by decide) (by decide),
    field_copied (roleCode s.pl.role) hub pl (by simp) (by simp) (by decide) (by decide),
    bit_copied s.int.expelled hub int (by simp) (by simp) (by decide) (by decide),
    bit_copied s.int.tainted hub int (by simp) (by simp) (by decide) (by decide),
    bit_copied s.int.disagree hub int (by simp) (by simp) (by decide) (by decide),
    field_copied s.stw.st.code hub stw (by simp) (by simp) (by decide) (by decide),
    field_copied s.stw.drain.code hub svc (by simp) (by simp) (by decide) (by decide),
    field_copied s.stw.level.toNat hub shed (by simp) (by simp) (by decide) (by decide),
    fun d => ?_, hub.bit_eq (b := s.errSumReg != 0) (by simp) (by decide),
    (hub.bit_eq (b := s.hub.irqSts != 0) (by simp) (by decide)).trans (setWidth_bne_zero _).symm,
        hub.field_eq (by simp) (by decide)⟩
  fin_cases d
  all_goals exact hub.bit_eq (by simp) (by decide)

end Sys2Proof.Machine
end

section
/-! SUPPORT. SPDM (R725, R726, R741, R742): the answers of a transport that serves it, and the sessions. -/
namespace Sys2Proof.Machine
open Sys2Proof

/-! ### Requests that need no session -/

section transport
variable {s : State} {doe : Bool} (req : List Byte)

theorem State.spdmPlain_served (served : s.spdmServed doe = true) (what : String) (code : Nat) :
    s.spdmPlain what code doe req = s.spdmSay what code req := if_pos served

theorem State.spdmPlain_dark (dark : s.spdmServed doe = false) (what : String) (code : Nat) :
    s.spdmPlain what code doe req = s := if_neg (Bool.eq_false_iff.mp dark)

/-- Slot 0 is the one that holds a certificate. -/
theorem execGetCertificate_slot0 : execGetCertificate doe 0 req s = .next (s.spdmPlain "CERTIFICATE" 0x82 doe req) :=
  congrArg Host.Outcome.next (if_neg fun other => other.1 rfl)

theorem execChallenge_slot0 : execChallenge doe 0 req s = .next (s.spdmPlain "CHALLENGE_AUTH" 0x83 doe req) :=
  congrArg Host.Outcome.next (if_neg fun other => other.1 rfl)

theorem execGetCertificate_other (served : s.spdmServed doe = true) {n : Byte} (other : n ≠ 0) :
    execGetCertificate doe n req s = .next (s.spdmError 1) := congrArg Host.Outcome.next (if_pos ⟨other, served⟩)

theorem execChallenge_other (served : s.spdmServed doe = true) {n : Byte} (other : n ≠ 0) :
    execChallenge doe n req s = .next (s.spdmError 1) := congrArg Host.Outcome.next (if_pos ⟨other, served⟩)

/-! ### Sessions -/

theorem execKeyExchange_opens (served : s.spdmServed doe = true) {id : W32} (room : s.sec.sessions.length < 4)
    (fresh : s.sec.sessions.contains id.toNat = false) : execKeyExchange doe id req s = .next (State.spdmSay
      (s.updSec fun x => { x with sessions := x.sessions ++ [id.toNat], halfOpen := x.halfOpen ++ [id.toNat] })
      "KEY_EXCHANGE_RSP" 0xE4 req) := by
  simp only [execKeyExchange, served, Nat.not_le.mpr room, fresh, Bool.not_true, Bool.false_eq_true, if_false]

theorem execKeyExchange_busy (served : s.spdmServed doe = true) (id : W32) (full : 4 ≤ s.sec.sessions.length) :
    execKeyExchange doe id req s = .next ((s.updSec fun x => { x with sessFail := satInc x.sessFail }).spdmError 3) := by
  simp only [execKeyExchange, served, full, Bool.not_true, Bool.false_eq_true, if_false, if_true]

end transport

theorem execFinish_verified {s : State} {id : W32} (req : List Byte) (half : s.sec.halfOpen.contains id.toNat = true) :
    execFinish id true req s = .next (State.spdmSay
      (s.updSec fun x => { x with halfOpen := x.halfOpen.filter (· != id.toNat) }) "FINISH_RSP" 0xE5 req) := by
  simp only [execFinish, half, Bool.not_true, Bool.false_eq_true, if_false, if_true]

theorem execFinish_fails {s : State} {id : W32} (req : List Byte) (half : s.sec.halfOpen.contains id.toNat = true) :
    execFinish id false req s = .next (State.spdmError
      ((s.sessionEnd id.toNat).updSec fun x => { x with sessFail := satInc x.sessFail }) 6) := by
  simp only [execFinish, half, Bool.not_true, Bool.false_eq_true, if_false]

/-- A session that has ended is none of those open. -/
theorem State.sessionEnd_ended (s : State) (id : Nat) : (s.sessionEnd id).sec.sessions.contains id = false := by
  refine Bool.eq_false_iff.mpr fun still => ?_
  have kept := (List.mem_filter.mp (List.contains_iff_mem.mp still)).2
  simp at kept

/-- Settles O44: a lemma for each way in which a request ends. -/
theorem attestation : Obligations.Attestation := by
  unfold Obligations.Attestation
  refine ⟨fun s doe req served => ?_, fun s doe id req served => ⟨fun room fresh =>
      ⟨_, execKeyExchange_opens req served room fresh, rfl, rfl⟩, execKeyExchange_busy req served id⟩,
    fun s id req half => ⟨⟨_, execFinish_verified req half, rfl, rfl⟩, ⟨_, execFinish_fails req half, ?_, rfl⟩⟩,
    fun s id req inside => ⟨congrArg Host.Outcome.next (if_pos inside), congrArg Host.Outcome.next (if_pos inside),
      ⟨_, congrArg Host.Outcome.next (if_pos inside), rfl⟩⟩,
    fun s id req outside => ?_, fun s doe req dark => ?_⟩
  · have plain := State.spdmPlain_served req served
    exact ⟨congrArg Host.Outcome.next (plain _ _), congrArg Host.Outcome.next (plain _ _),
        congrArg Host.Outcome.next (plain _ _),
      congrArg Host.Outcome.next (plain _ _), (execGetCertificate_slot0 req).trans (congrArg Host.Outcome.next (plain _ _)),
      (execChallenge_slot0 req).trans (congrArg Host.Outcome.next (plain _ _)),
      fun n other => ⟨execGetCertificate_other req served other, execChallenge_other req served other⟩,
      congrArg Host.Outcome.next (if_pos served), congrArg Host.Outcome.next (if_pos served)⟩
  · exact s.sessionEnd_ended id.toNat
  · have none := Bool.eq_false_iff.mp outside
    exact ⟨congrArg Host.Outcome.next (if_neg none), congrArg Host.Outcome.next (if_neg none),
      congrArg Host.Outcome.next (if_neg none)⟩
  · have silent := Bool.eq_false_iff.mp dark
    exact ⟨congrArg Host.Outcome.next (State.spdmPlain_dark req dark _ _), congrArg Host.Outcome.next (if_neg silent),
      (execChallenge_slot0 req).trans (congrArg Host.Outcome.next (State.spdmPlain_dark req dark _ _)),
      congrArg Host.Outcome.next (if_neg silent)⟩

end Sys2Proof.Machine
end

section
/-! SUPPORT. The lifeline and the sideband bus (R755–R759). -/
namespace Sys2Proof.Machine
open Sys2Proof

/-! ### Who answers (R702, R755) -/

section answers
variable {s : State} (aux : s.rails.aux = true) (on : s.pwr.dstate ≠ .off) (past : s.rst.start ≠ .options)
include aux on past

/-- From the end of step 2, in every power state but OFF, the lifeline answers. -/
theorem State.lifeline_answers (what : String) (f : Nat × List Byte × State) :
    s.lifeline what f = f.2.2.emit (.sideband what f.1 f.2.1) := by
  have live : (s.pwr.dstate != DState.off) = true := bne_iff_ne.mpr on
  have done : (s.rst.start == Start.options) = false := beq_eq_false_iff_ne.mpr past
  exact if_pos (by rw [aux, live, done]; rfl)

/-- A lifeline command's answer, as the command's end. -/
theorem next_lifeline_answers (what : String) (f : Nat × List Byte × State) :
    (Host.Outcome.next (s.lifeline what f) : Res) = .next (f.2.2.emit (.sideband what f.1 f.2.1)) :=
  congrArg Host.Outcome.next (State.lifeline_answers aux on past what f)

end answers

/-- In OFF nothing answers. -/
theorem State.lifeline_off {s : State} (off : s.pwr.dstate = .off) (what : String) (f : Nat × List Byte × State) :
    s.lifeline what f = s := if_neg (by rw [off, bne_self_eq_false, Bool.and_false]; exact Bool.false_ne_true)

/-! ### What each command answers with -/

theorem execLlFr_none {s : State} {n : Byte} (beyond : 16 ≤ n.toNat) : execLlFr n s = .next (s.lifeline "LL_FR" (2, [], s)) :=
  congrArg Host.Outcome.next (if_pos beyond)

theorem execLlFr_record {s : State} {n : Byte} {r : FaultRecord} (within : n.toNat < 16)
    (kept : s.bak.last16[n.toNat]? = some r) : execLlFr n s = .next (s.lifeline "LL_FR" (0, r.bytes, s)) := by
  simp only [execLlFr, Nat.not_le.mpr within, if_false, kept]

theorem execLlFr_empty {s : State} {n : Byte} (within : n.toNat < 16) (empty : s.bak.last16[n.toNat]? = none) :
    execLlFr n s = .next (s.lifeline "LL_FR" (1, [], s)) := by
  simp only [execLlFr, Nat.not_le.mpr within, if_false, empty]

theorem execLlReset_armed {s : State} (powered : s.hubPowered = true) :
    execLlReset 0xA5 s = .next (s.lifeline "LL_RESET" (0, [], s.deviceReset 3)) :=
  congrArg Host.Outcome.next ((if_neg (not_not_intro rfl)).trans (if_neg (by rw [powered]; decide)))

theorem execLlReset_dark {s : State} (dark : s.hubPowered = false) :
    execLlReset 0xA5 s = .next (s.lifeline "LL_RESET" (1, [], s)) :=
  congrArg Host.Outcome.next ((if_neg (not_not_intro rfl)).trans (if_pos (by rw [dark]; rfl)))

/-- The part as LL_POWER_OFF leaves it (R756). -/
def State.poweredOff (s : State) : State :=
  let t := if s.hubPowered then (s.secFault 0x0F28).mainLost .d3cold else s
  { t with rails := { t.rails with mainEn := false, powerOff := true } }

theorem execLlPowerOff_armed (s : State) :
    execLlPowerOff 0xA5 s = .next (s.lifeline "LL_POWER_OFF" (0, [], s.poweredOff)) :=
  congrArg Host.Outcome.next (if_neg (not_not_intro rfl))

/-- A part without its main rails, and not OFF, is in D3cold. -/
theorem State.d3cold_of_unpowered {s : State} (dark : s.hubPowered = false) (on : s.pwr.dstate ≠ .off) :
    s.pwr.dstate = .d3cold := by
  have either := (Bool.and_eq_false_iff.mp dark).resolve_right fun off => on (by simpa using off)
  simpa using either

theorem State.poweredOff_leaves {s : State} (on : s.pwr.dstate ≠ .off) : s.poweredOff.pwr.dstate = .d3cold
    ∧ s.poweredOff.rails.mainEn = false ∧ s.poweredOff.rails.powerOff = true
    ∧ s.poweredOff.pl.pdnOut = (if s.hubPowered then false else s.pl.pdnOut) := by
  cases powered : s.hubPowered
  · have same : s.poweredOff = { s with rails := { s.rails with mainEn := false, powerOff := true } } := by
      simp only [State.poweredOff, powered, Bool.false_eq_true, if_false]
    rw [same]
    exact ⟨State.d3cold_of_unpowered powered on, rfl, rfl, rfl⟩
  · have lost : s.poweredOff = (let t := (s.secFault 0x0F28).mainLost .d3cold
        { t with rails := { t.rails with mainEn := false, powerOff := true } }) := by
      simp only [State.poweredOff, powered, if_true]
    rw [lost]
    exact ⟨rfl, rfl, rfl, rfl⟩

theorem execLlPowerOn_cold {s : State} (cold : s.pwr.dstate = .d3cold) : execLlPowerOn s = .next (s.lifeline "LL_POWER_ON"
    (0, [], { s with rails := { s.rails with mainEn := true, powerOff := false } })) :=
  congrArg Host.Outcome.next (if_pos (by rw [cold]; rfl))

theorem execLlPowerOn_warm {s : State} (warm : s.pwr.dstate ≠ .d3cold) :
    execLlPowerOn s = .next (s.lifeline "LL_POWER_ON" (1, [], s)) :=
  congrArg Host.Outcome.next (if_neg (beq_iff_eq.not.mpr warm))

theorem execLlStatus_powered {s : State} (powered : s.hubPowered = true) : execLlStatus s = .next (s.lifeline "LL_STATUS"
    (0, leBytes 4 s.stw.stwReg.toNat ++ leBytes 4 s.stw.svcSts.toNat ++ leBytes 4 s.ledReg.toNat ++ leBytes 4 s.pwr.stsReg.toNat
      ++ [if s.rst.heldThermal then 1 else 0], s)) := by
  simp only [execLlStatus, powered, if_true]

theorem execLlIdentify_sets {s : State} {on : Byte} (powered : s.hubPowered = true) (small : on.toNat < 2) :
    execLlIdentify on s = .next (s.lifeline "LL_IDENTIFY" (0, [], s.updStw fun x => { x with locate := on == 1 })) :=
  congrArg Host.Outcome.next ((if_neg (Nat.not_le.mpr small)).trans (if_neg (by rw [powered]; decide)))

/-- Settles O46: what each command answers with, and who answers. -/
theorem lifelineAndBus : Obligations.LifelineAndBus := by
  unfold Obligations.LifelineAndBus
  refine ⟨fun s aux on past => ?_, fun s off => ?_, fun s a aux => ?_⟩
  · have answers := next_lifeline_answers aux on past
    refine ⟨answers _ _, answers _ _, fun n beyond => (execLlFr_none beyond).trans (answers _ _),
      fun n r within kept => (execLlFr_record within kept).trans (answers _ _),
      fun n within empty => (execLlFr_empty within empty).trans (answers _ _),
      fun arm unarmed => ⟨(congrArg Host.Outcome.next (if_pos unarmed)).trans (answers _ _),
        (congrArg Host.Outcome.next (if_pos unarmed)).trans (answers _ _)⟩,
      fun powered => (execLlReset_armed powered).trans (answers _ _),
      ⟨_, (execLlPowerOff_armed s).trans (answers _ _), State.poweredOff_leaves on⟩,
      fun cold => ⟨_, (execLlPowerOn_cold cold).trans (answers _ _), rfl, rfl⟩,
      fun warm => (execLlPowerOn_warm warm).trans (answers _ _),
      fun powered => (execLlStatus_powered powered).trans (answers _ _),
      fun v powered small => ⟨_, (execLlIdentify_sets powered small).trans (answers _ _), rfl⟩,
      fun v large => (congrArg Host.Outcome.next (if_pos large)).trans (answers _ _),
      fun e null broadcast => (congrArg Host.Outcome.next (if_neg (not_or.mpr ⟨null, broadcast⟩))).trans (answers _ _),
      (congrArg Host.Outcome.next (if_pos (.inl rfl))).trans (answers _ _)⟩
  · have dark : s.hubPowered = false := by rw [State.hubPowered, off]; rfl
    have warm : s.pwr.dstate ≠ .d3cold := by rw [off]; decide
    exact ⟨congrArg Host.Outcome.next (State.lifeline_off off _ _), congrArg Host.Outcome.next (State.lifeline_off off _ _),
      (execLlPowerOn_warm warm).trans (congrArg Host.Outcome.next (State.lifeline_off off _ _)),
      (execLlReset_dark dark).trans (congrArg Host.Outcome.next (State.lifeline_off off _ _))⟩
  · refine ⟨congrArg Host.Outcome.next (if_pos aux), congrArg Host.Outcome.next (if_pos aux), ?_, ?_⟩
    · cases i3c : s.stw.i3c
      · exact congrArg Host.Outcome.next (if_neg (by rw [aux, i3c]; decide))
      · exact congrArg Host.Outcome.next (if_pos (by rw [i3c, Bool.or_true]))
    · cases i3c : s.stw.i3c
      · exact congrArg Host.Outcome.next (if_neg (by rw [aux, i3c]; decide))
      · exact congrArg Host.Outcome.next (if_pos (by rw [i3c, Bool.or_true]))

end Sys2Proof.Machine
end

section
/-! SUPPORT. Service commands, PLDM and the firmware update (R701, R754, R760–R763). -/
namespace Sys2Proof.Machine
open Sys2Proof

/-! ### Who answers (R754) -/

section answers
variable {s : State} (aux : s.rails.aux = true) (on : s.pwr.dstate ≠ .off) (past : s.rst.start ≠ .options)
include aux on past

/-- With the steward running a service command answers what it computes. -/
theorem next_service_answers (runs : s.stewardRuns = true) (what : String) (f : State → Nat × List Byte × State) :
    (Host.Outcome.next (s.service what f) : Res) = .next ((f s).2.2.emit (.sideband what (f s).1 (f s).2.1)) := by
  refine (next_lifeline_answers aux on past what _).trans ?_
  rw [if_pos runs]

/-- A PLDM request is answered as a service command is. -/
theorem next_pldm_answers (runs : s.stewardRuns = true) (what : String) (f : State → Nat × List Byte × State) :
    (Host.Outcome.next (s.pldm what f) : Res) = .next ((f s).2.2.emit (.sideband what (f s).1 (f s).2.1)) :=
  next_service_answers aux on past runs what f

/-- While the steward does not run, the aux hardware answers 4 for it. -/
theorem next_service_busy (stopped : s.stewardRuns = false) (what : String) (f : State → Nat × List Byte × State) :
    (Host.Outcome.next (s.service what f) : Res) = .next (s.emit (.sideband what 4 [])) := by
  refine (next_lifeline_answers aux on past what _).trans ?_
  rw [if_neg (Bool.eq_false_iff.mp stopped)]

theorem next_pldm_busy (stopped : s.stewardRuns = false) (what : String) (f : State → Nat × List Byte × State) :
    (Host.Outcome.next (s.pldm what f) : Res) = .next (s.emit (.sideband what 4 [])) :=
  next_service_busy aux on past stopped what f

end answers


/-! ### OPT_COMMIT (R701, R762) -/

@[simp] theorem State.stwFault_nvm (s : State) (c : Nat) : (s.stwFault c).nvm = s.nvm :=
  (congrArg State.nvm (butReport_stwFault s c) :)
@[simp] theorem State.stwFault_opt (s : State) (c : Nat) : (s.stwFault c).opt = s.opt :=
  (congrArg State.opt (butReport_stwFault s c) :)

/-- An image is written to the copy not in use, and nothing is staged any more. -/
def State.optTaken (s : State) (m : SMap Byte) : State :=
  { s.optWrite (s.commitImage m) with nvm := { (s.optWrite (s.commitImage m)).nvm with staging := none } }

/-- What OPT_COMMIT answers, and the part after it. -/
def State.optCommitted (s : State) : Nat × List Byte × State :=
  match s.nvm.staging with
  | none => (1, [], s)
  | some m =>
    if !optShape (s.commitImage m) then (2, [], s)
    else if s.locked && !((List.range 4096).all fun o => repairChange o (s.optInUse.get 0xFF o) ((s.commitImage m).get 0xFF o))
    then (5, [], s)
    else (0, [], (s.optTaken m).stwFault 0x1108)

theorem execOptCommit_eq (s : State) : execOptCommit s = .next (s.service "OPT_COMMIT" State.optCommitted) := rfl

theorem State.optCommitted_unstaged {s : State} (unstaged : s.nvm.staging = none) : s.optCommitted = (1, [], s) := by
  unfold State.optCommitted
  rw [unstaged]

section commit
variable {s : State} {m : SMap Byte} (staged : s.nvm.staging = some m) (shape : optShape (s.commitImage m) = true)
include staged shape

/-- A locked part takes repairs only. -/
theorem State.optCommitted_refused (locked : s.locked = true)
    (other : ∃ o, o < 4096 ∧ repairChange o (s.optInUse.get 0xFF o) ((s.commitImage m).get 0xFF o) = false) :
    s.optCommitted = (5, [], s) := by
  obtain ⟨o, inImage, changed⟩ := other
  have notAll : ((List.range 4096).all fun o => repairChange o (s.optInUse.get 0xFF o) ((s.commitImage m).get 0xFF o)) = false :=
    List.all_eq_false.mpr ⟨o, List.mem_range.mpr inImage, by rw [changed]; exact Bool.false_ne_true⟩
  unfold State.optCommitted
  rw [staged]
  dsimp only
  rw [shape, locked, notAll]
  rfl

theorem State.optCommitted_writes (free : s.locked = false) : s.optCommitted =
    (0, [], (s.optTaken m).stwFault 0x1108) := by
  unfold State.optCommitted
  rw [staged]
  dsimp only
  rw [shape, free]
  rfl

end commit

/-! ### PLDM_FIRMWARE_UPDATE (R760) -/

/-- What an update that is not cut off answers, and the flash after it. -/
theorem execPldmFirmwareUpdate_eq (img : List Byte) (s : State) : execPldmFirmwareUpdate img none s =
    .next (s.pldm "FIRMWARE_UPDATE" fun s => if s.imageReason img ≠ 0 then (1, [], { s with spi := { s.spi with b := img } })
      else (0, [], { s with spi := { s.spi with a := img, b := img } })) := rfl

/-- Settles O47: who answers, and what each command computes. -/
theorem serviceAndPldm : Obligations.ServiceAndPldm := by
  unfold Obligations.ServiceAndPldm
  refine ⟨fun s aux on past runs => ?_, fun s aux on past stopped => ?_⟩
  · have answers := next_service_answers aux on past runs
    have pldm := next_pldm_answers aux on past runs
    refine ⟨fun off len => (answers _ _).trans ?_, fun off bs => (answers _ _).trans ?_, fun unstaged => ?_,
      fun m staged shape locked other => ?_, fun m staged shape free => ?_, answers _ _, answers _ _, fun c req => pldm _ _,
      fun id => (pldm _ _).trans ?_, fun id => (pldm _ _).trans ?_, fun e => pldm _ _, pldm _ _, fun img => ?_⟩
    · split <;> rfl
    · split <;> rfl
    · rw [show exec .optCommit s = _ from (execOptCommit_eq s).trans (answers _ _), State.optCommitted_unstaged unstaged]
      rfl
    · rw [show exec .optCommit s = _ from (execOptCommit_eq s).trans (answers _ _),
        State.optCommitted_refused staged shape locked other]
      rfl
    · refine ⟨_, (execOptCommit_eq s).trans (answers _ _), ?_⟩
      rw [State.optCommitted_writes staged shape free]
      dsimp only [State.emit]
      rw [State.stwFault_nvm, State.stwFault_opt]
      exact ⟨rfl, rfl, rfl, rfl⟩
    · split <;> rfl
    · split <;> rfl
    · have update := (execPldmFirmwareUpdate_eq img s).trans (pldm _ _)
      refine ⟨fun bad => update.trans ?_, fun good => update.trans ?_⟩
      · rw [if_pos bad]
        rfl
      · rw [if_neg (not_not_intro good)]
        rfl
  · have busy := next_service_busy aux on past stopped
    have pldm := next_pldm_busy aux on past stopped
    exact ⟨fun o l => busy _ _, fun o d => busy _ _, busy _ _, busy _ _, busy _ _, fun id => pldm _ _, fun img c => pldm _ _⟩

end Sys2Proof.Machine
end

section
/-! SUPPORT. No command stops the block (R827): every meaning is built of next states by conditions and case splits. -/
namespace Sys2Proof.Machine
open Sys2Proof

/-- A meaning that ends in a next state. -/
def Goes (r : Res) : Prop := ∃ t, r = .next t

theorem goes_next (t : State) : Goes (.next t) := ⟨t, rfl⟩

theorem goes_ite {c : Prop} [Decidable c] {a b : Res} (ha : Goes a) (hb : Goes b) : Goes (if c then a else b) := by
  split
  · exact ha
  · exact hb

theorem goes_choice {c : Prop} [Decidable c] {t u : State} : Goes (if c then .next t else .next u) :=
  goes_ite (goes_next _) (goes_next _)

/-! ### The meanings that instructions share (R416–R419, R478, R534) -/

section core
variable (s : State) (k opc : Nat) (w : BitVec 56) (fields : List (Nat × Nat)) (body : State → CoreOut)

/-- An instruction's end, in the M slot: it takes effect, waits or raises. -/
theorem goes_mSlot : Goes (s.mSlot k opc w fields body) := by
  refine goes_ite (goes_next _) (goes_ite (goes_next _) (goes_ite (goes_next _) (goes_ite (goes_next _) ?_)))
  split
  all_goals exact goes_next _

theorem goes_vSlot : Goes (s.vSlot k opc w fields body) := by
  refine goes_ite (goes_next _) ?_
  extract_lets s1
  split
  all_goals exact goes_next _

end core

section control
variable (s : State) (n : Nat) (w : BitVec 26)

/-- A control core's instruction, whatever its body does. -/
theorem goes_ccInstr (used : List (Nat × Nat)) (body : State → Nat → Task → CcOut) : Goes (s.ccInstr n w used body) := by
  refine goes_ite (goes_next _) ?_
  split
  · exact goes_next _
  · split
    · exact goes_next _
    · exact goes_ite (goes_next _) (goes_ite (goes_next _) goes_choice)

theorem goes_ccSet (used : List (Nat × Nat)) (f : Task → Option W64) : Goes (s.ccSet n w used f) := goes_ccInstr s n w _ _
theorem goes_ccLoad (len : Nat) : Goes (s.ccLoad n w len) := goes_ccInstr s n w _ _
theorem goes_ccStore (len : Nat) : Goes (s.ccStore n w len) := goes_ccInstr s n w _ _
theorem goes_ccBranch (cond : Nat) : Goes (s.ccBranch n w cond) := goes_ccInstr s n w _ _
theorem goes_seqOp (op : Nat) (used : List (Nat × Nat)) (body : State → Nat → Task → CcOut) :
    Goes (s.seqOp n w op used body) :=
  goes_ite (goes_next _) (goes_ccInstr s n w _ _)

end control

/-! ### The longer meanings

`conv => arg 1; whnf` brings a meaning to its next case split. -/

theorem goes_aqDriveIdentified (slot speed width supported) (s : State) :
    Goes (execAqDriveIdentified slot speed width supported s) := by
  refine goes_ite (goes_ite (goes_next _) ?_) (goes_next _)
  split
  exacts [goes_next _, goes_ite (goes_next _) (goes_ite (goes_next _) (goes_ite (goes_next _) goes_choice))]

theorem goes_taskPlace (q) (s : State) : Goes (execTaskPlace q s) := by
  refine goes_ite ?_ ?_
  · split
    · exact goes_next _
    · split
      · exact goes_next _
      · split <;> exact goes_next _
  · split
    exacts [goes_choice, goes_next _]

theorem goes_timeMessage (peerTime oneWay step lock) (s : State) : Goes (execTimeMessage peerTime oneWay step lock s) := by
  refine goes_ite ?_ goes_choice
  split
  exacts [goes_next _, goes_choice]

theorem goes_windowHostAccess (line write poison keep) (s : State) :
    Goes (execWindowHostAccess line write poison keep s) := by
  refine goes_ite (goes_next _) (goes_ite (goes_next _) (goes_ite goes_choice ?_))
  split <;> exact goes_next _

theorem goes_tblSeal (c) (s : State) : Goes (execTblSeal c s) := by
  refine goes_ite (goes_next _) (goes_ite (goes_next _) (goes_ite (goes_next _) (goes_ite (goes_next _) ?_)))
  split <;> exact goes_next _

theorem goes_aqMount (c failed) (s : State) : Goes (execAqMount c failed s) := by
  refine goes_ite (goes_next _) (goes_ite (goes_next _) ?_)
  conv => arg 1; whnf
  split
  exacts [goes_next _, goes_ite (goes_next _) goes_choice]

theorem goes_aqSurpriseRemoval (slot present) (s : State) : Goes (execAqSurpriseRemoval slot present s) := by
  refine goes_ite (goes_next _) (goes_ite (goes_next _) ?_)
  split
  exacts [goes_choice, goes_next _]

theorem goes_aqExtCreate (c) (s : State) : Goes (execAqExtCreate c s) := by
  refine goes_ite (goes_next _) (goes_ite (goes_next _) ?_)
  split <;> exact goes_next _

theorem goes_patrolScrubRead (stack ch errors ode) (s : State) : Goes (execPatrolScrubRead stack ch errors ode s) := by
  refine goes_ite (goes_next _) ?_
  split <;> exact goes_next _

theorem goes_railFault (rail latched addr page status) (s : State) :
    Goes (execRailFault rail latched addr page status s) := by
  refine goes_ite (goes_next _) ?_
  conv => arg 1; whnf
  split
  exacts [goes_ite (goes_next _) goes_choice, goes_next _, goes_next _, goes_next _]

theorem goes_mmaStart (core) (s : State) : Goes (execMmaStart core s) := by
  conv => arg 1; whnf
  split
  · exact goes_next _
  · refine goes_ite (goes_next _) (goes_ite (goes_next _) (goes_ite ?_ ?_))
    · split <;> exact goes_next _
    · split <;> exact goes_next _

theorem goes_transferBlock (core ch) (s : State) : Goes (execTransferBlock core ch s) := by
  conv => arg 1; whnf
  split
  · exact goes_next _
  · refine goes_ite (goes_next _) (goes_ite (goes_next _) (goes_ite (goes_next _) (goes_ite (goes_next _) ?_)))
    split
    exacts [goes_next _, goes_next _, goes_ite (goes_next _) goes_choice]

theorem goes_updateRecord (n) (s : State) : Goes (execUpdateRecord n s) := by
  unfold execUpdateRecord
  split
  · refine goes_ite (goes_next _) ?_
    split
    · exact goes_next _
    · conv => arg 1; whnf
      split <;> exact goes_next _
  · split <;> exact goes_next _

theorem goes_markerRoundComplete (kind n) (s : State) : Goes (execMarkerRoundComplete kind n s) := by
  unfold execMarkerRoundComplete
  split <;> exact goes_next _

theorem goes_sqeFetch (q raw ok) (s : State) : Goes (execSqeFetch q raw ok s) := by
  conv => arg 1; whnf
  split
  · exact goes_choice
  · refine goes_ite (goes_next _) ?_
    split
    · exact goes_next _
    · split
      · exact goes_next _
      · conv => arg 1; whnf
        split <;> exact goes_next _

theorem goes_rstcIdleTimeoutExpiry (block) (s : State) : Goes (execRstcIdleTimeoutExpiry block s) := by
  conv => arg 1; whnf
  split <;> exact goes_choice

theorem goes_taskWaitTimeout (pair slot) (s : State) : Goes (execTaskWaitTimeout pair slot s) := by
  unfold execTaskWaitTimeout
  split
  · split
    exacts [goes_choice, goes_next _]
  · exact goes_next _

theorem goes_sleepExpiry (pair slot) (s : State) : Goes (execSleepExpiry pair slot s) := by
  unfold execSleepExpiry
  split
  · split
    exacts [goes_choice, goes_next _]
  · exact goes_next _

theorem goes_hostSnoop (hpa kind) (s : State) : Goes (execHostSnoop hpa kind s) := by
  conv => arg 1; whnf
  split
  exacts [goes_next _, goes_ite (goes_next _) (goes_ite (goes_next _) (goes_ite (goes_next _) goes_choice))]

theorem goes_sectorRereadComplete (stack ch pc errors ode) (s : State) :
    Goes (execSectorRereadComplete stack ch pc errors ode s) := by
  conv => arg 1; whnf
  split
  · exact goes_next _
  · refine goes_ite (goes_next _) ?_
    conv => arg 1; whnf
    split <;> exact goes_next _

theorem goes_reservoirReadResponse (n outcome) (s : State) : Goes (execReservoirReadResponse n outcome s) := by
  unfold execReservoirReadResponse
  split
  · exact goes_next _
  · split
    exacts [goes_choice, goes_next _]

theorem goes_worklistArrival (wl j) (s : State) : Goes (execWorklistArrival wl j s) := by
  unfold execWorklistArrival
  split
  · exact goes_next _
  · split
    exacts [goes_next _, goes_ite (goes_next _) (goes_ite (goes_next _) goes_choice)]

theorem goes_farRowRequest (n) (s : State) : Goes (execFarRowRequest n s) := by
  unfold execFarRowRequest
  split
  · exact goes_next _
  · split
    · exact goes_next _
    · refine goes_ite (goes_next _) (goes_ite (goes_next _) ?_)
      split
      · split
        · split <;> exact goes_next _
        · split <;> exact goes_next _
      · conv => arg 1; whnf
        split
        exacts [goes_choice, goes_next _]

theorem goes_streamStart (cluster n) (s : State) : Goes (execStreamStart cluster n s) := by
  conv => arg 1; whnf
  split
  · exact goes_next _
  · split
    exacts [goes_next _, goes_ite (goes_next _) goes_choice]

theorem goes_stackRowRequest (stack n) (s : State) : Goes (execStackRowRequest stack n s) := by
  conv => arg 1; whnf
  split
  · exact goes_next _
  · conv => arg 1; whnf
    split
    exacts [goes_next _, goes_next _, goes_ite goes_choice (goes_ite (goes_next _) goes_choice)]

theorem goes_luRowArrival (stack n) (s : State) : Goes (execLuRowArrival stack n s) := by
  conv => arg 1; whnf
  split
  · exact goes_next _
  · conv => arg 1; whnf
    split
    · split
      exacts [goes_next _, goes_ite (goes_next _) (goes_ite (goes_next _) goes_choice)]
    · split
      · exact goes_next _
      · conv => arg 1; whnf
        split
        · exact goes_next _
        · refine goes_ite (goes_next _) ?_
          split <;> exact goes_next _

theorem goes_waitqDelivery (pair slot sel k raw ok) (s : State) : Goes (execWaitqDelivery pair slot sel k raw ok s) := by
  conv => arg 1; whnf
  split
  · exact goes_next _
  · split
    · refine goes_ite (goes_next _) ?_
      split
      exacts [goes_next _, goes_next _, goes_choice, goes_next _]
    · exact goes_next _

theorem goes_wstgStagingComplete (core) (s : State) : Goes (execWstgStagingComplete core s) := by
  conv => arg 1; whnf
  split
  · refine goes_ite (goes_next _) ?_
    split
    exacts [goes_next _, goes_choice]
  · exact goes_next _

/-! ### Every command -/

/-- Every meaning, by its shape. -/
theorem goes_exec (c : Instr) (s : State) : Goes (exec c s) := by
  cases c with
  -- one next state
  | rstcHloadGo | vbakLoss | hubTimeStep | pwrPaceMinWrite | pStateRequest | d0IdleRequest | driftLockLoss |
    hubRegionAWrite | cbkInstall | census | hubTdaLoWrite | hubBdCtlWrite | bsnFill | bsnDrop | ftnAdd | ftnDrop |
    journalSpaceFreed | epochTimer | hubUpdCtlWrite | hubDgsWrite | uuJnlWrite | taskUnreg | taskRun | partStart |
    partStop | partSnap | mdlReg | mdlAdmit | mdlUnreg | stepForm | stepWaitTimeout | sqeNop | sqCfgWrite |
    globalTimeoutHiWrite | vfFlr | hcHlcFlush | hcAptWrite | hcBflipGo | hcLcwWrite | spGrpAWrite | ideKeyRefresh |
    pairActive | pairStandby | copy | solo | swap | retrain | flitCrcFailure | expel | intVerWrite | suspectClear |
    hubInjWrite | hubIrqWrite | ccPairCfgWrite | partBarWrite | getVersion | getCapabilities | negotiateAlgorithms |
    getDigests | getCertificate | challenge | getMeasurements | endSession | keyUpdate | heartbeat | spdmUnsupported |
    lcProvision | lcSeal | lcRetire | dbgReq | dbgAuth | dbgRevoke | fkSet | fkClear | secDbgRevoke | llCause |
    llCounters | llFr | llReset | llPowerOff | llPowerOn | llStatus | llIdentify | optRead | optStage | optCommit |
    optDiscard | report | setEndpointId | pldmBaseCommand | getSensorReading | getStateSensorReadings | setEventReceiver
    | pldmFruRead | pldmFirmwareUpdate | hubStwKick | drainPartitionsStopped | hostDrainedWrite | entryBecomesUrgent |
    busMasterEnableWrite | vfPowerStateWrite | dynamicAddressAssignment | sidebandBusReset | smbusArp | checkFailure =>
    exact goes_next _
  -- a choice of two
  | perstNDeassert | jtagReset | stewardResetRequest | bootImageReceived | hbmTrainingComplete | zeroFillComplete |
    startupReady | thermalTrip | thermalRearm | vddCoreUndervolt | auxRailLoss | auxRailReturn | mainRailsReturn |
    pmAlert | dieRelease | refClockLoss | pllRelock | timeMessageSend | pairLockLoss | powerCapSample | pmcsrD3hot |
    pmcsrD0 | hbmReadRequest | hbmWriteRequest | driftTrackingSlot | dramRefresh | sweepComplete | evacuationBlockCopied
    | cbkClear | tblCtrz | heatOff | decayTick | aqDriveInsert | nvmeAsyncEvent | smartPoll | tailWrite |
    tailTimerExpiry | updEpoch | barrierRelease | lockstepMismatch | pairResyncComplete | partStopped | teardownComplete
    | cqCoalesceTimeout | queueDrained | hostLinkUp | hostLinkDown | pfFlr | hdmDecoderCommit | spoutHeaderWrite |
    biconflict | biasFlipComplete | ideIntegrityFailure | promote | quefyLaneFailure | quefyLinkLoss | qfPrsntChange |
    mirrorItem | commitReceived | ackReceived | compareResultReceived | verifySweepComplete | rollback | patrolTest |
    csrWrite | nonceGet | telemetrySample | attnHold | drainAbandonTimeout | tableStoreReady | ideKmKeyProgram |
    pairLoadRequest | jtagTestInstruction | aqDriveRemoveSafe | ageingUpdate | calibrationWindow =>
    exact goes_choice
  -- instructions, chains of conditions, and what an option or a list of the state holds
  | lkup | coreEnd | hold | sop | sopi | sli | br | ldsS | stsS | wstg | mma | pull | push | slw | sls | bar | dgst =>
    simp only [exec, execLkup, execCoreEnd, execHold, execSop, execSopi, execSli, execBr, execLdsS, execStsS, execWstg,
      execMma, execPull, execPush, execSlw, execSls, execBar, execDgst, goes_mSlot]
  | perstNAssert | tblCreate | tblRetire | rsvDeclare | rsvRelease | aqAdopt | aqLinkLoss | updBatch | taskReg | sqDb |
    cqDb | peerDownSeen | finish | secAuth | cxlIoCompletionTimeout | aqFormat | aqSync =>
    exact goes_ite (goes_next _) goes_choice
  | ccNop | jal | jr | sleep | waitq | issue | waiti | post | dmov | upd | ccFault | taskEnd =>
    simp only [exec, execCcNop, execJal, execJr, execSleep, execWaitq, execIssue, execWaiti, execPost, execDmov,
      execUpd, execCcFault, execTaskEnd, goes_ccInstr]
  | pairStepTime | streamComplete | snapshotGatherDeadline | snapshotComplete | taskTimeout | taskRunHeadTimeout |
    coreWaitTimeout | goWritepull | hlcWritebackTimer | debugStep | pairPeerWindowExpiry | attnBlipExpiry =>
    conv => arg 1; whnf
    split
    exacts [goes_choice, goes_next _]
  | bootImageAbsentTimeout | tblDrainDone | tblRetireTimeout | nvmeIoTimeout | flipHoldDrained | epochMarkerReached |
    sluiceSignalArrival | partStopTimeout | switchComplete | tokenTimeout | hbmReadComplete | bktMoveCopyDone =>
    conv => arg 1; whnf
    split
    exacts [goes_next _, goes_choice]
  | rampComplete | cbkRead | bsnDropSettled | heatRead | nvmeControllerReset | lateTime | mmaComplete | taskQuantum |
    sbWorklistComplete | bisnpResponse =>
    conv => arg 1; whnf
    split <;> exact goes_next _
  | alu | addi | andi | ori | xori | shi | movi | movk | ccTime =>
    simp only [exec, execAlu, execAddi, execAndi, execOri, execXori, execShi, execMovi, execMovk, execCcTime,
      goes_ccSet]
  | tblLoad | fetchLine | tblFlip | aqExtFree | quefyLinkUp | keyExchange | stewardBusyWindow | attnShortPress |
    aqSlotOff =>
    exact goes_ite (goes_next _) (goes_ite (goes_next _) goes_choice)
  | vop | vcmp | vsel | vred | vbc | plog | lds | sts =>
    simp only [exec, execVop, execVcmp, execVsel, execVred, execVbc, execPlog, execLds, execSts, goes_vSlot]
  | beq | bne | blt | bge | bltu | bgeu =>
    simp only [exec, execBeq, execBne, execBlt, execBge, execBltu, execBgeu, goes_ccBranch]
  | cwtWait | cwtRead | fncA | fncR | fncF =>
    simp only [exec, execCwtWait, execCwtRead, execFncA, execFncR, execFncF]
    exact goes_ite (goes_next _) (goes_mSlot _ _ _ _ _ _)
  | seqCreate | seqRead | seqRetire =>
    simp only [exec, execSeqCreate, execSeqRead, execSeqRetire, goes_seqOp]
  | por | loReadLatch | dgstRebuild =>
    exact goes_ite goes_choice (goes_next _)
  | verdictExchange | stewardWatchdog | peerPairCommandReceived =>
    refine goes_ite (goes_next _) ?_
    split
    exacts [goes_choice, goes_next _]
  | transferComplete | cqeHoldRelease | cqeHoldTimeout =>
    conv => arg 1; whnf
    split
    exacts [goes_next _, goes_choice]
  | heatSample | compaction | partialArrival =>
    conv => arg 1; whnf
    split
    · exact goes_next _
    · conv => arg 1; whnf
      split
      exacts [goes_next _, goes_choice]
  | ld | lw =>
    simp only [exec, execLd, execLw, goes_ccLoad]
  | st | sw =>
    simp only [exec, execSt, execSw, goes_ccStore]
  | evacuationComplete | timeBasePllLock =>
    exact goes_ite (goes_ite (goes_next _) goes_choice) (goes_next _)
  | blockIdleAck | apertureAccess =>
    exact goes_ite (goes_next _) (goes_ite (goes_next _) (goes_ite (goes_next _) goes_choice))
  | dispatcherBag | taskStop =>
    refine goes_ite (goes_next _) ?_
    split
    exacts [goes_next _, goes_choice]
  | heatOn | debugDaAccess =>
    refine goes_ite (goes_next _) ?_
    split <;> exact goes_next _
  | paceSample | coreDeferredException =>
    conv => arg 1; whnf
    split <;> exact goes_next _
  | startupTimeout | batchComplete =>
    conv => arg 1; whnf
    split
    exacts [goes_next _, goes_ite goes_choice (goes_next _)]
  | nvmeCompletion | cxlCacheGo =>
    conv => arg 1; whnf
    split
    exacts [goes_next _, goes_ite (goes_next _) goes_choice]
  | fillRowArrival | updateReadComplete =>
    conv => arg 1; whnf
    split
    · exact goes_next _
    · split
      · exact goes_next _
      · conv => arg 1; whnf
        split <;> exact goes_next _
  | coreNop =>
    simp only [exec, execCoreNop]
    exact goes_ite (goes_vSlot _ _ _ _ _ _) (goes_mSlot _ _ _ _ _ _)
  | debugHalt =>
    exact goes_ite (goes_next _) (goes_ite (goes_ite (goes_next _) goes_choice) (goes_ite (goes_next _) goes_choice))
  | bktMove =>
    exact goes_ite (goes_next _) (goes_ite (goes_next _) (goes_ite (goes_next _) (goes_ite (goes_next _) goes_choice)))
  -- the longer meanings
  | aqDriveIdentified => exact goes_aqDriveIdentified _ _ _ _ _
  | taskPlace => exact goes_taskPlace _ _
  | timeMessage => exact goes_timeMessage _ _ _ _ _
  | windowHostAccess => exact goes_windowHostAccess _ _ _ _ _
  | tblSeal => exact goes_tblSeal _ _
  | aqMount => exact goes_aqMount _ _ _
  | aqSurpriseRemoval => exact goes_aqSurpriseRemoval _ _ _
  | aqExtCreate => exact goes_aqExtCreate _ _
  | patrolScrubRead => exact goes_patrolScrubRead _ _ _ _ _
  | railFault => exact goes_railFault _ _ _ _ _ _
  | mmaStart => exact goes_mmaStart _ _
  | transferBlock => exact goes_transferBlock _ _ _
  | updateRecord => exact goes_updateRecord _ _
  | markerRoundComplete => exact goes_markerRoundComplete _ _ _
  | sqeFetch => exact goes_sqeFetch _ _ _ _
  | rstcIdleTimeoutExpiry => exact goes_rstcIdleTimeoutExpiry _ _
  | taskWaitTimeout => exact goes_taskWaitTimeout _ _ _
  | sleepExpiry => exact goes_sleepExpiry _ _ _
  | hostSnoop => exact goes_hostSnoop _ _ _
  | sectorRereadComplete => exact goes_sectorRereadComplete _ _ _ _ _ _
  | reservoirReadResponse => exact goes_reservoirReadResponse _ _ _
  | worklistArrival => exact goes_worklistArrival _ _ _
  | farRowRequest => exact goes_farRowRequest _ _
  | streamStart => exact goes_streamStart _ _ _
  | stackRowRequest => exact goes_stackRowRequest _ _ _
  | luRowArrival => exact goes_luRowArrival _ _ _
  | waitqDelivery => exact goes_waitqDelivery _ _ _ _ _ _ _
  | wstgStagingComplete => exact goes_wstgStagingComplete _ _

/-- Settles O59: every meaning ends in a next state, whatever its shape. -/
theorem noCommandStopsTheBlock : Obligations.NoCommandStopsTheBlock := by
  unfold Obligations.NoCommandStopsTheBlock
  exact goes_exec

end Sys2Proof.Machine
end
